-- ==== Sys2Proof/Word.lean ====
section
/-!
DEFINITION. The plain data types every other file is written over: bytes, ticks, sparse tables and
bounded counters. What an operation on them does stands in Machine/Ops.lean.
-/
namespace Sys2Proof

/-- One byte of a store, a payload or a message (R10). -/
abbrev Byte := BitVec 8

/-- A time in Tc (R13), free or corrected; a plain natural number, wrapped where the spec wraps it. -/
abbrev Tick := Nat

/-- A sparse table: key and value pairs with strictly rising keys, no entry equal to the default. -/
abbrev Tab (α : Type) := List (Nat × α)

/-- A 48-bit saturating event counter with its sticky flag (R14). -/
structure Ctr where
  val : Nat := 0
  sat : Bool := false
  deriving DecidableEq, Repr, Inhabited

end Sys2Proof
end

