-- ==== Sys2Proof/Syntax.lean ====
section
/-!
DEFINITION. The commands of the block: one constructor of `Instr` for each row of the opcode table,
with the row's operands. A mailbox command names only its mailbox (0 to 15 PF, 16 to 79 VF of
partition m - 16): its header and payload are those copied at go (R27). Where the spec gives a
structure no byte layout, the structure comes decoded (assumption 3).
-/
namespace Sys2Proof

/-- Windows of the host interface (R20). -/
inductive RegWindow where
  | pfBar0 | pfBar2
  | vfBar0 (part : Nat)
  deriving DecidableEq, Repr, Inhabited

/-- A doorbell: a page of PF BAR2 or a slot of a VF BAR0 (R20, R41). -/
inductive Doorbell where
  | pf (ring : Nat)
  | vf (part slot : Nat)
  deriving DecidableEq, Repr, Inhabited

/-- The number formats (R117, R118). -/
inductive Fmt where
  | f32 | b16 | h16 | e4m3 | e5m2 | e3m2 | e2m3 | e2m1 | e8m0
  | i32 | q15 | i8 | i4 | t5p | c16 | c8
  deriving DecidableEq, Repr, Inhabited

/-- Rounding of a conversion: R129 or R130 with its stream, step seed being the context's (R169). -/
inductive Rounding where
  | rne
  | sr (stream base : Nat)
  deriving DecidableEq, Repr, Inhabited

/-- Where the shift count of a narrowing instruction comes from (R153): immediate, scalar register, or a loop counter read as
a scalar operand (R156, assumption 27). -/
inductive ShiftSrc where
  | imm (s : Nat)
  | scalar (n : Nat)
  | counter (k : Nat)
  deriving DecidableEq, Repr, Inhabited

/-- The library functions (R141). -/
inductive LibFn where
  | exp | log | rcp | rsqrt | tanh | sigm
  deriving DecidableEq, Repr, Inhabited

/-- The instructions of a tile that a REP may repeat (R159), with register operands. -/
inductive TileOp where
  | vld (vd a : Nat) (c8 : Bool) | vld2 (vd a : Nat) (c8 : Bool) | vst (vs a : Nat)
  | mac (va vb : Nat)
  | mul (vd va vb : Nat) (sh : ShiftSrc)
  | add (vd va vb : Nat) | sub (vd va vb : Nat)
  | shift (vd va : Nat) (sh : ShiftSrc)
  | select (vd vp va vb : Nat)
  | cmac (va vb : Nat) | cmacj (va vb : Nat) | cmul (va vb : Nat)
  | accst (f : Fmt) (vd : Nat) (sh : ShiftSrc)
  | bfly (r x w s : Nat)
  | vadd (f : Fmt) (vd va vb : Nat) | vsub (f : Fmt) (vd va vb : Nat)
  | vmul (f : Fmt) (vd va vb : Nat) | vfma (f : Fmt) (vd va vb vc : Nat)
  | vmin (f : Fmt) (vd va vb : Nat) | vmax (f : Fmt) (vd va vb : Nat)
  | func (g : LibFn) (f : Fmt) (vd va : Nat)
  | cvt (src dst : Fmt) (vd va : Nat) (r : Rounding)
  | mxq (dst : Fmt) (vd va sc : Nat) (r : Rounding)
  | mxd (src dst : Fmt) (vd va sc : Nat)
  deriving DecidableEq, Repr, Inhabited

/-- Where a grid operation reads or writes: the store of an array, tile, the coding store, bonded
DRAM by device address, host-managed memory, or a region of a context (R94 to R96, R343); the samples of captured symbols as stage
U2 unpacks them, and those staged for sending (R269, R270). -/
inductive Place where
  | array (n : Nat) | tile (t : Nat) | coding | dram | hdm | capture | staging
  | region (ctx lregion kind : Nat)
  deriving DecidableEq, Repr, Inhabited

/-- A matrix descriptor (R86, R90, R123). -/
structure MatDesc where
  quad : Nat
  m : Nat
  k : Nat
  n : Nat
  fa : Fmt
  fb : Fmt
  aAddr : Nat
  bAddr : Nat
  aScale : Option Nat
  bScale : Option Nat
  rAddr : Nat
  acc : Bool
  rep : Nat
  deriving DecidableEq, Repr, Inhabited

/-- A conversion or quantisation on a quadrant, over its array store (R140). -/
structure QuadCvt where
  quad : Nat
  src : Fmt
  dst : Fmt
  sAddr : Nat
  dAddr : Nat
  scale : Nat
  count : Nat
  rnd : Rounding
  rowStride : Nat
  cols : Nat
  deriving DecidableEq, Repr, Inhabited

/-- A mover copy (R94): a post names consumer unit, entry and length; `several` marks a descriptor
with several writers of one address (R446); `add` is the SCATTER_ADD form, which adds F32 elements to the destination's
(R140). -/
structure CopyDesc where
  mover : Nat
  src : Place
  sAddr : Nat
  dst : Place
  dAddr : Nat
  len : Nat
  post : Option (Nat × Nat × Nat)
  several : Bool
  add : Bool := false
  deriving DecidableEq, Repr, Inhabited

/-- A SYNC descriptor (R430). -/
structure SyncDesc where
  op : Nat
  object : Nat
  amount : Nat
  unit : Nat
  position : Nat
  deriving DecidableEq, Repr, Inhabited

/-- A fabric request header with its data (R400). -/
structure FabReq where
  combined : Bool := false
  fixedRoute : Bool := false
  attempt : Nat := 0
  job : Nat := 0
  src : Nat := 0
  dst : Nat := 0
  tag : Nat := 0
  ackFloor : Nat := 0
  addr : Nat := 0
  length : Nat := 0
  path : Nat := 0
  firstStamp : Tick := 0
  operand0 : Nat := 0
  operand1 : Nat := 0
  data : List Byte := []
  several : Bool := false
  deriving DecidableEq, Repr, Inhabited

/-- The fabric operations of R401, with their request codes. -/
inductive FabOp where
  | load | store | get | put | reduceAdd
  | add | and | or | xor | addR | andR | orR | xorR | xchg | cas
  | faddF32 | faddB16 | faddRF32 | faddRB16
  deriving DecidableEq, Repr, Inhabited

/-- A fabric descriptor of a mover program (R402): who issues it (none: the firmware), what it asks,
and where a returned value or data goes. -/
structure FabDesc where
  ctx : Option Nat
  micro : Nat
  mover : Nat
  op : FabOp
  req : FabReq
  combinable : Bool
  retPlace : Place
  retAddr : Nat
  deriving DecidableEq, Repr, Inhabited

/-- A random or sampling instruction as its cost depends on it (R183). -/
inductive RndOp where
  | rdraw | runi | rnormBm | rnormTab
  | gmax (n : Nat) | topk (n k : Nat)
  deriving DecidableEq, Repr, Inhabited

/-- An instruction or descriptor of a program (R105, R147): the forms of chapters 03, 05, 06, 14 and 15, units logical. -/
inductive ProgOp where
  | tile (o : TileOp)
  | rep (n : Nat) (o : TileOp)
  | repOther (n : Nat)
  | loop (n last : Nat)
  | sbar (mask : Nat)
  | vgath (vd va a : Nat) | vscat (vs va a : Nat)
  | redSum (f : Fmt) (addr n sd : Nat)
  | random (o : RndOp)
  | xsend (dir : Int) (src dst b entry : Nat)
  | waitFree (unit entry : Nat) | post (unit entry len : Nat)
  | waitFull (entry : Nat) | release (entry : Nat)
  | mma (d : MatDesc)
  | quad (q : QuadCvt)
  | copy (d : CopyDesc)
  | fabric (d : FabDesc)
  | sync (d : SyncDesc)
  deriving DecidableEq, Repr, Inhabited

/-- The header of a tile program (R147). -/
structure TileHead where
  format : Nat := 1
  fused : Bool := false
  sliceMask : Nat := 0
  cycles : Nat := 0
  fusedMax : Nat := 0
  reps : Nat := 0
  entry : List Nat := []
  deriving DecidableEq, Repr, Inhabited

/-- A program of a logical unit: the number by which a table's entry (R194) or a micro-step's unit list (R347) names it, its
header on a tile, the position of its first descriptor elsewhere (R454), the window bytes it takes, the modes it puts into
address registers (R149), and its streams: one for each slice of a tile, else one. -/
structure UnitProg where
  unit : Nat := 0
  number : Nat := 0
  head : TileHead := {}
  first : Nat := 0
  bytes : Nat := 0
  modes : List Nat := []
  streams : List (List ProgOp) := []
  deriving DecidableEq, Repr, Inhabited

/-- An entry of a slot instance (R194). -/
structure TEntry where
  launchOfs : Nat := 0
  budget : Nat := 0
  deadlineOfs : Nat := 0
  unitBase : Nat := 0
  unitCount : Nat := 0
  kind : Nat := 0
  program : Nat := 0
  param : Nat := 0
  cell : Nat := 0
  deriving DecidableEq, Repr, Inhabited

/-- The shape record of a placement (R112), each list indexed by logical region. -/
structure Shape where
  regions : Nat := 1
  quadrants : List Nat := []
  tiles : List Nat := []
  movers : List Nat := []
  arrayGranules : List Nat := []
  tileGranules : List Nat := []
  windowGranules : Nat := 0
  dramGb : List Nat := []
  fabricPorts : List Nat := []
  deriving DecidableEq, Repr, Inhabited

/-- Share and program layout of one logical unit of a placement (R348). -/
structure UnitShare where
  unit : Nat := 0
  store : Nat := 0
  window : Nat := 0
  deriving DecidableEq, Repr, Inhabited

/-- A scoreboard entry of a placement's layout (R107): consuming unit, entry, slots, slot size in 64-byte units,
store offset of slot 0 within the owner's share, producer. -/
structure BufSpec where
  unit : Nat := 0
  entry : Nat := 0
  slots : Nat := 1
  slotSize : Nat := 1
  base : Nat := 0
  producer : Nat := 0xFF
  deriving DecidableEq, Repr, Inhabited

/-- An extent of a remap list (R389): source region, kind and offset, destination region and offset, length. -/
structure Extent where
  srcRegion : Nat := 0
  kind : Nat := 0
  srcOfs : Nat := 0
  dstRegion : Nat := 0
  dstOfs : Nat := 0
  len : Nat := 0
  deriving DecidableEq, Repr, Inhabited

/-- A placement record (R348): shape, region sizes in bytes (weights, KV, scratch), layout, the
remap lists it carries by source placement (R389), and the programs of its units. -/
structure Placement where
  shape : Shape := {}
  sizes : List (Nat × Nat × Nat) := []
  shares : List UnitShare := []
  bufs : List BufSpec := []
  remaps : List (Nat × List Extent) := []
  programs : List UnitProg := []
  deriving DecidableEq, Repr, Inhabited

/-- A context's record in the directory of a save stream (R386), with the numbers its rings had, its random state record
and its queued submissions as (tag, body). -/
structure SavedCtx where
  index : Nat := 0
  prio : Nat := 0
  depth : Nat := 0
  flags : Nat := 0
  weightsOf : Nat := 0xFFFF
  subRing : Nat := 0
  doneRing : Nat := 0
  srcPlacement : Nat := 0
  seed : Nat := 0
  step : Nat := 0
  pendSeed : Option Nat := none
  pendStep : Option Nat := none
  imgOfs : Nat := 0
  imgLen : Nat := 0
  subs : List (Nat × List Byte) := []
  deriving DecidableEq, Repr, Inhabited

/-- A ring of a save stream (R386): the number it had, its descriptor, its doorbell slot and both indices. -/
structure SavedRing where
  number : Nat := 0
  base : Nat := 0
  log2 : Nat := 4
  toHost : Bool := false
  cls : Nat := 5
  vector : Nat := 255
  slot : Nat := 0
  fnVf : Bool := false
  hostIdx : Nat := 0
  devIdx : Nat := 0
  deriving DecidableEq, Repr, Inhabited

/-- A synchronisation object of a save stream (R386). -/
structure SavedObj where
  index : Nat := 0
  type : Nat := 1
  flags : Nat := 0
  value : Nat := 0
  limit : Nat := 0
  holder : Nat := 0xFFFF
  holderStep : Nat := 0
  participants : Nat := 0
  arrived : Nat := 0
  job : Nat := 0
  phase : Nat := 0
  homeDev : Nat := 0
  members : Nat := 0
  initial : Nat := 0
  deriving DecidableEq, Repr, Inhabited

/-- The header and directory of a save stream (R386), decoded by the firmware under the key given. -/
structure StreamHead where
  format : Nat := 1
  detSig : Nat := 0
  dirLen : Nat := 4096
  imgEnd : Nat := 4096
  len : Nat := 8192
  hdm : Bool := false
  ledger : Bool := false
  hdmLen : Nat := 0
  ctxs : List SavedCtx := []
  rings : List SavedRing := []
  objects : List SavedObj := []
  jobs : List Nat := []
  dram2mb : Nat := 0
  deriving DecidableEq, Repr, Inhabited

/-- The CELL_CREATE payload fields of R298. -/
structure CellConfig where
  mu : Nat := 0
  ecp : Bool := false
  fdd : Bool := false
  standby : Bool := false
  learned : Bool := false
  prbDl : Nat := 0
  prbUl : Nat := 0
  antTx : Nat := 0
  antRx : Nat := 0
  layersDl : Nat := 0
  layersUl : Nat := 0
  uSlots : Nat := 0
  periodSlots : Nat := 0
  poolSlots : Nat := 0
  ldIter : Nat := 0
  tmplCell : Nat := 0
  ulDeliver : Nat := 0
  indRing : Nat := 0
  reqRing : Nat := 0
  prachThr : Nat := 0
  bindCount : Nat := 0
  prachFloor : Nat := 0
  symOfs : Int := 0
  indBase : Nat := 0
  indLen : Nat := 0
  bindList : Nat := 0
  deriving DecidableEq, Repr, Inhabited

/-- What a frame-table template carries for one of its cells (R296), its Sweep patterns included
(R333: spreading factors and demodulations), whether the reservations keep the cell's share, and its PRACH bindings as eAxC,
PRACH PRBs and PRACH symbols of the frame (R238). -/
structure TmplCell where
  index : Nat := 0
  config : CellConfig := {}
  cost64 : Nat := 0
  withinBudget : Bool := true
  sweepMask : Nat := 0
  sweepDemods : Nat := 0
  prach : List (Nat × Nat × List Nat) := []
  deriving DecidableEq, Repr, Inhabited

/-- A frame-table template, decoded (R222, R223; its byte layout is Zugraler's): `patterns` lists what each kind of slot
may launch beside the idle entries (R195). -/
structure Template where
  mu : Nat := 0
  ecp : Bool := false
  wellFormed : Bool := true
  placement : Placement := {}
  idle : List TEntry := []
  patterns : List (List TEntry) := []
  cells : List TmplCell := []
  learnedOps : Nat := 0
  longestWait : Nat := 0
  deriving DecidableEq, Repr, Inhabited

/-- The instance the firmware hands to SEAL (R193), with its parameter block. -/
structure InstSpec where
  slot : Nat
  paramBase : Nat
  paramLen : Nat
  params : List Byte := []
  entries : List TEntry
  deriving DecidableEq, Repr, Inhabited

/-- The items of background work (R494). -/
inductive BgItem where
  | arrayScrub | tileScrub | dramScrub | codingScrub | generatorCheck | datapathCheck | ageing
  deriving DecidableEq, Repr, Inhabited

/-- What a background item met: corrected errors, unreadable addresses, a failed check, and the
extra voltage (mV) each measured region needs (R491, R492). -/
structure BgResult where
  corrected : Nat := 0
  uncorrectable : List Nat := []
  failed : Bool := false
  deltas : List (Nat × Nat) := []
  deriving DecidableEq, Repr, Inhabited

/-- The memories that hold every control structure in two copies (R466). -/
inductive CtlMem where
  | sequencer | scoreboard | imilo
  deriving DecidableEq, Repr, Inhabited

/-- PTP message kinds the firmware sends (R60). -/
inductive PtpKind where
  | sync | delayReq | announce | followUp | delayResp
  deriving DecidableEq, Repr, Inhabited

/-- What an Announce says of its grandmaster (R60). -/
structure PtpSet where
  cls : Nat := 248
  accuracy : Nat := 0xFE
  variance : Nat := 0xFFFF
  prio2 : Nat := 128
  identity : Nat := 0
  steps : Nat := 0
  deriving DecidableEq, Repr, Inhabited

/-- The body of a PTP message; times in 2^-16 ns of PTP time (R61). -/
inductive PtpBody where
  | announce (d : PtpSet)
  | sync (twoStep : Bool) (t1 : Int)
  | followUp (t1 : Int)
  | delayReq
  | delayResp (t4 : Int)
  | other
  deriving DecidableEq, Repr, Inhabited

/-- A PTP message the firmware takes: domain, sequenceId, source port, correctionField in 2^-16 ns, and its capture at the PCS in
sixteenths of a free tick (R261). -/
structure PtpMsg where
  domain : Nat := 24
  seqId : Nat := 0
  source : Nat := 0
  corr : Int := 0
  cap16 : Nat := 0
  body : PtpBody := .other
  deriving DecidableEq, Repr, Inhabited

/-- A section of a C-plane message (R230): `beam` is the UE identity in type 5; extensions as type and body. -/
structure CSection where
  id : Nat := 0
  rb : Bool := false
  symInc : Bool := false
  start : Nat := 0
  num : Nat := 0
  reMask : Nat := 0xFFF
  numSym : Nat := 1
  beam : Nat := 0
  freqOfs : Int := 0
  exts : List (Nat × List Byte) := []
  deriving DecidableEq, Repr, Inhabited

/-- A C-plane message as the slot's parameter block holds it (R270). -/
structure CPlane where
  secType : Nat := 1
  timeOfs : Nat := 0
  frameStruct : Nat := 0
  cpLen : Nat := 0
  compHdr : Nat := 0
  sections : List CSection := []
  deriving DecidableEq, Repr, Inhabited

/-- One section of a received U-plane packet: PRBs `start` to `start + count - 1` (count 0: all that
follow), the bytes of each PRB as on the wire, and the compression header if present (R233, R240). -/
structure USection where
  startPrb : Nat
  numPrb : Nat
  compHdr : Option Nat
  prbs : List (List Byte)
  deriving DecidableEq, Repr, Inhabited

/-- The eCPRI and O-RAN headers of a frame (R230 to R232). -/
structure UPacket where
  revision : Nat
  cbit : Bool
  msgType : Nat
  sizeOk : Bool
  ebit : Bool
  eaxc : Nat
  seqId : Nat
  frameId : Nat
  subframe : Nat
  slot : Nat
  symbol : Nat
  sections : List USection
  deriving DecidableEq, Repr, Inhabited

/-- A received Ethernet frame (R240) with its capture at the PCS in sixteenths of a free tick (R261). `bytes` is the frame
without its FCS, for host delivery. -/
structure RxFrame where
  fcsOk : Bool
  len : Nat
  dest : Nat
  vid : Option Nat
  doubleTag : Bool
  etype : Nat
  esmc : Bool
  cap16 : Nat
  upacket : Option UPacket
  bytes : List Byte
  deriving DecidableEq, Repr, Inhabited

/-- A polar job of a slot: mother code length, payload with its CRC, E and tag. Its layout in the slot is open; its data stands
in the slot (R279). -/
structure CodeJob where
  mother : Nat := 0
  k : Nat := 0
  e : Nat := 0
  tag : Nat := 0
  deriving DecidableEq, Repr, Inhabited

/-- The fields of an LDPC job (R272, R278). -/
structure LdJob where
  bg : Nat := 0
  zc : Nat := 0
  filler : Nat := 0
  e : Nat := 0
  rv : Nat := 0
  qm : Nat := 0
  ncb : Nat := 0
  iterations : Nat := 0
  rows : Nat := 0
  offset : Nat := 0
  combine : Bool := false
  writeBack : Bool := false
  cbCrc : Bool := false
  sbAddr : Nat := 0
  tag : Nat := 0
  deriving DecidableEq, Repr, Inhabited

/-- Kinds of physical-layer PDU (R301). -/
inductive PduKind where
  | pdsch | pdcch | ssb | csiRs | pusch | pucch | prach | srs
  deriving DecidableEq, Repr, Inhabited

/-- Code blocks alike of a shared-channel PDU (R273, R278), and how many. -/
structure CodeBlock where
  bg : Nat := 0
  zc : Nat := 0
  filler : Nat := 0
  e : Nat := 0
  ncb : Nat := 0
  count : Nat := 1
  deriving DecidableEq, Repr, Inhabited

/-- What R265 leaves out. -/
inductive NotOffered where
  | lteNbIot | sidelink | positioning | multicast | sharedSpectrum | ntnTiming | prachLength571 | prachLength1151
  | restrictedSet | multiSlotBlock | cbgPusch
  deriving DecidableEq, Repr, Inhabited

/-- The options a PDU asks for (R264): bits per symbol of the modulation, DFT-s-OFDM, DMRS type, symbols and additional positions,
CBGs, aggregation level, symbols of the CORESET or of SRS, payload bits of DCI or UCI, L_max, ports of CSI-RS or SRS, comb, the
format of PUCCH (0 to 4) or PRACH (0 to 3 long; A1 to A3, B1 to B4, C0, C2 as 0 to 8), and what R265 excludes. -/
structure PduAsk where
  modulation : Nat := 2
  dfts : Bool := false
  dmrsType : Nat := 1
  dmrsSymbols : Nat := 1
  dmrsAdded : Nat := 0
  cbgs : Nat := 0
  aggregation : Nat := 1
  symbols : Nat := 1
  bits : Nat := 0
  lmax : Nat := 4
  ports : Nat := 1
  comb : Nat := 2
  format : Nat := 0
  excluded : List NotOffered := []
  deriving DecidableEq, Repr, Inhabited

/-- What detection needs of a PRACH occasion (R284): the sequence length 839 or 139, N_CS, the subcarrier spacing in Hz, and
for each preamble in order its root and cyclic shift C_v. -/
structure Prach where
  long : Bool := true
  ncs : Nat := 0
  spacing : Nat := 1250
  preambles : List (Nat × Nat) := []
  deriving DecidableEq, Repr, Inhabited

/-- A PDU of a slot message with what admission, HARQ and detection need of it (R264, R284, R295, R304, R308). -/
structure Pdu where
  kind : PduKind := .pusch
  ask : PduAsk := {}
  firstPrb : Nat := 0
  prbs : Nat := 0
  firstSym : Nat := 0
  syms : Nat := 14
  layers : Nat := 0
  blocks : List CodeBlock := []
  polar : List (Nat × Nat × Nat) := []
  srsPrecoding : Bool := false
  harq : Nat := 0
  newData : Bool := true
  ndi : Bool := false
  rv : Nat := 0
  tbs : Nat := 0
  prach : Prach := {}
  deriving DecidableEq, Repr, Inhabited

/-- What a CONFIG.request may say: what CELL_CREATE has fixed, PRBs of reference signals that the configuration fixes (R318), or
something else (R301). -/
inductive ConfigItem where
  | mu (n : Nat) | ecp (b : Bool) | fdd (b : Bool) | prbDl (n : Nat) | prbUl (n : Nat) | antTx (n : Nat) | antRx (n : Nat)
  | period (n : Nat) | wideSignal (firstPrb prbs : Nat) | other (tag value : Nat)
  deriving DecidableEq, Repr, Inhabited

/-- The HARQ state of a process as it is mirrored (R308): soft-buffer slot (255 none), TBS, last redundancy version, NDI. -/
structure HarqMirror where
  process : Nat := 0
  slot : Nat := 255
  tbs : Nat := 0
  rv : Nat := 0
  ndi : Bool := false
  deriving DecidableEq, Repr, Inhabited

/-- A slot message: SFN, slot and its PDUs (R303). -/
structure SlotMsg where
  sfn : Nat
  slot : Nat
  pdus : List Pdu
  deriving DecidableEq, Repr, Inhabited

/-- A TX_DATA.request: the PDU indices it brings and the HDM offset of each block. -/
structure TxMsg where
  sfn : Nat
  slot : Nat
  blocks : List (Nat × Nat)
  deriving DecidableEq, Repr, Inhabited

/-- A K_PRIO.request: direction (true uplink), priority, PDU index (R302). -/
structure PrioMsg where
  sfn : Nat
  slot : Nat
  entries : List (Bool × Nat × Nat)
  deriving DecidableEq, Repr, Inhabited

/-- A mirror record of a twin (R308): a snapshot with its sender (device, partition, cell), a scheduling record with the admitted
PDUs (uplink, index, PDU), the sequence positions and gains, HARQ state, or a record that is missing. A sequence position is keyed
by eAxC and direction. -/
inductive MirrorRec where
  | snapshot (sender : Nat × Nat × Nat) (slot : Nat) (pdus : List (Bool × Nat × Pdu)) (gains : List (Nat × Int × Int))
      (seqs : List (Nat × Nat)) (procs : List HarqMirror)
  | schedule (slot : Nat) (pdus : List (Bool × Nat × Pdu)) (seqs : List (Nat × Nat)) (gains : List (Nat × Int × Int))
  | harq (slot : Nat) (procs : List HarqMirror)
  | gap
  deriving DecidableEq, Repr, Inhabited

/-- The result of COMMIT(s) at the former active (R310). -/
inductive CommitOutcome where
  | applied | refused | unknown | timedOut
  deriving DecidableEq, Repr, Inhabited

/-- A fabric reply (R403). -/
structure FabReply where
  combined : Bool
  dup : Bool
  attempt : Nat
  status : Nat
  src : Nat
  dst : Nat
  tag : Nat
  result : Nat
  data : List Byte
  deriving DecidableEq, Repr, Inhabited

/-- A heartbeat (R468). -/
structure Beat where
  sender : Nat
  epoch : Nat
  tick : Tick
  health : Nat
  twilight : Bool
  suspects : List Nat
  deriving DecidableEq, Repr, Inhabited

/-- A proposal of the agreement (R469, R473, R313): member set, twilight set, budget state, and the lost cells it names
(partition, cell, last slot run). -/
structure Proposal where
  epoch : Nat := 0
  round : Nat := 0
  members : List Nat := []
  twilight : List Nat := []
  outstanding : Nat := 0
  lastUnhealthy : Tick := 0
  changed : Nat := 0xFFFF
  cause : Nat := 0
  lost : List (Nat × Nat × Nat) := []
  deriving DecidableEq, Repr, Inhabited

/-- Sensor values of one control period (R481, R486, R489): power in 0.25 W, voltage in 10 mV,
current in 10 mA, temperatures in 1/16 °C (-32 768 where absent or failed), domain powers, energy of the period in mJ. -/
structure Sensors where
  pIn : Nat := 0
  vIn : Nat := 0
  iIn : Nat := 0
  grid : List Int := []
  pkg : List Int := []
  dom : List Nat := []
  energy : Nat := 0
  deriving DecidableEq, Repr, Inhabited

/-- What the physical side of Dawn yields (R503 to R512): each verdict as the hardware finds it. -/
structure DawnEnv where
  identityOk : Bool := true
  railsOk : Bool := true
  refLocked : Bool := true
  blobSigOk : Bool := true
  flashAnswers : Bool := true
  memoryOk : Bool := true
  imageSigOk : Bool := true
  entropyOk : Bool := true
  failedUnits : List Nat := []
  deltas : List (Nat × Nat) := []
  lanes : Nat := 16
  rate : Nat := 64
  straps : Nat := 0
  romDigest : List Byte := []
  aliasCert : List Byte := []
  deriving DecidableEq, Repr, Inhabited

/-- The transports of the SPDM responder (R515). -/
inductive Transport where
  | mctp | doe
  deriving DecidableEq, Repr, Inhabited

/-- A PLDM sensor (R518): a field of the power mirror by offset, the health score, the Dawn state. -/
inductive Sensor where
  | mirror (field : Nat)
  | health
  | dawnState
  deriving DecidableEq, Repr, Inhabited

/-- The commands of the block, one constructor per row of the opcode table, in its order. -/
inductive Instr where
  -- 01 host attach and mailboxes
  | linkTraining (lanes rate : Nat)
  | mbxGo (m : Nat) (abort ack irqEn : Bool) (ring : Nat)
  | mbxAbort (m : Nat) (ack irqEn : Bool) (ring : Nat)
  | mbxAck (m : Nat) (irqEn : Bool) (ring : Nat)
  | commandTaken (m : Nat) (errs : List (CtlMem × Nat))
  | mbxTimeout (m : Nat)
  | registerWrite (w : RegWindow) (offset size value : Nat)
  | nop (m : Nat)
  | eventRingConfig (m : Nat)
  | cancel (m : Nat)
  | queryOperation (m : Nat)
  | ringCreate (m : Nat)
  | ringDestroy (m : Nat)
  | telemetryClear (m : Nat)
  | eventRingConsWrite (ring value : Nat)
  | doorbellWrite (d : Doorbell) (value : Nat)
  | telemetrySnapshot
  -- 02 air clock and timebase
  | refLost
  | refReturn
  | servoInput (e : Int) (m : Tick)
  | holdoverStart
  | holdoverLimit
  | ptpFrame (mac : Nat) (msg : PtpMsg)
  | ptpTransmit (mac : Nat) (kind : PtpKind)
  | esmcReceive (mac ql : Nat)
  | esmcTransmit (mac ql : Nat)
  | ppsInEdge
  | ppsMissed
  | ppsOutRise
  | ppsOutFall
  | freeRead (low : Bool)
  | lowHalfRead (offset : Nat)
  | timeRead (m : Nat)
  | timeServoConfig (m : Nat)
  | timeSource (m : Nat)
  | timeStep (m : Nat)
  | frameConfig (m : Nat)
  | noonArm (m : Nat)
  | noonDisarm (m : Nat)
  | ppsConfig (m : Nat)
  | noonList (m : Nat)
  | noonFired (k : Nat)
  -- 03 the compute grid; `sl` is the slice of a tile (R145), `stop` the whole pieces done when a stop ended the transfer (R198)
  | mma (d : MatDesc) (stop : Option Nat)
  | moverCopy (d : CopyDesc) (stop : Option Nat)
  | waitFree (producer sl unit entry : Nat)
  | waitFreeResume (producer sl unit entry : Nat)
  | post (poster sl unit entry len : Nat)
  | waitFull (unit sl entry : Nat)
  | waitFullResume (unit sl entry : Nat)
  | release (unit sl entry : Nat)
  | releaseReturn (unit entry : Nat)
  -- 05 signal tiles
  | vld (t sl vd a : Nat) (c8 : Bool)
  | vld2 (t sl vd a : Nat) (c8 : Bool)
  | vst (t sl vs a : Nat)
  | vgath (t sl vd va a : Nat)
  | vscat (t sl vs va a : Nat)
  | mac (t sl va vb : Nat)
  | mul (t sl vd va vb : Nat) (sh : ShiftSrc)
  | add (t sl vd va vb : Nat)
  | sub (t sl vd va vb : Nat)
  | shift (t sl vd va : Nat) (sh : ShiftSrc)
  | select (t sl vd vp va vb : Nat)
  | cmac (t sl va vb : Nat)
  | cmacj (t sl va vb : Nat)
  | cmul (t sl va vb : Nat)
  | accst (t sl : Nat) (f : Fmt) (vd : Nat) (sh : ShiftSrc)
  | bfly2 (t sl x w s : Nat)
  | bfly4 (t sl x w s : Nat)
  | bfly8 (t sl x w s : Nat)
  | vadd (t sl : Nat) (f : Fmt) (vd va vb : Nat)
  | vsub (t sl : Nat) (f : Fmt) (vd va vb : Nat)
  | vmul (t sl : Nat) (f : Fmt) (vd va vb : Nat)
  | vfma (t sl : Nat) (f : Fmt) (vd va vb vc : Nat)
  | vmin (t sl : Nat) (f : Fmt) (vd va vb : Nat)
  | vmax (t sl : Nat) (f : Fmt) (vd va vb : Nat)
  | vexp (t sl : Nat) (f : Fmt) (vd va : Nat)
  | vlog (t sl : Nat) (f : Fmt) (vd va : Nat)
  | vrcp (t sl : Nat) (f : Fmt) (vd va : Nat)
  | vrsqrt (t sl : Nat) (f : Fmt) (vd va : Nat)
  | vtanh (t sl : Nat) (f : Fmt) (vd va : Nat)
  | vsigm (t sl : Nat) (f : Fmt) (vd va : Nat)
  | cvt (t sl : Nat) (src dst : Fmt) (vd va : Nat) (r : Rounding) (quad : Option QuadCvt)
  | mxq (t sl : Nat) (dst : Fmt) (vd va sc : Nat) (r : Rounding) (quad : Option QuadCvt)
  | mxd (t sl : Nat) (src dst : Fmt) (vd va sc : Nat) (quad : Option QuadCvt)
  | redSum (unit sl : Nat) (f : Fmt) (addr n sd : Nat)
  | loop (t sl n last : Nat)
  | rep (t n : Nat) (op : TileOp)
  | sbar (t sl mask : Nat)
  | sbarResume (t : Nat)
  | xsend (t sl : Nat) (dir : Int) (src dst b entry : Nat) (stop : Option Nat)
  | xsendStallEnd (t sl : Nat)
  -- 06 random bits; `vp` the vector register of lane predicates, if any (R176)
  | rdraw (t sl vd sm sn : Nat) (vp : Option Nat)
  | runi (t sl vd sm sn : Nat) (vp : Option Nat)
  | rnormBm (t sl vd sm sn : Nat) (vp : Option Nat)
  | rnormTab (t sl vd sm sn : Nat) (vp : Option Nat)
  | gmax (t n addr sm sn sd : Nat) (vp : Option Nat)
  | topk (t n k addr dst sm sn : Nat) (vp : Option Nat)
  | rngSeed (m : Nat)
  | rngQuery (m : Nat)
  | rngEval (m : Nat)
  -- 07 the time-table sequencer
  | seal (table : Nat) (i : InstSpec)
  | sealLine (table slot : Nat)
  | entryLaunch (table slot pos : Nat) (errs : List (CtlMem × Nat))
  | stageEnd (table slot pos : Nat)
  | reservationEnd (table slot pos : Nat)
  | lendDecision
  | microStepBlocking (ctx micro : Nat)
  | microStepEnd (ctx micro : Nat)
  | backgroundItemStart (unit : Nat) (item : BgItem)
  | backgroundItemEnd (unit : Nat) (r : BgResult)
  | tableLoad (m : Nat) (t : Option Template)
  | tableLoadDone (h : Nat)
  | tableUnload (m : Nat)
  | tableStop (m : Nat)
  | tableStatus (m : Nat)
  | lendConfig (m : Nat)
  -- 08 fronthaul ports
  | fhLink (mac : Nat) (up : Bool)
  | frameReceive (mac : Nat) (f : RxFrame)
  | windowOpen (b slot symbol : Nat)
  | symbolPost (b slot symbol : Nat)
  | uplaneRelease (b slot symbol : Nat)
  | cplaneRelease (b slot symbol : Nat) (msg : CPlane)
  | transmitSelect (mac : Nat)
  | shaperRefill (mac q : Nat)
  | policerRefill (mac i : Nat)
  | gateEdge (mac : Nat)
  | gclSwitched (mac : Nat)
  | ethTx (ring : Nat)
  | fhPortMode (m : Nat)
  | fhMacConfig (m : Nat)
  | fhQueueConfig (m : Nat)
  | fhGclSet (m : Nat)
  | fhPolicerSet (m : Nat)
  | fhAsymSet (m : Nat)
  | fhStatus (m : Nat)
  -- 09 NR physical layer processing
  | ldInputPhase (eng : Nat)
  | ldDecodePhase (eng : Nat)
  | ldOutputPhase (eng : Nat)
  | leJob (eng : Nat)
  | pdJob (eng : Nat) (j : CodeJob)
  | peJob (eng : Nat) (j : CodeJob)
  | gainSet (m : Nat)
  | stageRecords (m : Nat)
  -- 10 cells, admission and twins
  | cellCreate (m : Nat)
  | cellDestroy (m : Nat)
  | cellQuery (m : Nat)
  | twinPair (m : Nat) (peerEqual : Bool)
  | twinUnpair (m : Nat)
  | paramRequest (ring : Nat)
  | configRequest (ring : Nat) (items : List ConfigItem)
  | startRequest (ring : Nat)
  | stopRequest (ring : Nat)
  | dlTtiRequest (ring : Nat) (msg : SlotMsg)
  | ulTtiRequest (ring : Nat) (msg : SlotMsg)
  | ulDciRequest (ring : Nat) (msg : SlotMsg)
  | txDataRequest (ring : Nat) (msg : TxMsg)
  | kPrioRequest (ring : Nat) (msg : PrioMsg)
  | unsupportedMessage (ring identity : Nat)
  | intakeLine (part cell slot : Nat)
  | slotIndication (part cell slot : Nat)
  | twinMirrorRecord (part cell : Nat) (r : MirrorRec)
  | twinCommit (part cell slot : Nat)
  | commitResult (part cell : Nat) (o : CommitOutcome)
  -- 11 sweep access
  | sweepChannelSet (m : Nat)
  | sweepChannelClear (m : Nat)
  | sweepStatus (m : Nat)
  | sweepTx (ring : Nat)
  | sweepTxDone (chan : Nat)
  | sweepDetectionWindow (chan sf : Nat)
  | sweepSymbol (chan sf t0 : Nat) (f : Int)
  -- 12 inference serving
  | ctxCreate (m : Nat) (places : List Placement)
  | ctxCreateDone (h : Nat)
  | ctxDestroy (m : Nat)
  | ctxDestroyDone (h : Nat)
  | ctxWrite (m : Nat)
  | ctxWriteDone (h : Nat)
  | ctxReside (m : Nat)
  | residencyDone (ctx : Nat)
  | ctxEvict (m : Nat)
  | ctxFlush (m : Nat)
  | ctxQuery (m : Nat)
  | stepSubmit (ring : Nat)
  | batchStepStart (ctx : Nat)
  | batchStepCommit (ctx : Nat)
  | stepBoundExpiry (ctx : Nat)
  | stepDone (ring : Nat)
  | noonHoldTimeout (ctx : Nat)
  -- 13 partitions and migration
  | partCreate (m : Nat)
  | partCreateDone (h : Nat)
  | partRemove (m : Nat)
  | partReset (m : Nat)
  | functionLevelReset (part : Nat)
  | resetFabricDrain (part : Nat)
  | resetHostDrain (part late : Nat)
  | partResetDone (part : Nat)
  | partQuery (m : Nat)
  | partFreeze (m : Nat)
  | freezeComplete (part : Nat)
  | partThaw (m : Nat)
  | partSave (m : Nat)
  | partRestore (m : Nat) (head : StreamHead)
  | partQuota (m : Nat)
  | quarantineEnd (job : Nat)
  -- 14 the memory fabric
  | fabDeviceConfig (m : Nat)
  | fabPortConfig (m : Nat)
  | fabJobTake (m : Nat)
  | fabJobRelease (m : Nat)
  | fabWindowSet (m : Nat)
  | fabWindowClear (m : Nat)
  | fabStatus (m : Nat)
  | fabPort (port : Nat) (up : Bool)
  | fabricRequestIssue (d : FabDesc)
  | fabricIssueResume (ctx : Nat)
  | load (r : FabReq)
  | store (r : FabReq)
  | get (r : FabReq)
  | put (r : FabReq)
  | reduceAdd (r : FabReq)
  | atomicAdd (r : FabReq)
  | atomicAnd (r : FabReq)
  | atomicOr (r : FabReq)
  | atomicXor (r : FabReq)
  | addR (r : FabReq)
  | andR (r : FabReq)
  | orR (r : FabReq)
  | xorR (r : FabReq)
  | xchg (r : FabReq)
  | cas (r : FabReq)
  | fadd (r : FabReq) (b16 : Bool)
  | faddR (r : FabReq) (b16 : Bool)
  | fabricReply (r : FabReply)
  | replyTimeout (dst tag : Nat)
  | lifetimeExpiry (dst tag : Nat)
  | sourceRecordExpiry (src : Nat)
  | ledgerEntryExpiry (src tag : Nat)
  | ffence (ctx micro mover : Nat) (scope : Option Nat)
  | ffenceComplete (ctx : Nat)
  -- 15 synchronisation and determinism
  | syncDescriptor (ctx micro : Nat) (d : SyncDesc)
  | syncListApply (ctx micro : Nat)
  | syncCreate (m : Nat)
  | syncDestroy (m : Nat)
  | syncOp (m : Nat)
  | syncQuery (m : Nat)
  | syncDump (m : Nat)
  | syncReset (m : Nat)
  | detMode (m : Nat)
  | detQuery (m : Nat)
  -- 16 faults, resets and membership
  | hltReset (m : Nat)
  | hltWindows (m : Nat)
  | memberConfig (m : Nat)
  | memberQuery (m : Nat)
  | memberJoin (m : Nat)
  | memberSuspect (m : Nat)
  | stepLedgerBind (m : Nat)
  | ledgerCasResult (ctx : Nat) (status : Nat) (old : Nat)
  | stepSlow (ctx : Nat)
  | faultLogConsWrite (part : Option Nat) (value : Nat)
  | radioHang (unit : Nat)
  | inferenceHang (ctx : Nat)
  | contextResetDone (ctx : Nat)
  | gridResetPhaseB
  | gridResetDone (failed : List Nat)
  | resetOverrun (ctx : Option Nat)
  | healthDecay
  | heartbeatSend
  | heartbeat (b : Beat)
  | prepare (src epoch round : Nat)
  | promise (src epoch round : Nat) (last : Option Proposal)
  | proposal (src : Nat) (p : Proposal)
  | acceptance (src epoch round : Nat)
  | commit (p : Proposal) (e : Tick)
  | roundTimeout
  -- 17 power, ageing and background work
  | controlPeriod (v : Sensors)
  | clockStepUp
  | inputUndervoltage (vIn : Nat)
  | inputRestored (vIn : Nat)
  | powerFault (vIn : Nat)
  | vstbyLoss
  | strideStart
  | pwrCap (m : Nat)
  | bgConfig (m : Nat)
  -- 18 dawn, firmware and trust; 19 package
  | dawn (env : DawnEnv)
  | cxlPerstAssert
  | cxlPerstDeassert
  | entropyTestFailure
  | dawnState
  | deviceReset
  | blobWrite (offset : Nat) (bytes : List Byte) (sigOk : Bool)
  | ownerEnrol (key : List Byte)
  | eventLogRead (first : Nat)
  | setEndpointId (eid : Nat)
  | pldmSensorRead (sensor : Sensor)
  | requestUpdate
  | requestFirmwareData (bytes : List Byte) (sigOk : Bool)
  | activateFirmware
  | updateIdleTimeout
  | getVersion (tr : Transport)
  | getCapabilities (tr : Transport)
  | negotiateAlgorithms (tr : Transport) (sig hash : Bool)
  | getDigests (tr : Transport) (slot : Nat)
  | getCertificate (tr : Transport) (slot offset len : Nat)
  | challenge (tr : Transport) (slot : Nat) (nonce : List Byte)
  | getMeasurements (tr : Transport) (index : Nat) (signed : Bool) (nonce : List Byte)
  | respondIfReady (tr : Transport)
  | signatureDone
  | bypass
  | idcode
  | samplePreload (cells : List Bool)
  | extest
  | clamp
  | highz
  | trstAssert
  | saveChunkDone (h : Nat)
  | restoreChunkDone (h : Nat) (places : List (List Placement))
  | entropyTestsPass
  deriving DecidableEq, Repr, Inhabited

end Sys2Proof
end

