-- ==== Sys2Proof/Config.lean ====
section
/-!
DEFINITION. What an implementation fixes and what the spec leaves open. An opaque constant here is a
free value: no proof can see what it is.
-/
namespace Sys2Proof.Config

/-- A value the spec leaves open, by the state's counter `fresh` (assumption 2). -/
opaque freeNat : Nat → Nat

/-- A byte of memory whose contents the spec leaves undefined (R360), by its range's number and its place in it. -/
opaque freeByte : Nat → Nat → BitVec 8

/-- Bits of the on-die entropy source (R512): keys and seeds, by the state's counter `fresh`. -/
opaque entropy : Nat → Nat

/-- The logical region that an entry of a page list addresses, by its position (R351; open). -/
opaque pageRegion : Nat → Nat

/-- Where in the scratch region the page list is copied (R351; open). -/
opaque pageListOffset : Nat

/-- Which of the codes within the stated error a library function gives (R141), by function, format and operand code. -/
opaque libm : Nat → Nat → Nat → Nat

/-- Which of the codes within the stated error a Box-Muller variate is (R178), by the integers m and n of u and u2. -/
opaque boxMuller : Nat → Nat → Nat

/-- What a fixed-point operation gives outside its format, where the spec states no result: the operation and the exact
value; the code in the low 32 bits, bit 32 whether store_sat is set. -/
opaque outOfRange : Nat → Int → Nat

/-- 64 KB units of a soft-buffer slot, by PRBs, layers and numerology of the uplink, but for a cell unit (R280): the largest code-block count
a configuration allows follows TS 38.214, which the spec names and does not list. -/
opaque softSlot : Nat → Nat → Nat → Nat

/-- The destination address of fronthaul frames, by MAC and eAxC (R246): the radio unit's, which no command gives. -/
opaque radioUnit : Nat → Nat → Nat

/-- The section identity of sent U-plane sections, by eAxC and first PRB (R246; open). -/
opaque sectionId : Nat → Nat → Nat

/-- The clock identity of the device (R60; open). -/
opaque clockIdentity : Nat

/-- Whether a port sends PTP to the forwardable address (R60: chosen per port; by whom is open). -/
opaque ptpForwardable : Nat → Bool

/-- Bytes a Tc at which the checks take frames from a port's receive buffer (R244; open). -/
opaque rxDrain : Nat

/-- The sixteenths of a Tc between a frame's start and its capture at the PCS, by free tick (R261; open). -/
opaque txPhase : Nat → Nat

/-- The waiter-table entry of a wait, by object and position in its list (R429; which free entry a wait takes is open). -/
opaque waiterEntry : Nat → Nat → Nat

/-- Base-graph rows of LDPC code bg (R272): for a row, its (column, shift) pairs at a lifting size. The spec names the
3GPP tables and does not list them. -/
opaque ldColumns : Nat → Nat → Nat → List (Nat × Nat)

/-- What the outputs of a cell's slot may depend on (R266): the samples captured, the slot's uplink PDUs with their indices, the
cell's configuration and gains, the template, and what the soft buffer of the process holds. -/
structure UlInputs where
  samples : List (List Byte) := []
  pdus : List (Nat × Pdu) := []
  config : CellConfig := {}
  gains : List (Nat × Int × Int) := []
  template : Template := {}
  soft : List Byte := []
  deriving DecidableEq, Repr, Inhabited

/-- The power of a delay bin of a root in a PRACH occasion (R284): the root sequences are those of the standard and the arithmetic
of the transform stages is the template's (assumption 9). -/
opaque prachPower : UlInputs → Prach → Nat → Nat → Nat

/-- Whether a transport block of the slot decodes (assumption 20). -/
opaque blockPasses : UlInputs → Pdu → Bool

/-- The content of an uplink message beside what the spec lists (R301, assumption 18): message identity, index and PDU. -/
opaque ulContent : UlInputs → Nat → Nat × Pdu → List (BitVec 8)

/-- The order of the LLRs of a job whose E is no multiple of qm, for which the spec gives none (R274). -/
opaque oddOrder : Nat → List Int → List Int

/-- crc_ok of a job that checks no CRC, for which the spec gives none (R276, R277). -/
opaque uncheckedCrc : List Bool → Bool

/-- The power of a bin of the transform of Sweep samples after they are multiplied by a chirp: chirp, samples, bin (R328). -/
opaque binPower : List (Int × Int) → List (Int × Int) → Nat → Nat

/-- A resource element of the Q-point transform of the samples sent in a symbol (R335). -/
opaque sweepMap : List (Int × Int) → Nat → Int × Int

/-- The antenna-carrier of a cell that carries its Sweep channels, which the spec does not name (assumption 165). -/
opaque sweepAntenna : Nat → Nat

/-- The bits a coding engine that is not an LDPC decoder gives for a job: engine kind, job digest, input (R278). -/
opaque codeBits : Nat → List Nat → List (BitVec 8) → List (BitVec 8)

/-- AES-256-XTS of one 4 096-byte data unit (R387): key, unit number, plaintext. The spec names the cipher and does not
define it; only that the two functions exist is used. -/
opaque xtsEncrypt : List (BitVec 8) → Nat → List (BitVec 8) → List (BitVec 8)

/-- The inverse of the cipher: key, unit number, ciphertext. -/
opaque xtsDecrypt : List (BitVec 8) → Nat → List (BitVec 8) → List (BitVec 8)

/-- The identity public key (R511): what the unclonable structure yields is the part's. -/
opaque identityKey : List (BitVec 8)

/-- The certificates that stand before the alias certificate in slot 0 (R514): issued outside the device. -/
opaque issuedCerts : List (BitVec 8)

/-- The fuse state as the bytes that measurement 2 hashes (R513; the order is open): counter, then the digests and revocations. -/
opaque fuseImage : Nat → List (BitVec 8) → List (BitVec 8)

/-- Keandiora's JEP106 identity in IDCODE (R536): published in the boundary-scan file, not in the spec. -/
opaque jep106 : Nat

/-- Keandiora's IANA enterprise number, which DEV_IANA reports (R515): the spec does not give it. -/
opaque iana : Nat

/-- The fused voltages of the part by clock step (R492): which values within the bounds of Power.lean is the part's. -/
opaque fuse : Nat → Nat

/-- A byte of the directory of a save stream by what the directory holds and its offset (R386): the layout is open. -/
opaque dirByte : List (List Nat) → Nat → BitVec 8

end Sys2Proof.Config
end

