-- ==== Sys2Proof/Machine/State.lean ====
section
/-!
DEFINITION. The whole state of the block as plain data, subsystem by subsystem in the order of the
spec's chapters, the ways a command can stop, and the state after reset.
-/
namespace Sys2Proof.Machine

/-- A range whose bytes the spec leaves undefined (R360): byte `base + k` is free value `seed` at `ofs + k`, until written. -/
structure Hole where
  base : Nat
  len : Nat
  seed : Nat
  ofs : Nat
  deriving DecidableEq, Repr, Inhabited

/-- A byte store: the listed bytes, addresses strictly rising, and the undefined ranges. An unlisted byte reads 0, in an
undefined range its free value; outside these ranges no zero byte is listed. -/
structure Memory where
  cells : List Host.Cell := []
  holes : List Hole := []
  deriving DecidableEq, Repr, Inhabited

/-- Why a command stops. The spec gives no behaviour that stops the block. -/
inductive Fault where
  /-- The command names a unit, port or store the grade does not have: "disabled at test and ... not
  reachable by any means" (R3). Raised by the meanings that name a unit. Safe: the block stops. -/
  | absentUnit (what : String) (n : Nat)
  deriving DecidableEq, Repr

/-- Why a command has no meaning. -/
inductive Refusal where
  /-- The row has no meaning yet (the refused arms of Dispatch.lean). Safe. -/
  | notModelled (mnemonic : String)
  /-- An operand that the command's encoding cannot carry (WellFormed.lean): a register above 31, a
  mailbox above 79. Raised by every meaning. Safe: no such command exists. -/
  | malformed (what : String)
  deriving DecidableEq, Repr

/-- The two grades (R1). -/
inductive Grade where
  | t96 | t72
  deriving DecidableEq, Repr, Inhabited

/-! ### Chapter 01: host attach and mailboxes -/

/-- The status codes (R36). -/
inductive Status where
  | success | inProgress | busy | badOpcode | badLength | badField | zeroNotAllowed | notPermitted
  | aborted | mbxTimeout | cancelled | noResource | notReady
  | badAddress | imageRejected
  | noPartition | partitionState | quota | restoreShape
  | late | notLocked | timeRange
  | overBudget | cellState | twinUnavailable | slotLate
  | overrun | contextState | imageInvalid | notResident
  | jobRetired | outcomeUnknown | windowFault | fabricTimeout | notMember
  | ownerLost | notAsFound | notOwner | markedOp | signatureMismatch
  | twilight | expulsionBudget | hung | uncorrectable
  deriving DecidableEq, Repr, Inhabited

/-- A command as copied at go (R25, R27). -/
structure Cmd where
  opcode : Nat := 0
  tag : Nat := 0
  len : Nat := 0
  target : Nat := 0
  payload : List Byte := []
  deriving DecidableEq, Repr, Inhabited

/-- A response header and payload (R26). -/
structure Resp where
  status : Status := .success
  opcode : Nat := 0
  tag : Nat := 0
  retryAfter : Nat := 0
  handle : Nat := 0
  payload : List Byte := []
  deriving DecidableEq, Repr, Inhabited

/-- MBX_STATE.state (R24). -/
inductive MbxPhase where
  | idle | submitted | running | done
  deriving DecidableEq, Repr, Inhabited

/-- A mailbox page (R23, R24) with its response header and payload (R26), the command copied at go and its go tick, what
the firmware has taken, and whether its response will be discarded (R31). -/
structure Mailbox where
  irqEn : Bool := false
  evRing : Nat := 0
  phase : MbxPhase := .idle
  goIgnored : Bool := false
  fwTimeout : Bool := false
  seq : Nat := 0
  area : Memory := {}
  resp : Resp := {}
  cmd : Cmd := {}
  goTick : Nat := 0
  taken : Option Cmd := none
  discard : Bool := false
  deriving DecidableEq, Repr, Inhabited

/-- A long operation under its handle (R30): who asked, on what object, its final status and result,
and where its OPERATION_DONE entry stands (ring, index) for the retirement by the consumer index. -/
structure LongOp where
  mbx : Nat := 0
  tag : Nat := 0
  opcode : Nat := 0
  part : Nat := 255
  obj : Nat := 0
  args : List Nat := []
  finished : Bool := false
  status : Status := .inProgress
  result : List Byte := []
  posted : Option (Nat × Nat) := none
  deriving DecidableEq, Repr, Inhabited

/-- An event entry (R38); `detail` holds at most 36 bytes. -/
structure Event where
  code : Nat := 0
  part : Nat := 255
  tag : Nat := 0
  tick : Nat := 0
  status : Status := .success
  opcode : Nat := 0
  handle : Nat := 0xFFFF
  seq : Nat := 0
  detail : List Byte := []
  deriving DecidableEq, Repr, Inhabited

/-- An event ring (R37): entries by index modulo 512. -/
structure EventRing where
  enable : Bool := false
  mask : Nat := 0
  overflow : Bool := false
  badCons : Bool := false
  prod : Nat := 0
  cons : Nat := 0
  drops : Ctr := {}
  entries : Tab Event := []
  deriving DecidableEq, Repr, Inhabited

/-- A ring in HDM (R40, R41). `part` is 255 for a manager ring; `hostIdx` is the index last accepted by
doorbell, `devIdx` the device's own; `faulted` of R44; `fnVf` the function that created it. -/
structure Ring where
  base : Nat := 0
  log2 : Nat := 4
  toHost : Bool := false
  cls : Nat := 4
  vector : Nat := 255
  part : Nat := 255
  slot : Nat := 255
  fnVf : Bool := false
  hostIdx : Nat := 0
  devIdx : Nat := 0
  faulted : Bool := false
  covers : List (Nat × Tick) := []
  deriving DecidableEq, Repr, Inhabited

/-- The telemetry mirror (R46) beside the live counters it copies (R8) and a pending TELEMETRY_CLEAR:
the mailbox that waits for the next snapshot (R48). -/
structure Telemetry where
  gen : Nat := 0
  tick : Nat := 0
  period : Nat := 1966080
  clearTick : Nat := 0
  lend : Tab Ctr := []
  stray : Ctr := {}
  liveLend : Tab Ctr := []
  liveStray : Ctr := {}
  clearPending : List Nat := []
  deriving DecidableEq, Repr, Inhabited

/-- Identity, link and mailbox hardware of the device (R18, R22): what is not computed from the grade. -/
structure Dev where
  dawnDone : Bool := false
  twilight : Bool := false
  lanes : Nat := 0
  rate : Nat := 0
  fwVersion : Nat := 0
  radioCuMax : Nat := 320
  hdmSize : Nat := 268435456
  deriving DecidableEq, Repr, Inhabited

/-! ### Chapter 02: air clock and timebase -/

/-- The servo states, in the order of their codes (R57, R65). -/
inductive ServoState where
  | freerun | acquire | locked | holdover
  deriving DecidableEq, Repr, Inhabited

/-- The time sources, in the order of their codes (R59). -/
inductive TimeSrc where
  | none | ptp | ppsIn
  deriving DecidableEq, Repr, Inhabited

/-- State of a Noon comparator, in the order of its codes (R65). -/
inductive NoonState where
  | free | pending | fired
  deriving DecidableEq, Repr, Inhabited

/-- A Noon comparator (R65, R73). -/
structure Noon where
  tick : Nat := 0
  id : Nat := 0
  part : Nat := 0
  action : Nat := 0
  state : NoonState := .free
  arg : Nat := 0
  arg2 : Nat := 0
  tag : Nat := 0
  wasFired : Bool := false
  deriving DecidableEq, Repr, Inhabited

/-- PTP on one MAC (R60 to R62): its role, the last sequenceId accepted of each kind of message (R72), the best Announce and its
source, the Sync that awaits its Follow_Up (sequenceId, t2, correction, free tick), the Delay_Req sent (sequenceId, t3), the delay
from slave to master once measured, the Sync sent that awaits its Follow_Up (sequenceId, time), and the sequenceIds sent by kind. -/
structure PtpPort where
  slave : Bool := false
  lastSeq : Tab Nat := []
  best : Option (PtpSet × Nat) := none
  sync : Option (Nat × Int × Int × Nat) := none
  req : Option (Nat × Int) := none
  delay : Option Int := none
  stamp : Option (Nat × Nat) := none
  txSeq : Tab Nat := []
  deriving DecidableEq, Repr, Inhabited

/-- The servo settings (R65, R78). -/
structure ServoCfg where
  kp : Nat := 0x04000000
  ki : Nat := 0x00100000
  rateLimit : Nat := 10995116
  lockThresh : Nat := 40
  lockCount : Nat := 16
  unlockThresh : Nat := 1000
  holdoverStart : Nat := 2000
  holdoverLimit : Nat := 14400
  deriving DecidableEq, Repr, Inhabited

/-- The timebase (R49 to R66): the free counter, the parameters of R51, the servo, the snapshot, PPS,
PTP and the Noon comparators. `cfg` is what
the window shows, `act` what the servo uses until the next accepted input (R78). `lastM`, `lastArr`, `holdEntry` hold what R55 and R57 measure from. -/
structure Timebase where
  pllLocked : Bool := false
  free : Nat := 0
  ofsInt : Int := 0
  ofsFrac : Nat := 0
  rate : Int := 0
  anchor : Nat := 0
  state : ServoState := .freerun
  source : TimeSrc := .none
  lockRun : Nat := 0
  refLost : Bool := false
  integ : Int := 0
  err : Int := 0
  cfg : ServoCfg := {}
  act : ServoCfg := {}
  lastM : Option Nat := none
  lastArr : Nat := 0
  holdEntry : Nat := 0
  deriving DecidableEq, Repr, Inhabited

/-- The frame fields, snapshot and latches of the timebase window (R65, R66). -/
structure TimeWindow where
  frameOfs : Nat := 0
  reportMu : Nat := 1
  ecp : Bool := false
  snapFree : Nat := 0
  snapCorr : Nat := 0
  snapNr : Nat := 0
  highs : Tab Nat := []
  deriving DecidableEq, Repr, Inhabited

/-- PPS and PTP (R60 to R64): counters, the last edge, the output, what the firmware reported, and the lanes that drive RCLK_OUT0
and RCLK_OUT1 as lane + 1 (0: not selected). -/
structure Pps where
  outEn : Bool := false
  widthMs : Nat := 100
  outDelay : Int := 0
  inFree : Nat := 0
  inCorr : Nat := 0
  discards : Ctr := {}
  missed : Ctr := {}
  lastEdge : Nat := 0
  missedSince : Nat := 0
  outHigh : Bool := false
  outRise : Nat := 0
  outDone : Option Nat := none
  domain : Nat := 24
  portMask : Nat := 0
  ports : Tab PtpPort := []
  esmc : Tab Nat := []
  rclk : Nat × Nat := (0, 0)
  deriving DecidableEq, Repr, Inhabited

/-! ### Chapters 03 and 04: the compute grid and its arithmetic -/

/-- Who posted a slot: the stage's table (255 none), slot and cell, and the free tick of the post. -/
structure PostRec where
  table : Nat := 255
  slot : Nat := 0
  cell : Nat := 0
  tick : Nat := 0
  deriving DecidableEq, Repr, Inhabited

/-- A scoreboard entry (R107) with its slot lengths and the producer's shadow of consumed (R108). -/
structure SbEntry where
  produced : Nat := 0
  consumed : Nat := 0
  slots : Nat := 0
  valid : Bool := false
  slotSize : Nat := 0
  base : Nat := 0
  producer : Nat := 0
  owner : Nat := 0
  lens : Tab Nat := []
  shadow : Nat := 0
  posts : Tab PostRec := []
  deriving DecidableEq, Repr, Inhabited

/-- What a stalled unit waits on (R108): the entry `entry` of unit `unit`. -/
inductive UnitWait where
  | free (unit entry : Nat)
  | full (unit entry : Nat)
  deriving DecidableEq, Repr, Inhabited

/-- What runs on a unit: nothing, a radio stage (table, slot, entry position), a lent micro-step, or a
background item. -/
inductive Holder where
  | idle
  | radio (table slot pos : Nat)
  | lent (ctx micro : Nat)
  | item (i : BgItem) (start : Nat)
  deriving DecidableEq, Repr, Inhabited

/-- What scoreboard waits leave in an instruction stream: the wait it stalls in, the slot and length its last wait gave
(R108), and whether a slot of length 0 suppresses its results (R110). -/
structure SbSide where
  wait : Option UnitWait := none
  slot : Nat := 0
  len : Nat := 0
  hush : Bool := false
  deriving DecidableEq, Repr, Inhabited

/-- The program side of a unit: what holds it, its owner (R98), the program it runs (R194, R347) and its position, its
scoreboard side (a tile has one a slice), and the Dusk line handed to it (R208). -/
structure UnitRun where
  holder : Holder := .idle
  owner : Nat := 0
  param : Nat := 0
  program : Nat := 0
  position : Nat := 0
  stopped : Bool := false
  side : SbSide := {}
  dusk : Nat := 0
  deriving DecidableEq, Repr, Inhabited

/-- The six sticky flags of an arithmetic status word (R138). -/
structure ArithFlags where
  invalid : Bool := false
  overflow : Bool := false
  accSat : Bool := false
  storeSat : Bool := false
  t5pBad : Bool := false
  scaleNan : Bool := false
  deriving DecidableEq, Repr, Inhabited

/-- GRD_ARITH_OPT (R122). -/
structure ArithOpt where
  e5m2Inf : Bool := false
  h16Sat : Bool := false
  b16Sat : Bool := false
  locked : Bool := false
  deriving DecidableEq, Repr, Inhabited

/-- The compute grid: share tables by table * 512 + owner (R98: array store n, tile 0x40 + t, coding
store 0x80, program window 0x100 + unit), the programs in the windows by unit * 512 + owner (R106), scoreboards by
unit * 256 + entry, units by identifier, the arithmetic option and status words by owner, units in service marked failed (R189). -/
structure Grid where
  shares : Tab (Nat × Nat) := []
  windows : Tab (List UnitProg) := []
  sb : Tab SbEntry := []
  units : Tab UnitRun := []
  opt : ArithOpt := {}
  arith : Tab ArithFlags := []
  clock : Nat := 2000
  deriving DecidableEq, Repr, Inhabited

/-! ### Chapter 07: the time-table sequencer -/

/-- The states of a table, in the order of their codes (R219). -/
inductive TableState where
  | empty | loaded | armed | running | stopping
  deriving DecidableEq, Repr, Inhabited

/-- The physical units bound to each logical region of a placement (R114). -/
structure Binding where
  regions : List Nat := []
  quads : List (List Nat) := []
  tiles : List (List Nat) := []
  movers : List (List Nat) := []
  deriving DecidableEq, Repr, Inhabited

/-- A slot instance at its ring position (R193): the entry positions whose launch tick has been served, and whether its
SLOT_REPORT is written. -/
structure Inst where
  slot : Nat := 0
  start : Nat := 0
  entries : List TEntry := []
  sealed : Bool := false
  idle : Bool := false
  paramBase : Nat := 0
  paramLen : Nat := 0
  gone : List Nat := []
  reported : Bool := false
  deriving DecidableEq, Repr, Inhabited

/-- A frame table (R191, R219, R224) with its ring of eight instances (R193). -/
structure FrameTable where
  state : TableState := .empty
  part : Nat := 255
  mu : Nat := 0
  ecp : Bool := false
  tmpl : Template := {}
  bind : Binding := {}
  idleEntries : List TEntry := []
  insts : Tab Inst := []
  n0 : Nat := 0
  unfilled : Ctr := {}
  overruns : Ctr := {}
  stopSlot : Nat := 0xFFFFFFFFFFFFFFFF
  deriving DecidableEq, Repr, Inhabited

/-- A launched reservation (R197 to R200): [start, finish) on its units, the tick its stage ended, and its own failure's
cause (R291; 0 none) and program position. -/
structure Reservation where
  table : Nat
  slot : Nat
  pos : Nat
  entry : TEntry
  start : Nat
  finish : Nat
  deadline : Nat
  ended : Option Nat := none
  cause : Nat := 0
  position : Nat := 0xFFFFFFFF
  deriving DecidableEq, Repr, Inhabited

/-- A ready micro-step (R206). -/
structure ReadyMicro where
  ctx : Nat
  micro : Nat
  units : List Nat
  progs : List Nat
  bound : Nat
  prio : Nat
  ready : Nat
  blocking : Bool := false
  deriving DecidableEq, Repr, Inhabited

/-- A lent micro-step that runs (R208) with the scoreboard values recorded at its launch (R111). -/
structure RunningMicro where
  ctx : Nat
  micro : Nat
  units : List Nat
  bound : Nat
  launch : Nat
  dusk : Nat
  snap : List (Nat × Nat × Nat)
  deriving DecidableEq, Repr, Inhabited

/-- A stage record of R292, kept for the last sixteen slots of a table: status 0 to 3, own failure's cause. -/
structure StageRec where
  table : Nat
  slot : Nat
  entry : Nat
  unit : Nat
  cell : Nat
  status : Nat
  slack : Int
  run : Nat
  cause : Nat
  position : Nat
  deriving DecidableEq, Repr, Inhabited

/-- The sequencer and the lend scheduler. -/
structure Tts where
  tables : Tab FrameTable := []
  resv : List Reservation := []
  ready : List ReadyMicro := []
  waiting : List ReadyMicro := []
  lent : List RunningMicro := []
  stages : List StageRec := []
  loads : Tab (Nat × Template) := []
  duskMargin : Nat := 3933
  ageStep : Nat := 1966080
  blockAfter : Nat := 39321600
  retryLimit : Nat := 2
  deriving DecidableEq, Repr, Inhabited

/-! ### Chapter 08: fronthaul ports -/

/-- A packet of an egress queue: the frame without tag and FCS, whether it takes the MAC's C-tag (R228), its kind and sequenceId
if PTP, and the free tick and binding of its release (R245). -/
structure TxPkt where
  bytes : List Byte := []
  tagged : Bool := true
  ptp : Option (PtpKind × Nat) := none
  key : Nat × Nat := (0, 0)
  deriving DecidableEq, Repr, Inhabited

/-- An egress queue with its shaper and deficit (R247 to R250). -/
structure FhQueue where
  depth : Nat := 192
  weight : Nat := 1
  pcp : Nat := 0
  rate : Nat := 0
  burst : Nat := 0
  tokens : Int := 0
  frac : Nat := 0
  deficit : Nat := 0
  pkts : List TxPkt := []
  deriving DecidableEq, Repr, Inhabited

/-- A gate control list (R251): entries as (interval, gates). -/
structure GateList where
  base : Nat := 0
  cycle : Nat := 0
  entries : List (Nat × Nat) := []
  change : Nat := 0
  deriving DecidableEq, Repr, Inhabited

/-- An ingress policer (R255). -/
structure Policer where
  vid : Nat := 0xFFFF
  etype : Nat := 0
  eaxcLo : Nat := 0
  eaxcHi : Nat := 0xFFFF
  rate : Nat := 0
  burst : Nat := 0
  tokens : Nat := 0
  frac : Nat := 0
  deriving DecidableEq, Repr, Inhabited

/-- The counters of a MAC (R258). -/
structure FhCounters where
  rxFrames : Ctr := {}
  rxFcs : Ctr := {}
  rxFiltered : Ctr := {}
  rxPoliced : Ctr := {}
  rxBad : Ctr := {}
  rxUnbound : Ctr := {}
  rxEarly : Ctr := {}
  rxLate : Ctr := {}
  rxDupPrb : Ctr := {}
  rxMissingPrb : Ctr := {}
  rxSeqGap : Ctr := {}
  rxOverflow : Ctr := {}
  rxHostDrop : Ctr := {}
  txFrames : Ctr := {}
  txDrop : Tab Ctr := []
  deriving DecidableEq, Repr, Inhabited

/-- The frame a MAC sends: its queue, start and end in free ticks, the bytes that were left of it at the start, and its
packet. -/
structure Sending where
  queue : Nat := 0
  start : Nat := 0
  finish : Nat := 0
  left : Nat := 64
  pkt : TxPkt := {}
  deriving DecidableEq, Repr, Inhabited

/-- A fronthaul MAC (R227, R228, R247 to R263). -/
structure FhMac where
  link : Bool := false
  profileB : Bool := false
  maxFrame : Nat := 9216
  vid : Nat := 0xFFFF
  oneStep : Bool := false
  address : Nat := 0
  groups : List Nat := []
  hostRing : Nat := 0xFFFF
  asym : Int := 0
  queues : Tab FhQueue := []
  drrPtr : Nat := 3
  drrGranted : Bool := false
  sending : Option Sending := none
  preempted : Option (Nat × Nat × TxPkt) := none
  gcl : GateList := {}
  gclPending : Option GateList := none
  gclTick : Nat := 0
  gates : Nat := 255
  policers : Tab Policer := []
  ctr : FhCounters := {}
  deriving DecidableEq, Repr, Inhabited

/-- A fronthaul binding (R236) with its owner and sequence identities (R231), the symbols of a frame that a PRACH binding captures
(R238), and the last symbols posted and released, counted from slot 0. -/
structure FhBinding where
  part : Nat := 0
  mac : Nat := 0
  down : Bool := false
  compHdr : Bool := false
  comp : Nat := 0
  mu : Nat := 0
  ecp : Bool := false
  eaxc : Nat := 0
  prbCount : Nat := 0
  cell : Nat := 0
  ant : Nat := 0
  f0 : Nat := 0
  f1 : Nat := 0
  f2 : Nat := 0
  symOfs : Int := 0
  fbBase : Nat := 0
  consumer : Nat := 0xFF
  entry : Nat := 0
  prach : List Nat := []
  txSeq : Nat := 0
  rxNext : Nat := 0
  posted : Option Nat := none
  released : Option Nat := none
  deriving DecidableEq, Repr, Inhabited

/-- The fronthaul ports: mode by port, bytes in each port's receive buffer with the free tick they were counted at (R244), MACs,
bindings by number. -/
structure Fronthaul where
  modes : Tab Nat := []
  rxFill : Tab (Nat × Nat) := []
  macs : Tab FhMac := []
  binds : Tab FhBinding := []
  deriving DecidableEq, Repr, Inhabited

/-! ### Chapter 06: random state of a context -/

/-- The random state record of a context (R184). -/
structure RngState where
  seed : Nat := 0
  step : Nat := 0
  pendSeed : Option Nat := none
  pendStep : Option Nat := none
  deriving DecidableEq, Repr, Inhabited

/-! ### Chapter 12: inference serving -/

/-- The states of a context, in the order of their codes (R344). -/
inductive CtxState where
  | absent | loaded | residing | resident | running | frozen
  deriving DecidableEq, Repr, Inhabited

/-- A micro-step record of a step image (R347): logical units with their program entries, and predecessors. -/
structure ImgMicro where
  bound : Nat := 0
  units : List Nat := []
  progs : List Nat := []
  preds : List Nat := []
  deriving DecidableEq, Repr, Inhabited

/-- A kind record of a step image (R347). -/
structure ImgKind where
  stepBound : Nat := 0
  inMax : Nat := 0
  outMax : Nat := 0
  micros : List ImgMicro := []
  deriving DecidableEq, Repr, Inhabited

/-- A step image as read from its header and kind table (R346, R347). -/
structure StepImage where
  placements : Nat := 0
  marked : Bool := false
  detSig : Nat := 0
  kvLog2 : Nat := 16
  weightsId : Nat := 0
  kinds : List ImgKind := []
  deriving DecidableEq, Repr, Inhabited

/-- A queued submission (R362), its order of acceptance, the tick it came to the queue head, and whether
its STEP_LAUNCH has fired. -/
structure Submission where
  kind : Nat := 0
  noon : Bool := false
  inLen : Nat := 0
  inOfs : Nat := 0
  outOfs : Nat := 0
  outLen : Nat := 0
  kvCount : Nat := 0
  kvOfs : Nat := 0
  tag : Nat := 0
  headTick : Nat := 0
  launched : Bool := false
  deriving DecidableEq, Repr, Inhabited

/-- Where a micro-step of a running batch step stands: its predecessors run, it is ready, it runs, its
SYNC list waits for grants, or it is done. -/
inductive MicroPhase where
  | waiting | ready | running | blocked | done
  deriving DecidableEq, Repr, Inhabited

/-- A micro-step of a running batch step: squashes, its first ready tick, its recorded SYNC descriptors
(R431), the grants its list still waits for, and its accumulating requests of this attempt by destination (R415). -/
structure MicroRun where
  phase : MicroPhase := .waiting
  squashes : Nat := 0
  ready : Nat := 0
  sync : List SyncDesc := []
  waits : Nat := 0
  accNext : List (Nat × Nat) := []
  status : Status := .success
  deriving DecidableEq, Repr, Inhabited

/-- A running batch step (R358 to R360); `pages` is its page list as copied (R351). -/
structure StepRun where
  sub : Submission := {}
  start : Nat := 0
  bound : Nat := 0
  micros : Tab MicroRun := []
  squashes : Nat := 0
  microRun : Nat := 0
  cas : Bool := false
  slow : Bool := false
  ending : Option Status := none
  pages : List Nat := []
  deriving DecidableEq, Repr, Inhabited

/-- A binding of a context's commits to a ledger word (R475). -/
structure LedgerBind where
  job : Nat := 0
  device : Nat := 0
  addr : Nat := 0
  slowAfter : Nat := 0
  deriving DecidableEq, Repr, Inhabited

/-- A context (R342 to R345, R362, R368); `dram` lists the granule ranges of its regions as
(((lregion * 4 + region) * 4 + stack) * 2^20 + first, count) (R349); with its journal (R433), holdings (R438), timing-choice counter
(R446), accumulating requests under a step value as (micro-step, destination, tag) (R415) and ledger binding (R475). `evictCause` is the cause of a pending eviction, `evictBy` the context
it makes room for, `waitFor` the victims it waits for, `written` that its shares are written while RESIDING,
`resideCause` the CTX_STATE cause of its residency, `held` the intake hold of a context reset. -/
structure Context where
  state : CtxState := .absent
  part : Nat := 0
  prio : Nat := 0
  pinned : Bool := false
  depth : Nat := 1
  subRing : Nat := 0xFFFF
  doneRing : Nat := 0xFFFF
  weightsOf : Nat := 0xFFFF
  img : StepImage := {}
  imgBytes : List Byte := []
  places : List Placement := []
  place : Nat := 0
  bind : Binding := {}
  dram : List (Nat × Nat) := []
  lastStepped : Nat := 0
  prot : Bool := false
  evictCause : Option Nat := none
  evictBy : Option Nat := none
  waitFor : List Nat := []
  written : Bool := false
  resideCause : Nat := 1
  residingSince : Nat := 0
  queue : List Submission := []
  step : Option StepRun := none
  held : Bool := false
  rng : RngState := {}
  journal : Nat × List Nat := (0, [])
  holdings : List (Nat × Nat × Nat) := []
  timing : Nat := 0
  acc : Nat × List (Nat × Nat × Nat) := (0, [])
  bindLedger : Option LedgerBind := none
  commits : Ctr := {}
  busy : Ctr := {}
  overruns : Ctr := {}
  squashes : Ctr := {}
  evictions : Ctr := {}
  deriving DecidableEq, Repr, Inhabited

/-- Contexts, creations that run (by handle) and completions that wait for room by done ring (R364). -/
structure Serving where
  ctxs : Tab Context := []
  creating : Tab (Nat × Context) := []
  doneWait : Tab (List (Nat × List Byte)) := []
  deriving DecidableEq, Repr, Inhabited

/-! ### Chapter 14: the memory fabric -/

/-- A fabric port (R396, R424). -/
structure FabPort where
  link : Bool := false
  enabled : Bool := false
  flitsTx : Ctr := {}
  flitsRx : Ctr := {}
  resends : Ctr := {}
  deriving DecidableEq, Repr, Inhabited

/-- A window (R406). -/
structure FabWindow where
  job : Nat := 0
  rd : Bool := false
  wr : Bool := false
  atom : Bool := false
  comb : Bool := false
  kind : Nat := 0
  ctx : Nat := 0
  part : Nat := 0
  base : Nat := 0
  length : Nat := 0
  lregion : Nat := 0
  region : Nat := 0
  offset : Nat := 0
  deriving DecidableEq, Repr, Inhabited

/-- Who issued a request: a descriptor of a micro-step, a barrier copy, the step ledger, or the firmware. -/
inductive FabOrigin where
  | micro (ctx micro mover : Nat)
  | barrier (obj : Nat)
  | ledger (ctx : Nat)
  | firmware
  deriving DecidableEq, Repr, Inhabited

/-- The states of a tag (R411). -/
inductive TagState where
  | issued | abandoned | resolved
  deriving DecidableEq, Repr, Inhabited

/-- A tag of the requester (R410, R411): its request, the free tick of the last transmission, attempt, outcome, where returned data goes, and whether its context was detached (R459). -/
structure TagRec where
  state : TagState := .issued
  origin : FabOrigin := .firmware
  op : FabOp := .load
  req : FabReq := {}
  lastTx : Nat := 0
  attempt : Nat := 0
  status : Status := .success
  result : Nat := 0
  retPlace : Place := .hdm
  retAddr : Nat := 0
  port : Nat := 0
  detached : Bool := false
  order : Nat := 0
  deriving DecidableEq, Repr, Inhabited

/-- A source record (R412): highest tag, the applied tags of the bitmap, the tick last heard. -/
structure SrcRec where
  high : Nat := 0
  applied : List Nat := []
  heard : Nat := 0
  deriving DecidableEq, Repr, Inhabited

/-- An atomic entry of the ledger (R412). -/
structure LedgerEntry where
  made : Nat := 0
  firstStamp : Nat := 0
  status : Status := .success
  result : Nat := 0
  deriving DecidableEq, Repr, Inhabited

/-- A fence that waits (R416): the keys of the tags it covers, in issue order. -/
structure Fence where
  ctx : Nat
  micro : Nat
  mover : Nat
  tags : List Nat
  deriving DecidableEq, Repr, Inhabited

/-- The device counters of R424. -/
structure FabCounters where
  retries : Ctr := {}
  timeouts : Ctr := {}
  duplicates : Ctr := {}
  outcomeUnknown : Ctr := {}
  windowFaults : Ctr := {}
  retired : Ctr := {}
  busy : Ctr := {}
  stale : Ctr := {}
  misrouted : Ctr := {}
  deriving DecidableEq, Repr, Inhabited

/-- The fabric: ports, own number, windows, tags by destination * 2^32 + tag, the ledger of the receiver
by source and by source * 2^32 + tag, fences and issues that wait. -/
structure Fabric where
  ports : Tab FabPort := []
  device : Nat := 0xFFFF
  gateway : Nat := 0xFFFF
  lifetime : Nat := 7864320
  gwTimeout : Nat := 393216
  start : Nat := 0
  started : Bool := false
  ctr : FabCounters := {}
  windows : Tab FabWindow := []
  nextTag : Tab Nat := []
  tags : Tab TagRec := []
  issued : Nat := 0
  sources : Tab SrcRec := []
  entries : Tab LedgerEntry := []
  fences : List Fence := []
  issueWait : List (FabOrigin × FabDesc) := []
  deriving DecidableEq, Repr, Inhabited

/-! ### Chapter 15: synchronisation and determinism -/

/-- A waiter of an object (R429). -/
structure Waiter where
  ctx : Nat
  op : Nat
  micro : Nat
  arg : Nat
  deriving DecidableEq, Repr, Inhabited

/-- A synchronisation object (R428) with its waiters in list order and its values at creation (R442). -/
structure SyncObj where
  type : Nat := 0
  orphaned : Bool := false
  distributed : Bool := false
  home : Bool := false
  part : Nat := 0
  value : Nat := 0
  set : Bool := false
  count : Nat := 0
  limit : Nat := 0
  holder : Nat := 0xFFFF
  holderStep : Nat := 0
  participants : Nat := 0
  arrived : Nat := 0
  job : Nat := 0
  phase : Nat := 0
  homeDev : Nat := 0
  members : Nat := 0
  initial : Nat := 0
  waiters : List Waiter := []
  deriving DecidableEq, Repr, Inhabited

/-- The synchronisation engine: objects, the lists of ended micro-steps as (tick, context, micro-step) in the order they apply (R431),
the contention table by 64-byte unit: the owner context and the lineage last seen (R446), and the
versions of DET_VERSIONS (R450). -/
structure Sync where
  objs : Tab SyncObj := []
  lists : List (Nat × Nat × Nat) := []
  contention : Tab (Nat × Nat) := []
  sig : Nat := 0
  numlib : Nat := 0
  tableset : Nat := 0
  deriving DecidableEq, Repr, Inhabited

/-! ### Chapter 13: partitions -/

/-- The states of a partition, in the order of their codes (R372). -/
inductive PartState where
  | absent | active | resetting | freezing | frozen | restoring | removing
  deriving DecidableEq, Repr, Inhabited

/-- The save stream of a FROZEN partition (R385 to R387): key, flag 0 and its lengths. -/
structure SaveStream where
  key : List Byte := []
  hdm : Bool := false
  dirLen : Nat := 0
  imgEnd : Nat := 0
  len : Nat := 0
  deriving DecidableEq, Repr, Inhabited

/-- A restore in progress (R388): its header and directory, its key, the bytes accepted, the step images checked so far with
their placements, and whether its contexts are bound. -/
structure RestoreRun where
  head : StreamHead := {}
  key : List Byte := []
  data : List Byte := []
  imgs : List (List Byte × List Placement) := []
  bound : Bool := false
  deriving DecidableEq, Repr, Inhabited

/-- A partition (R371, R375, R393). `creating` while its creation runs (still ABSENT to others);
`step` is the step of R380 that runs (0: none), `cause` its PART_STATE cause, `late` a late write. -/
structure Partition where
  state : PartState := .absent
  creating : Bool := false
  radio : Bool := false
  radioSlot : Nat := 255
  prioLimit : Nat := 0
  maxRings : Nat := 0
  maxContexts : Nat := 0
  jobIds : Nat := 0
  dramGb : Nat := 0
  cuQuota : Nat := 0
  syncObjects : Nat := 0
  hdmBase : Nat := 0
  hdmLen : Nat := 0
  resets : Ctr := {}
  abandoned : Ctr := {}
  lateWrites : Ctr := {}
  keyGen : Nat := 0
  step : Nat := 0
  cause : Nat := 0
  late : Bool := false
  stepTick : Nat := 0
  jobs : List Nat := []
  ledger : Bool := false
  save : Option SaveStream := none
  restore : Option RestoreRun := none
  deriving DecidableEq, Repr, Inhabited

/-! ### Chapter 16: faults, health, resets -/

/-- A fault record (R454); the defaults are the values of fields that do not apply. -/
structure FaultRec where
  code : Nat := 0
  status : Option Status := none
  part : Nat := 0xFF
  unit : Nat := 0xFF
  unit2 : Nat := 0xFF
  reset : Nat := 0
  owner : Nat := 0xFFFF
  micro : Nat := 0xFFFF
  table : Nat := 0xFF
  cell : Nat := 0xFF
  entry : Nat := 0xFFFF
  position : Nat := 0xFFFFFFFF
  seq : Nat := 0
  tick : Nat := 0
  slotStart : Nat := 0
  addr : Nat := 0
  job : Nat := 0
  dst : Nat := 0xFFFF
  tag : Nat := 0
  detail : List Byte := []
  deriving DecidableEq, Repr, Inhabited

/-- A log of fault records: the device's log of 4 096, or a VF page of 31 (R455). -/
structure FaultLog where
  prod : Nat := 0
  cons : Nat := 0
  overwritten : Ctr := {}
  recs : Tab FaultRec := []
  deriving DecidableEq, Repr, Inhabited

/-- A context reset in progress (R459): its trigger tick, the status its step ends with, the step. -/
structure CtxReset where
  trigger : Nat := 0
  status : Status := .aborted
  handle : Option Nat := none
  deriving DecidableEq, Repr, Inhabited

/-- A grid reset in progress (R460). Phase A waits for tables; phase B began at `phaseB`. -/
structure GridReset where
  trigger : Nat := 0
  bound : Nat := 0
  phaseB : Option Nat := none
  handle : Option Nat := none
  deriving DecidableEq, Repr, Inhabited

/-- Faults, health and resets (R454 to R467). `lastHealth` is the score HEALTH last reported,
`decayAt` the last second whose decay is done. -/
structure Health where
  log : FaultLog := {}
  vf : Tab FaultLog := []
  penalty : Nat := 0
  lastHealth : Nat := 1000
  leaving : Bool := false
  corrected : Ctr := {}
  uncorrectable : Ctr := {}
  hangs : Ctr := {}
  contextResets : Ctr := {}
  gridResets : Ctr := {}
  expulsions : Ctr := {}
  radioWindow : Nat := 393216
  inferenceWindow : Nat := 98304000
  progress : Tab (Nat × Nat) := []
  ctxReset : Tab CtxReset := []
  grid : Option GridReset := none
  outOfService : List Nat := []
  bad : List Nat := []
  badCopies : List (CtlMem × Nat × Nat) := []
  decayAt : Nat := 0
  deriving DecidableEq, Repr, Inhabited

/-! ### Chapter 05: signal tiles -/

/-- An address register (R149). -/
structure AddrReg where
  addr : Nat := 0
  stride : Int := 0
  mode : Nat := 0
  start : Nat := 0
  length : Nat := 0
  revBits : Nat := 0
  index : Nat := 0
  deriving DecidableEq, Repr, Inhabited

/-- An open block repeat (R156): first instruction of the body, its last, and the loop counter. -/
structure LoopLevel where
  top : Nat := 0
  last : Nat := 0
  count : Nat := 0
  deriving DecidableEq, Repr, Inhabited

/-- An XSEND that stalls (R166): its direction, target tile, source and target offsets, bytes, entry, and the pieces done
when a stop ends it. -/
structure XSend where
  dir : Int := 1
  to_ : Nat := 0
  src : Nat := 0
  dst : Nat := 0
  b : Nat := 0
  entry : Nat := 0
  stop : Option Nat := none
  deriving DecidableEq, Repr, Inhabited

/-- A slice of a tile (R143, R145): address, scalar and loop registers (innermost level last), its program
position, the mask of the SBAR it stalls in, the XSEND it stalls in, and its scoreboard side. -/
structure Slice where
  a : Tab AddrReg := []
  sc : Tab Nat := []
  loops : List LoopLevel := []
  pos : Nat := 0
  sbar : Option Nat := none
  xstall : Option XSend := none
  side : SbSide := {}
  deriving DecidableEq, Repr, Inhabited

/-- A signal tile (R142, R143): configuration, running slices, vector registers as 256 lanes, one 40-bit
accumulator per lane, slices, and the place in the rotation and end tick of the last write its store's port took (R166). -/
structure Tile where
  fused : Bool := true
  mask : Nat := 255
  v : Tab (List Nat) := []
  acc : List Int := []
  slices : Tab Slice := []
  port : Nat × Nat := (4, 0)
  deriving DecidableEq, Repr, Inhabited

/-! ### Chapter 09: coding engines and cell-side processing state -/

/-- An LDPC job in an engine: its post, its combined buffer, the decoder's values, causes so far, and the tick its last phase
ended (R274 to R277). -/
structure LdStage where
  job : LdJob := {}
  src : PostRec := {}
  b : List Int := []
  post : List Int := []
  cause : Nat := 0
  conv : Nat := 0
  done : Nat := 0
  deriving DecidableEq, Repr, Inhabited

/-- The result record of a coding job (R277) and the bits it gives. -/
structure CodeResult where
  tag : Nat := 0
  crcOk : Bool := false
  conv : Nat := 0
  iters : Nat := 0
  cause : Nat := 0
  bits : List Byte := []
  deriving DecidableEq, Repr, Inhabited

/-- A coding engine: the jobs that wait for their decode and output phases, oldest first, the ticks at which each phase of the
last job ended, and the last result (R277). -/
structure CodeEngine where
  inp : List LdStage := []
  dec : List LdStage := []
  inEnd : Nat := 0
  decEnd : Nat := 0
  outEnd : Nat := 0
  result : Option CodeResult := none
  deriving DecidableEq, Repr, Inhabited

/-- The coding region: engines by unit identifier; marks by (table, slot, cell, direction) of R290; the counts a
SLOT_REPORT carries, by table (R291); the causes of code blocks by (table, slot, cell) (R277). -/
structure Coding where
  engines : Tab CodeEngine := []
  marks : List (Nat × Nat × Nat × Bool) := []
  notCombined : Tab Nat := []
  cbFailed : Tab Nat := []
  causes : List (Nat × Nat × Nat × Nat) := []
  deriving DecidableEq, Repr, Inhabited

/-! ### Chapter 10: cells and twins -/

/-- The states of a cell, in the order of their codes (R300). -/
inductive CellState where
  | absent | configured | running | stopping | standby | moving
  deriving DecidableEq, Repr, Inhabited

/-- The roles of a cell, in the order of their codes (R314). -/
inductive CellRole where
  | unpaired | active | standby
  deriving DecidableEq, Repr, Inhabited

/-- What a cell holds for a slot until its intake line (R303). -/
structure SlotHold where
  dl : Option (List Pdu) := none
  ul : Option (List Pdu) := none
  dci : Option (List Pdu) := none
  tx : List (Nat × Nat) := []
  prio : List (Bool × Nat × Nat) := []
  deriving DecidableEq, Repr, Inhabited

/-- The admitted PDUs of a slot with their indices: downlink and uplink (R304), and the indices of PUSCH that are decoded without
combining though they are retransmissions (R281, R282). -/
structure Admitted where
  dl : List (Nat × Pdu) := []
  ul : List (Nat × Pdu) := []
  alone : List Nat := []
  deriving DecidableEq, Repr, Inhabited

/-- A HARQ process of the uplink (R281, R308): the soft-buffer slot it holds, and whether the next transmission is
decoded without combining (R282, R283, R290). -/
structure Harq where
  slot : Option Nat := none
  noCombine : Bool := false
  last : Option Nat := none
  high : Nat := 0
  tbs : Nat := 0
  rv : Nat := 0
  ndi : Bool := false
  deriving DecidableEq, Repr, Inhabited

/-- A cell (R298 to R314). `moveTo` is the slot of a move in progress; `heldFrom` is the
slot of a pending move at a standby; `lastSlot` is the last slot of a stopping cell; `indPos` is the
next free byte of the indication area and `indSpans` the messages in it: ring index past the message's entry, and bytes. -/
structure Cell where
  state : CellState := .absent
  role : CellRole := .unpaired
  synced : Bool := false
  snapshot : Bool := false
  cold : Bool := false
  cfg : CellConfig := {}
  cost64 : Nat := 0
  configured : Bool := false
  wide : List (Nat × Nat) := []
  firstSlot : Nat := 0
  lastSlot : Nat := 0
  lastSealed : Nat := 0
  lastRecord : Nat := 0
  peerDev : Nat := 0xFFFF
  peerPart : Nat := 0
  peerCell : Nat := 0
  moveTo : Option Nat := none
  heldFrom : Option Nat := none
  slots : Tab SlotHold := []
  admitted : Tab Admitted := []
  harq : Tab Harq := []
  softBase : Nat := 0
  gains : Tab (Int × Int) := []
  nextGains : Tab (List (Nat × Int × Int)) := []
  csi : Bool := false
  indPos : Nat := 0
  indSpans : List (Nat × Nat) := []
  rejected : Ctr := {}
  lateMsgs : Ctr := {}
  mirrorGaps : Ctr := {}
  indDrops : Ctr := {}
  deriving DecidableEq, Repr, Inhabited

/-! ### Chapter 11: Sweep access -/

/-- The search for the down-sweep of a candidate (R329): start and bin of its window, windows seen since, and of the one with the
largest peak the peak, start and bin. -/
structure SweepSearch where
  start : Nat := 0
  bin : Nat := 0
  seen : Nat := 0
  peak : Nat := 0
  downStart : Nat := 0
  downBin : Nat := 0
  deriving DecidableEq, Repr, Inhabited

/-- A demodulation (R331, R333): frame start, offset, symbols so far, the data bits, header once checked, the candidate's peak and
noise, and the search that fixes start and offset while it runs. -/
structure Demod where
  sf : Nat := 8
  t0 : Nat := 0
  f : Int := 0
  sym : Nat := 12
  bits : List Bool := []
  hdr : Option Nat := none
  peak : Nat := 0
  noise : Nat := 0
  search : Option SweepSearch := none
  deriving DecidableEq, Repr, Inhabited

/-- A run of passing windows of one spreading factor (R328): its length, last window start and bin. -/
structure SweepRun where
  len : Nat := 0
  start : Nat := 0
  bin : Nat := 0
  deriving DecidableEq, Repr, Inhabited

/-- An accepted SWEEP_TX (R335): tag, start and end in corrected ticks, spreading factor, the symbol of the cell's grid it begins
with, and the values of its data symbols. -/
structure SweepFrame where
  tag : Nat := 0
  start : Nat := 0
  finish : Nat := 0
  sf : Nat := 8
  first : Nat := 0
  syms : List Nat := []
  deriving DecidableEq, Repr, Inhabited

/-- A Sweep channel (R317, R338, R340) from slot `fromSlot` to the start of `endSlot`: `hist` holds its last stream samples by OFDM
symbol (R321), `wins` the next window of each spreading factor (R328). -/
structure SweepChan where
  part : Nat := 0
  cell : Nat := 0
  firstPrb : Nat := 0
  prbs : Nat := 1
  sfMask : Nat := 0
  netid : Nat := 0
  rx : Bool := false
  tx : Bool := false
  any : Bool := false
  demods : Nat := 0
  thr : Nat := 0
  floorPwr : Nat := 0
  gm : Nat := 16384
  ge : Int := 1
  fromSlot : Nat := 0
  endSlot : Option Nat := none
  hist : Tab (List (Int × Int)) := []
  wins : Tab Nat := []
  runs : Tab SweepRun := []
  active : List Demod := []
  sends : List SweepFrame := []
  candidates : Ctr := {}
  mismatch : Ctr := {}
  noSlot : Ctr := {}
  hdrFail : Ctr := {}
  tooLong : Ctr := {}
  crcFail : Ctr := {}
  framesOk : Ctr := {}
  ringDrops : Ctr := {}
  txFrames : Ctr := {}
  deriving DecidableEq, Repr, Inhabited

/-! ### Chapter 16: membership -/

/-- What a device last heard of a member (R468): its last heartbeat and the free tick it came. -/
structure Heard where
  beat : Beat := ⟨0, 0, 0, 1000, false, []⟩
  ticks : List Nat := []
  deriving DecidableEq, Repr, Inhabited

/-- The round a coordinator runs (R469): promises with the proposals returned, the proposal sent, acceptances. -/
structure Round where
  round : Nat := 0
  started : Nat := 0
  want : Proposal := {}
  promises : List (Nat × Option Proposal) := []
  sent : Option Proposal := none
  accepted : List Nat := []
  deriving DecidableEq, Repr, Inhabited

/-- Membership (R468 to R474, R477). Devices are numbered within the domain. `sentAt` is the heartbeat tick last sent, `silent`
what it judged silent, `unnamed` the members whose naming MEMBER_SUSPECT has cleared. -/
structure Membership where
  member : Bool := false
  epoch : Nat := 0
  members : List Nat := []
  twilightSet : List Nat := []
  period : Nat := 196608
  budgetMax : Nat := 2
  budgetPeriod : Nat := 1179648000000
  suspectBelow : Nat := 0
  resumeAbove : Nat := 500
  outstanding : Nat := 0
  lastUnhealthy : Nat := 0
  named : List Nat := []
  unnamed : List Nat := []
  silent : List Nat := []
  sentAt : Nat := 0
  heard : Tab Heard := []
  joined : Nat := 0
  promised : Nat := 0
  lastProposal : Option Proposal := none
  round : Option Round := none
  joining : Option (Nat × Nat) := none
  deriving DecidableEq, Repr, Inhabited

/-! ### Chapter 17: power and background work -/

/-- The power loop and its mirror (R481 to R500). `cap` 0 means none set; `duty` is the loop's lend_duty and `lendDuty` that in
force with the holds applied; `holds` the sensors that hold lending, `hotStacks` the stacks with doubled refresh; `below36` the
tick at which the input fell below 36 V; VCORE moves from `vFrom` at tick `vAt` to `vcore`;
a step up to `stepTo` follows once it has settled at `vTick`; `snap` is the last snapshot of the power mirror. -/
structure Power where
  cap : Nat := 0
  capNext : Option Nat := none
  fCap : Nat := 2400
  fTherm : Nat := 2400
  fMax : Nat := 2400
  fMaxNext : Nat := 2400
  uvWarn : Bool := false
  duty : Nat := 64
  lendDuty : Nat := 64
  holds : List Nat := []
  hotStacks : List Nat := []
  unmetRun : Nat := 0
  vcore : Nat := 0
  vFrom : Nat := 0
  vAt : Nat := 0
  vTick : Nat := 0
  stepTo : Option Nat := none
  below36 : Option Nat := none
  delta : Tab Nat := []
  warned : Bool := false
  regionsOut : List Nat := []
  tripped : Bool := false
  gen : Nat := 0
  tick : Nat := 0
  last : Sensors := {}
  energy : Nat := 0
  capHeld : Ctr := {}
  bgSquashed : Ctr := {}
  lentBusy : Nat := 0
  periodStart : Nat := 0
  snap : List Nat := []
  deriving DecidableEq, Repr, Inhabited

/-- Background work (R494 to R499): settings in force and next, the stride, per item and unit the granules of the pass done
and its start, the passes completed in the device-wide pass under way and its start, and the last completion of each check. -/
structure Background where
  window : Nat := 4000
  stride : Nat := 125829120
  next : Option (Nat × Nat) := none
  strideStart : Nat := 0
  passDone : Tab Nat := []
  passStart : Tab Nat := []
  passed : List Nat := []
  wideStart : Nat := 0
  lastPass : Nat := 0
  checkDone : Tab Nat := []
  deriving DecidableEq, Repr, Inhabited

/-! ### Chapters 18 and 19: Dawn, trust, the management domain and the test port -/

/-- How Dawn stands: in service or under way, halted, waiting for the reference, in recovery (R504). -/
inductive DawnMode where
  | off | service | halted | waiting | recovery
  deriving DecidableEq, Repr, Inhabited

/-- An image update in progress (R519): bytes received, the header until it is checked, the tick of the last part. -/
structure Update where
  got : Nat := 0
  head : List Byte := []
  lastTick : Nat := 0
  deriving DecidableEq, Repr, Inhabited

/-- The SPDM state of one transport (R515, R516). -/
structure Spdm where
  version : Bool := false
  caps : Bool := false
  algs : Bool := false
  waiting : Option (List Byte) := none
  ready : Option (List Byte) := none
  deriving DecidableEq, Repr, Inhabited

/-- The digest in image key slot 0 of a part as the model takes it: SHAKE256 of a public key of 64 zero bytes (the fuses'
contents are the part's). -/
def factoryKey : List Byte :=
  [126, 165, 242, 234, 158, 148, 135, 222, 71, 83, 145, 139, 191, 83, 8, 235,
   145, 250, 100, 24, 137, 35, 108, 85, 215, 8, 236, 180, 217, 102, 106, 54,
   8, 215, 157, 174, 133, 226, 62, 43, 235, 49, 47, 237, 181, 33, 232, 44,
   241, 162, 51, 173, 205, 74, 156, 39, 108, 116, 139, 236, 213, 149, 196, 9]

/-- The management domain: Dawn, flash, fuses, measurements, port, log, lands (R483, R502 to R521, R530 to R535). -/
structure Mgmt where
  mode : DawnMode := .off
  step : Nat := 0
  cause : Nat := 0
  perst : Bool := false
  thermtrip : Bool := false
  pwrOk : Bool := false
  entropyOk : Bool := true
  straps : Nat := 0
  flash : Memory := {}
  imageVerified : Bool := false
  svn : Nat := 0
  keySlots : Tab (List Byte) := [(0, factoryKey)]
  revoked : List Nat := []
  owner : Option (List Byte) := none
  devKey : Nat := 0
  meas : Tab (List Byte) := []
  aliasCert : List Byte := []
  update : Option Update := none
  blobBusy : Bool := false
  eid : Nat := 0
  log : List (Nat × Nat × Nat) := []
  spdm : Tab Spdm := []
  signing : Option Nat := none
  env : DawnEnv := {}
  deriving DecidableEq, Repr, Inhabited

/-- The instructions of the test access port (R536). -/
inductive TapInstr where
  | bypass | idcode | samplePreload | extest | clamp | highz
  deriving DecidableEq, Repr, Inhabited

/-- The test access port (R536): the instruction in effect, the boundary cells, a held-off deassertion of
CXL_PERST#. -/
structure TestPort where
  ir : TapInstr := .bypass
  cells : List Bool := []
  heldOff : Bool := false
  deriving DecidableEq, Repr, Inhabited

/-- What the block puts out: interrupt vectors (R17), frames and messages, pins. The list grows at
its end and no command reads it. -/
inductive Out where
  | vectorPf (n : Nat)
  | vectorVf (part n : Nat)
  | frame (mac queue : Nat) (bytes : List Byte) (tick frac free : Nat)
  | quality (mac ql : Nat)
  | ringDone (ring tag : Nat) (status : Status)
  | fabRequest (port : Nat) (to_ : Nat) (op : FabOp) (req : FabReq)
  | fabReply (op : FabOp) (r : FabReply)
  | ppsOut (high : Bool)
  | heartbeat (dst : Nat) (b : Beat)
  | prepare (dst epoch round : Nat)
  | promise (dst epoch round : Nat) (last : Option Proposal)
  | proposal (dst : Nat) (p : Proposal)
  | acceptance (dst epoch round : Nat)
  | commit (dst : Nat) (p : Proposal) (e : Nat)
  | mirror (dev part cell : Nat) (r : MirrorRec)
  | twinCommit (dev part cell slot : Nat)
  | twinArm (dev part cell tick slot : Nat)
  | twinReply (dev part cell : Nat) (applied : Bool)
  | mgmt (status : Nat) (body : List Byte)
  | platformEvent (sensor value : Nat)
  | spdm (tr : Transport) (code : Nat) (body : List Byte)
  | tdo (cells : List Bool)
  deriving DecidableEq, Repr, Inhabited

/-- The whole state of the block. -/
structure State where
  grade : Grade := .t96
  dev : Dev := {}
  mbx : Tab Mailbox := []
  ops : Tab LongOp := []
  evr : Tab EventRing := []
  rings : Tab Ring := []
  tel : Telemetry := {}
  mem : Memory := {}
  tmb : Timebase := {}
  win : TimeWindow := {}
  pps : Pps := {}
  noon : Tab Noon := []
  grd : Grid := {}
  tts : Tts := {}
  fh : Fronthaul := {}
  srv : Serving := {}
  fab : Fabric := {}
  syn : Sync := {}
  parts : Tab Partition := []
  quarantine : Tab Nat := []
  hlt : Health := {}
  tiles : Tab Tile := []
  cde : Coding := {}
  cells : Tab Cell := []
  sweep : Tab SweepChan := []
  mbr : Membership := {}
  pwr : Power := {}
  bg : Background := {}
  mgt : Mgmt := {}
  tap : TestPort := {}
  out : List Out := []
  fresh : Nat := 0
  pending : List Instr := []
  deriving DecidableEq, Repr, Inhabited

/-- The block right after power is applied, before Dawn. -/
def State.reset : State := {}

end Sys2Proof.Machine
end

