-- ==== Sys2Proof/Machine/Ops.lean ====
section
/-!
DEFINITION. The named operations every chapter uses: sparse tables, byte stores, counters, byte order,
identity by grade, events, fault records and health.
-/
namespace Sys2Proof.Machine

/-! ### One update per piece of state -/

/-- Sets `grade`. -/
def State.setGrade (s : State) (v : Grade) : State := { s with grade := v }
/-- Sets `dev`. -/
def State.setDev (s : State) (v : Dev) : State := { s with dev := v }
/-- Sets `mbx`. -/
def State.setMbx (s : State) (v : Tab Mailbox) : State := { s with mbx := v }
/-- Sets `ops`. -/
def State.setOps (s : State) (v : Tab LongOp) : State := { s with ops := v }
/-- Sets `evr`. -/
def State.setEvr (s : State) (v : Tab EventRing) : State := { s with evr := v }
/-- Sets `rings`. -/
def State.setRings (s : State) (v : Tab Ring) : State := { s with rings := v }
/-- Sets `tel`. -/
def State.setTel (s : State) (v : Telemetry) : State := { s with tel := v }
/-- Sets `mem`. -/
def State.setMem (s : State) (v : Memory) : State := { s with mem := v }
/-- Sets `tmb`. -/
def State.setTmb (s : State) (v : Timebase) : State := { s with tmb := v }
/-- Sets `win`. -/
def State.setWin (s : State) (v : TimeWindow) : State := { s with win := v }
/-- Sets `pps`. -/
def State.setPps (s : State) (v : Pps) : State := { s with pps := v }
/-- Sets `noon`. -/
def State.setNoon (s : State) (v : Tab Noon) : State := { s with noon := v }
/-- Sets `grd`. -/
def State.setGrd (s : State) (v : Grid) : State := { s with grd := v }
/-- Sets `tts`. -/
def State.setTts (s : State) (v : Tts) : State := { s with tts := v }
/-- Sets `fh`. -/
def State.setFh (s : State) (v : Fronthaul) : State := { s with fh := v }
/-- Sets `srv`. -/
def State.setSrv (s : State) (v : Serving) : State := { s with srv := v }
/-- Sets `fab`. -/
def State.setFab (s : State) (v : Fabric) : State := { s with fab := v }
/-- Sets `syn`. -/
def State.setSyn (s : State) (v : Sync) : State := { s with syn := v }
/-- Sets `parts`. -/
def State.setParts (s : State) (v : Tab Partition) : State := { s with parts := v }
/-- Sets `quarantine`. -/
def State.setQuarantine (s : State) (v : Tab Nat) : State := { s with quarantine := v }
/-- Sets `hlt`. -/
def State.setHlt (s : State) (v : Health) : State := { s with hlt := v }
/-- Sets `tiles`. -/
def State.setTiles (s : State) (v : Tab Tile) : State := { s with tiles := v }
/-- Sets `cde`. -/
def State.setCde (s : State) (v : Coding) : State := { s with cde := v }
/-- Sets `cells`. -/
def State.setCells (s : State) (v : Tab Cell) : State := { s with cells := v }
/-- Sets `sweep`. -/
def State.setSweep (s : State) (v : Tab SweepChan) : State := { s with sweep := v }
/-- Sets `mbr`. -/
def State.setMbr (s : State) (v : Membership) : State := { s with mbr := v }
/-- Sets `pwr`. -/
def State.setPwr (s : State) (v : Power) : State := { s with pwr := v }
/-- Sets `bg`. -/
def State.setBg (s : State) (v : Background) : State := { s with bg := v }
/-- Sets `mgt`. -/
def State.setMgt (s : State) (v : Mgmt) : State := { s with mgt := v }
/-- Sets `tap`. -/
def State.setTap (s : State) (v : TestPort) : State := { s with tap := v }
/-- Sets `out`. -/
def State.setOut (s : State) (v : List Out) : State := { s with out := v }
/-- Sets `fresh`. -/
def State.setFresh (s : State) (v : Nat) : State := { s with fresh := v }

/-! ### Sparse tables: strictly rising keys -/

/-- The entry under a key. -/
def tabFind? {α : Type} (t : Tab α) (k : Nat) : Option α :=
  match t with
  | [] => none
  | (j, v) :: r => if j = k then some v else tabFind? r k

/-- The entry under a key, or a default. -/
def tabGet {α : Type} (t : Tab α) (k : Nat) (d : α) : α := (tabFind? t k).getD d

/-- Sets the entry under a key. -/
def tabPut {α : Type} (t : Tab α) (k : Nat) (v : α) : Tab α :=
  match t with
  | [] => [(k, v)]
  | (j, w) :: r => if k < j then (k, v) :: (j, w) :: r
    else if j = k then (k, v) :: r else (j, w) :: tabPut r k v

/-- Removes the entry under a key. -/
def tabDel {α : Type} (t : Tab α) (k : Nat) : Tab α := t.filter (fun p => p.1 != k)

/-- Changes the entry under a key, from a default where there is none. -/
def tabUpd {α : Type} (t : Tab α) (k : Nat) (d : α) (f : α → α) : Tab α := tabPut t k (f (tabGet t k d))

/-- Changes the entry under a key where there is one. -/
def tabMod {α : Type} (t : Tab α) (k : Nat) (f : α → α) : Tab α :=
  t.map (fun p => if p.1 = k then (p.1, f p.2) else p)

/-- Whether a key is present. -/
def tabHas {α : Type} (t : Tab α) (k : Nat) : Bool := (tabFind? t k).isSome

/-- The canonical form of a sparse table. -/
abbrev tabWf {α : Type} (t : Tab α) : Prop := t.Pairwise (fun a b => a.1 < b.1)

/-- The least number below `n` for which `p` holds. -/
def firstBelow (n : Nat) (p : Nat → Bool) : Option Nat := (List.range n).find? p

/-- The quotient rounded up. -/
def cdiv (a b : Nat) : Nat := (a + b - 1) / b

/-- Inserts into a sorted list, behind equals. -/
def insertBy {α : Type} (lt : α → α → Bool) (x : α) : List α → List α
  | [] => [x]
  | y :: r => if lt x y then x :: y :: r else y :: insertBy lt x r

/-- A stable sort. -/
def sortBy {α : Type} (lt : α → α → Bool) (l : List α) : List α := l.foldl (fun a x => insertBy lt x a) []

/-! ### Byte stores -/

/-- The undefined range that holds an address. -/
def holeAt (l : List Hole) (a : Nat) : Option Hole := l.find? (fun h => decide (h.base ≤ a) && decide (a < h.base + h.len))

/-- What an unlisted address reads as: 0, or its free value where it is undefined. -/
def bareByte (l : List Hole) (a : Nat) : Byte := (holeAt l a).elim 0 (fun h => Config.freeByte h.seed (h.ofs + (a - h.base)))

/-- Reads a byte. -/
def memRead (m : Memory) (a : Nat) : Byte := (m.cells.find? (fun c => c.1 == a)).elim (bareByte m.holes a) (fun c => c.2)

/-- Lists a byte at its place. -/
def cellInsert (m : List Host.Cell) (a : Nat) (b : Byte) : List Host.Cell :=
  match m with
  | [] => [(a, b)]
  | (j, w) :: r => if a < j then (a, b) :: (j, w) :: r
    else if j = a then (a, b) :: r else (j, w) :: cellInsert r a b

/-- Writes a byte, keeping the canonical form. -/
def memWrite (m : Memory) (a : Nat) (b : Byte) : Memory :=
  if b = 0 && (holeAt m.holes a).isNone then { m with cells := m.cells.filter (fun c => c.1 != a) }
  else { m with cells := cellInsert m.cells a b }

/-- Writes bytes from an address upwards. -/
def memWriteBytes (m : Memory) (a : Nat) : List Byte → Memory
  | [] => m
  | b :: r => memWriteBytes (memWrite m a b) (a + 1) r

/-- Reads `n` bytes from an address upwards. -/
def memReadBytes (m : Memory) (a n : Nat) : List Byte := (List.range n).map (fun i => memRead m (a + i))

/-- What is left of an undefined range outside [a, a + n). -/
def holeCut (a n : Nat) (h : Hole) : List Hole :=
  (if h.base < a then [{ h with len := min h.len (a - h.base) }] else [])
    ++ (if a + n < h.base + h.len then
      [{ h with base := max h.base (a + n), len := h.base + h.len - max h.base (a + n), ofs := h.ofs + (max h.base (a + n) - h.base) }]
      else [])

/-- Zeroes `n` bytes from an address upwards. -/
def memZero (m : Memory) (a n : Nat) : Memory :=
  { cells := m.cells.filter (fun c => c.1 < a || a + n ≤ c.1), holes := m.holes.flatMap (holeCut a n) }

/-- Leaves `n` bytes from an address upwards undefined. -/
def memForget (m : Memory) (a n seed : Nat) : Memory :=
  let z := memZero m a n
  { z with holes := { base := a, len := n, seed := seed, ofs := 0 } :: z.holes }

/-- The canonical form of a byte store. -/
abbrev memWf (m : Memory) : Prop :=
  m.cells.Pairwise (fun x y => x.1 < y.1) ∧ ∀ c ∈ m.cells, c.2 ≠ 0 ∨ (holeAt m.holes c.1).isSome = true

/-! ### Byte order (R10) -/

/-- A number as `n` little-endian bytes. -/
def leBytes : Nat → Nat → List Byte
  | 0, _ => []
  | n + 1, v => BitVec.ofNat 8 v :: leBytes n (v / 256)

/-- A signed number as `n` little-endian bytes, two's complement. -/
def leInt (n : Nat) (v : Int) : List Byte := leBytes n (v % (2 ^ (8 * n) : Nat)).toNat

/-- Little-endian bytes as a number. -/
def leNat : List Byte → Nat
  | [] => 0
  | b :: r => b.toNat + 256 * leNat r

/-- The little-endian number of `n` bytes at offset `i`; bytes past the end read 0. -/
def field (p : List Byte) (i n : Nat) : Nat := leNat ((p.drop i).take n)

/-- The signed little-endian number of `n` bytes at offset `i`. -/
def fieldInt (p : List Byte) (i n : Nat) : Int :=
  let v := field p i n
  if v < 2 ^ (8 * n - 1) then v else (v : Int) - (2 ^ (8 * n) : Nat)

/-- The bits [hi:lo] of a number (R10). -/
def bits (v hi lo : Nat) : Nat := v / 2 ^ lo % 2 ^ (hi + 1 - lo)

/-- Bit `i` of a number. -/
def bit (v i : Nat) : Bool := v.testBit i

/-- A Bool as 0 or 1. -/
def b2n (b : Bool) : Nat := if b then 1 else 0

/-- The upper half of a 64-bit register, or its lower half. -/
def hi32 (v : Nat) : Nat := v / 4294967296 % 4294967296
def lo32 (v : Nat) : Nat := v % 4294967296

/-! ### Counters (R14) -/

/-- The largest value of an event counter. -/
def ctrMax : Nat := 2 ^ 48 - 1

/-- Adds to a 48-bit saturating counter, setting its flag at the maximum. -/
def ctrAdd (c : Ctr) (n : Nat) : Ctr :=
  if c.val + n < ctrMax then { c with val := c.val + n } else { val := ctrMax, sat := true }

/-- Adds one. -/
def ctrInc (c : Ctr) : Ctr := ctrAdd c 1

/-- A counter as its 64-bit register: the value in [47:0], the flag in bit 63. -/
def ctrWord (c : Ctr) : Nat := c.val + (if c.sat then 2 ^ 63 else 0)

/-! ### What the grade fixes (R1, R22) -/

def gradeArrays : Grade → Nat | .t96 => 4 | .t72 => 3
def gradeQuads (g : Grade) : Nat := 4 * gradeArrays g
def gradeTiles (g : Grade) : Nat := 16 * gradeArrays g
def gradeMovers (g : Grade) : Nat := 4 * gradeArrays g
def gradePorts (g : Grade) : Nat := 3 * gradeArrays g
def gradeDramGb (g : Grade) : Nat := 128 * gradeArrays g
def gradeCu : Grade → Nat | .t96 => 320 | .t72 => 240
def gradeTdp : Grade → Nat | .t96 => 1450 | .t72 => 1150
def gradeCapMin : Grade → Nat | .t96 => 900 | .t72 => 720
def gradeNumber : Grade → Nat | .t96 => 0x96 | .t72 => 0x72

/-- Whether a unit identifier names a unit of the grade (R83). -/
def unitExists (g : Grade) (u : Nat) : Bool :=
  u < gradeQuads g || (0x40 ≤ u && u < 0x40 + gradeTiles g) || (0x80 ≤ u && u < 0xDC)
    || (0xE0 ≤ u && u < 0xE0 + gradeMovers g) || (0xF0 ≤ u && u ≤ 0xF3)

/-! ### Status codes (R36) -/

def statusCode : Status → Nat
  | .success => 0x0000 | .inProgress => 0x0001 | .busy => 0x0002 | .badOpcode => 0x0003
  | .badLength => 0x0004 | .badField => 0x0005 | .zeroNotAllowed => 0x0006 | .notPermitted => 0x0007
  | .aborted => 0x0008 | .mbxTimeout => 0x0009 | .cancelled => 0x000A | .noResource => 0x000B
  | .notReady => 0x000C | .badAddress => 0x0101 | .imageRejected => 0x0102
  | .noPartition => 0x0201 | .partitionState => 0x0202 | .quota => 0x0203 | .restoreShape => 0x0204
  | .late => 0x0301 | .notLocked => 0x0302 | .timeRange => 0x0303
  | .overBudget => 0x0401 | .cellState => 0x0402 | .twinUnavailable => 0x0403 | .slotLate => 0x0404
  | .overrun => 0x0501 | .contextState => 0x0502 | .imageInvalid => 0x0503 | .notResident => 0x0504
  | .jobRetired => 0x0601 | .outcomeUnknown => 0x0602 | .windowFault => 0x0603
  | .fabricTimeout => 0x0604 | .notMember => 0x0605
  | .ownerLost => 0x0701 | .notAsFound => 0x0702 | .notOwner => 0x0703 | .markedOp => 0x0704
  | .signatureMismatch => 0x0705
  | .twilight => 0x0801 | .expulsionBudget => 0x0802 | .hung => 0x0803 | .uncorrectable => 0x0804

/-! ### Output and events -/

/-- Puts something out. -/
def emit (o : Out) (s : State) : State := s.setOut (s.out ++ [o])

/-- Event ring n. -/
def evRing (s : State) (n : Nat) : EventRing := tabGet s.evr n {}

/-- Sets event ring n. -/
def setEvRing (n : Nat) (r : EventRing) (s : State) : State := s.setEvr (tabPut s.evr n r)

/-- The ring an event of a class goes to: the lowest enabled ring whose mask has the class (R34). -/
def routeClass (s : State) (cls : Nat) : Option Nat :=
  firstBelow 16 (fun n => (evRing s n).enable && bit (evRing s n).mask cls)

/-- Entries waiting in an event ring (R39). -/
def evOcc (r : EventRing) : Nat := (r.prod + 4294967296 - r.cons) % 4294967296

/-- Posts an event to ring n: the entry, then prod, then vector n; a full ring drops and counts (R39). -/
def postTo (n : Nat) (e : Event) (s : State) : State :=
  let r := evRing s n
  if evOcc r = 512 then setEvRing n { r with overflow := true, drops := ctrInc r.drops } s
  else
    let e' := { e with tick := s.tmb.free, seq := r.prod, detail := e.detail.take 36 }
    emit (.vectorPf n) (setEvRing n
      { r with entries := tabPut r.entries (r.prod % 512) e', prod := (r.prod + 1) % 4294967296 } s)

/-- Posts an event by the routing of R34; with no ring for its class it is dropped and counted in the
drop counter of ring 0. -/
def post (e : Event) (s : State) : State :=
  match routeClass s (e.code / 256) with
  | some n => postTo n e s
  | none => setEvRing 0 { evRing s 0 with drops := ctrInc (evRing s 0).drops } s

/-- Raises vector n of a partition's VF (R17). -/
def vfVector (part n : Nat) (s : State) : State := emit (.vectorVf part n) s

/-! ### Health and fault records (R454, R455, R467) -/

/-- The health score (R467). -/
def healthScore (penalty : Nat) : Nat := 1000 - penalty

/-- Posts HEALTH when the score moved by 50 or more from the one last reported (R467, R479). -/
def healthReport (s : State) : State :=
  let new := healthScore s.hlt.penalty
  let old := s.hlt.lastHealth
  if new + 50 ≤ old || old + 50 ≤ new then
    post { code := 0x0805, detail := leBytes 2 old ++ leBytes 2 new ++ leBytes 2 s.hlt.penalty }
      (s.setHlt { s.hlt with lastHealth := new })
  else s

/-- Adds a weight to the penalty, saturating at 65 535 (R467). -/
def healthAdd (w : Nat) (s : State) : State :=
  healthReport (s.setHlt { s.hlt with penalty := min 65535 (s.hlt.penalty + w) })

/-- The weight of a fault code (R467). -/
def faultWeight (code : Nat) : Nat :=
  if code = 6 || code = 3 || code = 4 || code = 0xA then 100
  else if code = 7 then 50
  else if code = 8 then 200
  else if code = 0xD then 400
  else if code = 0xC then 10
  else 0

/-- Writes a record into a log of `n` records, overwriting the oldest when full (R455). -/
def logPut (n : Nat) (r : FaultRec) (l : FaultLog) : FaultLog :=
  let r' := { r with seq := l.prod }
  let l' := { l with recs := tabPut l.recs (l.prod % n) r', prod := (l.prod + 1) % 4294967296 }
  if (l.prod + 4294967296 - l.cons) % 4294967296 = n then
    { l' with cons := (l.cons + 1) % 4294967296, overwritten := ctrInc l.overwritten }
  else l'

/-- Counts a fault in the health counters (R455): uncorrectable errors and hangs. -/
def faultCount (code : Nat) (h : Health) : Health :=
  if code = 7 then { h with uncorrectable := ctrInc h.uncorrectable }
  else if code = 6 then { h with hangs := ctrInc h.hangs }
  else h

/-- Writes a fault record: the log, the copy in the partition's VF page with VF vector 1, FAULT, and
the health weight (R454, R455, R467). -/
def fault (r : FaultRec) (s : State) : State :=
  let r := { r with tick := s.tmb.free }
  let seq := s.hlt.log.prod
  let s := s.setHlt (faultCount r.code { s.hlt with log := logPut 4096 r s.hlt.log })
  let s := if r.part < 64 then
      vfVector r.part 1 (s.setHlt { s.hlt with vf := tabUpd s.hlt.vf r.part {} (logPut 31 r) })
    else s
  let s := post { code := 0x0801, part := r.part, status := r.status.getD .success,
                  detail := leBytes 2 r.code ++ leBytes 1 r.part ++ leBytes 1 r.reset
                    ++ leBytes 4 seq } s
  healthAdd (faultWeight r.code) s

/-- Reads control structures, each (memory, structure) in two copies of which those in `errs`, as (memory, copy), fail at this
read (R466): a failed copy is rewritten from the other; one that fails in both raises UNCORRECTABLE with reset 4, and the device
leaves. The answer is whether all could be read. -/
def ctlRead (xs errs : List (CtlMem × Nat)) (s : State) : Bool × State :=
  let fails := fun (x : CtlMem × Nat) (c : Nat) => errs.contains (x.1, c) || s.hlt.badCopies.contains (x.1, x.2, c)
  let lost := xs.filter (fun x => fails x 0 && fails x 1)
  let rest := s.hlt.badCopies.filter (fun b => !xs.contains (b.1, b.2.1))
  let s := s.setHlt { s.hlt with badCopies := rest ++ lost.flatMap (fun x => [(x.1, x.2, 0), (x.1, x.2, 1)]) }
  if lost.isEmpty then (true, s)
  else
    let s := fault { code := 7, reset := 4 } s
    (false, s.setHlt { s.hlt with leaving := true })

/-! ### Free values -/

/-- Draws a free value: the state's counter moves on (assumption 2). -/
def drawFree (s : State) : Nat × State := (Config.freeNat s.fresh, (s.setFresh (s.fresh + 1)))

/-- The status codes as a list, success first. -/
def allStatuses : List Status :=
  [.success, .inProgress, .busy, .badOpcode, .badLength, .badField, .zeroNotAllowed, .notPermitted,
   .aborted, .mbxTimeout, .cancelled, .noResource, .notReady, .badAddress, .imageRejected,
   .noPartition, .partitionState, .quota, .restoreShape, .late, .notLocked, .timeRange]
  ++ [.overBudget, .cellState, .twinUnavailable, .slotLate, .overrun, .contextState, .imageInvalid,
   .notResident, .jobRetired, .outcomeUnknown, .windowFault, .fabricTimeout, .notMember, .ownerLost,
   .notAsFound, .notOwner, .markedOp, .signatureMismatch, .twilight, .expulsionBudget, .hung,
   .uncorrectable]

/-- Draws a status where the spec states none (assumption 2). -/
def drawStatus (s : State) : Status × State :=
  (allStatuses.getD (Config.freeNat s.fresh % allStatuses.length) .busy, (s.setFresh (s.fresh + 1)))

/-- Draws bits of the entropy source (R512). -/
def drawEntropy (s : State) : Nat × State := (Config.entropy s.fresh, (s.setFresh (s.fresh + 1)))

/-- A free choice among the numbers below `n` that are not taken: which one the device takes is open
(assumption 2); none when all are taken. -/
def pickFree (n : Nat) (taken : Nat → Bool) (s : State) : Option Nat × State :=
  let free := (List.range n).filter (fun k => !taken k)
  if free.isEmpty then (none, s)
  else (free[Config.freeNat s.fresh % free.length]?, (s.setFresh (s.fresh + 1)))

/-! ### Where the byte stores stand in the one memory (assumption 6) -/

/-- The address of a byte of each store (R17, R95, R96, R343). -/
def hdmAt (a : Nat) : Nat := a
def dramAt (a : Nat) : Nat := 2 ^ 40 + a
def arrayAt (n a : Nat) : Nat := 2 ^ 42 + n * 2 ^ 26 + a
def tileAt (t a : Nat) : Nat := 2 ^ 43 + t * 2 ^ 20 + a
def codingAt (a : Nat) : Nat := 2 ^ 44 + a
def seqAt (a : Nat) : Nat := 2 ^ 45 + a
def stagingAt (a : Nat) : Nat := 2 ^ 46 + a
def captureAt (a : Nat) : Nat := 2 ^ 47 + a
def regionAt (ctx lr kind a : Nat) : Nat := 2 ^ 50 + ((ctx * 4 + lr) * 4 + kind) * 2 ^ 40 + a

/-- The address of a byte of a place. -/
def placeAt : Place → Nat → Nat
  | .array n, a => arrayAt n a
  | .tile t, a => tileAt t a
  | .coding, a => codingAt a
  | .dram, a => dramAt a
  | .hdm, a => hdmAt a
  | .capture, a => captureAt a
  | .staging, a => stagingAt a
  | .region c r k, a => regionAt c r k a

/-- Reads HDM bytes; writes HDM bytes. -/
def hdmRead (s : State) (a n : Nat) : List Byte := memReadBytes s.mem (hdmAt a) n
def hdmWrite (a : Nat) (bs : List Byte) (s : State) : State :=
  s.setMem (memWriteBytes s.mem (hdmAt a) bs)

/-! ### Partitions -/

/-- Partition p; absent where nothing is listed. -/
def partOf (s : State) (p : Nat) : Partition := tabGet s.parts p {}

/-- Changes partition p. -/
def updPart (p : Nat) (f : Partition → Partition) (s : State) : State :=
  s.setParts (tabUpd s.parts p {} f)

/-- Whether [a, a + n) lies in the HDM share of partition p (R374). -/
def inShare (s : State) (p a n : Nat) : Bool :=
  (partOf s p).hdmBase ≤ a && a + n ≤ (partOf s p).hdmBase + (partOf s p).hdmLen

/-- Whether [a, a + n) lies in the manager area: in the window and outside every share (R376). -/
def inManager (s : State) (a n : Nat) : Bool :=
  a + n ≤ s.dev.hdmSize && s.parts.all (fun q =>
    (q.2.state == .absent && !q.2.creating)
      || a + n ≤ q.2.hdmBase || q.2.hdmBase + q.2.hdmLen ≤ a || n == 0)

/-- Whether a target's area holds [a, a + n): a partition's share, or the manager area for 0xFF. -/
def inTarget (s : State) (target a n : Nat) : Bool :=
  if target = 0xFF then inManager s a n else inShare s target a n

/-! ### Outcomes -/

/-- The outcome of a command whose operands are well formed; else the refusal. -/
def run (ok : Bool) (what : String) (t : State) : Host.Outcome State Fault Refusal :=
  if ok then .next t else .refused (.malformed what)

/-- The outcome of a command on a unit that the grade has or has not (R3). -/
def runOn (present : Bool) (what : String) (n : Nat) (o : Host.Outcome State Fault Refusal) :
    Host.Outcome State Fault Refusal :=
  if present then o else .fault (.absentUnit what n)

end Sys2Proof.Machine
end

