-- ==== Sys2Proof/Machine/Hash.lean ====
section
/-!
DEFINITION. SHAKE256, which the spec names for the determinism signature (R450), the save stream (R386) and Dawn's digests;
its definition is that of FIPS 202 (PRESUMED, assumption 24).
-/
namespace Sys2Proof.Machine

/-- Rotation of a 64-bit lane to the left. -/
def rotl64 (x n : Nat) : Nat := (x * 2 ^ n + x / 2 ^ (64 - n)) % 2 ^ 64

/-- The rotation offsets of rho by x + 5 y. -/
def keccakRot : List Nat :=
  [0, 1, 62, 28, 27, 36, 44, 6, 55, 20, 3, 10, 43, 25, 39, 41, 45, 15, 21, 8, 18, 2, 61, 56, 14]

/-- The round constants of iota. -/
def keccakRc : List Nat :=
  [0x0000000000000001, 0x0000000000008082, 0x800000000000808A, 0x8000000080008000, 0x000000000000808B,
   0x0000000080000001, 0x8000000080008081, 0x8000000000008009, 0x000000000000008A, 0x0000000000000088,
   0x0000000080008009, 0x000000008000000A]
  ++ [0x000000008000808B, 0x800000000000008B, 0x8000000000008089, 0x8000000000008003, 0x8000000000008002,
   0x8000000000000080, 0x000000000000800A, 0x800000008000000A, 0x8000000080008081, 0x8000000000008080,
   0x0000000080000001, 0x8000000080008008]

/-- One round: theta, rho and pi, chi, iota on 25 lanes at x + 5 y. -/
def keccakRound (a : List Nat) (rc : Nat) : List Nat :=
  let at_ := fun (l : List Nat) x y => l.getD (x % 5 + 5 * (y % 5)) 0
  let c := (List.range 5).map (fun x => Nat.xor (at_ a x 0) (Nat.xor (at_ a x 1) (Nat.xor (at_ a x 2) (Nat.xor (at_ a x 3) (at_ a x 4)))))
  let d := (List.range 5).map (fun x => Nat.xor (c.getD ((x + 4) % 5) 0) (rotl64 (c.getD ((x + 1) % 5) 0) 1))
  let t := (List.range 25).map (fun i => rotl64 (Nat.xor (a.getD i 0) (d.getD (i % 5) 0)) (keccakRot.getD i 0))
  -- lane (x, y) of the result of pi is lane (x + 3 y, x) of t
  let b := (List.range 25).map (fun i => at_ t (i % 5 + 3 * (i / 5)) (i % 5))
  let e := (List.range 25).map (fun i =>
    let x := i % 5
    let y := i / 5
    Nat.xor (at_ b x y) ((Nat.xor (at_ b (x + 1) y) (2 ^ 64 - 1)) &&& at_ b (x + 2) y))
  match e with
  | h :: r => Nat.xor h rc :: r
  | [] => []

/-- The permutation. -/
def keccakF (a : List Nat) : List Nat := keccakRc.foldl keccakRound a

/-- A block of 136 bytes joins the state. -/
def absorb (a : List Nat) (block : List Byte) : List Nat :=
  keccakF ((List.range 25).map (fun i => Nat.xor (a.getD i 0) (if i < 17 then field block (8 * i) 8 else 0)))

/-- Absorbs the blocks of a padded message. -/
def absorbAll : Nat → List Nat → List Byte → List Nat
  | 0, a, _ => a
  | n + 1, a, l => if l.isEmpty then a else absorbAll n (absorb a (l.take 136)) (l.drop 136)

/-- The message with its suffix and padding. -/
def shakePad (l : List Byte) : List Byte :=
  let k := 136 - l.length % 136
  if k = 1 then l ++ [0x9F] else l ++ [0x1F] ++ List.replicate (k - 2) 0 ++ [0x80]

/-- Squeezes n blocks. -/
def squeeze : Nat → List Nat → List Byte
  | 0, _ => []
  | n + 1, a => ((a.take 17).flatMap (leBytes 8)) ++ squeeze n (keccakF a)

/-- The first n bytes of SHAKE256 of a message. -/
def shake256 (l : List Byte) (n : Nat) : List Byte :=
  let p := shakePad l
  (squeeze ((n + 135) / 136) (absorbAll (p.length / 136) (List.replicate 25 0) p)).take n

end Sys2Proof.Machine
end

