-- ==== Sys2Proof/Machine/Mailbox.lean ====
section
/-!
DEFINITION. The mailbox mechanism every command class shares: the table of opcodes, the general checks
of R539, the response and its completion notice (R27), and long operations (R30).
-/
namespace Sys2Proof.Machine

/-- Mailbox m; mailboxes 0 to 15 are the PF's, 16 + p that of partition p's VF. -/
def mbxOf (s : State) (m : Nat) : Mailbox := tabGet s.mbx m {}

/-- Sets mailbox m. -/
def setMbx (m : Nat) (b : Mailbox) (s : State) : State := s.setMbx (tabPut s.mbx m b)

/-- Whether a mailbox is a VF's. -/
def isVf (m : Nat) : Bool := 16 ≤ m

/-- The partition a command acts on, 0xFF for the device; a VF's target is its own (R25). -/
def targetOf (m : Nat) (c : Cmd) : Nat := if isVf m then m - 16 else c.target

/-- The opcodes with their fixed payload size (R32) and whether a VF may issue them (R33). -/
def opcodeTable : List (Nat × Nat × Bool) :=
  [(0x0100, 0, true), (0x0101, 4, false), (0x0102, 2, true), (0x0103, 3, true),
   (0x0104, 32, true), (0x0105, 2, true), (0x0106, 0, false)]
  ++ [(0x0200, 48, false), (0x0201, 0, false), (0x0202, 0, true), (0x0203, 0, true),
   (0x0204, 2, false), (0x0205, 0, false), (0x0206, 96, false), (0x0207, 96, false),
   (0x0208, 48, false)]
  ++ [(0x0300, 0, true), (0x0301, 24, false), (0x0302, 4, false), (0x0303, 8, false),
   (0x0304, 8, false), (0x0305, 24, true), (0x0306, 2, true), (0x0307, 8, false),
   (0x0308, 0, false)]
  ++ [(0x0400, 72, false), (0x0401, 1, false), (0x0402, 1, true), (0x0403, 6, false),
   (0x0404, 1, false), (0x0440, 16, false), (0x0441, 0, false), (0x0442, 8, false),
   (0x0443, 0, true), (0x0444, 16, false)]
  ++ [(0x0460, 2, false), (0x0461, 16, false), (0x0462, 16, false), (0x0463, 24, false),
   (0x0464, 20, false), (0x0465, 8, false), (0x0466, 1, false)]
  ++ [(0x04A0, 8, false), (0x04A1, 12, true), (0x04C0, 24, false), (0x04C1, 1, false),
   (0x04C2, 1, true)]
  ++ [(0x0500, 24, false), (0x0501, 2, false), (0x0502, 32, false), (0x0503, 2, true),
   (0x0504, 2, false), (0x0505, 2, true), (0x0506, 2, true), (0x0580, 32, true),
   (0x0581, 2, true), (0x0582, 40, true)]
  ++ [(0x0600, 12, false), (0x0601, 2, false), (0x0602, 4, false), (0x0603, 4, false),
   (0x0604, 32, true), (0x0605, 2, true), (0x0606, 1, false)]
  ++ [(0x0700, 40, true), (0x0701, 3, true), (0x0702, 16, true), (0x0703, 2, true),
   (0x0704, 13, true), (0x0705, 2, true), (0x0780, 1, false), (0x0781, 2, true)]
  ++ [(0x0800, 4, true), (0x0801, 8, false), (0x0810, 36, false), (0x0811, 0, true),
   (0x0812, 2, false), (0x0813, 3, false), (0x0820, 28, true), (0x0830, 4, false),
   (0x0831, 8, false)]

/-- The row of an opcode, none where it is undefined (R32). -/
def opcodeRow (op : Nat) : Option (Nat × Bool) :=
  (opcodeTable.find? (fun r => r.1 == op)).map (fun r => r.2)

/-- A reply as a command's meaning forms it: status, payload, least wait with BUSY, handle. -/
structure Reply where
  status : Status := .success
  payload : List Byte := []
  retry : Nat := 0
  handle : Nat := 0xFFFF
  deriving DecidableEq, Repr, Inhabited

/-- A bare status as a reply. -/
def reply (st : Status) : Reply := { status := st }

/-- Phase B of a grid reset runs (R461). -/
def inPhaseB (s : State) : Bool := ((s.hlt.grid.map (fun g => g.phaseB.isSome)).getD false)

/-- The rest of the phase B bound in µs, rounded up as a minimum (R70, R461). -/
def phaseBRest (s : State) : Nat :=
  match s.hlt.grid with
  | some { phaseB := some b, .. } => ((b + 3932160 - s.tmb.free) * 100 + 196607) / 196608
  | _ => 0

/-- The general checks of R539, in order; none when all pass. A VF mailbox of a FREEZING or FROZEN
partition answers as in a reset (R383, assumption 7). -/
def generalCheck (m : Nat) (c : Cmd) (s : State) : Option Reply :=
  if !s.dev.dawnDone then some (reply .notReady) else
  match opcodeRow c.opcode with
  | none => some (reply .badOpcode)
  | some (fixedLen, vf) =>
    let t := targetOf m c
    let p := partOf s t
    if c.len < fixedLen || 1968 < c.len then some (reply .badLength)
    else if isVf m && !vf then some (reply .notPermitted)
    else if !isVf m && 0x40 ≤ t && t ≠ 0xFF then some (reply .badField)
    else if t < 64 && p.state = .absent && c.opcode ≠ 0x0200 then some (reply .noPartition)
    else if t < 64 && (p.state = .resetting || p.state = .removing)
        && !(c.opcode = 0x0100 || c.opcode = 0x0103 || c.opcode = 0x0203
          || (c.opcode = 0x0201 && p.state = .resetting)) then some (reply .partitionState)
    else if isVf m && (p.state = .freezing || p.state = .frozen)
        && !(c.opcode = 0x0100 || c.opcode = 0x0103 || c.opcode = 0x0203) then
      some (reply .partitionState)
    else if (c.opcode / 256 = 4 || c.opcode / 256 = 5) && inPhaseB s then
      some { status := .busy, retry := min 65535 (phaseBRest s) }
    else none

/-- The notice of a completed command (R24, R27, R34): the event or VF vector 0, when irq_en is 1. -/
def completionNotice (m : Nat) (c : Cmd) (r : Reply) (s : State) : State :=
  let b := mbxOf s m
  if !b.irqEn then s
  else if isVf m then vfVector (m - 16) 0 s
  else
    let e : Event := { code := 0x0101, part := targetOf m c, tag := c.tag, status := r.status,
                       opcode := c.opcode, handle := r.handle, detail := leBytes 1 m }
    if (evRing s b.evRing).enable && bit (evRing s b.evRing).mask 1 then postTo b.evRing e s
    else post e s

/-- Completes the command of mailbox m: the response, DONE, the notice (R26, R27). -/
def complete (m : Nat) (c : Cmd) (r : Reply) (s : State) : State :=
  completionNotice m c r (setMbx m
    { mbxOf s m with
        phase := .done,
        resp := { status := r.status, opcode := c.opcode, tag := c.tag, retryAfter := r.retry, handle := r.handle,
                  payload := r.payload.take 1968 } } s)

/-- Ends the firmware's work on a command: its response, or nothing where the hardware has already
completed it with MBX_TIMEOUT (R31). -/
def respond (m : Nat) (c : Cmd) (r : Reply) (s : State) : State :=
  let b := mbxOf s m
  let s := setMbx m { b with taken := none, discard := false } s
  if b.discard then s else complete m c r s

/-- A command as its meaning sees it: its mailbox, its target and its payload. -/
structure Req where
  m : Nat
  target : Nat
  cmd : Cmd
  deriving DecidableEq, Repr, Inhabited

/-- Payload field: `n` bytes at offset `i`. -/
def pl (q : Req) (i n : Nat) : Nat := field q.cmd.payload i n

/-- Runs the command of one opcode that the firmware has taken in mailbox m: the checks of R539, then
its meaning, then its response. A mailbox with another command, or none, has nothing due. -/
def runCommand (opcode m : Nat) (body : Req → State → State × Reply) (s : State) : State :=
  match (mbxOf s m).taken with
  | none => s
  | some c =>
    if c.opcode ≠ opcode then s else
    match generalCheck m c s with
    | some r => respond m c r s
    | none =>
      let (s', r) := body { m := m, target := targetOf m c, cmd := c } s
      respond m c r s'

/-- A failed command: no effect (R539). -/
def failed (st : Status) (s : State) : State × Reply := (s, reply st)

/-! ### Long operations (R30) -/

/-- Operation under a handle. -/
def opOf (s : State) (h : Nat) : Option LongOp := tabFind? s.ops h

/-- Takes a handle for a long operation: IN_PROGRESS, or BUSY with retry_after 0 when all 64 are held. -/
def startOp (q : Req) (obj : Nat) (args : List Nat) (s : State) : Option Nat × State :=
  match pickFree 64 (fun h => tabHas s.ops h) s with
  | (none, s) => (none, s)
  | (some h, s) =>
    let o : LongOp := { mbx := q.m, tag := q.cmd.tag, opcode := q.cmd.opcode, part := q.target,
                        obj := obj, args := args }
    (some h, (s.setOps (tabPut s.ops h o)))

/-- The reply of an accepted long operation. -/
def inProgress (h : Nat) : Reply := { status := .inProgress, handle := h }

/-- Starts a long operation and answers for it: `k` makes the further changes. -/
def longOp (q : Req) (obj : Nat) (args : List Nat) (k : Nat → State → State) (s : State) :
    State × Reply :=
  match startOp q obj args s with
  | (none, _) => failed .busy s
  | (some h, s') => (k h s', inProgress h)

/-- Where the next OPERATION_DONE of a handle would stand, if a ring takes it (R34, R39). -/
def nextPost (s : State) : Option (Nat × Nat) :=
  (routeClass s 1).bind (fun n =>
    if evOcc (evRing s n) = 512 then none else some (n, (evRing s n).prod))

/-- Ends a long operation: its result is kept and posted as OPERATION_DONE (R30, R38). -/
def finishOp (h : Nat) (st : Status) (result : List Byte) (s : State) : State :=
  match opOf s h with
  | none => s
  | some o =>
    if o.finished then s else
    let o' := { o with finished := true, status := st, result := result, posted := nextPost s }
    post { code := 0x0102, part := o.part, tag := o.tag, status := st, opcode := o.opcode, handle := h,
           detail := result.take 36 } (s.setOps (tabPut s.ops h o'))

/-- Whether a mailbox sees a handle: a PF mailbox every one, a VF mailbox its own (R30). -/
def opVisible (m : Nat) (o : LongOp) : Bool := !isVf m || o.mbx = m

/-- The handle of the running operation of an opcode on an object. -/
def opOn (s : State) (opcode obj : Nat) : Option Nat :=
  (s.ops.find? (fun p => p.2.opcode == opcode && p.2.obj == obj && !p.2.finished)).map (fun p => p.1)

/-- Ends every running operation of an opcode on an object. -/
def finishOpsOn (opcode obj : Nat) (st : Status) (result : List Byte) (s : State) : State :=
  (s.ops.filter (fun p => p.2.opcode == opcode && p.2.obj == obj && !p.2.finished)).foldl
    (fun s p => finishOp p.1 st result s) s

end Sys2Proof.Machine
end

