-- ==== Sys2Proof/Machine/Rings.lean ====
section
/-!
DEFINITION. Rings in HDM (R40 to R45): doorbells, the reading of messages from a host-to-device ring and
the writing of entries to a device-to-host ring.
-/
namespace Sys2Proof.Machine

/-- Ring n, if there is one. -/
def ringOf (s : State) (n : Nat) : Option Ring := tabFind? s.rings n

/-- Changes ring n. -/
def updRing (n : Nat) (f : Ring → Ring) (s : State) : State := s.setRings (tabMod s.rings n f)

/-- Entries of a ring; the HDM offset of entry i; that of the index block (R41). -/
def ringSize (r : Ring) : Nat := 2 ^ r.log2
def ringEntry (r : Ring) (i : Nat) : Nat := r.base + 64 * (i % ringSize r)
def ringIndexBlock (r : Ring) : Nat := r.base + 64 * ringSize r

/-- Difference of two ring indices modulo 2^32. -/
def idxSub (a b : Nat) : Nat := (a + 4294967296 - b % 4294967296) % 4294967296

/-- Stops a ring with a fault record of code RING and RING_FAULT (R44, R38). -/
def ringFault (n reason index : Nat) (s : State) : State :=
  match ringOf s n with
  | none => s
  | some r =>
    let s := updRing n (fun r => { r with faulted := true }) s
    let s := fault { code := 9, part := r.part,
                     detail := leBytes 2 n ++ leBytes 1 reason ++ leBytes 1 0 ++ leBytes 4 index } s
    post { code := 0x0104, part := r.part, detail := leBytes 2 n ++ leBytes 1 reason } s

/-- Whether the device takes entries of ring n: its partition is ACTIVE, or it is a manager ring (R380, R383); a ring of
class 5 waits until a context is bound to it (R362). -/
def intakeOpen (s : State) (n : Nat) (r : Ring) : Bool :=
  !r.toHost && !r.faulted && (r.part = 255 || (partOf s r.part).state = .active)
    && (r.cls ≠ 5 || s.srv.ctxs.any (fun p => p.2.state ≠ .absent && p.2.subRing = n))

/-- What stands at the head of a host-to-device ring (R42): nothing complete, padding, a fault with its
reason, or a message of type, tag, entries and body. -/
inductive RingHead where
  | wait
  | pad
  | bad (reason : Nat)
  | msg (type tag n : Nat) (body : List Byte)
  deriving DecidableEq, Repr

/-- Gathers the message that begins at index i, entry by entry; `left` entries may still follow in a
chain of 16 and `avail` are covered by the doorbell (R42, R44). -/
def gather (m : Memory) (r : Ring) (i : Nat) : Nat → Nat → Nat → List Byte → RingHead
  | 0, _, _, _ => .bad 2
  | _ + 1, 0, _, _ => .wait
  | left + 1, avail + 1, n, body =>
    let e := memReadBytes m (hdmAt (ringEntry r (i + n))) 64
    let len := field e 2 2
    if 56 < len then .bad 3
    else if n = 0 && field e 0 1 = 0 then .pad
    else
      let body' := body ++ (e.drop 8).take len
      if bit (field e 1 1) 0 then gather m r i left avail (n + 1) body'
      else
        let h := memReadBytes m (hdmAt (ringEntry r i)) 8
        .msg (field h 0 1) (field h 4 4) (n + 1) body'

/-- The head of a ring. -/
def ringHead (s : State) (r : Ring) : RingHead :=
  gather s.mem r r.devIdx 16 (idxSub r.hostIdx r.devIdx) 0 []

/-- The tick at which the doorbell that covers index `last` was latched; else now (R303). -/
def coverTick (s : State) (r : Ring) (last : Nat) : Nat :=
  ((r.covers.find? (fun c => idxSub last r.devIdx < idxSub c.1 r.devIdx)).map (fun c => c.2)).getD
    s.tmb.free

/-- Moves the device's index past n entries and writes it to the index block (R41). -/
def advance (n k : Nat) (s : State) : State :=
  match ringOf s n with
  | none => s
  | some r =>
    let d := (r.devIdx + k) % 4294967296
    hdmWrite (ringIndexBlock r) (leBytes 4 d)
      (updRing n (fun r => { r with devIdx := d, covers := r.covers.filter (fun c =>
        k < idxSub c.1 r.devIdx) }) s)

/-- Looks at the head of a ring once: skips padding (then true), stops the ring on a bad entry (R42, R44). -/
def settleOne (n : Nat) (s : State) : Bool × State :=
  match ringOf s n with
  | none => (false, s)
  | some r =>
    if !intakeOpen s n r then (false, s) else
    match ringHead s r with
    | .pad => (true, advance n 1 s)
    | .bad reason => (false, ringFault n reason 0 s)
    | _ => (false, s)

/-- Looks at the head again while it is padding, as far as `fuel` goes. -/
def settle (n : Nat) : Nat → State → State
  | 0, s => s
  | fuel + 1, s => if (settleOne n s).1 then settle n fuel (settleOne n s).2 else (settleOne n s).2

/-- Entries a ring has waiting. -/
def waitingEntries (s : State) (n : Nat) : Nat :=
  match ringOf s n with
  | none => 0
  | some r => idxSub r.hostIdx r.devIdx

/-- The message at the head of ring n, of the class given, if its intake is open. -/
def headMsg (s : State) (n cls : Nat) : Option (Nat × Nat × Nat × List Byte) :=
  match ringOf s n with
  | none => none
  | some r =>
    if !intakeOpen s n r || r.cls ≠ cls then none else
    match ringHead s r with
    | .msg t tag k body => some (t, tag, k, body)
    | _ => none

/-- Takes the head message off ring n: the index moves on, then the next head settles. -/
def takeHead (n k : Nat) (s : State) : State :=
  let s := advance n k s
  settle n (waitingEntries s n) s

/-- A doorbell write with the new index (R43). A stopped ring takes none (R44). -/
def doorbell (n new : Nat) (s : State) : State :=
  match ringOf s n with
  | none => s
  | some r =>
    if r.faulted || new = r.hostIdx then s else
    let ok := if r.toHost then idxSub new r.hostIdx ≤ idxSub r.devIdx r.hostIdx
              else idxSub new r.devIdx ≤ ringSize r
    if !ok then ringFault n 1 new s else
    let s := updRing n (fun r => { r with hostIdx := new,
                                          covers := if r.toHost then [] else
                                            r.covers ++ [(new, s.tmb.free)] }) s
    if r.toHost then s else settle n (waitingEntries s n) s

/-- Counts a doorbell write to a page or slot that has no ring (R43, R46). -/
def strayDoorbell (s : State) : State :=
  s.setTel { s.tel with liveStray := ctrInc s.tel.liveStray }

/-- Entries a message of `len` body bytes takes. -/
def entriesFor (len : Nat) : Nat := max 1 ((len + 55) / 56)

/-- Whether a device-to-host ring has room for k entries (R43). -/
def ringRoom (s : State) (n k : Nat) : Bool :=
  match ringOf s n with
  | none => false
  | some r => r.toHost && !r.faulted && idxSub r.devIdx r.hostIdx + k ≤ ringSize r

/-- Raises a ring's completion vector on the function that created it (R40). -/
def ringVector (r : Ring) (s : State) : State :=
  if r.vector = 255 then s
  else if r.fnVf then emit (.vectorVf r.part r.vector) s else emit (.vectorPf r.vector) s

/-- Writes the entries of one message from index i on: 56 body bytes each, chained (R42). -/
def writeEntries (r : Ring) (type tag : Nat) : Nat → Nat → List Byte → State → State
  | 0, _, _, s => s
  | k + 1, i, body, s =>
    let chunk := body.take 56
    let e := leBytes 1 type ++ leBytes 1 (b2n (k ≠ 0)) ++ leBytes 2 chunk.length ++ leBytes 4 tag
      ++ chunk ++ List.replicate (56 - chunk.length) 0
    writeEntries r type tag k (i + 1) (body.drop 56) (hdmWrite (ringEntry r i) e s)

/-- Puts a message on a device-to-host ring with room: the entries, then the index block, then the
vector (R41, R45). -/
def ringPut (n type tag : Nat) (body : List Byte) (s : State) : State :=
  match ringOf s n with
  | none => s
  | some r =>
    let k := entriesFor body.length
    let s := writeEntries r type tag k r.devIdx body s
    let d := (r.devIdx + k) % 4294967296
    ringVector r (hdmWrite (ringIndexBlock r) (leBytes 4 d) (updRing n (fun r => { r with devIdx := d }) s))

end Sys2Proof.Machine
end

