-- ==== Sys2Proof/Machine/HostAttach.lean ====
section
/-!
DEFINITION. The meanings of the commands of chapter 01 but CANCEL (Machine/Cancel.lean): link, mailbox
hardware, register writes, class 0x01, doorbells and the telemetry mirror.
-/
namespace Sys2Proof.Machine

/-! ### Link (R18) -/

/-- The radio capacity of a trained link (R18). -/
def linkCu (g : Grade) (lanes rate : Nat) : Nat := gradeCu g * lanes * rate / 1024

/-- A link training ends: lanes, rate and radio_cu_max; LINK_CHANGE when the value changes (R18, R38). -/
def linkTraining (lanes rate : Nat) (s : State) : State :=
  let cu := linkCu s.grade lanes rate
  let old := s.dev.radioCuMax
  let s := s.setDev { s.dev with lanes := lanes, rate := rate, radioCuMax := cu }
  if cu = old then s
  else post { code := 0x0103, detail := leBytes 1 lanes ++ leBytes 1 rate ++ leBytes 2 cu } s

def execLinkTraining (lanes rate : Nat) (s : State) : Host.Outcome State Fault Refusal :=
  run ((lanes = 4 || lanes = 8 || lanes = 16) && (rate = 16 || rate = 32 || rate = 64)) "link"
    (linkTraining lanes rate s)

/-! ### Mailbox hardware (R24, R27, R28, R31) -/

/-- Whether a mailbox can be reached: a VF's only while its partition exists (R19). -/
def mbxUsable (s : State) (m : Nat) : Bool := !isVf m || (partOf s (m - 16)).state != .absent

/-- The command in the command area: header and payload (R25). -/
def areaCmd (a : Memory) : Cmd :=
  let h := memReadBytes a 0 16
  let len := field h 8 2
  { opcode := field h 0 2, tag := field h 4 4, len := len, target := field h 10 1,
    payload := memReadBytes a 16 (min len 1968) }

/-- Go in IDLE or DONE: the command is copied and counted; it is dropped at once by an abort in the same
write, completed with NOT_READY while dawn_done is 0, else SUBMITTED (R23, R27, R28, R31). -/
def goCopy (m : Nat) (abort : Bool) (s : State) : State :=
  let b := mbxOf s m
  let c := areaCmd b.area
  let b := { b with cmd := c, seq := (b.seq + 1) % 4294967296, goTick := s.tmb.free }
  if abort then complete m c (reply .aborted) (setMbx m b s)
  else if !s.dev.dawnDone then complete m c (reply .notReady) (setMbx m b s)
  else setMbx m { b with phase := .submitted } s

/-- Abort in SUBMITTED drops the command with ABORTED; elsewhere it has no effect (R28). -/
def abortCmd (m : Nat) (s : State) : State :=
  if (mbxOf s m).phase = .submitted then complete m (mbxOf s m).cmd (reply .aborted) s else s

/-- A write of MBX_CTRL (R24, R28): irq_en and event_ring, then ack, then go, then abort. -/
def ctrlWrite (m : Nat) (go abort ack irqEn : Bool) (ring : Nat) (s : State) : State :=
  if !mbxUsable s m then s else
  let b := { mbxOf s m with irqEn := irqEn, evRing := ring }
  let b := if ack && b.phase = .done then { b with phase := .idle } else b
  let s := setMbx m b s
  if go then
    if b.phase = .idle || b.phase = .done then goCopy m abort s
    else
      let s := setMbx m { b with goIgnored := true } s
      if abort then abortCmd m s else s
  else if abort then abortCmd m s else s

def execMbxGo (m : Nat) (abort ack irqEn : Bool) (ring : Nat) (s : State) :
    Host.Outcome State Fault Refusal :=
  run (m < 80 && ring < 16) "mailbox" (ctrlWrite m true abort ack irqEn ring s)

def execMbxAbort (m : Nat) (ack irqEn : Bool) (ring : Nat) (s : State) :
    Host.Outcome State Fault Refusal :=
  run (m < 80 && ring < 16) "mailbox" (ctrlWrite m false true ack irqEn ring s)

def execMbxAck (m : Nat) (irqEn : Bool) (ring : Nat) (s : State) : Host.Outcome State Fault Refusal :=
  run (m < 80 && ring < 16) "mailbox" (ctrlWrite m false false true irqEn ring s)

/-- Whether another mailbox holds an earlier command of the same target that has not ended. Of two go writes in one clock
that of the lower mailbox is the earlier; the PF's mailboxes have the lower numbers (R29). -/
def earlierWaits (m : Nat) (s : State) : Bool :=
  let b := mbxOf s m
  s.mbx.any (fun p => p.1 != m && (p.2.phase == .submitted || p.2.phase == .running)
    && (p.2.goTick < b.goTick || (p.2.goTick = b.goTick && p.1 < m)) && targetOf p.1 p.2.cmd == targetOf m b.cmd)

/-- The firmware takes the command of a SUBMITTED mailbox in the order of R29: RUNNING. An undefined
opcode has no meaning of its own and is completed here with the check of R539 that fails. The command is read from memory held
in two copies (R466). -/
def commandTaken (m : Nat) (errs : List (CtlMem × Nat)) (s : State) : State :=
  let b := mbxOf s m
  if b.phase ≠ .submitted || b.taken.isSome || earlierWaits m s then s else
  let (ok, s) := ctlRead [(.imilo, m)] errs s
  if !ok then s else
  if (opcodeRow b.cmd.opcode).isNone then
    complete m b.cmd ((generalCheck m b.cmd s).getD (reply .badOpcode)) s
  else setMbx m { b with phase := .running, taken := some b.cmd } s

def execCommandTaken (m : Nat) (errs : List (CtlMem × Nat)) (s : State) : Host.Outcome State Fault Refusal :=
  run (m < 80) "mailbox" (commandTaken m errs s)

/-- 50 ms in Tc (R31). -/
def mbxTimeoutTicks : Nat := 98304000

/-- The mailbox hardware completes a command that is not DONE 50 ms after go (R31): the fault record
first, then MBX_TIMEOUT with fw_timeout; what the firmware still answers is discarded. -/
def mbxTimeout (m : Nat) (s : State) : State :=
  let b := mbxOf s m
  if !(b.phase = .submitted || b.phase = .running) || s.tmb.free < b.goTick + mbxTimeoutTicks then s
  else
    let s := fault { code := 0xA, status := some .mbxTimeout, part := targetOf m b.cmd } s
    let s := setMbx m { mbxOf s m with fwTimeout := true,
                                       discard := (mbxOf s m).taken.isSome } s
    complete m b.cmd (reply .mbxTimeout) s

def execMbxTimeout (m : Nat) (s : State) : Host.Outcome State Fault Refusal :=
  run (m < 80) "mailbox" (mbxTimeout m s)

/-! ### Class 0x01 (R34) -/

def nopBody (_ : Req) (s : State) : State × Reply := (s, reply .success)

def execNop (m : Nat) (s : State) : Host.Outcome State Fault Refusal :=
  run (m < 80) "mailbox" (runCommand 0x0100 m nopBody s)

/-- EVENT_RING_CONFIG (R34). -/
def eventRingConfigBody (q : Req) (s : State) : State × Reply :=
  let n := pl q 0 1
  let mask := pl q 2 2
  if 15 < n || 1 < pl q 1 1 || mask % 2 = 1 || 512 ≤ mask then failed .badField s
  else (setEvRing n { evRing s n with enable := pl q 1 1 = 1, mask := mask } s, reply .success)

def execEventRingConfig (m : Nat) (s : State) : Host.Outcome State Fault Refusal :=
  run (m < 80) "mailbox" (runCommand 0x0101 m eventRingConfigBody s)

/-- QUERY_OPERATION (R30, R34): state, final status, result; retire = 1 frees a finished handle. -/
def queryOperationBody (q : Req) (s : State) : State × Reply :=
  let h := pl q 0 2
  let retire := pl q 2 1
  match opOf s h with
  | none => failed .badField s
  | some o =>
    if !opVisible q.m o || 1 < retire then failed .badField s
    else if !o.finished then
      (s, { payload := leBytes 2 0 ++ leBytes 2 (statusCode .inProgress) })
    else
      let s' := if retire = 1 then s.setOps (tabDel s.ops h) else s
      (s', { payload := leBytes 2 1 ++ leBytes 2 (statusCode o.status) ++ o.result })

def execQueryOperation (m : Nat) (s : State) : Host.Outcome State Fault Refusal :=
  run (m < 80) "mailbox" (runCommand 0x0103 m queryOperationBody s)

/-- Whether a completion vector lies in the range of the requesting function (R40). -/
def vectorOk (m v : Nat) : Bool :=
  v = 255 || (if isVf m then 2 ≤ v && v ≤ 7 else v ≤ 15)

/-- Rings a partition holds. -/
def ringsHeld (s : State) (p : Nat) : Nat := (s.rings.filter (fun r => r.2.part == p)).length

/-- RING_CREATE (R34, R40): the field checks, then for a manager ring its class and area, for a
partition's ring its share and quota, then the device's 4 096. Number and slot are free choices. -/
def ringCreateBody (q : Req) (s : State) : State × Reply :=
  let base := pl q 0 8
  let log2 := pl q 8 1
  let dir := pl q 9 1
  let cls := pl q 10 1
  let vec := pl q 11 1
  let len := (2 ^ log2 + 1) * 64
  let manager : Bool := q.target = 0xFF
  if base % 64 ≠ 0 || log2 < 4 || 16 < log2 || 1 < dir || !(cls = 4 || cls = 5)
      || !vectorOk q.m vec || (manager && cls ≠ 4) then failed .badField s
  else if !inTarget s q.target base len then failed .badAddress s
  else if !manager && (partOf s q.target).maxRings ≤ ringsHeld s q.target then failed .quota s
  else
    match pickFree 4096 (fun n => tabHas s.rings n) s with
    | (none, _) => failed .noResource s
    | (some n, s1) =>
      let taken := fun k => s.rings.any (fun r => r.2.part == q.target && r.2.slot == k)
      let (slot, s2) := if manager then (255, s1) else
        match pickFree 64 taken s1 with
        | (some k, s2) => (k, s2)
        | (none, s2) => (255, s2)
      let r : Ring := { base := base, log2 := log2, toHost := dir = 1, cls := cls, vector := vec,
                        part := q.target, slot := slot, fnVf := isVf q.m }
      ((s2.setRings (tabPut s2.rings n r)),
       { payload := leBytes 2 n ++ leBytes 1 slot })

def execRingCreate (m : Nat) (s : State) : Host.Outcome State Fault Refusal :=
  run (m < 80) "mailbox" (runCommand 0x0104 m ringCreateBody s)

/-- RING_DESTROY (R34): only a ring of the target. -/
def ringDestroyBody (q : Req) (s : State) : State × Reply :=
  match ringOf s (pl q 0 2) with
  | none => failed .badField s
  | some r =>
    if r.part ≠ q.target then failed .badField s
    else ((s.setRings (tabDel s.rings (pl q 0 2))), reply .success)

def execRingDestroy (m : Nat) (s : State) : Host.Outcome State Fault Refusal :=
  run (m < 80) "mailbox" (runCommand 0x0105 m ringDestroyBody s)

/-- TELEMETRY_CLEAR waits for the next snapshot, which completes it (R48). -/
def telemetryClear (m : Nat) (s : State) : State :=
  match (mbxOf s m).taken with
  | none => s
  | some c =>
    if c.opcode ≠ 0x0106 then s else
    match generalCheck m c s with
    | some r => respond m c r s
    | none =>
      if s.tel.clearPending.contains m then s
      else s.setTel { s.tel with clearPending := s.tel.clearPending ++ [m] }

def execTelemetryClear (m : Nat) (s : State) : Host.Outcome State Fault Refusal :=
  run (m < 80) "mailbox" (telemetryClear m s)

/-! ### Event rings (R39), doorbells (R43), telemetry (R46 to R48) -/

/-- A write of cons of event ring n (R39); results whose OPERATION_DONE entry it passes retire (R30). -/
def eventCons (n new : Nat) (s : State) : State :=
  let r := evRing s n
  if idxSub r.prod r.cons < idxSub r.prod new then setEvRing n { r with badCons := true } s
  else
    let passed := fun (p : Nat × LongOp) => match p.2.posted with
      | some (k, i) => p.2.finished && k == n && idxSub i r.cons < idxSub new r.cons
      | none => false
    setEvRing n { r with cons := new } (s.setOps (s.ops.filter (fun p => !passed p)))

def execEventRingConsWrite (ring value : Nat) (s : State) : Host.Outcome State Fault Refusal :=
  run (ring < 16 && value < 4294967296) "event ring" (eventCons ring value s)

/-- The ring behind a VF doorbell slot. -/
def slotRing (s : State) (part slot : Nat) : Option Nat :=
  (s.rings.find? (fun r => r.2.part == part && r.2.slot == slot)).map (fun r => r.1)

/-- A doorbell write (R43): a page or slot with no ring is counted; a VF's doorbells are ignored while
its partition does not exist (R19) or is RESETTING or REMOVING (R380). -/
def doorbellWrite (d : Doorbell) (value : Nat) (s : State) : State :=
  match d with
  | .pf n => if (ringOf s n).isSome then doorbell n value s else strayDoorbell s
  | .vf p k =>
    let st := (partOf s p).state
    if st = .absent || st = .resetting || st = .removing then s else
    match slotRing s p k with
    | some n => doorbell n value s
    | none => strayDoorbell s

/-- Whether a doorbell exists in its window (R20). -/
def doorbellOk : Doorbell → Bool
  | .pf n => n < 4096
  | .vf p k => p < 64 && k < 64

def execDoorbellWrite (d : Doorbell) (value : Nat) (s : State) : Host.Outcome State Fault Refusal :=
  run (doorbellOk d && value < 4294967296) "doorbell" (doorbellWrite d value s)

/-- A snapshot of the telemetry mirror (R46, R47); a pending TELEMETRY_CLEAR acts at it and then
completes (R48). The generation is odd only inside the step. -/
def telemetrySnapshot (s : State) : State :=
  let t := s.tmb.free
  let clear := !s.tel.clearPending.isEmpty
  let live := if clear then [] else s.tel.liveLend
  let waiting := s.tel.clearPending
  let s := s.setTel { s.tel with
    gen := (s.tel.gen + 2) % 2 ^ 64, tick := t, liveLend := live,
    clearTick := if clear then t else s.tel.clearTick,
    lend := live, stray := s.tel.liveStray, clearPending := [] }
  waiting.foldl (fun s m => match (mbxOf s m).taken with
    | some c => if c.opcode = 0x0106 then respond m c (reply .success) s else s
    | none => s) s

def execTelemetrySnapshot (s : State) : Host.Outcome State Fault Refusal :=
  run true "" (telemetrySnapshot s)

/-! ### Register writes (R15, R20, R21) -/

/-- A write at offset `o` of a mailbox page: MBX_CTRL, MBX_STATE (W1C) or the command area (R23, R24). -/
def mailboxPageWrite (m o size v : Nat) (s : State) : State :=
  if !mbxUsable s m then s
  else if o = 0 && size = 4 then
    ctrlWrite m (bit v 0) (bit v 1) (bit v 2) (bit v 3) (bits v 7 4) s
  else if o = 4 && size = 4 then
    let b := mbxOf s m
    setMbx m { b with goIgnored := b.goIgnored && !bit v 3, fwTimeout := b.fwTimeout && !bit v 4 } s
  else if 0x80 ≤ o && o < 0x840 && size = 4 && o % 4 = 0 then
    setMbx m { mbxOf s m with area := memWriteBytes (mbxOf s m).area (o - 0x80) (leBytes 4 v) } s
  else s

/-- A write to the controls of event ring n (R37). A register takes aligned 32-bit writes (R21), so drops_sat, bit 63 of a
64-bit register, clears by the write of its high half (assumption 39). -/
def eventCtlWrite (n o size v : Nat) (s : State) : State :=
  let r := evRing s n
  if o = 0 && size = 4 then
    setEvRing n { r with overflow := r.overflow && !bit v 1, badCons := r.badCons && !bit v 2 } s
  else if o = 8 && size = 4 then eventCons n v s
  else if o = 0x14 && size = 4 && bit v 31 then setEvRing n { r with drops := { r.drops with sat := false } } s
  else s

/-- A write of cons of a fault log of `n` records, by the rule of R39 (R455). -/
def logCons (new : Nat) (l : FaultLog) : FaultLog :=
  if idxSub l.prod l.cons < idxSub l.prod new then l else { l with cons := new }

/-- Clears a counter's sticky flag. -/
def clearSat (c : Ctr) : Ctr := { c with sat := false }

/-- A write to the control block of the fault log (R455); a sticky flag clears by the write of its register's high half
(assumption 39). -/
def faultCtlWrite (o size v : Nat) (s : State) : State :=
  let h := s.hlt
  let base := o - 4
  let hit := size = 4 && o % 8 = 4 && bit v 31
  if o = 8 && size = 4 then s.setHlt { h with log := logCons v h.log }
  else if !hit then s
  else if base = 0x10 then
    s.setHlt { h with log := { h.log with overwritten := clearSat h.log.overwritten } }
  else if base = 0x38 then s.setHlt { h with corrected := clearSat h.corrected }
  else if base = 0x40 then s.setHlt { h with uncorrectable := clearSat h.uncorrectable }
  else if base = 0x48 then s.setHlt { h with hangs := clearSat h.hangs }
  else if base = 0x50 then s.setHlt { h with contextResets := clearSat h.contextResets }
  else if base = 0x58 then s.setHlt { h with gridResets := clearSat h.gridResets }
  else if base = 0x60 then s.setHlt { h with expulsions := clearSat h.expulsions }
  else s

/-- A write to partition p's fault record page (R455). -/
def vfFaultWrite (p o size v : Nat) (s : State) : State :=
  let upd := fun f => s.setHlt { s.hlt with vf := tabUpd s.hlt.vf p {} f }
  if o = 8 && size = 4 then upd (logCons v)
  else if o = 0x14 && size = 4 && bit v 31 then
    upd (fun l => { l with overwritten := clearSat l.overwritten })
  else s

/-- A register write by the host, by window, offset and size (R20, R21): a write of another size or
alignment, or to a read-only or reserved place, is ignored. A doorbell is the first register of its page or slot; the rest of
the page or slot holds none (assumption 147). -/
def registerWrite (w : RegWindow) (o size v : Nat) (s : State) : State :=
  match w with
  | .pfBar0 =>
    if 0x100000 ≤ o && o < 0x110000 then
      mailboxPageWrite ((o - 0x100000) / 0x1000) (o % 0x1000) size v s
    else if 0x380000 ≤ o && o < 0x380400 then
      eventCtlWrite ((o - 0x380000) / 0x40) (o % 0x40) size v s
    else if 0x480000 ≤ o && o < 0x480068 then faultCtlWrite (o - 0x480000) size v s
    else s
  | .pfBar2 =>
    if o % 0x1000 = 0 && size = 4 && o < 0x1000000 then doorbellWrite (.pf (o / 0x1000)) v s else s
  | .vfBar0 p =>
    if (partOf s p).state = .absent then s
    else if o < 0x1000 then mailboxPageWrite (16 + p) o size v s
    else if o < 0x2000 then
      if o % 0x40 = 0 && size = 4 then doorbellWrite (.vf p ((o - 0x1000) / 0x40)) v s else s
    else if o < 0x3000 then vfFaultWrite p (o - 0x2000) size v s
    else s

/-- Whether a write's operands exist: the window, and a value of its size. -/
def registerWriteOk (w : RegWindow) (size v : Nat) : Bool :=
  (match w with | .vfBar0 p => decide (p < 64) | _ => true)
    && (size = 1 || size = 2 || size = 4 || size = 8) && v < 2 ^ (8 * size)

def execRegisterWrite (w : RegWindow) (offset size value : Nat) (s : State) :
    Host.Outcome State Fault Refusal :=
  run (registerWriteOk w size value) "register write" (registerWrite w offset size value s)

/-- A write of cons of the fault log, or of a VF's page (R455). -/
def faultLogCons (part : Option Nat) (value : Nat) (s : State) : State :=
  match part with
  | none => s.setHlt { s.hlt with log := logCons value s.hlt.log }
  | some p => if (partOf s p).state = .absent then s
    else s.setHlt { s.hlt with vf := tabUpd s.hlt.vf p {} (logCons value) }

def execFaultLogConsWrite (part : Option Nat) (value : Nat) (s : State) :
    Host.Outcome State Fault Refusal :=
  run ((part.getD 0) < 64 && value < 4294967296) "fault log" (faultLogCons part value s)

end Sys2Proof.Machine
end

