-- ==== Sys2Proof/Machine/GridOps.lean ====
section
/-!
DEFINITION. The shared operations of the compute grid (chapter 03): units, share tables and their check,
scoreboard entries, unit sets.
-/
namespace Sys2Proof.Machine

/-! ### Unit identifiers (R83) -/

def isQuad (u : Nat) : Bool := u < 0x10
def isTile (u : Nat) : Bool := 0x40 ≤ u && u < 0x80
def isCoding (u : Nat) : Bool := 0x80 ≤ u && u < 0xDC
def isMover (u : Nat) : Bool := 0xE0 ≤ u && u < 0xF0
def isEndpoint (u : Nat) : Bool := 0xF0 ≤ u && u < 0xF4

/-- The kind of a unit: 0 quadrant, 1 tile, 2 mover, 3 endpoint, 4 coding engine, 5 none. -/
def unitKind (u : Nat) : Nat :=
  if isQuad u then 0 else if isTile u then 1 else if isMover u then 2
  else if isEndpoint u then 3 else if isCoding u then 4 else 5

/-- The array region of a quadrant, tile or mover (R82). -/
def unitRegion (u : Nat) : Nat :=
  if isQuad u then u / 4 else if isTile u then (u - 0x40) / 16 else (u - 0xE0) / 4

/-- Scoreboard entries a unit has (R107). -/
def sbCount (u : Nat) : Nat :=
  if isQuad u || isTile u then 64 else if isMover u then 32 else if isEndpoint u then 256
  else if isCoding u then 4 else 0

/-- The runtime side of a unit. -/
def unitRun (s : State) (u : Nat) : UnitRun := tabGet s.grd.units u {}

def updGrd (f : Grid → Grid) (s : State) : State := s.setGrd (f s.grd)

/-- Changes the runtime side of a unit. -/
def updUnit (u : Nat) (f : UnitRun → UnitRun) (s : State) : State :=
  updGrd (fun g => { g with units := tabUpd g.units u {} f }) s

/-- Changes several units. -/
def updUnits (us : List Nat) (f : UnitRun → UnitRun) (s : State) : State :=
  us.foldl (fun s u => updUnit u f s) s

/-- A unit moved its progress counter: the tick of its last move (R457). -/
def progress (u : Nat) (s : State) : State :=
  let v := (tabGet s.hlt.progress u (0, 0)).1
  s.setHlt { s.hlt with progress := tabPut s.hlt.progress u (v + 1, s.tmb.free) }

/-! ### Shares (R98, R99) -/

/-- The share table and granule of the store a place lies in; none where no share governs it. -/
def placeTable : Place → Option (Nat × Nat)
  | .array n => some (n, 262144)
  | .tile t => some (0x40 + t, 16384)
  | .coding => some (0x80, 65536)
  | _ => none

/-- The sequencer and queue memory: its size and granule (R95). -/
def seqSize : Nat := 8 * 2 ^ 20
def seqGranule : Nat := 1024

/-- The bytes of DRAM behind device addresses: bits [38:37] name a stack, and the T72 has no stack 3 (R3, R96). -/
def dramSize (g : Grade) : Nat := gradeArrays g * 2 ^ 37

/-- The radio reservation of a stack in granules of 2 MB, at its top (R268). -/
def radioGranules (g : Grade) (p : Nat) : Nat :=
  match g with
  | .t96 => 2048
  | .t72 => if p = 0 then 3072 else 2560

/-- Whether [a, a + n) of DRAM lies in the radio reservation of one stack (R268). -/
def inRadio (g : Grade) (a n : Nat) : Bool :=
  (2 ^ 37 - radioGranules g (a / 2 ^ 37) * 2097152 ≤ a % 2 ^ 37) && a % 2 ^ 37 + n ≤ 2 ^ 37

/-- The regions of the reservation in MB: frame buffer, HARQ soft buffers, learned-receiver weights, channel-state store, sequence
and constant tables, control and twin state, firmware reserve (R268). -/
def radioRegions : List Nat := [3072, 7168, 2048, 2048, 512, 512, 1024]

/-- The part of a region that a stack holds: its share of the reservation's 16 GB, in bytes (assumption 160). -/
def radioPart (g : Grade) (p r : Nat) : Nat := radioRegions.getD r 0 * radioGranules g p / 8192 * 2 ^ 20

/-- The device address at which a stack's part of a region begins: the parts stand in the order of R268 from the reservation's
start (assumption 160). -/
def radioBase (g : Grade) (p r : Nat) : Nat :=
  p * 2 ^ 37 + 2 ^ 37 - radioGranules g p * 2097152 + ((List.range r).map (radioPart g p)).sum

/-- The size of the store a place lies in. -/
def placeSize (g : Grade) : Place → Nat
  | .array _ => 48 * 2 ^ 20
  | .tile _ => 2 ^ 20
  | .coding => 24 * 2 ^ 20
  | .dram => dramSize g
  | .hdm => 2 ^ 36
  | .capture => 2 ^ 37
  | .staging => 2 ^ 37
  | .region _ _ _ => 2 ^ 40

/-- The share of an owner in a table: first granule and count; (0, 0) is no share. -/
def shareOf (s : State) (tbl owner : Nat) : Nat × Nat := tabGet s.grd.shares (tbl * 512 + owner) (0, 0)

/-- Writes the share of an owner; a count of 0 removes it. -/
def setShare (tbl owner first count : Nat) (s : State) : State :=
  let k := tbl * 512 + owner
  updGrd (fun g => { g with shares := if count = 0 then tabDel g.shares k
                                      else tabPut g.shares k (first, count) }) s

/-- Empties the program windows of an owner. -/
def freeWindows (owner : Nat) (s : State) : State :=
  updGrd (fun g => { g with windows := g.windows.filter (fun p => p.1 % 512 != owner) }) s

/-- Removes every share of an owner, with what its windows hold. -/
def freeShares (owner : Nat) (s : State) : State :=
  freeWindows owner (updGrd (fun g => { g with shares := g.shares.filter (fun p => p.1 % 512 != owner) }) s)

/-- Whether an owner's share of a table holds [a, a + n), granules of `gran` bytes (R99). -/
def inShareTable (s : State) (tbl gran owner a n : Nat) : Bool :=
  let (first, count) := shareOf s tbl owner
  count ≠ 0 && first * gran ≤ a && a + n ≤ (first + count) * gran

/-- The first free range of `count` granules of a table that has `total` of them (R98). -/
def freeRange (s : State) (tbl total count : Nat) : Option Nat :=
  let used := (s.grd.shares.filter (fun p => p.1 / 512 == tbl)).map (fun p => p.2)
  let starts := 0 :: used.map (fun r => r.1 + r.2)
  (starts.filter (fun b => b + count ≤ total
      && used.all (fun r => b + count ≤ r.1 || r.1 + r.2 ≤ b))).min?

/-! ### Scoreboards (R107, R108) -/

def sbKey (u e : Nat) : Nat := u * 256 + e

/-- A scoreboard entry. -/
def sbOf (s : State) (u e : Nat) : SbEntry := tabGet s.grd.sb (sbKey u e) {}

/-- Changes a scoreboard entry. -/
def updSb (u e : Nat) (f : SbEntry → SbEntry) (s : State) : State :=
  updGrd (fun g => { g with sb := tabUpd g.sb (sbKey u e) {} f }) s

/-- Slots occupied, and slots occupied as the producer sees it by its shadow (R108). -/
def sbOcc (e : SbEntry) : Nat := (e.produced + 65536 - e.consumed) % 65536
def sbOccShadow (e : SbEntry) : Nat := (e.produced + 65536 - e.shadow) % 65536

/-- What a post by a unit says of the stage it runs. -/
def postSource (s : State) (poster : Nat) : PostRec :=
  match (unitRun s poster).holder with
  | .radio k n p => { table := k, slot := n, tick := s.tmb.free,
                      cell := ((s.tts.resv.find? (fun r => r.table = k && r.slot = n && r.pos = p)).map (fun r => r.entry.cell)).getD 0 }
  | _ => { tick := s.tmb.free }

/-- POST: the length of the slot, then produced (R108). -/
def sbProduce (u e len : Nat) (src : PostRec) (s : State) : State :=
  updSb u e (fun b => { b with lens := tabPut b.lens (b.produced % b.slots) len,
                               posts := tabPut b.posts (b.produced % b.slots) src,
                               produced := (b.produced + 1) % 65536 }) s

/-- RELEASE: consumed moves at once, the shadow only with the return flit (R108). -/
def sbRelease (u e : Nat) (s : State) : State :=
  updSb u e (fun b => { b with consumed := (b.consumed + 1) % 65536 }) s

/-- The return flit of a RELEASE arrives (R108). -/
def sbReturn (u e : Nat) (s : State) : State :=
  updSb u e (fun b => if b.shadow = b.consumed then b else { b with shadow := (b.shadow + 1) % 65536 }) s

/-- The scoreboard side of the instruction stream of a unit: of a slice on a tile (R145). -/
def sideOf (s : State) (u sl : Nat) : SbSide :=
  if isTile u then (tabGet (tabGet s.tiles (u - 0x40) {}).slices sl {}).side else (unitRun s u).side

/-- Changes the scoreboard side of a stream. -/
def updSide (u sl : Nat) (f : SbSide → SbSide) (s : State) : State :=
  if isTile u then
    s.setTiles (tabUpd s.tiles (u - 0x40) {} (fun x => { x with slices := tabUpd x.slices sl {} (fun y => { y with side := f y.side }) }))
  else updUnit u (fun r => { r with side := f r.side }) s

/-- The store offset of slot k of an entry. -/
def sbSlotAddr (b : SbEntry) (k : Nat) : Nat := b.base + k * b.slotSize * 64

/-- The store of a consuming unit, for its buffers and its programs. -/
def unitStore (u : Nat) : Place :=
  if isQuad u then .array (u / 4) else if isTile u then .tile (u - 0x40)
  else if isCoding u then .coding else if isMover u then .array ((u - 0xE0) / 4) else .dram

/-- The entries of an owner on some units, with their produced and consumed (R111). -/
def sbSnapshot (s : State) (owner : Nat) (us : List Nat) : List (Nat × Nat × Nat) :=
  (s.grd.sb.filter (fun p => p.2.owner == owner && us.contains (p.1 / 256))).map
    (fun p => (p.1, p.2.produced, p.2.consumed))

/-- Restores what a snapshot recorded (R111); the producer's shadow follows the restored consumed (assumption 150). -/
def sbRestore (snap : List (Nat × Nat × Nat)) (s : State) : State :=
  let back := fun (t : Tab SbEntry) (r : Nat × Nat × Nat) =>
    tabMod t r.1 (fun b => { b with produced := r.2.1, consumed := r.2.2, shadow := r.2.2 })
  updGrd (fun g => { g with sb := snap.foldl back g.sb }) s

/-- Sets the entries of an owner to produced = consumed = 0 (R459 step 5). -/
def sbClearOwner (owner : Nat) (s : State) : State :=
  let zero := fun (p : Nat × SbEntry) => if p.2.owner = owner then
    (p.1, { p.2 with produced := 0, consumed := 0, shadow := 0, lens := [], posts := [] }) else p
  updGrd (fun g => { g with sb := g.sb.map zero }) s

/-- Frees the entries of an owner. -/
def sbFreeOwner (owner : Nat) (s : State) : State :=
  updGrd (fun g => { g with sb := g.sb.filter (fun p => p.2.owner != owner) }) s

/-! ### Uncorrectable words (R465) -/

/-- Whether a read of [a, a + n) of the one memory meets an uncorrectable word. -/
def meetsBad (s : State) (a n : Nat) : Bool := s.hlt.bad.any (fun b => a / 8 ≤ b / 8 && b / 8 ≤ (a + n - 1) / 8 && n ≠ 0)

/-- Writes bytes and makes the words they rewrite readable again (R465). -/
def storeBytes (a : Nat) (bs : List Byte) (s : State) : State :=
  let s := s.setMem (memWriteBytes s.mem a bs)
  s.setHlt { s.hlt with bad := s.hlt.bad.filter (fun b => b / 8 * 8 < a || a + bs.length < b / 8 * 8 + 8) }

end Sys2Proof.Machine
end

