-- ==== Sys2Proof/Machine/Programs.lean ====
section
/-!
DEFINITION. The programs of units (chapters 03 to 06): what operands an instruction may carry, issue costs, and the checks of a
program at load.
-/
namespace Sys2Proof.Machine

/-! ### Formats and operands (R87, R88, R123, R130, R141) -/

/-- Formats an operand of a matrix descriptor may have: floating, integer, complex (R88). -/
def opClass : Fmt → Nat
  | .b16 => 1 | .h16 => 1 | .f32 => 1 | .e4m3 => 1 | .e5m2 => 1 | .e3m2 => 1 | .e2m3 => 1 | .e2m1 => 1
  | .i8 => 2 | .i4 => 2 | .t5p => 2 | .q15 => 2
  | .c16 => 3 | .c8 => 3
  | _ => 0

/-- Whether a format is complex. -/
def isComplex (f : Fmt) : Bool := opClass f = 3

/-- Formats accepted only with a scale array, and with one at all (R123). -/
def mxOnly : Fmt → Bool | .e3m2 => true | .e2m3 => true | .e2m1 => true | _ => false
def mxMay : Fmt → Bool | .e4m3 => true | .e5m2 => true | .i8 => true | f => mxOnly f

/-- Formats stochastic rounding may give (R130), and the MX element formats. -/
def srMay : Fmt → Bool | .b16 => true | .i4 => true | f => mxMay f
def rndOk (f : Fmt) : Rounding → Bool | .rne => true | .sr _ _ => srMay f
def cvtOk (src dst : Fmt) : Bool := dst ≠ .e8m0 && isComplex src = isComplex dst
def fpFmt : Fmt → Bool | .f32 => true | .b16 => true | .h16 => true | _ => false

/-- Formats VMIN and VMAX take: floating and integer, but no complex, packed or scale format. -/
def minMaxOk (f : Fmt) : Bool := !isComplex f && f ≠ .t5p && f ≠ .e8m0

/-- The combinations a load admits (R88, R90, R123): any other never comes to a quadrant. -/
def matOk (d : MatDesc) : Bool :=
  isQuad d.quad && d.m ≤ 65535 && d.k ≤ 65535 && d.n ≤ 65535 && d.rep ≤ 255
    && opClass d.fa ≠ 0 && opClass d.fa = opClass d.fb && d.fa ≠ .t5p
    && (!mxOnly d.fa || d.aScale.isSome) && (!mxOnly d.fb || d.bScale.isSome)
    && (d.aScale.isNone || mxMay d.fa) && (d.bScale.isNone || mxMay d.fb)

/-- The fields of a copy descriptor (R94): a length in whole granules of 64 bytes, an entry that exists for its POST. -/
def copyOk (d : CopyDesc) : Bool :=
  isMover d.mover && d.len ≤ 16777216 && d.len % 64 = 0
    && d.post.all (fun p => decide (p.2.1 < sbCount p.1) && decide (p.2.2 < 65536))

def regOk (l : List Nat) : Bool := l.all (· < 32)
def aOk (a : Nat) : Bool := a < 16
def shOk : ShiftSrc → Bool | .imm k => k < 32 | .scalar n => n < 16 | .counter k => k < 4

/-- Well-formed operands of a register instruction. -/
def opOk : TileOp → Bool
  | .vld vd a _ => regOk [vd] && aOk a
  | .vld2 vd a _ => regOk [vd, vd + 1] && aOk a
  | .vst vs a => regOk [vs] && aOk a
  | .mac va vb => regOk [va, vb]
  | .mul vd va vb sh => regOk [vd, va, vb] && shOk sh
  | .add vd va vb => regOk [vd, va, vb]
  | .sub vd va vb => regOk [vd, va, vb]
  | .shift vd va sh => regOk [vd, va] && shOk sh
  | .select vd vp va vb => regOk [vd, vp, va, vb]
  | .cmac va vb => regOk [va, vb]
  | .cmacj va vb => regOk [va, vb]
  | .cmul va vb => regOk [va, vb]
  | .accst f vd sh => regOk [vd] && shOk sh && (f = .q15 || f = .c16 || f = .c8)
  | .bfly r x w k => (r = 2 || r = 4 || r = 8) && regOk [x + r - 1, w + r - 2] && k < 4
  | .vadd f vd va vb => regOk [vd, va, vb] && fpFmt f
  | .vsub f vd va vb => regOk [vd, va, vb] && fpFmt f
  | .vmul f vd va vb => regOk [vd, va, vb] && fpFmt f
  | .vfma f vd va vb vc => regOk [vd, va, vb, vc] && fpFmt f
  | .vmin f vd va vb => regOk [vd, va, vb] && minMaxOk f
  | .vmax f vd va vb => regOk [vd, va, vb] && minMaxOk f
  | .func _ f vd va => regOk [vd, va] && fpFmt f
  | .cvt src dst vd va r => regOk [vd, va] && cvtOk src dst && rndOk dst r
  | .mxq dst vd va sc r => regOk [vd, va, sc] && mxMay dst && rndOk dst r
  | .mxd src dst vd va sc => regOk [vd, va, sc] && mxMay src && (dst = .f32 || dst = .b16)

/-- Whether REP may repeat an instruction: those of R152's table that R159 does not exclude; MXD is not in that table. -/
def repMay : TileOp → Bool
  | .mxd _ _ _ _ _ => false
  | _ => true

/-! ### Issue costs in arithmetic cycles (R152, R183) -/

/-- The issue cost of a register instruction, load or store (R152). MXD has none there and costs 1, as do CVT, VMIN and VMAX in
the formats the table leaves out (assumption 152). -/
def opCost : TileOp → Nat
  | .cmac _ _ => 2 | .cmacj _ _ => 2 | .cmul _ _ => 2
  | .bfly r _ _ _ => if r = 2 then 2 else if r = 4 then 6 else 16
  | .vadd f _ _ _ => if f = .f32 then 2 else 1
  | .vsub f _ _ _ => if f = .f32 then 2 else 1
  | .vmul f _ _ _ => if f = .f32 then 2 else 1
  | .vfma f _ _ _ _ => if f = .f32 then 2 else 1
  | .vmin f _ _ _ => if f = .f32 then 2 else 1
  | .vmax f _ _ _ => if f = .f32 then 2 else 1
  | .func _ _ _ _ => 8
  | .cvt src _ _ _ _ => if src = .f32 then 2 else 1
  | .mxq _ _ _ _ _ => 2
  | _ => 1

/-- The cost of a random or sampling instruction (R183). -/
def rndCost : RndOp → Nat
  | .rdraw => 2 | .runi => 2 | .rnormBm => 24 | .rnormTab => 4
  | .gmax n => 24 + 6 * cdiv n 128
  | .topk n k => 32 + k + (6 + cdiv k 16) * cdiv n 128

/-- The cost of RED_SUM over n elements (R152). -/
def redCost (n : Nat) : Nat := if n = 0 then 1 else cdiv n 128 + 16

/-- The cost of an instruction of a tile program, waits and stalls apart (R152): a REP costs its own cycle and its repeats. -/
def progCost : ProgOp → Nat
  | .tile o => opCost o
  | .rep n o => 1 + n * opCost o
  | .vgath _ _ _ => 16
  | .vscat _ _ _ => 32
  | .redSum _ _ n _ => redCost n
  | .random o => rndCost o
  | .xsend _ _ _ b _ => 1 + cdiv b 256
  | _ => 1

/-! ### Fabric operations (R401, R402) -/

def isAtomic : FabOp → Bool
  | .load => false | .store => false | .get => false | .put => false | .reduceAdd => false | _ => true

/-- Accumulating requests: atomics and REDUCE_ADD. -/
def accumulates (op : FabOp) : Bool := op = .reduceAdd || isAtomic op

/-- Whether an accumulating operation may vary (R401). -/
def mayVary : FabOp → Bool
  | .load => false | .store => false | .get => false | .put => false
  | .add => false | .and => false | .or => false | .xor => false | _ => true

def faddLen : FabOp → Option Nat
  | .faddF32 => some 4 | .faddRF32 => some 4 | .faddB16 => some 2 | .faddRB16 => some 2 | _ => none

/-- Whether a length is one of those listed for an operation. -/
def fabLenOk (op : FabOp) (n : Nat) : Bool :=
  match op with
  | .load => n = 1 || n = 2 || n = 4 || n = 8 || n = 16 || n = 32 || n = 64
  | .store => n = 1 || n = 2 || n = 4 || n = 8 || n = 16 || n = 32 || n = 64
  | .get => 64 ≤ n && n ≤ 4096 && n % 64 = 0
  | .put => 64 ≤ n && n ≤ 4096 && n % 64 = 0
  | .reduceAdd => 64 ≤ n && n ≤ 4096 && n % 64 = 0
  | op => match faddLen op with
    | some l => n = l
    | none => n = 4 || n = 8

/-- Lengths a descriptor may have: those of R401, or 0 for an operation that is no accumulating request (R402). -/
def descLenOk (d : FabDesc) : Bool := fabLenOk d.op d.req.length || (d.req.length = 0 && !accumulates d.op)

/-! ### Streams and loops (R145, R156, R158) -/

/-- The count and end of the LOOP at place j of a stream. -/
def loopAt (l : List ProgOp) (j : Nat) : Option (Nat × Nat) :=
  match l.drop j with
  | .loop n last :: _ => some (n, last)
  | _ => none

/-- The ends of the loops whose body holds position `i` of a stream that begins at `base`. -/
def loopsAround (l : List ProgOp) (base i : Nat) : List Nat :=
  (List.range i).filterMap (fun j => ((loopAt l j).filter (fun r => decide (base + i ≤ r.2))).map (fun r => r.2))

/-- How often the instruction at place i of a stream issues. -/
def issueCount (l : List ProgOp) (base i : Nat) : Nat :=
  (List.range i).foldl (fun w j => ((loopAt l j).filter (fun r => decide (base + i ≤ r.2))).elim w (fun r => w * r.1)) 1

/-- The issue cycles of a stream (R152). -/
def streamCycles (l : List ProgOp) (base : Nat) : Nat :=
  (List.range l.length).foldl (fun t i => t + issueCount l base i * (l[i]?.elim 0 progCost)) 0

/-- Loops nest at most four deep, an end after its LOOP, in the stream and in every enclosing loop (R156, R158). -/
def loopsOk (l : List ProgOp) (base : Nat) : Bool :=
  (List.range l.length).all (fun j => (loopAt l j).all (fun r => r.1 ≤ 65535 && base + j < r.2 && r.2 < base + l.length
    && (loopsAround l base j).length < 4 && (loopsAround l base j).all (fun e => r.2 ≤ e)))

/-! ### Checks of a program at load (R88 to R94, R123, R131, R145 to R168, R183, R402) -/

/-- The neighbour of a tile in a direction, both numbered 0 to 15 in a region, without wrap (R165). -/
def tileStep (i : Nat) (dir : Int) : Option Nat :=
  let j := (i : Int) + dir
  if (dir = 1 || dir = -1 || dir = 4 || dir = -4) && 0 ≤ j && j < 16 then some j.toNat else none

/-- Whether an XSEND of logical tile u names a tile, a length and an entry that u may post (R165). -/
def xsendOk (p : Placement) (u : Nat) (dir : Int) (b entry : Nat) : Bool :=
  b % 64 = 0 && b ≤ 65536 && (match tileStep ((u - 0x40) % 16) dir with
    | none => false
    | some j => p.bufs.any (fun f => f.unit = u - (u - 0x40) % 16 + j && f.entry = entry && f.producer = u))

/-- An instruction of a stream of slice k of unit u: its operands, and what Split or Fused excludes (R145, R146, R183). -/
def progOpOk (p : Placement) (u : Nat) (h : TileHead) (k : Nat) : ProgOp → Bool
  | .tile o => opOk o
  | .rep n o => h.fused && opOk o && repMay o && n ≤ 4096 && n * opCost o ≤ 4096
  | .repOther _ => false
  | .sbar mask => bit mask k && (List.range 8).all (fun j => !bit mask j || bit h.sliceMask j) && mask < 256
  | .random (.gmax n) => h.fused && n ≤ 1048576
  | .random (.topk n j) => h.fused && n ≤ 1048576 && j ≤ 256
  | .redSum f _ n _ => (f = .f32 || f = .i32) && n ≤ 65536
  | .xsend dir _ _ b e => xsendOk p u dir b e
  | .mma d => matOk d
  | .quad q => cvtOk q.src q.dst && rndOk q.dst q.rnd
  | .copy d => copyOk d
  | .fabric d => descLenOk d
  | _ => true

/-- The slices a tile program runs, each with its entry and stream. -/
def runStreams (g : UnitProg) : List (Nat × Nat × List ProgOp) :=
  (List.range 8).filterMap (fun k =>
    if (if g.head.fused then k = 0 else bit g.head.sliceMask k) then some (k, g.head.entry.getD k 0, g.streams.getD k []) else none)

/-- The REPs of a program: their number and the cycles of the longest (R147). -/
def repsOf (g : UnitProg) : List Nat :=
  g.streams.flatMap (fun l => l.filterMap (fun o => match o with
    | .rep n x => some (n * opCost x)
    | _ => none))

/-- The header and streams of a tile program in a window share of `win` granules (R145 to R148, R158). -/
def tileProgOk (p : Placement) (win : Nat) (g : UnitProg) : Bool :=
  let h := g.head
  h.format = 1 && (!h.fused || h.sliceMask = 255) && h.sliceMask < 256 && g.modes.all (· < 3)
    && (List.range 8).all (fun k => (runStreams g).any (fun r => r.1 = k) || h.entry.getD k 0 = 0)
    && (runStreams g).all (fun r => r.2.1 + r.2.2.length ≤ win * 64 && loopsOk r.2.2 r.2.1
      && r.2.2.all (progOpOk p g.unit h r.1))
    && h.reps = (repsOf g).length && h.fusedMax = (repsOf g).foldl max 0
    && h.cycles = 16 + ((runStreams g).map (fun r => streamCycles r.2.2 r.2.1)).foldl max 0

/-- The window bytes of a program: a tile's header and its instructions of 8 bytes (R147). -/
def progBytes (g : UnitProg) : Nat :=
  if isTile g.unit then 32 + 8 * g.streams.foldl (fun n l => n + l.length) 0 else g.bytes

/-- The window granules a placement gives a logical unit. -/
def windowFigure (p : Placement) (u : Nat) : Nat := (p.shares.filter (fun x => x.unit = u)).foldl (fun n x => max n x.window) 0

/-- Whether the programs of a placement pass the load checks: each its own, and those of a unit its window share (R106). -/
def programsOk (p : Placement) : Bool :=
  p.programs.all (fun g => if isTile g.unit then tileProgOk p (windowFigure p g.unit) g
      else g.streams.all (fun l => l.all (progOpOk p g.unit {} 0)))
    && p.programs.all (fun g =>
      ((p.programs.filter (fun x => x.unit = g.unit)).foldl (fun n x => n + progBytes x) 0) ≤ windowFigure p g.unit * 512)

/-- A Split program that names no slice to run (R148). -/
def noSlice (p : Placement) : Bool := p.programs.any (fun g => isTile g.unit && !g.head.fused && g.head.sliceMask = 0)

/-- Every instruction of a placement's programs. -/
def progOps (p : Placement) : List ProgOp := p.programs.flatMap (fun g => g.streams.flatMap (fun l => l))

/-- Operations whose order of arrival can change bits (R140). -/
def opVaries : ProgOp → Bool
  | .copy d => d.several || d.add
  | .fabric d => mayVary d.op || d.req.several
  | .sync d => d.op = 0x11 || d.op = 0x12 || d.op = 0x18
  | _ => false

/-- Stochastic rounding. -/
def isSr : Rounding → Bool | .rne => false | .sr _ _ => true

/-- Whether a register instruction draws random bits, or uses the numeric library (R172, R267). -/
def opSr : TileOp → Bool
  | .cvt _ _ _ _ r => isSr r
  | .mxq _ _ _ _ r => isSr r
  | _ => false
def opLibrary : TileOp → Bool
  | .func _ _ _ _ => true
  | _ => false

/-- What a frame-table template may not hold: may-vary operations, library functions, random bits, fabric and SYNC
descriptors (R172, R267, R402). -/
def notForRadio : ProgOp → Bool
  | .tile o => opSr o || opLibrary o
  | .rep _ o => opSr o || opLibrary o
  | .quad q => isSr q.rnd
  | .random _ => true
  | .fabric _ => true
  | .sync _ => true
  | o => opVaries o

/-! ### Class-0 traffic of a template (R101 to R103) -/

/-- The region of a unit: array regions 0 to 3, coding 4, control 5. -/
def regionOf (u : Nat) : Nat := if isCoding u then 4 else if isEndpoint u then 5 else unitRegion u

/-- The region a place lies in. -/
def placeRegion : Place → Nat → Nat
  | .array n, _ => n
  | .tile t, _ => t / 16
  | .coding, _ => 4
  | .dram, a => a / 2 ^ 37
  | .hdm, _ => 5
  | .capture, _ => 5
  | .staging, _ => 5
  | .region _ lr _, _ => lr

/-- The link from a region to another, the port out of a unit and the port into it, as keys. -/
def linkKey (a b : Nat) : Nat := 8 * a + b
def portOut (u : Nat) : Nat := 0x100 + u
def portIn (u : Nat) : Nat := 0x200 + u

/-- Bytes a clock that a link carries each way (R101). -/
def linkWidth (k : Nat) : Nat :=
  if 0x100 ≤ k then 256 else if k / 8 < 4 && k % 8 < 4 then 1024 else if k / 8 < 4 || k % 8 < 4 then 512 else 256

/-- The link between two regions, if they differ. -/
def between (a b n : Nat) : List (Nat × Nat) := if a = b then [] else [(linkKey a b, n)]

/-- What one issue of an instruction of unit u puts on links: (link, bytes). A post takes a flit of 64 bytes. -/
def opTraffic (u : Nat) : ProgOp → List (Nat × Nat)
  | .xsend dir _ _ b _ => match tileStep ((u - 0x40) % 16) dir with
    | some j => [(portIn (u - (u - 0x40) % 16 + j), b + 64)]
    | none => []
  | .post v _ len => [(portOut u, 64 * len + 64), (portIn v, 64 * len + 64)] ++ between (regionOf u) (regionOf v) (64 * len + 64)
  | .copy d =>
    [(portIn u, d.len), (portOut u, d.len)] ++ between (placeRegion d.src d.sAddr) (regionOf u) d.len
      ++ between (regionOf u) (placeRegion d.dst d.dAddr) d.len
      ++ (match d.post with
        | some (v, _, _) => [(portOut u, 64), (portIn v, 64)] ++ between (regionOf u) (regionOf v) 64
        | none => [])
  | _ => []

/-- What one run of a program puts on links. -/
def progTraffic (g : UnitProg) : List (Nat × Nat) :=
  (List.range g.streams.length).flatMap (fun k =>
    let l := g.streams.getD k []
    let base := g.head.entry.getD k 0
    (List.range l.length).flatMap (fun i =>
      (l[i]?.elim [] (opTraffic g.unit)).map (fun t => (t.1, t.2 * issueCount l base i))))

/-- What the stages of a slot put on links. -/
def slotTraffic (p : Placement) (es : List TEntry) : List (Nat × Nat) :=
  (es.filter (fun e => e.kind = 0)).flatMap (fun e =>
    (p.programs.filter (fun g => g.number = e.program && e.unitBase ≤ g.unit && g.unit < e.unitBase + e.unitCount)).flatMap progTraffic)

/-- Whether a link carries more than 80 % of its capacity at 2.0 GHz in a slot of `ticks` (R103). -/
def overloaded (ticks : Nat) (t : List (Nat × Nat)) : Bool :=
  t.any (fun x => 80 * linkWidth x.1 * ticks * 3125 < 100 * 3072 * (t.filter (fun y => y.1 = x.1)).foldl (fun n y => n + y.2) 0)

/-- Whether the class-0 traffic of a template breaks R103 in some slot. -/
def trafficBad (ticks : Nat) (t : Template) : Bool :=
  (([] :: t.patterns).any (fun es => overloaded ticks (slotTraffic t.placement (t.idle ++ es))))

end Sys2Proof.Machine
end

