-- ==== Sys2Proof/Machine/CtxOps.lean ====
section
/-!
DEFINITION. The shared operations on contexts (chapter 12): their state and its events, shares and residency,
completions, and the stopping of a lent micro-step.
-/
namespace Sys2Proof.Machine

/-! ### Access -/

/-- Context c; absent where nothing is listed. -/
def ctxOf (s : State) (c : Nat) : Context := tabGet s.srv.ctxs c {}

def updSrv (f : Serving → Serving) (s : State) : State := s.setSrv (f s.srv)
def updTts (f : Tts → Tts) (s : State) : State := s.setTts (f s.tts)

/-- Changes a context that exists. -/
def updCtx (c : Nat) (f : Context → Context) (s : State) : State :=
  updSrv (fun v => { v with ctxs := tabMod v.ctxs c f }) s

/-- Changes the running batch step of a context. -/
def updStep (c : Nat) (f : StepRun → StepRun) (s : State) : State :=
  updCtx c (fun x => { x with step := x.step.map f }) s

/-- Changes a micro-step of the running batch step. -/
def updMicro (c m : Nat) (f : MicroRun → MicroRun) (s : State) : State :=
  updStep c (fun r => { r with micros := tabMod r.micros m f }) s

/-- A micro-step of the running batch step. -/
def microOf (s : State) (c m : Nat) : MicroRun :=
  match (ctxOf s c).step with
  | some r => tabGet r.micros m {}
  | none => {}

/-- The kind a batch step runs. -/
def kindOf (x : Context) (k : Nat) : ImgKind := x.img.kinds.getD k {}

/-! ### Binding of logical units (R114) -/

/-- The physical unit of a logical unit; an endpoint is itself. -/
def bindUnit (b : Binding) (u : Nat) : Nat :=
  let r := unitRegion u
  if isQuad u then (b.quads.getD r []).getD (u % 4) 0xFF
  else if isTile u then (b.tiles.getD r []).getD ((u - 0x40) % 16) 0xFF
  else if isMover u then (b.movers.getD r []).getD ((u - 0xE0) % 4) 0xFF
  else u

/-- The units of array region p in service: quadrants, tiles, movers. -/
def inService (s : State) (u : Nat) : Bool := unitExists s.grade u && !s.hlt.outOfService.contains u
def freeQuads (s : State) (p : Nat) : List Nat := ((List.range 4).map (fun m => 4 * p + m)).filter (inService s)
def freeMovers (s : State) (p : Nat) : List Nat :=
  ((List.range 4).map (fun m => 0xE0 + 4 * p + m)).filter (inService s)

/-- The lowest block of n consecutive tiles of region p in service (R114). -/
def tileBlock (s : State) (p n : Nat) : Option (List Nat) :=
  let block := fun b => (List.range n).map (fun i => 0x40 + 16 * p + b + i)
  (firstBelow (17 - n) (fun b => (block b).all (inService s))).map block

/-- The longest free range of a table of `total` granules is at least n. -/
def hasFree (s : State) (tbl total n : Nat) : Bool := (freeRange s tbl total n).isSome

/-- Binds one logical region of a shape to region p, or not (R112, R114): `gran` counts store granules and windows,
`gb` gives the free GB of a stack. -/
def bindRegion (s : State) (sh : Shape) (gran : Bool) (gb : Nat → Nat) (r p : Nat) :
    Option (List Nat × List Nat × List Nat) :=
  let q := (freeQuads s p).take (sh.quadrants.getD r 0)
  let m := (freeMovers s p).take (sh.movers.getD r 0)
  match tileBlock s p (sh.tiles.getD r 0) with
  | none => none
  | some t =>
    let fits := q.length = sh.quadrants.getD r 0 && m.length = sh.movers.getD r 0
      && sh.dramGb.getD r 0 ≤ gb p && sh.fabricPorts.getD r 0 ≤ 3 && p < gradeArrays s.grade
    let room := hasFree s p 192 (sh.arrayGranules.getD r 0)
      && t.all (fun u => hasFree s u 64 (sh.tileGranules.getD r 0))
      && (q ++ t ++ m).all (fun u => hasFree s (0x100 + u) 64 sh.windowGranules)
    if fits && (!gran || room) then some (q, t, m) else none

/-- Binds the logical regions of a shape in ascending order to the lowest unbound regions (R114). -/
def bindShape (s : State) (sh : Shape) (gran : Bool) (gb : Nat → Nat) : Nat → Nat → Binding → Option Binding
  | 0, _, b => some b
  | n + 1, r, b =>
    let ok := fun p => !b.regions.contains p && (bindRegion s sh gran gb r p).isSome
    match firstBelow 4 ok with
    | none => none
    | some p =>
      match bindRegion s sh gran gb r p with
      | none => none
      | some (q, t, m) =>
        bindShape s sh gran gb n (r + 1)
          { regions := b.regions ++ [p], quads := b.quads ++ [q], tiles := b.tiles ++ [t],
            movers := b.movers ++ [m] }

/-- The binding of a shape. -/
def bindFor (s : State) (sh : Shape) (gran : Bool) (gb : Nat → Nat) : Option Binding :=
  bindShape s sh gran gb sh.regions 0 {}

/-! ### DRAM of the stacks (R268, R349) -/

/-- Every context, those being created included. -/
def allContexts (s : State) : List (Nat × Context) := s.srv.ctxs ++ s.srv.creating.map (fun p => p.2)

/-- The ranges of stack p in use. -/
def stackUsed (s : State) (p : Nat) : List (Nat × Nat) :=
  (allContexts s).flatMap (fun x => (x.2.dram.filter (fun d => d.1 / 2 ^ 20 % 4 = p)).map (fun d => (d.1 % 2 ^ 20, d.2)))

/-- Granules of a stack that contexts may have: less the radio reservation and an even share of the HDM window and of the
firmware's reserve (R349). -/
def stackGranules (s : State) (p : Nat) : Nat :=
  65536 - radioGranules s.grade p - cdiv (cdiv s.dev.hdmSize 2097152 + 2048) (gradeArrays s.grade)

/-- Free whole GB of a stack. -/
def stackFreeGb (s : State) (p : Nat) : Nat :=
  (stackGranules s p - (stackUsed s p).foldl (fun n r => n + r.2) 0) / 512

/-! ### Shape and layout checks (R112, R348, R110) -/

/-- Whether a shape fits an empty device of the grade (R112). -/
def shapeFits (g : Grade) (sh : Shape) : Bool :=
  1 ≤ sh.regions && sh.regions ≤ gradeArrays g && sh.windowGranules ≤ 64
    && (List.range sh.regions).all (fun r => sh.quadrants.getD r 0 ≤ 4 && sh.tiles.getD r 0 ≤ 16
      && sh.movers.getD r 0 ≤ 4 && sh.arrayGranules.getD r 0 ≤ 192 && sh.tileGranules.getD r 0 ≤ 64
      && sh.dramGb.getD r 0 ≤ 128 && sh.fabricPorts.getD r 0 ≤ 3)

/-- Whether a shape holds a logical unit. -/
def shapeHas (sh : Shape) (u : Nat) : Bool :=
  let r := unitRegion u
  if isQuad u then r < sh.regions && u % 4 < sh.quadrants.getD r 0
  else if isTile u then r < sh.regions && (u - 0x40) % 16 < sh.tiles.getD r 0
  else if isMover u then r < sh.regions && (u - 0xE0) % 4 < sh.movers.getD r 0
  else false

/-- Whether a placement may give figures or buffers for a unit: one of its shape, or an endpoint or coding engine where it is
radio's (R92, R98, R348). -/
def layoutUnit (radio : Bool) (sh : Shape) (u : Nat) : Bool :=
  shapeHas sh u || (radio && (isEndpoint u || isCoding u))

/-- The layout checks of R348 on a placement: units, store and window figures. -/
def layoutOk (radio : Bool) (p : Placement) : Bool :=
  p.shares.all (fun u =>
    layoutUnit radio p.shape u.unit
      && u.window ≤ p.shape.windowGranules
      && (!isQuad u.unit || u.store ≤ p.shape.arrayGranules.getD (unitRegion u.unit) 0)
      && (!isTile u.unit || u.store ≤ p.shape.tileGranules.getD (unitRegion u.unit) 0))

/-- The bytes a share of n granules has in the store of a unit. -/
def storeBytesOf (u n : Nat) : Nat :=
  if isQuad u then n * 262144 else if isTile u then n * 16384 else if isCoding u then n * 65536 else 2 ^ 40

/-- The store figure of a logical unit: the largest among the quadrants of its region for a quadrant (R348). -/
def storeFigure (p : Placement) (u : Nat) : Nat :=
  (p.shares.filter (fun x => if isQuad u then isQuad x.unit && unitRegion x.unit = unitRegion u else x.unit = u)).foldl
    (fun n x => max n x.store) 0

/-- A producer: a unit of the placement, an endpoint, or none (R83). -/
def producerOk (radio : Bool) (sh : Shape) (u : Nat) : Bool := layoutUnit radio sh u || isEndpoint u || u = 0xFF

/-- Units, entries, slots and extents of the buffers of a placement (R83, R107, R116). -/
def bufsOk (radio : Bool) (p : Placement) : Bool :=
  p.bufs.all (fun b => layoutUnit radio p.shape b.unit && producerOk radio p.shape b.producer && b.entry < sbCount b.unit && b.slots ≤ (if isCoding b.unit then 64 else 255)
    && b.slotSize ≤ 65535 && b.base % 64 = 0
    && b.base + b.slots * b.slotSize * 64 ≤ storeBytesOf b.unit (storeFigure p b.unit))

/-- A buffer that cannot carry data (R110), or a Split program that names no slice (R148). -/
def bufsZero (p : Placement) : Bool := noSlice p || p.bufs.any (fun b => b.slots = 0 || b.slotSize = 0)

/-! ### Shares of a placement (R98, R107, R353) -/

/-- What an owner needs of each table: table, its granules in all, granules needed. -/
def shareNeeds (b : Binding) (p : Placement) : List (Nat × Nat) :=
  let add := fun (t : Tab Nat) (u : UnitShare) =>
    let ph := bindUnit b u.unit
    let t := if u.store = 0 then t
      else if isQuad ph then tabUpd t (ph / 4) 0 (max u.store)
      else if isTile ph then tabUpd t ph 0 (max u.store)
      else if isCoding ph then tabUpd t 0x80 0 (max u.store) else t
    if u.window = 0 then t else tabUpd t (0x100 + ph) 0 (max u.window)
  p.shares.foldl add []

/-- The granules of a share table. -/
def tableTotal (tbl : Nat) : Nat := if tbl < 0x40 then 192 else if tbl = 0x80 then 384 else 64

/-- The ranges of a table: owner, first, count. -/
def tableRanges (s : State) (tbl : Nat) : List (Nat × Nat × Nat) :=
  (s.grd.shares.filter (fun p => p.1 / 512 == tbl)).map (fun p => (p.1 % 512, p.2))

/-- First fit of n granules among used ranges. -/
def firstFit (total n : Nat) (used : List (Nat × Nat)) : Option Nat :=
  ((0 :: used.map (fun r => r.1 + r.2)).filter (fun b => b + n ≤ total
      && used.all (fun r => b + n ≤ r.1 || r.1 + r.2 ≤ b))).min?

/-- Packs movable ranges, largest first, then the range needed (R353 step 2). -/
def packRanges (total : Nat) (used : List (Nat × Nat)) : List (Nat × Nat) → Option (List (Nat × Nat × Nat))
  | [] => some []
  | (o, n) :: r =>
    match firstFit total n used with
    | none => none
    | some b => (packRanges total ((b, n) :: used) r).map (fun l => (o, b, n) :: l)

/-- Whether a context's ranges may be moved: RESIDENT with no batch step (R353). -/
def movable (s : State) (o : Nat) : Bool :=
  o < 256 && (ctxOf s o).state = .resident && (ctxOf s o).step.isNone

/-- Places n granules of a table for owner c once the owners `gone` have left: the lowest free range, else by
relocation; the moves and the range, as shares to write. -/
def placeShare (s : State) (c tbl n : Nat) (gone : List Nat) : Option (List (Nat × Nat × Nat)) :=
  let total := tableTotal tbl
  let all := (tableRanges s tbl).filter (fun r => !gone.contains r.1)
  match firstFit total n (all.map (fun r => r.2)) with
  | some b => some [(c, b, n)]
  | none =>
    let fixed := (all.filter (fun r => !movable s r.1)).map (fun r => r.2)
    let moves := sortBy (fun a b => b.2 < a.2)
      ((all.filter (fun r => movable s r.1)).map (fun r => (r.1, r.2.2)))
    packRanges total fixed (moves ++ [(c, n)])

/-- All shares a context needs, once `gone` have left; none where some do not fit. -/
def placeAll (s : State) (c : Nat) (gone : List Nat) : Option (List (Nat × List (Nat × Nat × Nat))) :=
  let x := ctxOf s c
  (shareNeeds x.bind (x.places.getD x.place {})).mapM
    (fun n => (placeShare s c n.1 n.2 gone).map (fun l => (n.1, l)))

/-- A program with its units bound (R114). -/
def bindOp (b : Binding) : ProgOp → ProgOp
  | .waitFree u e => .waitFree (bindUnit b u) e
  | .post u e n => .post (bindUnit b u) e n
  | .mma d => .mma { d with quad := bindUnit b d.quad }
  | .quad q => .quad { q with quad := bindUnit b q.quad }
  | .copy d => .copy { d with mover := bindUnit b d.mover, post := d.post.map (fun x => (bindUnit b x.1, x.2)) }
  | .fabric d => .fabric { d with mover := bindUnit b d.mover }
  | o => o
def bindProg (b : Binding) (g : UnitProg) : UnitProg :=
  { g with unit := bindUnit b g.unit, streams := g.streams.map (fun l => l.map (bindOp b)) }

/-- The programs of an owner in a unit's window (R106). -/
def windowProgs (s : State) (u owner : Nat) : List UnitProg := tabGet s.grd.windows (u * 512 + owner) []

/-- The program a unit runs by its number; an empty one where its window has none. -/
def programOf (s : State) (u owner n : Nat) : UnitProg := ((windowProgs s u owner).find? (fun g => g.number = n)).getD {}

/-- Copies the programs of a placement into its units' windows (R106). -/
def writePrograms (owner : Nat) (b : Binding) (p : Placement) (s : State) : State :=
  updGrd (fun g => { g with windows := p.programs.foldl (fun t q =>
    tabUpd t (bindUnit b q.unit * 512 + owner) [] (fun l => l ++ [bindProg b q])) g.windows }) s

/-- Rebases the entries of an owner in a store whose share has moved by `by_` bytes (R353): a quadrant's array, a tile. -/
def moveBufs (owner tbl : Nat) (by_ : Int) (s : State) : State :=
  let inside := fun (u : Nat) => if tbl < 0x40 then isQuad u && u / 4 = tbl else u = tbl
  updGrd (fun g => { g with sb := g.sb.map (fun p =>
    if p.2.owner = owner && inside (p.1 / 256) then (p.1, { p.2 with base := ((p.2.base : Int) + by_).toNat }) else p) }) s

/-- Bytes of a granule of a share table (R95). -/
def tableGran (tbl : Nat) : Nat := if tbl < 0x40 then 262144 else if tbl < 0x80 then 16384 else if tbl = 0x80 then 65536 else 512

/-- Writes the scoreboard entries of an owner's placement (R107), base relative to its share. Of two resident owners that name
one entry of a unit the later overwrites the earlier (assumption 150). -/
def writeBufs (owner : Nat) (b : Binding) (p : Placement) (s : State) : State :=
  p.bufs.foldl (fun s f =>
    let u := bindUnit b f.unit
    let tbl := if isQuad u then u / 4 else if isTile u then u else 0x80
    let gran := if isQuad u then 262144 else if isTile u then 16384 else 65536
    let base := if isEndpoint u || isMover u then f.base else (shareOf s tbl owner).1 * gran + f.base
    updSb u f.entry (fun _ => { slots := f.slots, valid := true, slotSize := f.slotSize, base := base,
                                producer := bindUnit b f.producer, owner := owner }) s) s

/-- Writes one share of a table; the entries of an owner whose share moves go with it (R353). -/
def writeShare (tbl : Nat) (s : State) (r : Nat × Nat × Nat) : State :=
  let old := shareOf s tbl r.1
  let s := if old.2 = 0 || 0x100 ≤ tbl then s
    else moveBufs r.1 tbl (((r.2.1 : Int) - old.1) * tableGran tbl) s
  setShare tbl r.1 r.2.1 r.2.2 s

/-- Writes the shares found for a context, its entries and its programs. -/
def writeShares (c : Nat) (l : List (Nat × List (Nat × Nat × Nat))) (s : State) : State :=
  let s := l.foldl (fun s t => t.2.foldl (writeShare t.1) s) s
  let p := (ctxOf s c).places.getD (ctxOf s c).place {}
  writePrograms c (ctxOf s c).bind p (writeBufs c (ctxOf s c).bind p (freeWindows c s))

/-! ### States of a context (R344, R369) -/

def ctxCode : CtxState → Nat
  | .absent => 0 | .loaded => 1 | .residing => 2 | .resident => 3 | .running => 4 | .frozen => 5

/-- A transition with its CTX_STATE; leaving for LOADED frees shares, windows and entries, and leaving RESIDING
withdraws the eviction pending set on victims (R344, R369). -/
def ctxTo (c : Nat) (new : CtxState) (cause : Nat) (s : State) : State :=
  let old := (ctxOf s c).state
  if old = new then s else
  let s := post { code := 0x0501, part := (ctxOf s c).part,
                  detail := leBytes 2 c ++ leBytes 1 (ctxCode old) ++ leBytes 1 (ctxCode new)
                    ++ leBytes 1 cause } (updCtx c (fun x => { x with state := new }) s)
  if new ≠ .loaded then s else
  let free := fun (x : Context) => if x.evictBy = some c then { x with evictBy := none, evictCause := none } else x
  let s := updSrv (fun v => { v with ctxs := v.ctxs.map (fun p => (p.1, free p.2)) }) s
  updCtx c (fun x => { x with written := false, waitFor := [], evictCause := none, evictBy := none })
    (freeShares c (updGrd (fun g => { g with sb := g.sb.filter (fun p => p.2.owner != c) }) s))

/-! ### Completions (R364) -/

/-- The arithmetic status word (R138). -/
def arithWord (a : ArithFlags) : Nat :=
  b2n a.invalid + 2 * b2n a.overflow + 4 * b2n a.accSat + 8 * b2n a.storeSat + 16 * b2n a.t5pBad
    + 32 * b2n a.scaleNan

/-- The word of an owner, and its clearing (R138). -/
def arithOf (s : State) (owner : Nat) : Nat := arithWord (tabGet s.grd.arith owner {})
def clearArith (owner : Nat) (s : State) : State := updGrd (fun g => { g with arith := tabDel g.arith owner }) s

/-- What a STEP_DONE says of a submission. -/
structure DoneInfo where
  ctx : Nat := 0xFFFF
  kind : Nat := 0
  status : Status := .success
  retry : Nat := 0
  step : Nat := 0
  start : Nat := 0
  arith : Nat := 0
  squashes : Nat := 0
  microRun : Nat := 0
  tag : Nat := 0
  deriving DecidableEq, Repr, Inhabited

/-- The STEP_DONE body of 56 bytes (R364). -/
def doneBody (d : DoneInfo) (now : Nat) : List Byte :=
  leBytes 2 d.ctx ++ leBytes 1 d.kind ++ leBytes 1 0 ++ leBytes 2 (statusCode d.status) ++ leBytes 2 d.retry
    ++ leBytes 8 d.step ++ leBytes 8 d.start ++ leBytes 8 now ++ leBytes 4 d.arith
    ++ leBytes 2 (min 65535 d.squashes) ++ leBytes 2 0 ++ leBytes 4 d.microRun ++ List.replicate 12 0

/-- Completions that wait for room on a done ring. -/
def doneWaiting (s : State) (ring : Nat) : List (Nat × List Byte) := tabGet s.srv.doneWait ring []

/-- Writes a STEP_DONE, or lets it wait behind others or for room (R364). -/
def emitDone (ring : Nat) (d : DoneInfo) (s : State) : State :=
  let body := doneBody d s.tmb.free
  if (doneWaiting s ring).isEmpty && ringRoom s ring 1 then ringPut ring 0x21 d.tag body s
  else updSrv (fun v => { v with doneWait := tabPut v.doneWait ring (doneWaiting s ring ++ [(d.tag, body)]) }) s

/-- Writes waiting completions of a done ring while it has room. -/
def flushDone (ring : Nat) : List (Nat × List Byte) → State → State
  | [], s => updSrv (fun v => { v with doneWait := tabDel v.doneWait ring }) s
  | (tag, body) :: r, s =>
    if ringRoom s ring 1 then flushDone ring r (ringPut ring 0x21 tag body s)
    else updSrv (fun v => { v with doneWait := tabPut v.doneWait ring ((tag, body) :: r) }) s

/-- Completes a submission of context c that never started. -/
def doneUnstarted (c : Nat) (q : Submission) (st : Status) (s : State) : State :=
  let x := ctxOf s c
  let s := if st = .busy then updCtx c (fun x => { x with busy := ctrInc x.busy }) s else s
  emitDone x.doneRing { ctx := c, kind := q.kind, status := st, step := x.rng.step, tag := q.tag } s

/-- Stamps the submission that has come to the queue head (R365). -/
def stampHead (c : Nat) (s : State) : State :=
  updCtx c (fun x => match x.queue with
    | [] => x
    | q :: r => { x with queue := { q with headTick := s.tmb.free } :: r }) s

/-- Completes all submissions of a queue that satisfy p, in queue order. -/
def dropQueued (c : Nat) (p : Submission → Bool) (st : Status) (s : State) : State :=
  let out := (ctxOf s c).queue.filter p
  let head := (ctxOf s c).queue.head?
  let s := updCtx c (fun x => { x with queue := x.queue.filter (fun q => !p q) }) s
  let s := out.foldl (fun s q => doneUnstarted c q st s) s
  if (ctxOf s c).queue.head? = head then s else stampHead c s

/-! ### Residency (R353 to R356) -/

/-- Whether the partition of a context lets it enter RESIDING or start (R383, R380). -/
def partRuns (s : State) (c : Nat) : Bool := (partOf s (ctxOf s c).part).state = .active

/-- A LOADED context enters RESIDING (R344). -/
def enterResiding (c cause : Nat) (s : State) : State :=
  if (ctxOf s c).state ≠ .loaded || !partRuns s c || s.dev.twilight then s else
  updCtx c (fun x => { x with residingSince := s.tmb.free, resideCause := cause, waitFor := [], written := false })
    (ctxTo c .residing cause s)

/-- The contexts that may be victims for c, least recently stepped first (R353, R355). -/
def victimOrder (s : State) (c : Nat) (ignoreProt : Bool) : List Nat :=
  let x := ctxOf s c
  let ok := fun (p : Nat × Context) => p.1 ≠ c && (p.2.state = .resident || p.2.state = .running)
    && !p.2.pinned && x.prio ≤ p.2.prio && (ignoreProt || !p.2.prot)
  (sortBy (fun a b => a.2.lastStepped < b.2.lastStepped) (s.srv.ctxs.filter ok)).map (fun p => p.1)

/-- The shortest prefix of victims with which the shares fit. -/
def growVictims (s : State) (c : Nat) : List Nat → List Nat → Option (List Nat)
  | [], _ => none
  | v :: r, acc =>
    if (placeAll s c (acc ++ [v])).isSome then some (acc ++ [v]) else growVictims s c r (acc ++ [v])

/-- Drops, in reverse order, victims without which the shares still fit. -/
def dropVictims (s : State) (c : Nat) (vs : List Nat) : List Nat :=
  vs.reverse.foldl (fun set v => if (placeAll s c (set.filter (· ≠ v))).isSome then set.filter (· ≠ v) else set) vs

/-- The victims chosen for c, none where no set will do (R353). -/
def chooseVictims (s : State) (c : Nat) (ignoreProt : Bool) : Option (List Nat) :=
  (growVictims s c (victimOrder s c ignoreProt) []).map (dropVictims s c)

/-- Evicts a context at a boundary; with submissions queued it asks for residency again (R354). -/
def evictNow (v cause : Nat) (s : State) : State :=
  let s := ctxTo v .loaded cause (updCtx v (fun x => { x with evictions := ctrInc x.evictions, prot := false }) s)
  if (ctxOf s v).queue.isEmpty then s else enterResiding v 1 s

/-- Marks a running victim, or evicts a resident one (R354). -/
def takeVictim (c : Nat) (s : State) (v : Nat) : State :=
  if (ctxOf s v).state = .resident then evictNow v 2 s
  else if (ctxOf s v).evictCause.isSome then s
  else updCtx v (fun x => { x with evictCause := some 2, evictBy := some c }) s

/-- Ends the CTX_RESIDE operations of a context. -/
def endReside (c : Nat) (st : Status) (s : State) : State := finishOpsOn 0x0503 c st [] s

/-- No victims can be found: LOADED, the CTX_RESIDEs and the head submission end with BUSY (R354). -/
def refuseResidency (c : Nat) (s : State) : State :=
  let s := endReside c .busy (ctxTo c .loaded (ctxOf s c).resideCause s)
  match (ctxOf s c).queue with
  | [] => s
  | q :: r =>
    let s := stampHead c (doneUnstarted c q .busy (updCtx c (fun x => { x with queue := r }) s))
    if r.isEmpty then s else enterResiding c 1 s

/-- The RESIDING context served next: by priority, then by the tick it entered (R356). -/
def frontResiding (s : State) : Option Nat :=
  let l := s.srv.ctxs.filter (fun p => p.2.state = .residing && !p.2.written)
  let before := fun (a b : Nat × Context) => a.2.prio < b.2.prio
    || (a.2.prio = b.2.prio && a.2.residingSince < b.2.residingSince)
  ((sortBy before l).map (fun p => p.1)).head?

/-- Writes the shares of a context that fits. -/
def grantResidency (c : Nat) (l : List (Nat × List (Nat × Nat × Nat))) (s : State) : State :=
  updCtx c (fun x => { x with written := true, waitFor := [] }) (writeShares c l s)

/-- Serves the RESIDING contexts one after another as far as it goes (R353 to R356). -/
def serveResiding : Nat → State → State
  | 0, s => s
  | fuel + 1, s =>
    match frontResiding s with
    | none => s
    | some c =>
      if (ctxOf s c).waitFor.any (fun v => (ctxOf s v).state = .running && (ctxOf s v).evictCause.isSome) then s
      else
        match placeAll s c [] with
        | some l => serveResiding fuel (grantResidency c l s)
        | none =>
          match chooseVictims s c false with
          | none =>
            if (chooseVictims s c true).isSome then s else serveResiding fuel (refuseResidency c s)
          | some vs =>
            let run := vs.filter (fun v => (ctxOf s v).state = .running)
            let s := vs.foldl (takeVictim c) s
            if run.isEmpty then
              match placeAll s c [] with
              | some l => serveResiding fuel (grantResidency c l s)
              | none => s
            else updCtx c (fun x => { x with waitFor := run }) s

/-- Rounds that serve every queue at most once through. -/
def serveFuel (s : State) : Nat := s.srv.ctxs.foldl (fun n p => n + p.2.queue.length + 2) 1

/-- Serves the residing order. -/
def serve (s : State) : State := serveResiding (serveFuel s) s

/-! ### Stopping a lent micro-step (R111, R198, R214) -/

/-- The unit and position pairs of a record's detail: at most 16 (R454). -/
def unitPairs (s : State) (us : List Nat) : List Byte :=
  (us.take 16).flatMap (fun u => leBytes 1 u
    ++ leBytes 3 (if isCoding u then 0xFFFFFF else (unitRun s u).position))

/-- The position a record gives for a unit (R454). -/
def unitPosition (s : State) (u : Nat) : Nat := if isCoding u then 0xFFFFFFFF else (unitRun s u).position

/-- A slice that waits for nothing. -/
def calmSlice (y : Slice) : Slice := { y with xstall := none, sbar := none, side := {} }

/-- Frees units: nothing held, nothing waited on. -/
def clearUnits (us : List Nat) (s : State) : State :=
  let s := updUnits us (fun _ => {}) s
  s.setTiles (us.foldl (fun t u => if isTile u then tabMod t (u - 0x40) (fun x =>
    { x with slices := x.slices.map (fun p => (p.1, calmSlice p.2)) }) else t) s.tiles)

/-- The running micro-step (c, m). -/
def lentOf (s : State) (c m : Nat) : Option RunningMicro := s.tts.lent.find? (fun r => r.ctx = c && r.micro = m)

/-- Stops a running micro-step on all its units, restoring scoreboards; its recorded SYNC descriptors and the count of its
accumulating requests are dropped (R111, R415, R431). -/
def stopMicro (c m : Nat) (s : State) : State :=
  match lentOf s c m with
  | none => s
  | some r =>
    let s := updTts (fun t => { t with lent := t.lent.filter (fun q => !(q.ctx = c && q.micro = m)) }) s
    let s := updMicro c m (fun q => { q with sync := [], accNext := [], status := .success })
      (sbRestore r.snap (clearUnits r.units s))
    s.setFab { s.fab with fences := s.fab.fences.filter (fun f => !(f.ctx = c && f.micro = m)),
                                 issueWait := s.fab.issueWait.filter (fun d => !(d.2.ctx = some c && d.2.micro = m)) }

/-- Counts a squash of a micro-step (R364, R368). -/
def countSquash (c m : Nat) (s : State) : State :=
  updMicro c m (fun q => { q with squashes := q.squashes + 1 })
    (updStep c (fun r => { r with squashes := r.squashes + 1 })
      (updCtx c (fun x => { x with squashes := ctrInc x.squashes }) s))

/-- Stops every running micro-step of a context and withdraws its ready ones (R359, R459); `rec` writes the
MICRO_OVERRUN records of a fence. -/
def squashAll (c : Nat) (rec : Bool) (s : State) : State :=
  let run := s.tts.lent.filter (fun r => r.ctx = c)
  let s := run.foldl (fun s r =>
    let s := if rec then fault { code := 5, status := some .overrun, part := (ctxOf s c).part, owner := c, micro := r.micro,
                                 unit := r.units.headD 0xFF, detail := unitPairs s r.units } s else s
    countSquash c r.micro (stopMicro c r.micro s)) s
  updTts (fun t => { t with ready := t.ready.filter (fun q => q.ctx ≠ c), waiting := t.waiting.filter (fun q => q.ctx ≠ c) }) s

end Sys2Proof.Machine
end

