-- ==== Sys2Proof/Machine/SyncOps.lean ====
section
/-!
DEFINITION. The synchronisation engine (chapter 15): grants, the operations of R430 on objects, orphans, and the end of a
batch step, which orphans what the step still holds.
-/
namespace Sys2Proof.Machine

/-! ### Objects, waiters and holdings (R428, R429, R438) -/

/-- Object n; free where nothing is listed. -/
def objOf (s : State) (n : Nat) : SyncObj := tabGet s.syn.objs n {}

def updSyn (f : Sync → Sync) (s : State) : State := s.setSyn (f s.syn)

/-- Changes an object that exists. -/
def updObj (n : Nat) (f : SyncObj → SyncObj) (s : State) : State :=
  updSyn (fun y => { y with objs := tabMod y.objs n f }) s

/-- Entries of the waiter table in use. -/
def waiterCount (s : State) : Nat := s.syn.objs.foldl (fun n p => n + p.2.waiters.length) 0

/-- What a context holds on an object: units, 1 for a mutex, the arrival phase of a barrier (R438). -/
def holdingOf (s : State) (c n : Nat) : Option Nat :=
  ((ctxOf s c).holdings.find? (fun h => h.1 = n)).map (fun h => h.2.2)

/-- Sets or removes a holding. -/
def setHolding (c n : Nat) (v : Option Nat) (s : State) : State :=
  let rest := fun (l : List (Nat × Nat × Nat)) => l.filter (fun h => h.1 ≠ n)
  updCtx c (fun x => { x with holdings := match v with
    | some a => rest x.holdings ++ [(n, (objOf s n).type, a)]
    | none => rest x.holdings }) s

/-- Whether a context can hold one more object (R438). -/
def canHold (s : State) (c n : Nat) : Bool :=
  (holdingOf s c n).isSome || (ctxOf s c).holdings.length < 16

/-- a after b in a field modulo 2^32 (R71). -/
def after32 (a b : Nat) : Bool := 1 ≤ idxSub a b && idxSub a b ≤ 2147483647

/-- Whether the condition of a waiter holds now (R430). -/
def waitHolds (o : SyncObj) (w : Waiter) : Bool :=
  if w.op = 0x03 then w.arg ≤ o.value
  else if w.op = 0x0A then o.set
  else if w.op = 0x11 || w.op = 0x12 then w.arg ≤ o.count
  else if w.op = 0x18 then o.holder = 0xFFFF
  else after32 o.phase w.arg

/-- Whether waiters of a type are granted only from the head (R432). -/
def headOnly (type : Nat) : Bool := type = 3 || type = 4

/-! ### Timing choices (R446) -/

/-- Whether a partition is in ledger mode (R447). -/
def ledgerMode (s : State) (p : Nat) : Bool := (partOf s p).ledger

/-- Counts a timing choice on a context outside ledger mode (R446, R447). -/
def timingChoice (c : Nat) (s : State) : State :=
  if ledgerMode s (ctxOf s c).part then s
  else updCtx c (fun x => { x with timing := (x.timing + 1) % 2 ^ 64 }) s

/-- An application of a may-vary write to the 64-byte unit at `a` of context c by a lineage (R446): one that meets another
lineage's is counted, and so is one that finds the table full. -/
def contend (c a lineage : Nat) (s : State) : State :=
  let key := a / 64
  match tabFind? s.syn.contention key with
  | some (o, l) =>
    if o = c && l ≠ lineage then
      timingChoice c (updSyn (fun y => { y with contention := tabPut y.contention key (c, lineage) }) s)
    else updSyn (fun y => { y with contention := tabPut y.contention key (c, lineage) }) s
  | none =>
    if s.syn.contention.length < 4096 then
      updSyn (fun y => { y with contention := tabPut y.contention key (c, lineage) }) s
    else timingChoice c s

/-- Frees the contention entries of a context (R446). -/
def freeContention (c : Nat) (s : State) : State :=
  updSyn (fun y => { y with contention := y.contention.filter (fun p => p.2.1 ≠ c) }) s

/-! ### Grants (R430, R432) -/

/-- One wait of a micro-step is over. -/
def waitOver (c m : Nat) (s : State) : State := updMicro c m (fun q => { q with waits := q.waits - 1 }) s

/-- A status other than SUCCESS marks the batch step to end with it (R431). -/
def failStep (c : Nat) (st : Status) (s : State) : State :=
  updStep c (fun r => { r with ending := some (r.ending.getD st) }) s

/-- What a grant does to the object and the holdings of the waiter's context (R430). A holding for which the context has no
entry ends its step with NO_RESOURCE, and takes nothing. -/
def takeGrant (n : Nat) (w : Waiter) (s : State) : State :=
  if w.op = 0x11 then updObj n (fun o => { o with count := o.count - w.arg }) s
  else if w.op = 0x12 then
    if w.arg = 0 then s
    else if !canHold s w.ctx n then failStep w.ctx .noResource s
    else setHolding w.ctx n (some ((holdingOf s w.ctx n).getD 0 + w.arg))
      (updObj n (fun o => { o with count := o.count - w.arg }) s)
  else if w.op = 0x18 then
    if !canHold s w.ctx n then failStep w.ctx .noResource s
    else setHolding w.ctx n (some 1)
      (updObj n (fun o => { o with holder := w.ctx, holderStep := (ctxOf s w.ctx).rng.step }) s)
  else if w.op = 0x21 || w.op = 0x22 then setHolding w.ctx n none s
  else s

/-- Grants waiters of an object, one after another, as long as conditions hold. -/
def grantLoop (n : Nat) : Nat → State → State
  | 0, s => s
  | fuel + 1, s =>
    let o := objOf s n
    let able := o.waiters.filter (waitHolds o)
    let next := if headOnly o.type then (o.waiters.head?.filter (waitHolds o)) else able.head?
    match next with
    | none => s
    | some w =>
      let s := if headOnly o.type && 2 ≤ able.length then timingChoice w.ctx s else s
      let s := updObj n (fun o => { o with waiters := o.waiters.erase w }) s
      grantLoop n fuel (waitOver w.ctx w.micro (takeGrant n w s))

/-- Grants what can be granted on an object. -/
def grant (n : Nat) (s : State) : State := grantLoop n (objOf s n).waiters.length s

/-! ### Orphans (R436, R439 to R441) -/

/-- Orphans an object: its waiters are released with OWNER_LOST, it leaves every context's holdings, and SYNC_ORPHANED is
posted (R441, R445). -/
def orphan (n cause ctx : Nat) (s : State) : State :=
  let o := objOf s n
  if o.orphaned || o.type = 0 then s else
  let s := updObj n (fun o => { o with orphaned := true, waiters := [] }) s
  let s := o.waiters.foldl (fun s w => failStep w.ctx .ownerLost s) s
  let drop := fun (x : Context) => { x with holdings := x.holdings.filter (fun h => h.1 ≠ n) }
  let s := updSrv (fun v => { v with ctxs := v.ctxs.map (fun p => (p.1, drop p.2)) }) s
  post { code := 0x0701, part := o.part,
         detail := leBytes 2 n ++ leBytes 1 cause ++ leBytes 1 0 ++ leBytes 2 ctx } s

/-- Takes a context's own waits off their lists without a grant (R440). -/
def leaveLists (c : Nat) (s : State) : State :=
  let out := fun (o : SyncObj) => { o with waiters := o.waiters.filter (fun w => w.ctx ≠ c) }
  let s := updSyn (fun y => { y with objs := y.objs.map (fun p => (p.1, out p.2)),
                                     lists := y.lists.filter (fun l => l.2.1 ≠ c) }) s
  s.syn.objs.foldl (fun s p => grant p.1 s) s

/-- Orphans all that a context holds and clears its journal (R439, R440, R433). -/
def orphanHoldings (c cause : Nat) (s : State) : State :=
  let held := (ctxOf s c).holdings.map (fun h => h.1)
  updCtx c (fun x => { x with journal := (x.journal.1, []) }) (held.foldl (fun s n => orphan n cause c s) s)

/-! ### The end of a batch step (R344, R354, R359, R360, R439) -/

/-- The step boundary: an eviction pending acts, else RESIDENT (R344, R354, R355). -/
def boundary (c : Nat) (s : State) : State :=
  let x := ctxOf s c
  let s := updCtx c (fun x => { x with prot := false }) s
  if x.state ≠ .running then s else
  match x.evictCause with
  | some k => evictNow c k s
  | none => ctxTo c .resident 3 s

/-- Takes the running step off its context with its completion (R360, R364). -/
def closeStep (c : Nat) (st : Status) (retry : Nat) (s : State) : State :=
  let x := ctxOf s c
  match x.step with
  | none => s
  | some r =>
    let info : DoneInfo := { ctx := c, kind := r.sub.kind, status := st, retry := retry,
                             step := if st = .success then (x.rng.step + 2 ^ 64 - 1) % 2 ^ 64 else x.rng.step,
                             start := r.start, arith := arithOf s c, squashes := r.squashes,
                             microRun := r.microRun, tag := r.sub.tag }
    let s := clearArith c (freeContention c s)
    let s := updCtx c (fun x => { x with step := none, queue := x.queue.drop 1 }) s
    boundary c (stampHead c (emitDone x.doneRing info s))

/-- Bytes of the regions of logical region r that a context allocates: weights only where it owns them. -/
def placeBytes (p : Placement) (own : Bool) (r kind : Nat) : Nat :=
  let z := p.sizes.getD r (0, 0, 0)
  if kind = 0 then (if own then z.1 else 0) else if kind = 1 then z.2.1 else z.2.2

/-- The context that holds the weights a context uses (R350). -/
def weightsHome (s : State) (c : Nat) : Nat := if (ctxOf s c).weightsOf = 0xFFFF then c else (ctxOf s c).weightsOf

/-- The sizes of a region of a context: bytes of KV or scratch, or of the weights it uses. -/
def ctxRegionBytes (s : State) (c r kind : Nat) : Nat :=
  let x := ctxOf s (if kind = 0 then weightsHome s c else c)
  placeBytes (x.places.getD x.place {}) true r kind

/-- Leaves a range of memory undefined: its bytes are a free value of their own (assumption 35). -/
def forget (a n : Nat) (s : State) : State :=
  if n = 0 then s else (s.setMem (memForget s.mem a n s.fresh)).setFresh (s.fresh + 1)

/-- The regions a step writes, as (address, bytes): its output area, the KV pages of its list, its scratch regions. -/
def stepAreas (s : State) (c : Nat) (r : StepRun) : List (Nat × Nat) :=
  let x := ctxOf s c
  let n := (x.places.getD x.place {}).shape.regions
  let page := 2 ^ x.img.kvLog2
  [(hdmAt r.sub.outOfs, r.sub.outLen)]
    ++ (List.range r.pages.length).filterMap (fun i =>
      let lr := Config.pageRegion i % max 1 n
      let k := r.pages.getD i 0
      if k < ctxRegionBytes s c lr 1 / page then some (regionAt c lr 1 (k * page), page) else none)
    ++ (List.range n).map (fun lr => (regionAt c lr 2 0, ctxRegionBytes s c lr 2))

/-- A step that ends without commit leaves its output area, its KV pages and its scratch undefined (R360). -/
def loseWork (c : Nat) (s : State) : State :=
  match (ctxOf s c).step with
  | none => s
  | some r => (stepAreas s c r).foldl (fun s p => forget p.1 p.2 s) s

/-- Ends the running batch step of a context without commit: work stopped, waits withdrawn, holdings orphaned with the
cause given, what it wrote undefined, then its completion (R359, R360, R439). -/
def endOne (c : Nat) (st : Status) (cause : Nat) (rec : Bool) (s : State) : State :=
  if (ctxOf s c).step.isNone then s else
  let s := loseWork c (orphanHoldings c cause (leaveLists c (squashAll c rec s)))
  let s := if st = .overrun then updCtx c (fun x => { x with overruns := ctrInc x.overruns }) s
    else if st = .busy then updCtx c (fun x => { x with busy := ctrInc x.busy }) s else s
  closeStep c st 0 s

/-- Ends every batch step that a status has marked (R431), one after another. -/
def drainEnding : Nat → State → State
  | 0, s => s
  | fuel + 1, s =>
    match s.srv.ctxs.find? (fun p => ((p.2.step.bind (fun r => r.ending)).isSome)) with
    | none => s
    | some p =>
      let st := ((p.2.step.bind (fun r => r.ending)).getD .aborted)
      drainEnding fuel (endOne p.1 st 4 false s)

/-- Ends marked steps, then serves the residing order. -/
def settleSteps (s : State) : State := serve (drainEnding (s.srv.ctxs.length + 1) s)

/-- Ends a batch step without commit, with all that follows from it. -/
def endStep (c : Nat) (st : Status) (rec : Bool) (s : State) : State := settleSteps (endOne c st 4 rec s)

/-- Orphans objects held by the owner of a reset, with all that follows (R440). -/
def orphanOwner (c : Nat) (s : State) : State := settleSteps (orphanHoldings c 1 (leaveLists c s))

/-! ### The operations (R430) -/

/-- The object type an operation belongs to (R430). -/
def opType (op : Nat) : Nat :=
  if 1 ≤ op && op ≤ 3 then 1 else if 8 ≤ op && op ≤ 0xA then 2 else if 0x10 ≤ op && op ≤ 0x13 then 3
  else if op = 0x18 || op = 0x19 then 4 else if 0x20 ≤ op && op ≤ 0x22 then 5 else 0

/-- Whether an operation waits (R430). -/
def opWaits (op : Nat) : Bool :=
  op = 3 || op = 0xA || op = 0x11 || op = 0x12 || op = 0x18 || op = 0x21 || op = 0x22

/-- The requests a completed barrier phase sends (R435): none for a local barrier. The caller sends them. -/
structure BarrierSend where
  obj : Nat
  dst : Nat
  store : Bool
  value : Nat
  deriving DecidableEq, Repr

/-- An arrival at a barrier (R434, R435): a phase that completes advances and grants; a member's group reports to the home. -/
def arriveAt (n : Nat) (s : State) : State × List BarrierSend :=
  let o := objOf s n
  if o.arrived + 1 < o.participants then (updObj n (fun o => { o with arrived := o.arrived + 1 }) s, [])
  else if o.distributed && !o.home then
    (updObj n (fun o => { o with arrived := 0 }) s, [{ obj := n, dst := o.homeDev, store := false, value := 1 }])
  else
    let ph := (o.phase + 1) % 4294967296
    let s := grant n (updObj n (fun o => { o with arrived := 0, phase := ph }) s)
    let devs := if o.distributed then (List.range 64).filter (bit o.members) else []
    (s, devs.map (fun d => { obj := n, dst := s.fab.device / 64 * 64 + d, store := true, value := ph }))

/-- An operation of the object that does not wait: the new state, its status and what a barrier sends. -/
def applyNow (op n amount c : Nat) (s : State) : State × Status × List BarrierSend :=
  let o := objOf s n
  if op = 0x01 then
    (grant n (updObj n (fun o => { o with value := (o.value + amount) % 2 ^ 64 }) s), .success, [])
  else if op = 0x02 then (grant n (updObj n (fun o => { o with value := amount }) s), .success, [])
  else if op = 0x08 then (grant n (updObj n (fun o => { o with set := true }) s), .success, [])
  else if op = 0x09 then (updObj n (fun o => { o with set := false }) s, .success, [])
  else if op = 0x10 then
    if o.limit < o.count + amount then (s, .badField, [])
    else (grant n (updObj n (fun o => { o with count := o.count + amount }) s), .success, [])
  else if op = 0x13 then
    let held := (holdingOf s c n).getD 0
    if amount = 0 then (s, .success, [])
    else if held < amount then (s, .notOwner, [])
    else
      let s := setHolding c n (if held = amount then none else some (held - amount)) s
      (grant n (updObj n (fun o => { o with count := o.count + amount }) s), .success, [])
  else if op = 0x19 then
    if o.holder ≠ c then (s, .notOwner, [])
    else (grant n (updObj n (fun o => { o with holder := 0xFFFF, holderStep := 0 }) (setHolding c n none s)),
          .success, [])
  else if op = 0x20 then
    if (holdingOf s c n).isSome then (s, .notPermitted, [])
    else if !canHold s c n then (s, .noResource, [])
    else
      let (s, l) := arriveAt n (setHolding c n (some o.phase) s)
      (s, .success, l)
  else (s, .notPermitted, [])

/-- Enqueues a wait at the tail unless it is granted at once (R429, R431). A wait that lets others pass only through the
list stays behind them (R432). -/
def enqueueWait (n : Nat) (w : Waiter) (s : State) : State × Status :=
  let o := objOf s n
  let first := o.waiters.isEmpty || !headOnly o.type
  if (w.op = 0x11 || w.op = 0x12) && w.arg = 0 then (s, .success)
  else if first && waitHolds o w then
    if (w.op = 0x12 || w.op = 0x18) && !canHold s w.ctx n then (s, .noResource)
    else (takeGrant n w s, .success)
  else if 32768 ≤ waiterCount s then (s, .noResource)
  else
    (updMicro w.ctx w.micro (fun q => { q with waits := q.waits + 1 })
      (updObj n (fun o => { o with waiters := o.waiters ++ [w] }) s), .success)

/-- One SYNC descriptor of a micro-step, applied (R430, R431). -/
def applyDesc (c m : Nat) (d : SyncDesc) (s : State) : State × Status × List BarrierSend :=
  let o := objOf s d.object
  if o.type = 0 || o.part ≠ (ctxOf s c).part then (s, .badField, [])
  else if o.orphaned then (s, .ownerLost, [])
  else if opType d.op ≠ o.type || d.op = 2 || d.op = 9 then (s, .notPermitted, [])
  else if d.op = 0x22 then
    let (s, st, l) := applyNow 0x20 d.object d.amount c s
    if st ≠ .success then (s, st, l) else
    let (s, st) := enqueueWait d.object { ctx := c, op := d.op, micro := m, arg := o.phase } s
    (s, st, l)
  else if !opWaits d.op then applyNow d.op d.object d.amount c s
  else if d.op = 0x18 && o.holder = c then (s, .notPermitted, [])
  else if d.op = 0x21 then
    match holdingOf s c d.object with
    | none => (s, .notOwner, [])
    | some ph =>
      let (s, st) := enqueueWait d.object { ctx := c, op := d.op, micro := m, arg := ph } s
      (s, st, [])
  else
    let (s, st) := enqueueWait d.object { ctx := c, op := d.op, micro := m, arg := d.amount } s
    (s, st, [])

/-- A list in order: the first status other than SUCCESS ends it (R431). -/
def applyList (c m : Nat) : List SyncDesc → State → State × Status × List BarrierSend
  | [], s => (s, .success, [])
  | d :: r, s =>
    let (s, st, l) := applyDesc c m d s
    if st ≠ .success then (s, st, l) else
    let (s, st, l') := applyList c m r s
    (s, st, l ++ l')

/-- A list in ascending logical unit, then program position (R431 step 2). -/
def listOrder (l : List SyncDesc) : List SyncDesc :=
  sortBy (fun a b => a.unit < b.unit || (a.unit = b.unit && a.position < b.position)) l

end Sys2Proof.Machine
end

