-- ==== Sys2Proof/Machine/Time.lean ====
section
/-!
DEFINITION. The timebase of chapter 02: corrected time, NR time, the servo, the commands of class 0x03
and the reads of its window. A Noon comparator fires in Machine/Noon.lean.
-/
namespace Sys2Proof.Machine

/-! ### Corrected time (R51, R52) -/

def m64 : Nat := 2 ^ 64
def m40 : Nat := 2 ^ 40

/-- x of R51: the offset fraction plus what the rate has added since the anchor. -/
def rateTerm (t : Timebase) (f : Nat) : Int := t.ofsFrac + t.rate * ((f + m64 - t.anchor) % m64 : Nat)

/-- Corrected time at free tick f (R51). -/
def corrected (t : Timebase) (f : Nat) : Nat :=
  ((f + t.ofsInt + rateTerm t f / (m40 : Nat)) % (m64 : Nat)).toNat

/-- Corrected time now. -/
def corrNow (s : State) : Nat := corrected s.tmb s.tmb.free

/-- A value as a signed 64-bit number. -/
def wrap64 (v : Int) : Int :=
  let w := v % (m64 : Nat)
  if w < (2 ^ 63 : Nat) then w else w - (m64 : Nat)

/-- A parameter update at free tick u: the old parameters fold into the offset, then the new rate holds
(R52). -/
def foldRate (u : Nat) (rate : Int) (t : Timebase) : Timebase :=
  let x := rateTerm t u
  { t with ofsInt := wrap64 (t.ofsInt + x / (m40 : Nat)), ofsFrac := (x % (m40 : Nat)).toNat,
           anchor := u, rate := rate }

/-- The first free tick at or after `now` at which corrected time reaches L, under the present
parameters (R197, R203). -/
def freeAt (t : Timebase) (now L : Nat) : Nat :=
  let num : Int := ((L : Int) - t.ofsInt) * (m40 : Nat) - t.ofsFrac + t.rate * t.anchor
  let den : Int := (m40 : Nat) + t.rate
  max now ((-((-num) / den)).toNat)

/-- Clamps to ±lim (R53). -/
def clampTo (lim : Nat) (v : Int) : Int := max (-(lim : Int)) (min lim v)

/-! ### NR time (R67, R68) -/

/-- Symbols per 0.5 ms, symbol S and first symbol L of a numerology (R68). -/
def symLayout (mu : Nat) (ecp : Bool) : Nat × Nat × Nat :=
  if mu = 0 then (7, 140288, 141312)
  else if mu = 1 then (14, 70144, 71168)
  else if mu = 2 then (if ecp then (24, 40960, 40960) else (28, 35072, 36096))
  else (56, 17536, 18560)

/-- Symbols in a slot. -/
def symsPerSlot (ecp : Bool) : Nat := if ecp then 12 else 14

/-- Slots per frame (R68). -/
def slotsPerFrame (mu : Nat) : Nat := 10 * 2 ^ mu

/-- The NR fields derived from corrected time (R67, R68). -/
structure NrTime where
  frames : Nat := 0
  sfn : Nat := 0
  hfn : Nat := 0
  subframe : Nat := 0
  slot : Nat := 0
  symbol : Nat := 0
  symTick : Nat := 0
  deriving DecidableEq, Repr

/-- The NR fields of corrected time c; all 0 before the frame offset (R67). -/
def nrTime (w : TimeWindow) (c : Nat) : NrTime :=
  if c < w.frameOfs then {} else
  let t := c - w.frameOfs
  let frames := t / 19660800
  let r := t % 19660800
  let (h, sLen, lLen) := symLayout w.reportMu w.ecp
  let q := r / 983040
  let x := r % 983040
  let lp := if x < lLen then 0 else 1 + (x - lLen) / sLen
  let st := if x < lLen then x else (x - lLen) % sLen
  let fr := q * h + lp
  { frames := frames, sfn := frames % 1024, hfn := frames / 1024 % 1024, subframe := r / 1966080,
    slot := fr / symsPerSlot w.ecp, symbol := fr % symsPerSlot w.ecp, symTick := st }

/-- The +0x018 word of the timebase window (R65). -/
def nrWord (n : NrTime) : Nat :=
  n.sfn + n.hfn * 2 ^ 10 + n.subframe * 2 ^ 20 + n.slot * 2 ^ 24 + n.symbol * 2 ^ 31
    + n.symTick * 2 ^ 35

/-- The corrected tick at which absolute slot n starts (R192). -/
def slotStart (frameOfs mu : Nat) (ecp : Bool) (n : Nat) : Nat :=
  if mu = 0 then frameOfs + 1966080 * n
  else
    let k := 2 ^ (mu - 1)
    let (_, sLen, lLen) := symLayout mu ecp
    let j := n % k
    let inHalf := if j = 0 then 0 else lLen + (symsPerSlot ecp * j - 1) * sLen
    frameOfs + 983040 * (n / k) + inHalf

/-- The absolute slot that holds corrected tick c, or 0 before slot 0. -/
def slotAt (frameOfs mu : Nat) (ecp : Bool) (c : Nat) : Nat :=
  if c < frameOfs then 0
  else
    let t := c - frameOfs
    if mu = 0 then t / 1966080
    else
      let k := 2 ^ (mu - 1)
      let base := k * (t / 983040)
      let inSlot := (List.range k).filter (fun j => slotStart frameOfs mu ecp (base + j) ≤ c)
      base + (inSlot.length - 1)

/-! ### Whether radio or Noon holds the timebase (R53) -/

/-- A radio frame table runs. The background table is no frame table in this sense (assumption 8). -/
def anyTableRuns (s : State) : Bool :=
  s.tts.tables.any (fun t => t.1 < 8 && (t.2.state == .running || t.2.state == .stopping))

/-- A Noon arming is pending. -/
def anyNoonPending (s : State) : Bool := s.noon.any (fun n => n.2.state == .pending)

/-! ### The servo (R55 to R59) -/

def servoCode : ServoState → Nat | .freerun => 0 | .acquire => 1 | .locked => 2 | .holdover => 3

def updTmb (f : Timebase → Timebase) (s : State) : State := s.setTmb (f s.tmb)
def updPps (f : Pps → Pps) (s : State) : State := s.setPps (f s.pps)

/-- A transition to a servo state, which posts SERVO_STATE (R57, R80); one from FREERUN to FREERUN too, by the row for TIME_SOURCE. Entering HOLDOVER
holds the rate at the clamped negative integral; the first LOCKED after Dawn is the fabric start (R522). -/
def servoTo (new : ServoState) (s : State) : State :=
  let old := s.tmb.state
  let s := updTmb (fun t => { t with state := new }) s
  let s := if new = .holdover then
      updTmb (fun t => { foldRate t.free (clampTo t.act.rateLimit (-t.integ)) t with
                         holdEntry := t.free }) s
    else if new = .locked && !s.fab.started then s.setFab { s.fab with start := corrNow s, started := true }
    else s
  post { code := 0x0301, detail := leBytes 1 (servoCode old) ++ leBytes 1 (servoCode new)
           ++ List.replicate 6 0 ++ leInt 8 s.tmb.err } s

/-- Saturates to ±(2^31 - 1). -/
def sat32 (v : Int) : Int := clampTo (2 ^ 31 - 1) v

/-- The rate update of R56. -/
def servoRate (e : Int) (t : Timebase) : Timebase :=
  let p := (t.act.kp : Int) * e / (2 ^ 32 : Nat)
  let integ := sat32 (t.integ + (t.act.ki : Int) * e / (2 ^ 32 : Nat))
  { foldRate t.free (clampTo t.act.rateLimit (-(p + integ))) t with integ := integ }

/-- The acquisition step of R58. -/
def servoStep (e : Int) (t : Timebase) : Timebase :=
  { t with ofsInt := wrap64 (t.ofsInt - (e + 32768) / 65536) }

/-- The transition, if any, that an accepted input makes (R57). -/
def servoTransition (e : Int) (s : State) : State :=
  let within := e.natAbs ≤ s.tmb.act.lockThresh * 65536
  let unlock := s.tmb.act.unlockThresh * 65536 < e.natAbs
  let run := if s.tmb.state = .freerun then 0 else s.tmb.lockRun
  let s := updTmb (fun t => { t with lockRun := if within then min 255 (run + 1) else 0 }) s
  let toLocked := fun s => if s.tmb.lockRun ≥ s.tmb.act.lockCount then servoTo .locked s else s
  match s.tmb.state with
  | .freerun => toLocked (servoTo .acquire s)
  | .acquire => toLocked s
  | .locked => if unlock then servoTo .acquire s else s
  | .holdover => if unlock then servoTo .acquire s else servoTo .locked s

/-- A servo input (e, m) from the selected source (R55 to R58): discarded and counted, or accepted. With
source 0 there is no input (R60). -/
def servoInput (e : Int) (m : Tick) (s : State) : State :=
  if s.tmb.source = .none then s
  else if (s.tmb.lastM.map (fun l => decide (m ≤ l))).getD false || m + 245760000 < s.tmb.free
      || 2 ^ 47 ≤ e.natAbs then
    updPps (fun p => { p with discards := ctrInc p.discards }) s
  else
    let s := updTmb (fun t => { t with act := t.cfg, lastM := some m, lastArr := t.free, err := e }) s
    let s := servoTransition e s
    if s.tmb.state = .acquire && 1966080 * 65536 < e.natAbs && !anyTableRuns s && !anyNoonPending s then
      updTmb (servoStep e) s
    else updTmb (servoRate e) s

def execServoInput (e : Int) (m : Tick) (s : State) : Host.Outcome State Fault Refusal :=
  run true "" (servoInput e m s)

/-- LOCKED with no input accepted for holdover_start ms goes to HOLDOVER (R57). -/
def holdoverStart (s : State) : State :=
  if s.tmb.state = .locked && s.tmb.lastArr + s.tmb.act.holdoverStart * 1966080 ≤ s.tmb.free then
    servoTo .holdover s
  else s

def execHoldoverStart (s : State) : Host.Outcome State Fault Refusal := run true "" (holdoverStart s)

/-- HOLDOVER ends in FREERUN after holdover_limit s, if that is not 0 (R57). -/
def holdoverLimit (s : State) : State :=
  if s.tmb.state = .holdover && s.tmb.act.holdoverLimit ≠ 0
      && s.tmb.holdEntry + s.tmb.act.holdoverLimit * 1966080000 ≤ s.tmb.free then
    servoTo .freerun s
  else s

def execHoldoverLimit (s : State) : Host.Outcome State Fault Refusal := run true "" (holdoverLimit s)

/-- The reference input fails: the PLL holds, ref_lost is set, REF_LOST is posted with its health
weight (R50, R467). -/
def refLost (s : State) : State :=
  if s.tmb.refLost then s
  else healthAdd 50 (post { code := 0x0304, detail := leBytes 1 1 }
    (updTmb (fun t => { t with refLost := true }) s))

def execRefLost (s : State) : Host.Outcome State Fault Refusal := run true "" (refLost s)

/-! ### PPS (R63, R64) -/

/-- A second in Tc. -/
def second : Nat := 1966080000

/-- The whole GPS second nearest c, the later one when halfway (R63). -/
def nearestSecond (c : Nat) : Nat := (c + second / 2) / second * second

/-- A rising edge on PPS_IN: both captures; with source 2 it ends the count of missed edges and makes a
servo input (R63). -/
def ppsInEdge (s : State) : State :=
  let f := s.tmb.free
  let c := corrNow s
  let s := updPps (fun p => { p with inFree := f, inCorr := c }) s
  if s.tmb.source ≠ .ppsIn then s
  else servoInput (((c : Int) - nearestSecond c) * 65536) f
    (updPps (fun p => { p with lastEdge := f, missedSince := 0 }) s)

def execPpsInEdge (s : State) : Host.Outcome State Fault Refusal := run true "" (ppsInEdge s)

/-- One missed edge is counted when 1.1 s have passed since the last edge or the selection of source 2,
and one at each further second (R63). -/
def ppsMissed (s : State) : State :=
  if s.tmb.source ≠ .ppsIn
      || s.tmb.free < s.pps.lastEdge + 2162688000 + s.pps.missedSince * second then s
  else updPps (fun p => { p with missed := ctrInc p.missed, missedSince := p.missedSince + 1 }) s

def execPpsMissed (s : State) : Host.Outcome State Fault Refusal := run true "" (ppsMissed s)

/-- The whole second whose PPS_OUT edge is due: the largest N with C ≥ N × 1 s + delay (R64). -/
def ppsDue (s : State) : Option Nat :=
  let t := (corrNow s : Int) - s.pps.outDelay
  if t < 0 then none else some (t / (second : Nat)).toNat

/-- PPS_OUT rises for the second that is due, once (R64). -/
def ppsOutRise (s : State) : State :=
  match ppsDue s with
  | none => s
  | some n =>
    if !s.pps.outEn || (s.pps.outDone.map (fun d => decide (n ≤ d))).getD false then s
    else emit (.ppsOut true)
      (updPps (fun p => { p with outHigh := true, outRise := s.tmb.free, outDone := some n }) s)

def execPpsOutRise (s : State) : Host.Outcome State Fault Refusal := run true "" (ppsOutRise s)

/-- PPS_OUT falls pps_width_ms after it rose (R64). -/
def ppsOutFall (s : State) : State :=
  if s.pps.outHigh && s.pps.outRise + s.pps.widthMs * 1966080 ≤ s.tmb.free then
    emit (.ppsOut false) (updPps (fun p => { p with outHigh := false }) s)
  else s

def execPpsOutFall (s : State) : Host.Outcome State Fault Refusal := run true "" (ppsOutFall s)

/-! ### The window (R65, R66) -/

/-- Latches a snapshot: free, C and the NR fields of one tick (R66). -/
def snapshot (s : State) : State :=
  let c := corrNow s
  s.setWin { s.win with snapFree := s.tmb.free, snapCorr := c, snapNr := nrWord (nrTime s.win c) }

/-- A signed number in `n` bits. -/
def toBits (n : Nat) (v : Int) : Nat := (v % (2 ^ n : Nat)).toNat

def srcCode : TimeSrc → Nat | .none => 0 | .ptp => 1 | .ppsIn => 2
def noonStateCode : NoonState → Nat | .free => 0 | .pending => 1 | .fired => 2

/-- The +0x108 word of a comparator (R65). -/
def noonWord (n : Noon) : Nat :=
  n.id + n.part * 2 ^ 16 + n.action * 2 ^ 24 + noonStateCode n.state * 2 ^ 32

/-- The 64-bit register at offset `o` (a multiple of 8) of the timebase window (R65). -/
def timeReg (s : State) (o : Nat) : Nat :=
  let t := s.tmb
  let w := s.win
  let p := s.pps
  if o = 0x000 then t.free
  else if o = 0x008 then corrNow s
  else if o = 0x010 then w.snapCorr
  else if o = 0x018 then w.snapNr
  else if o = 0x020 then toBits 64 t.ofsInt
  else if o = 0x028 then t.ofsFrac
  else if o = 0x030 then toBits 32 t.rate
  else if o = 0x038 then t.anchor
  else if o = 0x040 then servoCode t.state + srcCode t.source * 4 + t.lockRun * 16
    + b2n t.refLost * 4096 + toBits 32 t.integ * 2 ^ 32
  else if o = 0x048 then toBits 48 t.err
  else if o = 0x050 then t.cfg.kp + t.cfg.ki * 2 ^ 32
  else if o = 0x058 then t.cfg.rateLimit + t.cfg.lockThresh * 2 ^ 32 + t.cfg.lockCount * 2 ^ 48
  else if o = 0x060 then t.cfg.unlockThresh + t.cfg.holdoverStart * 2 ^ 32 + t.cfg.holdoverLimit * 2 ^ 48
  else if o = 0x068 then w.frameOfs + w.reportMu * 2 ^ 25 + b2n w.ecp * 2 ^ 27 + b2n p.outEn * 2 ^ 28
    + p.widthMs * 2 ^ 29 + toBits 22 p.outDelay * 2 ^ 40
  else if o = 0x070 then p.inFree
  else if o = 0x078 then p.inCorr
  else if o = 0x080 then ctrWord p.discards
  else if o = 0x088 then ctrWord p.missed
  else if 0x100 ≤ o && o < 0x200 then
    let n := tabGet s.noon ((o - 0x100) / 0x10) {}
    if o % 0x10 = 0 then n.tick else noonWord n
  else 0

/-- A read of free: a 64-bit read, or a 32-bit read of its low half, which also latches its high half.
Both latch a snapshot (R66). -/
def freeRead (low : Bool) (s : State) : State :=
  let s := snapshot s
  if low then s.setWin { s.win with highs := tabPut s.win.highs 0 (hi32 s.tmb.free) } else s

def execFreeRead (low : Bool) (s : State) : Host.Outcome State Fault Refusal :=
  run true "" (freeRead low s)

/-- A 32-bit read of the low half of a 64-bit register latches its high half (R66); that of free also
latches a snapshot. -/
def lowHalfRead (o : Nat) (s : State) : State :=
  if o = 0 then freeRead true s
  else s.setWin { s.win with highs := tabPut s.win.highs o (hi32 (timeReg s o)) }

def execLowHalfRead (offset : Nat) (s : State) : Host.Outcome State Fault Refusal :=
  run (offset % 8 = 0 && offset < 0x100000) "timebase offset" (lowHalfRead offset s)

/-! ### Class 0x03 (R78, R79) -/

def timeReadBody (_ : Req) (s : State) : State × Reply :=
  let s := snapshot s
  (s, { payload := leBytes 8 s.win.snapFree ++ leBytes 8 s.win.snapCorr ++ leBytes 8 s.win.snapNr
          ++ leBytes 1 (servoCode s.tmb.state) })

def execTimeRead (m : Nat) (s : State) : Host.Outcome State Fault Refusal :=
  run (m < 80) "mailbox" (runCommand 0x0300 m timeReadBody s)

/-- TIME_SERVO_CONFIG (R78, R79). -/
def servoConfigBody (q : Req) (s : State) : State × Reply :=
  let c : ServoCfg := { kp := pl q 0 4, ki := pl q 4 4, rateLimit := pl q 8 4, lockThresh := pl q 12 2,
                        lockCount := pl q 14 1, unlockThresh := pl q 16 4, holdoverStart := pl q 20 2,
                        holdoverLimit := pl q 22 2 }
  if c.rateLimit = 0 || c.lockCount = 0 || (c.kp = 0 && c.ki = 0) then failed .zeroNotAllowed s
  else if 2 ^ 31 - 1 < c.rateLimit || c.unlockThresh < c.lockThresh then failed .badField s
  else (updTmb (fun t => { t with cfg := c, lockRun := 0 }) s, reply .success)

def execTimeServoConfig (m : Nat) (s : State) : Host.Outcome State Fault Refusal :=
  run (m < 80) "mailbox" (runCommand 0x0301 m servoConfigBody s)

/-- TIME_SOURCE (R59, R79): integ and lock_run to 0, the rate kept by a parameter update (R52), FREERUN. What the PTP ports
have learnt is forgotten (assumption 149). -/
def timeSourceBody (q : Req) (s : State) : State × Reply :=
  let src := pl q 0 1
  let domain := pl q 1 1
  let mask := pl q 2 1
  if 2 < src || (src = 1 && (domain < 24 || 43 < domain || mask = 0)) then failed .badField s
  else
    let kind : TimeSrc := if src = 1 then .ptp else if src = 2 then .ppsIn else .none
    let s := updTmb (fun t => { foldRate t.free t.rate t with integ := 0, lockRun := 0,
                                                              source := kind }) s
    let s := updPps (fun p => { p with lastEdge := s.tmb.free, missedSince := 0,
                                       domain := if src = 1 then domain else p.domain,
                                       portMask := if src = 1 then mask else p.portMask,
                                       ports := [] }) s
    (servoTo .freerun s, reply .success)

def execTimeSource (m : Nat) (s : State) : Host.Outcome State Fault Refusal :=
  run (m < 80) "mailbox" (runCommand 0x0302 m timeSourceBody s)

/-- TIME_STEP (R53, R78, R79). -/
def timeStepBody (q : Req) (s : State) : State × Reply :=
  if anyTableRuns s || anyNoonPending s then failed .notPermitted s
  else (updTmb (fun t => { t with ofsInt := wrap64 (t.ofsInt + fieldInt q.cmd.payload 0 8) }) s,
        reply .success)

def execTimeStep (m : Nat) (s : State) : Host.Outcome State Fault Refusal :=
  run (m < 80) "mailbox" (runCommand 0x0303 m timeStepBody s)

/-- FRAME_CONFIG (R69, R79). -/
def frameConfigBody (q : Req) (s : State) : State × Reply :=
  let ofs := pl q 0 4
  let mu := pl q 4 1
  let ecp := pl q 5 1
  if anyTableRuns s then failed .notPermitted s
  else if 19660799 < ofs || 3 < mu || 1 < ecp || (ecp = 1 && mu ≠ 2) then failed .badField s
  else ((s.setWin { s.win with frameOfs := ofs, reportMu := mu, ecp := ecp = 1 }), reply .success)

def execFrameConfig (m : Nat) (s : State) : Host.Outcome State Fault Refusal :=
  run (m < 80) "mailbox" (runCommand 0x0304 m frameConfigBody s)

/-- PPS_CONFIG (R64, R79). -/
def ppsConfigBody (q : Req) (s : State) : State × Reply :=
  let delay := fieldInt q.cmd.payload 4 4
  if pl q 1 1 = 0 then failed .zeroNotAllowed s
  else if 1 < pl q 0 1 || 200 < pl q 1 1 || 1966080 < delay.natAbs then failed .badField s
  else
    let s := updPps (fun p => { p with outEn := pl q 0 1 = 1, widthMs := pl q 1 1, outDelay := delay }) s
    (updPps (fun p => { p with outDone := ppsDue s }) s, reply .success)

def execPpsConfig (m : Nat) (s : State) : Host.Outcome State Fault Refusal :=
  run (m < 80) "mailbox" (runCommand 0x0307 m ppsConfigBody s)

/-- NOON_LIST: sixteen records of 24 bytes (R78). -/
def noonListBody (_ : Req) (s : State) : State × Reply :=
  (s, { payload := (List.range 16).flatMap (fun k =>
    let n := tabGet s.noon k {}
    leBytes 8 n.tick ++ leBytes 8 (noonWord n) ++ List.replicate 8 0) })

def execNoonList (m : Nat) (s : State) : Host.Outcome State Fault Refusal :=
  run (m < 80) "mailbox" (runCommand 0x0308 m noonListBody s)

end Sys2Proof.Machine
end

