-- ==== Sys2Proof/Machine/TableOps.lean ====
section
/-!
DEFINITION. The shared operations of the time-table sequencer (chapter 07): tables and their reservations, Dusk lines,
the lend scheduler, the stopping of stages and lent work, slot reports.
-/
namespace Sys2Proof.Machine

/-! ### Tables and slots (R191 to R194) -/

/-- Table k; EMPTY where nothing is listed. -/
def tableOf (s : State) (k : Nat) : FrameTable := tabGet s.tts.tables k {}

/-- Changes a table. -/
def updTable (k : Nat) (f : FrameTable → FrameTable) (s : State) : State :=
  updTts (fun t => { t with tables := tabUpd t.tables k {} f }) s

/-- Start of slot n of a table; the slot at the corrected time now; the start of n in free ticks. -/
def tStart (s : State) (t : FrameTable) (n : Nat) : Nat := slotStart s.win.frameOfs t.mu t.ecp n
def curSlot (s : State) (t : FrameTable) : Nat := slotAt s.win.frameOfs t.mu t.ecp (corrNow s)

/-- The instance of slot n, if its ring position holds it. -/
def instAt (t : FrameTable) (n : Nat) : Option Inst := (tabFind? t.insts (n % 8)).filter (fun i => i.slot = n)

/-- Changes the instance of slot n. -/
def updInst (k n : Nat) (f : Inst → Inst) (s : State) : State :=
  updTable k (fun t => match instAt t n with
    | some i => { t with insts := tabPut t.insts (n % 8) (f i) }
    | none => t) s

/-- Whether an entry reserves anything (R194). -/
def reserves (e : TEntry) : Bool := e.budget ≠ 0 && e.unitCount ≠ 0

/-- The units of an entry. -/
def entryUnits (e : TEntry) : List Nat := (List.range e.unitCount).map (fun i => e.unitBase + i)

/-- The code of a table state (R219). -/
def tableCode : TableState → Nat
  | .empty => 0 | .loaded => 1 | .armed => 2 | .running => 3 | .stopping => 4

/-- A transition with its TABLE_STATE and the slot start it names (R219, R225). -/
def tableTo (k : Nat) (new : TableState) (start : Nat) (s : State) : State :=
  let old := (tableOf s k).state
  if old = new then s else
  post { code := 0x0440, part := (tableOf s k).part,
         detail := leBytes 1 (tableCode old) ++ leBytes 1 (tableCode new) ++ leBytes 2 0 ++ leBytes 8 start }
    (updTable k (fun t => { t with state := new }) s)

/-- The table of a radio partition. -/
def partTable (s : State) (p : Nat) : Option Nat :=
  if (partOf s p).radio then some (partOf s p).radioSlot else none

/-! ### Sealed reservations (R195, R203) -/

/-- A sealed entry as the sequencer sees it. -/
structure Sealed where
  table : Nat
  slot : Nat
  pos : Nat
  entry : TEntry
  tick : Nat
  deriving DecidableEq, Repr

/-- The reserving entries of an instance. -/
def instSealed (s : State) (k : Nat) (t : FrameTable) (i : Inst) : List Sealed :=
  (List.range i.entries.length).filterMap (fun p =>
    let e := i.entries.getD p {}
    if reserves e then some { table := k, slot := i.slot, pos := p, entry := e, tick := tStart s t i.slot + e.launchOfs }
    else none)

/-- The highest slot with a sealed instance (R224). -/
def sealedThrough (t : FrameTable) : Nat := ((t.insts.filter (fun i => i.2.sealed)).map (fun i => i.2.slot)).foldl max 0

/-- Whether a table's instances count as reservations: those of a table armed, running, or stopping, but not of slots it will
not run (R195, R204). -/
def slotCounts (s : State) (t : FrameTable) (n : Nat) : Bool :=
  t.state = .armed || t.state = .running || (t.state = .stopping && tStart s t n < t.stopSlot)

/-- Every sealed entry of every table. -/
def allSealed (s : State) : List Sealed :=
  s.tts.tables.flatMap (fun p => (p.2.insts.filter (fun i => slotCounts s p.2 i.2.slot)).flatMap
    (fun i => instSealed s p.1 p.2 i.2))

/-- The sealed entries not yet launched. -/
def futureSealed (s : State) : List Sealed :=
  s.tts.tables.flatMap (fun p => (p.2.insts.filter (fun i => slotCounts s p.2 i.2.slot)).flatMap
    (fun i => (instSealed s p.1 p.2 i.2).filter (fun x => !i.2.gone.contains x.pos)))

/-- Whether two half-open reservations meet. -/
def meets (a la b lb : Nat) : Bool := a < b + lb && b < a + la

/-- The kind of the units of an entry: all of one kind, existing, none a coding engine (R194). -/
def unitsOk (g : Grade) (e : TEntry) : Bool :=
  (entryUnits e).all (fun u => unitExists g u && unitKind u = unitKind e.unitBase && unitKind u < 4)

/-- Fields of an entry by R194. -/
def fieldsOk (k : Nat) (g : Grade) (e : TEntry) : Bool :=
  unitsOk g e && e.unitCount ≤ 63 && e.launchOfs < 2 ^ 24 && e.budget < 2 ^ 24 && e.deadlineOfs < 2 ^ 24
    && (if k = 8 then e.kind = 1 else e.kind ≤ 1)
    && (e.kind = 0 || (e.program = 0 && e.param = 0 && e.cell = 0 && !isEndpoint e.unitBase))
    && e.program ≤ 255 && e.param < 65536 && e.cell ≤ 255

/-- The checks of R195 on an instance of slot n of table k against other sealed entries: 0, or the reason. -/
def sealReason (s : State) (k : Nat) (t : FrameTable) (i : Inst) (others : List Sealed) : Nat :=
  let mine := instSealed s k t i
  let horizon := 4 * 1966080 / 2 ^ t.mu
  let clash := fun (a b : Sealed) => meets a.tick a.entry.budget b.tick b.entry.budget
    && (entryUnits a.entry).any (fun u => (entryUnits b.entry).contains u)
  let crowd := fun (a : Sealed) => ((mine ++ others).filter (fun b => b.tick = a.tick)).length
  if i.entries.any (fun e => e.kind = 0 && e.deadlineOfs < e.launchOfs + e.budget) then 2
  else if i.entries.any (fun e => horizon < e.launchOfs + e.budget) then 3
  else if mine.any (fun a => others.any (clash a) || mine.any (fun b => b.pos ≠ a.pos && clash a b)) then 4
  else if mine.any (fun a => 64 < crowd a) then 5
  else if i.entries.any (fun e => !fieldsOk k s.grade e) || 2048 < i.entries.length then 6
  else 0

/-- Posts SLOT_UNFILLED (R225). -/
def slotUnfilled (k n reason : Nat) (s : State) : State :=
  let t := tableOf s k
  post { code := 0x0441, part := t.part, detail := leBytes 1 reason ++ leBytes 3 0 ++ leBytes 8 (tStart s t n) } s

/-- Slot n runs the idle instance (R195). -/
def fillIdle (k n reason : Nat) (s : State) : State :=
  slotUnfilled k n reason (updTable k (fun t =>
    { t with insts := tabPut t.insts (n % 8) { slot := n, start := tStart s t n, entries := t.idleEntries, idle := true } }) s)

/-! ### Live reservations -/

/-- The live reservation of a unit at the present tick. -/
def resvOn (s : State) (u : Nat) : Option Reservation :=
  s.tts.resv.find? (fun r => (entryUnits r.entry).contains u && s.tmb.free < r.finish)

/-- The reservation of an entry. -/
def resvOf (s : State) (k n p : Nat) : Option Reservation :=
  s.tts.resv.find? (fun r => r.table = k && r.slot = n && r.pos = p)

/-- Changes the reservation of an entry. -/
def updResv (k n p : Nat) (f : Reservation → Reservation) (s : State) : State :=
  updTts (fun t => { t with resv := t.resv.map (fun r => if r.table = k && r.slot = n && r.pos = p then f r else r) }) s

/-- Whether marks of a slot and cell are set in either direction. -/
def marked (s : State) (k n cell : Nat) : Bool := s.cde.marks.any (fun m => m.1 = k && m.2.1 = n && m.2.2.1 = cell)

/-- Marks a slot and cell failed (R290). The direction is the stage program's, which comes as a free value
(assumption 12); the marks of the last sixteen slots of a table are kept. -/
def markFailed (k n cell : Nat) (s : State) : State :=
  let (d, s) := drawFree s
  let m : Nat × Nat × Nat × Bool := (k, n, cell, d % 2 == 1)
  let keep := s.cde.marks.filter (fun x => x.1 ≠ k || n < x.2.1 + 16)
  s.setCde { s.cde with marks := if keep.contains m then keep else keep ++ [m] }

/-- A stage fails by itself: its units stop, its cause is kept and its outputs are marked (R99, R200, R290). -/
def failStage (k n p cause unit : Nat) (s : State) : State :=
  match resvOf s k n p with
  | none => s
  | some r =>
    if r.cause ≠ 0 then s else
    let pos := unitPosition s unit
    let s := updResv k n p (fun r => { r with cause := cause, position := pos, ended := r.ended.orElse (fun _ => some s.tmb.free) }) s
    markFailed k n r.entry.cell (clearUnits (entryUnits r.entry) s)

/-! ### Dusk lines and the horizon (R203 to R205) -/

/-- The drift guard (R205). -/
def guardOf (s : State) (b : Nat) : Nat := (b * s.tmb.act.rateLimit + m40 - 1) / m40 + 1

/-- The instant, as predicted now, of the next sealed reservation on a unit. -/
def nextReserved (s : State) (u : Nat) : Option Nat :=
  (((futureSealed s).filter (fun x => (entryUnits x.entry).contains u)).map
    (fun x => freeAt s.tmb s.tmb.free x.tick)).min?

/-- The slot start, in free ticks, at which the horizon of one table lies: its first slot without an instance. -/
def tableHorizon (s : State) (t : FrameTable) (first : Nat) : Option Nat :=
  ((List.range 9).map (fun i => first + i)).find? (fun n => (instAt t n).isNone)
    |>.map (fun n => freeAt s.tmb s.tmb.free (tStart s t n))

/-- The known horizon H (R204). -/
def horizon (s : State) : Option Nat :=
  (s.tts.tables.filterMap (fun p =>
    if 8 ≤ p.1 then none
    else if p.2.state = .running then tableHorizon s p.2 (max p.2.n0 (curSlot s p.2))
    else if p.2.state = .armed then tableHorizon s p.2 p.2.n0
    else none)).min?

/-- The least of two bounds, none being no bound. -/
def leastOf : Option Nat → Option Nat → Option Nat
  | some a, some b => some (min a b)
  | some a, none => some a
  | none, b => b

/-- The Dusk line of a unit; inside a background window, that window's end less the margin (R203, R217). -/
def unitDusk (s : State) (u : Nat) : Option Nat :=
  match resvOn s u with
  | some r => some (r.finish - s.tts.duskMargin)
  | none => (nextReserved s u).map (fun f => f - s.tts.duskMargin)

/-- D(m, t) over a unit set (R207): none where nothing bounds it. -/
def duskOf (s : State) (us : List Nat) : Option Nat :=
  us.foldl (fun d u => leastOf d (unitDusk s u)) ((horizon s).map (fun h => h - s.tts.duskMargin))

/-- Whether a unit's time now is lendable: no reservation, before its Dusk line and the horizon's (R7, R203). -/
def lendableNow (s : State) (u : Nat) : Bool :=
  (resvOn s u).isNone && (match duskOf s [u] with
    | none => true
    | some d => s.tmb.free < d)

/-! ### The lend scheduler (R206 to R212) -/

/-- Items of background work that are due on a unit (chapter 17); the scan order is the firmware's. -/
def bgBound : BgItem → Nat
  | .arrayScrub => 2500 | .tileScrub => 600 | .dramScrub => 2500 | .codingScrub => 600 | .generatorCheck => 400
  | .datapathCheck => 3000 | .ageing => 3500

/-- The granules of a pass of a scrub item on a unit (R494). -/
def passGranules (g : Grade) : BgItem → Nat
  | .arrayScrub => 48 | .tileScrub => 64 | .dramScrub => 8192 | .codingScrub => 384 / (4 * gradeArrays g) | _ => 0

/-- Whether a unit runs an item. -/
def bgRunsOn (u : Nat) : BgItem → Bool
  | .arrayScrub => isQuad u
  | .tileScrub => isTile u
  | .dramScrub => isMover u
  | .codingScrub => isMover u
  | .generatorCheck => isQuad u || isTile u
  | .datapathCheck => isQuad u || isTile u
  | .ageing => isQuad u && u % 4 = 0

def bgIndex : BgItem → Nat
  | .arrayScrub => 0 | .tileScrub => 1 | .dramScrub => 2 | .codingScrub => 3 | .generatorCheck => 4
  | .datapathCheck => 5 | .ageing => 6

/-- The key of an item on a unit. -/
def bgKey (u : Nat) (i : BgItem) : Nat := u * 8 + bgIndex i

/-- 12 h and 30 min in ticks. -/
def halfDay : Nat := 43200 * 1966080000
def halfHour : Nat := 1800 * 1966080000

/-- Whether an item is due on a unit (R495). -/
def bgDue (s : State) (u : Nat) (i : BgItem) : Bool :=
  let k := bgKey u i
  let g := passGranules s.grade i
  if g = 0 then halfHour ≤ s.tmb.free - tabGet s.bg.checkDone k 0
  else tabGet s.bg.passDone k 0 * halfDay < (s.tmb.free - tabGet s.bg.passStart k 0) * g

def allItems : List BgItem :=
  [.arrayScrub, .tileScrub, .dramScrub, .codingScrub, .generatorCheck, .datapathCheck, .ageing]

/-- Whether a due item is ready for a unit in its window (R217). -/
def dueReady (s : State) (u : Nat) : Bool :=
  match resvOn s u with
  | some r => allItems.any (fun i => bgRunsOn u i && bgDue s u i && s.tmb.free + bgBound i ≤ r.finish)
  | none => false

/-- A unit is free for lent work: in service, idle, and outside every reservation but a background window with no due
item ready (R207, R217). -/
def freeForLent (s : State) (u : Nat) : Bool :=
  (unitRun s u).holder = .idle && inService s u && (match resvOn s u with
    | none => true
    | some r => r.entry.kind = 1 && !dueReady s u)

/-- The lent busy ticks of the control period, the running micro-steps' included, over quadrants and tiles (R487). -/
def lentBusyNow (s : State) : Nat :=
  s.tts.lent.foldl (fun n r => n + (r.units.filter (fun u => isQuad u || isTile u)).length
    * (s.tmb.free - max r.launch s.pwr.periodStart)) s.pwr.lentBusy

/-- Whether lending is held (R487, R489): lend_duty, or the lent busy ticks of the control period. -/
def lendHeld (s : State) : Bool :=
  s.pwr.lendDuty = 0
    || s.pwr.lendDuty * 1966080 * (gradeQuads s.grade + gradeTiles s.grade) ≤ lentBusyNow s * 64

/-- Whether a bound with its guard ends by a line that may be absent. -/
def endsBy (t b : Nat) : Option Nat → Bool
  | none => true
  | some d => t + b ≤ d

/-- The effective priority (R209). -/
def effPrio (s : State) (m : ReadyMicro) : Nat := m.prio - (s.tmb.free - m.ready) / s.tts.ageStep

/-- The admission test with given idle units (R207). -/
def admits (s : State) (m : ReadyMicro) : Bool :=
  m.units.all (freeForLent s) && endsBy s.tmb.free (m.bound + guardOf s m.bound) (duskOf s m.units)

/-- The tick t_b of a blocking micro-step (R210): the earliest at which it would be eligible were its units idle: now, or
the end of a live or sealed reservation of its units from which its bound fits. -/
def blockTick (s : State) (m : ReadyMicro) : Option Nat :=
  let need := m.bound + guardOf s m.bound
  let mine := fun (e : TEntry) => (entryUnits e).any (fun u => m.units.contains u)
  let live := (s.tts.resv.filter (fun r => mine r.entry && s.tmb.free < r.finish)).map (fun r => (r.start, r.finish))
  let next := ((futureSealed s).filter (fun x => mine x.entry)).map (fun x =>
    let f := freeAt s.tmb s.tmb.free x.tick
    (f, f + x.entry.budget))
  let all := live ++ next
  let h := (horizon s).map (fun h => h - s.tts.duskMargin)
  let ok := fun t => endsBy t need h && all.all (fun r => r.2 ≤ t || t + need + s.tts.duskMargin ≤ r.1)
  ((s.tmb.free :: all.map (fun r => r.2)).filter ok).min?

/-- Which of two blocking micro-steps blocks first: the older ready tick, of equal ones the lower context, then the lower
micro-step (R210; the order of equal ticks is that of R208, assumption 154). -/
def blocksFirst (a b : ReadyMicro) : Bool := decide ([a.ready, a.ctx, a.micro] < [b.ready, b.ctx, b.micro])

/-- Whether starting m leaves every blocking micro-step that shares a unit its tick (R210). -/
def letsBlock (s : State) (m : ReadyMicro) : Bool :=
  (s.tts.ready.filter (fun b => b.blocking && !(b.ctx = m.ctx && b.micro = m.micro)
      && b.units.any (fun u => m.units.contains u) && !(m.blocking && blocksFirst m b))).all
    (fun b => endsBy s.tmb.free (m.bound + guardOf s m.bound) (blockTick s b))

/-- The choice order (R208): effective priority, slack, ready tick, context, micro-step. -/
def chooseBefore (s : State) (a b : ReadyMicro) : Bool :=
  let slack := fun (m : ReadyMicro) => match duskOf s m.units with
    | none => 2 ^ 64
    | some d => d - (s.tmb.free + m.bound + guardOf s m.bound)
  let ka := [effPrio s a, slack a, a.ready, a.ctx, a.micro]
  let kb := [effPrio s b, slack b, b.ready, b.ctx, b.micro]
  decide (ka < kb)

/-- The context may run lent work: no reset under way, no Twilight (R474). -/
def mayLend (s : State) (m : ReadyMicro) : Bool := !tabHas s.hlt.ctxReset m.ctx && !inPhaseB s && !s.dev.twilight

/-- The micro-step the scheduler launches next, if any (R208). -/
def chooseLent (s : State) : Option ReadyMicro :=
  if lendHeld s then none
  else (sortBy (chooseBefore s) (s.tts.ready.filter (fun m => mayLend s m && admits s m && letsBlock s m))).head?

/-- A tile at a launch (R144, R163): configuration and entry positions from the program's header, all else zero; a write that
its store's port serves goes on. -/
def launchTile (u : Nat) (h : TileHead) (s : State) : State :=
  let sl := (List.range 8).filterMap (fun k =>
    if (if h.fused then k = 0 else bit h.sliceMask k) then some (k, { pos := h.entry.getD k 0 : Slice }) else none)
  s.setTiles (tabPut s.tiles (u - 0x40)
    { fused := h.fused, mask := if h.fused then 255 else h.sliceMask % 256, slices := sl,
      port := (tabGet s.tiles (u - 0x40) {}).port })

/-- Starts program n of an owner on a unit under a holder: its first position, and a tile's registers. A unit out of service
takes no work (R189). -/
def startUnit (h : Holder) (owner param dusk : Nat) (n : Nat) (s : State) (u : Nat) : State :=
  if !inService s u then s else
  let g := programOf s u owner n
  let at_ := if isTile u then g.head.entry.getD 0 0 else g.first
  let s := updUnit u (fun _ => { holder := h, owner := owner, param := param, program := n, position := at_, dusk := dusk }) s
  let s := progress u s
  if isTile u then launchTile u g.head s else s

/-- Whether a unit stands at the end of its program and waits for nothing (R200). -/
def atEnd (s : State) (u : Nat) : Bool :=
  let r := unitRun s u
  let g := programOf s u r.owner r.program
  let slice := fun (k : Nat) => tabGet (tabGet s.tiles (u - 0x40) {}).slices k {}
  let calm := fun (y : Slice) => y.side.wait.isNone && y.xstall.isNone && y.sbar.isNone
  if isTile u then (runStreams g).all (fun q => q.2.1 + q.2.2.length ≤ (slice q.1).pos && calm (slice q.1))
  else g.first + (g.streams.getD 0 []).length ≤ r.position && r.side.wait.isNone

/-- Launches a ready micro-step on all of U(m) (R208, R111). -/
def launchLent (m : ReadyMicro) (s : State) : State :=
  let d := (duskOf s m.units).getD (2 ^ 64)
  let run : RunningMicro := { ctx := m.ctx, micro := m.micro, units := m.units, bound := m.bound, launch := s.tmb.free,
                              dusk := d, snap := sbSnapshot s m.ctx m.units }
  let s := updTts (fun t => { t with ready := t.ready.filter (fun q => !(q.ctx = m.ctx && q.micro = m.micro)),
                                     lent := t.lent ++ [run] }) s
  let s := updStep m.ctx (fun r => { r with microRun := r.microRun + 1 })
    (updMicro m.ctx m.micro (fun q => { q with phase := .running }) s)
  (m.units.zip (m.progs ++ List.replicate m.units.length 0)).foldl (fun s q => startUnit (.lent m.ctx m.micro) m.ctx 0 d q.2 s q.1) s

/-- Ready micro-steps that name a unit. -/
def namedReady (s : State) (u : Nat) : Nat := (s.tts.ready.filter (fun m => m.units.contains u)).length

/-- Whether the scheduler has room for a micro-step (R206). -/
def lendRoom (s : State) (m : ReadyMicro) : Bool :=
  s.tts.ready.length < 4096 && m.units.all (fun u => namedReady s u < 64)

/-- Takes waiting micro-steps while there is room, in order of priority and then of ready tick (R206). -/
def refillReady : List ReadyMicro → State → State
  | [], s => s
  | m :: r, s =>
    refillReady r (if lendRoom s m then
      updTts (fun t => { t with ready := t.ready ++ [m],
                                waiting := t.waiting.filter (fun q => !(q.ctx = m.ctx && q.micro = m.micro)) }) s
    else s)

def refill (s : State) : State :=
  refillReady (sortBy (fun a b => a.prio < b.prio || (a.prio = b.prio && a.ready < b.ready)) s.tts.waiting) s

/-- A micro-step is ready with its ready tick (R206). -/
def addReady (m : ReadyMicro) (s : State) : State :=
  refill (updMicro m.ctx m.micro (fun q => { q with phase := .ready, ready := m.ready })
    (updTts (fun t => { t with waiting := t.waiting ++ [m] }) s))

/-- Micro-step m of context c as the scheduler takes it: units bound, declared priority of the context. -/
def readyOf (s : State) (c m ready : Nat) : ReadyMicro :=
  let x := ctxOf s c
  let k := match x.step with
    | some r => r.sub.kind
    | none => 0
  let i := (kindOf x k).micros.getD m {}
  { ctx := c, micro := m, units := i.units.map (bindUnit x.bind), progs := i.progs, bound := i.bound, prio := x.prio, ready := ready }

/-- Takes every decision that is open now (R208). -/
def lendLoop : Nat → State → State
  | 0, s => s
  | n + 1, s =>
    match chooseLent s with
    | none => s
    | some m => lendLoop n (refill (launchLent m s))

def lendAll (s : State) : State := lendLoop (s.tts.ready.length + s.tts.waiting.length) (refill s)

/-! ### The longest lend window (R211) -/

/-- The longest free run of a cyclic time line of length n with busy intervals given. -/
def longestGap (n : Nat) (busy : List (Nat × Nat)) : Nat :=
  let l := sortBy (fun a b => a.1 < b.1) busy
  let step := fun (acc : Nat × Nat) (r : Nat × Nat) => (max acc.1 r.2, max acc.2 (r.1 - acc.1))
  let (far, best) := l.foldl step ((l.head?.map (fun r => r.1)).getD 0, 0)
  max best ((l.head?.map (fun r => r.1)).getD 0 + n - far)

/-- The reservations of a table's template on a unit over one frame of 10 ms, with its idle entries in every slot. -/
def idleBusy (u : Nat) (t : FrameTable) : List (Nat × Nat) :=
  let mine := t.idleEntries.filter (fun e => reserves e && (entryUnits e).contains u)
  (List.range (slotsPerFrame t.mu)).flatMap (fun n =>
    mine.map (fun e =>
      let a := slotStart 0 t.mu t.ecp n + e.launchOfs
      (a, a + e.budget)))

/-- Whether a template can reserve a unit: in its idle entries or its patterns, bound. -/
def tableNames (u : Nat) (t : FrameTable) : Bool :=
  let bound : List TEntry := t.tmpl.patterns.flatten.map (fun e => { e with unitBase := bindUnit t.bind e.unitBase })
  (t.idleEntries ++ bound).any
    (fun e => reserves e && (entryUnits e).contains u)

/-- The shortest slot of a table. -/
def shortSlot (t : FrameTable) : Nat :=
  ((List.range 4).map (fun n => slotStart 0 t.mu t.ecp (n + 1) - slotStart 0 t.mu t.ecp n)).foldl min 1966080

/-- The longest lend window that the loaded templates can leave on a unit, under the background settings configured last (R211);
none where nothing excludes. -/
def longestWindow (s : State) (u : Nat) : Option Nat :=
  let loaded := (s.tts.tables.filter (fun p => p.1 < 8 && p.2.state ≠ .empty)).map (fun p => p.2)
  let bgw := (s.bg.next.map (fun n => n.1)).getD s.bg.window - s.tts.duskMargin
  if loaded.isEmpty then none
  else if loaded.any (tableNames u) then
    some (max bgw (longestGap 19660800 (loaded.flatMap (idleBusy u)) - s.tts.duskMargin))
  else some (max bgw (loaded.foldl (fun n t => min n (shortSlot t)) 1966080 - s.tts.duskMargin))

/-- Whether a bound can never be admitted on a unit set (R211). -/
def neverFits (s : State) (us : List Nat) (b : Nat) : Bool :=
  us.any (fun u => match longestWindow s u with
    | none => false
    | some w => w < b + guardOf s b)

/-! ### Squash and retry (R111, R214, R215) -/

/-- After a squash: a retry with the original ready tick, or the batch step ends with OVERRUN (R215). -/
def retryMicro (c m : Nat) (s : State) : State :=
  let q := microOf s c m
  if q.squashes < s.tts.retryLimit then
    if neverFits s (readyOf s c m q.ready).units (readyOf s c m q.ready).bound then endStep c .busy false s
    else addReady (readyOf s c m q.ready) s
  else endStep c .overrun false s

/-- Squashes a running micro-step with its MICRO_OVERRUN record, then retries it (R161, R214). -/
def squashMicro (c m : Nat) (r : FaultRec) (s : State) : State :=
  match lentOf s c m with
  | none => s
  | some run =>
    let s := fault { r with code := 5, status := some .overrun, part := (ctxOf s c).part, owner := c, micro := m,
                            detail := unitPairs s run.units } s
    retryMicro c m (countSquash c m (stopMicro c m s))

def updPwr (f : Power → Power) (s : State) : State := s.setPwr (f s.pwr)

/-- Stops a background item: counted, and started again later (R218, R495). -/
def stopItem (u : Nat) (s : State) : State :=
  updPwr (fun p => { p with bgSquashed := ctrInc p.bgSquashed }) (clearUnits [u] s)

/-- The fields of the record of a fence that name the unit and the entry (R214). -/
def fenceRec (s : State) (k n p : Nat) (e : TEntry) (u : Nat) : FaultRec :=
  { unit := u, table := k, entry := p, cell := if k = 8 then 0xFF else e.cell, slotStart := tStart s (tableOf s k) n,
    position := unitPosition s u }

/-- The sealed entries whose launch tick has come and that have not been served, of the tables that run. -/
def dueEntries (s : State) : List Sealed :=
  (futureSealed s).filter (fun x => x.tick ≤ corrNow s
    && ((tableOf s x.table).state = .running || (tableOf s x.table).state = .stopping))

/-- The due entry that is about to fence a unit of a set, with the unit. -/
def dueOn (s : State) (us : List Nat) : Option (Nat × Sealed) :=
  (dueEntries s).findSome? (fun x => ((entryUnits x.entry).find? (fun u => us.contains u)).map (fun u => (u, x)))

/-- The first free tick at which corrected time reaches an entry's launch tick (R197). -/
def firstTick (s : State) (tick : Nat) : Nat := min s.tmb.free (freeAt s.tmb s.tmb.anchor tick)

/-- Whether a due entry launches before another: by first tick, table, slot, position (R197). -/
def launchBefore (s : State) (a b : Sealed) : Bool :=
  decide ([firstTick s a.tick, a.table, a.slot, a.pos] < [firstTick s b.tick, b.table, b.slot, b.pos])

/-- The hard fence of an entry on one of its units (R214, R218). -/
def fenceUnit (k n p : Nat) (e : TEntry) (s : State) (u : Nat) : State :=
  match (unitRun s u).holder with
  | .lent c m => squashMicro c m (fenceRec s k n p e u) s
  | .item _ _ => stopItem u s
  | _ => s

/-! ### Slot reports (R291) -/

/-- The ring the partition's cell configuration names for reports: that of its lowest configured cell. -/
def reportRing (s : State) (p : Nat) : Option Nat :=
  (s.cells.find? (fun c => c.1 / 64 = p && c.2.state ≠ .absent)).map (fun c => c.2.cfg.indRing)

/-- Writes an entry to a radio ring, or drops it. -/
def radioPut (ring : Option Nat) (type : Nat) (body : List Byte) (s : State) : State :=
  match ring with
  | none => s
  | some n => if ringRoom s n (entriesFor body.length) then ringPut n type 0 body s else s

/-- The SLOT_REPORT of a slot and the STAGE_FAIL entries of its stages. -/
def slotReport (k n : Nat) (s : State) : State :=
  let t := tableOf s k
  let recs := s.tts.stages.filter (fun r => r.table = k && r.slot = n)
  let bad := (recs.filter (fun r => r.status ≠ 0)).length
  let slack := (recs.map (fun r => r.slack)).min?.getD 0
  let idle := ((instAt t n).map (fun i => i.idle)).getD false
  let owner := 256 + k
  let body := leBytes 8 (tStart s t n) ++ leBytes 1 k ++ leBytes 1 (b2n idle + 2 * b2n (bad ≠ 0)) ++ leBytes 2 (min 65535 bad)
    ++ leBytes 4 (arithOf s owner) ++ leInt 4 slack ++ leBytes 2 (min 65535 (tabGet s.cde.notCombined k 0))
    ++ leBytes 2 (min 65535 (tabGet s.cde.cbFailed k 0)) ++ List.replicate 32 0
  let ring := reportRing s t.part
  let s := radioPut ring 0x70 body s
  let fails := recs.filter (fun r => r.cause ≠ 0)
  let s := fails.foldl (fun s r => radioPut ring 0x71 (leBytes 8 (tStart s t n) ++ leBytes 2 r.entry ++ leBytes 1 r.cell
    ++ leBytes 1 r.unit ++ leBytes 1 r.cause ++ leBytes 3 0 ++ leBytes 4 r.position) s) s
  let s := updInst k n (fun i => { i with reported := true }) (clearArith owner s)
  let s := if idle then updTable k (fun t => { t with unfilled := ctrInc t.unfilled }) s else s
  s.setCde { s.cde with notCombined := tabDel s.cde.notCombined k, cbFailed := tabDel s.cde.cbFailed k }

/-- Whether a slot has nothing left to run: all its reserving entries served, none live. -/
def slotOver (s : State) (k : Nat) (i : Inst) : Bool :=
  (instSealed s k (tableOf s k) i).all (fun x => i.gone.contains x.pos)
    && !s.tts.resv.any (fun r => r.table = k && r.slot = i.slot)

/-- Adds a stage record, keeping those of the last sixteen slots of the table (R292). -/
def addStage (r : StageRec) (s : State) : State :=
  updTts (fun t => { t with stages := t.stages.filter (fun q => q.table ≠ r.table || r.slot < q.slot + 16) ++ [r] }) s

end Sys2Proof.Machine
end

