-- ==== Sys2Proof/Machine/FaultOps.lean ====
section
/-!
DEFINITION. Resets and the containment of faults (chapter 16): the start of a context reset, accesses outside a
share, foreign posts, uncorrectable words, units out of service.
-/
namespace Sys2Proof.Machine

def updHlt (f : Health → Health) (s : State) : State := s.setHlt (f s.hlt)
def updFab (f : Fabric → Fabric) (s : State) : State := s.setFab (f s.fab)

/-- A fence due in the tick of a context reset records its micro-step before the reset stops it (R216). -/
def fenceRecord (c : Nat) (s : State) (r : RunningMicro) : State :=
  match dueOn s r.units with
  | none => s
  | some (u, x) => fault { fenceRec s x.table x.slot x.pos x.entry u with
      code := 5, status := some .overrun, part := (ctxOf s c).part, owner := c, micro := r.micro, detail := unitPairs s r.units } s

/-- Stops all lent work of a context, without counting a squash, and withdraws its ready micro-steps (R459 steps 1 and 2). -/
def stopContext (c : Nat) (s : State) : State :=
  let mine := s.tts.lent.filter (fun r => r.ctx = c)
  let s := mine.foldl (fenceRecord c) s
  let s := mine.foldl (fun s r => stopMicro c r.micro s) s
  updTts (fun t => { t with ready := t.ready.filter (fun q => q.ctx ≠ c), waiting := t.waiting.filter (fun q => q.ctx ≠ c) }) s

/-- Detaches the fabric tags of a context (R459 step 3). -/
def detachTags (c : Nat) (s : State) : State :=
  let own := fun (t : TagRec) => match t.origin with
    | .micro c' _ _ => c' == c
    | _ => false
  updFab (fun f => { f with tags := f.tags.map (fun p => if own p.2 then (p.1, { p.2 with detached := true }) else p),
                            fences := f.fences.filter (fun x => x.ctx ≠ c),
                            issueWait := f.issueWait.filter (fun d => d.2.ctx ≠ some c) }) s

/-- Starts a context reset: steps 1 to 5 of R459 in the triggering tick; the step's end follows (assumption 13). A second
trigger is absorbed into the first (R463). -/
def resetContext (c : Nat) (st : Status) (handle : Option Nat) (s : State) : State :=
  if (ctxOf s c).state = .absent then s else
  match tabFind? s.hlt.ctxReset c with
  | some r =>
    if handle.isSome && r.handle.isNone then
      updHlt (fun h => { h with ctxReset := tabPut h.ctxReset c { r with handle := handle } }) s
    else s
  | none =>
    let s := updHlt (fun h => { h with ctxReset := tabPut h.ctxReset c { trigger := s.tmb.free, status := st, handle := handle },
                                       contextResets := ctrInc h.contextResets }) s
    let s := updCtx c (fun x => { x with held := true }) s
    orphanOwner c (sbClearOwner c (detachTags c (stopContext c s)))

/-- What an owner's fault leads to (R99, R456, R465): a context reset with the status, or the radio stage failed. -/
def contain (owner u cause : Nat) (st : Status) (s : State) : State :=
  if owner < 256 then resetContext owner st none s
  else match (unitRun s u).holder with
    | .radio k n p => failStage k n p cause u s
    | _ => s

/-- The partition of an owner; 0xFF for the device. -/
def ownerPart (s : State) (owner : Nat) : Nat :=
  if owner < 256 then (ctxOf s owner).part
  else if owner < 264 then (tableOf s (owner - 256)).part
  else 0xFF

/-- The micro-step and table fields a record of a unit's fault carries. -/
def unitRec (s : State) (u : Nat) : FaultRec :=
  let r := unitRun s u
  let base : FaultRec := { part := ownerPart s r.owner, unit := u, owner := r.owner, position := unitPosition s u }
  match r.holder with
  | .lent _ m => { base with micro := m }
  | .radio k n p =>
    let e := ((instAt (tableOf s k) n).map (fun i => i.entries.getD p {})).getD {}
    { base with table := k, entry := p, cell := e.cell, slotStart := tStart s (tableOf s k) n }
  | _ => base

/-- An access outside the owner's share (R99): it does not take place, the unit stops, a SHARE record, then the reset or
the failed stage. -/
def shareFault (u addr : Nat) (s : State) : State :=
  let owner := (unitRun s u).owner
  let s := fault { unitRec s u with code := 1, status := some .notPermitted, reset := if owner < 256 then 1 else 0,
                                    addr := addr } s
  contain owner u 3 .notPermitted (updUnit u (fun r => { r with stopped := true }) s)

/-- An uncorrectable word read by a unit (R465). -/
def badRead (u addr : Nat) (s : State) : State :=
  let owner := (unitRun s u).owner
  let s := fault { unitRec s u with code := 7, status := some .uncorrectable, reset := if owner < 256 then 1 else 0,
                                    addr := addr } s
  contain owner u 4 .uncorrectable (updUnit u (fun r => { r with stopped := true }) s)

/-- A unit leaves service with UNIT_FAULT (R189, R460); lent work on it is squashed by stopping. -/
def unitFault (u : Nat) (s : State) : State :=
  if s.hlt.outOfService.contains u then s else
  fault { code := 8, unit := u, reset := 3 } (updHlt (fun h => { h with outOfService := h.outOfService ++ [u] }) s)

/-- Whether a unit works: it exists, is held, has not been stopped and stalls on no scoreboard. -/
def working (s : State) (u : Nat) : Bool :=
  unitExists s.grade u && !(unitRun s u).stopped && (unitRun s u).side.wait.isNone && (match (unitRun s u).holder with
    | .radio _ _ _ => true
    | .lent _ _ => true
    | _ => false)

/-- A unit issues an instruction: its progress counter moves and its position advances (R457, R454). -/
def issued (u : Nat) (s : State) : State :=
  progress u (updUnit u (fun r => { r with position := r.position + 1 }) s)

end Sys2Proof.Machine
end

