-- ==== Sys2Proof/Machine/Flags.lean ====
section
/-!
DEFINITION. The sticky arithmetic flags (R138): how an operation's flags join an owner's status word.
-/
namespace Sys2Proof.Machine

/-- Flags joined: a sticky flag stays set. -/
def orFlags (a b : ArithFlags) : ArithFlags :=
  { invalid := a.invalid || b.invalid, overflow := a.overflow || b.overflow, accSat := a.accSat || b.accSat,
    storeSat := a.storeSat || b.storeSat, t5pBad := a.t5pBad || b.t5pBad, scaleNan := a.scaleNan || b.scaleNan }

/-- Joins flags of a list. -/
def orAll (l : List ArithFlags) : ArithFlags := l.foldl orFlags {}

/-- Sets flags in an owner's status word (R138). -/
def setFlags (owner : Nat) (f : ArithFlags) (s : State) : State :=
  if f = {} then s
  else s.setGrd { s.grd with arith := tabUpd s.grd.arith owner {} (fun a => orFlags a f) }

def flagInvalid : ArithFlags := { invalid := true }
def flagOverflow : ArithFlags := { overflow := true }
def flagAccSat : ArithFlags := { accSat := true }
def flagStoreSat : ArithFlags := { storeSat := true }

end Sys2Proof.Machine
end

