-- ==== Sys2Proof/Machine/Num.lean ====
section
/-!
DEFINITION. The number formats and the arithmetic of chapter 04: exact values, rounding, conversion, summation,
packing, and KCG-128 (chapter 06), whose words stochastic rounding draws.
-/
namespace Sys2Proof.Machine

/-! ### Exact values (R117, R118) -/

/-- An exact value: NaN, an infinity, or (-1)^neg * mant * 2^exp. -/
inductive Val where
  | nan
  | inf (neg : Bool)
  | fin (neg : Bool) (mant : Nat) (exp : Int)
  deriving DecidableEq, Repr, Inhabited

/-- A floating format: widths, bias, code of the largest finite magnitude, code of infinity and of the canonical NaN
where the format has them. -/
structure FloatFmt where
  width : Nat
  mbits : Nat
  bias : Nat
  top : Nat
  inf : Option Nat
  nan : Option Nat
  deriving DecidableEq, Repr

/-- The floating formats with sign, exponent and mantissa (R117, R121). -/
def floatFmt : Fmt → Option FloatFmt
  | .f32 => some ⟨32, 23, 127, 0x7F7FFFFF, some 0x7F800000, some 0x7FC00000⟩
  | .b16 => some ⟨16, 7, 127, 0x7F7F, some 0x7F80, some 0x7FC0⟩
  | .h16 => some ⟨16, 10, 15, 0x7BFF, some 0x7C00, some 0x7E00⟩
  | .e4m3 => some ⟨8, 3, 7, 0x7E, none, some 0x7F⟩
  | .e5m2 => some ⟨8, 2, 15, 0x7B, some 0x7C, some 0x7E⟩
  | .e3m2 => some ⟨6, 2, 3, 0x1F, none, none⟩
  | .e2m3 => some ⟨6, 3, 1, 0x1F, none, none⟩
  | .e2m1 => some ⟨4, 1, 1, 0x7, none, none⟩
  | _ => none

/-- The width of an element in its store (R117, R118); a T5P element is a fifth of a byte and counts as 8 here. -/
def fmtBits : Fmt → Nat
  | .f32 => 32 | .b16 => 16 | .h16 => 16 | .e4m3 => 8 | .e5m2 => 8 | .e3m2 => 6 | .e2m3 => 6 | .e2m1 => 4
  | .e8m0 => 8 | .i32 => 32 | .q15 => 16 | .i8 => 8 | .i4 => 4 | .t5p => 8 | .c16 => 32 | .c8 => 16

/-- The fixed-point formats: width, fraction bits, least and greatest value in steps (R118). -/
def fixedFmt : Fmt → Option (Nat × Nat × Int × Int)
  | .i32 => some (32, 0, -2147483648, 2147483647)
  | .q15 => some (16, 15, -32768, 32767)
  | .i8 => some (8, 0, -128, 127)
  | .i4 => some (4, 0, -8, 7)
  | .t5p => some (2, 0, -1, 1)
  | .c16 => some (16, 15, -32768, 32767)
  | .c8 => some (8, 7, -128, 127)
  | _ => none

/-- A signed number of w bits. -/
def signedOf (w v : Nat) : Int :=
  let v := v % 2 ^ w
  if v < 2 ^ (w - 1) then v else (v : Int) - (2 ^ w : Nat)

/-- A number as w bits, two's complement. -/
def unsignedOf (w : Nat) (v : Int) : Nat := (v % (2 ^ w : Nat)).toNat

/-- An integer as an exact value. -/
def valInt (v : Int) (exp : Int) : Val := .fin (v < 0) v.natAbs exp

/-- The value of a code of a floating format (R117, R120). -/
def decodeFloat (f : FloatFmt) (code : Nat) : Val :=
  let neg := bit code (f.width - 1)
  let mag := code % 2 ^ (f.width - 1)
  if f.top < mag then (if f.inf = some mag then .inf neg else .nan)
  else
    let e := mag / 2 ^ f.mbits
    let m := mag % 2 ^ f.mbits
    if e = 0 then .fin neg m (1 - (f.bias : Int) - f.mbits)
    else .fin neg (2 ^ f.mbits + m) ((e : Int) - f.bias - f.mbits)

/-- The value of an element of any format; an E8M0 byte is its scale (R117). -/
def decodeVal (f : Fmt) (code : Nat) : Val :=
  match floatFmt f with
  | some g => decodeFloat g code
  | none =>
    match f with
    | .e8m0 => if code = 0xFF then .nan else .fin false 1 ((code : Int) - 127)
    | _ =>
      match fixedFmt f with
      | some (w, frac, _, _) => valInt (signedOf w code) (-(frac : Int))
      | none => .nan

/-! ### Rounding (R129, R130) -/

/-- How one value is rounded: to nearest even, or with the low bits of a random word. -/
inductive RoundBy where
  | rne
  | sr (word : Nat)
  deriving DecidableEq, Repr

/-- The magnitude mant * 2^exp in steps of 2^q, rounded; exact when no bit lies below the step. -/
def roundSteps (by_ : RoundBy) (mant : Nat) (exp q : Int) : Nat :=
  if q ≤ exp then mant * 2 ^ (exp - q).toNat
  else
    let c := (q - exp).toNat
    let k := mant / 2 ^ c
    let rest := mant % 2 ^ c
    match by_ with
    | .rne =>
      if 2 * rest < 2 ^ c then k else if 2 ^ c < 2 * rest then k + 1 else k + k % 2
    | .sr word =>
      let n := min c 24
      let d := rest / 2 ^ (c - n)
      if 2 ^ n ≤ d + word % 2 ^ n then k + 1 else k

/-- The magnitude code of mant * 2^exp rounded into a floating format, not yet limited: exponent and mantissa fields as
one number, so that codes order as magnitudes do (R127). -/
def magCode (f : FloatFmt) (by_ : RoundBy) (mant : Nat) (exp : Int) : Nat :=
  if mant = 0 then 0 else
  let q := max (exp + Nat.log2 mant - f.mbits) (1 - (f.bias : Int) - f.mbits)
  let k := roundSteps by_ mant exp q
  if k < 2 ^ f.mbits then k
  else
    let e := (q + f.mbits + f.bias).toNat
    if k < 2 ^ (f.mbits + 1) then e * 2 ^ f.mbits + (k - 2 ^ f.mbits) else (e + 1) * 2 ^ f.mbits

/-- Whether a finite overflow into a floating format gives infinity (R128). -/
def overflowInf (o : ArithOpt) : Fmt → Bool
  | .f32 => true
  | .b16 => !o.b16Sat
  | .h16 => !o.h16Sat
  | .e5m2 => o.e5m2Inf
  | _ => false

/-- A value rounded into a floating format with the flags it sets (R127, R128). -/
def encodeFloat (o : ArithOpt) (f : Fmt) (g : FloatFmt) (by_ : RoundBy) (v : Val) : Nat × ArithFlags :=
  let sign := fun (neg : Bool) => if neg then 2 ^ (g.width - 1) else 0
  match v with
  | .nan => match g.nan with
    | some c => (c, {})
    | none => (0, flagInvalid)
  | .inf neg => match g.inf with
    | some c => (sign neg + c, {})
    | none => (sign neg + g.top, flagOverflow)
  | .fin neg mant exp =>
    let c := magCode g by_ mant exp
    if c ≤ g.top then (sign neg + c, {})
    else match g.inf with
      | some i => (sign neg + (if overflowInf o f then i else g.top), flagOverflow)
      | none => (sign neg + g.top, flagOverflow)

/-- A value rounded into a fixed-point format, in steps, with its flags (R127, R128). -/
def encodeFixed (frac : Nat) (lo hi : Int) (by_ : RoundBy) (v : Val) : Int × ArithFlags :=
  match v with
  | .nan => (0, flagInvalid)
  | .inf neg => (if neg then lo else hi, flagOverflow)
  | .fin neg mant exp =>
    let k := roundSteps by_ mant exp (-(frac : Int))
    let r : Int := if neg then -(k : Int) else k
    if r < lo then (lo, flagOverflow) else if hi < r then (hi, flagOverflow) else (r, {})

/-- Converts a value into a format (R127, R128). -/
def encodeVal (o : ArithOpt) (f : Fmt) (by_ : RoundBy) (v : Val) : Nat × ArithFlags :=
  match floatFmt f with
  | some g => encodeFloat o f g by_ v
  | none =>
    match fixedFmt f with
    | some (w, frac, lo, hi) =>
      let (r, fl) := encodeFixed frac lo hi by_ v
      (unsignedOf w r, fl)
    | none => (0xFF, {})

/-- The canonical NaN of a format, where it has one (R121). -/
def canonNan (f : Fmt) : Nat :=
  match floatFmt f with
  | some g => g.nan.getD 0
  | none => if f = .e8m0 then 0xFF else 0

/-! ### Exact operations on values (R120, R121, R136, R141) -/

def valNeg : Val → Val
  | .nan => .nan
  | .inf n => .inf (!n)
  | .fin n m e => .fin (!n) m e

/-- The exact product; infinity times zero is NaN and invalid. -/
def valMul : Val → Val → Val × ArithFlags
  | .nan, _ => (.nan, {})
  | _, .nan => (.nan, {})
  | .inf a, .inf b => (.inf (a != b), {})
  | .inf a, .fin b m _ => if m = 0 then (.nan, flagInvalid) else (.inf (a != b), {})
  | .fin a m _, .inf b => if m = 0 then (.nan, flagInvalid) else (.inf (a != b), {})
  | .fin a m e, .fin b n f => (.fin (a != b) (m * n) (e + f), {})

/-- A finite value in steps of 2^q, q no greater than its exponent. -/
def finSteps (q : Int) : Val → Int
  | .fin neg m e => if neg then -((m * 2 ^ (e - q).toNat : Nat) : Int) else ((m * 2 ^ (e - q).toNat : Nat) : Int)
  | _ => 0

def valExp : Val → Int
  | .fin _ _ e => e
  | _ => 0

/-- The exact sum of a list (R135, R136): a zero sum is -0 only when all terms are -0 (R120). -/
def valSum (l : List Val) : Val × ArithFlags :=
  if l.contains .nan then (.nan, {})
  else if l.contains (.inf false) && l.contains (.inf true) then (.nan, flagInvalid)
  else if l.contains (.inf false) then (.inf false, {})
  else if l.contains (.inf true) then (.inf true, {})
  else
    let q := l.foldl (fun q v => min q (valExp v)) (l.head?.elim 0 valExp)
    let t := l.foldl (fun (t : Int) v => t + finSteps q v) 0
    if t = 0 then
      (.fin (!l.isEmpty && l.all (fun v => match v with | .fin true 0 _ => true | _ => false)) 0 0, {})
    else (valInt t q, {})

/-- The order of two values; none where one is NaN. -0 lies below +0 (R141). -/
def valLt (a b : Val) : Bool :=
  match a, b with
  | .nan, _ => false
  | _, .nan => false
  | .inf n, .inf m => n && !m
  | .inf n, .fin _ _ _ => n
  | .fin _ _ _, .inf m => !m
  | .fin n x e, .fin m y f =>
    let q := min e f
    let u := finSteps q (.fin n x e)
    let v := finSteps q (.fin m y f)
    u < v || (u = v && n && !m)

/-! ### Tile floating point (R141) -/

/-- A two-operand operation rounded once into the format. -/
def fpRound (o : ArithOpt) (f : Fmt) (r : Val × ArithFlags) : Nat × ArithFlags :=
  let (c, fl) := encodeVal o f .rne r.1
  (c, orFlags r.2 fl)

def fpAdd (o : ArithOpt) (f : Fmt) (a b : Nat) : Nat × ArithFlags :=
  fpRound o f (valSum [decodeVal f a, decodeVal f b])
def fpSub (o : ArithOpt) (f : Fmt) (a b : Nat) : Nat × ArithFlags :=
  fpRound o f (valSum [decodeVal f a, valNeg (decodeVal f b)])
def fpMul (o : ArithOpt) (f : Fmt) (a b : Nat) : Nat × ArithFlags :=
  fpRound o f (valMul (decodeVal f a) (decodeVal f b))

/-- a * b + c, exact and rounded once; a NaN from a NaN addend is not invalid (R138). -/
def fpFma (o : ArithOpt) (f : Fmt) (a b c : Nat) : Nat × ArithFlags :=
  let (p, fl) := valMul (decodeVal f a) (decodeVal f b)
  let (r, fl') := valSum [p, decodeVal f c]
  fpRound o f (r, if decodeVal f c = .nan then {} else orFlags fl fl')

/-- The smaller or larger of two codes; NaN where either is NaN. -/
def fpMin (f : Fmt) (a b : Nat) : Nat :=
  if decodeVal f a = .nan || decodeVal f b = .nan then canonNan f
  else if valLt (decodeVal f b) (decodeVal f a) then b else a
def fpMax (f : Fmt) (a b : Nat) : Nat :=
  if decodeVal f a = .nan || decodeVal f b = .nan then canonNan f
  else if valLt (decodeVal f a) (decodeVal f b) then b else a

/-- One level of the pairwise tree: neighbours summed, an odd last passes up. -/
def pairUp (add : Nat → Nat → Nat × ArithFlags) : List Nat → List Nat × ArithFlags
  | a :: b :: r =>
    let (c, f) := add a b
    let (t, g) := pairUp add r
    (c :: t, orFlags f g)
  | l => (l, {})

/-- The pairwise tree of RED_SUM over logical element index (R141). -/
def redTree (add : Nat → Nat → Nat × ArithFlags) : Nat → List Nat → ArithFlags → Nat × ArithFlags
  | 0, l, f => (l.headD 0, f)
  | n + 1, l, f =>
    match l with
    | [] => (0, f)
    | [a] => (a, f)
    | l =>
      let (l', g) := pairUp add l
      redTree add n l' (orFlags f g)

/-! ### Fixed point (R132 to R134) -/

/-- Right shift with rounding half up. -/
def shiftRound (v : Int) (s : Nat) : Int := if s = 0 then v else (v + 2 ^ (s - 1)) / 2 ^ s

/-- Saturation into [lo, hi] with its flag. -/
def satTo (lo hi : Int) (fl : ArithFlags) (v : Int) : Int × ArithFlags :=
  if v < lo then (lo, fl) else if hi < v then (hi, fl) else (v, {})

/-- An addition into a 40-bit accumulator (R133). -/
def accAdd (a b : Int) : Int × ArithFlags := satTo (-549755813888) 549755813887 flagAccSat (a + b)

/-- A store to Q15 or to an eight-bit part (R134). -/
def storeQ15 (a : Int) (s : Nat) : Int × ArithFlags := satTo (-32768) 32767 flagStoreSat (shiftRound a s)
def storeC8 (a : Int) (s : Nat) : Int × ArithFlags := satTo (-128) 127 flagStoreSat (shiftRound a s)

/-! ### Packing (R119, R126) -/

/-- Codes of w bits packed from the lowest address, as one little-endian number. -/
def packCodes (w : Nat) : List Nat → Nat
  | [] => 0
  | c :: r => c % 2 ^ w + 2 ^ w * packCodes w r

/-- The trits of a T5P byte; a byte above 242 gives five zeros and its flag (R126). -/
def t5pTrits (b : Nat) : List Int × ArithFlags :=
  if 242 < b then ([0, 0, 0, 0, 0], { t5pBad := true })
  else ([b % 3, b / 3 % 3, b / 9 % 3, b / 27 % 3, b / 81 % 3].map (fun (d : Nat) => (d : Int) - 1), {})

/-- Five trits, in two's complement codes of two bits, as a byte. -/
def t5pByte (l : List Nat) : Nat :=
  let d := fun i => ((signedOf 2 (l.getD i 0)) + 1).toNat
  d 0 + 3 * d 1 + 9 * d 2 + 27 * d 3 + 81 * d 4

/-- Bytes that `count` elements of a format take. -/
def packedBytes (f : Fmt) (count : Nat) : Nat :=
  if f = .t5p then (count + 4) / 5 else (count * fmtBits f + 7) / 8

/-- The codes of `count` elements from bytes, with the flag of a bad T5P byte. -/
def unpack (f : Fmt) (count : Nat) (bs : List Byte) : List Nat × ArithFlags :=
  if f = .t5p then
    let l := bs.map (fun b => t5pTrits b.toNat)
    (((l.flatMap (fun x => x.1)).map (unsignedOf 2)).take count, orAll (l.map (fun x => x.2)))
  else
    let n := leNat bs
    ((List.range count).map (fun i => n / 2 ^ (i * fmtBits f) % 2 ^ fmtBits f), {})

/-- Groups of five. -/
def fives (n : Nat) (l : List Nat) : List (List Nat) := (List.range n).map (fun i => (l.drop (5 * i)).take 5)

/-- The bytes of elements of a format. -/
def pack (f : Fmt) (l : List Nat) : List Byte :=
  if f = .t5p then (fives ((l.length + 4) / 5) l).map (fun g => BitVec.ofNat 8 (t5pByte g))
  else leBytes (packedBytes f l.length) (packCodes (fmtBits f) l)

/-! ### Wire compression (R234, R235), as the stages at the two ends of the fronthaul perform it -/

/-- Whether every part of a PRB fits w-bit mantissas at exponent e. -/
def bfpFits (w e : Nat) (l : List Int) : Bool :=
  l.all (fun x => -2 ^ (w - 1) ≤ shiftRound x e && shiftRound x e ≤ 2 ^ (w - 1) - 1)

/-- The exponent of a PRB: the smallest that fits, or 16 - w. -/
def bfpExp (w : Nat) (l : List Int) : Nat := ((List.range (17 - w)).find? (fun e => bfpFits w e l)).getD (16 - w)

/-- A compressed PRB: exponent, mantissas, flags. -/
def bfpPack (w : Nat) (l : List Int) : Nat × List Int × ArithFlags :=
  let r := l.map (fun x => satTo (-2 ^ (w - 1)) (2 ^ (w - 1) - 1) flagStoreSat (shiftRound x (bfpExp w l)))
  (bfpExp w l, r.map (fun p => p.1), orAll (r.map (fun p => p.2)))

/-- A received mantissa under its exponent. -/
def bfpUnpack (e : Nat) (m : Int) : Int × ArithFlags := satTo (-32768) 32767 flagStoreSat (m * 2 ^ e)

/-! ### Microscaling (R123 to R125) -/

/-- emax of an MX element format (R125). -/
def mxEmax : Fmt → Int
  | .e4m3 => 8 | .e5m2 => 15 | .e3m2 => 4 | .e2m3 => 2 | .e2m1 => 2 | _ => 0

/-- Scales a value by 2^k. -/
def valScale (k : Int) : Val → Val
  | .fin n m e => .fin n m (e + k)
  | v => v

/-- The value of an MX element under its scale byte (R123). -/
def mxValue (f : Fmt) (scale code : Nat) : Val :=
  if scale = 0xFF then .nan
  else valScale ((scale : Int) - 127 - (if f = .i8 then 6 else 0)) (decodeVal f code)

/-- One MXQ block (R125): the scale byte, the element codes and the flags; `word` gives each element's rounding. -/
def mxqBlock (o : ArithOpt) (f : Fmt) (src : List Nat) (word : Nat → RoundBy) : Nat × List Nat × ArithFlags :=
  let vs := src.map (decodeVal .f32)
  let bad := vs.any (fun v => match v with | .fin _ _ _ => false | _ => true)
  if bad then (0xFF, src.map (fun _ => 0), { invalid := true, scaleNan := true })
  else
    let tops := vs.filterMap (fun v => match v with
      | .fin _ 0 _ => none
      | .fin _ m e => some (e + Nat.log2 m)
      | _ => none)
    let x : Int := match tops.max? with
      | some t => max (-127) (min 127 (t - mxEmax f))
      | none => -127
    let sh : Int := if f = .i8 then 6 - x else -x
    let enc := (List.range src.length).map (fun i => encodeVal o f (word i) (valScale sh (vs.getD i .nan)))
    ((x + 127).toNat, enc.map (fun p => p.1), orAll (enc.map (fun p => p.2)))

/-! ### KCG-128 (R173) -/

def add32 (a b : Nat) : Nat := (a + b) % 4294967296
def rotl32 (v n : Nat) : Nat := (v * 2 ^ n + v / 2 ^ (32 - n)) % 4294967296

/-- The keys k[0] to k[4]. -/
def kcgKey (seed stream i : Nat) : Nat :=
  if i = 4 then Nat.xor (stream % 4294967296) 0x9E3779B9 else seed / 2 ^ (32 * i) % 4294967296

/-- One round on (x0, x1, x2, x3). -/
def kcgRound (seed stream r : Nat) (x : Nat × Nat × Nat × Nat) : Nat × Nat × Nat × Nat :=
  let x0 := add32 (add32 x.1 x.2.1) (kcgKey seed stream (r % 5))
  let x2 := add32 (add32 (add32 x.2.2.1 x.2.2.2) (kcgKey seed stream ((r + 2) % 5))) r
  let x1 := Nat.xor (rotl32 x.2.1 12) x0
  let x3 := Nat.xor (rotl32 x.2.2.2 20) x2
  (x0, x3, x2, x1)

/-- The four output words of a draw. -/
def kcg (seed stream step index : Nat) : Nat × Nat × Nat × Nat :=
  (List.range 12).foldl (fun x r => kcgRound seed stream r x)
    (lo32 index, hi32 index, lo32 step, hi32 step)

/-- The rounding of an element at a logical index (R130, R172, R175). -/
def roundAt (r : Rounding) (seed step : Nat) (index : Nat) : RoundBy :=
  match r with
  | .rne => .rne
  | .sr stream base => .sr (kcg seed stream step ((base + index) % 2 ^ 64)).1

/-! ### The fixed-order reduction tree over devices (R448) -/

/-- One node: F32 rounds once (R129), I32 saturates (R137). -/
def shardAdd (f32 : Bool) (a b : Nat) : Nat × ArithFlags :=
  if f32 then fpAdd {} .f32 a b
  else
    let (v, g) := satTo (-2147483648) 2147483647 { storeSat := true } (signedOf 32 a + signedOf 32 b)
    (unsignedOf 32 v, g)

/-- Element j of the result: the pairwise tree over the ranks' elements j, in rank order. -/
def shardElem (f32 : Bool) (ranks : List (List Nat)) (j : Nat) : Nat :=
  (redTree (shardAdd f32) 7 (ranks.map (fun l => l.getD j 0)) {}).1

/-- The rank that reduces element j among R ranks: chunks of 1 024 elements, chunk c by rank c mod R. -/
def shardRank (ranks j : Nat) : Nat := j / 1024 % ranks

end Sys2Proof.Machine
end

