-- ==== Sys2Proof/Machine/Wire.lean ====
section
/-!
DEFINITION. What stands on the wire of a fronthaul MAC (R228, R230, R233, R246, R262): frames, eCPRI and O-RAN headers, PRBs,
PTP and ESMC messages. The spec names the standards; the places of their fields are theirs (assumption 156).
-/
namespace Sys2Proof.Machine

/-- n bytes, most significant first (R230). -/
def beBytes (n v : Nat) : List Byte := (leBytes n v).reverse

/-- The number of a list of bytes, most significant first. -/
def beNat (l : List Byte) : Nat := leNat l.reverse

/-! ### PRBs (R233 to R235) -/

/-- Mantissa bits of a block floating point format. -/
def mantBits (comp : Nat) : Nat := if comp = 1 then 8 else if comp = 2 then 9 else if comp = 3 then 12 else 14

/-- Signed parts of w bits, packed most significant bit first. -/
def packParts (w : Nat) (l : List Int) : List Byte :=
  beBytes (w * l.length / 8) (l.foldl (fun v x => v * 2 ^ w + unsignedOf w x) 0)

/-- The parts of a packed run of bytes. -/
def unpackParts (w n : Nat) (bs : List Byte) : List Int :=
  (List.range n).map (fun i => signedOf w (beNat bs / 2 ^ (w * (n - 1 - i)) % 2 ^ w))

/-- A PRB of 24 parts, I before Q, as it is sent: udCompParam and the mantissas, or the 16-bit samples. -/
def wirePrb (comp : Nat) (parts : List Int) : List Byte × ArithFlags :=
  if comp = 0 then (packParts 16 parts, {})
  else
    let (e, ms, fl) := bfpPack (mantBits comp) parts
    (leBytes 1 e ++ packParts (mantBits comp) ms, fl)

/-- The parts of a received PRB; bits [7:4] of udCompParam are ignored. -/
def readPrb (comp : Nat) (bs : List Byte) : List Int × ArithFlags :=
  if comp = 0 then (unpackParts 16 24 bs, {})
  else
    let r := (unpackParts (mantBits comp) 24 (bs.drop 1)).map (bfpUnpack (leNat (bs.take 1) % 16))
    (r.map (fun p => p.1), orAll (r.map (fun p => p.2)))

/-- A PRB whose mantissas and exponent are zero (R290). -/
def zeroPrb (n : Nat) : List Byte := List.replicate n 0

/-- A sample part under a digital gain (R286). -/
def gainPart (gm ge x : Int) : Int × ArithFlags :=
  satTo (-32768) 32767 flagStoreSat (shiftRound (x * gm) (15 - ge).toNat)

/-- All parts under a gain. -/
def gainParts (g : Int × Int) (l : List Int) : List Int × ArithFlags :=
  let r := l.map (gainPart g.1 g.2)
  (r.map (fun p => p.1), orAll (r.map (fun p => p.2)))

/-! ### Frames (R228, R246) -/

/-- The tag control information of a C-tag: priority and VID (R257). -/
def cTag (pcp vid : Nat) : List Byte := beBytes 2 0x8100 ++ beBytes 2 (pcp * 8192 + vid)

/-- Addresses, ethertype and payload of a frame. -/
def frameBytes (dest src etype : Nat) (body : List Byte) : List Byte :=
  beBytes 6 dest ++ beBytes 6 src ++ beBytes 2 etype ++ body

/-- A frame with its tag after the addresses. -/
def withTag (tag : List Byte) (f : List Byte) : List Byte := f.take 12 ++ tag ++ f.drop 12

/-- A frame filled up to the least length, FCS apart. -/
def padFrame (f : List Byte) : List Byte := f ++ List.replicate (60 - f.length) 0

/-- The eCPRI headers: revision 1, C = 0, message type, payload size; PC_ID, SEQ_ID with E = 1 and subsequence 0 (R230). -/
def ecpri (msgType eaxc seq : Nat) (body : List Byte) : List Byte :=
  beBytes 1 0x10 ++ beBytes 1 msgType ++ beBytes 2 (4 + body.length) ++ beBytes 2 eaxc ++ beBytes 1 seq ++ beBytes 1 0x80 ++ body

/-- The O-RAN header of a symbol: direction, version 1, frameId, subframeId, slotId, symbolId. -/
def oranHead (down : Bool) (frame subframe slot symbol : Nat) : List Byte :=
  beBytes 1 (b2n down * 128 + 16) ++ beBytes 1 frame ++ beBytes 2 (subframe * 4096 + slot * 64 + symbol)

/-- The header of a sent U-plane section, with udCompHdr and a reserved byte. -/
def uHead (id start num compHdr : Nat) : List Byte :=
  beBytes 4 (id * 1048576 + start * 256 + num) ++ beBytes 1 compHdr ++ [0]

/-! ### C-plane messages (R230) -/

/-- A section extension: ef, type, length in words of 4 bytes, and its body filled up to whole words. -/
def extBytes (last : Bool) (e : Nat × List Byte) : List Byte :=
  let head := if e.1 = 11 then 3 else 2
  let words := (head + e.2.length + 3) / 4
  beBytes 1 (b2n (!last) * 128 + e.1) ++ beBytes (head - 1) words ++ e.2 ++ List.replicate (4 * words - head - e.2.length) 0

/-- A section of a C-plane message of a type, with its extensions. -/
def cSection (t : Nat) (x : CSection) : List Byte :=
  beBytes 4 (x.id * 1048576 + b2n x.rb * 524288 + b2n x.symInc * 262144 + x.start * 256 + x.num)
    ++ beBytes 2 (x.reMask * 16 + x.numSym)
    ++ (if t = 0 then beBytes 2 0 else beBytes 2 (b2n (!x.exts.isEmpty) * 32768 + x.beam))
    ++ (if t = 3 then beBytes 3 (unsignedOf 24 x.freqOfs) ++ [0] else [])
    ++ (List.range x.exts.length).flatMap (fun i => extBytes (i + 1 = x.exts.length) (x.exts.getD i (0, [])))

/-- The application part of a C-plane message after the symbol header. -/
def cBody (m : CPlane) : List Byte :=
  beBytes 1 m.sections.length ++ beBytes 1 m.secType
    ++ (if m.secType = 0 then beBytes 2 m.timeOfs ++ beBytes 1 m.frameStruct ++ beBytes 2 m.cpLen ++ [0]
        else if m.secType = 3 then beBytes 2 m.timeOfs ++ beBytes 1 m.frameStruct ++ beBytes 2 m.cpLen ++ beBytes 1 m.compHdr
        else beBytes 1 m.compHdr ++ [0])
    ++ m.sections.flatMap (cSection m.secType)

/-- Section types 0, 1, 3 and 5 and extensions 1, 6 and 11, and no others (R230). -/
def cplaneOk (m : CPlane) : Bool :=
  (m.secType = 0 || m.secType = 1 || m.secType = 3 || m.secType = 5) && 1 ≤ m.sections.length && m.sections.length < 256
    && m.timeOfs < 65536 && m.frameStruct < 256 && m.cpLen < 65536 && m.compHdr < 256
    && m.sections.all (fun x => x.id < 4096 && x.start < 1024 && x.num < 256 && x.reMask < 4096 && x.numSym < 16 && x.beam < 32768
      && x.exts.all (fun e => (e.1 = 1 || e.1 = 6 || e.1 = 11) && e.2.length ≤ 1000))

/-! ### PTP and ESMC messages (R60 to R62, R262) -/

/-- The PTP message types. -/
def ptpType : PtpKind → Nat
  | .sync => 0 | .delayReq => 1 | .followUp => 8 | .delayResp => 9 | .announce => 11

/-- A PTP timestamp of 2^-16 ns units: seconds and whole nanoseconds. -/
def ptpStamp (ns16 : Nat) : List Byte := beBytes 6 (ns16 / 65536 / 1000000000) ++ beBytes 4 (ns16 / 65536 % 1000000000)

/-- A PTP message: its header with domain, two-step flag, correction in 2^-16 ns and source port, then its body. -/
def ptpBytes (k : PtpKind) (domain seq port : Nat) (twoStep : Bool) (corr : Int) (body : List Byte) : List Byte :=
  beBytes 1 (ptpType k) ++ [0x12] ++ beBytes 2 (34 + body.length) ++ beBytes 1 domain ++ [0] ++ beBytes 2 (b2n twoStep * 512)
    ++ beBytes 8 (unsignedOf 64 corr) ++ beBytes 4 0 ++ beBytes 8 (Config.clockIdentity % 2 ^ 64) ++ beBytes 2 (port + 1)
    ++ beBytes 2 seq ++ beBytes 1 (if k = .sync then 0 else if k = .delayReq then 1 else if k = .followUp then 2
        else if k = .delayResp then 3 else 5) ++ [if k = .announce then 0xFD else 0xFC] ++ body

/-- The data set of an announce. -/
def announceBody (d : PtpSet) : List Byte :=
  List.replicate 10 0 ++ beBytes 2 37 ++ [0] ++ [128] ++ beBytes 1 d.cls ++ beBytes 1 d.accuracy ++ beBytes 2 d.variance
    ++ beBytes 1 d.prio2 ++ beBytes 8 d.identity ++ beBytes 2 d.steps ++ [0x20]

/-- A frame that carries a PTP message, to one of the two addresses of R60, chosen per port. -/
def ptpEth (forwardable : Bool) (src : Nat) (msg : List Byte) : List Byte :=
  frameBytes (if forwardable then 0x011B19000000 else 0x0180C200000E) src 0x88F7 msg

/-- A frame that carries an ESMC message of a quality level. -/
def esmcEth (src ql : Nat) : List Byte :=
  frameBytes 0x0180C2000002 src 0x8809 ([0x0A, 0x00, 0x19, 0xA7, 0x00, 0x01, 0x10, 0, 0, 0, 1, 0, 4] ++ beBytes 1 ql)

/-- Bytes of a frame replaced from an offset on. -/
def patchBytes (f : List Byte) (at_ : Nat) (bs : List Byte) : List Byte := f.take at_ ++ bs ++ f.drop (at_ + bs.length)

/-- A one-step Sync takes its transmit timestamp: originTimestamp, and the fraction of a nanosecond added to the correctionField,
which is 0 where the Sync was built (R262). -/
def stampSync (f : List Byte) (ns16 : Nat) : List Byte :=
  patchBytes (patchBytes f 22 (beBytes 8 ((beNat ((f.drop 22).take 8) + ns16 % 65536) % 2 ^ 64))) 48 (ptpStamp ns16)

end Sys2Proof.Machine
end

