-- ==== Sys2Proof/Machine/Chirp.lean ====
section
/-!
DEFINITION. Chirps and the sample stream of Sweep access (R319, R321, R322, R324): sines and cosines rounded to Q15, the up-sweep
and its shifts, the samples of an OFDM symbol, a channel's history.
-/
namespace Sys2Proof.Machine

/-! ### exp(j2π a/b) with each part rounded to Q15 -/

/-- π in units of 2^-64, rounded down: every part of an angle whose denominator is at most 65 536 lies farther from a rounding
boundary than this loses. -/
def piFixed : Nat := 57952155664616982739

/-- first - first x²/(1·2) + … for the cosine, x - x x²/(2·3) + … for the sine, in units of 2^-64, for x below π/4. -/
def powerSeries (x first : Nat) (odd : Bool) : Int :=
  ((List.range 10).foldl (fun (a : Nat × Int) k =>
    let j := 2 * (k + 1)
    let t := a.1 * x / 2 ^ 64 * x / 2 ^ 64 / (if odd then j * (j + 1) else (j - 1) * j)
    (t, if k % 2 = 0 then a.2 - t else a.2 + t)) (first, (first : Int))).2

/-- cos(2π a/b) in units of 2^-15, rounded by R129, +1.0 held as 32 767. -/
def cosQ15 (a b : Nat) : Int :=
  let t := 4 * (a % b)
  let t := if 2 * b < t then 4 * b - t else t
  let neg := b < t
  let t := if neg then 2 * b - t else t
  let v := if 2 * t ≤ b then powerSeries (piFixed * t / (2 * b)) (2 ^ 64) false
    else powerSeries (piFixed * (b - t) / (2 * b)) (piFixed * (b - t) / (2 * b)) true
  let q := (v * 32768 + 2 ^ 63) / 2 ^ 64
  min 32767 (if neg then -q else q)

/-- sin(2π a/b), a quarter turn behind. -/
def sinQ15 (a b : Nat) : Int := cosQ15 (4 * a + 3 * b) (4 * b)

/-- exp(j2π a/b). -/
def expQ15 (a b : Nat) : Int × Int := (cosQ15 a b, sinQ15 a b)

/-! ### Chirps (R322, R324) -/

/-- u[n] of a spreading factor: n²/(2N) - n/2 of a turn. -/
def upSweep (sf n : Nat) : Int × Int := expQ15 (n * n + n * 2 ^ sf) (2 * 2 ^ sf)

/-- conj(u[n]). -/
def downSweep (sf n : Nat) : Int × Int :=
  expQ15 (2 * 2 ^ sf - (n * n + n * 2 ^ sf) % (2 * 2 ^ sf)) (2 * 2 ^ sf)

/-- Symbol value m: the cyclic shift of u by m. -/
def shiftedSweep (sf m n : Nat) : Int × Int := upSweep sf ((n + m) % 2 ^ sf)

/-- Sample j of a frame with the given data symbols: ten up-sweeps, two down-sweeps, the data; zero behind its end. -/
def frameSample (f : SweepFrame) (j : Nat) : Int × Int :=
  let k := j / 2 ^ f.sf
  let n := j % 2 ^ f.sf
  if k < 10 then upSweep f.sf n else if k < 12 then downSweep f.sf n
  else ((f.syms[k - 12]?).map (fun m => shiftedSweep f.sf m n)).getD (0, 0)

/-! ### The sample stream (R317, R319, R321) -/

/-- Q of a channel: samples per OFDM symbol. -/
def sweepQ (h : SweepChan) : Nat := 12 * h.prbs

/-- Sample i of a symbol's resource elements X_0 to X_(Q - 1), before the channel's gain. -/
def streamSample (q : Nat) (xs : List (Int × Int)) (i : Nat) : (Int × Int) × ArithFlags :=
  let e := if q = 12 then 4 else if q = 24 then 5 else 6
  let sum := (List.range q).foldl (fun (a : Int × Int) r =>
    let x := xs.getD r (0, 0)
    let w := expQ15 ((r + q / 2) * i) q
    (a.1 + (x.1 * w.1 - x.2 * w.2), a.2 + (x.1 * w.2 + x.2 * w.1))) (0, 0)
  let re := satTo (-32768) 32767 flagStoreSat (shiftRound sum.1 (15 + e))
  let im := satTo (-32768) 32767 flagStoreSat (shiftRound sum.2 (15 + e))
  ((re.1, im.1), orFlags re.2 im.2)

/-- A sample under a channel's gain. -/
def gainSample (h : SweepChan) (x : Int × Int) : (Int × Int) × ArithFlags :=
  let a := gainPart h.gm h.ge x.1
  let b := gainPart h.gm h.ge x.2
  ((a.1, b.1), orFlags a.2 b.2)

/-- Parts in memory order as samples. -/
def asSamples : List Int → List (Int × Int)
  | a :: b :: r => (a, b) :: asSamples r
  | _ => []

/-- The stream samples of a symbol's captured parts, under the channel's gain. -/
def streamSymbol (h : SweepChan) (parts : List Int) : List (Int × Int) × ArithFlags :=
  let xs := asSamples parts
  let r := (List.range (sweepQ h)).map (fun i =>
    let a := streamSample (sweepQ h) xs i
    let b := gainSample h a.1
    (b.1, orFlags a.2 b.2))
  (r.map (fun p => p.1), orAll (r.map (fun p => p.2)))

/-- The highest spreading factor of a channel's mask, and the samples of its history. -/
def sweepTop (h : SweepChan) : Nat := 8 + Nat.log2 h.sfMask
def historyLen (h : SweepChan) : Nat := 4 * 2 ^ sweepTop h

/-- A channel takes the samples of OFDM symbol l into its history, from which the oldest go. -/
def takeSymbol (l : Nat) (xs : List (Int × Int)) (h : SweepChan) : SweepChan :=
  { h with hist := (tabPut h.hist l xs).filter (fun p => (l + 1) * sweepQ h ≤ p.1 * sweepQ h + historyLen h) }

/-- Stream sample k; what was not captured, or is no longer held, is zero. -/
def sampleAt (h : SweepChan) (k : Nat) : Int × Int := (tabGet h.hist (k / sweepQ h) []).getD (k % sweepQ h) (0, 0)

/-- n stream samples from k on. -/
def samplesFrom (h : SweepChan) (k n : Nat) : List (Int × Int) := (List.range n).map (fun i => sampleAt h (k + i))

/-- The powers of the bins of a window after it is multiplied by conj(u), or by u, and transformed: each a 40-bit sum (R328, R329,
R331). The order and the scales of the transform's stages are the template's: its result is open (assumption 9). -/
def upPowers (h : SweepChan) (sf k : Nat) : List Nat :=
  (List.range (2 ^ sf)).map (fun b =>
    Config.binPower ((List.range (2 ^ sf)).map (downSweep sf)) (samplesFrom h k (2 ^ sf)) b % 2 ^ 40)
def downPowers (h : SweepChan) (sf k : Nat) : List Nat :=
  (List.range (2 ^ sf)).map (fun b =>
    Config.binPower ((List.range (2 ^ sf)).map (upSweep sf)) (samplesFrom h k (2 ^ sf)) b % 2 ^ 40)

/-- The samples a channel sends in OFDM symbol l: those of the accepted frame that spans it. -/
def sendSamples (h : SweepChan) (l : Nat) : Option (List (Int × Int)) :=
  let q := sweepQ h
  (h.sends.find? (fun f => f.first ≤ l && l < f.first + cdiv ((12 + f.syms.length) * 2 ^ f.sf) q)).map
    (fun f => (List.range q).map (fun i => frameSample f ((l - f.first) * q + i)))

/-- The parts of PRB p of a symbol that a channel sends: the transform inverse to R319, whose scale is open (assumption 165), under
the channel's gain. -/
def sendParts (h : SweepChan) (xs : List (Int × Int)) (p : Nat) : List Int × ArithFlags :=
  let r := (List.range 12).map (fun i => gainSample h (Config.sweepMap xs (12 * (p - h.firstPrb) + i)))
  (r.flatMap (fun x => [x.1.1, x.1.2]), orAll (r.map (fun x => x.2)))

end Sys2Proof.Machine
end

