-- ==== Sys2Proof/Machine/Operands.lean ====
section
/-!
DEFINITION. The operand forms of the compute units: places in stores and their checks, lanes and elements of vector
registers, scalar and address registers, shift sources, elements in stores.
-/
namespace Sys2Proof.Machine

/-! ### Places (R94, R99, R343) -/

/-- The bytes of a region of a context's placement: weights, KV, scratch by kind (R343). -/
def regionSize (x : Context) (lr kind : Nat) : Nat :=
  let z := (x.places.getD x.place {}).sizes.getD lr (0, 0, 0)
  if kind = 0 then z.1 else if kind = 1 then z.2.1 else z.2.2

/-- Whether an owner may touch [a, a + n) of a place: its store share, its own regions (weights for reading only, R350) or the
weights it shares, the radio reservation for radio, DRAM for the firmware (R268), and its partition's HDM share. -/
def placeOk (s : State) (owner : Nat) (write : Bool) (p : Place) (a n : Nat) : Bool :=
  a + n ≤ placeSize s.grade p && (match p with
    | .region c lr kind =>
      owner < 256 && a + n ≤ regionSize (ctxOf s c) lr kind && !(kind = 0 && write)
        && (owner = c || (kind = 0 && (ctxOf s owner).weightsOf = c))
    | .dram => 264 ≤ owner || (256 ≤ owner && inRadio s.grade a n)
    | .capture => 256 ≤ owner
    | .staging => 256 ≤ owner
    | .hdm => if ownerPart s owner < 64 then inShare s (ownerPart s owner) a n else true
    | q => match placeTable q with
      | some (tbl, gran) => inShareTable s tbl gran owner a n
      | none => false)

/-- Whether the store of a place exists on the grade. -/
def placeExists (g : Grade) : Place → Bool
  | .array n => n < gradeArrays g
  | .tile t => t < gradeTiles g
  | _ => true

/-! ### Vector registers (R142, R143) -/

/-- Tile t. -/
def tileOf (s : State) (t : Nat) : Tile := tabGet s.tiles t {}

def updTile (t : Nat) (f : Tile → Tile) (s : State) : State := s.setTiles (tabUpd s.tiles t {} f)

/-- Lanes of a vector register; all zero where nothing is listed. -/
def lanesOf (x : Tile) (v : Nat) : List Nat := tabGet x.v v (List.replicate 256 0)

/-- The first lane and the number of lanes of a slice; all lanes in Fused. -/
def laneBase (x : Tile) (sl : Nat) : Nat := if x.fused then 0 else 32 * sl
def laneCount (x : Tile) : Nat := if x.fused then 256 else 32

/-- A slice's lanes of a register. -/
def readLanes (x : Tile) (sl v : Nat) : List Nat := ((lanesOf x v).drop (laneBase x sl)).take (laneCount x)

/-- Sets a slice's lanes of a register from its first lane on; lanes past the list are kept. -/
def writeLanes (sl v : Nat) (l : List Nat) (x : Tile) : Tile :=
  let old := lanesOf x v
  let b := laneBase x sl
  let l := l.take (laneCount x)
  { x with v := tabPut x.v v (old.take b ++ l ++ old.drop (b + l.length)) }

/-- Lane pairs as 32-bit elements, low half in the even lane (R142). -/
def pairs32 : List Nat → List Nat
  | a :: b :: r => (a + 65536 * b) :: pairs32 r
  | _ => []

/-- 32-bit elements as lane pairs. -/
def unpairs32 (l : List Nat) : List Nat := l.flatMap (fun c => [c % 65536, c / 65536 % 65536])

/-- Whether an element of a format takes a lane pair. -/
def wideFmt (f : Fmt) : Bool := 16 < fmtBits f

/-- A slice's elements of a register in a format: 32-bit elements in lane pairs, others one a lane in its low bits
(assumption 14). -/
def readElems (x : Tile) (sl : Nat) (f : Fmt) (v : Nat) : List Nat :=
  if wideFmt f then pairs32 (readLanes x sl v) else (readLanes x sl v).map (fun c => c % 2 ^ fmtBits f)

/-- An element as its lane holds it: integers of 8 and 4 bits are sign-extended (R142, assumption 14). -/
def laneCode (f : Fmt) (c : Nat) : Nat :=
  match f with
  | .i8 => unsignedOf 16 (signedOf 8 c)
  | .i4 => unsignedOf 16 (signedOf 4 c)
  | .t5p => unsignedOf 16 (signedOf 2 c)
  | _ => c

/-- Writes elements of a format. -/
def writeElems (sl : Nat) (f : Fmt) (v : Nat) (l : List Nat) (x : Tile) : Tile :=
  writeLanes sl v (if wideFmt f then unpairs32 l else l.map (laneCode f)) x

/-- Lanes as signed 16-bit numbers, and back. -/
def readQ (x : Tile) (sl v : Nat) : List Int := (readLanes x sl v).map (signedOf 16)
def writeQ (sl v : Nat) (l : List Int) (x : Tile) : Tile := writeLanes sl v (l.map (unsignedOf 16)) x

/-- The accumulators of a slice's lanes, and their setting (R143). -/
def readAcc (x : Tile) (sl : Nat) : List Int :=
  (((if x.acc.isEmpty then List.replicate 256 0 else x.acc).drop (laneBase x sl)).take (laneCount x))
def writeAcc (sl : Nat) (l : List Int) (x : Tile) : Tile :=
  let old := if x.acc.isEmpty then List.replicate 256 0 else x.acc
  let b := laneBase x sl
  { x with acc := old.take b ++ l.take (laneCount x) ++ old.drop (b + laneCount x) }

/-! ### Scalar and address registers (R143, R149, R153) -/

/-- A slice of a tile. -/
def sliceOf (x : Tile) (sl : Nat) : Slice := tabGet x.slices sl {}

def updSlice (sl : Nat) (f : Slice → Slice) (x : Tile) : Tile := { x with slices := tabUpd x.slices sl {} f }

/-- A loop counter: its value at its level, 0 where the level is not open (R156). -/
def counter (x : Tile) (sl k : Nat) : Nat := ((sliceOf x sl).loops[k]?).elim 0 (fun l => l.count)

/-- A scalar operand: S0 to S15, or a loop counter by the numbers 16 to 19 (R156, assumption 27); writing a register. -/
def scalar (x : Tile) (sl n : Nat) : Nat := if n < 16 then tabGet (sliceOf x sl).sc n 0 else counter x sl (n - 16)
def setScalar (sl n v : Nat) (x : Tile) : Tile := updSlice sl (fun y => { y with sc := tabPut y.sc n (v % 4294967296) }) x

/-- The shift of a narrowing instruction: immediate, or a scalar register or loop counter clamped to 0 to 31 (R153, R156). -/
def shiftOf (x : Tile) (sl : Nat) : ShiftSrc → Nat
  | .imm k => k
  | .scalar n => (max 0 (min 31 (signedOf 32 (scalar x sl n)))).toNat
  | .counter k => min 31 (counter x sl k)

/-- The low k bits of a number reversed (R149). -/
def bitrev : Nat → Nat → Nat
  | 0, _ => 0
  | k + 1, v => v % 2 * 2 ^ k + bitrev k (v / 2)

/-- The address an access through a register uses, modulo 2^20 (R149). -/
def areaAddr (r : AddrReg) : Nat :=
  if r.mode = 2 && r.revBits ≠ 0 then
    (((r.start : Int) + r.stride * (bitrev r.revBits (r.index % 2 ^ r.revBits) : Nat)) % 1048576).toNat
  else r.addr % 1048576

/-- The register after an access (R149). -/
def areaNext (r : AddrReg) : AddrReg :=
  if r.mode = 2 && r.revBits ≠ 0 then { r with index := (r.index + 1) % 65536 }
  else if r.mode = 1 && r.length ≠ 0 then
    { r with addr := ((r.start : Int) + (((r.addr : Int) - r.start + r.stride) % (r.length : Int))).toNat % 1048576 }
  else { r with addr := (((r.addr : Int) + r.stride) % 1048576).toNat }

/-- An address register of a slice. -/
def addrReg (x : Tile) (sl a : Nat) : AddrReg := tabGet (sliceOf x sl).a a {}

/-- Moves an address register past an access. -/
def bumpAddr (sl a : Nat) (x : Tile) : Tile :=
  updSlice sl (fun y => { y with a := tabPut y.a a (areaNext (tabGet y.a a {})) }) x

/-! ### Issue and loops of a slice (R143, R145, R156 to R158) -/

/-- The unit of a tile. -/
def tileUnit (t : Nat) : Nat := 0x40 + t

/-- Whether a slice of a tile can issue: the tile works, the slice runs and does not stall in SBAR, XSEND or a scoreboard
wait. -/
def canIssue (s : State) (t sl : Nat) : Bool :=
  working s (tileUnit t) && tabHas (tileOf s t).slices sl && (sliceOf (tileOf s t) sl).sbar.isNone
    && (sliceOf (tileOf s t) sl).xstall.isNone && (sliceOf (tileOf s t) sl).side.wait.isNone

/-- The position after the instruction at pos: back to the top of a loop that has iterations left, innermost first, or on
(R156, R158). -/
def loopEnd (pos : Nat) : List LoopLevel → List LoopLevel × Nat
  | [] => ([], pos + 1)
  | l :: r =>
    if l.last ≠ pos then (l :: r, pos + 1)
    else if l.count = 0 then loopEnd pos r
    else ({ l with count := l.count - 1 } :: r, l.top)

/-- A slice past its instruction; the innermost level stands last in `loops`. -/
def stepSlice (y : Slice) : Slice :=
  let (l, p) := loopEnd y.pos y.loops.reverse
  { y with loops := l.reverse, pos := p }

/-- A slice issues the instruction at its position: the unit's position and progress (R454, R457). -/
def markIssue (t sl : Nat) (s : State) : State :=
  progress (tileUnit t) (updUnit (tileUnit t) (fun r => { r with position := (sliceOf (tileOf s t) sl).pos }) s)

/-- The slice moves past its instruction, unless that stopped the tile. -/
def pastIssue (t sl : Nat) (s : State) : State :=
  if working s (tileUnit t) then updTile t (updSlice sl stepSlice) s else s

/-! ### Elements in stores (R119) -/

/-- The codes of `count` elements of a format at an address of the one memory. -/
def memElems (s : State) (a : Nat) (f : Fmt) (count : Nat) : List Nat × ArithFlags :=
  unpack f count (memReadBytes s.mem a (packedBytes f count))

end Sys2Proof.Machine
end

