-- ==== Sys2Proof/Machine/Grid.lean ====
section
/-!
DEFINITION. The meanings of the commands of chapter 03: matrix descriptors, mover copies and scoreboard operations.
-/
namespace Sys2Proof.Machine

/-! ### Matrix descriptors (R86 to R90, R123, R124, R135 to R137) -/

/-- Elements a row or column takes in its store: K, rounded up to blocks of 32 with scales (R123). -/
def rowElems (k : Nat) (scaled : Bool) : Nat := if scaled then (k + 31) / 32 * 32 else k

/-- Bytes of a row: every row begins at a fresh byte, also one of 4-bit elements with odd K (assumption 151). -/
def rowBytes (f : Fmt) (k : Nat) (scaled : Bool) : Nat := packedBytes f (rowElems k scaled)

/-- One row (or column) of an operand: its K codes, with flags of bad T5P bytes. -/
def rowCodes (s : State) (base : Nat) (f : Fmt) (k i : Nat) (scaled : Bool) : List Nat × ArithFlags :=
  memElems s (base + i * rowBytes f k scaled) f k

/-- The scale byte of block b of row i; 127 where there is no scale array, which scales by 1. -/
def scaleByte (s : State) (arr k i b : Nat) : Option Nat → Nat
  | none => 127
  | some a => (memRead s.mem (arrayAt arr (a + i * ((k + 31) / 32) + b))).toNat

/-- The values of group g of a row: its elements without their block scale, MXINT8 with its 2^-6 (R123, R124). An I8 operand
without a scale array is the plain integer, beside a scaled one too (assumption 151). -/
def groupVals (f : Fmt) (scaled : Bool) (codes : List Nat) (g : Nat) : List Val :=
  ((codes.drop (32 * g)).take 32).map (fun c => if scaled then mxValue f 127 c else decodeVal f c)

/-- The exact sum of the products of a group under the two scales (R124, R136). Infinity times zero, or infinities of both
signs, set invalid where no operand is NaN (R136, R138; assumption 151). -/
def groupSum (va vb : List Val) (sa sb : Nat) : Val × ArithFlags :=
  if sa = 0xFF || sb = 0xFF then (.nan, { scaleNan := true })
  else
    let ps := (va.zip vb).map (fun p => valMul p.1 p.2)
    let (v, fl) := valSum (ps.map (fun p => p.1))
    let nan := va.contains .nan || vb.contains .nan
    let bad := v = .nan && !nan
    (valScale (((sa : Int) - 127) + ((sb : Int) - 127)) v,
      { orFlags fl (orAll (ps.map (fun p => p.2))) with invalid := bad })

/-- An F32 accumulator over the groups of one result element (R135). -/
def accF32 (acc : Nat) (groups : List (Val × ArithFlags)) : Nat × ArithFlags :=
  groups.foldl (fun (a : Nat × ArithFlags) g =>
    let (c, fl) := fpRound {} .f32 (valSum [decodeVal .f32 a.1, g.1])
    (c, orFlags a.2 (orFlags g.2 fl))) (acc, {})

/-- An I32 accumulator over group sums (R137). -/
def accI32 (acc : Int) (sums : List Int) : Int × ArithFlags :=
  sums.foldl (fun (a : Int × ArithFlags) g =>
    let (c, fl) := satTo (-2147483648) 2147483647 flagAccSat (a.1 + g)
    (c, orFlags a.2 fl)) (acc, {})

/-- The integer an operand code stands for in a product. -/
def intCode (f : Fmt) (c : Nat) : Int :=
  signedOf (match fixedFmt f with | some (w, _, _, _) => w | none => 32) c

/-- The parts of a complex code. -/
def complexCode (f : Fmt) (c : Nat) : Int × Int :=
  if f = .c8 then (signedOf 8 c, signedOf 8 (c / 256)) else (signedOf 16 c, signedOf 16 (c / 65536))

/-- The exact sums of consecutive groups of 32. -/
def groupInts (n : Nat) (ps : List Int) : List Int :=
  (List.range n).map (fun g => ((ps.drop (32 * g)).take 32).foldl (fun (t : Int) p => t + p) 0)

/-- One result element (i, j): its new code, or the two codes of a complex one, and flags. -/
def matElem (s : State) (d : MatDesc) (i j : Nat) : List Byte × ArithFlags :=
  let arr := d.quad / 4
  let (ca, fa) := rowCodes s (arrayAt arr d.aAddr) d.fa d.k i d.aScale.isSome
  let (cb, fb) := rowCodes s (arrayAt arr d.bAddr) d.fb d.k j d.bScale.isSome
  let groups := (d.k + 31) / 32
  let scaled := d.aScale.isSome || d.bScale.isSome
  let pos := i * d.n + j
  if opClass d.fa = 3 then
    let at_ := arrayAt arr (d.rAddr + 8 * pos)
    let old := fun o => if d.acc then signedOf 32 (leNat (memReadBytes s.mem (at_ + o) 4)) else 0
    let ps := (ca.zip cb).map (fun p => (complexCode d.fa p.1, complexCode d.fb p.2))
    let re := ps.map (fun p => p.1.1 * p.2.1 - p.1.2 * p.2.2)
    let im := ps.map (fun p => p.1.1 * p.2.2 + p.1.2 * p.2.1)
    let (r, f1) := accI32 (old 0) (groupInts groups re)
    let (q, f2) := accI32 (old 4) (groupInts groups im)
    (leInt 4 r ++ leInt 4 q, orFlags f1 f2)
  else
    let at_ := arrayAt arr (d.rAddr + 4 * pos)
    let old := if d.acc then leNat (memReadBytes s.mem at_ 4) else 0
    if opClass d.fa = 1 || scaled then
      let sums := (List.range groups).map (fun g =>
        groupSum (groupVals d.fa d.aScale.isSome ca g) (groupVals d.fb d.bScale.isSome cb g)
          (scaleByte s arr d.k i g d.aScale) (scaleByte s arr d.k j g d.bScale))
      let (c, fl) := accF32 old sums
      (leBytes 4 c, orFlags fl (orFlags fa fb))
    else
      let ps := (ca.zip cb).map (fun p => intCode d.fa p.1 * intCode d.fb p.2)
      let (r, fl) := accI32 (signedOf 32 old) (groupInts groups ps)
      (leInt 4 r, orFlags fl (orFlags fa fb))

/-- The block of a format's group: K_b and N_b (R87); of two formats the slower group's (R88). -/
def blockSide : Fmt → Nat × Nat
  | .e2m1 => (512, 256) | .i4 => (512, 256) | .t5p => (512, 256)
  | .e4m3 => (256, 256) | .e5m2 => (256, 256) | .e3m2 => (256, 256) | .e2m3 => (256, 256) | .i8 => (256, 256)
  | .b16 => (128, 128) | .h16 => (128, 128) | .q15 => (128, 128) | .c8 => (128, 128)
  | _ => (64, 64)
def blockOf (fa fb : Fmt) : Nat × Nat :=
  (min (blockSide fa).1 (blockSide fb).1, min (blockSide fa).2 (blockSide fb).2)

/-- The passes of a descriptor, and its cycles (R89, R90). -/
def matPasses (d : MatDesc) : Nat := cdiv d.k (blockOf d.fa d.fb).1 * cdiv d.n (blockOf d.fa d.fb).2
def matCycles (d : MatDesc) : Nat :=
  if d.m = 0 || d.k = 0 || d.n = 0 then 0 else d.rep * (matPasses d * max d.m 256 + 512)

/-- The ranges a descriptor reads, and the one it writes: store offset and length. -/
def matReads (d : MatDesc) : List (Nat × Nat) :=
  let blocks := (d.k + 31) / 32
  [(d.aAddr, d.m * rowBytes d.fa d.k d.aScale.isSome), (d.bAddr, d.n * rowBytes d.fb d.k d.bScale.isSome)]
    ++ (d.aScale.map (fun a => (a, d.m * blocks))).toList ++ (d.bScale.map (fun a => (a, d.n * blocks))).toList
    ++ (if d.acc then [(d.rAddr, d.m * d.n * (if opClass d.fa = 3 then 8 else 4))] else [])
def matWrite (d : MatDesc) : Nat × Nat := (d.rAddr, d.m * d.n * (if opClass d.fa = 3 then 8 else 4))

/-- The first `rows` rows of the result, every element from the operands as they stood. -/
def matRows (d : MatDesc) (rows : Nat) (s : State) : State :=
  let res := (List.range rows).flatMap (fun i => (List.range d.n).map (fun j => matElem s d i j))
  setFlags (unitRun s d.quad).owner (orAll (res.map (fun r => r.2)))
    (storeBytes (arrayAt (d.quad / 4) d.rAddr) (res.flatMap (fun r => r.1)) s)

/-- The descriptor once. -/
def matOnce (d : MatDesc) (s : State) : State := matRows d d.m s

/-- A descriptor that a stop ends (R198): of a single pass the groups of 256 rows that were complete are written; else the
result area holds what the spec does not state. -/
def matStopped (d : MatDesc) (groups : Nat) (s : State) : State :=
  if matPasses d = 1 && d.rep = 1 then matRows d (min d.m (256 * groups)) s
  else (s.setMem (memForget s.mem (arrayAt (d.quad / 4) (matWrite d).1) (matWrite d).2 s.fresh)).setFresh (s.fresh + 1)

/-- The descriptor `n` times. -/
def matTimes (d : MatDesc) : Nat → State → State
  | 0, s => s
  | n + 1, s => matTimes d n (matOnce d s)

/-- Runs a unit's access to its ranges in one store: the share check, then uncorrectable words, then the effect; nothing
is written for a slot of length 0 (R99, R110, R465). -/
def access (u : Nat) (ranges : List (Place × Bool × Nat × Nat)) (eff : State → State) (s : State) : State :=
  let owner := (unitRun s u).owner
  match ranges.find? (fun r => r.2.2.2 ≠ 0 && !placeOk s owner r.2.1 r.1 r.2.2.1 r.2.2.2) with
  | some r => shareFault u r.2.2.1 s
  | none =>
    match ranges.find? (fun r => !r.2.1 && meetsBad s (placeAt r.1 r.2.2.1) r.2.2.2) with
    | some r => badRead u r.2.2.1 s
    | none => issued u (if (unitRun s u).side.hush then s else eff s)

/-- A unit whose stop has come within an instruction (R198): it issues no more; the squash, fence or reset follows. -/
def halt (u : Nat) (stop : Option Nat) (s : State) : State :=
  if stop.isSome then updUnit u (fun r => { r with stopped := true }) s else s

/-- A matrix descriptor on its quadrant. With M, K, N or the repeat count 0 it reads and writes nothing (R90). `stop` counts the
groups of 256 rows done when a stop ended it (R198). -/
def mma (d : MatDesc) (stop : Option Nat) (s : State) : State :=
  if !working s d.quad then s
  else if d.m = 0 || d.k = 0 || d.n = 0 || d.rep = 0 then issued d.quad s
  else
    let p := Place.array (d.quad / 4)
    let w := matWrite d
    halt d.quad stop (access d.quad ((matReads d).map (fun r => (p, false, r.1, r.2)) ++ [(p, true, w.1, w.2)])
      (stop.elim (matTimes d d.rep) (matStopped d)) s)

def execMma (d : MatDesc) (stop : Option Nat) (s : State) : Host.Outcome State Fault Refusal :=
  runOn (unitExists s.grade d.quad) "unit" d.quad (run (matOk d) "matrix descriptor" (mma d stop s))

/-! ### Scoreboards (R107 to R110) -/

/-- Whether the stream of a unit may take part in scoreboard operations: the unit works and the stream stalls in nothing, or it
is a coding engine. -/
def takesPart (s : State) (u sl : Nat) : Bool :=
  if isTile u then canIssue s (u - 0x40) sl else working s u || (isCoding u && unitExists s.grade u)

/-- A scoreboard instruction has been issued: the slice of a tile, or the unit, goes on (R145, R457). -/
def sbIssued (u sl : Nat) (s : State) : State :=
  if isTile u then pastIssue (u - 0x40) sl (markIssue (u - 0x40) sl s) else issued u s

/-- A post by a unit: one that is not the entry's producer does not take place and is recorded with both units (R108). -/
def postBare (poster u e len : Nat) (s : State) : State :=
  let b := sbOf s u e
  if !b.valid then s
  else if b.producer ≠ poster then
    let owner := (unitRun s poster).owner
    let s := fault { unitRec s poster with code := 2, status := some .notPermitted, unit := b.producer, unit2 := poster,
                                           reset := if owner < 256 then 1 else 0 } s
    contain owner poster 3 .notPermitted (updUnit poster (fun r => { r with stopped := true }) s)
  else if b.slots ≤ sbOcc b then s
  else sbProduce u e len (postSource s poster) s

/-- A post as an instruction of its own; a post to a full entry waits for room, and to one not in use changes nothing
(assumptions 78, 150). -/
def postBy (poster sl u e len : Nat) (s : State) : State :=
  let b := sbOf s u e
  let s' := postBare poster u e len s
  if b.valid && b.producer = poster && sbOcc b < b.slots then sbIssued poster sl s' else s'

/-- POST: the length of the slot and produced. -/
def execPost (poster sl unit entry len : Nat) (s : State) : Host.Outcome State Fault Refusal :=
  runOn (unitExists s.grade poster && unitExists s.grade unit) "unit" unit
    (run (sl < 8 && entry < sbCount unit && len < 65536) "scoreboard entry"
      (if takesPart s poster sl then postBy poster sl unit entry len s else s))

/-- WAIT_FREE gives the producer its slot, or its stream stalls while its shadow shows a full buffer (R108). -/
def waitFree (p sl u e : Nat) (s : State) : State :=
  let b := sbOf s u e
  if !takesPart s p sl || !b.valid || (sideOf s p sl).wait.isSome then s
  else if b.slots ≤ sbOccShadow b then updSide p sl (fun r => { r with wait := some (.free u e) }) s
  else sbIssued p sl (updSide p sl (fun r => { r with slot := b.produced % b.slots }) s)

def execWaitFree (producer sl unit entry : Nat) (s : State) : Host.Outcome State Fault Refusal :=
  runOn (unitExists s.grade producer && unitExists s.grade unit) "unit" unit
    (run (sl < 8 && entry < sbCount unit) "scoreboard entry" (waitFree producer sl unit entry s))

/-- A stalled producer resumes once its shadow shows a free slot (R108, R109). -/
def waitFreeResume (p sl u e : Nat) (s : State) : State :=
  let b := sbOf s u e
  if (sideOf s p sl).wait ≠ some (.free u e) || b.slots ≤ sbOccShadow b then s
  else sbIssued p sl (updSide p sl (fun r => { r with wait := none, slot := b.produced % b.slots }) s)

def execWaitFreeResume (producer sl unit entry : Nat) (s : State) : Host.Outcome State Fault Refusal :=
  runOn (unitExists s.grade producer && unitExists s.grade unit) "unit" unit
    (run (sl < 8 && entry < sbCount unit) "scoreboard entry" (waitFreeResume producer sl unit entry s))

/-- The consumer takes the slot at consumed with its length; a length of 0 suppresses its results (R108, R110). -/
def takeSlot (u sl e : Nat) (s : State) : State :=
  let b := sbOf s u e
  let k := b.consumed % b.slots
  let len := tabGet b.lens k 0
  sbIssued u sl (updSide u sl (fun r => { r with wait := none, slot := k, len := len, hush := len == 0 }) s)

/-- WAIT_FULL gives the consumer its slot, or its stream stalls while nothing is posted (R108). -/
def waitFull (u sl e : Nat) (s : State) : State :=
  let b := sbOf s u e
  if !takesPart s u sl || !b.valid || (sideOf s u sl).wait.isSome then s
  else if sbOcc b = 0 then updSide u sl (fun r => { r with wait := some (.full u e) }) s
  else takeSlot u sl e s

def execWaitFull (unit sl entry : Nat) (s : State) : Host.Outcome State Fault Refusal :=
  runOn (unitExists s.grade unit) "unit" unit
    (run (sl < 8 && entry < sbCount unit) "scoreboard entry" (waitFull unit sl entry s))

/-- A stalled consumer resumes once a slot is posted (R108, R109). -/
def waitFullResume (u sl e : Nat) (s : State) : State :=
  if (sideOf s u sl).wait ≠ some (.full u e) || sbOcc (sbOf s u e) = 0 then s else takeSlot u sl e s

def execWaitFullResume (unit sl entry : Nat) (s : State) : Host.Outcome State Fault Refusal :=
  runOn (unitExists s.grade unit) "unit" unit
    (run (sl < 8 && entry < sbCount unit) "scoreboard entry" (waitFullResume unit sl entry s))

/-- RELEASE: consumed moves at once; the producer's shadow follows with the return flit (R108). Of an entry not in use, or one
that holds no slot, nothing changes (assumption 150). -/
def releaseSlot (u sl e : Nat) (s : State) : State :=
  let b := sbOf s u e
  if !takesPart s u sl || !b.valid || sbOcc b = 0 then s
  else sbIssued u sl (updSide u sl (fun r => { r with hush := false }) (sbRelease u e s))

def execRelease (unit sl entry : Nat) (s : State) : Host.Outcome State Fault Refusal :=
  runOn (unitExists s.grade unit) "unit" unit
    (run (sl < 8 && entry < sbCount unit) "scoreboard entry" (releaseSlot unit sl entry s))

def execReleaseReturn (unit entry : Nat) (s : State) : Host.Outcome State Fault Refusal :=
  runOn (unitExists s.grade unit) "unit" unit
    (run (entry < sbCount unit) "scoreboard entry" (sbReturn unit entry s))

/-! ### Mover copies (R94, R99, R446) -/

/-- The lineage of a local write: context, micro-step, descriptor position (R446). -/
def lineageOf (s : State) (u : Nat) : Nat :=
  let r := unitRun s u
  let m := match r.holder with
    | .lent _ m => m
    | _ => 0
  ((r.owner * 65536 + m) * 4294967296 + r.position) * 2

/-- Counts a may-vary write of n bytes at address a of the one memory against the context that owns it (R446). -/
def contendRange (c a n lineage : Nat) (s : State) : State :=
  (List.range ((a + n + 63) / 64 - a / 64)).foldl (fun s i => contend c (64 * (a / 64 + i)) lineage s) s

/-- The ticks a write of b bytes holds the port of a tile's store, at 256 bytes a clock (R166). -/
def portTicks (s : State) (b : Nat) : Nat := ((b + 255) / 256 * 1966080 + s.grd.clock * 1000 - 1) / (s.grd.clock * 1000)

/-- A write of b bytes through the port of a tile's store by place `w` of the rotation, behind the write it serves (R166). -/
def takePort (t w b : Nat) (s : State) : State :=
  if b = 0 then s else updTile t (fun x => { x with port := (w, max x.port.2 s.tmb.free + portTicks s b) }) s

/-- The mesh port takes a mover's write to a tile's store (R166). -/
def meshWrite (p : Place) (n : Nat) (s : State) : State :=
  match p with
  | .tile t => takePort t 4 n s
  | _ => s

/-- What a copy leaves at its destination: the source's bytes, or for SCATTER_ADD the sums of the F32 elements, each rounded
once (R129, R140). -/
def copyBytes (d : CopyDesc) (n : Nat) (s : State) : List Byte × ArithFlags :=
  let src := placeAt d.src d.sAddr
  let dst := placeAt d.dst d.dAddr
  if !d.add then (memReadBytes s.mem src n, {})
  else
    let r := ((memElems s dst .f32 (n / 4)).1.zip (memElems s src .f32 (n / 4)).1).map (fun p => fpAdd {} .f32 p.1 p.2)
    (r.flatMap (fun p => leBytes 4 p.1), orAll (r.map (fun p => p.2)))

/-- A mover copy, then the post it carries; a length of 0 moves nothing and still posts. `stop` counts the 64-byte pieces done
when a stop ended it: the rest is not copied and the post not made (R111, R198). -/
def moverCopy (d : CopyDesc) (stop : Option Nat) (s : State) : State :=
  if !working s d.mover then s else
  let n := stop.elim d.len (fun k => min d.len (64 * k))
  let copied := fun (s : State) =>
    let owner := (unitRun s d.mover).owner
    let lin := lineageOf s d.mover
    let (bytes, fl) := copyBytes d n s
    let s := meshWrite d.dst n (setFlags owner fl (storeBytes (placeAt d.dst d.dAddr) bytes s))
    if (d.several || d.add) && owner < 256 then contendRange owner (placeAt d.dst d.dAddr) n lin s else s
  let s := access d.mover [(d.src, false, d.sAddr, n), (d.dst, false, d.dAddr, if d.add then n else 0), (d.dst, true, d.dAddr, n)]
    copied s
  if stop.isSome then halt d.mover stop s else
  match d.post with
  | none => s
  | some (u, e, len) => if working s d.mover then postBare d.mover u e len s else s

def execMoverCopy (d : CopyDesc) (stop : Option Nat) (s : State) : Host.Outcome State Fault Refusal :=
  runOn (unitExists s.grade d.mover && placeExists s.grade d.src && placeExists s.grade d.dst) "unit" d.mover
    (run (copyOk d) "copy descriptor" (moverCopy d stop s))

end Sys2Proof.Machine
end

