-- ==== Sys2Proof/Machine/Fronthaul.lean ====
section
/-!
DEFINITION. Fronthaul ports (chapter 08): receiving, releasing, queues, shapers, gates, policers, PTP and
ESMC on the wire, host frames and the commands of R257.
-/
namespace Sys2Proof.Machine

/-! ### MACs -/

def macOf (s : State) (mac : Nat) : FhMac := tabGet s.fh.macs mac {}

def updFh (f : Fronthaul → Fronthaul) (s : State) : State := s.setFh (f s.fh)

def updMac (mac : Nat) (f : FhMac → FhMac) (s : State) : State :=
  updFh (fun h => { h with macs := tabUpd h.macs mac {} f }) s

/-- Mode of a MAC's port (R227). -/
def macMode (s : State) (mac : Nat) : Nat := tabGet s.fh.modes (mac / 4) 0

/-- Whether a port mode provides MAC m of its port. -/
def modeProvides (mode m : Nat) : Bool :=
  (mode = 1 && m = 0) || (mode = 2 && m < 2) || (mode = 3 && m < 4)

def macPresent (s : State) (mac : Nat) : Bool := mac < 32 && modeProvides (macMode s mac) (mac % 4)

/-- Rate of a MAC in Gb/s. -/
def macRate (s : State) (mac : Nat) : Nat :=
  if macMode s mac = 1 then 400 else if macMode s mac = 2 then 200 else 100

/-- Counts on a MAC. -/
def macCount (mac : Nat) (f : FhCounters → FhCounters) (s : State) : State :=
  updMac mac (fun m => { m with ctr := f m.ctr }) s

/-- Changes policer i of a MAC. -/
def updPolicer (mac i : Nat) (f : Policer → Policer) (s : State) : State :=
  updMac mac (fun m => { m with policers := tabUpd m.policers i {} f }) s

/-- The settings a queue has at Dawn (R247, R257). -/
def queueDefault (q : Nat) : FhQueue :=
  { depth := if q = 0 then 1024 else if q = 1 then 2048 else if q = 2 then 64 else 192,
    pcp := if q < 2 then 6 else if q = 2 then 7 else 0 }

def queueOf (m : FhMac) (q : Nat) : FhQueue := tabGet m.queues q (queueDefault q)

def setQueue (q : Nat) (k : FhQueue) (m : FhMac) : FhMac := { m with queues := tabPut m.queues q k }

/-! ### Formats and symbols (R233, R238) -/

/-- Bytes per PRB of a wire format (R233). -/
def prbBytes (comp : Nat) : Nat :=
  if comp = 0 then 48 else if comp = 1 then 25 else if comp = 2 then 28 else if comp = 3 then 37 else 43

/-- udCompHdr of a wire format: udIqWidth over udCompMeth (R233, assumption 10). -/
def compHdrOf (comp : Nat) : Nat :=
  if comp = 0 then 0 else
  (if comp = 1 then 8 else if comp = 2 then 9 else if comp = 3 then 12 else 14) * 16 + 1

/-- Offset of symbol k within slot n of a numerology (R238, R68). -/
def symOffset (mu : Nat) (ecp : Bool) (n k : Nat) : Nat :=
  let (h, sLen, lLen) := symLayout mu ecp
  let nsym := symsPerSlot ecp
  -- symbols count on from the first symbol of the slot's half-subframe
  let first := (n * nsym) % h
  let at' := fun j => if j % h = 0 then j / h * 983040 else j / h * 983040 + lLen + (j % h - 1) * sLen
  at' (first + k) - at' first

/-- Start of symbol k of slot n in corrected time (R238). -/
def symStart (s : State) (mu : Nat) (ecp : Bool) (n k : Nat) : Nat :=
  slotStart s.win.frameOfs mu ecp n + symOffset mu ecp n k

/-- Air start of a symbol for a binding (R238). -/
def airStart (s : State) (b : FhBinding) (n k : Nat) : Int := (symStart s b.mu b.ecp n k : Int) + b.symOfs

/-- Symbols per frame P (R238). -/
def symsPerFrame (mu : Nat) (ecp : Bool) : Nat := if ecp then 480 else 140 * 2 ^ mu

/-- The symbols of a frame a binding stores: all, or the PRACH symbols of a PRACH binding (R238). -/
def bindSyms (b : FhBinding) : Nat := if b.prach.isEmpty then symsPerFrame b.mu b.ecp else b.prach.length

/-- Bytes of one stored symbol (R238). -/
def stride (b : FhBinding) : Nat := 64 * ((b.prbCount * prbBytes b.comp + 63) / 64)

/-- Symbol in frame of symbol k of absolute slot n. -/
def symInFrame (b : FhBinding) (n k : Nat) : Nat :=
  n % slotsPerFrame b.mu * symsPerSlot b.ecp + k

/-- The place of a symbol among those a binding stores. -/
def symIndex (b : FhBinding) (n k : Nat) : Nat :=
  if b.prach.isEmpty then symInFrame b n k else b.prach.findIdx (fun j => j = symInFrame b n k)

/-- Whether a binding captures a symbol. -/
def symBound (b : FhBinding) (n k : Nat) : Bool := b.prach.isEmpty || b.prach.contains (symInFrame b n k)

/-- A symbol counted from slot 0. -/
def symAbs (b : FhBinding) (n k : Nat) : Nat := n * symsPerSlot b.ecp + k

/-- DRAM address of a symbol's samples and of its presence bitmap (R238). -/
def symAddr (b : FhBinding) (n k : Nat) : Nat := b.fbBase + symIndex b n k * stride b
def bitmapAddr (b : FhBinding) (n k : Nat) : Nat :=
  b.fbBase + bindSyms b * stride b + 64 * symIndex b n k

/-- Bytes of an uplink binding's frame-buffer region (R238). -/
def regionBytes (b : FhBinding) : Nat := bindSyms b * (stride b + 64)

/-- Where the samples of a symbol of binding `id` stand among those unpacked, and among those staged (assumption 157). -/
def symSamples (id : Nat) (b : FhBinding) (n k : Nat) : Nat := id * 2 ^ 25 + symIndex b n k * 2 ^ 14

/-- Parts of C16 samples in memory order: real, imaginary (R118). -/
def partBytes (l : List Int) : List Byte := l.flatMap (fun x => leBytes 2 (unsignedOf 16 x))
def readParts (s : State) (a n : Nat) : List Int :=
  (List.range n).map (fun i => signedOf 16 (leNat (memReadBytes s.mem (a + 2 * i) 2)))

/-- Whether a PRB of a symbol is present. -/
def prbPresent (s : State) (b : FhBinding) (n k p : Nat) : Bool :=
  (memRead s.mem (dramAt (bitmapAddr b n k + p / 8))).getLsbD (p % 8)

/-- Sets a PRB's presence bit. -/
def setPresent (b : FhBinding) (n k p : Nat) (s : State) : State :=
  let a := dramAt (bitmapAddr b n k + p / 8)
  storeBytes a [memRead s.mem a ||| (1 <<< (p % 8))] s

/-! ### Receiving (R240 to R244) -/

/-- Whether a destination is accepted on a MAC (R228, R60). -/
def destOk (m : FhMac) (d : Nat) : Bool :=
  d = m.address || m.groups.contains d || d = 0xFFFFFFFFFFFF || d = 0x011B19000000 || d = 0x0180C200000E

/-- Whether a policer matches a frame (R255); rate 0 disables it. -/
def policerMatch (p : Policer) (f : RxFrame) : Bool :=
  p.rate ≠ 0
    && (p.vid = 0xFFFF || f.vid = some p.vid)
    && (p.etype = 0 || p.etype = f.etype)
    && (f.etype ≠ 0xAEFE || ((f.upacket.map (fun u => p.eaxcLo ≤ u.eaxc && u.eaxc ≤ p.eaxcHi)).getD true))

/-- The policer that judges a frame: the lowest-numbered match (R255). -/
def policerFor (m : FhMac) (f : RxFrame) : Option Nat :=
  firstBelow 64 (fun i => match tabFind? m.policers i with | some p => policerMatch p f | none => false)

/-- The uplink binding of an eAxC on a MAC. -/
def bindingFor (s : State) (mac eaxc : Nat) : Option (Nat × FhBinding) :=
  s.fh.binds.find? (fun p => p.2.mac == mac && p.2.eaxc == eaxc && !p.2.down)

/-- PRBs a section covers: numPrbu 0 is every PRB from the first on (R240). -/
def sectionCount (b : FhBinding) (x : USection) : Nat :=
  if x.numPrb = 0 then b.prbCount - x.startPrb else x.numPrb

/-- Order 8 of R240: headers valid by R232, sections inside prb_count, udCompHdr as bound. -/
def packetOk (b : FhBinding) (u : UPacket) : Bool :=
  u.subframe ≤ 9 && u.slot < 2 ^ b.mu && u.symbol < symsPerSlot b.ecp
    && u.sections.all (fun x =>
      x.startPrb < b.prbCount && x.startPrb + sectionCount b x ≤ b.prbCount
        && x.prbs.length == sectionCount b x
        && (if b.compHdr then x.compHdr == some (compHdrOf b.comp) else x.compHdr.isNone))

/-- Resolves a modular value against a reference (R72). -/
def resolveMod (v ref m : Nat) : Int :=
  let d := (v + m - ref % m) % m
  if (m + 1) / 2 ≤ d then (ref : Int) + d - m else (ref : Int) + d

/-- The absolute slot of a received packet, from its frameId against the frame of its arrival (R232). -/
def packetSlot (s : State) (b : FhBinding) (u : UPacket) (arr : Nat) : Option Nat :=
  let frame := resolveMod u.frameId ((arr - s.win.frameOfs) / 19660800) 256
  if frame < 0 then none
  else some (frame.toNat * slotsPerFrame b.mu + u.subframe * 2 ^ b.mu + u.slot)

/-- Sequence identity on receive (R231): what is expected next, and the packets in the gap. -/
def seqReceive (expected seq : Nat) : Nat × Nat :=
  let d := (seq + 256 - expected) % 256
  if d = 0 then ((seq + 1) % 256, 0) else if d < 128 then ((seq + 1) % 256, d) else (expected, 0)

/-- Writes one PRB of a symbol unless it is there already (R242). -/
def writePrb (mac : Nat) (b : FhBinding) (n k p : Nat) (bytes : List Byte) (s : State) : State :=
  if prbPresent s b n k p then macCount mac (fun c => { c with rxDupPrb := ctrInc c.rxDupPrb }) s
  else setPresent b n k p
    (storeBytes (dramAt (symAddr b n k + p * prbBytes b.comp)) (bytes.take (prbBytes b.comp)) s)

/-- Writes the PRBs of a section in order. -/
def writePrbs (mac : Nat) (b : FhBinding) (n k : Nat) : Nat → List (List Byte) → State → State
  | _, [], s => s
  | p, x :: r, s => writePrbs mac b n k (p + 1) r (writePrb mac b n k p x s)

/-- Latencies of a port mode in sixteenths of a Tc: tx_lat, rx_lat (R261). -/
def txLat (mode : Nat) : Nat := if mode = 1 then 6596 else if mode = 2 then 7020 else 7864
def rxLat (mode : Nat) : Nat := if mode = 1 then 10488 else if mode = 2 then 11236 else 13088

/-- The timestamp of an instant in sixteenths of a free tick: corrected tick, fraction in 2^-16 Tc with bits [11:0] zero, free tick
(R261). -/
def stampOf (s : State) (t16 : Nat) : Nat × Nat × Nat := (corrected s.tmb (t16 / 16), t16 % 16 * 4096, t16 / 16)

/-- Receive and transmit timestamps at the land from a capture at the PCS (R261). -/
def rxStamp (s : State) (mac cap16 : Nat) : Nat × Nat × Nat := stampOf s (cap16 - rxLat (macMode s mac))
def txStamp (s : State) (mac free : Nat) : Nat × Nat × Nat :=
  stampOf s (16 * free + Config.txPhase free % 16 + txLat (macMode s mac))

/-- Delivers a host frame as ETH_RX entries, or drops and counts it (R256). -/
def ethRx (mac : Nat) (f : RxFrame) (s : State) : State :=
  let ring := (macOf s mac).hostRing
  let len := f.bytes.length
  let body := leBytes 2 mac ++ leBytes 2 len ++ List.replicate 4 0 ++ leBytes 8 (rxStamp s mac f.cap16).2.2 ++ f.bytes
  if 880 < len || !ringRoom s ring (entriesFor body.length) then
    macCount mac (fun c => { c with rxHostDrop := ctrInc c.rxHostDrop }) s
  else ringPut ring 0x61 0 body s

/-- Orders 6 to 9 of R240 for an eCPRI frame, then the frame buffer (R241, R242). -/
def receiveU (mac : Nat) (u : UPacket) (arr : Tick) (s : State) : State :=
  let count := fun f => macCount mac f s
  if u.revision ≠ 1 || u.cbit || u.msgType ≠ 0 || !u.sizeOk || !u.ebit then
    count (fun c => { c with rxBad := ctrInc c.rxBad })
  else match bindingFor s mac u.eaxc with
  | none => count (fun c => { c with rxUnbound := ctrInc c.rxUnbound })
  | some (id, b) =>
    match packetOk b u, (packetSlot s b u arr).filter (fun n => symBound b n u.symbol) with
    | true, some n =>
      let (next, gap) := seqReceive b.rxNext u.seqId
      let s := updFh (fun h => { h with binds := tabPut h.binds id { b with rxNext := next } }) s
      let s := macCount mac (fun c => { c with rxSeqGap := ctrAdd c.rxSeqGap gap }) s
      let a := airStart s b n u.symbol
      if (arr : Int) < a + b.f0 then macCount mac (fun c => { c with rxEarly := ctrInc c.rxEarly }) s
      else if a + b.f1 ≤ arr then macCount mac (fun c => { c with rxLate := ctrInc c.rxLate }) s
      else
        u.sections.foldl (fun s x => writePrbs mac b n u.symbol x.startPrb x.prbs s)
          (macCount mac (fun c => { c with rxFrames := ctrInc c.rxFrames }) s)
    | _, _ => count (fun c => { c with rxBad := ctrInc c.rxBad })

/-- What stands in a port's receive buffer, taken by the checks at their rate (R244). -/
def rxHeld (s : State) (port : Nat) : Nat :=
  let (held, at_) := tabGet s.fh.rxFill port (0, 0)
  if held = 0 then 0 else held - Config.rxDrain * (s.tmb.free - at_)

/-- The checks of orders 1 to 5 of R240 on a frame that the receive buffer has taken, and what follows. PTP and ESMC frames go on
to the firmware as the commands PTP_FRAME and ESMC_RECEIVE. -/
def checkFrame (mac : Nat) (f : RxFrame) (s : State) : State :=
  let m := macOf s mac
  let count := fun g => macCount mac g s
  let own := if m.vid = 0xFFFF then none else some m.vid
  if !f.fcsOk || f.len < 64 || m.maxFrame < f.len then
    count (fun c => { c with rxFcs := ctrInc c.rxFcs })
  else if !destOk m f.dest || f.doubleTag || (f.vid ≠ own && !(f.etype = 0x88F7 && f.vid = none)) then
    count (fun c => { c with rxFiltered := ctrInc c.rxFiltered })
  else
    let police := policerFor m f
    let conforms := match police with
      | some i => decide (f.len ≤ (tabGet m.policers i {}).tokens)
      | none => true
    if !conforms then count (fun c => { c with rxPoliced := ctrInc c.rxPoliced }) else
    let s := match police with
      | some i => updPolicer mac i (fun p => { p with tokens := p.tokens - f.len }) s
      | none => s
    let pass := fun s => macCount mac (fun c => { c with rxFrames := ctrInc c.rxFrames }) s
    if f.etype = 0xAEFE then
      match f.upacket with
      | some u => receiveU mac u (rxStamp s mac f.cap16).1 s
      | none => macCount mac (fun c => { c with rxBad := ctrInc c.rxBad }) s
    else if f.etype = 0x88F7 || f.esmc then pass s
    else ethRx mac f (pass s)

/-- The receive buffer of a port: 4 MB (R244). -/
def rxBufferBytes : Nat := 4 * 2 ^ 20

/-- A frame is received (R240, R244, R255, R256). -/
def frameReceive (mac : Nat) (f : RxFrame) (s : State) : State :=
  let held := rxHeld s (mac / 4)
  if rxBufferBytes < held + f.len then
    macCount (mac / 4 * 4) (fun c => { c with rxOverflow := ctrInc c.rxOverflow }) s
  else
    checkFrame mac f (updFh (fun h => { h with rxFill := tabPut h.rxFill (mac / 4) (held + f.len, s.tmb.free) }) s)

def execFrameReceive (mac : Nat) (f : RxFrame) (s : State) : Host.Outcome State Fault Refusal :=
  run (mac < 32) "mac" (if (macOf s mac).link then frameReceive mac f s else s)

/-- Clears a symbol's presence bitmap at its window open (R242). -/
def windowOpen (b n k : Nat) (s : State) : State :=
  match tabFind? s.fh.binds b with
  | none => s
  | some x =>
    if x.down || (corrNow s : Int) < airStart s x n k + x.f0 then s
    else storeBytes (dramAt (bitmapAddr x n k)) (List.replicate 64 0) s

def execWindowOpen (b slot symbol : Nat) (s : State) : Host.Outcome State Fault Refusal :=
  run (b < 4096 && symbol < 14) "symbol" (windowOpen b slot symbol s)

/-- PRBs of a symbol that are missing. -/
def missingPrbs (s : State) (b : FhBinding) (n k : Nat) : Nat :=
  ((List.range b.prbCount).filter (fun p => !prbPresent s b n k p)).length

/-- The cell of a binding. -/
def bindCell (s : State) (x : FhBinding) : Cell := tabGet s.cells (x.part * 64 + x.cell) {}

/-- The radio owner of a partition's table (R98). -/
def radioOwner (s : State) (p : Nat) : Nat := 256 + (partOf s p).radioSlot

/-- The gain of a binding's antenna-carrier (R286). -/
def bindGain (s : State) (b : FhBinding) : Int × Int :=
  tabGet (bindCell s b).gains (b2n b.down * 64 + b.ant) (16384, 1)

/-- A PRB as stage U2 unpacks it: zero where it is missing, else decompressed, then under the digital gain (R235, R243, R286). -/
def unpackPrb (s : State) (b : FhBinding) (n k p : Nat) : List Int × ArithFlags :=
  if !prbPresent s b n k p then (List.replicate 24 0, {})
  else
    let raw := memReadBytes s.mem (dramAt (symAddr b n k + p * prbBytes b.comp)) (prbBytes b.comp)
    let (l, f) := readPrb b.comp raw
    let (l, g) := gainParts (bindGain s b) l
    (l, orFlags f g)

/-- Stage U2 on a captured symbol: its samples, and its flags in the radio owner's status (R235; assumption 157). -/
def unpackSymbol (id : Nat) (b : FhBinding) (n k : Nat) (s : State) : State :=
  let r := (List.range b.prbCount).map (unpackPrb s b n k)
  setFlags (radioOwner s b.part) (orAll (r.map (fun p => p.2)))
    (storeBytes (captureAt (symSamples id b n k)) (partBytes (r.flatMap (fun p => p.1))) s)

/-- Whether a binding carries the Sweep channels of its cell (assumption 165). -/
def carriesSweep (s : State) (b : FhBinding) (h : SweepChan) : Bool :=
  let x := bindCell s b
  let ants := if b.down then x.cfg.antTx else x.cfg.antRx
  h.part = b.part && h.cell = b.cell && b.prach.isEmpty && b.ant = Config.sweepAntenna ants % max 1 ants

/-- The Sweep channels of a cell consume a captured symbol into their histories (R319, R321). -/
def sweepTake (id : Nat) (b : FhBinding) (n k : Nat) (s : State) : State :=
  (s.sweep.filter (fun h => h.2.rx && h.2.fromSlot ≤ n && carriesSweep s b h.2)).foldl (fun s h =>
    let r := streamSymbol h.2 (readParts s (captureAt (symSamples id b n k + 48 * h.2.firstPrb)) (24 * h.2.prbs))
    setFlags (radioOwner s b.part) r.2 (s.setSweep (tabMod s.sweep h.1 (takeSymbol (symAbs b n k) r.1)))) s

/-- A POST by the receive endpoint on the binding's entry; an entry of another producer takes none, with a record of both units
(R108, R236). -/
def endpointPost (b : FhBinding) (s : State) : State :=
  if !(sbOf s b.consumer b.entry).valid then s
  else if (sbOf s b.consumer b.entry).producer ≠ 0xF0 then
    fault { code := 2, status := some .notPermitted, part := b.part, unit := (sbOf s b.consumer b.entry).producer, unit2 := 0xF0,
            owner := radioOwner s b.part } s
  else progress b.consumer (sbProduce b.consumer b.entry (stride b / 64) { tick := s.tmb.free } s)

/-- The consumer's post for a symbol once its window has closed (R243), made once, the count of its
missing PRBs, its unpacking, and its Sweep channels. A full buffer holds the post back; a standby cell captures without posts (R307). -/
def symbolPost (b n k : Nat) (s : State) : State :=
  match tabFind? s.fh.binds b with
  | none => s
  | some x0 =>
    let x := if (bindCell s x0).state = .standby then { x0 with consumer := 0xFF } else x0
    let e := sbOf s x.consumer x.entry
    let full := x.consumer ≠ 0xFF && e.valid && e.producer = 0xF0 && e.slots ≤ sbOcc e
    if x.down || !symBound x n k || (corrNow s : Int) < airStart s x n k + x.f1
        || (x.posted.map (fun p => decide (symAbs x n k ≤ p))).getD false || full then s
    else
      let s := if x.consumer = 0xFF then s else endpointPost x s
      let s := updFh (fun h => { h with binds := tabPut h.binds b { x0 with posted := some (symAbs x n k) } }) s
      sweepTake b x n k <| unpackSymbol b x n k (macCount x.mac (fun c => { c with rxMissingPrb := ctrAdd c.rxMissingPrb (missingPrbs s x n k) }) s)

def execSymbolPost (b slot symbol : Nat) (s : State) : Host.Outcome State Fault Refusal :=
  run (b < 4096 && symbol < 14) "symbol" (symbolPost b slot symbol s)

/-! ### Gates (R251 to R253) -/

/-- The edges of one cycle of a list: offset from the cycle's start and the gates from there on; entries
of interval 0 are skipped and the last lasts to the cycle's end (R252). -/
def cycleEdges (cycle : Nat) : Nat → List (Nat × Nat) → List (Nat × Nat)
  | _, [] => []
  | o, (i, g) :: r => if i = 0 || cycle ≤ o then cycleEdges cycle o r else (o, g) :: cycleEdges cycle (o + i) r

/-- The gates a list holds open at corrected tick c. -/
def listGates (l : GateList) (c : Nat) : Nat :=
  if l.entries.isEmpty || l.cycle = 0 || c < l.base then 255
  else
    let o := (c - l.base) % l.cycle
    (((cycleEdges l.cycle 0 l.entries).filter (fun e => e.1 ≤ o)).getLast?.map (fun e => e.2)).getD 255

/-- The tick at which a pending list takes over: its own first cycle start at or after the change tick
(R253). -/
def switchTick (l : GateList) : Nat :=
  if l.cycle = 0 || l.change ≤ l.base then max l.base l.change
  else l.base + (l.change - l.base + l.cycle - 1) / l.cycle * l.cycle

/-- Gates of a MAC at c: the operating list, from the switch on the pending one. -/
def gatesAt (m : FhMac) (c : Nat) : Nat :=
  match m.gclPending with
  | some p => if switchTick p ≤ c then listGates p c else listGates m.gcl c
  | none => listGates m.gcl c

/-- Edge ticks of a list in the cycle of c and the next one. -/
def listEdges (l : GateList) (c : Nat) : List Nat :=
  if l.entries.isEmpty || l.cycle = 0 then [l.base] else
  let k := (max c l.base - l.base) / l.cycle
  let es := (cycleEdges l.cycle 0 l.entries).map (fun e => e.1)
  es.map (fun e => l.base + k * l.cycle + e) ++ es.map (fun e => l.base + (k + 1) * l.cycle + e)

/-- The next closing edge of queue q after corrected tick c, if one stands in the cycles looked at. -/
def nextClose (m : FhMac) (c q : Nat) : Option Nat :=
  let edges := listEdges m.gcl c ++ (match m.gclPending with
    | some p => switchTick p :: listEdges p (switchTick p)
    | none => [])
  (edges.filter (fun e => c < e && !bit (gatesAt m e) q)).min?

/-! ### Transmitting (R245 to R250, R254) -/

/-- Transmission time of a frame of len bytes at r Gb/s (R248). -/
def txTime (len r : Nat) : Nat := ((len + 20) * 1572864 + r * 100000 - 1) / (r * 100000)

/-- A VLAN tag's bytes on a MAC. -/
def tagBytes (m : FhMac) : Nat := if m.vid = 0xFFFF then 0 else 4

/-- The length of a packet's frame on a MAC, FCS and tag included, at least 64 bytes. -/
def pktLen (m : FhMac) (p : TxPkt) : Nat := max 64 (p.bytes.length + 4 + (if p.tagged then tagBytes m else 0))

/-- A packet takes its place behind those released before it: packets of one release tick stand in order of binding (R245). -/
def insertPkt (p : TxPkt) (l : List TxPkt) : List TxPkt :=
  let later := fun (x : TxPkt) => x.key.1 = p.key.1 && p.key.2 < x.key.2
  l.takeWhile (fun x => !later x) ++ p :: l.dropWhile (fun x => !later x)

/-- Puts a packet into a queue, or drops and counts the last of a full one (R247). -/
def enqueue (mac q : Nat) (p : TxPkt) (s : State) : State :=
  let k := queueOf (macOf s mac) q
  if k.depth ≤ k.pkts.length then
    updMac mac (setQueue q { k with pkts := (insertPkt p k.pkts).dropLast })
      (macCount mac (fun c => { c with txDrop := tabUpd c.txDrop q {} ctrInc }) s)
  else updMac mac (setQueue q { k with pkts := insertPkt p k.pkts }) s

/-- Whether a queue is eligible at the tick (R248). A frame that was preempted heads its queue. -/
def eligible (s : State) (mac q : Nat) : Bool :=
  let m := macOf s mac
  let k := queueOf m q
  let rest := match m.preempted with
    | some (pq, left, _) => if pq = q then some left else none
    | none => none
  match (rest.orElse (fun _ => k.pkts.head?.map (pktLen m))) with
  | none => false
  | some len =>
    let c := corrNow s
    bit (gatesAt m c) q
      && (k.rate = 0 || 0 < k.tokens)
      && (if m.profileB && 3 ≤ q then true else
        match nextClose m c q with
        | none => true
        | some e => s.tmb.free + txTime len (macRate s mac) ≤ freeAt s.tmb s.tmb.free e)

/-- A packet as its frame leaves queue q: a Sync of a one-step port with its time, the MAC's C-tag with the queue's priority, filled
up (R257, R262). -/
def sentFrame (m : FhMac) (q : Nat) (p : TxPkt) (ns16 : Nat) : List Byte :=
  let f := if m.oneStep && (p.ptp.map (fun x => x.1)) = some .sync then stampSync p.bytes ns16 else p.bytes
  padFrame (if p.tagged && m.vid ≠ 0xFFFF then withTag (cTag (queueOf m q).pcp m.vid) f else f)

/-- PTP time of a timestamp in 2^-16 ns (R262). -/
def ptpNs16 (tick frac : Nat) : Nat :=
  (tick / 1966080000 + 315964819) * 65536000000000 + (tick % 1966080000 * 65536 + frac) * 3125 / 6144

/-- What the transmit timestamp of a PTP message settles: the time of a two-step Sync for its Follow_Up, and t3 of a Delay_Req
(R262, R263). -/
def ptpSent (mac : Nat) (p : TxPkt) (ns16 : Nat) (s : State) : State :=
  let put := fun (f : PtpPort → PtpPort) => updPps (fun w => { w with ports := tabMod w.ports mac f }) s
  match p.ptp with
  | some (.sync, n) => if (macOf s mac).oneStep then s else put (fun x => { x with stamp := some (n, ns16) })
  | some (.delayReq, n) => put (fun x => { x with req := some (n, ns16) })
  | _ => s

/-- Starts the head frame of a queue: it leaves with its transmit timestamp, the shaper and the deficit
pay for it (R248, R249, R261, R262). A preempted frame goes on with what is left of it. -/
def startFrame (mac q : Nat) (s : State) : State :=
  let m := macOf s mac
  let k := queueOf m q
  let t := s.tmb.free
  match m.preempted.filter (fun x => x.1 = q) with
  | some (_, left, p) =>
    let snd : Sending := { queue := q, start := t, finish := t + txTime left (macRate s mac), left := left, pkt := p }
    updMac mac (fun m => { m with preempted := none, sending := some snd }) s
  | none =>
    match k.pkts with
    | [] => s
    | p :: r =>
      let len := pktLen m p
      let k' := { k with pkts := r, tokens := if k.rate = 0 then k.tokens else k.tokens - (len + 20),
                         deficit := if q < 3 then 0 else if r.isEmpty then 0 else k.deficit - len }
      let (tick, frac, free) := txStamp s mac t
      let snd : Sending := { queue := q, start := t, finish := t + txTime len (macRate s mac), left := len, pkt := p }
      ptpSent mac p (ptpNs16 tick frac)
        (emit (.frame mac q (sentFrame m q p (ptpNs16 tick frac)) tick frac free)
          (macCount mac (fun c => { c with txFrames := ctrInc c.txFrames })
            (updMac mac (fun m => { setQueue q k' m with sending := some snd }) s)))

/-- Deficit round robin over Q3 to Q7 (R248): the queue that sends, and the MAC with pointer and deficits
moved on. -/
def drrPick (ok : Nat → Bool) : Nat → FhMac → Option Nat × FhMac
  | 0, m => (none, m)
  | fuel + 1, m =>
    let q := m.drrPtr
    let next := if q = 7 then 3 else q + 1
    if !ok q then drrPick ok fuel { m with drrPtr := next, drrGranted := false }
    else
      let k := queueOf m q
      let k := if m.drrGranted then k else { k with deficit := k.deficit + k.weight * 1536 }
      let m := { setQueue q k m with drrGranted := true }
      if (k.pkts.head?.map (fun p => decide (pktLen m p ≤ k.deficit))).getD false then (some q, m)
      else drrPick ok fuel { m with drrPtr := next, drrGranted := false }

/-- The bytes of a frame sent by tick t, at r Gb/s. -/
def sentBytes (x : Sending) (t r : Nat) : Nat := (t - x.start) * (r * 100000) / 1572864

/-- Preempts a preemptable frame at its next 64-byte fragment boundary when an express queue is eligible
or its gate has closed (R254). -/
def preemptCheck (mac : Nat) (s : State) : State :=
  let m := macOf s mac
  match m.sending with
  | none => s
  | some x =>
    let t := s.tmb.free
    if !m.profileB || x.queue < 3 || x.finish ≤ t || m.preempted.isSome then s
    else if !(eligible s mac 0 || eligible s mac 1 || eligible s mac 2
        || !bit (gatesAt m (corrNow s)) x.queue) then s
    else
      let r := macRate s mac
      let cut := max 64 ((sentBytes x t r + 63) / 64 * 64)
      -- the rest must hold a fragment of its own
      if x.left < cut + 64 then s
      else updMac mac (fun m => { m with
        preempted := some (x.queue, x.left - cut, x.pkt),
        sending := some { x with finish := x.start + txTime cut r } }) s

/-- When the link is free, the next queue starts a frame: Q0, Q1, Q2 in strict order, then the weighted
queues (R248). While a preemptable frame is on the wire an eligible express queue preempts it. -/
def transmitSelect (mac : Nat) (s : State) : State :=
  let m := macOf s mac
  let busy := (m.sending.map (fun x => decide (s.tmb.free < x.finish))).getD false
  if !m.link then s
  else if busy then preemptCheck mac s
  else
    let s := updMac mac (fun m => { m with sending := none }) s
    match [0, 1, 2].find? (fun q => eligible s mac q) with
    | some q => startFrame mac q s
    | none =>
      -- a preempted frame goes on before another preemptable one starts
      match m.preempted with
      | some x => if eligible s mac x.1 then startFrame mac x.1 s else s
      | none =>
        let (q, m') := drrPick (eligible s mac) 40 (macOf s mac)
        let s := updMac mac (fun _ => m') s
        match q with
        | some q => startFrame mac q s
        | none => s

def execTransmitSelect (mac : Nat) (s : State) : Host.Outcome State Fault Refusal :=
  run (mac < 32) "mac" (transmitSelect mac s)

/-- PRBs of one sent packet (R246). -/
def packetPrbs (m : FhMac) (comp : Nat) : Nat := min 255 ((m.maxFrame - 36 - tagBytes m) / prbBytes comp)

/-- What stage D4 puts into PRB p of a symbol for a Sweep frame on air there (R335). -/
def sweepSent (s : State) (b : FhBinding) (n k p : Nat) : Option (List Int × ArithFlags) :=
  s.sweep.findSome? (fun h =>
    if h.2.tx && carriesSweep s b h.2 && h.2.firstPrb ≤ p && p < h.2.firstPrb + h.2.prbs then
      (sendSamples h.2 (symAbs b n k)).map (fun xs => sendParts h.2 xs p)
    else none)

/-- The samples a symbol has been staged with, PRB p: what stages D4 and D5 leave under the digital gain and the wire's compression
(R234, R270, R286; assumption 157); all zero for a slot and cell marked failed (R290). -/
def sentPrb (s : State) (id : Nat) (b : FhBinding) (n k p : Nat) : List Byte × ArithFlags :=
  if s.cde.marks.contains ((partOf s b.part).radioSlot, n, b.cell, false) then (zeroPrb (prbBytes b.comp), {})
  else
    let (l, f) := match sweepSent s b n k p with
      | some r => r
      | none => gainParts (bindGain s b) (readParts s (stagingAt (symSamples id b n k + 48 * p)) 24)
    let (w, g) := wirePrb b.comp l
    (w, orFlags f g)

/-- The frame of a packet with message type, sequence identity and the symbol it begins with (R230, R246). -/
def fhFrame (s : State) (b : FhBinding) (n k msgType : Nat) (app : List Byte) : List Byte :=
  frameBytes (Config.radioUnit b.mac b.eaxc % 2 ^ 48) (macOf s b.mac).address 0xAEFE
    (ecpri msgType b.eaxc b.txSeq
      (oranHead b.down (n / slotsPerFrame b.mu % 256) (n % slotsPerFrame b.mu / 2 ^ b.mu) (n % 2 ^ b.mu) k ++ app))

/-- A U-plane packet of PRBs p to p + c - 1 of a symbol. -/
def uplanePkt (s : State) (id : Nat) (b : FhBinding) (n k p c : Nat) (prbs : List (List Byte)) : TxPkt :=
  { bytes := fhFrame s b n k 0 (uHead (Config.sectionId b.eaxc p % 4096) p c (compHdrOf b.comp) ++ prbs.flatten),
    key := (s.tmb.free, id) }

/-- Releases the packets of a symbol from PRB p on into Q1, each with its sequence identity (R231, R246). -/
def releasePackets (b n k : Nat) (prbs : List (List Byte)) : Nat → Nat → State → State
  | 0, _, s => s
  | fuel + 1, p, s =>
    match tabFind? s.fh.binds b with
    | none => s
    | some x =>
      let c := min (packetPrbs (macOf s x.mac) x.comp) (x.prbCount - p)
      if c = 0 then s else
      let pkt := uplanePkt s b x n k p c ((prbs.drop p).take c)
      releasePackets b n k prbs fuel (p + c)
        (enqueue x.mac 1 pkt (updFh (fun h => { h with binds := tabPut h.binds b { x with txSeq := (x.txSeq + 1) % 256 } }) s))

/-- Whether a cell sends downlink for slot n: it runs the slot (R300, R307, R310). -/
def cellSends (s : State) (x : FhBinding) (n : Nat) : Bool :=
  let c := bindCell s x
  match c.state with
  | .running => c.firstSlot ≤ n
  | .stopping => c.firstSlot ≤ n && n ≤ c.lastSlot
  | .moving => n < c.moveTo.getD 0
  | _ => false

/-- Whether slot n of the cell's table runs the idle instance (R305). -/
def slotIdle (s : State) (x : FhBinding) (n : Nat) : Bool :=
  (tabGet s.tts.tables (partOf s x.part).radioSlot {}).insts.any (fun i => i.2.slot = n && i.2.idle)

/-- Releases a downlink symbol's U-plane packets at A - up_lead, once (R245); none for an idle slot (R305). -/
def uplaneRelease (b n k : Nat) (s : State) : State :=
  match tabFind? s.fh.binds b with
  | none => s
  | some x =>
    if !x.down || (corrNow s : Int) < airStart s x n k - x.f0 || !cellSends s x n || slotIdle s x n
        || (x.released.map (fun p => decide (symAbs x n k ≤ p))).getD false then s
    else
      let r := (List.range x.prbCount).map (sentPrb s b x n k)
      let s := setFlags (radioOwner s x.part) (orAll (r.map (fun p => p.2)))
        (updFh (fun h => { h with binds := tabPut h.binds b { x with released := some (symAbs x n k) } }) s)
      preemptCheck x.mac (releasePackets b n k (r.map (fun p => p.1)) 275 0 s)

def execUplaneRelease (b slot symbol : Nat) (s : State) : Host.Outcome State Fault Refusal :=
  run (b < 4096 && symbol < 14) "symbol" (uplaneRelease b slot symbol s)

/-- Releases a C-plane message of the slot's parameter block into Q0 at A - cp_lead (R245). -/
def cplaneRelease (b n k : Nat) (msg : CPlane) (s : State) : State :=
  match tabFind? s.fh.binds b with
  | none => s
  | some x =>
    if (corrNow s : Int) < airStart s x n k - x.f2 || !cellSends s x n then s
    else
      let pkt : TxPkt := { bytes := fhFrame s x n k 2 (cBody msg), key := (s.tmb.free, b) }
      let s := updFh (fun h => { h with binds := tabPut h.binds b { x with txSeq := (x.txSeq + 1) % 256 } }) s
      preemptCheck x.mac (enqueue x.mac 0 pkt s)

def execCplaneRelease (b slot symbol : Nat) (msg : CPlane) (s : State) :
    Host.Outcome State Fault Refusal :=
  run (b < 4096 && symbol < 14 && cplaneOk msg) "symbol" (cplaneRelease b slot symbol msg s)

/-- The threshold of the fraction registers (R249). -/
def fracLimit : Nat := 49152000

/-- What one air tick adds to a queue's fraction register and a policer's (R249, R255). -/
def queueTick (k : FhQueue) : FhQueue := { k with frac := k.frac + k.rate * 3125 }
def policerTick (p : Policer) : Policer := { p with frac := p.frac + p.rate * 3125 }

/-- A shaper's fraction register has reached its threshold: one byte, never above the burst (R249). -/
def shaperRefill (mac q : Nat) (s : State) : State :=
  let k := queueOf (macOf s mac) q
  if k.rate = 0 || k.frac < fracLimit then s
  else updMac mac (setQueue q { k with frac := k.frac - fracLimit,
                                       tokens := min (k.burst : Int) (k.tokens + 1) }) s

def execShaperRefill (mac q : Nat) (s : State) : Host.Outcome State Fault Refusal :=
  run (mac < 32 && q < 8) "queue" (shaperRefill mac q s)

/-- The same of a policer (R255). -/
def policerRefill (mac i : Nat) (s : State) : State :=
  let p := tabGet (macOf s mac).policers i {}
  if p.rate = 0 || p.frac < fracLimit then s
  else updPolicer mac i (fun p => { p with frac := p.frac - fracLimit,
                                           tokens := min p.burst (p.tokens + 1) }) s

def execPolicerRefill (mac i : Nat) (s : State) : Host.Outcome State Fault Refusal :=
  run (mac < 32 && i < 64) "policer" (policerRefill mac i s)

/-- A gate edge takes effect: the gates open now, and what it preempts (R252, R254). -/
def gateEdge (mac : Nat) (s : State) : State :=
  preemptCheck mac (updMac mac (fun m => { m with gates := gatesAt m (corrNow s) }) s)

def execGateEdge (mac : Nat) (s : State) : Host.Outcome State Fault Refusal :=
  run (mac < 32) "mac" (gateEdge mac s)

/-- A pending list becomes the operating one at its switch tick, and GCL_SWITCHED is posted (R253). -/
def gclSwitched (mac : Nat) (s : State) : State :=
  match (macOf s mac).gclPending with
  | none => s
  | some p =>
    if corrNow s < switchTick p then s
    else
      let s := updMac mac (fun m => { m with gcl := p, gclPending := none, gclTick := switchTick p,
                                             gates := listGates p (corrNow s) }) s
      post { code := 0x0461, detail := leBytes 2 mac ++ leBytes 2 p.entries.length
               ++ leBytes 8 (switchTick p) } s

def execGclSwitched (mac : Nat) (s : State) : Host.Outcome State Fault Refusal :=
  run (mac < 32) "mac" (gclSwitched mac s)

/-! ### PTP and ESMC on the wire (R60 to R62) -/

/-- Whether the firmware runs PTP on a MAC: source 1 and the MAC's port in port_mask (R60). -/
def ptpRuns (s : State) (mac : Nat) : Bool := s.tmb.source == .ptp && bit s.pps.portMask (mac / 4)

/-- Whether a sequenceId is after the last one accepted of its kind on the port (R72). -/
def seqFresh (p : PtpPort) (kind q : Nat) : Bool :=
  match tabFind? p.lastSeq kind with
  | none => true
  | some l => let d := (q + 65536 - l) % 65536; d ≠ 0 && d < 32768

/-- offsetFromMaster in 2^-16 ns from the delays both ways and the MAC's asymmetry (R263), as a servo error (R61). -/
def ptpError (ms sm asym : Int) : Int :=
  let ofs := (ms - sm) / 2 - asym
  (ofs * 6144 + 1562) / 3125

/-- PTP of a MAC, and its change. -/
def ptpPort (s : State) (mac : Nat) : PtpPort := tabGet s.pps.ports mac {}
def updPtp (mac : Nat) (f : PtpPort → PtpPort) (s : State) : State :=
  updPps (fun w => { w with ports := tabUpd w.ports mac {} f }) s

/-- The device's own data set, and the order of data sets under the alternate BMCA with local priority 128 on every port (R60;
assumption 158). -/
def ownSet : PtpSet := { identity := Config.clockIdentity % 2 ^ 64 }
def setRank (d : PtpSet) (source : Nat) : List Nat := [d.cls, d.accuracy, d.variance, d.prio2, 128, d.identity, d.steps, source]

/-- The lesser of two rankings, compared place by place. -/
def rankLt : List Nat → List Nat → Bool
  | a :: r, b :: t => a < b || (a = b && rankLt r t)
  | _, _ => false

/-- The MAC with the best Announce, if it is better than the device's own clock. -/
def bestPort (l : List (Nat × PtpPort)) : Option Nat :=
  (l.foldl (fun (a : Option Nat × List Nat) p =>
    match p.2.best with
    | none => a
    | some (d, src) => if rankLt (setRank d src) a.2 then (some p.1, setRank d src) else a) (none, setRank ownSet 0)).1

/-- The roles of the ports: the best is the slave, the others are masters (R60). A port that becomes another's slave measures its
delay anew. -/
def electPorts (s : State) : State :=
  let best := bestPort s.pps.ports
  updPps (fun w => { w with ports := w.ports.map (fun p =>
    let new : Bool := best = some p.1
    (p.1, if p.2.slave == new then p.2 else { p.2 with slave := new, sync := none, req := none, delay := none, stamp := none })) }) s

/-- A PTP packet of a kind into Q2 (R247), with its sequenceId. -/
def sendPtp (mac : Nat) (k : PtpKind) (seq : Nat) (twoStep : Bool) (corr : Int) (body : List Byte) (s : State) : State :=
  enqueue mac 2 { bytes := ptpEth (Config.ptpForwardable mac) (macOf s mac).address
                    (ptpBytes k s.pps.domain seq mac twoStep corr body),
                  ptp := some (k, seq), key := (s.tmb.free, 0) } s

/-- The offset of a completed Sync exchange makes a servo input, m being the free tick of the Sync's receive timestamp (R61). -/
def syncDone (mac : Nat) (t1 t2 corr : Int) (free : Nat) (s : State) : State :=
  match (ptpPort s mac).delay with
  | none => s
  | some sm => servoInput (ptpError (t2 - t1 - corr) sm (macOf s mac).asym) free s

/-- What a message does once it is accepted: an Announce settles the ports' roles, Sync, Follow_Up and Delay_Resp on the slave port
measure, a Delay_Req on a master port is answered (R60, R61, R263). -/
def ptpAccept (mac : Nat) (msg : PtpMsg) (s : State) : State :=
  let p := ptpPort s mac
  let (tick, frac, free) := rxStamp s mac msg.cap16
  let now : Int := ptpNs16 tick frac
  match msg.body with
  | .announce d => electPorts (updPtp mac (fun p => { p with best := some (d, msg.source) }) s)
  | .sync two t1 =>
    if !p.slave then s
    else if two then updPtp mac (fun p => { p with sync := some (msg.seqId, now, msg.corr, free) }) s
    else syncDone mac t1 now msg.corr free s
  | .followUp t1 =>
    match p.sync with
    | some (q, t2, corr, f) =>
      if p.slave && q = msg.seqId then
        syncDone mac t1 t2 (corr + msg.corr) f (updPtp mac (fun p => { p with sync := none }) s)
      else s
    | none => s
  | .delayReq =>
    if p.slave then s
    else sendPtp mac .delayResp msg.seqId false msg.corr
      (ptpStamp now.toNat ++ beBytes 10 msg.source) s
  | .delayResp t4 =>
    match p.req with
    | some (q, t3) =>
      if p.slave && q = msg.seqId then updPtp mac (fun p => { p with req := none, delay := some (t4 - t3 - msg.corr) }) s else s
    | none => s
  | .other => s

/-- The kinds of messages, for their sequenceIds. -/
def bodyKind : PtpBody → Nat
  | .announce _ => 11 | .sync _ _ => 0 | .followUp _ => 8 | .delayReq => 1 | .delayResp _ => 9 | .other => 15

/-- A PTP message reaches the firmware (R60, R61, R72): one of another domain, a stale one, or any while PTP does not run on the
MAC, is discarded. -/
def ptpFrame (mac : Nat) (msg : PtpMsg) (s : State) : State :=
  if !ptpRuns s mac || msg.domain ≠ s.pps.domain || !seqFresh (ptpPort s mac) (bodyKind msg.body) msg.seqId then s
  else ptpAccept mac msg (updPtp mac (fun p => { p with lastSeq := tabPut p.lastSeq (bodyKind msg.body) msg.seqId }) s)

def execPtpFrame (mac : Nat) (msg : PtpMsg) (s : State) : Host.Outcome State Fault Refusal :=
  run (mac < 32) "mac" (ptpFrame mac msg s)

/-- The data set the device announces: its parent's, one step on, or its own. -/
def sentSet (s : State) : PtpSet :=
  match (s.pps.ports.find? (fun p => p.2.slave)).bind (fun p => p.2.best) with
  | some (d, _) => { d with steps := d.steps + 1 }
  | none => ownSet

/-- The firmware sends a PTP message: Sync, Follow_Up and Announce on master ports, Delay_Req on the
slave port (R60). A Follow_Up carries the transmit timestamp of the Sync before it (R262). -/
def ptpTransmit (mac : Nat) (kind : PtpKind) (s : State) : State :=
  let p := ptpPort s mac
  if !ptpRuns s mac || (p.slave != (kind == .delayReq)) || kind = .delayResp then s
  else if kind = .followUp then
    match p.stamp with
    | none => s
    | some (q, ns16) => sendPtp mac .followUp q false (ns16 % 65536 : Nat) (ptpStamp ns16)
        (updPtp mac (fun p => { p with stamp := none }) s)
  else
    let q := tabGet p.txSeq (ptpType kind) 0
    sendPtp mac kind q (kind = .sync && !(macOf s mac).oneStep) 0
      (if kind = .announce then announceBody (sentSet s) else List.replicate 10 0)
      (updPtp mac (fun p => { p with txSeq := tabPut p.txSeq (ptpType kind) ((q + 1) % 65536) }) s)

def execPtpTransmit (mac : Nat) (kind : PtpKind) (s : State) : Host.Outcome State Fault Refusal :=
  run (mac < 32) "mac" (ptpTransmit mac kind s)

/-- An ESMC message arrives: its quality level is kept and reported to the host, and the firmware may select the lanes of the
recovered-clock outputs anew (R62; assumption 159). -/
def esmcReceive (mac ql : Nat) (s : State) : State :=
  let a := drawFree s
  let b := drawFree a.2
  emit (.quality mac ql) (updPps (fun p => { p with esmc := tabPut p.esmc mac ql, rclk := (a.1 % 33, b.1 % 33) }) b.2)

def execEsmcReceive (mac ql : Nat) (s : State) : Host.Outcome State Fault Refusal :=
  run (mac < 32 && ql < 16) "esmc" (esmcReceive mac ql s)

/-- The firmware sends an ESMC message into Q2 (R62, R247). -/
def esmcTransmit (mac ql : Nat) (s : State) : State :=
  enqueue mac 2 { bytes := esmcEth (macOf s mac).address ql, key := (s.tmb.free, 0) } s

def execEsmcTransmit (mac ql : Nat) (s : State) : Host.Outcome State Fault Refusal :=
  run (mac < 32 && ql < 16) "esmc" (esmcTransmit mac ql s)

/-! ### Host frames out (R256) -/

/-- The result of one ETH_TX entry: its status and, on success with a length, the frame's packet. -/
def ethTxCheck (s : State) (part : Nat) (body : List Byte) : Status × Nat × Nat × List Byte :=
  let ofs := field body 0 8
  let len := field body 8 2
  let mac := field body 10 1
  let q := field body 11 1
  let m := macOf s mac
  if len = 0 then (.success, mac, q, [])
  else if q < 3 || 7 < q || !macPresent s mac then (.badField, mac, q, [])
  else if m.maxFrame - 4 < len || len < 60 then (.badLength, mac, q, [])
  else if !inTarget s part ofs len then (.badAddress, mac, q, [])
  else if (queueOf m q).depth ≤ (queueOf m q).pkts.length then (.busy, mac, q, [])
  else (.success, mac, q, hdmRead s ofs len)

/-- An ETH_TX entry leaves its ring for an egress queue (R256); its completion goes out with its tag. -/
def ethTx (ring : Nat) (s : State) : State :=
  match headMsg s ring 4, ringOf s ring with
  | some (0x60, tag, k, body), some r =>
    let (st, mac, q, bytes) := ethTxCheck s r.part body
    let s := takeHead ring k s
    let s := if st = .busy then
        macCount mac (fun c => { c with txDrop := tabUpd c.txDrop q {} ctrInc }) s
      else if bytes.isEmpty then s
      else enqueue mac q { bytes := bytes, tagged := false, key := (s.tmb.free, 0) } s
    emit (.ringDone ring tag st) s
  | _, _ => s

def execEthTx (ring : Nat) (s : State) : Host.Outcome State Fault Refusal :=
  run (ring < 4096) "ring" (ethTx ring s)

/-! ### Links and the commands of R257 -/

/-- A MAC's link comes up or goes down: FH_LINK (R229, R259). -/
def fhLink (mac : Nat) (up : Bool) (s : State) : State :=
  if (macOf s mac).link = up || (up && !macPresent s mac) then s
  else post { code := 0x0460, detail := leBytes 1 mac ++ leBytes 1 (b2n up) ++ leBytes 1 (macMode s mac) }
    (updMac mac (fun m => { m with link := up }) s)

def execFhLink (mac : Nat) (up : Bool) (s : State) : Host.Outcome State Fault Refusal :=
  run (mac < 32) "mac" (fhLink mac up s)

/-- Whether a MAC has a binding whose table is in one of the states given. -/
def macBoundIn (s : State) (mac : Nat) (st : List TableState) : Bool :=
  s.fh.binds.any (fun b => b.2.mac == mac
    && s.tts.tables.any (fun t => t.1 < 8 && t.2.part == b.2.part && st.contains t.2.state))

/-- FH_PORT_MODE (R227, R229): every MAC of the port goes down and its queues, gates, policers and
counters return to what Dawn left (assumption 11); bindings on MACs that are gone are removed. -/
def portModeBody (q : Req) (s : State) : State × Reply :=
  let port := pl q 0 1
  let mode := pl q 1 1
  if 7 < port || 3 < mode then failed .badField s
  else
    let macs := (List.range 4).map (fun m => port * 4 + m)
    if macs.any (fun m => macBoundIn s m [.running, .stopping]) then failed .notPermitted s
    else if tabGet s.fh.modes port 0 = mode then (s, reply .success)
    else
      let s := macs.foldl (fun s m => fhLink m false s) s
      let clear := fun (m : FhMac) => { m with queues := [], drrPtr := 3, drrGranted := false,
                                               sending := none, preempted := none, gcl := {},
                                               gclPending := none, gclTick := 0, gates := 255,
                                               policers := [], ctr := {} }
      let s := macs.foldl (fun s m => updMac m clear s) s
      (updFh (fun h => { h with
        modes := tabPut h.modes port mode, rxFill := tabDel h.rxFill port,
        binds := h.binds.filter (fun b => !(macs.contains b.2.mac && !modeProvides mode (b.2.mac % 4))) }) s,
       reply .success)

def execFhPortMode (m : Nat) (s : State) : Host.Outcome State Fault Refusal :=
  run (m < 80) "mailbox" (runCommand 0x0460 m portModeBody s)

/-- FH_MAC_CONFIG (R257, R258). -/
def macConfigBody (q : Req) (s : State) : State × Reply :=
  let mac := pl q 0 1
  let prof := pl q 1 1
  let maxFrame := pl q 2 2
  let vid := pl q 4 2
  let step := pl q 6 1
  let groups := pl q 7 1
  let m := macOf s mac
  if !macPresent s mac || 1 < prof || maxFrame < 64 || 9216 < maxFrame || vid = 0
      || (4095 ≤ vid && vid ≠ 0xFFFF) || 1 < step || 16 < groups then failed .badField s
  else if q.cmd.len < 16 + 8 * groups then failed .badLength s
  else if macBoundIn s mac [.running]
      && (m.profileB != (prof == 1) || m.maxFrame != maxFrame || m.vid != vid) then
    failed .notPermitted s
  else
    (updMac mac (fun m => { m with
        profileB := prof = 1, maxFrame := maxFrame, vid := vid, oneStep := step = 1,
        address := pl q 8 6, hostRing := pl q 14 2,
        groups := (List.range groups).map (fun i => pl q (16 + 8 * i) 6) }) s, reply .success)

def execFhMacConfig (m : Nat) (s : State) : Host.Outcome State Fault Refusal :=
  run (m < 80) "mailbox" (runCommand 0x0461 m macConfigBody s)

/-- FH_QUEUE_CONFIG (R247 to R250, R258). -/
def queueConfigBody (q : Req) (s : State) : State × Reply :=
  let mac := pl q 0 1
  let k := pl q 1 1
  let depth := pl q 2 2
  let weight := pl q 4 1
  let pcp := pl q 5 1
  let rate := pl q 8 4
  let burst := pl q 12 4
  let m := macOf s mac
  let total := ((List.range 8).map (fun j => if j = k then depth else (queueOf m j).depth)).sum
  if !macPresent s mac || 7 < k then failed .badField s
  else if (k < 3 && depth = 0) || (3 ≤ k && weight = 0) || (rate ≠ 0 && burst = 0) then
    failed .zeroNotAllowed s
  else if 7 < pcp || 400000 < rate || (rate ≠ 0 && 1048576 < burst) || 4096 < total then
    failed .badField s
  else
    (updMac mac (fun m => setQueue k { queueOf m k with
        depth := depth, weight := if k < 3 then (queueOf m k).weight else weight, pcp := pcp, rate := rate,
        burst := burst, tokens := 0, frac := 0 } m) s, reply .success)

def execFhQueueConfig (m : Nat) (s : State) : Host.Outcome State Fault Refusal :=
  run (m < 80) "mailbox" (runCommand 0x0462 m queueConfigBody s)

/-- The entries of a gate list in a payload (R251). -/
def gateEntries (q : Req) (n : Nat) : List (Nat × Nat) :=
  (List.range n).map (fun i => (pl q (24 + 8 * i) 4, pl q (28 + 8 * i) 1))

/-- FH_GCL_SET (R251 to R253, R258). -/
def gclSetBody (q : Req) (s : State) : State × Reply :=
  let mac := pl q 0 1
  let n := pl q 2 2
  let cycle := pl q 4 4
  let change := pl q 16 8
  let es := gateEntries q n
  if !macPresent s mac || 128 < n then failed .badField s
  else if q.cmd.len < 24 + 8 * n then failed .badLength s
  else if n ≠ 0 && cycle = 0 then failed .zeroNotAllowed s
  else if 19660800 < cycle || es.any (fun e => e.1 != 0 && e.2 % 8 != 7) then failed .badField s
  else if change < corrNow s + 19661 then failed .late s
  else if corrNow s + 117964800000 < change then failed .timeRange s
  else
    let l : GateList := { base := pl q 8 8, cycle := cycle, entries := es, change := change }
    (updMac mac (fun m => { m with gclPending := some l }) s, reply .success)

def execFhGclSet (m : Nat) (s : State) : Host.Outcome State Fault Refusal :=
  run (m < 80) "mailbox" (runCommand 0x0463 m gclSetBody s)

/-- FH_POLICER_SET: the tokens begin full (R255, R258). -/
def policerSetBody (q : Req) (s : State) : State × Reply :=
  let mac := pl q 0 1
  let i := pl q 1 1
  let vid := pl q 2 2
  let rate := pl q 12 4
  let burst := pl q 16 4
  if !macPresent s mac || 63 < i || vid = 0 || (4095 ≤ vid && vid ≠ 0xFFFF) || pl q 8 2 < pl q 6 2 then
    failed .badField s
  else if rate ≠ 0 && burst = 0 then failed .zeroNotAllowed s
  else if 400000 < rate || (rate ≠ 0 && 1048576 < burst) then failed .badField s
  else
    let p : Policer := { vid := vid, etype := pl q 4 2, eaxcLo := pl q 6 2, eaxcHi := pl q 8 2,
                         rate := rate, burst := burst, tokens := burst, frac := 0 }
    (updMac mac (fun m => { m with policers := tabPut m.policers i p }) s, reply .success)

def execFhPolicerSet (m : Nat) (s : State) : Host.Outcome State Fault Refusal :=
  run (m < 80) "mailbox" (runCommand 0x0464 m policerSetBody s)

/-- FH_ASYM_SET (R263). -/
def asymSetBody (q : Req) (s : State) : State × Reply :=
  if !macPresent s (pl q 0 1) then failed .badField s
  else (updMac (pl q 0 1) (fun m => { m with asym := fieldInt q.cmd.payload 4 4 }) s, reply .success)

def execFhAsymSet (m : Nat) (s : State) : Host.Outcome State Fault Refusal :=
  run (m < 80) "mailbox" (runCommand 0x0465 m asymSetBody s)

/-- The FH_STATUS record (R258). -/
def fhStatusRecord (s : State) (mac : Nat) : List Byte :=
  let m := macOf s mac
  let c := m.ctr
  leBytes 8 (b2n m.link + macMode s mac * 2 + b2n m.profileB * 16 + b2n m.gclPending.isSome * 32)
    ++ leBytes 8 m.gclTick
    ++ ([c.rxFrames, c.rxFcs, c.rxFiltered, c.rxPoliced, c.rxBad, c.rxUnbound, c.rxEarly, c.rxLate,
         c.rxDupPrb, c.rxMissingPrb, c.rxSeqGap, c.rxOverflow, c.rxHostDrop, c.txFrames].flatMap
          (fun x => leBytes 8 (ctrWord x)))
    ++ (List.range 8).flatMap (fun q => leBytes 8 (ctrWord (tabGet c.txDrop q {})))

/-- FH_STATUS: the record, then with clear = 1 its counters clear (R16, R32, R258). -/
def fhStatusBody (q : Req) (s : State) : State × Reply :=
  let mac := pl q 0 1
  let clear := pl q 1 1
  if !macPresent s mac || 1 < clear then failed .badField s
  else (if clear = 1 then updMac mac (fun m => { m with ctr := {} }) s else s,
        { payload := fhStatusRecord s mac })

def execFhStatus (m : Nat) (s : State) : Host.Outcome State Fault Refusal :=
  run (m < 80) "mailbox" (runCommand 0x0466 m fhStatusBody s)

end Sys2Proof.Machine
end

