-- ==== Sys2Proof/Machine/CellOps.lean ====
section
/-!
DEFINITION. The shared operations on cells (chapter 10): states and their events, cost and budgets, FAPI messages out,
admission, the end of a cell's slots, twins.
-/
namespace Sys2Proof.Machine

/-! ### Access -/

def cellKey (p c : Nat) : Nat := p * 64 + c

/-- Cell c of partition p; absent where nothing is listed. -/
def cellOf (s : State) (p c : Nat) : Cell := tabGet s.cells (cellKey p c) {}

/-- Changes a cell that exists. -/
def updCell (p c : Nat) (f : Cell → Cell) (s : State) : State := s.setCells (tabMod s.cells (cellKey p c) f)

/-- Table of a partition's cells. -/
def cellTable (s : State) (p : Nat) : FrameTable := tableOf s (partOf s p).radioSlot

/-- Slot start on a cell's grid, the slot now, and the intake line of a slot (R303). -/
def cellStart (s : State) (x : Cell) (n : Nat) : Nat := slotStart s.win.frameOfs x.cfg.mu x.cfg.ecp n
def cellSlot (s : State) (x : Cell) : Nat := slotAt s.win.frameOfs x.cfg.mu x.cfg.ecp (corrNow s)
def intakeTick (s : State) (x : Cell) (n : Nat) : Nat := cellStart s x (n - 1) - 491520 / 2 ^ x.cfg.mu

def cellCode : CellState → Nat
  | .absent => 0 | .configured => 1 | .running => 2 | .stopping => 3 | .standby => 4 | .moving => 5
def roleCode : CellRole → Nat
  | .unpaired => 0 | .active => 1 | .standby => 2

/-- A cell that does not capture here any more ends its Sweep channels' runs and demodulations (R337). -/
def quietSweep (p c : Nat) (s : State) : State :=
  s.setSweep (s.sweep.map (fun h => if h.2.part = p && h.2.cell = c then (h.1, { h.2 with runs := [], wins := [], active := [] }) else h))

/-- A transition with its CELL_STATE (R300, R315). -/
def cellTo (p c : Nat) (new : CellState) (first : Nat) (s : State) : State :=
  let old := (cellOf s p c).state
  if old = new then s else
  post { code := 0x0400, part := p, detail := leBytes 1 c ++ leBytes 1 (cellCode old) ++ leBytes 1 (cellCode new)
         ++ leBytes 1 0 ++ leBytes 8 first }
    (updCell p c (fun x => { x with state := new })
      (if new = .running || new = .moving || new = .stopping then s else quietSweep p c s))

/-- Posts TWIN_STATE (R315). -/
def twinState (p c : Nat) (s : State) : State :=
  let x := cellOf s p c
  post { code := 0x0401, part := p, detail := leBytes 1 c ++ leBytes 1 (roleCode x.role) ++ leBytes 1 (b2n x.synced)
         ++ leBytes 1 0 ++ leBytes 8 x.lastRecord } s

/-! ### Cost and budgets (R294, R295, R297) -/

/-- The cost in 1/64 cell unit (R294), exact: 64 * max(c_fe, c_ul, c_dl) rounded up, at least 1. -/
def cellCost (x : CellConfig) : Nat :=
  let k := 2 ^ x.mu
  let fe := cdiv (64 * k * max x.prbDl x.prbUl * max x.antTx x.antRx) (546 * 4)
  let base := k * x.prbUl * x.layersUl
  let ul := if x.fdd then cdiv (64 * base * 4) (546 * 4)
    else max (cdiv (64 * base) (546 * 4)) (cdiv (64 * base * 4 * x.uSlots) (546 * 4 * max 1 x.periodSlots))
  let dl := cdiv (64 * k * x.prbDl * x.layersDl) (546 * 4)
  max 1 (max fe (max ul dl))

/-- Costs of a partition's cells, and of all cells (R297). -/
def partCost (s : State) (p : Nat) : Nat :=
  (s.cells.filter (fun c => c.1 / 64 = p && c.2.state ≠ .absent)).foldl (fun n c => n + c.2.cost64) 0
def allCost (s : State) : Nat :=
  (s.cells.filter (fun c => c.2.state ≠ .absent)).foldl (fun n c => n + c.2.cost64) 0

/-- K_b, and the columns of a base graph. -/
def kbOf (bg : Nat) : Nat := if bg = 0 then 22 else 10
def bgCols (bg : Nat) : Nat := if bg = 0 then 68 else 52

/-- k0 of a redundancy version (TS 38.212 table 5.4.2.1-2; assumption 21). -/
def rvStart (bg zc ncb rv : Nat) : Nat :=
  (if bg = 0 then [0, 17, 33, 56] else [0, 13, 25, 43]).getD rv 0 * ncb / ((bgCols bg - 2) * zc) * zc

/-- The highest base-graph column that a transmission of E bits of a code block reaches: from k0 of its redundancy version on,
over the filler bits, wrapping at N_cb; the 2 × zc punctured positions count at the front (R273). -/
def highColumn (b : CodeBlock) (rv : Nat) : Nat :=
  let f0 := kbOf b.bg * b.zc - b.filler - 2 * b.zc
  let below := fun p => if p ≤ f0 then p else max f0 (p - b.filler)
  let n := below b.ncb
  let i := min n (below (rvStart b.bg b.zc b.ncb rv) + b.e) - 1
  if b.e = 0 || n = 0 || b.zc = 0 then 0 else ((if i < f0 then i else i + b.filler) + 2 * b.zc) / b.zc

/-- Base-graph rows to process for a highest column (R273). -/
def rowsFor (bg c : Nat) : Nat := max 4 (c + 1 - kbOf bg)

/-- The highest column the soft buffer of a PDU's process holds, as it stands before combining; 0 where nothing is stored. -/
def storedHigh (x : Cell) (p : Pdu) : Nat :=
  let h := tabGet x.harq p.harq {}
  if p.newData || h.slot.isNone || h.noCombine then 0 else h.high

/-- Rows of a PUSCH code block, what is stored counted, and of a PDSCH one (R273, R278). -/
def decodeRows (x : Cell) (p : Pdu) (b : CodeBlock) : Nat := rowsFor b.bg (max (storedHigh x p) (highColumn b p.rv))
def encodeRows (p : Pdu) (b : CodeBlock) : Nat := rowsFor b.bg (highColumn b p.rv)

/-- Cycles of an LDPC decoding, an LDPC encoding, a polar decoding and a polar encoding (R277 to R279). -/
def ldCycles (iter rows zc : Nat) : Nat := 54 + iter * rows * (8 + 8 * cdiv zc 128)
def leCycles (rows zc e : Nat) : Nat := 38 + 2 * rows * cdiv zc 128 + cdiv e 128
def pdCycles (n k e : Nat) : Nat := 96 + n * Nat.log2 n / 8 + 4 * k + cdiv e 64
def peCycles (n e : Nat) : Nat := 32 + n / 16 + cdiv e 64

/-- The six classes of R295 in the order of R302. -/
def classBudget (x : Cell) (cls : Nat) : Nat :=
  let spread := fun (coef : Nat) =>
    let num := x.cost64 * coef
    let den := 64 * 2 ^ x.cfg.mu
    let u := if x.cfg.fdd then 1 else x.cfg.uSlots
    let per := if x.cfg.fdd then 1 else x.cfg.periodSlots
    if 14 * u ≤ 10 * per then num * 14 / (den * 10) else num * per / (den * u)
  let flat := fun (coef : Nat) => x.cost64 * coef / (64 * 2 ^ x.cfg.mu)
  match cls with
  | 0 => spread 320000 | 1 => spread 40000 | 2 => flat 80000 | 3 => flat 20000 | _ => flat 2184

/-- The demand of a PDU in a class. -/
def pduDemand (x : Cell) (cls : Nat) (p : Pdu) : Nat :=
  let blocks := fun (f : CodeBlock → Nat) => p.blocks.foldl (fun n b => n + b.count * f b) 0
  let polar := fun (f : Nat × Nat × Nat → Nat) => p.polar.foldl (fun n q => n + f q) 0
  match cls, p.kind with
  | 0, .pusch => blocks (fun b => ldCycles x.cfg.ldIter (decodeRows x p b) b.zc)
  | 1, .pusch => polar (fun q => pdCycles q.1 q.2.1 q.2.2)
  | 1, .pucch => polar (fun q => pdCycles q.1 q.2.1 q.2.2)
  | 2, .pdsch => blocks (fun b => leCycles (encodeRows p b) b.zc b.e)
  | 3, .pdcch => polar (fun q => peCycles q.1 q.2.2)
  | 3, .ssb => 0
  | 4, .pusch => p.prbs * p.layers
  | 5, .pdsch => p.prbs * p.layers
  | _, _ => 0

/-- PDUs of a kind that a slot may hold (R264). -/
def kindLimit : PduKind → Nat
  | .pdsch => 64 | .pdcch => 64 | .ssb => 4 | .csiRs => 64 | .pusch => 32 | .pucch => 64 | .prach => 8 | .srs => 64

/-- Mother code lengths a polar engine takes (R279, R293). -/
def motherOk (n : Nat) : Bool := n = 32 || n = 64 || n = 128 || n = 256 || n = 512 || n = 1024

/-- Whether R264 lists every option that a PDU asks for, and R265 excludes none. -/
def pduSupported (p : Pdu) : Bool :=
  let a := p.ask
  a.excluded.isEmpty && p.polar.all (fun q => motherOk q.1) && (match p.kind with
  | .pdsch => [2, 4, 6, 8, 10].contains a.modulation && !a.dfts && p.layers ≤ 8 && 1 ≤ a.dmrsType && a.dmrsType ≤ 2
      && 1 ≤ a.dmrsSymbols && a.dmrsSymbols ≤ 2 && a.dmrsAdded ≤ 3 && a.cbgs ≤ 8
  | .pusch => (if a.dfts then [1, 2, 4, 6, 8].contains a.modulation && p.layers ≤ 1
      else [2, 4, 6, 8].contains a.modulation && p.layers ≤ 4) && a.bits ≤ 1706
  | .pdcch => [1, 2, 4, 8, 16].contains a.aggregation && 1 ≤ a.symbols && a.symbols ≤ 3 && a.bits ≤ 140
  | .ssb => [4, 8, 64].contains a.lmax
  | .csiRs => a.ports ≤ 32
  | .pucch => a.format ≤ 4 && a.bits ≤ 1706
  | .prach => (if p.prach.long then a.format ≤ 3 else a.format ≤ 8) && p.prach.preambles.length ≤ 64
  | .srs => [1, 2, 4].contains a.ports && [1, 2, 4].contains a.symbols && [2, 4, 8].contains a.comb)

/-- Whether two PDUs share a resource element. -/
def pdusMeet (a b : Pdu) : Bool :=
  a.firstPrb < b.firstPrb + b.prbs && b.firstPrb < a.firstPrb + a.prbs
    && a.firstSym < b.firstSym + b.syms && b.firstSym < a.firstSym + a.syms

/-! ### FAPI messages (R301) -/

/-- Messages in the indication area that the host has not passed. -/
def liveSpans (s : State) (x : Cell) : List (Nat × Nat) :=
  match ringOf s x.cfg.indRing with
  | none => []
  | some r => x.indSpans.filter (fun p => idxSub p.1 r.hostIdx ≠ 0 && idxSub p.1 r.hostIdx ≤ ringSize r)

/-- Sends a FAPI message on a cell's indication ring and area; a full area or ring drops and counts it. The header is
identity and length (assumption 18). -/
def fapi (p c identity : Nat) (body : List Byte) (s : State) : State :=
  let x := cellOf s p c
  let msg := leBytes 2 identity ++ leBytes 4 body.length ++ body
  let n := (msg.length + 63) / 64 * 64
  let live := liveSpans s x
  let used := live.foldl (fun k q => k + q.2) 0
  let skip := if x.cfg.indLen < x.indPos + n then x.cfg.indLen - x.indPos else 0
  let pos := if skip = 0 then x.indPos else 0
  if x.cfg.indLen < used + skip + n || !ringRoom s x.cfg.indRing 1 then
    updCell p c (fun x => { x with indDrops := ctrInc x.indDrops }) s
  else
    let s := hdmWrite (x.cfg.indBase + pos) msg s
    let s := ringPut x.cfg.indRing 0x11 0 (leBytes 8 (x.cfg.indBase + pos) ++ leBytes 4 msg.length ++ leBytes 1 c
      ++ leBytes 3 0) s
    let at_ := ((ringOf s x.cfg.indRing).map (fun r => r.devIdx)).getD 0
    updCell p c (fun x => { x with indPos := (pos + n) % x.cfg.indLen, indSpans := live ++ [(at_, skip + n)] }) s

/-- SFN and slot fields of an absolute slot. -/
def sfnSlot (x : Cell) (n : Nat) : List Byte :=
  leBytes 2 (n / slotsPerFrame x.cfg.mu % 1024) ++ leBytes 2 (n % slotsPerFrame x.cfg.mu)

/-- ERROR.indication: SFN, slot, the identity that caused it and the error code (assumption 18). -/
def errorInd (p c identity code sfn slot : Nat) (s : State) : State :=
  fapi p c 0x07 (leBytes 2 sfn ++ leBytes 2 slot ++ leBytes 2 identity ++ leBytes 1 code) s

/-- Error codes of ERROR.indication (assumption 18). -/
def msgInvalidState : Nat := 1
def msgInvalidConfig : Nat := 2
def msgSlotErr : Nat := 4
def msgInvalidSfn : Nat := 6

/-- The status a K_REJECT reason carries (R302; the pairing is assumption 19). -/
def reasonStatus (r : Nat) : Status :=
  if r = 1 then .overBudget else if r = 4 || r = 6 then .slotLate else if r = 7 then .cellState else .badField

/-- K_REJECT.indication: entries (uplink, reason, class, index) (R302). -/
def kReject (p c n : Nat) (l : List (Bool × Nat × Nat × Nat)) (s : State) : State :=
  if l.isEmpty then s else
  let x := cellOf s p c
  fapi p c 0x0181 (sfnSlot x n ++ leBytes 2 l.length ++ leBytes 2 0
      ++ l.flatMap (fun e => leBytes 1 (b2n e.1) ++ leBytes 1 e.2.1 ++ leBytes 1 e.2.2.1 ++ leBytes 1 0
        ++ leBytes 2 e.2.2.2 ++ leBytes 2 (statusCode (reasonStatus e.2.1))))
    (updCell p c (fun x => { x with rejected := ctrAdd x.rejected l.length }) s)

/-- K_TWIN.indication (R311). -/
def kTwin (p c event first lost : Nat) (s : State) : State :=
  fapi p c 0x0182 (leBytes 1 event ++ leBytes 3 0 ++ leBytes 8 first ++ leBytes 8 lost) s

/-! ### Admission (R304) -/

/-- A PDU on its way through admission: uplink, index, priority, PDU. -/
structure Candidate where
  up : Bool
  idx : Nat
  prio : Nat
  pdu : Pdu
  deriving DecidableEq, Repr

/-- The candidates of a slot with their indices and priorities (R302, R304). -/
def candidates (h : SlotHold) : List Candidate :=
  let dl := h.dl.getD [] ++ h.dci.getD []
  let ul := h.ul.getD []
  let prio := fun (up : Bool) i => ((h.prio.find? (fun e => e.1 = up && e.2.2 = i)).map (fun e => e.2.1)).getD 4
  let mk := fun (up : Bool) (l : List Pdu) =>
    (List.range l.length).map (fun i => ({ up := up, idx := i, prio := prio up i, pdu := l.getD i {} } : Candidate))
  mk false dl ++ mk true ul

/-- A rejection: what K_REJECT says of it. -/
abbrev Reject := Bool × Nat × Nat × Nat

/-- Rejects by a test with a reason. -/
def rejectIf (reason : Nat) (bad : Candidate → Bool) (l : List Candidate) (r : List Reject) :
    List Candidate × List Reject :=
  (l.filter (fun c => !bad c), r ++ (l.filter bad).map (fun c => (c.up, reason, 0, c.idx)))

/-- Whether a PDU and those before it that share its resources ask for more than 16 layers (R264; assumption 161). -/
def overLayers (l : List Candidate) (c : Candidate) : Bool :=
  (c.pdu.kind = .pdsch || c.pdu.kind = .pusch)
    && 16 < (l.filter (fun d => d.pdu.kind = c.pdu.kind && d.up = c.up && d.idx ≤ c.idx && pdusMeet d.pdu c.pdu)).foldl
        (fun n d => n + d.pdu.layers) 0

/-- Rejects over the count of a kind, highest index first. -/
def rejectCount (l : List Candidate) (r : List Reject) : List Candidate × List Reject :=
  let beyond := fun (c : Candidate) =>
    kindLimit c.pdu.kind ≤ (l.filter (fun d => d.pdu.kind = c.pdu.kind && d.up = c.up && d.idx < c.idx)).length
  rejectIf 3 beyond l r

/-- Sum of the demand of a class. -/
def demandOf (x : Cell) (cls : Nat) (l : List Candidate) : Nat := l.foldl (fun n c => n + pduDemand x cls c.pdu) 0

/-- The first class over budget in which a PDU has demand. -/
def overClass (x : Cell) (l : List Candidate) (c : Candidate) : Option Nat :=
  firstBelow 6 (fun k => classBudget x k < demandOf x k l && pduDemand x k c.pdu ≠ 0)

/-- Budget rejections, one PDU at a time in rejection order. -/
def rejectBudget (x : Cell) : Nat → List Candidate → List Reject → List Candidate × List Reject
  | 0, l, r => (l, r)
  | n + 1, l, r =>
    let order := sortBy (fun (a b : Candidate) => b.prio < a.prio || (a.prio = b.prio && b.idx < a.idx)) l
    match order.find? (fun c => (overClass x l c).isSome) with
    | none => (l, r)
    | some c => rejectBudget x n (l.filter (fun d => d ≠ c)) (r ++ [(c.up, 1, (overClass x l c).getD 0, c.idx)])

/-- Admission of a slot: what stays and what is rejected (R303, R304); `sweep` tells PDUs on PRBs of a Sweep channel (R318). -/
def admitPdus (x : Cell) (sweep : Pdu → Bool) (h : SlotHold) : List Candidate × List Reject :=
  let (l, r) := rejectIf 5 (fun c => c.pdu.kind = .pdsch && !c.up && !h.tx.any (fun t => t.1 = c.idx)) (candidates h) []
  let (l, r) := rejectIf 8 (fun c => c.pdu.kind = .pdsch && c.pdu.srsPrecoding && !x.csi) l r
  let (l, r) := rejectIf 2 (fun c => !pduSupported c.pdu || sweep c.pdu) l r
  let (l, r) := rejectIf 2 (overLayers l) l r
  let (l, r) := rejectCount l r
  rejectBudget x l.length l r

/-! ### HARQ (R281 to R283, R290) -/

/-- The lowest free soft-buffer slot of a pool. -/
def freeSlot (x : Cell) : Option Nat := firstBelow x.cfg.poolSlots (fun k => !x.harq.any (fun h => h.2.slot = some k))

/-- An admitted PUSCH takes or keeps its process's slot (R281). A retransmission decoded without combining, because no slot holds
its process, because of a mark, or because its input phase comes too early (R282), counts its code blocks. -/
def harqStart (x : Cell) (n : Nat) (early : Bool) (p : Pdu) : Cell × Nat :=
  let h := tabGet x.harq p.harq {}
  let high := p.blocks.foldl (fun m b => max m (highColumn b p.rv)) 0
  let now := fun (h : Harq) => { h with noCombine := false, last := some n, tbs := p.tbs, rv := p.rv, ndi := p.ndi }
  let put := fun (x : Cell) (h : Harq) => { x with harq := tabPut x.harq p.harq (now h) }
  if p.newData then
    let x := { x with harq := tabDel x.harq p.harq }
    (put x { slot := freeSlot x, high := high }, 0)
  else if h.slot.isNone || h.noCombine || early then
    (put x { h with high := high }, p.blocks.foldl (fun n b => n + b.count) 0)
  else (put x { h with high := max h.high high }, 0)

/-- The admitted PUSCH of slot n; `early` tells by process which come too early. The cell, the code blocks decoded without
combining, and the indices of their PDUs. -/
def harqAll (x : Cell) (n : Nat) (early : Nat → Bool) (l : List (Nat × Pdu)) : Cell × Nat × List Nat :=
  (l.filter (fun q => q.2.kind = .pusch)).foldl (fun (a : Cell × Nat × List Nat) q =>
    let (x, k) := harqStart a.1 n (early q.2.harq) q.2
    (x, a.2.1 + k, if k = 0 then a.2.2 else a.2.2 ++ [q.1])) (x, 0, [])

/-- Whether an instruction posts a job to an LD engine. -/
def postsDecode : ProgOp → Bool
  | .post v _ _ => 0x80 ≤ v && v < 0xC0
  | _ => false

/-- The first tick of a slot at which a stage of a cell that posts decoding jobs is launched: before it no job of the slot can
begin its input phase. -/
def decodeStart (s : State) (t : FrameTable) (n c : Nat) (es : List TEntry) : Option Nat :=
  let posts := fun (e : TEntry) => t.tmpl.placement.programs.any (fun g => g.number = e.program
    && (entryUnits e).contains (bindUnit t.bind g.unit) && g.streams.any (fun l => l.any postsDecode))
  ((es.filter (fun e => e.kind = 0 && e.cell = c && posts e)).map (fun e => tStart s t n + e.launchOfs)).min?

/-- Whether the jobs of slot n of a process may begin before the write-back of its last transmission has ended, which U7 follows
and so ends by that slot's air deadline (R271, R282; assumption 162). -/
def decodesEarly (s : State) (t : FrameTable) (n c : Nat) (x : Cell) (es : List TEntry) (process : Nat) : Bool :=
  match decodeStart s t n c es, (tabGet x.harq process {}).last with
  | some a, some m => decide (a < tStart s t (m + x.cfg.ulDeliver))
  | _, _ => false

/-- The firmware builds the decoding jobs of slot n of a cell when it seals the slot (R281, R282). -/
def buildJobs (p c n : Nat) (es : List TEntry) (s : State) : State :=
  let x := cellOf s p c
  let k := (partOf s p).radioSlot
  match tabFind? x.admitted n with
  | none => s
  | some a =>
    let (x', lost, alone) := harqAll x n (decodesEarly s (tableOf s k) n c x es) a.ul
    let s := updCell p c (fun _ => { x' with admitted := tabPut x'.admitted n { a with alone := alone } }) s
    if lost = 0 then s else s.setCde { s.cde with notCombined := tabUpd s.cde.notCombined k 0 (fun q => q + lost) }

/-! ### Bindings and removal (R236, R237, R300) -/

/-- Removes the bindings of a cell. -/
def dropBindings (p c : Nat) (s : State) : State :=
  updFh (fun h => { h with binds := h.binds.filter (fun b => !(b.2.part = p && b.2.cell = c)) }) s

/-- A cell goes: its event, its bindings, its record (R300). -/
def destroyCell (p c : Nat) (s : State) : State :=
  let s := dropBindings p c (cellTo p c .absent (cellSlot s (cellOf s p c)) s)
  s.setCells (tabDel s.cells (cellKey p c))

/-- The first slot whose intake line falls after now. -/
def nextIntake (s : State) (x : Cell) : Nat :=
  let n := cellSlot s x
  n + ((List.range 4).find? (fun i => corrNow s < intakeTick s x (n + i))).getD 4

/-- The HARQ state of a cell's processes as it is mirrored (R308). -/
def harqProcs (x : Cell) : List HarqMirror :=
  x.harq.map (fun h => { process := h.1, slot := h.2.slot.getD 255, tbs := h.2.tbs, rv := h.2.rv, ndi := h.2.ndi })

/-! ### The end of a cell's slots (R300, R311) -/

/-- Whether entries of a cell in slots up to n are all over. -/
def cellSlotsOver (s : State) (p c n : Nat) : Bool :=
  let k := (partOf s p).radioSlot
  let t := tableOf s k
  !(s.tts.resv.any (fun r => r.table = k && r.entry.cell = c && r.entry.kind = 0 && r.slot ≤ n))
    && !(t.insts.any (fun i => slotCounts s t i.2.slot && i.2.slot ≤ n
      && (instSealed s k t i.2).any (fun x => !i.2.gone.contains x.pos && x.entry.kind = 0 && x.entry.cell = c)))

/-- What the cells of a partition do when a reservation has ended: a stopping cell returns to CONFIGURED with its
STOP.indication, a moving one becomes STANDBY. -/
def cellsEnd (p : Nat) (s : State) : State :=
  (s.cells.filter (fun c => c.1 / 64 = p)).foldl (fun s q =>
    let c := q.1 % 64
    let x := cellOf s p c
    if x.state = .stopping && cellSlotsOver s p c x.lastSlot then
      cellTo p c .configured (x.lastSlot + 1) (fapi p c 0x06 (sfnSlot x x.lastSlot) s)
    else match x.moveTo with
      | some n =>
        if x.state = .moving && cellSlotsOver s p c (n - 1) then
          let s := emit (.mirror x.peerDev x.peerPart x.peerCell (.harq (n - 1) (harqProcs x))) s
          let s := updCell p c (fun x => { x with role := .standby, moveTo := none, synced := false, snapshot := false,
                                                  slots := [], admitted := [] }) s
          twinState p c (cellTo p c .standby n s)
        else s
      | none => s) s

/-- Phase A of a grid reset runs (R460). -/
def inPhaseA (s : State) : Bool := (s.hlt.grid.map (fun g => g.phaseB.isNone)).getD false

/-- Accepts a stop of a running cell: its last slot is the highest already sealed (R300). -/
def stopCell (p c : Nat) (s : State) : State :=
  let last := sealedThrough (cellTable s p)
  let x := cellOf s p c
  let s := updCell p c (fun x => { x with lastSlot := last }) s
  cellsEnd p (cellTo p c .stopping (cellSlot s x) s)

/-! ### PRACH detection (R284, R285) -/

/-- L and T of an occasion. -/
def prachLen (o : Prach) : Nat := if o.long then 839 else 139
def prachSize (o : Prach) : Nat := if o.long then 1024 else 256

/-- The first bin of the zone of a cyclic shift, and the bins a zone spans. -/
def zoneStart (o : Prach) (cv : Nat) : Nat :=
  (prachSize o - cdiv (cv * prachSize o) (prachLen o) % prachSize o) % prachSize o
def zoneSpan (o : Prach) : Nat := o.ncs * prachSize o / prachLen o

/-- The floor of the mean power over all bins of all roots of the occasion; `pw` is P_u[b]. -/
def prachNoise (o : Prach) (pw : Nat → Nat → Nat) : Nat :=
  let roots := (o.preambles.map (fun q => q.1)).eraseDups
  (roots.foldl (fun n u => n + ((List.range (prachSize o)).map (pw u)).sum) 0) / (roots.length * prachSize o)

/-- The largest power in a zone with its offset; on a tie the lowest offset wins. -/
def zonePeak (o : Prach) (pw : Nat → Nat → Nat) (q : Nat × Nat) : Nat × Nat :=
  (List.range (zoneSpan o)).foldl (fun (a : Nat × Nat) d =>
    let v := pw q.1 ((zoneStart o q.2 + d) % prachSize o)
    if a.1 < v then (v, d) else a) (0, 0)

/-- delay_tc of an offset. -/
def delayTc (o : Prach) (d : Nat) : Nat := d * 1966080000 / (prachSize o * o.spacing)

/-- The detections of an occasion in ascending preamble index: index, delay_tc, peak, noise. -/
def prachDetect (thr floorPwr : Nat) (o : Prach) (pw : Nat → Nat → Nat) : List (Nat × Nat × Nat × Nat) :=
  let noise := prachNoise o pw
  (List.range (min 64 o.preambles.length)).filterMap (fun i =>
    let (peak, d) := zonePeak o pw (o.preambles.getD i (0, 0))
    if thr * noise ≤ peak * 256 && floorPwr ≤ peak then some (i, delayTc o d, peak, noise) else none)

/-- A detection as K_DETAIL and RACH.indication carry it (assumption 18). -/
def detectionBytes (d : Nat × Nat × Nat × Nat) : List Byte :=
  leBytes 1 d.1 ++ leBytes 3 0 ++ leBytes 4 d.2.1 ++ leBytes 8 d.2.2.1 ++ leBytes 8 d.2.2.2

/-- 64 KB units of one soft-buffer slot: 29 for the uplink of a cell unit (1 856 KB, R280); any other configuration's
largest code-block count is open. -/
def slotUnits (x : CellConfig) : Nat :=
  if x.mu = 1 && x.prbUl = 273 && x.layersUl = 4 then 29 else Config.softSlot x.prbUl x.layersUl x.mu

/-- What the stored soft buffer of a process holds. -/
def softBytes (s : State) (x : Cell) (process : Nat) : List Byte :=
  match (tabGet x.harq process {}).slot with
  | none => []
  | some k => memReadBytes s.mem (dramAt (x.softBase + k * slotUnits x.cfg * 65536)) (slotUnits x.cfg * 65536)

/-- The unpacked samples of slot n of a cell's uplink bindings (R266, R269). -/
def slotSamples (s : State) (p c n : Nat) : List (List Byte) :=
  (s.fh.binds.filter (fun b => b.2.part = p && b.2.cell = c && !b.2.down)).flatMap (fun b =>
    ((List.range 14).filter (symBound b.2 n)).map (fun k =>
      memReadBytes s.mem (captureAt (symSamples b.1 b.2 n k)) (48 * b.2.prbCount)))

/-- What the outputs of slot n of a cell depend on (R266). -/
def ulInputs (s : State) (p c n : Nat) (x : Cell) (soft : List Byte) : Config.UlInputs :=
  { samples := slotSamples s p c n, pdus := (tabGet x.admitted n {}).ul, config := x.cfg,
    gains := x.gains.map (fun g => (g.1, g.2.1, g.2.2)), template := (cellTable s p).tmpl, soft := soft }

/-- The detections of a slot's occasions (R284; assumption 9). -/
def slotDetections (w : Config.UlInputs) (x : Cell) (l : List (Nat × Pdu)) : List (Nat × Nat × Nat × Nat) :=
  (l.filter (fun q => q.2.kind = .prach)).flatMap (fun q =>
    prachDetect x.cfg.prachThr x.cfg.prachFloor q.2.prach (fun u b => Config.prachPower w q.2.prach u b % 2 ^ 40))

/-! ### Uplink delivery (R301, R305) -/

/-- The cause bits of R277 that a PUSCH PDU's code blocks have: fields out of range, no LLRs, an unreadable soft buffer, a marked
slot, and decoded without combining. -/
def puschCause (s : State) (p c n : Nat) (a : Admitted) (bad : Bool) (q : Nat × Pdu) : Nat :=
  let k := (partOf s p).radioSlot
  b2n (q.2.blocks.any (fun b => 262144 ≤ b.e || 131072 ≤ b.ncb || 1 < b.bg))
    + 2 * b2n (q.2.blocks.any (fun b => b.e = 0))
    + 4 * b2n (s.cde.causes.any (fun e => e.1 = k && e.2.1 = n && e.2.2.1 = c && bit e.2.2.2 2))
    + 8 * b2n bad + 16 * b2n (a.alone.contains q.1)

/-- Whether a transport block passes its CRC: none does in a marked slot or with a block that was not decoded. -/
def blockOk (s : State) (p c n : Nat) (x : Cell) (bad : Bool) (q : Nat × Pdu) : Bool :=
  puschCause s p c n (tabGet x.admitted n {}) bad q % 16 = 0
    && Config.blockPasses (ulInputs s p c n x (softBytes s x q.2.harq)) q.2

/-- What the decoding of a slot's uplink says of a PDU's HARQ process: freed where the block passed, not to be combined with
where the slot is marked (R281, R290). -/
def deliverHarq (p c : Nat) (bad : Bool) (s : State) (q : (Nat × Pdu) × Bool) : State :=
  if q.1.2.kind ≠ .pusch then s
  else if bad then updCell p c (fun x => { x with harq := tabMod x.harq q.1.2.harq (fun h => { h with noCombine := true }) }) s
  else if q.2 then updCell p c (fun x => { x with harq := tabDel x.harq q.1.2.harq }) s
  else s

/-- Whether the admitted uplink of slot n has a PDU of a kind. -/
def ulHas (x : Cell) (n : Nat) (kd : PduKind) : Bool := (tabGet x.admitted n {}).ul.any (fun q => q.2.kind = kd)

/-- Sends an indication where it is due. -/
def fapiIf (b : Bool) (p c id : Nat) (body : List Byte) (s : State) : State := if b then fapi p c id body s else s

/-- The body of an uplink indication: SFN, slot, count, and by PDU its index, process, verdict and what the standard's message holds
(assumption 18). -/
def ulBody (w : Config.UlInputs) (id : Nat) (x : Cell) (n : Nat) (l : List ((Nat × Pdu) × Bool)) : List Byte :=
  sfnSlot x n ++ leBytes 2 l.length ++ leBytes 2 0
    ++ l.flatMap (fun q => leBytes 2 q.1.1 ++ leBytes 1 q.1.2.harq ++ leBytes 1 (b2n q.2) ++ Config.ulContent w id q.1)

/-- The uplink indications of slot n, over its PDUs with their verdicts: RX_DATA of the blocks that passed, CRC of all, UCI and
SRS. -/
def deliverInd (p c n : Nat) (x : Cell) (w : Config.UlInputs) (l : List ((Nat × Pdu) × Bool)) (s : State) : State :=
  let send := fun (id : Nat) (want : (Nat × Pdu) × Bool → Bool) (s : State) =>
    fapiIf (l.any want) p c id (ulBody w id x n (l.filter want)) s
  let pusch := fun (q : (Nat × Pdu) × Bool) => decide (q.1.2.kind = .pusch)
  send 0x88 (fun q => decide (q.1.2.kind = .srs))
    (send 0x87 (fun q => decide (q.1.2.kind = .pucch) || (pusch q && q.1.2.ask.bits ≠ 0))
      (send 0x86 pusch (send 0x85 (fun q => pusch q && q.2) s)))

/-- A PUSCH PDU with its cause bits as K_DETAIL carries it (assumption 18). -/
def causeBytes (q : Nat × Nat) : List Byte := leBytes 2 q.1 ++ leBytes 2 q.2

/-- The random-access indication of slot n, and K_DETAIL with the cause bits of PUSCH PDUs that have any and the detections. -/
def deliverRach (p c n : Nat) (x : Cell) (w : Config.UlInputs) (bad : Bool) (causes : List (Nat × Nat)) (s : State) : State :=
  let ul := (tabGet x.admitted n {}).ul
  let dets := if bad then [] else slotDetections w x ul
  let found := leBytes 1 (b2n bad) ++ leBytes 1 dets.length ++ dets.flatMap detectionBytes
  let s := fapiIf (ulHas x n .prach) p c 0x89 (sfnSlot x n ++ found) s
  fapiIf (!causes.isEmpty || !dets.isEmpty) p c 0x183
    (sfnSlot x n ++ leBytes 2 causes.length ++ causes.flatMap causeBytes ++ found) s

/-- The results of a slot of a cell that U7 writes: indications by the kinds admitted; a slot run idle gives only RACH, and one
marked failed no detections, flagged invalid (R285, R305). -/
def deliver (p c n : Nat) (idle : Bool) (s : State) : State :=
  let x := cellOf s p c
  let a := tabGet x.admitted n {}
  let bad := marked s (partOf s p).radioSlot n c
  let w := ulInputs s p c n x []
  let l := if idle then [] else a.ul.map (fun q => (q, blockOk s p c n x bad q))
  let causes := ((l.filter (fun q => q.1.2.kind = .pusch)).map (fun q => (q.1.1, puschCause s p c n a bad q.1))).filter (fun q => q.2 ≠ 0)
  let s := l.foldl (deliverHarq p c bad) s
  let s := deliverRach p c n x w bad causes (deliverInd p c n x w l s)
  let s := updCell p c (fun y => { y with csi := y.csi || (ulHas x n .srs && !bad && !idle) }) s
  if x.role = .active && ulHas x n .pusch && !idle then
    emit (.mirror x.peerDev x.peerPart x.peerCell (.harq n (harqProcs (cellOf s p c)))) s
  else s

/-! ### Twins (R308, R312) -/

/-- The sequence identities of a cell's bindings (R308). -/
def cellSeqs (s : State) (p c : Nat) : List (Nat × Nat) :=
  (s.fh.binds.filter (fun b => b.2.part = p && b.2.cell = c)).map
    (fun b => (b.2.eaxc * 2 + b2n b.2.down, if b.2.down then b.2.txSeq else b.2.rxNext))

/-- The admitted PDUs of a slot as they are mirrored. -/
def mirrorPdus (x : Cell) (n : Nat) : List (Bool × Nat × Pdu) :=
  let a := tabGet x.admitted n {}
  a.dl.map (fun q => (false, q.1, q.2)) ++ a.ul.map (fun q => (true, q.1, q.2))

/-- Sends a snapshot to the twin. -/
def sendSnapshot (p c : Nat) (s : State) : State :=
  let x := cellOf s p c
  emit (.mirror x.peerDev x.peerPart x.peerCell
    (.snapshot (s.fab.device, p, c) x.lastSealed (mirrorPdus x x.lastSealed) (x.gains.map (fun g => (g.1, g.2.1, g.2.2))) (cellSeqs s p c)
      (harqProcs x))) s

/-- The standby's loss of sync, with TWIN_STATE (R308). -/
def unsync (p c : Nat) (s : State) : State :=
  let x := cellOf s p c
  let s := updCell p c (fun x => { x with synced := false, mirrorGaps := ctrInc x.mirrorGaps }) s
  if x.synced then twinState p c s else s

/-- The takeover of a standby whose active's device left at corrected tick E (R312). -/
def takeOver (p c e : Nat) (s : State) : State :=
  let x := cellOf s p c
  let n0 := slotAt s.win.frameOfs x.cfg.mu x.cfg.ecp (e + 1966080)
  let n := (((List.range 5).map (fun i => n0 + i)).find? (fun n => e + 1966080 ≤ cellStart s x (n - 2) && 2 ≤ n)).getD (n0 + 4)
  let cold := !x.synced || !x.snapshot
  let s := updCell p c (fun x => { x with role := .unpaired, cold := cold, firstSlot := n, heldFrom := none, peerDev := 0xFFFF,
                                          harq := if cold then [] else x.harq.map (fun h => (h.1, { h.2 with noCombine := true })) }) s
  let s := if cold then updFh (fun h => { h with binds := h.binds.map (fun b =>
      if b.2.part = p && b.2.cell = c then (b.1, { b.2 with txSeq := 0, rxNext := 0 }) else b) }) s else s
  let s := updCell p c (fun x => { x with role := .active }) s
  kTwin p c (if cold then 4 else 3) n (n - 1) (cellTo p c .running n s)

end Sys2Proof.Machine
end

