-- ==== Sys2Proof/Machine/Radio.lean ====
section
/-!
DEFINITION. The meanings of the commands of chapter 09: the coding engines, GAIN_SET and STAGE_RECORDS.
-/
namespace Sys2Proof.Machine

/-! ### LDPC decoding (R272 to R277) -/

/-- Ticks of coding-engine cycles at the floor clock (R85). -/
def codeTicks (cycles : Nat) : Nat := cdiv (cycles * 768) 625

def isLd (u : Nat) : Bool := 0x80 ≤ u && u < 0xC0
def isLe (u : Nat) : Bool := 0xC0 ≤ u && u < 0xD0

def updCde (f : Coding → Coding) (s : State) : State := s.setCde (f s.cde)
def engOf (s : State) (u : Nat) : CodeEngine := tabGet s.cde.engines u {}
def updEng (u : Nat) (f : CodeEngine → CodeEngine) (s : State) : State :=
  updCde (fun c => { c with engines := tabUpd c.engines u {} f }) s

/-- The lifting sizes: a * 2^j up to 384 (TS 38.212; assumption 21). -/
def zcOk (z : Nat) : Bool := [2, 3, 5, 7, 9, 11, 13, 15].any (fun a => (List.range 8).any (fun j => z = a * 2 ^ j)) && z ≤ 384

def qmOk (q : Nat) : Bool := q = 1 || q = 2 || q = 4 || q = 6 || q = 8

/-- Whether every field of an encoding job is in its range (R272, R278). -/
def leJobOk (j : LdJob) : Bool :=
  j.bg ≤ 1 && zcOk j.zc && j.filler < 16384 && j.e < 262144 && j.rv ≤ 3 && qmOk j.qm && j.ncb < 131072

/-- Whether every field of a decoding job is in its range (R272); a soft buffer stands in DRAM that the device has. -/
def ldJobOk (g : Grade) (j : LdJob) : Bool :=
  leJobOk j && j.iterations ≤ 31 && 4 ≤ j.rows && j.rows ≤ (if j.bg = 0 then 46 else 42) && j.offset ≤ 7 && j.sbAddr % 64 = 0
    && j.sbAddr + j.ncb ≤ dramSize g

/-- Information bits of a code block (R277). -/
def kInfo (j : LdJob) : Nat := kbOf j.bg * j.zc - j.filler

/-- Whether a circular-buffer position holds a filler bit. -/
def isFiller (j : LdJob) (p : Nat) : Bool := kInfo j ≤ p + 2 * j.zc && p + 2 * j.zc < kbOf j.bg * j.zc

/-- Reverses the bit interleaving for qm (R274): E is a multiple of qm. -/
def deinterleave (qm : Nat) (l : List Int) : List Int :=
  (List.range l.length).map (fun k => l.getD (k % (l.length / qm) * qm + k / (l.length / qm)) 0)

def sat7 (v : Int) : Int := max (-127) (min 127 v)
def sat10 (v : Int) : Int := max (-512) (min 511 v)

/-- Rate recovery: LLR j goes to the j-th position from k0 on that is no filler, cyclically; sums saturate in the order of
j (R274). -/
def recover (j : LdJob) (b llrs : List Int) : List Int :=
  let ps := (List.range j.ncb).filter (fun p => !isFiller j p)
  let i0 := (ps.filter (fun p => p < rvStart j.bg j.zc j.ncb j.rv)).length
  (List.range j.ncb).map (fun p =>
    if isFiller j p then b.getD p 0 else
    let i := (ps.filter (fun q => q < p)).length
    let first := (i + ps.length - i0 % ps.length) % ps.length
    let turns := if llrs.length ≤ first then 0 else (llrs.length - first - 1) / ps.length + 1
    (List.range turns).foldl (fun v t => sat7 (v + llrs.getD (first + t * ps.length) 0)) (b.getD p 0))

/-- A byte as a signed number. -/
def byteInt (b : Byte) : Int := b.toInt

/-- The stored soft buffer, with zeros for the unreadable 64-byte units, and whether there were any (R276). -/
def softRead (s : State) (j : LdJob) : List Int × Bool :=
  let bad := fun (i : Nat) => meetsBad s (dramAt (j.sbAddr + i / 64 * 64)) 64
  ((List.range j.ncb).map (fun i => if bad i then 0 else byteInt (memRead s.mem (dramAt (j.sbAddr + i)))),
   (List.range (j.ncb / 64 + 1)).any (fun i => i * 64 < j.ncb && bad (i * 64)))

/-! ### Posted jobs (R93, R272) -/

/-- The entry an engine serves: of its four the lowest in use that holds a slot, and there the oldest slot (R93). -/
def headEntry (s : State) (u : Nat) : Option Nat :=
  firstBelow 4 (fun e => (sbOf s u e).valid && sbOcc (sbOf s u e) ≠ 0)

/-- The oldest slot of an entry: who posted it, its coding-store offset and length in bytes. -/
def headSlot (s : State) (u e : Nat) : PostRec × Nat × Nat :=
  let b := sbOf s u e
  let k := b.consumed % b.slots
  (tabGet b.posts k {}, sbSlotAddr b k, 64 * tabGet b.lens k 0)

/-- The job at an offset of the coding store, in the layout of R272. -/
def jobAt (s : State) (a : Nat) : LdJob :=
  let w := leNat (memReadBytes s.mem (codingAt a) 32)
  { bg := bits w 0 0, zc := bits w 9 1, filler := bits w 23 10, e := bits w 41 24, rv := bits w 43 42, qm := bits w 47 44,
    ncb := bits w 64 48, iterations := bits w 69 65, rows := bits w 75 70, offset := bits w 78 76, combine := bit w 79,
    writeBack := bit w 80, cbCrc := bit w 81, sbAddr := bits w 166 128, tag := bits w 223 192 }

/-- The data behind a job: n bytes. -/
def jobData (s : State) (a n : Nat) : List Byte := memReadBytes s.mem (codingAt (a + 32)) n

/-- Phase lengths in coding-engine cycles (R277). -/
def inCycles (j : LdJob) : Nat := 16 + cdiv j.e 64 + (if j.combine then cdiv j.ncb 512 else 0)
def outCycles (j : LdJob) : Nat := 8 + cdiv (kInfo j) 512 + (if j.writeBack then cdiv j.ncb 512 else 0)

/-- A job's result, with its count in the report of its table's slot and its causes (R277, R291). -/
def codeResult (u : Nat) (src : PostRec) (r : CodeResult) (s : State) : State :=
  let s := updEng u (fun e => { e with result := some r }) s
  let s := if r.cause = 0 then s else
    updCde (fun c => { c with causes := c.causes.filter (fun x => x.1 ≠ src.table || src.slot < x.2.1 + 16)
                                        ++ [(src.table, src.slot, src.cell, r.cause)] }) s
  if r.cause ≠ 0 || !r.crcOk then
    updCde (fun c => { c with cbFailed := tabUpd c.cbFailed src.table 0 (fun n => n + 1) }) s
  else s

/-- The input phase of the oldest posted job: a job out of range or without LLRs completes without decoding; else rate recovery and
combining at the phase's end, after which the slot is released (R272, R274, R277; assumption 163). Where E is no multiple of qm the
spec gives no order of the LLRs. -/
def ldInput (u : Nat) (s : State) : State :=
  match headEntry s u with
  | none => s
  | some e =>
    let (src, a, _) := headSlot s u e
    let j := jobAt s a
    let fin := max src.tick (engOf s u).inEnd + codeTicks (inCycles j)
    if !inService s u then s
    else if !ldJobOk s.grade j then codeResult u src { tag := j.tag, cause := 1 } (sbRelease u e s)
    else if j.e = 0 then codeResult u src { tag := j.tag, cause := 2 } (sbRelease u e s)
    else if s.tmb.free < fin then s
    else
      let (old, bad) := if j.combine then softRead s j else (List.replicate j.ncb 0, false)
      let llrs := (jobData s a j.e).map (fun b => sat7 b.toInt)
      let ord := if j.e % j.qm = 0 then deinterleave j.qm llrs else Config.oddOrder j.qm llrs
      let b := if j.ncb = 0 then [] else recover j old ord
      updEng u (fun g => { g with inEnd := fin, inp := g.inp ++
        [{ job := j, src := src, b := b, cause := if bad then 4 else 0, done := fin }] }) (sbRelease u e s)

def execLdInputPhase (eng : Nat) (s : State) : Host.Outcome State Fault Refusal :=
  run (isLd eng) "LD engine" (ldInput eng s)

/-- The a-posteriori values at the start (R275). -/
def ldStart (j : LdJob) (b : List Int) : List Int :=
  (List.range (bgCols j.bg * j.zc)).map (fun v =>
    if v < 2 * j.zc then 0 else if isFiller j (v - 2 * j.zc) then 511 else b.getD (v - 2 * j.zc) 0)

/-- The position of lift z under a circulant (column, shift). -/
def liftAt (zc : Nat) (c : Nat × Nat) (z : Nat) : Nat := c.1 * zc + (z + c.2) % zc

/-- The sign of a value, that of 0 counting as plus. -/
def signOf (v : Int) : Int := if v < 0 then -1 else 1

/-- One lift of a row: the new check values in column order (R275). -/
def rowLift (offset : Nat) (t : List Int) : List Int :=
  let m := t.map (fun v => v.natAbs)
  let m1 := m.min?.getD 0
  let i1 := (firstBelow m.length (fun i => m.getD i 0 = m1)).getD 0
  let m2 := (m.eraseIdx i1).min?.getD m1
  let sg := t.foldl (fun a v => a * signOf v) 1
  (List.range t.length).map (fun i =>
    let w : Nat := (if i = i1 then m2 else m1) - offset
    ((min w 127 : Nat) : Int) * sg * signOf (t.getD i 0))

/-- A row over all its lifts: the a-posteriori values and the row's check values by lift. -/
def ldRow (zc offset : Nat) (cols : List (Nat × Nat)) (l : List Int) (rr : List (List Int)) : List Int × List (List Int) :=
  (List.range zc).foldl (fun (a : List Int × List (List Int)) z =>
    let old := rr.getD z []
    let t := (List.range cols.length).map (fun i => sat10 (a.1.getD (liftAt zc (cols.getD i (0, 0)) z) 0 - old.getD i 0))
    let new := rowLift offset t
    ((List.range cols.length).foldl (fun l i =>
        l.set (liftAt zc (cols.getD i (0, 0)) z) (sat10 (t.getD i 0 + new.getD i 0))) a.1,
     a.2 ++ [new])) (l, [])

/-- One iteration over rows 0 to rows - 1 in ascending order. -/
def ldIteration (j : LdJob) (l : List Int) (rr : List (List (List Int))) : List Int × List (List (List Int)) :=
  (List.range j.rows).foldl (fun (a : List Int × List (List (List Int))) r =>
    let (l, new) := ldRow j.zc j.offset (Config.ldColumns j.bg r j.zc) a.1 (rr.getD r [])
    (l, a.2 ++ [new])) (l, [])

/-- Whether every parity check of the processed rows holds. -/
def parityHolds (j : LdJob) (l : List Int) : Bool :=
  (List.range j.rows).all (fun r => (List.range j.zc).all (fun z =>
    ((Config.ldColumns j.bg r j.zc).filter (fun c => l.getD (liftAt j.zc c z) 0 < 0)).length % 2 = 0))

/-- All iterations: the values at the end and the first iteration after which the checks hold, 0 if none. -/
def ldDecodeAll (j : LdJob) (l : List Int) : List Int × Nat :=
  let step := fun (a : List Int × List (List (List Int)) × Nat) (it : Nat) =>
    let (l, rr) := ldIteration j a.1 a.2.1
    (l, rr, if a.2.2 = 0 && parityHolds j l then it + 1 else a.2.2)
  let (l, _, conv) := (List.range j.iterations).foldl step (l, [], 0)
  (l, conv)

/-- The decode phase of the oldest job (R275, R277): the decoder runs the iterations stated and does not stop at convergence. -/
def ldDecode (u : Nat) (s : State) : State :=
  match (engOf s u).inp with
  | [] => s
  | g :: rest =>
    let fin := max g.done (engOf s u).decEnd + codeTicks (ldCycles g.job.iterations g.job.rows g.job.zc)
    if s.tmb.free < fin then s else
    let (l, conv) := ldDecodeAll g.job (ldStart g.job g.b)
    updEng u (fun e => { e with inp := rest, decEnd := fin, dec := e.dec ++ [{ g with post := l, conv := conv, done := fin }] }) s

def execLdDecodePhase (eng : Nat) (s : State) : Host.Outcome State Fault Refusal :=
  run (isLd eng) "LD engine" (ldDecode eng s)

/-- CRC-24B over the information bits, the attached CRC included: the remainder is 0 (TS 38.212; assumption 21). -/
def crc24bOk (bits : List Bool) : Bool :=
  bits.foldl (fun r b =>
    let r' := (r * 2 + b2n b) % 2 ^ 24
    if r.testBit 23 then Nat.xor r' 0x800063 else r') 0 = 0

/-- The output phase of the oldest job: hard decisions, result, and the write-back of the combined buffer (R276, R277); none for a
slot and cell marked failed (R290). -/
def ldOutput (u : Nat) (s : State) : State :=
  match (engOf s u).dec with
  | [] => s
  | g :: rest =>
    let j := g.job
    let fin := max g.done (engOf s u).outEnd + codeTicks (outCycles j)
    if s.tmb.free < fin then s else
    let info := (g.post.take (kInfo j)).map (fun v => decide (v < 0))
    let ok := if j.cbCrc then crc24bOk info else Config.uncheckedCrc info
    let failed := s.cde.marks.contains (g.src.table, g.src.slot, g.src.cell, true)
    let cause := g.cause + (if failed then 8 else 0)
    let write := j.writeBack && !failed && (g.cause = 4 || !j.cbCrc || !ok)
    let s := if write then storeBytes (dramAt j.sbAddr) (g.b.map (fun v => BitVec.ofInt 8 v)) s else s
    codeResult u g.src { tag := j.tag, crcOk := ok && g.cause = 0, conv := g.conv, iters := j.iterations, cause := cause,
                         bits := info.map (fun b => if b then 1 else 0) }
      (updEng u (fun e => { e with dec := rest, outEnd := fin }) s)

def execLdOutputPhase (eng : Nat) (s : State) : Host.Outcome State Fault Refusal :=
  run (isLd eng) "LD engine" (ldOutput eng s)

/-! ### Encoders and polar engines (R278, R279) -/

/-- The oldest posted job of an encoder or polar engine: `go` gives its cycles and its result from the slot's offset and length.
The job completes at the end of those cycles after its post and the job before, and its slot is released; a job that the engine
does not take is released without a result. -/
def codeJob (u : Nat) (go : Nat → Nat → Option (Nat × CodeResult)) (s : State) : State :=
  match headEntry s u with
  | none => s
  | some e =>
    let (src, a, n) := headSlot s u e
    if !inService s u then s else
    match go a n with
    | none => sbRelease u e s
    | some (cycles, r) =>
      let fin := max src.tick (engOf s u).outEnd + codeTicks cycles
      if s.tmb.free < fin then s
      else codeResult u src r (updEng u (fun g => { g with outEnd := fin }) (sbRelease u e s))

/-- What fixes an LDPC encoding beside its data. -/
def jobDigest (j : LdJob) : List Nat := [j.bg, j.zc, j.filler, j.e, j.rv, j.qm, j.ncb]

/-- An LDPC encoding: the bits of TS 38.212, which the spec does not list (Config.codeBits). A field out of its range completes
the job without encoding. -/
def leRun (u : Nat) (s : State) : State :=
  codeJob u (fun a _ =>
    let j := jobAt s a
    if !leJobOk j then some (0, { tag := j.tag, cause := 1 }) else
    let rows := rowsFor j.bg (highColumn { bg := j.bg, zc := j.zc, filler := j.filler, e := j.e, ncb := j.ncb } j.rv)
    some (leCycles rows j.zc j.e,
      { tag := j.tag, crcOk := true, bits := Config.codeBits 1 (jobDigest j) (jobData s a (cdiv (kInfo j) 8)) })) s

def execLeJob (eng : Nat) (s : State) : Host.Outcome State Fault Refusal :=
  run (isLe eng) "LE engine" (leRun eng s)

/-- A polar decoding with list 8: the surviving path whose CRC holds, or none (R279). -/
def pdRun (u : Nat) (j : CodeJob) (s : State) : State :=
  codeJob u (fun a n => if !motherOk j.mother then none else
    let d := memReadBytes s.mem (codingAt a) n
    some (pdCycles j.mother j.k j.e, { tag := j.tag, crcOk := Config.codeBits 4 [j.mother, j.k, j.e] d ≠ [],
                                       bits := Config.codeBits 2 [j.mother, j.k, j.e] d })) s

def execPdJob (eng : Nat) (j : CodeJob) (s : State) : Host.Outcome State Fault Refusal :=
  run (0xD0 ≤ eng && eng < 0xD8) "PD engine" (pdRun eng j s)

/-- A polar encoding (R279). -/
def peRun (u : Nat) (j : CodeJob) (s : State) : State :=
  codeJob u (fun a n => if !motherOk j.mother then none else
    some (peCycles j.mother j.e, { tag := j.tag, crcOk := true,
                                   bits := Config.codeBits 3 [j.mother, j.k, j.e] (memReadBytes s.mem (codingAt a) n) })) s

def execPeJob (eng : Nat) (j : CodeJob) (s : State) : Host.Outcome State Fault Refusal :=
  run (0xD8 ≤ eng && eng < 0xDC) "PE engine" (peRun eng j s)

/-! ### GAIN_SET and STAGE_RECORDS (R287, R292) -/

/-- The slot a partition's table is in, and the first slot after it whose instance is not sealed. -/
def slotNow (s : State) (p : Nat) : Nat := slotAt s.win.frameOfs (cellTable s p).mu (cellTable s p).ecp (corrNow s)
def firstUnsealed (s : State) (p : Nat) : Nat :=
  let t := cellTable s p
  if t.state = .armed || t.state = .running || t.state = .stopping then max (slotNow s p + 1) (sealedThrough t + 1)
  else slotNow s p + 1

/-- The slot a new gain takes effect in: not sealed, and at least two after the present one (R287). -/
def nextUnsealed (s : State) (p : Nat) : Nat := max (slotNow s p + 2) (firstUnsealed s p)

def gainSetBody (q : Req) (s : State) : State × Reply :=
  if 64 ≤ q.target then failed .partitionState s else
  let c := pl q 0 1
  let dir := pl q 1 1
  let ant := pl q 2 1
  let ge := fieldInt q.cmd.payload 3 1
  let gm := pl q 4 2
  let bound := s.fh.binds.any (fun b => b.2.part = q.target && b.2.cell = c && b.2.down = (dir == 1) && b.2.ant = ant)
  if 32767 < gm || ge < -16 || 15 < ge || 1 < dir then failed .badField s
  else if 64 ≤ c || (cellOf s q.target c).state = .absent then failed .cellState s
  else if !bound then failed .badField s
  else
    let n := nextUnsealed s q.target
    (updCell q.target c (fun x => { x with
        nextGains := tabUpd x.nextGains n [] (fun l => l ++ [(dir * 64 + ant, (gm : Int), ge)]) }) s,
     { payload := leBytes 8 (tStart s (cellTable s q.target) n) })

def execGainSet (m : Nat) (s : State) : Host.Outcome State Fault Refusal :=
  run (m < 80) "mailbox" (runCommand 0x04A0 m gainSetBody s)

/-- The 16 bytes of a stage record. -/
def stageBytes (r : StageRec) : List Byte :=
  leBytes 2 r.entry ++ leBytes 1 r.cell ++ leBytes 1 r.status ++ leInt 4 r.slack ++ leBytes 4 r.run ++ leBytes 4 0

/-- The slot among the last sixteen run that starts at a corrected tick. -/
def slotRun (s : State) (k tick : Nat) : Option Nat :=
  let t := tableOf s k
  let cur := slotAt s.win.frameOfs t.mu t.ecp (corrNow s)
  let live := t.state = .running || t.state = .stopping
  ((List.range 16).map (fun i => cur - i)).find? (fun n => tStart s t n = tick
    && ((live && t.n0 ≤ n && slotCounts s t n) || s.tts.stages.any (fun r => r.table = k && r.slot = n)))

def stageRecordsBody (q : Req) (s : State) : State × Reply :=
  match (if q.target = 0xFF then none else partTable s q.target) with
  | none => failed .partitionState s
  | some k =>
    if 120 < pl q 10 2 then failed .badField s else
    match slotRun s k (pl q 0 8) with
    | none => failed .timeRange s
    | some n =>
      let l := sortBy (fun (a b : StageRec) => a.entry < b.entry)
        (s.tts.stages.filter (fun r => r.table = k && r.slot = n && pl q 8 2 ≤ r.entry))
      (s, { payload := (l.take (pl q 10 2)).flatMap stageBytes })

def execStageRecords (m : Nat) (s : State) : Host.Outcome State Fault Refusal :=
  run (m < 80) "mailbox" (runCommand 0x04A1 m stageRecordsBody s)

end Sys2Proof.Machine
end

