-- ==== Sys2Proof/Machine/SweepOps.lean ====
section
/-!
DEFINITION. The shared operations of Sweep access (chapter 11): the sample stream's grid, bits and CRC of a frame, the
answers to SWEEP_TX, and where the end of a channel, an idle slot and a move cut what is accepted.
-/
namespace Sys2Proof.Machine

/-! ### The sample stream (R317, R319, R320) -/

/-- The useful part N_u of a numerology (R68). -/
def usefulTc (mu : Nat) : Nat := 131072 / 2 ^ mu

/-- Start of symbol l of a cell's grid, counted from the GPS epoch, and of its useful part. -/
def gridSym (s : State) (x : Cell) (l : Nat) : Nat :=
  symStart s x.cfg.mu x.cfg.ecp (l / symsPerSlot x.cfg.ecp) (l % symsPerSlot x.cfg.ecp)
def gridUseful (s : State) (x : Cell) (l : Nat) : Nat := gridSym s x (l + 1) - usefulTc x.cfg.mu

/-- The corrected tick of stream sample k (R320). -/
def sampleTick (s : State) (x : Cell) (h : SweepChan) (k : Nat) : Nat :=
  gridUseful s x (k / sweepQ h) + k % sweepQ h * usefulTc x.cfg.mu / sweepQ h

/-- The corrected tick at which sample k ends. -/
def sampleEnd (s : State) (x : Cell) (h : SweepChan) (k : Nat) : Nat :=
  gridUseful s x (k / sweepQ h) + (k % sweepQ h + 1) * usefulTc x.cfg.mu / sweepQ h

/-- The symbol whose useful part starts at corrected tick c. -/
def symUsefulAt (s : State) (x : Cell) (c : Nat) : Option Nat :=
  let n := slotAt s.win.frameOfs x.cfg.mu x.cfg.ecp c
  (firstBelow (symsPerSlot x.cfg.ecp) (fun k => gridUseful s x (n * symsPerSlot x.cfg.ecp + k) = c)).map
    (fun k => n * symsPerSlot x.cfg.ecp + k)

/-! ### Powers of bins (R328, R329, R331) -/

/-- The lowest bin that holds the peak, and the peak. -/
def binPeak (l : List Nat) : Nat × Nat := (l.findIdx (fun x => x = l.foldl max 0), l.foldl max 0)

/-- What a detection window finds: the lowest peak bin, the peak, and the floor of the mean power (R328). -/
structure SweepFound where
  bin : Nat
  peak : Nat
  noise : Nat
  deriving DecidableEq, Repr

/-- R328 on a window's powers. -/
def foundOf (l : List Nat) : SweepFound :=
  { bin := (binPeak l).1, peak := (binPeak l).2, noise := l.foldl (fun a x => a + x) 0 / l.length }

/-! ### Frames (R323, R325 to R327) -/

/-- The Gray map of R323: data bits to symbol value and back. -/
def grayInv (d : Nat) : Nat := (List.range 16).foldl (fun m k => Nat.xor m (d / 2 ^ k)) 0
def gray (m : Nat) : Nat := Nat.xor m (m / 2)

/-- CRC-24 over bits in order (R326). -/
def crc24 (l : List Bool) : Nat :=
  l.foldl (fun r b =>
    let r' := r * 2 % 2 ^ 24
    if r.testBit 23 == b then r' else Nat.xor r' 0x864CFB) 0

/-- The n low bits of a number, least significant first; and back. -/
def lsbBits (n v : Nat) : List Bool := (List.range n).map (fun i => v.testBit i)
def bitsNat (l : List Bool) : Nat := l.foldr (fun b n => b2n b + 2 * n) 0

/-- The largest payload of a spreading factor. -/
def sweepMax (sf : Nat) : Nat := if sf ≤ 10 then 255 else if sf ≤ 12 then 128 else 64

/-- Data symbols of a frame with L payload bytes. -/
def sweepSyms (sf len : Nat) : Nat := cdiv (80 + 8 * len) sf

/-- The data bits of a frame (R325). -/
def sweepBits (hdr : Nat) (payload : List Byte) : List Bool :=
  let head := lsbBits 32 hdr
  let body := payload.flatMap (fun b => lsbBits 8 b.toNat)
  head ++ lsbBits 24 (crc24 head) ++ body ++ lsbBits 24 (crc24 (head ++ body))

/-- The values of a frame's data symbols: groups of SF bits, the last padded with zeros. -/
def sweepValues (sf : Nat) (l : List Bool) : List Nat :=
  (List.range (cdiv l.length sf)).map (fun i => grayInv (bitsNat ((l.drop (sf * i)).take sf)))

/-! ### Channels -/

/-- Channel n, where there is one. -/
def chanOf (s : State) (n : Nat) : Option SweepChan := tabFind? s.sweep n

def updChan (n : Nat) (f : SweepChan → SweepChan) (s : State) : State := s.setSweep (tabMod s.sweep n f)

/-- Answers a SWEEP_TX on a cell's ind_ring (R336). -/
def sweepAnswer (ring : Nat) (tag : Nat) (st : Status) (tick : Nat) (s : State) : State :=
  radioPut (some ring) 0x74 (leBytes 4 tag ++ leBytes 2 (statusCode st) ++ leBytes 2 0 ++ leBytes 8 tick) s

/-- Frames of channel n that a test names are cut and answered with a status. -/
def sweepDrop (n : Nat) (st : Status) (cut : SweepFrame → Bool) (s : State) : State :=
  match chanOf s n with
  | none => s
  | some h =>
    let ring := (cellOf s h.part h.cell).cfg.indRing
    let s := updChan n (fun h => { h with sends := h.sends.filter (fun f => !cut f) }) s
    (h.sends.filter cut).foldl (fun s f => sweepAnswer ring f.tag st 0 s) s

/-- Frames of a cell that a test names are cut with CELL_STATE. -/
def sweepCell (p c : Nat) (cut : SweepFrame → Bool) (s : State) : State :=
  ((s.sweep.filter (fun h => h.2.part = p && h.2.cell = c)).map (fun h => h.1)).foldl
    (fun s n => sweepDrop n .cellState cut s) s

/-- Slot n of a partition runs the idle instance: frames that span it are cut (R336). -/
def sweepIdle (p n : Nat) (s : State) : State :=
  ((s.sweep.filter (fun h => h.2.part = p)).map (fun h => h.2.cell)).foldl (fun s c =>
    let x := cellOf s p c
    sweepCell p c (fun f => f.start < cellStart s x (n + 1) && cellStart s x n < f.finish) s) s

/-- A cell moves at slot n: only frames that end before it are sent (R337). -/
def sweepMove (p c n : Nat) (s : State) : State :=
  let at_ := cellStart s (cellOf s p c) n
  sweepCell p c (fun f => at_ < f.finish) s

/-- A cleared channel ends at its slot boundary: its frames are answered with CANCELLED (R338). -/
def sweepEnd (s : State) : State :=
  let ended := s.sweep.filter (fun h => match h.2.endSlot with
    | some n => cellStart s (cellOf s h.2.part h.2.cell) n ≤ corrNow s
    | none => false)
  ended.foldl (fun s h =>
    let s := sweepDrop h.1 .cancelled (fun _ => true) s
    s.setSweep (tabDel s.sweep h.1)) s

/-- Whether a PDU of slot n meets PRBs that a Sweep channel reserves (R318). -/
def meetsSweep (s : State) (p c n : Nat) (d : Pdu) : Bool :=
  s.sweep.any (fun h => h.2.part = p && h.2.cell = c && h.2.fromSlot ≤ n
    && ((d.kind = .pusch && h.2.rx) || (d.kind = .pdsch && h.2.tx))
    && d.firstPrb < h.2.firstPrb + h.2.prbs && h.2.firstPrb < d.firstPrb + d.prbs)

end Sys2Proof.Machine
end

