-- ==== Sys2Proof/Machine/Cells.lean ====
section
/-!
DEFINITION. The meanings of the commands of chapter 10: cells, the FAPI subset, intake, twins.
-/
namespace Sys2Proof.Machine

/-! ### CELL_CREATE (R298, R299) -/

/-- The configuration in a CELL_CREATE payload. -/
def cellConfig (q : Req) : CellConfig :=
  let f := pl q 1 1
  { mu := bits f 1 0, ecp := bit f 2, fdd := bit f 3, standby := bit f 4, learned := bit f 5,
    prbDl := pl q 2 2, prbUl := pl q 4 2, antTx := pl q 6 1, antRx := pl q 7 1, layersDl := pl q 8 1,
    layersUl := pl q 9 1, uSlots := pl q 10 1, periodSlots := pl q 11 1, poolSlots := pl q 12 1,
    ldIter := pl q 13 1, tmplCell := pl q 14 1, ulDeliver := pl q 15 1, indRing := pl q 16 2,
    reqRing := pl q 18 2, prachThr := pl q 20 2, bindCount := pl q 22 2, prachFloor := pl q 24 4,
    symOfs := fieldInt q.cmd.payload 28 4, indBase := pl q 32 8, indLen := pl q 40 4, bindList := pl q 48 8 }

/-- Whether a ring is a radio ring of a partition in a direction. -/
def radioRing (s : State) (p n : Nat) (toHost : Bool) : Bool :=
  match ringOf s n with
  | none => false
  | some r => r.part = p && r.cls = 4 && r.toHost == toHost

def antOk (n : Nat) : Bool := n = 1 || n = 2 || n = 4 || n = 8 || n = 16 || n = 32 || n = 64

/-- Whether the fields of a configuration are in range (R298). -/
def cfgOk (s : State) (p cell : Nat) (x : CellConfig) : Bool :=
  let prb := fun mu n => 1 ≤ n && n ≤ (if mu = 3 then 264 else 275)
  let lay := fun n => 1 ≤ n && n ≤ 16
  cell < 64 && (!x.ecp || x.mu = 2) && prb x.mu x.prbDl && prb x.mu x.prbUl && antOk x.antTx && antOk x.antRx && lay x.layersDl
    && lay x.layersUl && (x.fdd || (x.periodSlots ≤ 80 && x.uSlots ≤ x.periodSlots)) && x.poolSlots ≤ 16 && x.ldIter ≤ 31
    && x.ulDeliver ≤ 8 && x.bindCount ≤ 128 && x.indBase % 64 = 0 && x.indLen % 64 = 0 && 65536 ≤ x.indLen
    && x.indLen ≤ 268435456 && radioRing s p x.indRing true && radioRing s p x.reqRing false

/-- What of a configuration a template fixes (R296). -/
def cfgShape (x : CellConfig) : List Nat :=
  [x.mu, b2n x.ecp, b2n x.fdd, b2n x.learned, x.prbDl, x.prbUl, x.antTx, x.antRx, x.layersDl, x.layersUl]
  ++ (if x.fdd then [] else [x.uSlots, x.periodSlots])

/-- Whether the loaded template carries a cell of the configuration and cost (R299). -/
def tmplAgrees (t : FrameTable) (x : CellConfig) : Bool :=
  t.tmpl.cells.any (fun c => c.index = x.tmplCell && cfgShape c.config = cfgShape x && c.cost64 = cellCost x)

/-- Soft-buffer units of 64 KB that a cell's pool takes (R280), and those all cells take. -/
def poolUnits (x : CellConfig) : Nat := x.poolSlots * slotUnits x
def allPools (s : State) : Nat :=
  (s.cells.filter (fun c => c.2.state ≠ .absent)).foldl (fun n c => n + poolUnits c.2.cfg) 0

/-- The first free offset for a pool in a stack's part of the soft-buffer region (R268, R280). -/
def poolRoom (s : State) (stack n : Nat) : Option Nat :=
  let base := radioBase s.grade stack 1
  firstFit (radioPart s.grade stack 1) n
    ((s.cells.filter (fun c => c.2.state ≠ .absent && c.2.softBase / 2 ^ 37 = stack)).map
      (fun c => (c.2.softBase - base, poolUnits c.2.cfg * 65536)))

/-- The PRACH PRBs and symbols of an uplink eAxC of a template's cell, if it is a PRACH binding's (R238). -/
def prachOf (t : FrameTable) (x : CellConfig) (eaxc : Nat) : Option (Nat × List Nat) :=
  (t.tmpl.cells.find? (fun c => c.index = x.tmplCell)).bind (fun c =>
    (c.prach.find? (fun q => q.1 = eaxc && !q.2.2.isEmpty)).map (fun q => q.2))

/-- The buffers a table's placement feeds from the receive endpoint: physical unit and entry (R236, R269). -/
def captureBufs (t : FrameTable) : List (Nat × Nat) :=
  (t.tmpl.placement.bufs.filter (fun b => b.producer = 0xF0)).map (fun b => (bindUnit t.bind b.unit, b.entry))

/-- The binding of a 16-byte specification (R236, R298). `k` picks its buffer among those fed by the receive endpoint: which one a
binding feeds is the template's, and open (assumption 22). -/
def specBinding (t : FrameTable) (p cell : Nat) (x : CellConfig) (b : List Byte) (k : Nat) : FhBinding :=
  let down : Bool := field b 1 1 = 1
  let pr := if down then none else prachOf t x (field b 4 2)
  let bufs := captureBufs t
  let at_ := if down then (0xFF, 0) else bufs.getD (k % max 1 bufs.length) (0xFF, 0)
  { part := p, mac := field b 0 1, down := down, compHdr := bit (field b 3 1) 3, comp := bits (field b 3 1) 2 0,
    mu := x.mu, ecp := x.ecp, eaxc := field b 4 2,
    prbCount := (pr.map (fun q => q.1)).getD (if down then x.prbDl else x.prbUl), cell := cell,
    ant := field b 2 1, f0 := field b 7 3, f1 := field b 10 3, f2 := field b 13 3, symOfs := x.symOfs,
    consumer := at_.1, entry := at_.2, prach := (pr.map (fun q => q.2)).getD [] }

/-- The stack of the array region whose tiles carry a cell's uplink chain (R268): the first tile its template's entries name. -/
def cellStack (t : FrameTable) (cell : Nat) : Nat :=
  let es := (t.tmpl.idle ++ t.tmpl.patterns.flatten).filter (fun e => e.kind = 0 && e.cell = cell && isTile e.unitBase)
  ((es.head?.map (fun e => bindUnit t.bind e.unitBase)).map unitRegion).getD (t.bind.regions.headD 0)

/-- The first free offset for n bytes in a stack's part of the frame buffer (R268; assumption 23). -/
def frameRoom (s : State) (stack n : Nat) : Option Nat :=
  let base := radioBase s.grade stack 0
  firstFit (radioPart s.grade stack 0) n
    ((s.fh.binds.filter (fun b => !b.2.down && b.2.fbBase / 2 ^ 37 = stack)).map (fun b => (b.2.fbBase - base, regionBytes b.2)))

/-- Whether the fields of a binding hold (R237). -/
def bindingOk (s : State) (dir : Nat) (b : FhBinding) : Bool :=
  b.mac < 32 && dir ≤ 1 && b.ant ≤ 63 && b.comp ≤ 4 && (if b.down then b.f1 = 0 && b.f0 ≤ 9830400 else b.f0 < b.f1 && b.f1 ≤ 9830400)
    && b.f2 ≤ 9830400 && !s.fh.binds.any (fun c => c.2.mac = b.mac && c.2.eaxc = b.eaxc && c.2.down == b.down)

/-- Makes one binding from its specification; its number is open. -/
def makeBinding (p cell : Nat) (x : CellConfig) (b : List Byte) (s : State) : Except Status State :=
  let u := drawFree s
  let s := u.2
  let t := cellTable s p
  let f := specBinding t p cell x b u.1
  let stack := cellStack t cell
  if 4096 ≤ s.fh.binds.length || 512 ≤ (s.fh.binds.filter (fun c => c.2.mac = f.mac)).length then .error .noResource
  else if !bindingOk s (field b 1 1) f then .error .badField
  else
    let room := if f.down then some 0 else frameRoom s stack (regionBytes f)
    let pick := pickFree 4096 (tabHas s.fh.binds) s
    match room, pick.1 with
    | none, _ => .error .badField
    | some _, none => .error .noResource
    | some a, some n =>
      let f := { f with fbBase := if f.down then 0 else radioBase s.grade stack 0 + a }
      .ok (updFh (fun h => { h with binds := tabPut h.binds n f }) pick.2)

/-- Makes the bindings of a list, or the status of the first that is refused. -/
def makeBindings (p cell : Nat) (x : CellConfig) : List (List Byte) → State → Except Status State
  | [], s => .ok s
  | b :: r, s =>
    match makeBinding p cell x b s with
    | .error e => .error e
    | .ok s => makeBindings p cell x r s

def cellCreateBody (q : Req) (s : State) : State × Reply :=
  let p := q.target
  let c := pl q 0 1
  let x := cellConfig q
  let t := cellTable s p
  let cost := cellCost x
  if 64 ≤ p || !(partOf s p).radio || t.state = .empty then failed .partitionState s
  else if (cellOf s p c).state ≠ .absent && c < 64 then failed .cellState s
  else if x.bindCount = 0 || x.poolSlots = 0 || x.ldIter = 0 || x.ulDeliver = 0 || (!x.fdd && x.periodSlots = 0) then
    failed .zeroNotAllowed s
  else if !cfgOk s p c x || !tmplAgrees t x then failed .badField s
  else if !inShare s p x.indBase x.indLen || !inShare s p x.bindList (16 * x.bindCount) then failed .badAddress s
  else if (partOf s p).cuQuota < partCost s p + cost then failed .quota s
  else if 64 * s.dev.radioCuMax < allCost s + cost then failed .overBudget s
  else if 7168 * 16 < allPools s + poolUnits x then failed .noResource s
  else match poolRoom s (cellStack t c) (poolUnits x * 65536) with
  | none => failed .noResource s
  | some room =>
    let specs := (List.range x.bindCount).map (fun i => hdmRead s (x.bindList + 16 * i) 16)
    match makeBindings p c x specs s with
    | .error st => failed st s
    | .ok s =>
      let s := s.setCells (tabPut s.cells (cellKey p c)
        { cfg := x, cost64 := cost, softBase := radioBase s.grade (cellStack t c) 1 + room })
      let s := cellTo p c (if x.standby then .standby else .configured) (cellSlot s (cellOf s p c)) s
      (s, { payload := leBytes 2 cost })

def execCellCreate (m : Nat) (s : State) : Host.Outcome State Fault Refusal :=
  run (m < 80) "mailbox" (runCommand 0x0400 m cellCreateBody s)

/-! ### CELL_DESTROY, CELL_QUERY (R314) -/

def cellDestroyBody (q : Req) (s : State) : State × Reply :=
  if 64 ≤ q.target then failed .partitionState s else
  let c := pl q 0 1
  let x := cellOf s q.target c
  if 64 ≤ c || !(x.state = .configured || x.state = .standby) then failed .cellState s
  else (destroyCell q.target c s, reply .success)

def execCellDestroy (m : Nat) (s : State) : Host.Outcome State Fault Refusal :=
  run (m < 80) "mailbox" (runCommand 0x0401 m cellDestroyBody s)

/-- The slot of a TWIN_MOVE armed for a cell. -/
def armedMove (s : State) (p c : Nat) : Option Nat :=
  (s.noon.find? (fun n => n.2.state = .pending && n.2.action = 2 && n.2.part = p && n.2.arg = c)).map (fun n => n.2.arg2)

/-- The record of R314. -/
def cellRecord (s : State) (p c : Nat) : List Byte :=
  let x := cellOf s p c
  leBytes 1 (cellCode x.state + 8 * roleCode x.role + 32 * b2n x.synced + 64 * b2n (armedMove s p c).isSome + 128 * b2n x.cold)
    ++ leBytes 1 c ++ leBytes 2 x.cost64 ++ leBytes 4 0 ++ leBytes 8 x.lastSealed ++ leBytes 8 x.lastRecord
    ++ leBytes 2 x.peerDev ++ leBytes 1 x.peerPart ++ leBytes 1 x.peerCell ++ leBytes 4 0
    ++ leBytes 8 (ctrWord x.rejected) ++ leBytes 8 (ctrWord x.lateMsgs) ++ leBytes 8 (ctrWord x.mirrorGaps)
    ++ leBytes 8 (ctrWord x.indDrops)

def cellQueryBody (q : Req) (s : State) : State × Reply :=
  if 64 ≤ q.target then failed .partitionState s else
  let c := pl q 0 1
  if 1 < pl q 1 1 then failed .badField s
  else if 64 ≤ c || (cellOf s q.target c).state = .absent then failed .cellState s
  else (if pl q 1 1 = 1 then updCell q.target c (fun x => { x with rejected := {}, lateMsgs := {}, mirrorGaps := {}, indDrops := {} }) s
        else s, { payload := cellRecord s q.target c })

def execCellQuery (m : Nat) (s : State) : Host.Outcome State Fault Refusal :=
  run (m < 80) "mailbox" (runCommand 0x0402 m cellQueryBody s)

/-! ### TWIN_PAIR, TWIN_UNPAIR (R307) -/

/-- A change of role with its TWIN_STATE. -/
def roleTo (p c : Nat) (r : CellRole) (f : Cell → Cell) (s : State) : State :=
  twinState p c (updCell p c (fun x => { f x with role := r }) s)

/-- TWIN_PAIR; whether the peer's cell is a STANDBY cell of equal configuration is what the peer answers. -/
def twinPairBody (peerEqual : Bool) (q : Req) (s : State) : State × Reply :=
  if 64 ≤ q.target then failed .partitionState s else
  let c := pl q 0 1
  let x := cellOf s q.target c
  if pl q 2 2 / 64 ≠ s.fab.device / 64 || !s.mbr.members.contains (pl q 2 2 % 64) || !peerEqual then failed .twinUnavailable s
  else if 64 ≤ c || !(x.state = .configured || x.state = .running) || x.role ≠ .unpaired then failed .cellState s
  else
    let s := roleTo q.target c .active (fun x => { x with peerDev := pl q 2 2, peerPart := pl q 4 1, peerCell := pl q 5 1 }) s
    (sendSnapshot q.target c s, reply .success)

def execTwinPair (m : Nat) (peerEqual : Bool) (s : State) : Host.Outcome State Fault Refusal :=
  run (m < 80) "mailbox" (runCommand 0x0403 m (twinPairBody peerEqual) s)

def twinUnpairBody (q : Req) (s : State) : State × Reply :=
  if 64 ≤ q.target then failed .partitionState s else
  let c := pl q 0 1
  if 64 ≤ c || (cellOf s q.target c).state = .absent || (cellOf s q.target c).role = .unpaired then failed .cellState s
  else
    (roleTo q.target c .unpaired (fun x => { x with peerDev := 0xFFFF, peerPart := 0, peerCell := 0, synced := false,
                                                    snapshot := false, heldFrom := none }) s, reply .success)

def execTwinUnpair (m : Nat) (s : State) : Host.Outcome State Fault Refusal :=
  run (m < 80) "mailbox" (runCommand 0x0404 m twinUnpairBody s)

/-! ### FAPI messages in (R301 to R303) -/

/-- A FAPI message at a ring's head: partition, cell, tag, entries, offset, length, arrival (free tick). -/
structure FapiIn where
  part : Nat
  cell : Nat
  tag : Nat
  n : Nat
  ofs : Nat
  len : Nat
  arr : Nat
  deriving DecidableEq, Repr

/-- The FAPI message at the head of a ring (R301). -/
def fapiHead (s : State) (ring : Nat) : Option FapiIn :=
  match headMsg s ring 4, ringOf s ring with
  | some (0x10, tag, n, b), some r =>
    if r.part = 255 then none else
    some { part := r.part, cell := field b 12 1, tag := tag, n := n, ofs := field b 0 8, len := field b 8 4,
           arr := coverTick s r ((r.devIdx + n - 1) % 4294967296) }
  | _, _ => none

/-- The message type identity at the start of a FAPI message. -/
def fapiIdentity (s : State) (f : FapiIn) : Nat := field (hdmRead s f.ofs 2) 0 2

/-- Takes a message of an identity off its ring and hands it to its meaning. A length out of range completes the entry
with BAD_LENGTH (R316); one outside the share with BAD_ADDRESS; one for a cell that the ring does not serve with a
status the spec leaves open. -/
def fapiTake (ring : Nat) (is : Nat → Bool) (act : FapiIn → State → State) (s : State) : State :=
  match fapiHead s ring with
  | none => s
  | some f =>
    if !is (fapiIdentity s f) then s else
    let x := cellOf s f.part f.cell
    let t := takeHead ring f.n s
    if f.len < 8 || 1048576 < f.len then emit (.ringDone ring f.tag .badLength) t
    else if !inShare s f.part f.ofs f.len then emit (.ringDone ring f.tag .badAddress) t
    else if 64 ≤ f.cell || x.state = .absent || x.cfg.reqRing ≠ ring then
      let (st, t) := drawStatus t
      emit (.ringDone ring f.tag st) t
    else act f t

/-- ERROR.indication for a message that names no slot. -/
def errorNow (f : FapiIn) (identity code : Nat) (s : State) : State :=
  let x := cellOf s f.part f.cell
  let n := cellSlot s x
  errorInd f.part f.cell identity code (n / slotsPerFrame x.cfg.mu % 1024) (n % slotsPerFrame x.cfg.mu) s

/-- What a PARAM.response says: the configuration, in the order of CELL_CREATE's fields, and the counts of R264 (assumption 18). -/
def paramBody (x : CellConfig) : List Byte :=
  leBytes 1 0 ++ leBytes 1 x.mu ++ leBytes 1 (b2n x.ecp + 2 * b2n x.fdd) ++ leBytes 2 x.prbDl ++ leBytes 2 x.prbUl ++ leBytes 1 x.antTx
    ++ leBytes 1 x.antRx ++ leBytes 1 x.layersDl ++ leBytes 1 x.layersUl ++ leBytes 1 x.uSlots ++ leBytes 1 x.periodSlots
    ++ leBytes 1 x.poolSlots ++ leBytes 1 x.ldIter ++ leBytes 1 x.ulDeliver ++ leBytes 2 x.prachThr ++ leBytes 4 x.prachFloor
    ++ leInt 4 x.symOfs
    ++ [PduKind.pdsch, .pdcch, .ssb, .csiRs, .pusch, .pucch, .prach, .srs].flatMap (fun k => leBytes 1 (kindLimit k))
    ++ leBytes 1 16 ++ leBytes 1 16 ++ leBytes 1 8 ++ leBytes 1 4 ++ leBytes 2 140 ++ leBytes 2 1706 ++ leBytes 1 64 ++ leBytes 1 32

/-- PARAM.request: refused by a standby, else answered (assumption 18). -/
def paramAct (f : FapiIn) (s : State) : State :=
  if (cellOf s f.part f.cell).state = .standby then errorNow f 0x00 msgInvalidState s
  else fapi f.part f.cell 0x01 (paramBody (cellOf s f.part f.cell).cfg) s

def execParamRequest (ring : Nat) (s : State) : Host.Outcome State Fault Refusal :=
  run (ring < 4096) "ring" (fapiTake ring (fun i => i = 0x00) paramAct s)

/-- Whether a CONFIG.request's item agrees with CELL_CREATE; what CELL_CREATE does not fix contradicts nothing. -/
def itemAgrees (x : CellConfig) : ConfigItem → Bool
  | .mu n => n = x.mu
  | .ecp b => b = x.ecp
  | .fdd b => b = x.fdd
  | .prbDl n => n = x.prbDl
  | .prbUl n => n = x.prbUl
  | .antTx n => n = x.antTx
  | .antRx n => n = x.antRx
  | .period n => x.fdd || n = x.periodSlots
  | .wideSignal _ _ => true
  | .other _ _ => true

/-- The PRBs of reference signals that a CONFIG.request fixes. -/
def wideItems (l : List ConfigItem) : List (Nat × Nat) :=
  l.filterMap (fun c => match c with
    | .wideSignal a n => some (a, n)
    | _ => none)

/-- CONFIG.request: accepted in CONFIGURED unless its TLVs contradict CELL_CREATE. -/
def configAct (items : List ConfigItem) (f : FapiIn) (s : State) : State :=
  if (cellOf s f.part f.cell).state ≠ .configured then errorNow f 0x02 msgInvalidState s
  else if !items.all (itemAgrees (cellOf s f.part f.cell).cfg) then errorNow f 0x02 msgInvalidConfig s
  else fapi f.part f.cell 0x03 (leBytes 1 0) (updCell f.part f.cell (fun x => { x with configured := true, wide := wideItems items }) s)

def execConfigRequest (ring : Nat) (items : List ConfigItem) (s : State) : Host.Outcome State Fault Refusal :=
  run (ring < 4096) "ring" (fapiTake ring (fun i => i = 0x02) (configAct items) s)

/-- START.request: RUNNING from the first slot whose intake line falls after it (R300). -/
def startAct (f : FapiIn) (s : State) : State :=
  let x := cellOf s f.part f.cell
  if x.state ≠ .configured || !x.configured then errorNow f 0x04 msgInvalidState s
  else
    let n := nextIntake s x
    cellTo f.part f.cell .running n (updCell f.part f.cell (fun x => { x with firstSlot := n, cold := false }) s)

def execStartRequest (ring : Nat) (s : State) : Host.Outcome State Fault Refusal :=
  run (ring < 4096) "ring" (fapiTake ring (fun i => i = 0x04) startAct s)

/-- STOP.request (R300). -/
def stopAct (f : FapiIn) (s : State) : State :=
  if (cellOf s f.part f.cell).state ≠ .running then errorNow f 0x05 msgInvalidState s
  else stopCell f.part f.cell s

def execStopRequest (ring : Nat) (s : State) : Host.Outcome State Fault Refusal :=
  run (ring < 4096) "ring" (fapiTake ring (fun i => i = 0x05) stopAct s)

/-- The slot of a pending move of a standby (R307). -/
def pendingMove (s : State) (p c : Nat) : Option Nat := (armedMove s p c).orElse (fun _ => (cellOf s p c).heldFrom)

/-- Whether a cell takes slot messages for slot n now; a standby only for slots of its pending move. -/
def takesSlot (s : State) (p c : Nat) (n : Int) : Bool :=
  match (cellOf s p c).state with
  | .running => true
  | .moving => true
  | .standby => ((pendingMove s p c).map (fun m => decide ((m : Int) ≤ n))).getD false
  | _ => false

/-- A slot message on arrival (R303, R310): refused with what it says of its PDUs, or held. `dup` tells a second one. -/
def slotAct (identity sfn slot : Nat) (rej : SlotHold → List (Bool × Nat)) (dup : SlotHold → Bool)
    (hold : SlotHold → SlotHold) (f : FapiIn) (s : State) : State :=
  let x := cellOf s f.part f.cell
  let spf := slotsPerFrame x.cfg.mu
  let c := corrected s.tmb f.arr
  let now := slotAt s.win.frameOfs x.cfg.mu x.cfg.ecp c
  let n := resolveMod (sfn * spf + slot) now (1024 * spf)
  let h := tabGet x.slots n.toNat {}
  let all := fun (reason : Nat) => (rej h).map (fun e => (e.1, reason, 0, e.2))
  if !takesSlot s f.part f.cell n then errorInd f.part f.cell identity msgInvalidState sfn slot s
  else if n < 0 || intakeTick s x n.toNat < c then
    kReject f.part f.cell n.toNat (all 4) (errorInd f.part f.cell identity msgSlotErr sfn slot
      (updCell f.part f.cell (fun x => { x with lateMsgs := ctrInc x.lateMsgs }) s))
  else if now + 8 < n.toNat then errorInd f.part f.cell identity msgInvalidSfn sfn slot s
  else if x.state = .moving && x.moveTo.getD 0 ≤ n.toNat then kReject f.part f.cell n.toNat (all 7) s
  else if dup h then errorInd f.part f.cell identity msgSlotErr sfn slot s
  else updCell f.part f.cell (fun x => { x with slots := tabPut x.slots n.toNat (hold h) }) s

/-- The PDUs of a message with their indices from a first one. -/
def pduIndices (up : Bool) (first : Nat) (l : List Pdu) : List (Bool × Nat) :=
  (List.range l.length).map (fun i => (up, first + i))

def execDlTtiRequest (ring : Nat) (msg : SlotMsg) (s : State) : Host.Outcome State Fault Refusal :=
  run (ring < 4096) "ring" (fapiTake ring (fun i => i = 0x80) (slotAct 0x80 msg.sfn msg.slot
    (fun _ => pduIndices false 0 msg.pdus) (fun h => h.dl.isSome) (fun h => { h with dl := some msg.pdus })) s)

def execUlTtiRequest (ring : Nat) (msg : SlotMsg) (s : State) : Host.Outcome State Fault Refusal :=
  run (ring < 4096) "ring" (fapiTake ring (fun i => i = 0x81) (slotAct 0x81 msg.sfn msg.slot
    (fun _ => pduIndices true 0 msg.pdus) (fun h => h.ul.isSome) (fun h => { h with ul := some msg.pdus })) s)

def execUlDciRequest (ring : Nat) (msg : SlotMsg) (s : State) : Host.Outcome State Fault Refusal :=
  run (ring < 4096) "ring" (fapiTake ring (fun i => i = 0x83) (slotAct 0x83 msg.sfn msg.slot
    (fun h => pduIndices false (h.dl.getD []).length msg.pdus) (fun h => h.dci.isSome)
    (fun h => { h with dci := some msg.pdus })) s)

def execTxDataRequest (ring : Nat) (msg : TxMsg) (s : State) : Host.Outcome State Fault Refusal :=
  run (ring < 4096) "ring" (fapiTake ring (fun i => i = 0x84) (slotAct 0x84 msg.sfn msg.slot
    (fun _ => []) (fun _ => false) (fun h => { h with tx := h.tx ++ msg.blocks })) s)

/-- K_PRIO.request; a second one replaces the first (R302). A priority above 7 is taken as the number it is (assumption 164). -/
def execKPrioRequest (ring : Nat) (msg : PrioMsg) (s : State) : Host.Outcome State Fault Refusal :=
  run (ring < 4096 && msg.entries.all (fun e => e.2.1 < 256 && e.2.2 < 65536)) "ring" (fapiTake ring (fun i => i = 0x180)
    (slotAct 0x180 msg.sfn msg.slot (fun _ => []) (fun _ => false) (fun h => { h with prio := msg.entries })) s)

/-- The identities a host may send (R301). -/
def knownIdentity (i : Nat) : Bool := [0x00, 0x02, 0x04, 0x05, 0x80, 0x81, 0x83, 0x84, 0x180].contains i

def execUnsupportedMessage (ring identity : Nat) (s : State) : Host.Outcome State Fault Refusal :=
  run (ring < 4096 && identity < 65536 && !knownIdentity identity) "identity"
    (fapiTake ring (fun i => i = identity) (fun f s => errorNow f identity msgInvalidState s) s)

/-! ### Intake lines and SLOT.indication (R301, R303, R304) -/

/-- The intake line of slot n: what is held is admitted; a standby whose move was not committed discards it (R310). -/
def intakeLine (p c n : Nat) (s : State) : State :=
  let x := cellOf s p c
  let drop := fun (s : State) => updCell p c (fun x => { x with slots := tabDel x.slots n }) s
  if corrNow s < intakeTick s x n then s
  else if x.state = .standby then
    if pendingMove s p c = some n then drop (updCell p c (fun x => { x with heldFrom := none, slots := [] }) s) else drop s
  else if !(x.state = .running || x.state = .moving) || n < x.firstSlot || (x.state = .moving && x.moveTo.getD 0 ≤ n) then s
  else match tabFind? x.slots n with
    | none => s
    | some h =>
      let (keep, rej) := admitPdus x (meetsSweep s p c n) h
      let pick := fun (up : Bool) => (keep.filter (fun k => k.up == up)).map (fun k => (k.idx, k.pdu))
      let s := updCell p c (fun x => { x with admitted := tabPut (x.admitted.filter (fun a => n < a.1 + 32)) n
                                                 { dl := pick false, ul := pick true },
                                               slots := tabDel x.slots n }) s
      kReject p c n rej s

def execIntakeLine (part cell slot : Nat) (s : State) : Host.Outcome State Fault Refusal :=
  run (part < 64 && cell < 64) "cell" (intakeLine part cell slot s)

/-- SLOT.indication for slot n + 2 of a RUNNING cell, at the start of slot n. -/
def slotIndication (p c n : Nat) (s : State) : State :=
  let x := cellOf s p c
  if x.state ≠ .running || cellSlot s x ≠ n then s else fapi p c 0x82 (sfnSlot x (n + 2)) s

def execSlotIndication (part cell slot : Nat) (s : State) : Host.Outcome State Fault Refusal :=
  run (part < 64 && cell < 64) "cell" (slotIndication part cell slot s)

/-! ### Twins (R308, R310) -/

/-- Takes mirrored sequence positions and gains. -/
def takeSeqs (p c : Nat) (seqs : List (Nat × Nat)) (s : State) : State :=
  let put := fun (b : FhBinding) =>
    match seqs.find? (fun q => q.1 = b.eaxc * 2 + b2n b.down) with
    | some q => if b.down then { b with txSeq := q.2 } else { b with rxNext := q.2 }
    | none => b
  updFh (fun h => { h with binds := h.binds.map (fun b => if b.2.part = p && b.2.cell = c then (b.1, put b.2) else b) }) s

def takeGains (g : List (Nat × Int × Int)) (x : Cell) : Cell := { x with gains := g.foldl (fun t e => tabPut t e.1 e.2) x.gains }

def takeHarq (l : List HarqMirror) (x : Cell) : Cell :=
  { x with harq := l.foldl (fun t e => tabPut t e.process
      { slot := if e.slot = 255 then none else some e.slot, tbs := e.tbs, rv := e.rv, ndi := e.ndi }) [] }

/-- Takes the mirrored scheduling context of slot n. -/
def takePdus (n : Nat) (l : List (Bool × Nat × Pdu)) (x : Cell) : Cell :=
  let pick := fun (up : Bool) => (l.filter (fun q => q.1 == up)).map (fun q => q.2)
  { x with admitted := tabPut (x.admitted.filter (fun a => n < a.1 + 32)) n { dl := pick false, ul := pick true } }

/-- A mirror record: a standby takes it; a gap makes it unsynced; the final HARQ record of the former active reaches the
new one, which sends its snapshot (R308, R311). -/
def mirrorRecord (p c : Nat) (r : MirrorRec) (s : State) : State :=
  let x := cellOf s p c
  match r with
  | .snapshot sender n d g q h =>
    if x.state ≠ .standby then s else
    let s := takeSeqs p c q s
    roleTo p c .standby (fun x => { takeHarq h (takeGains g (takePdus n d x)) with
      synced := true, snapshot := true, lastRecord := n, peerDev := sender.1, peerPart := sender.2.1, peerCell := sender.2.2 }) s
  | .schedule n d q g =>
    if x.state ≠ .standby || !x.snapshot then s
    else updCell p c (fun x => { takeGains g (takePdus n d x) with lastRecord := n }) (takeSeqs p c q s)
  | .harq n h =>
    if x.state = .standby && x.snapshot then updCell p c (fun x => takeHarq h x) s
    else if x.state = .running && x.role = .active && n + 1 = x.firstSlot then
      sendSnapshot p c (updCell p c (fun x => { takeHarq h x with harq := (takeHarq h x).harq.map (fun e =>
        (e.1, { e.2 with noCombine := true })) }) s)
    else s
  | .gap => if x.state = .standby then unsync p c s else s

def execTwinMirrorRecord (part cell : Nat) (r : MirrorRec) (s : State) : Host.Outcome State Fault Refusal :=
  run (part < 64 && cell < 64) "cell" (mirrorRecord part cell r s)

/-- COMMIT(n) at the standby: applied only if synced and before its intake line of n; it is then RUNNING, active, from n,
and the first retransmission of each process is decoded without combining (R310, R283). -/
def twinCommit (p c n : Nat) (s : State) : State :=
  let x := cellOf s p c
  let back := fun ok => Out.twinReply x.peerDev x.peerPart x.peerCell ok
  if x.state ≠ .standby || !x.synced || intakeTick s x n ≤ corrNow s then emit (back false) s
  else
    let s := roleTo p c .active (fun x => { x with
      firstSlot := n, heldFrom := none, cold := false, harq := x.harq.map (fun h => (h.1, { h.2 with noCombine := true })) }) s
    emit (back true) (kTwin p c 2 n 0 (cellTo p c .running n s))

def execTwinCommit (part cell slot : Nat) (s : State) : Host.Outcome State Fault Refusal :=
  run (part < 64 && cell < 64) "cell" (twinCommit part cell slot s)

/-- All PDUs held for slots at or after n, as K_REJECT entries of a reason. -/
def heldPdus (h : SlotHold) (reason : Nat) : List Reject :=
  (candidates h).map (fun k => (k.up, reason, 0, k.idx))

/-- The outcome of COMMIT at the former active (R310): applied, it reports what it held for the moved slots; refused, it
runs on from the first slot whose intake line is still to come, or stops in a grid reset (R460); else it goes on to its last slot and does not run again. -/
def commitResult (p c : Nat) (o : CommitOutcome) (s : State) : State :=
  let x := cellOf s p c
  match x.state, x.moveTo with
  | .moving, some n =>
    match o with
    | .applied =>
      let gone := x.slots.filter (fun h => n ≤ h.1)
      let s := updCell p c (fun x => { x with slots := x.slots.filter (fun h => h.1 < n) }) s
      kTwin p c 1 n 0 (gone.foldl (fun s h => kReject p c h.1 (heldPdus h.2 7) s) s)
    | .refused =>
      let m := nextIntake s x
      let s := cellTo p c .running m (updCell p c (fun x => { x with moveTo := none, firstSlot := m }) s)
      if inPhaseA s then stopCell p c s else s
    | _ => s
  | _, _ => s

def execCommitResult (part cell : Nat) (o : CommitOutcome) (s : State) : Host.Outcome State Fault Refusal :=
  run (part < 64 && cell < 64) "cell" (commitResult part cell o s)

end Sys2Proof.Machine
end

