-- ==== Sys2Proof/Machine/StepOps.lean ====
section
/-!
DEFINITION. The shared operations on a running batch step (chapter 12): readiness of micro-steps, their end, the waits of
their SYNC lists, and what a change of the tables ends.
-/
namespace Sys2Proof.Machine

/-- The micro-step records of the running kind of a context. -/
def stepMicros (s : State) (c : Nat) : List ImgMicro :=
  match (ctxOf s c).step with
  | some r => (kindOf (ctxOf s c) r.sub.kind).micros
  | none => []

/-- Micro-steps that still wait and whose predecessors have all ended (R358). -/
def nowReady (s : State) (c : Nat) : List Nat :=
  (List.range (stepMicros s c).length).filter (fun m =>
    (microOf s c m).phase = .waiting
      && ((stepMicros s c).getD m {}).preds.all (fun p => (microOf s c p).phase = .done))

/-- Makes micro-steps ready; one that can never be admitted ends the step with BUSY (R206, R211). -/
def makeReady (c : Nat) : List Nat → State → State
  | [], s => s
  | m :: r, s =>
    let q := readyOf s c m s.tmb.free
    if (ctxOf s c).step.isNone then s
    else if neverFits s q.units q.bound then endStep c .busy false s
    else makeReady c r (addReady q s)

/-- A micro-step has ended for its successors (R358, R431). -/
def microDone (c m : Nat) (s : State) : State :=
  let s := updMicro c m (fun q => { q with phase := .done }) s
  makeReady c (nowReady s c) s

/-- A micro-step whose list is applied and whose waits are all granted. -/
def grantedMicro (s : State) : Option (Nat × Nat) :=
  s.srv.ctxs.findSome? (fun p => p.2.step.bind (fun r => (r.micros.find? (fun q =>
    q.2.phase = .blocked && q.2.waits = 0 && !s.syn.lists.any (fun l => l.2 = (p.1, q.1)))).map (fun q => (p.1, q.1))))

/-- Ends the micro-steps whose waits have all been granted. -/
def settleGrants : Nat → State → State
  | 0, s => s
  | n + 1, s =>
    match grantedMicro s with
    | none => s
    | some (c, m) => settleGrants n (microDone c m s)

/-- Everything that follows from operations on objects: marked steps end, waits granted make successors ready. -/
def settleSync (s : State) : State :=
  let s := settleSteps s
  settleGrants (s.srv.ctxs.foldl (fun n p => n + (p.2.step.elim 0 (fun r => r.micros.length))) 0) s

/-- Whether the journal of a context has a micro-step's bit set (R433). -/
def journaled (s : State) (c m : Nat) : Bool := (ctxOf s c).journal.2.contains m

/-- The order in which lists apply: by the tick of the end, then context, then micro-step (R431). -/
def listBefore (a b : Nat × Nat × Nat) : Bool :=
  a.1 < b.1 || (a.1 = b.1 && (a.2.1 < b.2.1 || (a.2.1 = b.2.1 && a.2.2 < b.2.2)))

/-- The end of a lent micro-step (R212, R214, R419, R431), once every unit stands at its program's end and no entry is due on
one: its units are free; a failed fabric descriptor ends the step; a SYNC
list is queued unless the journal has it; else its successors become ready. -/
def microEnd (c m : Nat) (s : State) : State :=
  match lentOf s c m with
  | none => s
  | some r =>
    if !r.units.all (fun u => atEnd s u && !(unitRun s u).stopped) || (dueOn s r.units).isSome then s else
    let busy := (r.units.filter (fun u => isQuad u || isTile u)).length * (s.tmb.free - max r.launch s.pwr.periodStart)
    let s := updPwr (fun p => { p with lentBusy := p.lentBusy + busy }) s
    let s := updTts (fun t => { t with lent := t.lent.filter (fun q => !(q.ctx = c && q.micro = m)) }) s
    let s := clearUnits r.units s
    let q := microOf s c m
    if q.status ≠ .success then endStep c q.status false s
    else if q.sync.isEmpty || journaled s c m then microDone c m s
    else updSyn (fun y => { y with lists := insertBy (fun a b => listBefore a b) (s.tmb.free, c, m) y.lists }) (updMicro c m (fun q => { q with phase := .blocked }) s)

/-- Whether a kind of a context holds a micro-step that can never be admitted (R211, R361). -/
def kindNeverFits (s : State) (c k : Nat) : Bool :=
  (kindOf (ctxOf s c) k).micros.any (fun i => neverFits s (i.units.map (bindUnit (ctxOf s c).bind)) i.bound)

/-- The tables have changed: running and queued batch steps that can no longer be admitted end with BUSY (R361). -/
def tablesChanged (s : State) : State :=
  (s.srv.ctxs.map (fun p => p.1)).foldl (fun s c =>
    let s := match (ctxOf s c).step with
      | some r => if kindNeverFits s c r.sub.kind then endStep c .busy true s else s
      | none => s
    let run := (ctxOf s c).step.isSome
    let bad := fun (q : Submission) => kindNeverFits s c q.kind
    if run then
      -- the running submission stands at the head of the queue
      let head := (ctxOf s c).queue.head?
      dropQueued c (fun q => bad q && some q ≠ head) .busy s
    else dropQueued c bad .busy s) s

/-- Completes the submissions that have not started with a status; a running one stays at the head. -/
def dropNotStarted (c : Nat) (st : Status) (s : State) : State :=
  if (ctxOf s c).step.isNone then dropQueued c (fun _ => true) st s
  else
    let out := (ctxOf s c).queue.drop 1
    let s := updCtx c (fun x => { x with queue := x.queue.take 1 }) s
    out.foldl (fun s q => doneUnstarted c q st s) s

end Sys2Proof.Machine
end

