-- ==== Sys2Proof/Machine/FabricOps.lean ====
section
/-!
DEFINITION. The shared operations of the memory fabric (chapter 14): ports, tags and transmission on the requesting
side; windows, checks, the ledger and the application of a request on the receiving side.
-/
namespace Sys2Proof.Machine

/-! ### Operations (R401) -/

/-- Whether a switch may combine an operation. -/
def mayCombine : FabOp → Bool
  | .load => true | .get => true | .add => true | .and => true | .or => true | .xor => true | _ => false

/-- Whether an address has the alignment of an operation. -/
def fabAligned (op : FabOp) (a n : Nat) : Bool :=
  match op with
  | .get => a % 64 = 0 | .put => a % 64 = 0 | .reduceAdd => a % 64 = 0
  | _ => n = 0 || a % n = 0

/-- The status a code names (R36). -/
def statusOf (code : Nat) : Option Status := allStatuses.find? (fun s => statusCode s = code)

/-! ### Ports (R397) -/

def portOf (s : State) (n : Nat) : FabPort := tabGet s.fab.ports n {}

def updPort (n : Nat) (f : FabPort → FabPort) (s : State) : State :=
  updFab (fun b => { b with ports := tabUpd b.ports n {} f }) s

def portUsable (s : State) (n : Nat) : Bool := n < gradePorts s.grade && (portOf s n).link && (portOf s n).enabled

/-- The usable ports for a mover's region, those of the other regions when all of its own are down; for the firmware all. -/
def usablePorts (s : State) (region : Option Nat) : List Nat :=
  let all := (List.range (gradePorts s.grade)).filter (portUsable s)
  match region with
  | none => all
  | some r =>
    let own := all.filter (fun n => n / 3 = r)
    if own.isEmpty then all else own

/-- The port of a transmission: fixed by destination and job, or the device's choice, which is open (assumption 2). -/
def choosePort (region : Option Nat) (fixed : Bool) (dst job : Nat) (s : State) : Option Nat × State :=
  let u := usablePorts s region
  if u.isEmpty then (none, s)
  else if fixed then (u[(dst + job) % u.length]?, s)
  else
    let (v, s) := drawFree s
    (u[v % u.length]?, s)

/-- Flits of a header with its data. -/
def flitsOf (data : List Byte) : Nat := 1 + cdiv data.length 64

/-- Counts flits sent on a port and those its link resent, whose number is open (R396); of what arrives the port is open too. -/
def countTx (n k : Nat) (s : State) : State :=
  let (v, s) := drawFree s
  updPort n (fun p => { p with flitsTx := ctrAdd p.flitsTx k, resends := ctrAdd p.resends v }) s
def countRx (k : Nat) (s : State) : State :=
  match choosePort none false 0 0 s with
  | (some n, s) => updPort n (fun p => { p with flitsRx := ctrAdd p.flitsRx k }) s
  | (none, s) => s

/-! ### Tags (R410, R411) -/

def tagKey (dst tag : Nat) : Nat := dst * 4294967296 + tag
def tagOf (s : State) (dst tag : Nat) : Option TagRec := tabFind? s.fab.tags (tagKey dst tag)

def updTag (dst tag : Nat) (f : TagRec → TagRec) (s : State) : State :=
  updFab (fun b => { b with tags := tabMod b.tags (tagKey dst tag) f }) s

def nextTag (s : State) (dst : Nat) : Nat := tabGet s.fab.nextTag dst 1

/-- The tag after one: modulo 2^32, skipping 0. -/
def tagAfter (t : Nat) : Nat := if (t + 1) % 4294967296 = 0 then 1 else t + 1

/-- Whether the next tag to a destination must wait for an older one (R410). -/
def tagWaits (s : State) (dst : Nat) : Bool :=
  !s.fab.started || match tagOf s dst ((nextTag s dst + 4294967296 - 65536) % 4294967296) with
  | some r => r.state ≠ .resolved
  | none => false

/-- The lowest unresolved tag to a destination, `t` where there is none. -/
def ackFloor (s : State) (dst t : Nat) : Nat :=
  let l := s.fab.tags.filter (fun p => p.1 / 4294967296 = dst && p.2.state ≠ .resolved)
  match (sortBy (fun (a b : Nat × TagRec) => a.2.order < b.2.order) l).head? with
  | some p => p.1 % 4294967296
  | none => t

/-- Whether a destination lies in another domain (R418). -/
def otherDomain (s : State) (dst : Nat) : Bool := dst / 64 ≠ s.fab.device / 64

/-- The reply timeout (R411). -/
def replyWait (s : State) (dst : Nat) : Nat := if otherDomain s dst then s.fab.gwTimeout else 98304

/-- The mover region a request leaves from. -/
def originRegion : FabOrigin → Option Nat
  | .micro _ _ u => some (unitRegion u)
  | _ => none

/-- The partition a request belongs to; none for the firmware's own. -/
def originPart (s : State) : FabOrigin → Option Nat
  | .micro c _ _ => some (ctxOf s c).part
  | _ => none

/-- Whether requests of an origin go by fixed route: as asked, and always under ledger mode (R447). -/
def routeFixed (s : State) (o : FabOrigin) (r : FabReq) : Bool :=
  !otherDomain s r.dst && (r.fixedRoute || ((originPart s o).map (ledgerMode s)).getD false)

/-- Where a request to a device goes: to the device, or to the gateway for another domain (R418). -/
def sentTo (s : State) (dst : Nat) : Nat := if otherDomain s dst then s.fab.gateway else dst

/-- Transmits a tag's request once (R397, R410, R418): the port, the flits, what goes out. With no usable port, or no gateway
to another domain, it is lost. -/
def transmit (dst tag : Nat) (s : State) : State :=
  match tagOf s dst tag with
  | none => s
  | some t =>
    let fixed := routeFixed s t.origin t.req
    match (if sentTo s dst = 0xFFFF then (none, s) else choosePort (originRegion t.origin) fixed dst t.req.job s) with
    | (none, s) => updTag dst tag (fun t => { t with lastTx := s.tmb.free }) s
    | (some n, s) =>
      let r := { t.req with attempt := t.attempt, fixedRoute := fixed, path := if fixed then n else 0,
                            ackFloor := ackFloor s dst tag }
      emit (.fabRequest n (sentTo s dst) t.op r) (countTx n (flitsOf r.data) (updTag dst tag (fun t => { t with
        lastTx := s.tmb.free, req := r, port := n }) s))

/-- Takes the next tag to a destination and sends a request under it; the tag is the answer. -/
def sendTagged (o : FabOrigin) (op : FabOp) (r : FabReq) (combine : Bool) (pl : Place) (ra : Nat) (s : State) : Nat × State :=
  let t := nextTag s r.dst
  let rec0 : TagRec :=
    { origin := o, op := op, retPlace := pl, retAddr := ra, order := s.fab.issued,
      req := { r with combined := combine && mayCombine op && !otherDomain s r.dst, attempt := 0, src := s.fab.device,
                      tag := t, firstStamp := corrNow s } }
  let s := updFab (fun b => { b with nextTag := tabPut b.nextTag r.dst (tagAfter t), issued := b.issued + 1,
                                     tags := tabPut b.tags (tagKey r.dst t) rec0 }) s
  (t, transmit r.dst t s)

/-! ### Completion at the requester (R411, R419, R436) -/

/-- A descriptor's status other than SUCCESS: kept for the end of the micro-step, with its record (R405, R419). -/
def descFailed (c m u : Nat) (st : Status) (r : FabReq) (s : State) : State :=
  let s := updMicro c m (fun q => { q with status := if q.status = .success then st else q.status }) s
  fault { code := 0xB, status := some st, part := (ctxOf s c).part, unit := u, owner := c, micro := m, job := r.job,
          dst := r.dst, tag := r.tag, position := unitPosition s u } s

/-- Puts what a request returns where its descriptor says: data, or the old value of a returning atomic. -/
def landData (t : TagRec) (data : List Byte) (s : State) : State :=
  match t.op with
  | .load => storeBytes (placeAt t.retPlace t.retAddr) data s
  | .get => storeBytes (placeAt t.retPlace t.retAddr) data s
  | op => if isAtomic op && mayVary op && op ≠ .faddF32 && op ≠ .faddB16 then
      storeBytes (placeAt t.retPlace t.retAddr) (leBytes t.req.length t.result) s else s

/-- What the end of a tag with a status means to who issued it. -/
def tagEnded (t : TagRec) (st : Status) (data : List Byte) (s : State) : State :=
  match t.origin with
  | .micro c m u =>
    if t.detached then s
    else if st = .success then landData t data s
    else descFailed c m u st t.req s
  | .barrier n => if st = .success then s else settleSync (orphan n 3 0xFFFF s)
  | _ => s

/-- Whether a resolved tag must be kept: accumulating requests of a context's step value, tags a fence covers, and the
ledger's CAS until its outcome is taken. -/
def keepTag (s : State) (k : Nat) (t : TagRec) : Bool :=
  match t.origin with
  | .micro c _ _ => (ctxOf s c).step.isSome || (ctxOf s c).acc.2.any (fun a => tagKey a.2.1 a.2.2 = k)
  | .ledger c => ((ctxOf s c).step.map (fun r => r.cas)).getD false
  | _ => false

/-- Drops resolved tags that nothing can ask for any more. -/
def pruneTags (s : State) : State :=
  updFab (fun b => { b with tags := b.tags.filter (fun p => p.2.state ≠ .resolved || keepTag s p.1 p.2) }) s

/-- A tag resolves with a status and result (R411). -/
def resolveTag (dst tag : Nat) (st : Status) (result : Nat) (data : List Byte) (s : State) : State :=
  match tagOf s dst tag with
  | none => s
  | some t =>
    let t' := { t with state := .resolved, status := st, result := result }
    pruneTags (tagEnded t' st data (updTag dst tag (fun _ => t') s))

/-! ### Issue (R402, R405, R410, R415) -/

/-- Whether an identity is held by the partition of a context; the firmware's own identities are always held. -/
def jobHeld (s : State) (c : Option Nat) (job : Nat) : Bool :=
  match c with
  | some c => (partOf s (ctxOf s c).part).jobs.contains job
  | none => true

/-- The tags of earlier accumulating requests of a micro-step to a destination, in order (R415). -/
def earlierTags (s : State) (c m dst : Nat) : List Nat :=
  ((ctxOf s c).acc.2.filter (fun a => a.1 = m && a.2.1 = dst)).map (fun a => a.2.2)

/-- Counts an accumulating request of this attempt to a destination. -/
def countAcc (c m dst : Nat) (s : State) : State :=
  updMicro c m (fun q => { q with accNext := tabUpd q.accNext dst 0 (fun n => n + 1) }) s

/-- Sends a descriptor's request, or takes up the tag an earlier attempt sent for it (R415). -/
def sendDesc (o : FabOrigin) (d : FabDesc) (s : State) : State :=
  match o with
  | .micro c m _ =>
    if accumulates d.op then
      let k := tabGet (microOf s c m).accNext d.req.dst 0
      let s := countAcc c m d.req.dst s
      match (earlierTags s c m d.req.dst)[k]? with
      | some t =>
        match tagOf s d.req.dst t with
        | some r =>
          let r' := { r with detached := false, origin := o, retPlace := d.retPlace, retAddr := d.retAddr }
          let s := updTag d.req.dst t (fun _ => r') s
          if r.state = .issued then s
          else tagEnded r' (if r.state = .abandoned then .fabricTimeout else r.status) [] s
        | none => s
      | none =>
        let (t, s) := sendTagged o d.op d.req d.combinable d.retPlace d.retAddr s
        updCtx c (fun x => { x with acc := (x.acc.1, x.acc.2 ++ [(m, d.req.dst, t)]) }) s
    else (sendTagged o d.op d.req d.combinable d.retPlace d.retAddr s).2
  | _ => (sendTagged o d.op d.req d.combinable d.retPlace d.retAddr s).2

/-- A status at issue: nothing is sent. -/
def issueEnds (o : FabOrigin) (d : FabDesc) (st : Status) (s : State) : State :=
  match o with
  | .micro c m u => if st = .success then s else descFailed c m u st d.req s
  | _ => s

/-- Issues a request: the checks of R402 and R405, the wait of R410, then transmission. -/
def issueReq (o : FabOrigin) (d : FabDesc) (s : State) : State :=
  if d.req.length = 0 && !accumulates d.op then issueEnds o d .success s
  else if !fabAligned d.op d.req.addr d.req.length then issueEnds o d .badField s
  else if accumulates d.op && otherDomain s d.req.dst then issueEnds o d .notPermitted s
  else if !jobHeld s d.ctx d.req.job then issueEnds o d .notPermitted s
  else if tagWaits s d.req.dst then updFab (fun b => { b with issueWait := b.issueWait ++ [(o, d)] }) s
  else sendDesc o d s

/-! ### Barriers over devices (R435) -/

/-- The job address of a byte of an object's record under a job, by the window of kind 1 this device holds. -/
def objectAddr (s : State) (job n ofs : Nat) : Option Nat :=
  (s.fab.windows.find? (fun w => w.2.kind = 1 && w.2.job = job && w.2.offset / 32 ≤ n
      && n < (w.2.offset + w.2.length) / 32)).map (fun w => w.2.base + 32 * (n - w.2.offset / 32) + ofs)

/-- Sends a member's ADD to the home, or the home's STORE to a member. -/
def sendBarrier (b : BarrierSend) (s : State) : State :=
  let job := (objOf s b.obj).job
  match objectAddr s job b.obj (if b.store then 16 else 8) with
  | none => settleSync (orphan b.obj 3 0xFFFF s)
  | some a =>
    let r : FabReq := { job := job, dst := b.dst, addr := a, length := 8, operand0 := if b.store then 0 else b.value,
                        data := if b.store then leBytes 8 b.value else [] }
    issueReq (.barrier b.obj) { ctx := none, micro := 0, mover := 0, op := if b.store then .store else .add, req := r,
                                combinable := false, retPlace := .hdm, retAddr := 0 } s

def sendBarriers (l : List BarrierSend) (s : State) : State := l.foldl (fun s b => sendBarrier b s) s

/-! ### Windows (R406 to R408) -/

/-- The window of a job that holds [a, a + n). -/
def windowFor (s : State) (job a n : Nat) : Option FabWindow :=
  (s.fab.windows.find? (fun w => w.2.job = job && w.2.base ≤ a && a + n ≤ w.2.base + w.2.length)).map (fun w => w.2)

/-- Whether a window permits an operation. -/
def windowAllows (w : FabWindow) (op : FabOp) : Bool :=
  match op with
  | .load => w.rd | .get => w.rd | .store => w.wr | .put => w.wr | _ => w.atom

/-- The address in the one memory of a job address under a window (R408). -/
def windowAddr (s : State) (w : FabWindow) (a : Nat) : Nat :=
  regionAt (if w.region = 0 then weightsHome s w.ctx else w.ctx) w.lregion w.region (w.offset + (a - w.base))

/-! ### The receiver's ledger (R412 to R414) -/

def srcOf (s : State) (src : Nat) : Option SrcRec := tabFind? s.fab.sources src
def entryOf (s : State) (src tag : Nat) : Option LedgerEntry := tabFind? s.fab.entries (tagKey src tag)

/-- Where a tag of a source stands: new (beyond, clear, or an unknown source), applied, or before the bitmap. -/
inductive TagPlace where
  | fresh | applied | before
  deriving DecidableEq, Repr

def tagPlace (s : State) (src tag : Nat) : TagPlace :=
  match srcOf s src with
  | none => .fresh
  | some r =>
    if after32 tag r.high then .fresh
    else if 65536 ≤ idxSub r.high tag then .before
    else if r.applied.contains tag then .applied else .fresh

/-- Marks a tag applied: h advances and bits leave the bitmap. -/
def markApplied (src tag : Nat) (s : State) : State :=
  let put := fun (r : SrcRec) =>
    let h := if r.applied.isEmpty && r.high = 0 then tag else if after32 tag r.high then tag else r.high
    { r with high := h, applied := (r.applied ++ [tag]).filter (fun t => idxSub h t < 65536) }
  updFab (fun b => { b with sources := tabUpd b.sources src { heard := s.tmb.free } put }) s

/-- A source is heard. -/
def heardFrom (src : Nat) (s : State) : State :=
  updFab (fun b => { b with sources := tabMod b.sources src (fun r => { r with heard := s.tmb.free }) }) s

/-- Releases the entries of a source before its ack_floor (R413). -/
def releaseEntries (src floor : Nat) (s : State) : State :=
  updFab (fun b => { b with entries := b.entries.filter (fun e =>
    !(e.1 / 4294967296 = src && after32 floor (e.1 % 4294967296))) }) s

/-! ### Application (R401, R437) -/

/-- What serving a request gives: status, result, data. -/
structure Served where
  status : Status := .success
  result : Nat := 0
  data : List Byte := []
  deriving DecidableEq, Repr

/-- The new value of an integer atomic of n bytes. -/
def intAtomic (op : FabOp) (old a b n : Nat) : Nat :=
  let m := 2 ^ (8 * n)
  let a := a % m
  match op with
  | .add => (old + a) % m | .addR => (old + a) % m
  | .and => old &&& a | .andR => old &&& a
  | .or => old ||| a | .orR => old ||| a
  | .xor => Nat.xor old a | .xorR => Nat.xor old a
  | .xchg => a
  | .cas => if old = a then b % m else old
  | _ => old

/-- Whether an atomic returns the old value. -/
def returnsOld : FabOp → Bool
  | .addR => true | .andR => true | .orR => true | .xorR => true | .xchg => true | .cas => true
  | .faddRF32 => true | .faddRB16 => true | _ => false

/-- The lineage of a fabric request (R446). -/
def fabLineage (r : FabReq) : Nat := ((r.src * 16777216 + r.job) * 4294967296 + r.tag) * 2 + 1

/-- Counts a may-vary application against the context that owns the bytes, while it runs a batch step (R446). -/
def contendFab (c a n : Nat) (r : FabReq) (s : State) : State :=
  if (ctxOf s c).step.isSome then contendRange c a n (fabLineage r) s else s

/-- An F32 or B16 sum added into memory at one element (R129). -/
def fpAddMem (s : State) (f : Fmt) (a n x : Nat) : List Byte :=
  leBytes n (fpAdd s.grd.opt f (leNat (memReadBytes s.mem a n)) x).1

/-- REDUCE_ADD over a block. -/
def reduceBlock (s : State) (a : Nat) (data : List Byte) : List Byte :=
  (List.range (data.length / 4)).flatMap (fun i => fpAddMem s .f32 (a + 4 * i) 4 (field data (4 * i) 4))

/-- Serves a request on a context's memory. -/
def serveMemory (w : FabWindow) (op : FabOp) (r : FabReq) (s : State) : State × Served :=
  let a := windowAddr s w r.addr
  let n := r.length
  let old := leNat (memReadBytes s.mem a n)
  let reads := !(op = .store || op = .put)
  if reads && meetsBad s a n then
    (fault { code := 7, status := some .uncorrectable, part := w.part, owner := w.ctx, addr := a, job := r.job } s,
     { status := .uncorrectable })
  else
    let vary := fun (s : State) => if mayVary op || r.several then contendFab w.ctx a n r s else s
    match op with
    | .load => (s, { data := memReadBytes s.mem a n })
    | .get => (s, { data := memReadBytes s.mem a n })
    | .store => (vary (storeBytes a (r.data.take n) s), {})
    | .put => (vary (storeBytes a (r.data.take n) s), {})
    | .reduceAdd => (vary (storeBytes a (reduceBlock s a (r.data.take n)) s), {})
    | op =>
      let res := if returnsOld op then old else 0
      let new := match op with
        | .faddF32 => fpAddMem s .f32 a 4 (r.operand0 % 4294967296)
        | .faddRF32 => fpAddMem s .f32 a 4 (r.operand0 % 4294967296)
        | .faddB16 => fpAddMem s .b16 a 2 (r.operand0 % 65536)
        | .faddRB16 => fpAddMem s .b16 a 2 (r.operand0 % 65536)
        | op => leBytes n (intAtomic op old r.operand0 r.operand1 n)
      (vary (storeBytes a new s), { result := res })

/-- Codes of object types; word 0 of a record and the words a type names (R428). -/
def objRecord (s : State) (n : Nat) : List Byte :=
  let o := objOf s n
  let w := o.waiters.length
  let head := if w = 0 then 0xFFFF else Config.waiterEntry n 0 % 32768
  let tail := if w = 0 then 0xFFFF else Config.waiterEntry n (w - 1) % 32768
  let w0 := o.type + 16 * b2n o.orphaned + 32 * b2n o.distributed + 64 * b2n o.home + 256 * o.part + 65536 * w
    + 2 ^ 32 * head + 2 ^ 48 * tail
  let w1 := if o.type = 1 then o.value else if o.type = 2 then b2n o.set
    else if o.type = 3 then o.count + 2 ^ 32 * o.limit else if o.type = 4 then o.holder
    else if o.type = 5 then o.participants + 2 ^ 17 * o.arrived + 2 ^ 34 * o.job else 0
  let w2 := if o.type = 4 then o.holderStep else if o.type = 5 then o.phase + 2 ^ 32 * o.homeDev else 0
  let w3 := if o.type = 5 then o.members else 0
  leBytes 8 w0 ++ leBytes 8 w1 ++ leBytes 8 w2 ++ leBytes 8 w3

/-- What a window of kind 1 lets a request do to an object (R437). -/
def objectReq (s : State) (op : FabOp) (r : FabReq) (n ofs : Nat) : Option Nat :=
  let o := objOf s n
  match op with
  | .add =>
    if r.length ≠ 8 || ofs ≠ 8 then none
    else if o.type = 1 then some 0x01
    else if o.type = 3 then some 0x10
    else if o.type = 5 && o.distributed && o.home && r.operand0 = 1 then some 0x20
    else none
  | .or => if r.length = 8 && ofs = 8 && r.operand0 = 1 && o.type = 2 then some 0x08 else none
  | .store => if r.length = 8 && ofs = 16 && o.type = 5 && o.distributed && !o.home then some 0 else none
  | _ => none

/-- Bytes of the records a window of kind 1 shows, from a byte offset on. -/
def objectBytes (s : State) (at_ n : Nat) : List Byte :=
  let first := at_ / 32
  (((List.range ((at_ + n + 31) / 32 - first)).flatMap (fun i => objRecord s (first + i))).drop (at_ % 32)).take n

/-- The objects that [at, at + n) of the record space meets. -/
def objectsMet (at_ n : Nat) : List Nat := (List.range ((at_ + n + 31) / 32 - at_ / 32)).map (fun i => at_ / 32 + i)

/-- Applies operation k to object n: 0 writes a barrier's phase, 0x20 arrives, the others are those of SYNC_OP. -/
def objectApply (k n : Nat) (r : FabReq) (s : State) : State × Served :=
  if k = 0 then
    let v := field r.data 0 4
    if after32 v (objOf s n).phase then (settleSync (grant n (updObj n (fun o => { o with phase := v }) s)), {}) else (s, {})
  else if k = 0x20 then (settleSync (sendBarriers (arriveAt n s).2 (arriveAt n s).1), {})
  else if k = 0x10 && 4294967296 ≤ r.operand0 then (s, { status := .badField })
  else
    let x := applyNow k n r.operand0 0xFFFF s
    (settleSync (sendBarriers x.2.2 x.1), { status := x.2.1 })

/-- Serves a request on synchronisation objects (R437). -/
def serveObject (w : FabWindow) (op : FabOp) (r : FabReq) (s : State) : State × Served :=
  let at_ := w.offset + (r.addr - w.base)
  let n := at_ / 32
  let met := (objectsMet at_ r.length).map (objOf s)
  if met.any (fun o => o.type = 0 || o.part ≠ w.part) then (s, { status := .windowFault })
  else if met.any (fun o => o.orphaned) then (s, { status := .ownerLost })
  else if op = .load || op = .get then (s, { data := objectBytes s at_ r.length })
  else
    match objectReq s op r n (at_ % 32) with
    | none => (s, { status := .windowFault })
    | some k => objectApply k n r s

/-- Applies a request through its window. -/
def serveWindow (w : FabWindow) (op : FabOp) (r : FabReq) (s : State) : State × Served :=
  if w.kind = 1 then serveObject w op r s else serveMemory w op r s

/-! ### The receiver (R403, R409) -/

def updFabCtr (f : FabCounters → FabCounters) (s : State) : State := updFab (fun b => { b with ctr := f b.ctr }) s

/-- Sends the reply to a request; the port it leaves by is open. -/
def sendReply (op : FabOp) (r : FabReq) (dup : Bool) (v : Served) (s : State) : State :=
  let s := if dup then updFabCtr (fun c => { c with duplicates := ctrInc c.duplicates }) s else s
  let s := match v.status with
    | .outcomeUnknown => updFabCtr (fun c => { c with outcomeUnknown := ctrInc c.outcomeUnknown }) s
    | .windowFault => updFabCtr (fun c => { c with windowFaults := ctrInc c.windowFaults }) s
    | .jobRetired => updFabCtr (fun c => { c with retired := ctrInc c.retired }) s
    | .busy => updFabCtr (fun c => { c with busy := ctrInc c.busy }) s
    | _ => s
  let reply : FabReply := { combined := false, dup := dup, attempt := r.attempt, status := statusCode v.status,
                            src := s.fab.device, dst := r.src, tag := r.tag, result := v.result, data := v.data }
  let s := match choosePort none false 0 0 s with
    | (some n, s) => countTx n (flitsOf v.data) s
    | (none, s) => s
  emit (.fabReply op reply) s

/-- Whether a source is a device of this domain outside the epoch. -/
def srcOutside (s : State) (src : Nat) : Bool := src / 64 = s.fab.device / 64 && !s.mbr.members.contains (src % 64)

/-- Whether a job is held on this device. -/
def jobOnDevice (s : State) (job : Nat) : Bool := s.parts.any (fun p => p.2.jobs.contains job)

/-- A request sent by a fabric element as combined (R417). -/
def isCombined (r : FabReq) : Bool := r.combined && 0xFFC0 ≤ r.src

/-- Whether a window's partition takes no writes now (row 9). -/
def partHeld (s : State) (p : Nat) : Bool := (partOf s p).state = .frozen || (partOf s p).state = .restoring

/-- Rows 6 to 12 of R409 for a request not served before: its outcome, and whether it was applied. -/
def serveFresh (op : FabOp) (r : FabReq) (s : State) : State × Served × Bool :=
  let no := fun st => (s, ({ status := st } : Served), false)
  if tabHas s.quarantine r.job then no .jobRetired
  else if !jobOnDevice s r.job then no .windowFault
  else match windowFor s r.job r.addr r.length with
  | none => no .windowFault
  | some w =>
    if !windowAllows w op || (isCombined r && !w.comb) then no .windowFault
    else if partHeld s w.part && !(op = .load || op = .get) then no .busy
    else if accumulates op && 262144 ≤ s.fab.entries.length then no .busy
    else if (srcOf s r.src).isNone && 256 ≤ s.fab.sources.length then no .noResource
    else
      let (s, v) := serveWindow w op r s
      (s, v, v.status = .success)

/-- A duplicate read is served again (R414); checks 6 to 8 still find its window. -/
def serveAgain (op : FabOp) (r : FabReq) (s : State) : State × Served :=
  let (s, v, _) := serveFresh op r s
  (s, v)

/-- Keeps an accumulating request's outcome in an atomic entry (R412). -/
def makeEntry (r : FabReq) (v : Served) (s : State) : State :=
  let e : LedgerEntry := { made := s.tmb.free, firstStamp := r.firstStamp, status := v.status, result := v.result }
  updFab (fun b => { b with entries := tabPut b.entries (tagKey r.src r.tag) e }) s

/-- The receiver's handling of a request, row by row (R409, R414, R522). -/
def receiveReq (op : FabOp) (r : FabReq) (s : State) : State :=
  let s := countRx (flitsOf r.data) s
  let locked := s.tmb.state = .locked || s.tmb.state = .holdover
  if r.dst ≠ s.fab.device then updFabCtr (fun c => { c with misrouted := ctrInc c.misrouted }) s
  else if !s.fab.started || !s.mbr.member || srcOutside s r.src then sendReply op r false { status := .notMember } s
  else if locked && r.firstStamp + s.fab.lifetime < corrNow s then
    updFabCtr (fun c => { c with stale := ctrInc c.stale }) s
  else if r.firstStamp < s.fab.start then sendReply op r false { status := .outcomeUnknown } s
  else
    let s := releaseEntries r.src r.ackFloor (heardFrom r.src s)
    let read := op = .load || op = .get
    match tagPlace s r.src r.tag with
    | .fresh =>
      let (s, v, done) := serveFresh op r s
      let s := if done then markApplied r.src r.tag s else s
      let s := if done && accumulates op then makeEntry r v s else s
      sendReply op r false v s
    | .applied =>
      if read then
        let (s, v) := serveAgain op r s
        sendReply op r true v s
      else if !accumulates op then sendReply op r true {} s
      else match entryOf s r.src r.tag with
        | some e => sendReply op r true { status := e.status, result := e.result } s
        | none => sendReply op r true { status := .outcomeUnknown } s
    | .before =>
      if read then
        let (s, v) := serveAgain op r s
        sendReply op r true v s
      else if !accumulates op then sendReply op r true {} s
      else sendReply op r false { status := .outcomeUnknown } s

end Sys2Proof.Machine
end

