-- ==== Sys2Proof/Machine/Fabric.lean ====
section
/-!
DEFINITION. The meanings of the commands of chapter 14: ports, jobs, windows, requests issued and served, replies,
timeouts, fences.
-/
namespace Sys2Proof.Machine

/-! ### Commands (R422 to R424) -/

def fabDeviceConfigBody (q : Req) (s : State) : State × Reply :=
  let dev := pl q 0 2
  let life := pl q 4 4
  let gw := pl q 8 4
  if s.parts.any (fun p => !p.2.jobs.isEmpty) then failed .notPermitted s
  else if gw = 0 then failed .zeroNotAllowed s
  else if 0xFFC0 ≤ dev || life < 1966080 || 15728640 < life || life < 9 * gw then failed .badField s
  else (updFab (fun b => { b with device := dev, gateway := pl q 2 2, lifetime := life, gwTimeout := gw }) s, reply .success)

def execFabDeviceConfig (m : Nat) (s : State) : Host.Outcome State Fault Refusal :=
  run (m < 80) "mailbox" (runCommand 0x0600 m fabDeviceConfigBody s)

/-- Posts FAB_PORT (R425). -/
def fabPortEvent (n : Nat) (up : Bool) (cause : Nat) (s : State) : State :=
  post { code := 0x0601, detail := leBytes 1 n ++ leBytes 1 (b2n up) ++ leBytes 1 cause } s

/-- FAB_PORT_CONFIG: a port that is disabled loses its link. -/
def fabPortConfigBody (q : Req) (s : State) : State × Reply :=
  let n := pl q 0 1
  let on := pl q 1 1
  if gradePorts s.grade ≤ n || 1 < on then failed .badField s
  else
    let down := on = 0 && (portOf s n).link
    let s := updPort n (fun p => { p with enabled := on = 1, link := p.link && on = 1 }) s
    (if down then fabPortEvent n false 0 s else s, reply .success)

def execFabPortConfig (m : Nat) (s : State) : Host.Outcome State Fault Refusal :=
  run (m < 80) "mailbox" (runCommand 0x0601 m fabPortConfigBody s)

def fabJobTakeBody (q : Req) (s : State) : State × Reply :=
  let p := q.target
  let job := pl q 0 4 % 16777216
  if 64 ≤ p then failed .partitionState s
  else if tabHas s.quarantine job then failed .jobRetired s
  else if (partOf s p).jobs.contains job then (s, reply .success)
  else if jobOnDevice s job then failed .notPermitted s
  else if (partOf s p).jobIds ≤ (partOf s p).jobs.length then failed .quota s
  else (updPart p (fun x => { x with jobs := x.jobs ++ [job] }) s, reply .success)

def execFabJobTake (m : Nat) (s : State) : Host.Outcome State Fault Refusal :=
  run (m < 80) "mailbox" (runCommand 0x0602 m fabJobTakeBody s)

/-- Retires an identity: its windows go, it leaves its partition, its quarantine begins (R381, R421). -/
def retireJob (job : Nat) (s : State) : State :=
  let s := updFab (fun b => { b with windows := b.windows.filter (fun w => w.2.job ≠ job) }) s
  let s := s.setParts (s.parts.map (fun p => (p.1, { p.2 with jobs := p.2.jobs.filter (fun j => j ≠ job) })))
  s.setQuarantine (tabPut s.quarantine job s.tmb.free)

def fabJobReleaseBody (q : Req) (s : State) : State × Reply :=
  let job := pl q 0 4 % 16777216
  if 64 ≤ q.target then failed .partitionState s
  else if !(partOf s q.target).jobs.contains job then failed .badField s
  else (retireJob job s, reply .success)

def execFabJobRelease (m : Nat) (s : State) : Host.Outcome State Fault Refusal :=
  run (m < 80) "mailbox" (runCommand 0x0603 m fabJobReleaseBody s)

/-- The window in a FAB_WINDOW_SET payload (R406). -/
def windowOf (q : Req) : FabWindow :=
  let f := pl q 3 1
  { job := pl q 0 3, rd := bit f 0, wr := bit f 1, atom := bit f 2, comb := bit f 3, kind := bits f 5 4, ctx := pl q 4 2,
    part := q.target, base := pl q 8 6, length := pl q 14 6, lregion := pl q 20 1, region := pl q 21 1,
    offset := pl q 24 8 }

/-- Whether the region fields of a window hold (R407, R437). -/
def windowFieldsOk (s : State) (w : FabWindow) : Bool :=
  w.base % 4096 = 0 && w.length % 4096 = 0 && w.offset % 4096 = 0 && w.kind ≤ 1
    && (if w.kind = 1 then w.lregion = 0 && w.region = 3 && (w.offset + w.length) / 32 ≤ 65536
        else w.region ≤ 2 && w.lregion < ((ctxOf s w.ctx).places.getD (ctxOf s w.ctx).place {}).shape.regions
          && w.offset + w.length ≤ regionSize (ctxOf s w.ctx) w.lregion w.region
          && !(w.region = 0 && (w.wr || w.atom)))
    && !s.fab.windows.any (fun v => v.2.job = w.job && meets v.2.base v.2.length w.base w.length)

def fabWindowSetBody (q : Req) (s : State) : State × Reply :=
  let w := windowOf q
  if 64 ≤ q.target then failed .contextState s
  else if w.length = 0 || !(w.rd || w.wr || w.atom) then failed .zeroNotAllowed s
  else if !(partOf s q.target).jobs.contains w.job || 255 < w.ctx || (ctxOf s w.ctx).state = .absent
      || (ctxOf s w.ctx).part ≠ q.target then failed .notPermitted s
  else if !windowFieldsOk s w then failed .badField s
  else if 16 ≤ (s.fab.windows.filter (fun v => v.2.job = w.job)).length then failed .noResource s
  else match pickFree 4096 (tabHas s.fab.windows) s with
    | (none, _) => failed .noResource s
    | (some n, s) => (updFab (fun b => { b with windows := tabPut b.windows n w }) s, { payload := leBytes 2 n })

def execFabWindowSet (m : Nat) (s : State) : Host.Outcome State Fault Refusal :=
  run (m < 80) "mailbox" (runCommand 0x0604 m fabWindowSetBody s)

def fabWindowClearBody (q : Req) (s : State) : State × Reply :=
  if 64 ≤ q.target then failed .partitionState s else
  match tabFind? s.fab.windows (pl q 0 2) with
  | none => failed .badField s
  | some w =>
    if w.part ≠ q.target then failed .badField s
    else (updFab (fun b => { b with windows := tabDel b.windows (pl q 0 2) }) s, reply .success)

def execFabWindowClear (m : Nat) (s : State) : Host.Outcome State Fault Refusal :=
  run (m < 80) "mailbox" (runCommand 0x0605 m fabWindowClearBody s)

/-- The FAB_STATUS record (R424). -/
def fabRecord (s : State) (n : Nat) : List Byte :=
  let p := portOf s n
  let c := s.fab.ctr
  leBytes 8 (b2n p.link + 2 * b2n p.enabled + 65536 * s.fab.device) ++ leBytes 8 s.fab.start
    ++ [p.flitsTx, p.flitsRx, p.resends, c.retries, c.timeouts, c.duplicates, c.outcomeUnknown, c.windowFaults, c.retired,
        c.busy, c.stale, c.misrouted].flatMap (fun c => leBytes 8 (ctrWord c))
    ++ leBytes 8 s.fab.entries.length

def fabStatusBody (q : Req) (s : State) : State × Reply :=
  let n := pl q 0 1
  if gradePorts s.grade ≤ n || 1 < pl q 1 1 then failed .badField s
  else
    let clear := fun s => updFabCtr (fun _ => {}) (updPort n (fun p => { link := p.link, enabled := p.enabled }) s)
    (if pl q 1 1 = 1 then clear s else s, { payload := fabRecord s n })

def execFabStatus (m : Nat) (s : State) : Host.Outcome State Fault Refusal :=
  run (m < 80) "mailbox" (runCommand 0x0606 m fabStatusBody s)

/-- A port's link fails or recovers (R396, R425, R467). -/
def fabPort (n : Nat) (up : Bool) (s : State) : State :=
  let p := portOf s n
  if p.link = up || (up && !p.enabled) then s
  else
    let s := fabPortEvent n up (if up then 2 else 1) (updPort n (fun p => { p with link := up }) s)
    if up then s else healthAdd 20 s

def execFabPort (port : Nat) (up : Bool) (s : State) : Host.Outcome State Fault Refusal :=
  runOn (port < gradePorts s.grade) "port" port (run true "" (fabPort port up s))

/-! ### Requests issued (R397 to R402, R410) -/

/-- A fabric descriptor of a mover program, or a request of the firmware. Where returned data would land outside the
owner's share, the share check of R99 stops the mover. -/
def requestIssue (d : FabDesc) (s : State) : State :=
  match d.ctx with
  | none => issueReq .firmware d s
  | some c =>
    match lentOf s c d.micro with
    | none => s
    | some r =>
      if !r.units.contains d.mover || !working s d.mover then s
      else
        let n := d.req.length
        let lands := n ≠ 0 && (d.op = .load || d.op = .get || returnsOld d.op)
        if lands && !placeOk s c true d.retPlace d.retAddr n then shareFault d.mover d.retAddr s
        else issueReq (.micro c d.micro d.mover) d (issued d.mover s)

def execFabricRequestIssue (d : FabDesc) (s : State) : Host.Outcome State Fault Refusal :=
  run (descLenOk d && (d.ctx.isNone || isMover d.mover) && d.req.dst < 65536 && d.req.job < 16777216) "descriptor"
    (requestIssue d s)

/-- A waiting issue whose tag has come free goes on (R410); context 256 stands for the firmware. -/
def issueResume (c : Nat) (s : State) : State :=
  let mine := fun (d : FabOrigin × FabDesc) => d.2.ctx = (if c = 256 then none else some c) && !tagWaits s d.2.req.dst
  match s.fab.issueWait.find? mine with
  | none => s
  | some (o, d) => sendDesc o d (updFab (fun b => { b with issueWait := b.issueWait.erase (o, d) }) s)

def execFabricIssueResume (ctx : Nat) (s : State) : Host.Outcome State Fault Refusal :=
  run (ctx ≤ 256) "context" (issueResume ctx s)

/-! ### Requests served (R409) -/

/-- Whether a request's fields can be carried: length and alignment of its operation, data where it brings some. -/
def reqOk (op : FabOp) (r : FabReq) : Bool :=
  fabLenOk op r.length && fabAligned op r.addr r.length && r.attempt ≤ 8 && r.tag < 4294967296 && r.src < 65536
    && (match op with
      | .store => r.data.length = r.length | .put => r.data.length = r.length | .reduceAdd => r.data.length = r.length
      | _ => r.data.isEmpty)

def execLoad (r : FabReq) (s : State) : Host.Outcome State Fault Refusal := run (reqOk .load r) "request" (receiveReq .load r s)
def execStore (r : FabReq) (s : State) : Host.Outcome State Fault Refusal := run (reqOk .store r) "request" (receiveReq .store r s)
def execGet (r : FabReq) (s : State) : Host.Outcome State Fault Refusal := run (reqOk .get r) "request" (receiveReq .get r s)
def execPut (r : FabReq) (s : State) : Host.Outcome State Fault Refusal := run (reqOk .put r) "request" (receiveReq .put r s)
def execReduceAdd (r : FabReq) (s : State) : Host.Outcome State Fault Refusal :=
  run (reqOk .reduceAdd r) "request" (receiveReq .reduceAdd r s)
def execAtomicAdd (r : FabReq) (s : State) : Host.Outcome State Fault Refusal := run (reqOk .add r) "request" (receiveReq .add r s)
def execAtomicAnd (r : FabReq) (s : State) : Host.Outcome State Fault Refusal := run (reqOk .and r) "request" (receiveReq .and r s)
def execAtomicOr (r : FabReq) (s : State) : Host.Outcome State Fault Refusal := run (reqOk .or r) "request" (receiveReq .or r s)
def execAtomicXor (r : FabReq) (s : State) : Host.Outcome State Fault Refusal := run (reqOk .xor r) "request" (receiveReq .xor r s)
def execAddR (r : FabReq) (s : State) : Host.Outcome State Fault Refusal := run (reqOk .addR r) "request" (receiveReq .addR r s)
def execAndR (r : FabReq) (s : State) : Host.Outcome State Fault Refusal := run (reqOk .andR r) "request" (receiveReq .andR r s)
def execOrR (r : FabReq) (s : State) : Host.Outcome State Fault Refusal := run (reqOk .orR r) "request" (receiveReq .orR r s)
def execXorR (r : FabReq) (s : State) : Host.Outcome State Fault Refusal := run (reqOk .xorR r) "request" (receiveReq .xorR r s)
def execXchg (r : FabReq) (s : State) : Host.Outcome State Fault Refusal := run (reqOk .xchg r) "request" (receiveReq .xchg r s)
def execCas (r : FabReq) (s : State) : Host.Outcome State Fault Refusal := run (reqOk .cas r) "request" (receiveReq .cas r s)
def execFadd (r : FabReq) (b16 : Bool) (s : State) : Host.Outcome State Fault Refusal :=
  let op := if b16 then FabOp.faddB16 else .faddF32
  run (reqOk op r) "request" (receiveReq op r s)
def execFaddR (r : FabReq) (b16 : Bool) (s : State) : Host.Outcome State Fault Refusal :=
  let op := if b16 then FabOp.faddRB16 else .faddRF32
  run (reqOk op r) "request" (receiveReq op r s)

/-! ### Replies and timeouts (R411) -/

/-- The destination whose tag a reply answers: its source; else, from the gateway, one of another domain, and with combined
set one whose request could be combined, by the tag alone (R417, R418; assumption 167). -/
def answeredDst (r : FabReply) (s : State) : Nat :=
  if (tagOf s r.src r.tag).isSome then r.src else
  ((s.fab.tags.find? (fun t => t.1 % 4294967296 = r.tag && t.2.state = .issued
      && ((r.combined && t.2.req.combined) || (r.src = s.fab.gateway && otherDomain s (t.1 / 4294967296))))).map
    (fun t => t.1 / 4294967296)).getD r.src

/-- A reply: accepted while its tag is ISSUED; with BUSY the request is retransmitted at its timeout. -/
def fabricReply (r : FabReply) (s : State) : State :=
  let s := countRx (flitsOf r.data) s
  if r.dst ≠ s.fab.device then s else
  let dst := answeredDst r s
  match tagOf s dst r.tag, statusOf r.status with
  | some t, some st => if t.state ≠ .issued || st = .busy then s else resolveTag dst r.tag st r.result r.data s
  | _, _ => s

def execFabricReply (r : FabReply) (s : State) : Host.Outcome State Fault Refusal :=
  run ((statusOf r.status).isSome && r.tag < 4294967296) "reply" (fabricReply r s)

/-- Whether the partition of a request is in its reset sequence, which sends no retries (R380 step 4). -/
def originResets (s : State) (o : FabOrigin) : Bool :=
  match originPart s o with
  | some p => (partOf s p).state = .resetting || (partOf s p).state = .removing
  | none => false

/-- A request is given up with FABRIC_TIMEOUT: its tag is ABANDONED (R411). -/
def abandonTag (dst tag : Nat) (s : State) : State :=
  match tagOf s dst tag with
  | none => s
  | some t =>
    let s := updTag dst tag (fun t => { t with state := .abandoned, status := .fabricTimeout }) s
    tagEnded t .fabricTimeout [] (updFabCtr (fun c => { c with timeouts := ctrInc c.timeouts }) s)

/-- The reply timeout passes: retransmission with attempt + 1, after attempt 8 FABRIC_TIMEOUT. -/
def replyTimeout (dst tag : Nat) (s : State) : State :=
  match tagOf s dst tag with
  | none => s
  | some t =>
    if t.state ≠ .issued || s.tmb.free < t.lastTx + replyWait s dst || originResets s t.origin then s
    else if t.attempt < 8 then
      transmit dst tag (updFabCtr (fun c => { c with retries := ctrInc c.retries })
        (updTag dst tag (fun t => { t with attempt := t.attempt + 1 }) s))
    else abandonTag dst tag s

def execReplyTimeout (dst tag : Nat) (s : State) : Host.Outcome State Fault Refusal :=
  run (dst < 65536 && tag < 4294967296) "tag" (replyTimeout dst tag s)

/-- The hold of an abandoned tag ends. -/
def lifetimeExpiry (dst tag : Nat) (s : State) : State :=
  match tagOf s dst tag with
  | none => s
  | some t =>
    if t.state ≠ .abandoned || corrNow s ≤ t.req.firstStamp + s.fab.lifetime then s
    else pruneTags (updTag dst tag (fun t => { t with state := .resolved }) s)

def execLifetimeExpiry (dst tag : Nat) (s : State) : Host.Outcome State Fault Refusal :=
  run (dst < 65536 && tag < 4294967296) "tag" (lifetimeExpiry dst tag s)

/-- 16 ms in Tc (R412, R413). -/
def ledgerHold : Nat := 31457280

/-- A source record that has received nothing for 16 ms is freed. -/
def sourceExpiry (src : Nat) (s : State) : State :=
  match srcOf s src with
  | none => s
  | some r => if s.tmb.free < r.heard + ledgerHold then s else updFab (fun b => { b with sources := tabDel b.sources src }) s

def execSourceRecordExpiry (src : Nat) (s : State) : Host.Outcome State Fault Refusal :=
  run (src < 65536) "source" (sourceExpiry src s)

/-- An atomic entry leaves 16 ms after it was made. -/
def entryExpiry (src tag : Nat) (s : State) : State :=
  match entryOf s src tag with
  | none => s
  | some e =>
    if s.tmb.free < e.made + ledgerHold then s
    else updFab (fun b => { b with entries := tabDel b.entries (tagKey src tag) }) s

def execLedgerEntryExpiry (src tag : Nat) (s : State) : Host.Outcome State Fault Refusal :=
  run (src < 65536 && tag < 4294967296) "entry" (entryExpiry src tag s)

/-! ### Fences (R416) -/

/-- The tags a fence covers, in issue order: writes and accumulating requests of the context in scope. -/
def fenceTags (s : State) (c : Nat) (scope : Option Nat) : List Nat :=
  let mine := fun (p : Nat × TagRec) => (match p.2.origin with
    | .micro c' _ _ => c' = c
    | _ => false) && !(p.2.op = .load || p.2.op = .get) && (scope.isNone || scope = some (p.1 / 4294967296))
  (sortBy (fun (a b : Nat × TagRec) => a.2.order < b.2.order) (s.fab.tags.filter mine)).map (fun p => p.1)

/-- Whether a covered tag is over: resolved, or abandoned. -/
def tagOver (s : State) (k : Nat) : Bool := ((tabFind? s.fab.tags k).map (fun t => decide (t.state ≠ .issued))).getD true

/-- The status a fence completes with: the first issued of its tags that did not end with SUCCESS decides. -/
def fenceEnd (c m u : Nat) (tags : List Nat) (s : State) : State :=
  match tags.findSome? (fun k => (tabFind? s.fab.tags k).filter (fun t => t.status ≠ .success)) with
  | none => s
  | some t => descFailed c m u t.status t.req s

/-- FFENCE: complete at issue with nothing outstanding, else it waits. -/
def ffence (c m u : Nat) (scope : Option Nat) (s : State) : State :=
  match lentOf s c m with
  | none => s
  | some r =>
    if !r.units.contains u || !working s u then s
    else
      let tags := fenceTags s c scope
      let s := issued u s
      if tags.all (tagOver s) then fenceEnd c m u tags s
      else updFab (fun b => { b with fences := b.fences ++ [{ ctx := c, micro := m, mover := u, tags := tags }] }) s

def execFfence (ctx micro mover : Nat) (scope : Option Nat) (s : State) : Host.Outcome State Fault Refusal :=
  run (ctx < 256 && isMover mover) "fence" (ffence ctx micro mover scope s)

/-- A waiting fence whose tags are all over completes. -/
def ffenceComplete (c : Nat) (s : State) : State :=
  match s.fab.fences.find? (fun f => f.ctx = c && f.tags.all (tagOver s)) with
  | none => s
  | some f =>
    fenceEnd c f.micro f.mover f.tags (updFab (fun b => { b with fences := b.fences.filter (fun g =>
      !(g.ctx = f.ctx && g.micro = f.micro && g.mover = f.mover && g.tags == f.tags)) }) s)

def execFfenceComplete (ctx : Nat) (s : State) : Host.Outcome State Fault Refusal :=
  run (ctx < 256) "context" (ffenceComplete ctx s)

end Sys2Proof.Machine
end

