-- ==== Sys2Proof/Machine/Library.lean ====
section
/-!
DEFINITION. The firmware numeric library and the table set: functions whose last places the spec leaves open within a stated
error (R141, R178, assumption 30), and the knots of the normal table, which it states (R179). Exact values are computed in
fixed point with 320 fraction bits.
-/
namespace Sys2Proof.Machine

/-- Fraction bits of the fixed-point numbers of this file. -/
def fx : Nat := 320
/-- One in fixed point. -/
def fxOne : Nat := 2 ^ fx

/-! ### Elementary functions in fixed point -/

/-- The sum of z + z^3/3 + z^5/5 ... over n terms, with alternating signs for the arc tangent. -/
def arcSum (alt : Bool) (z n : Nat) : Int :=
  let sq := z * z / fxOne
  ((List.range n).foldl (fun (p : Nat × Int) k =>
    let t := ((p.1 / (2 * k + 1) : Nat) : Int)
    (p.1 * sq / fxOne, if alt && k % 2 = 1 then p.2 - t else p.2 + t)) (z, 0)).2

/-- The natural logarithm of 2, and the circle's half circumference. -/
def fxLn2 : Int := 2 * arcSum false (fxOne / 3) 110
def fxPi : Int := 16 * arcSum true (fxOne / 5) 80 - 4 * arcSum true (fxOne / 239) 30

/-- ln(mant * 2^exp), mant positive. -/
def fxLn (mant : Nat) (exp : Int) : Int :=
  let k := Nat.log2 mant
  let x := mant * 2 ^ fx / 2 ^ k
  (exp + k) * fxLn2 + 2 * arcSum false ((x - fxOne) * fxOne / (x + fxOne)) 110

/-- e^x for x in fixed point: a fixed-point number in [1, 2) and the power of two it is multiplied by. -/
def fxExp (x : Int) : Nat × Int :=
  let n := x / fxLn2
  let r := (x - n * fxLn2).toNat
  (((List.range 90).foldl (fun (p : Nat × Nat) k => (p.1 * r / fxOne / (k + 1), p.2 + p.1)) (fxOne, 0)).2, n)

/-- cos x for x in fixed point. -/
def fxCos (x : Nat) : Int :=
  let sq := x * x / fxOne
  ((List.range 110).foldl (fun (p : Nat × Int) k =>
    (p.1 * sq / fxOne / ((2 * k + 1) * (2 * k + 2)), if k % 2 = 1 then p.2 - (p.1 : Int) else p.2 + (p.1 : Int))) (fxOne, 0)).2

/-- The integer square root, of a number below 2^700. -/
def rootNat (n : Nat) : Nat :=
  (List.range 350).foldl (fun r i =>
    let c := r + 2 ^ (349 - i)
    if c * c ≤ n then c else r) 0

/-! ### A result within a stated error -/

/-- The value of a code of a format by its ordered index: magnitude code with the sign of the index, infinity not limited. -/
def indexVal (g : FloatFmt) (i : Int) : Val :=
  let c := i.natAbs
  let e := c / 2 ^ g.mbits
  let m := c % 2 ^ g.mbits
  if e = 0 then .fin (i < 0) m (1 - (g.bias : Int) - g.mbits)
  else .fin (i < 0) (2 ^ g.mbits + m) ((e : Int) - g.bias - g.mbits)

/-- The codes, as ordered indices, that lie within `ulps` units in the last place of an exact finite value. -/
def indicesWithin (g : FloatFmt) (ulps : Nat) (neg : Bool) (mant : Nat) (exp : Int) : List Int :=
  let k := magCode g (.sr 0) mant exp
  let i : Int := if neg then -(k : Int) else k
  let least := 1 - (g.bias : Int) - g.mbits
  let q := if mant = 0 then least else max (exp + Nat.log2 mant - g.mbits) least
  ((List.range (4 * ulps + 1)).map (fun (d : Nat) => i + (d : Int) - 2 * ulps)).filter (fun c =>
    match (valSum [indexVal g c, .fin (!neg) mant exp]).1 with
    | .fin _ m e => !valLt (.fin false ulps q) (.fin false m e)
    | _ => false)

/-- The code of an ordered index, limited as a finite result is (R128). -/
def indexCode (o : ArithOpt) (f : Fmt) (g : FloatFmt) (i : Int) : Nat × ArithFlags :=
  let sign := if i < 0 then 2 ^ (g.width - 1) else 0
  if i.natAbs ≤ g.top then (sign + i.natAbs, {})
  else (sign + (if overflowInf o f then g.inf.getD g.top else g.top), flagOverflow)

/-- A result within `ulps` units in the last place of an exact value: which of the codes it is, `pick` says. -/
def libRound (o : ArithOpt) (f : Fmt) (ulps pick : Nat) (v : Val) : Nat × ArithFlags :=
  match floatFmt f, v with
  | some g, .fin neg mant exp =>
    let l := indicesWithin g ulps neg mant exp
    indexCode o f g (l.getD (pick % max 1 l.length) 0)
  | _, _ => encodeVal o f .rne v

/-! ### The library functions (R141) -/

/-- The format and the function as numbers for the library's choice. -/
def fmtIndex : Fmt → Nat
  | .f32 => 0 | .b16 => 1 | .h16 => 2 | _ => 3
def libIndex : LibFn → Nat
  | .exp => 0 | .log => 1 | .rcp => 2 | .rsqrt => 3 | .tanh => 4 | .sigm => 5

/-- The special values of the library functions, by IEEE 754 (R141), and the logarithm of 1, an exact zero (R120); none where the
library gives the bits. VTANH of -0 and VRCP of -infinity are -0, as IEEE 754 has them (assumption 151). -/
def libSpecial (g : LibFn) (v : Val) : Option (Val × ArithFlags) :=
  let one : Val := .fin false 1 0
  let zero : Val := .fin false 0 0
  match g, v with
  | _, .nan => some (.nan, {})
  | .exp, .inf neg => some (if neg then zero else .inf false, {})
  | .exp, .fin _ 0 _ => some (one, {})
  | .log, .inf neg => some (if neg then (.nan, flagInvalid) else (.inf false, {}))
  | .log, .fin _ 0 _ => some (.inf true, {})
  | .log, .fin true _ _ => some (.nan, flagInvalid)
  | .log, .fin false m e => if m = 2 ^ (-e).toNat && e ≤ 0 then some (zero, {}) else none
  | .rcp, .inf neg => some (.fin neg 0 0, {})
  | .rcp, .fin neg 0 _ => some (.inf neg, {})
  | .rsqrt, .inf neg => some (if neg then (.nan, flagInvalid) else (zero, {}))
  | .rsqrt, .fin neg 0 _ => some (.inf neg, {})
  | .rsqrt, .fin true _ _ => some (.nan, flagInvalid)
  | .tanh, .inf neg => some (.fin neg 1 0, {})
  | .tanh, .fin neg 0 _ => some (.fin neg 0 0, {})
  | .sigm, .inf neg => some (if neg then zero else one, {})
  | _, _ => none

/-- |mant * 2^exp| in fixed point, at most 4 096: beyond it every function here has left its format or settled. -/
def fxMag (mant : Nat) (exp : Int) : Nat :=
  if exp + Nat.log2 mant ≥ 12 then 4096 * fxOne
  else if 0 ≤ exp + fx then mant * 2 ^ (exp + fx).toNat else mant / 2 ^ (-(exp + fx)).toNat

/-- A fixed-point number times 2^n, n not positive. -/
def fxDown (p : Nat × Int) : Nat := p.1 / 2 ^ (-p.2).toNat

/-- The exact value of a library function at a finite value that is not special. -/
def libExact (g : LibFn) (neg : Bool) (mant : Nat) (exp : Int) : Val :=
  let x := fxMag mant exp
  match g with
  | .exp =>
    let (m, n) := fxExp (if neg then -(x : Int) else x)
    .fin false m (n - fx)
  | .log => valInt (fxLn mant exp) (-(fx : Int))
  | .rcp => .fin neg (2 ^ (fx + Nat.log2 mant) / mant) (-exp - fx - Nat.log2 mant)
  | .rsqrt =>
    let (m, e) := if exp % 2 = 0 then (mant, exp) else (2 * mant, exp - 1)
    .fin false (rootNat (2 ^ (2 * fx) / m)) (-e / 2 - fx)
  | .tanh =>
    let t := fxDown (fxExp (-2 * (x : Int)))
    .fin neg ((fxOne - t) * fxOne / (fxOne + t)) (-(fx : Int))
  | .sigm =>
    let (m, n) := fxExp (-(x : Int))
    let t := fxDown (m, n)
    if neg then .fin false (m * fxOne / (fxOne + t)) (n - fx) else .fin false (fxOne * fxOne / (fxOne + t)) (-(fx : Int))

/-- A library function: at most 2 units in the last place in F32 and 1 in B16 and H16 from the exact value (R141). -/
def fpLib (o : ArithOpt) (g : LibFn) (f : Fmt) (a : Nat) : Nat × ArithFlags :=
  match libSpecial g (decodeVal f a), decodeVal f a with
  | some r, _ => fpRound o f r
  | none, .fin neg mant exp =>
    libRound o f (if f = .f32 then 2 else 1) (Config.libm (libIndex g) (fmtIndex f) a) (libExact g neg mant exp)
  | none, v => encodeVal o f .rne v

/-! ### Normal variates and Gumbel noise (R178 to R180) -/

/-- sqrt(-2 ln u) cos(2 pi u2) for u = (2m + 1) 2^-24 and u2 = (2n + 1) 2^-24. -/
def boxMullerExact (m n : Nat) : Val :=
  let s := rootNat ((-2 * fxLn (2 * m + 1) (-24)).toNat * fxOne)
  valInt ((s : Int) * fxCos ((2 * fxPi).toNat * (2 * n + 1) / 2 ^ 24)) (-(2 * fx : Nat))

/-- The Box-Muller variate: at most 4 units in the last place from the formula's value (R178). -/
def boxMuller (m n : Nat) : Nat := (libRound {} .f32 4 (Config.boxMuller m n) (boxMullerExact m n)).1

/-- sqrt(2 pi) (Phi(x) - 1/2) at x = mant * 2^exp of at most 6, in fixed point. -/
def phiSum (mant : Nat) (exp : Int) : Int :=
  let x := fxMag mant exp
  let sq := x * x / fxOne
  ((List.range 190).foldl (fun (p : Nat × Int) k =>
    let t := ((p.1 / (2 * k + 1) : Nat) : Int)
    (p.1 * sq / fxOne / (2 * (k + 1)), if k % 2 = 1 then p.2 - t else p.2 + t)) (x, 0)).2

/-- Phi^-1(1/2 + p) rounded to F32 (R129), for p in fixed point below 1/2 - 2^-25: the greatest code not above it, or the next
where the midpoint is below it. -/
def phiInv (p : Nat) : Nat :=
  let goal : Int := ((p * rootNat ((2 * fxPi).toNat * fxOne) / fxOne : Nat) : Int)
  let at_ := fun (c : Nat) => match decodeVal .f32 c with | .fin _ m e => (m, e) | _ => (0, 0)
  let c := (List.range 31).foldl (fun c i =>
    let d := c + 2 ^ (30 - i)
    if d ≤ 0x40C00000 && phiSum (at_ d).1 (at_ d).2 ≤ goal then d else c) 0
  let (m, e) := at_ c
  if phiSum (2 * m + 1) (e - 1) < goal then c + 1 else c

/-- The knots t_0 to t_4096 of the normal table (R179), as F32 codes. -/
def normKnot (j : Nat) : Nat :=
  if j < 4096 then phiInv (j * fxOne / 2 ^ 13) else phiInv (fxOne / 2 - fxOne / 2 ^ 24)

/-- The table method on a word (R179). -/
def normalTab (w : Nat) : Nat :=
  let f := w / 256 % 2 ^ 23
  let t := normKnot (f / 2048)
  let u := normKnot (f / 2048 + 1)
  let frac := (encodeVal {} .f32 .rne (.fin false (f % 2048) (-11))).1
  let m := (fpFma {} .f32 (fpSub {} .f32 u t).1 frac t).1
  m % 2147483648 + (if bit w 31 then 2147483648 else 0)

/-- Gumbel noise -ln(-ln u) of a uniform variate's F32 code (R180), by the library's logarithm (R141; assumption 30). -/
def gumbel (u : Nat) : Nat :=
  let neg := fun (c : Nat) => Nat.xor c 2147483648
  neg (fpLib {} .log .f32 (neg (fpLib {} .log .f32 u).1)).1

end Sys2Proof.Machine
end

