-- ==== Sys2Proof/Machine/Tile.lean ====
section
/-!
DEFINITION. The meanings of the commands of chapter 05: the instructions of the signal tiles, and the conversions and
reductions that quadrants share with them.
-/
namespace Sys2Proof.Machine

/-! ### Issue (R143, R145) -/

/-- An instruction of a slice: it issues, has its effect, and the slice moves on. -/
def onSlice (t sl : Nat) (eff : State → State) (s : State) : State :=
  if !canIssue s t sl then s else pastIssue t sl (eff (markIssue t sl s))

/-- Whether a slot of length 0 suppresses a slice's results; address registers still advance (R110, assumption 28). -/
def hushed (s : State) (t sl : Nat) : Bool := (sliceOf (tileOf s t) sl).side.hush

/-- The outcome of a tile instruction: the tile must exist and the operands be well formed. -/
def tileRun (t sl : Nat) (ok : Bool) (eff : State → State) (s : State) : Host.Outcome State Fault Refusal :=
  runOn (t < gradeTiles s.grade) "tile" t (run (sl < 8 && ok) "tile instruction" (onSlice t sl eff s))

/-- An effect on registers alone, with its flags (R138). -/
def regEff (t sl : Nat) (f : Tile → Tile × ArithFlags) (s : State) : State :=
  if hushed s t sl then s else
  let (x, fl) := f (tileOf s t)
  setFlags (unitRun s (tileUnit t)).owner fl (updTile t (fun _ => x) s)

/-! ### Loads and stores (R149, R150) -/

/-- Bytes a vector access moves. -/
def vecBytes (x : Tile) : Nat := 2 * laneCount x

/-- The lanes of bytes. -/
def bytesLanes (bs : List Byte) : List Nat := (List.range (bs.length / 2)).map (fun i => field bs (2 * i) 2)

/-- C8 elements, one a lane, widened to C16 in lane pairs: each part shifted left 8 bits (R142). -/
def widenC8 (l : List Nat) : List Nat := l.flatMap (fun c => [c % 256 * 256, c / 256 % 256 * 256])

/-- A load of `n` vector registers through an address register; of C8 elements it reads half the bytes and widens them
(R142, R150, assumption 29). -/
def loadVec (t sl vd a n : Nat) (c8 : Bool) (s : State) : State :=
  let x := tileOf s t
  let addr := areaAddr (addrReg x sl a) / 64 * 64
  let len := if c8 then n * vecBytes x / 2 else n * vecBytes x
  let p := Place.tile t
  if !placeOk s (unitRun s (tileUnit t)).owner false p addr len then shareFault (tileUnit t) addr s
  else if meetsBad s (tileAt t addr) len then badRead (tileUnit t) addr s
  else
    let raw := bytesLanes (memReadBytes s.mem (tileAt t addr) len)
    let l := if c8 then widenC8 raw else raw
    let x := if hushed s t sl then x else (List.range n).foldl (fun x i => writeLanes sl (vd + i) (l.drop (i * laneCount x)) x) x
    updTile t (fun _ => bumpAddr sl a x) s

/-- A store of a vector register. -/
def storeVec (t sl vs a : Nat) (s : State) : State :=
  let x := tileOf s t
  let addr := areaAddr (addrReg x sl a) / 64 * 64
  if !placeOk s (unitRun s (tileUnit t)).owner true (.tile t) addr (vecBytes x) then shareFault (tileUnit t) addr s
  else updTile t (bumpAddr sl a)
    (if hushed s t sl then s else storeBytes (tileAt t addr) ((readLanes x sl vs).flatMap (leBytes 2)) s)

/-- The byte addresses of a gather or scatter: one 16-bit address a lane, in 2-byte units from the base (R150). -/
def laneAddrs (x : Tile) (sl va a : Nat) : List Nat :=
  (readLanes x sl va).map (fun i => areaAddr (addrReg x sl a) + 2 * i)

/-- VGATH: a lane outside the share stops the program. -/
def gather_ (t sl vd va a : Nat) (s : State) : State :=
  let x := tileOf s t
  let as_ := laneAddrs x sl va a
  let owner := (unitRun s (tileUnit t)).owner
  match as_.find? (fun p => !placeOk s owner false (.tile t) p 2) with
  | some p => shareFault (tileUnit t) p s
  | none =>
    match as_.find? (fun p => meetsBad s (tileAt t p) 2) with
    | some p => badRead (tileUnit t) p s
    | none =>
      let l := as_.map (fun p => leNat (memReadBytes s.mem (tileAt t p) 2))
      updTile t (fun _ => bumpAddr sl a (if hushed s t sl then x else writeLanes sl vd l x)) s

/-- VSCAT: lanes write in ascending order, so the higher-numbered stands; a lane outside the share writes nothing and its
fault follows (R150). -/
def scatter_ (t sl vs va a : Nat) (s : State) : State :=
  let x := tileOf s t
  let owner := (unitRun s (tileUnit t)).owner
  let l := (laneAddrs x sl va a).zip (readLanes x sl vs)
  let ok := fun (p : Nat × Nat) => placeOk s owner true (.tile t) p.1 2
  let s' := if hushed s t sl then s else (l.filter ok).foldl (fun s p => storeBytes (tileAt t p.1) (leBytes 2 p.2) s) s
  let s' := updTile t (bumpAddr sl a) s'
  match l.find? (fun p => !ok p) with
  | some p => shareFault (tileUnit t) p.1 s'
  | none => s'

/-! ### Fixed point (R132 to R134, R153 to R155) -/

/-- A lane-wise operation on two registers' signed lanes. -/
def zipQ (x : Tile) (sl va vb : Nat) (f : Int → Int → Int × ArithFlags) : List (Int × ArithFlags) :=
  ((readQ x sl va).zip (readQ x sl vb)).map (fun p => f p.1 p.2)

/-- A result within 16 bits; outside, the spec states none (assumption 15). -/
def withinQ (op : Nat) (v : Int) : Int × ArithFlags :=
  if -32768 ≤ v && v ≤ 32767 then (v, {})
  else
    let c := Config.outOfRange op v
    (signedOf 16 c, { storeSat := bit c 32 })

/-- Adds lane-wise into the accumulators (R133). -/
def accInto (sl : Nat) (add : List Int) (x : Tile) : Tile × ArithFlags :=
  let r := ((readAcc x sl).zip add).map (fun p => accAdd p.1 p.2)
  (writeAcc sl (r.map (fun p => p.1)) x, orAll (r.map (fun p => p.2)))

/-- Signed lanes as complex elements, and back. -/
def pairsQ : List Int → List (Int × Int)
  | a :: b :: r => (a, b) :: pairsQ r
  | _ => []
def unpairsQ (l : List (Int × Int)) : List Int := l.flatMap (fun p => [p.1, p.2])

/-- The exact complex product of two C16 operands. -/
def cprod (p q : Int × Int) : Int × Int := (p.1 * q.1 - p.2 * q.2, p.1 * q.2 + p.2 * q.1)
def cconj (p : Int × Int) : Int × Int := (p.1, -p.2)

/-- Lane-wise complex products of two registers. -/
def cprods (x : Tile) (sl va vb : Nat) (conj : Bool) : List Int :=
  unpairsQ (((pairsQ (readQ x sl va)).zip (pairsQ (readQ x sl vb))).map
    (fun p => cprod p.1 (if conj then cconj p.2 else p.2)))

def opMac (sl va vb : Nat) (x : Tile) : Tile × ArithFlags :=
  accInto sl ((zipQ x sl va vb (fun a b => (a * b, {}))).map (fun p => p.1)) x
/-- MUL narrows its product by a shift into a vector register and leaves the accumulators (assumption 152). -/
def opMul (sl vd va vb : Nat) (sh : ShiftSrc) (x : Tile) : Tile × ArithFlags :=
  let r := zipQ x sl va vb (fun a b => storeQ15 (a * b) (shiftOf x sl sh))
  (writeQ sl vd (r.map (fun p => p.1)) x, orAll (r.map (fun p => p.2)))
def opAdd (sl vd va vb : Nat) (x : Tile) : Tile × ArithFlags :=
  let r := zipQ x sl va vb (fun a b => withinQ 0 (a + b))
  (writeQ sl vd (r.map (fun p => p.1)) x, orAll (r.map (fun p => p.2)))
def opSub (sl vd va vb : Nat) (x : Tile) : Tile × ArithFlags :=
  let r := zipQ x sl va vb (fun a b => withinQ 1 (a - b))
  (writeQ sl vd (r.map (fun p => p.1)) x, orAll (r.map (fun p => p.2)))
def opShift (sl vd va : Nat) (sh : ShiftSrc) (x : Tile) : Tile × ArithFlags :=
  let r := (readQ x sl va).map (fun a => storeQ15 a (shiftOf x sl sh))
  (writeQ sl vd (r.map (fun p => p.1)) x, orAll (r.map (fun p => p.2)))

/-- A predicated select: a lane whose predicate is not 0 takes va, else vb (R105, assumption 16). -/
def opSelect (sl vd vp va vb : Nat) (x : Tile) : Tile × ArithFlags :=
  let l := ((readLanes x sl vp).zip ((readLanes x sl va).zip (readLanes x sl vb))).map
    (fun p => if p.1 = 0 then p.2.2 else p.2.1)
  (writeLanes sl vd l x, {})

def opCmac (sl va vb : Nat) (x : Tile) : Tile × ArithFlags := accInto sl (cprods x sl va vb false) x
def opCmacj (sl va vb : Nat) (x : Tile) : Tile × ArithFlags := accInto sl (cprods x sl va vb true) x
def opCmul (sl va vb : Nat) (x : Tile) : Tile × ArithFlags := (writeAcc sl (cprods x sl va vb false) x, {})

/-- ACCST to Q15 or C16, a part a lane, or to C8, an element a lane as its store holds it (R134, assumption 29). -/
def opAccst (sl : Nat) (f : Fmt) (vd : Nat) (sh : ShiftSrc) (x : Tile) : Tile × ArithFlags :=
  let k := shiftOf x sl sh
  let r := (readAcc x sl).map (fun a => if f = .c8 then storeC8 a k else storeQ15 a k)
  let l := r.map (fun p => p.1)
  let c8 := (pairsQ l).map (fun p => unsignedOf 8 p.1 + 256 * unsignedOf 8 p.2)
  (if f = .c8 then writeElems sl .c8 vd c8 x else writeQ sl vd l x, orAll (r.map (fun p => p.2)))

/-! ### Butterflies (R155) -/

def cadd (p q : Int × Int) : Int × Int := (p.1 + q.1, p.2 + q.2)
def csub (p q : Int × Int) : Int × Int := (p.1 - q.1, p.2 - q.2)
/-- Rotation by -j, the twiddle of a quarter turn. -/
def crot (p : Int × Int) : Int × Int := (p.2, -p.1)
/-- Multiplication by 23170 with rounding at 15 bits. -/
def rot8 (v : Int) : Int := shiftRound (v * 23170) 15

/-- The 4-point DFT of four values, exact. -/
def dft4 (a b c d : Int × Int) : List (Int × Int) :=
  let e := cadd a c
  let f := csub a c
  let g := cadd b d
  let h := crot (csub b d)
  [cadd e g, cadd f h, csub e g, csub f h]

/-- Multiplication by W_8^m, m from 0 to 3. -/
def twid8 (m : Nat) (p : Int × Int) : Int × Int :=
  if m = 0 then p
  else if m = 1 then (rot8 (p.1 + p.2), rot8 (p.2 - p.1))
  else if m = 2 then crot p
  else (rot8 (p.2 - p.1), rot8 (-p.1 - p.2))

/-- The r-point DFT by decimation in time. -/
def dft (l : List (Int × Int)) : List (Int × Int) :=
  let g := fun i => l.getD i (0, 0)
  if l.length = 2 then [cadd (g 0) (g 1), csub (g 0) (g 1)]
  else if l.length = 4 then dft4 (g 0) (g 1) (g 2) (g 3)
  else
    let e := dft4 (g 0) (g 2) (g 4) (g 6)
    let o := dft4 (g 1) (g 3) (g 5) (g 7)
    let t := (List.range 4).map (fun m => twid8 m (o.getD m (0, 0)))
    (List.range 4).map (fun m => cadd (e.getD m (0, 0)) (t.getD m (0, 0)))
      ++ (List.range 4).map (fun m => csub (e.getD m (0, 0)) (t.getD m (0, 0)))

/-- A butterfly on r registers from xr, twiddles from wr, stage scale k. -/
def opBfly (r sl xr wr k : Nat) (x : Tile) : Tile × ArithFlags :=
  let xs := (List.range r).map (fun i => pairsQ (readQ x sl (xr + i)))
  let ws := (List.range (r - 1)).map (fun i => pairsQ (readQ x sl (wr + i)))
  let lane := fun j => (List.range r).map (fun i =>
    let v := (xs.getD i []).getD j (0, 0)
    if i = 0 then v
    else
      let p := cprod ((ws.getD (i - 1) []).getD j (0, 0)) v
      (shiftRound p.1 15, shiftRound p.2 15))
  let ys := (List.range (laneCount x / 2)).map (fun j => dft (lane j))
  let out := fun m => ys.map (fun y => ((storeQ15 (y.getD m (0, 0)).1 k), (storeQ15 (y.getD m (0, 0)).2 k)))
  let x := (List.range r).foldl (fun x m => writeQ sl (xr + m) ((out m).flatMap (fun p => [p.1.1, p.2.1])) x) x
  (x, orAll ((List.range r).flatMap (fun m => (out m).flatMap (fun p => [p.1.2, p.2.2]))))

/-! ### Floating point and functions (R141) -/

/-- An element-wise operation on elements of a format. -/
def elemMap (sl : Nat) (f : Fmt) (vd : Nat) (l : List (Nat × ArithFlags)) (x : Tile) : Tile × ArithFlags :=
  (writeElems sl f vd (l.map (fun p => p.1)) x, orAll (l.map (fun p => p.2)))

def opFp2 (g : Nat → Nat → Nat × ArithFlags) (sl : Nat) (f : Fmt) (vd va vb : Nat) (x : Tile) : Tile × ArithFlags :=
  elemMap sl f vd (((readElems x sl f va).zip (readElems x sl f vb)).map (fun p => g p.1 p.2)) x

def opFma (o : ArithOpt) (sl : Nat) (f : Fmt) (vd va vb vc : Nat) (x : Tile) : Tile × ArithFlags :=
  elemMap sl f vd (((readElems x sl f va).zip ((readElems x sl f vb).zip (readElems x sl f vc))).map
    (fun p => fpFma o f p.1 p.2.1 p.2.2)) x

/-- The least or greatest of two codes: floating by R141, integer by value. -/
def minCode (f : Fmt) (a b : Nat) : Nat :=
  if (floatFmt f).isSome then fpMin f a b else if signedOf (fmtBits f) b < signedOf (fmtBits f) a then b else a
def maxCode (f : Fmt) (a b : Nat) : Nat :=
  if (floatFmt f).isSome then fpMax f a b else if signedOf (fmtBits f) a < signedOf (fmtBits f) b then b else a

def opLib (o : ArithOpt) (g : LibFn) (sl : Nat) (f : Fmt) (vd va : Nat) (x : Tile) : Tile × ArithFlags :=
  elemMap sl f vd ((readElems x sl f va).map (fpLib o g f)) x

/-! ### Conversions (R125, R127 to R131) -/

/-- One element converted; complex formats part by part (R128). -/
def cvtCode (o : ArithOpt) (src dst : Fmt) (by_ : RoundBy) (c : Nat) : Nat × ArithFlags :=
  if isComplex src then
    let w := fmtBits src / 2
    let v := fmtBits dst / 2
    let (a, f1) := encodeVal o dst by_ (decodeVal src (c % 2 ^ w))
    let (b, f2) := encodeVal o dst by_ (decodeVal src (c / 2 ^ w))
    (a % 2 ^ v + 2 ^ v * (b % 2 ^ v), orFlags f1 f2)
  else encodeVal o dst by_ (decodeVal src c)

/-- The seed and step an owner draws under (R169). -/
def drawKey (s : State) (owner : Nat) : Nat × Nat := ((ctxOf s owner).rng.seed, (ctxOf s owner).rng.step)

/-- Elements a slice converts between two formats. -/
def cvtCount (x : Tile) (a b : Fmt) : Nat := if wideFmt a || wideFmt b then laneCount x / 2 else laneCount x

/-- The logical position of a slice's first element (R172, R183). -/
def sliceElem (x : Tile) (sl n : Nat) : Nat := if x.fused then 0 else sl * n

def opCvt (o : ArithOpt) (key : Nat × Nat) (sl : Nat) (src dst : Fmt) (vd va : Nat) (r : Rounding) (x : Tile) :
    Tile × ArithFlags :=
  let n := cvtCount x src dst
  let l := (readElems x sl src va).take n
  let by_ := fun i => roundAt r key.1 key.2 (sliceElem x sl n + i)
  elemMap sl dst vd ((List.range l.length).map (fun i => cvtCode o src dst (by_ i) (l.getD i 0))) x

/-- Blocks of 32. -/
def blocksOf (l : List Nat) : List (List Nat) := (List.range ((l.length + 31) / 32)).map (fun b => (l.drop (32 * b)).take 32)

/-- MXQ over a list of F32 codes: scales, codes, flags. -/
def mxqList (o : ArithOpt) (f : Fmt) (word : Nat → RoundBy) (l : List Nat) : List Nat × List Nat × ArithFlags :=
  let bs := blocksOf l
  let r := (List.range bs.length).map (fun b => mxqBlock o f (bs.getD b []) (fun i => word (32 * b + i)))
  (r.map (fun p => p.1), r.flatMap (fun p => p.2.1), orAll (r.map (fun p => p.2.2)))

def opMxq (o : ArithOpt) (key : Nat × Nat) (sl : Nat) (dst : Fmt) (vd va sc : Nat) (r : Rounding) (x : Tile) :
    Tile × ArithFlags :=
  let l := readElems x sl .f32 va
  let (scales, codes, fl) := mxqList o dst (fun i => roundAt r key.1 key.2 (sliceElem x sl l.length + i)) l
  (writeLanes sl sc scales (writeElems sl dst vd codes x), fl)

/-- One element of MXD. -/
def mxdCode (o : ArithOpt) (src dst : Fmt) (scale c : Nat) : Nat × ArithFlags :=
  let (v, fl) := encodeVal o dst .rne (mxValue src scale c)
  (v, if scale = 0xFF then orFlags fl { scaleNan := true } else fl)

def opMxd (o : ArithOpt) (sl : Nat) (src dst : Fmt) (vd va sc : Nat) (x : Tile) : Tile × ArithFlags :=
  let l := (readElems x sl src va).take (cvtCount x src dst)
  let scales := readLanes x sl sc
  elemMap sl dst vd ((List.range l.length).map (fun i =>
    mxdCode o src dst (scales.getD (i / 32) 0 % 256) (l.getD i 0))) x

/-- The logical index of element p of a quadrant operation: base + i * row_stride + j (R172). -/
def quadIndex (q : QuadCvt) (p : Nat) : Nat := if q.cols = 0 then p else p / q.cols * q.rowStride + p % q.cols

/-- A conversion on a quadrant's array store: what it reads, writes and does. -/
def quadRun (q : QuadCvt) (reads writes : List (Nat × Nat)) (eff : State → State) (s : State) : State :=
  if !working s q.quad then s else
  let p := Place.array (q.quad / 4)
  access q.quad (reads.map (fun r => (p, false, r.1, r.2)) ++ writes.map (fun r => (p, true, r.1, r.2))) eff s

def quadCvt (q : QuadCvt) (s : State) : State :=
  quadRun q [(q.sAddr, packedBytes q.src q.count)] [(q.dAddr, packedBytes q.dst q.count)] (fun s =>
    let owner := (unitRun s q.quad).owner
    let key := drawKey s owner
    let (l, f0) := memElems s (arrayAt (q.quad / 4) q.sAddr) q.src q.count
    let r := (List.range l.length).map (fun i =>
      cvtCode s.grd.opt q.src q.dst (roundAt q.rnd key.1 key.2 (quadIndex q i)) (l.getD i 0))
    setFlags owner (orFlags f0 (orAll (r.map (fun p => p.2))))
      (storeBytes (arrayAt (q.quad / 4) q.dAddr) (pack q.dst (r.map (fun p => p.1))) s)) s

def quadMxq (q : QuadCvt) (s : State) : State :=
  quadRun q [(q.sAddr, 4 * q.count)] [(q.dAddr, packedBytes q.dst q.count), (q.scale, (q.count + 31) / 32)] (fun s =>
    let owner := (unitRun s q.quad).owner
    let key := drawKey s owner
    let (l, _) := memElems s (arrayAt (q.quad / 4) q.sAddr) .f32 q.count
    let (scales, codes, fl) := mxqList s.grd.opt q.dst (fun i => roundAt q.rnd key.1 key.2 (quadIndex q i)) l
    setFlags owner fl (storeBytes (arrayAt (q.quad / 4) q.scale) (scales.map (BitVec.ofNat 8))
      (storeBytes (arrayAt (q.quad / 4) q.dAddr) (pack q.dst codes) s))) s

def quadMxd (q : QuadCvt) (s : State) : State :=
  quadRun q [(q.sAddr, packedBytes q.src q.count), (q.scale, (q.count + 31) / 32)] [(q.dAddr, packedBytes q.dst q.count)]
    (fun s =>
      let owner := (unitRun s q.quad).owner
      let (l, _) := memElems s (arrayAt (q.quad / 4) q.sAddr) q.src q.count
      let r := (List.range l.length).map (fun i =>
        mxdCode s.grd.opt q.src q.dst (memRead s.mem (arrayAt (q.quad / 4) (q.scale + i / 32))).toNat (l.getD i 0))
      setFlags owner (orAll (r.map (fun p => p.2)))
        (storeBytes (arrayAt (q.quad / 4) q.dAddr) (pack q.dst (r.map (fun p => p.1))) s)) s

/-! ### RED_SUM (R141) -/

/-- An addition of a reduction: F32 rounded, I32 within its format (assumption 15). -/
def redAdd (f : Fmt) (a b : Nat) : Nat × ArithFlags :=
  if f = .f32 then fpAdd {} .f32 a b
  else
    let v := signedOf 32 a + signedOf 32 b
    if -2147483648 ≤ v && v ≤ 2147483647 then (unsignedOf 32 v, {})
    else (Config.outOfRange 2 v % 4294967296, { storeSat := bit (Config.outOfRange 2 v) 32 })

/-- The sum of n elements in the pairwise tree, +0 for none; a NaN alone gives the canonical one (R121). -/
def redSumOf (f : Fmt) (l : List Nat) : Nat × ArithFlags :=
  let (c, fl) := redTree (redAdd f) 17 l {}
  (if decodeVal f c = .nan then canonNan f else c, fl)

/-- RED_SUM on a tile, into a scalar register. -/
def redTile (t sl : Nat) (f : Fmt) (addr n sd : Nat) (s : State) : State :=
  let u := tileUnit t
  if n ≠ 0 && !placeOk s (unitRun s u).owner false (.tile t) addr (4 * n) then shareFault u addr s
  else if meetsBad s (tileAt t addr) (4 * n) then badRead u addr s
  else
    let (c, fl) := redSumOf f (memElems s (tileAt t addr) .f32 n).1
    if hushed s t sl then s else setFlags (unitRun s u).owner fl (updTile t (setScalar sl sd c) s)

/-- RED_SUM on a quadrant, into its array store at offset sd (assumption 17). -/
def redQuad (u : Nat) (f : Fmt) (addr n sd : Nat) (s : State) : State :=
  if !working s u then s else
  let p := Place.array (u / 4)
  access u [(p, false, addr, 4 * n), (p, true, sd, 4)] (fun s =>
    let (c, fl) := redSumOf f (memElems s (arrayAt (u / 4) addr) .f32 n).1
    setFlags (unitRun s u).owner fl (storeBytes (arrayAt (u / 4) sd) (leBytes 4 c) s)) s

/-! ### The meanings -/

def execVld (t sl vd a : Nat) (c8 : Bool) (s : State) : Host.Outcome State Fault Refusal :=
  tileRun t sl (regOk [vd] && aOk a) (loadVec t sl vd a 1 c8) s
def execVld2 (t sl vd a : Nat) (c8 : Bool) (s : State) : Host.Outcome State Fault Refusal :=
  tileRun t sl (regOk [vd, vd + 1] && aOk a) (loadVec t sl vd a 2 c8) s
def execVst (t sl vs a : Nat) (s : State) : Host.Outcome State Fault Refusal :=
  tileRun t sl (regOk [vs] && aOk a) (storeVec t sl vs a) s
def execVgath (t sl vd va a : Nat) (s : State) : Host.Outcome State Fault Refusal :=
  tileRun t sl (regOk [vd, va] && aOk a) (gather_ t sl vd va a) s
def execVscat (t sl vs va a : Nat) (s : State) : Host.Outcome State Fault Refusal :=
  tileRun t sl (regOk [vs, va] && aOk a) (scatter_ t sl vs va a) s
def execMac (t sl va vb : Nat) (s : State) : Host.Outcome State Fault Refusal :=
  tileRun t sl (regOk [va, vb]) (regEff t sl (opMac sl va vb)) s
def execMul (t sl vd va vb : Nat) (sh : ShiftSrc) (s : State) : Host.Outcome State Fault Refusal :=
  tileRun t sl (regOk [vd, va, vb] && shOk sh) (regEff t sl (opMul sl vd va vb sh)) s
def execAdd (t sl vd va vb : Nat) (s : State) : Host.Outcome State Fault Refusal :=
  tileRun t sl (regOk [vd, va, vb]) (regEff t sl (opAdd sl vd va vb)) s
def execSub (t sl vd va vb : Nat) (s : State) : Host.Outcome State Fault Refusal :=
  tileRun t sl (regOk [vd, va, vb]) (regEff t sl (opSub sl vd va vb)) s
def execShift (t sl vd va : Nat) (sh : ShiftSrc) (s : State) : Host.Outcome State Fault Refusal :=
  tileRun t sl (regOk [vd, va] && shOk sh) (regEff t sl (opShift sl vd va sh)) s
def execSelect (t sl vd vp va vb : Nat) (s : State) : Host.Outcome State Fault Refusal :=
  tileRun t sl (regOk [vd, vp, va, vb]) (regEff t sl (opSelect sl vd vp va vb)) s
def execCmac (t sl va vb : Nat) (s : State) : Host.Outcome State Fault Refusal :=
  tileRun t sl (regOk [va, vb]) (regEff t sl (opCmac sl va vb)) s
def execCmacj (t sl va vb : Nat) (s : State) : Host.Outcome State Fault Refusal :=
  tileRun t sl (regOk [va, vb]) (regEff t sl (opCmacj sl va vb)) s
def execCmul (t sl va vb : Nat) (s : State) : Host.Outcome State Fault Refusal :=
  tileRun t sl (regOk [va, vb]) (regEff t sl (opCmul sl va vb)) s
def execAccst (t sl : Nat) (f : Fmt) (vd : Nat) (sh : ShiftSrc) (s : State) : Host.Outcome State Fault Refusal :=
  tileRun t sl (regOk [vd] && shOk sh && (f = .q15 || f = .c16 || f = .c8)) (regEff t sl (opAccst sl f vd sh)) s
def execBfly2 (t sl x w k : Nat) (s : State) : Host.Outcome State Fault Refusal :=
  tileRun t sl (regOk [x + 1, w] && k < 4) (regEff t sl (opBfly 2 sl x w k)) s
def execBfly4 (t sl x w k : Nat) (s : State) : Host.Outcome State Fault Refusal :=
  tileRun t sl (regOk [x + 3, w + 2] && k < 4) (regEff t sl (opBfly 4 sl x w k)) s
def execBfly8 (t sl x w k : Nat) (s : State) : Host.Outcome State Fault Refusal :=
  tileRun t sl (regOk [x + 7, w + 6] && k < 4) (regEff t sl (opBfly 8 sl x w k)) s
def execVadd (t sl : Nat) (f : Fmt) (vd va vb : Nat) (s : State) : Host.Outcome State Fault Refusal :=
  tileRun t sl (regOk [vd, va, vb] && fpFmt f) (regEff t sl (opFp2 (fpAdd s.grd.opt f) sl f vd va vb)) s
def execVsub (t sl : Nat) (f : Fmt) (vd va vb : Nat) (s : State) : Host.Outcome State Fault Refusal :=
  tileRun t sl (regOk [vd, va, vb] && fpFmt f) (regEff t sl (opFp2 (fpSub s.grd.opt f) sl f vd va vb)) s
def execVmul (t sl : Nat) (f : Fmt) (vd va vb : Nat) (s : State) : Host.Outcome State Fault Refusal :=
  tileRun t sl (regOk [vd, va, vb] && fpFmt f) (regEff t sl (opFp2 (fpMul s.grd.opt f) sl f vd va vb)) s
def execVfma (t sl : Nat) (f : Fmt) (vd va vb vc : Nat) (s : State) : Host.Outcome State Fault Refusal :=
  tileRun t sl (regOk [vd, va, vb, vc] && fpFmt f) (regEff t sl (opFma s.grd.opt sl f vd va vb vc)) s
def execVmin (t sl : Nat) (f : Fmt) (vd va vb : Nat) (s : State) : Host.Outcome State Fault Refusal :=
  tileRun t sl (regOk [vd, va, vb] && minMaxOk f) (regEff t sl (opFp2 (fun a b => (minCode f a b, {})) sl f vd va vb)) s
def execVmax (t sl : Nat) (f : Fmt) (vd va vb : Nat) (s : State) : Host.Outcome State Fault Refusal :=
  tileRun t sl (regOk [vd, va, vb] && minMaxOk f) (regEff t sl (opFp2 (fun a b => (maxCode f a b, {})) sl f vd va vb)) s
def execVexp (t sl : Nat) (f : Fmt) (vd va : Nat) (s : State) : Host.Outcome State Fault Refusal :=
  tileRun t sl (regOk [vd, va] && fpFmt f) (regEff t sl (opLib s.grd.opt .exp sl f vd va)) s
def execVlog (t sl : Nat) (f : Fmt) (vd va : Nat) (s : State) : Host.Outcome State Fault Refusal :=
  tileRun t sl (regOk [vd, va] && fpFmt f) (regEff t sl (opLib s.grd.opt .log sl f vd va)) s
def execVrcp (t sl : Nat) (f : Fmt) (vd va : Nat) (s : State) : Host.Outcome State Fault Refusal :=
  tileRun t sl (regOk [vd, va] && fpFmt f) (regEff t sl (opLib s.grd.opt .rcp sl f vd va)) s
def execVrsqrt (t sl : Nat) (f : Fmt) (vd va : Nat) (s : State) : Host.Outcome State Fault Refusal :=
  tileRun t sl (regOk [vd, va] && fpFmt f) (regEff t sl (opLib s.grd.opt .rsqrt sl f vd va)) s
def execVtanh (t sl : Nat) (f : Fmt) (vd va : Nat) (s : State) : Host.Outcome State Fault Refusal :=
  tileRun t sl (regOk [vd, va] && fpFmt f) (regEff t sl (opLib s.grd.opt .tanh sl f vd va)) s
def execVsigm (t sl : Nat) (f : Fmt) (vd va : Nat) (s : State) : Host.Outcome State Fault Refusal :=
  tileRun t sl (regOk [vd, va] && fpFmt f) (regEff t sl (opLib s.grd.opt .sigm sl f vd va)) s

/-- A conversion on a tile, or on the quadrant its descriptor names. -/
def onQuad (q : Option QuadCvt) (ok : QuadCvt → Bool) (f : QuadCvt → State → State)
    (tile : Host.Outcome State Fault Refusal) (s : State) : Host.Outcome State Fault Refusal :=
  match q with
  | none => tile
  | some d => runOn (unitExists s.grade d.quad) "unit" d.quad (run (isQuad d.quad && ok d) "quadrant operation" (f d s))

def execCvt (t sl : Nat) (src dst : Fmt) (vd va : Nat) (r : Rounding) (quad : Option QuadCvt) (s : State) :
    Host.Outcome State Fault Refusal :=
  onQuad quad (fun d => cvtOk d.src d.dst && rndOk d.dst d.rnd) quadCvt
    (tileRun t sl (regOk [vd, va] && cvtOk src dst && rndOk dst r)
      (regEff t sl (opCvt s.grd.opt (drawKey s (unitRun s (tileUnit t)).owner) sl src dst vd va r)) s) s

def execMxq (t sl : Nat) (dst : Fmt) (vd va sc : Nat) (r : Rounding) (quad : Option QuadCvt) (s : State) :
    Host.Outcome State Fault Refusal :=
  onQuad quad (fun d => mxMay d.dst && rndOk d.dst d.rnd) quadMxq
    (tileRun t sl (regOk [vd, va, sc] && mxMay dst && rndOk dst r)
      (regEff t sl (opMxq s.grd.opt (drawKey s (unitRun s (tileUnit t)).owner) sl dst vd va sc r)) s) s

def execMxd (t sl : Nat) (src dst : Fmt) (vd va sc : Nat) (quad : Option QuadCvt) (s : State) :
    Host.Outcome State Fault Refusal :=
  onQuad quad (fun d => mxMay d.src && (d.dst = .f32 || d.dst = .b16)) quadMxd
    (tileRun t sl (regOk [vd, va, sc] && mxMay src && (dst = .f32 || dst = .b16))
      (regEff t sl (opMxd s.grd.opt sl src dst vd va sc)) s) s

def execRedSum (unit sl : Nat) (f : Fmt) (addr n sd : Nat) (s : State) : Host.Outcome State Fault Refusal :=
  runOn (unitExists s.grade unit) "unit" unit
    (run ((isTile unit || isQuad unit) && sl < 8 && (f = .f32 || f = .i32) && n ≤ 65536 && (isQuad unit || sd < 16))
      "reduction"
      (if isQuad unit then redQuad unit f addr n sd s
       else onSlice (unit - 0x40) sl (redTile (unit - 0x40) sl f addr n sd) s))

/-! ### Loop control (R145, R156 to R161) -/

/-- LOOP: the body from the next instruction to `last`, or past it when n is 0 (R156, R157). -/
def loopSlice (n last : Nat) (y : Slice) : Slice :=
  if n = 0 then stepSlice { y with pos := last }
  else { y with loops := y.loops ++ [{ top := y.pos + 1, last := last, count := n - 1 }], pos := y.pos + 1 }

/-- LOOP on a slice with a level left, its end behind it and within every open body; a load refuses any other (R148, R156,
R158). -/
def loop_ (t sl n last : Nat) (s : State) : State :=
  let y := sliceOf (tileOf s t) sl
  if !canIssue s t sl || last ≤ y.pos || 4 ≤ y.loops.length || y.loops.any (fun l => l.last < last) then s
  else updTile t (updSlice sl (loopSlice n last)) (markIssue t sl s)

def execLoop (t sl n last : Nat) (s : State) : Host.Outcome State Fault Refusal :=
  runOn (t < gradeTiles s.grade) "tile" t
    (run (sl < 8 && n ≤ 65535 && last ≤ 4091) "loop" (loop_ t sl n last s))

/-- The effect of one iteration of a repeated instruction on slice 0. -/
def opEff (t : Nat) (op : TileOp) (s : State) : State :=
  let o := s.grd.opt
  let key := drawKey s (unitRun s (tileUnit t)).owner
  match op with
  | .vld vd a c8 => loadVec t 0 vd a 1 c8 s
  | .vld2 vd a c8 => loadVec t 0 vd a 2 c8 s
  | .vst vs a => storeVec t 0 vs a s
  | .mac va vb => regEff t 0 (opMac 0 va vb) s
  | .mul vd va vb sh => regEff t 0 (opMul 0 vd va vb sh) s
  | .add vd va vb => regEff t 0 (opAdd 0 vd va vb) s
  | .sub vd va vb => regEff t 0 (opSub 0 vd va vb) s
  | .shift vd va sh => regEff t 0 (opShift 0 vd va sh) s
  | .select vd vp va vb => regEff t 0 (opSelect 0 vd vp va vb) s
  | .cmac va vb => regEff t 0 (opCmac 0 va vb) s
  | .cmacj va vb => regEff t 0 (opCmacj 0 va vb) s
  | .cmul va vb => regEff t 0 (opCmul 0 va vb) s
  | .accst f vd sh => regEff t 0 (opAccst 0 f vd sh) s
  | .bfly r x w k => regEff t 0 (opBfly r 0 x w k) s
  | .vadd f vd va vb => regEff t 0 (opFp2 (fpAdd o f) 0 f vd va vb) s
  | .vsub f vd va vb => regEff t 0 (opFp2 (fpSub o f) 0 f vd va vb) s
  | .vmul f vd va vb => regEff t 0 (opFp2 (fpMul o f) 0 f vd va vb) s
  | .vfma f vd va vb vc => regEff t 0 (opFma o 0 f vd va vb vc) s
  | .vmin f vd va vb => regEff t 0 (opFp2 (fun a b => (minCode f a b, {})) 0 f vd va vb) s
  | .vmax f vd va vb => regEff t 0 (opFp2 (fun a b => (maxCode f a b, {})) 0 f vd va vb) s
  | .func g f vd va => regEff t 0 (opLib o g 0 f vd va) s
  | .cvt src dst vd va r => regEff t 0 (opCvt o key 0 src dst vd va r) s
  | .mxq dst vd va sc r => regEff t 0 (opMxq o key 0 dst vd va sc r) s
  | .mxd src dst vd va sc => regEff t 0 (opMxd o 0 src dst vd va sc) s

/-- The iterations: a REP runs to its last, also past one whose access did not take place; a stop takes effect after it
(R160). -/
def repLoop (t : Nat) (op : TileOp) : Nat → State → State
  | 0, s => s
  | n + 1, s => repLoop t op n (opEff t op s)

/-- The ticks a REP gates on (R161). -/
def repTicks (n : Nat) (op : TileOp) : Nat := (n * opCost op * 3072 + 3124) / 3125

/-- REP in Fused: in a lent micro-step it issues only if it ends by the Dusk line, else the micro-step is squashed
(R159 to R162). -/
def rep_ (t n : Nat) (op : TileOp) (s : State) : State :=
  let u := tileUnit t
  if !canIssue s t 0 || !(tileOf s t).fused then s
  else match (unitRun s u).holder with
    | .lent c m =>
      if (unitRun s u).dusk < s.tmb.free + repTicks n op then
        let pos := (sliceOf (tileOf s t) 0).pos
        squashMicro c m { unit := u, position := pos } (updUnit u (fun r => { r with position := pos }) s)
      else onSlice t 0 (repLoop t op n) s
    | _ => onSlice t 0 (repLoop t op n) s

def execRep (t n : Nat) (op : TileOp) (s : State) : Host.Outcome State Fault Refusal :=
  runOn (t < gradeTiles s.grade) "tile" t
    (run (n ≤ 4096 && n * opCost op ≤ 4096 && opOk op && repMay op) "repeat" (rep_ t n op s))

/-- Lets go the slices whose masks name only slices that have issued an SBAR (R145). -/
def sbarGo (t : Nat) (s : State) : State :=
  let x := tileOf s t
  let has := fun k => (sliceOf x k).sbar.isSome
  let go := x.slices.filter (fun p => match p.2.sbar with
    | some m => (List.range 8).all (fun k => !bit m k || has k)
    | none => false)
  go.foldl (fun s p => pastIssue t p.1 (markIssue t p.1 (updTile t (updSlice p.1 (fun y => { y with sbar := none })) s))) s

def sbar_ (t sl mask : Nat) (s : State) : State :=
  if !canIssue s t sl then s
  else sbarGo t (updTile t (updSlice sl (fun y => { y with sbar := some mask })) s)

def execSbar (t sl mask : Nat) (s : State) : Host.Outcome State Fault Refusal :=
  runOn (t < gradeTiles s.grade) "tile" t
    (run (sl < 8 && mask < 256 && bit mask sl) "slice mask" (sbar_ t sl mask s))

def execSbarResume (t : Nat) (s : State) : Host.Outcome State Fault Refusal :=
  runOn (t < gradeTiles s.grade) "tile" t (run true "" (if working s (tileUnit t) then sbarGo t s else s))

/-! ### Neighbour exchange (R165 to R167) -/

/-- The neighbour in a direction: in the region, without wrap. -/
def neighbour (t : Nat) (dir : Int) : Option Nat := (tileStep (t % 16) dir).map (fun j => t / 16 * 16 + j)

/-- The place of a link in the rotation +1, -1, +4, -4 (R166), by the direction its writer sends in (assumption 155). -/
def linkPlace (dir : Int) : Nat := if dir = 1 then 0 else if dir = -1 then 1 else if dir = 4 then 2 else 3

/-- The transfer of an XSEND: the copy under the sender's share in both stores, then the post. A stop after some pieces of
64 bytes withholds the rest and the post (R167). -/
def xsendDo (t sl : Nat) (x : XSend) (s : State) : State :=
  let u := tileUnit t
  let owner := (unitRun s u).owner
  let b := x.stop.elim x.b (fun k => min x.b (64 * k))
  let s := markIssue t sl s
  pastIssue t sl (
  if b ≠ 0 && !placeOk s owner false (.tile t) x.src b then shareFault u x.src s
  else if b ≠ 0 && !placeOk s owner true (.tile x.to_) x.dst b then shareFault u x.dst s
  else if meetsBad s (tileAt t x.src) b then badRead u x.src s
  else
    let bytes := memReadBytes s.mem (tileAt t x.src) b
    let s := if hushed s t sl then s else storeBytes (tileAt x.to_ x.dst) bytes s
    let s := takePort x.to_ (linkPlace x.dir) b s
    if x.stop.isSome then halt u x.stop s else postBare u (tileUnit x.to_) x.entry (b / 64) s)

/-- Whether another writer holds the port of a tile's store. -/
def portTaken (s : State) (dir : Int) (q : Nat) : Bool :=
  (tileOf s q).port.1 ≠ linkPlace dir && s.tmb.free < (tileOf s q).port.2

/-- The network class of an owner: radio 0, else 2 (R102). -/
def ownerClass (owner : Nat) : Nat := if 256 ≤ owner && owner < 264 then 0 else 2

/-- The XSENDs that wait for the port of a tile's store: class of the owner, place in the rotation from the last served on. -/
def portWaiters (s : State) (q : Nat) : List (Nat × Nat) :=
  s.tiles.flatMap (fun p => p.2.slices.filterMap (fun y => y.2.xstall.bind (fun x =>
    if x.to_ = q then some (ownerClass (unitRun s (tileUnit p.1)).owner, (linkPlace x.dir + 4 - (tileOf s q).port.1) % 5) else none)))

/-- Whether an XSEND is the next that the port serves: lowest class, then the rotation (R166). -/
def portNext (s : State) (t : Nat) (x : XSend) : Bool :=
  let me := (ownerClass (unitRun s (tileUnit t)).owner, (linkPlace x.dir + 4 - (tileOf s x.to_).port.1) % 5)
  (portWaiters s x.to_).all (fun w => me.1 < w.1 || (me.1 = w.1 && me.2 ≤ w.2))

def xsend_ (t sl : Nat) (x : XSend) (s : State) : State :=
  if !canIssue s t sl then s
  else if x.b ≠ 0 && (portTaken s x.dir x.to_ || !portNext s t x) then
    updTile t (updSlice sl (fun y => { y with xstall := some x })) s
  else xsendDo t sl x s

def execXsend (t sl : Nat) (dir : Int) (src dst b entry : Nat) (stop : Option Nat) (s : State) :
    Host.Outcome State Fault Refusal :=
  runOn (t < gradeTiles s.grade) "tile" t
    (match neighbour t dir with
    | none => .refused (.malformed "direction")
    | some q => run (sl < 8 && b % 64 = 0 && b ≤ 65536 && entry < 64) "neighbour send"
        (xsend_ t sl { dir := dir, to_ := q, src := src, dst := dst, b := b, entry := entry, stop := stop } s))

/-- The port is free and the XSEND is next: it goes (R166). -/
def xsendEnd (t sl : Nat) (s : State) : State :=
  match (sliceOf (tileOf s t) sl).xstall with
  | some x =>
    if portTaken s x.dir x.to_ || !portNext s t x || !working s (tileUnit t) then s
    else xsendDo t sl x (updTile t (updSlice sl (fun y => { y with xstall := none })) s)
  | none => s

def execXsendStallEnd (t sl : Nat) (s : State) : Host.Outcome State Fault Refusal :=
  runOn (t < gradeTiles s.grade) "tile" t (run (sl < 8) "slice" (xsendEnd t sl s))

end Sys2Proof.Machine
end

