-- ==== Sys2Proof/Machine/Random.lean ====
section
/-!
DEFINITION. The meanings of the commands of chapter 06: random and sampling instructions, and the RNG commands.
-/
namespace Sys2Proof.Machine

/-! ### Draws on tiles (R172 to R183) -/

/-- The base index a pair of scalar registers holds. -/
def baseIndex (x : Tile) (sl sn : Nat) : Nat := scalar x sl sn + 4294967296 * scalar x sl (sn + 1)

/-- The draw of element i of a slice. -/
def drawAt (key : Nat × Nat) (x : Tile) (sl sm sn i : Nat) : Nat × Nat × Nat × Nat :=
  kcg key.1 (scalar x sl sm) key.2 ((baseIndex x sl sn + i) % 2 ^ 64)

/-- Whether an element's lanes draw: its predicate is true, the lower lane of a predicate register not 0, or there is none
(R176, assumption 16). -/
def lanePred (x : Tile) (sl : Nat) (vp : Option Nat) (i : Nat) : Bool :=
  vp.all (fun v => (readElems x sl .f32 v).getD i 0 % 65536 ≠ 0)

/-- Writes one 32-bit result for each of a slice's elements that draws, formed from its draw; the others keep theirs. -/
def opDraw (key : Nat × Nat) (sl vd sm sn : Nat) (vp : Option Nat) (f : Nat × Nat × Nat × Nat → Nat) (x : Tile) :
    Tile × ArithFlags :=
  let n := laneCount x / 2
  let old := readElems x sl .f32 vd
  let l := (List.range n).map (fun i =>
    if lanePred x sl vp i then f (drawAt key x sl sm sn (sliceElem x sl n + i)) else old.getD i 0)
  (writeElems sl .f32 vd l x, {})

/-- The integer m of the uniform variate of a word (R177). -/
def uniM (w : Nat) : Nat := w / 512
/-- The uniform variate as an F32 code: (2m + 1) * 2^-24, exact. -/
def uniform (w : Nat) : Nat := (encodeVal {} .f32 .rne (.fin false (2 * uniM w + 1) (-24))).1

/-- Operands of a random instruction: a stream and a pair of scalar registers or loop counters, and a predicate register. -/
def drawOk (sm sn : Nat) (vp : Option Nat) : Bool := sm < 20 && sn < 19 && vp.all (· < 32)

def drawRun (t sl vd sm sn : Nat) (vp : Option Nat) (f : Nat × Nat × Nat × Nat → Nat) (s : State) : Host.Outcome State Fault Refusal :=
  tileRun t sl (regOk [vd] && drawOk sm sn vp)
    (regEff t sl (opDraw (drawKey s (unitRun s (tileUnit t)).owner) sl vd sm sn vp f)) s

def execRdraw (t sl vd sm sn : Nat) (vp : Option Nat) (s : State) : Host.Outcome State Fault Refusal :=
  drawRun t sl vd sm sn vp (fun o => o.1) s
def execRuni (t sl vd sm sn : Nat) (vp : Option Nat) (s : State) : Host.Outcome State Fault Refusal :=
  drawRun t sl vd sm sn vp (fun o => uniform o.1) s
def execRnormBm (t sl vd sm sn : Nat) (vp : Option Nat) (s : State) : Host.Outcome State Fault Refusal :=
  drawRun t sl vd sm sn vp (fun o => boxMuller (uniM o.1) (uniM o.2.1)) s
def execRnormTab (t sl vd sm sn : Nat) (vp : Option Nat) (s : State) : Host.Outcome State Fault Refusal :=
  drawRun t sl vd sm sn vp (fun o => normalTab o.1) s

/-- The scores with their Gumbel noise: v_i by index (R180). A position whose lane's predicate is false draws nothing and takes
no part (R176, assumption 153). -/
def noisy (s : State) (t addr n : Nat) (key : Nat × Nat) (x : Tile) (sm sn : Nat) (vp : Option Nat) :
    List (Nat × Nat) × ArithFlags :=
  let l := (memElems s (tileAt t addr) .f32 n).1
  let r := ((List.range l.length).filter (fun i => lanePred x 0 vp (i % 128))).map (fun i =>
    (i, fpAdd {} .f32 (l.getD i 0) (gumbel (uniform (drawAt key x 0 sm sn i).1))))
  (r.map (fun p => (p.1, p.2.1)), orAll (r.map (fun p => p.2.2)))

/-- Whether v beats w: NaN orders below all (R180). -/
def beats (v w : Nat) : Bool :=
  if decodeVal .f32 v = .nan then false
  else if decodeVal .f32 w = .nan then true
  else valLt (decodeVal .f32 w) (decodeVal .f32 v) && !(v % 2147483648 = 0 && w % 2147483648 = 0)

/-- The greatest pair, the lowest index among equals. -/
def bestOf : List (Nat × Nat) → Option (Nat × Nat)
  | [] => none
  | p :: r => some (r.foldl (fun b q => if beats q.2 b.2 then q else b) p)

/-- Checks an instruction's read of a tile's own store, then acts. -/
def sampleRead (t addr n : Nat) (eff : State → State) (s : State) : State :=
  let u := tileUnit t
  if n ≠ 0 && !placeOk s (unitRun s u).owner false (.tile t) addr (4 * n) then shareFault u addr s
  else if meetsBad s (tileAt t addr) (4 * n) then badRead u addr s
  else eff s

def gmax_ (t n addr sm sn sd : Nat) (vp : Option Nat) (s : State) : State :=
  if !(tileOf s t).fused then s else
  onSlice t 0 (sampleRead t addr n (fun s =>
    let owner := (unitRun s (tileUnit t)).owner
    let (l, fl) := noisy s t addr n (drawKey s owner) (tileOf s t) sm sn vp
    let (i, v) := (bestOf l).getD (0xFFFFFFFF, 0xFF800000)
    if hushed s t 0 then s
    else setFlags owner fl (updTile t (fun x => setScalar 0 (sd + 1) v (setScalar 0 sd i x)) s))) s

def execGmax (t n addr sm sn sd : Nat) (vp : Option Nat) (s : State) : Host.Outcome State Fault Refusal :=
  runOn (t < gradeTiles s.grade) "tile" t
    (run (n ≤ 1048576 && drawOk sm sn vp && sd < 15) "sampling" (gmax_ t n addr sm sn sd vp s))

/-- The first k pairs in descending order, padded (R181). -/
def topPairs (k : Nat) (l : List (Nat × Nat)) : List (Nat × Nat) :=
  let top := (sortBy (fun a b => beats a.2 b.2) l).take k
  top ++ List.replicate (k - top.length) (0xFFFFFFFF, 0xFF800000)

def topk_ (t n k addr dst sm sn : Nat) (vp : Option Nat) (s : State) : State :=
  if !(tileOf s t).fused then s else
  onSlice t 0 (fun s =>
    let u := tileUnit t
    let owner := (unitRun s u).owner
    if k ≠ 0 && !placeOk s owner true (.tile t) dst (8 * k) then shareFault u dst s
    else if k = 0 then s
    else sampleRead t addr n (fun s =>
      let (l, fl) := noisy s t addr n (drawKey s owner) (tileOf s t) sm sn vp
      if hushed s t 0 then s else setFlags owner fl (storeBytes (tileAt t dst)
        ((topPairs k l).flatMap (fun p => leBytes 4 p.1 ++ leBytes 4 p.2)) s)) s) s

def execTopk (t n k addr dst sm sn : Nat) (vp : Option Nat) (s : State) : Host.Outcome State Fault Refusal :=
  runOn (t < gradeTiles s.grade) "tile" t
    (run (n ≤ 1048576 && k ≤ 256 && drawOk sm sn vp) "sampling" (topk_ t n k addr dst sm sn vp s))

/-! ### Commands (R184 to R186) -/

/-- The context a command names, if it exists in the target partition. -/
def ctxArg (q : Req) (s : State) (c : Nat) : Option Status :=
  if 255 < c then some .badField
  else if (ctxOf s c).state = .absent || (ctxOf s c).part ≠ q.target then some .contextState
  else none

/-- Staged values take effect (R185). -/
def applySeed (g : RngState) : RngState :=
  { seed := g.pendSeed.getD g.seed, step := g.pendStep.getD g.step, pendSeed := none, pendStep := none }

/-- The record of R184. -/
def rngRecord (g : RngState) : List Byte :=
  leBytes 16 g.seed ++ leBytes 8 g.step ++ leBytes 16 (g.pendSeed.getD 0)
    ++ leBytes 8 (b2n g.pendSeed.isSome + 2 * b2n g.pendStep.isSome) ++ leBytes 8 (g.pendStep.getD 0)

/-- RNG_SEED: staged; in effect at once where no batch step runs (R185, R186). -/
def rngSeedBody (q : Req) (s : State) : State × Reply :=
  let c := pl q 0 2
  let flags := pl q 2 2
  if 255 < c || 3 < flags then failed .badField s else
  match ctxArg q s c with
  | some st => failed st s
  | none =>
    let stage := fun (g : RngState) => { g with
      pendSeed := if bit flags 0 then some (pl q 8 16) else g.pendSeed,
      pendStep := if bit flags 1 then some (pl q 24 8) else g.pendStep }
    let s := if flags = 0 then s else
      updCtx c (fun x => { x with rng := if x.step.isNone then applySeed (stage x.rng) else stage x.rng }) s
    let x := ctxOf s c
    -- while a batch step runs, the new state first draws after its commit
    let eff := match x.rng.pendStep with
      | some v => v
      | none => if x.step.isNone then x.rng.step else (x.rng.step + 1) % 2 ^ 64
    (s, { payload := leBytes 8 eff })

def execRngSeed (m : Nat) (s : State) : Host.Outcome State Fault Refusal :=
  run (m < 80) "mailbox" (runCommand 0x0580 m rngSeedBody s)

def rngQueryBody (q : Req) (s : State) : State × Reply :=
  match ctxArg q s (pl q 0 2) with
  | some st => failed st s
  | none => (s, { payload := rngRecord (ctxOf s (pl q 0 2)).rng })

def execRngQuery (m : Nat) (s : State) : Host.Outcome State Fault Refusal :=
  run (m < 80) "mailbox" (runCommand 0x0581 m rngQueryBody s)

/-- RNG_EVAL: the blocks of consecutive indices (R186). -/
def rngEvalBody (q : Req) (s : State) : State × Reply :=
  let n := pl q 20 2
  if 64 < n then failed .badField s
  else
    let block := fun i =>
      let o := kcg (pl q 0 16) (pl q 16 4) (pl q 24 8) ((pl q 32 8 + i) % 2 ^ 64)
      leBytes 4 o.1 ++ leBytes 4 o.2.1 ++ leBytes 4 o.2.2.1 ++ leBytes 4 o.2.2.2
    (s, { payload := (List.range n).flatMap block })

def execRngEval (m : Nat) (s : State) : Host.Outcome State Fault Refusal :=
  run (m < 80) "mailbox" (runCommand 0x0582 m rngEvalBody s)

end Sys2Proof.Machine
end

