-- ==== Sys2Proof/Machine/Serving.lean ====
section
/-!
DEFINITION. The meanings of the commands of chapter 12: contexts, their images and memory, residency, submissions and
batch steps.
-/
namespace Sys2Proof.Machine

/-! ### Step images (R346 to R348, R370) -/

/-- The micro-step record at an offset of an image; the flags are a zero field and a field out of range (R347, R348). -/
def parseMicro (img : List Byte) (idx ofs : Nat) : ImgMicro × Bool × Bool :=
  let word := field img ofs 4
  let bound := word % 262144
  let units := field img (ofs + 4) 2
  let preds := field img (ofs + 6) 2
  let uo := field img (ofs + 8) 4
  let po := field img (ofs + 12) 4
  let us := (List.range units).map (fun i => field img (uo + 4 * i) 1)
  let gs := (List.range units).map (fun i => field img (uo + 4 * i + 2) 2)
  let ps := (List.range preds).map (fun i => field img (po + 2 * i) 2)
  let zero := bound = 0 || units = 0
  let bad := 196608 < bound || !bit word 18 || 64 < units || 64 < preds || ps.any (fun p => idx ≤ p)
    || img.length < ofs + 32 || img.length < uo + 4 * units || img.length < po + 2 * preds
    || us.any (fun u => !(isQuad u || isTile u || isMover u))
  ({ bound := bound, units := us, progs := gs, preds := ps }, zero, bad)

/-- The drift guard at the default rate_limit (R205, R348). -/
def chainGuard (b : Nat) : Nat := (b * 10995116 + m40 - 1) / m40 + 1

/-- The longest chain of predecessors of a kind (R348). -/
def longestChain (margin : Nat) (ms : List ImgMicro) : Nat :=
  let ends := ms.foldl (fun (l : List Nat) m =>
    l ++ [(m.preds.map (fun p => l.getD p 0)).foldl max 0 + m.bound + chainGuard m.bound + margin]) []
  ends.foldl max 0

/-- The kind record k of an image with its micro-steps. -/
def parseKind (margin : Nat) (img : List Byte) (ofs : Nat) : ImgKind × Bool × Bool :=
  let sb := field img ofs 4
  let n := field img (ofs + 4) 2
  let first := field img (ofs + 8) 4
  let ms := (List.range n).map (fun i => parseMicro img i (first + 32 * i))
  let k : ImgKind := { stepBound := sb, inMax := field img (ofs + 12) 4, outMax := field img (ofs + 16) 4,
                       micros := ms.map (fun m => m.1) }
  (k, sb = 0 || ms.any (fun m => m.2.1),
   39321600 < sb || img.length < ofs + 32 || ms.any (fun m => m.2.2) || sb < longestChain margin k.micros)

/-- The header and kind table of an image of `len` bytes; its two flags. -/
def parseImage (margin : Nat) (img : List Byte) : StepImage × Bool × Bool :=
  let kinds := field img 1 1
  let places := field img 2 1
  let kofs := field img 16 4
  let ks := (List.range kinds).map (fun i => parseKind margin img (kofs + 32 * i))
  let kv := field img 24 1
  let im : StepImage := { placements := places, marked := bit (field img 3 1) 0, detSig := field img 8 8, kvLog2 := kv,
                          weightsId := field img 28 4, kinds := ks.map (fun k => k.1) }
  (im, kinds = 0 || ks.any (fun k => k.2.1),
   img.length < 64 || field img 0 1 ≠ 1 || 16 < kinds || places = 0 || 8 < places || img.length < field img 4 4
     || kofs % 32 ≠ 0 || kv < 16 || 21 < kv || ks.any (fun k => k.2.2))

/-- Every logical unit that an image's unit lists name. -/
def imageUnits (im : StepImage) : List Nat := im.kinds.flatMap (fun k => k.micros.flatMap (fun m => m.units))

/-- The whole GB that logical region r needs. -/
def regionGb (p : Placement) (own : Bool) (r : Nat) : Nat :=
  cdiv (placeBytes p own r 0 + placeBytes p own r 1 + placeBytes p own r 2) (2 ^ 30)

/-- The figures of R348 that make a placement malformed. -/
def placementBad (p : Placement) : Bool :=
  !layoutOk false p || !bufsOk false p || !programsOk p || p.shape.regions = 0 || 4 < p.shape.regions
    || (List.range p.shape.regions).any (fun r => p.shape.dramGb.getD r 0 < regionGb p true r)

/-- A usable placement that the grade can hold (R348). -/
def placementUsable (g : Grade) (im : StepImage) (p : Placement) : Bool :=
  shapeFits g p.shape && (imageUnits im).all (shapeHas p.shape)

/-- The descriptors of a micro-step's programs in a placement. -/
def microOps (p : Placement) (m : ImgMicro) : List ProgOp :=
  (m.units.zip m.progs).flatMap (fun x =>
    (p.programs.filter (fun g => g.unit = x.1 && g.number = x.2)).flatMap (fun g => g.streams.flatMap (fun l => l)))

def isSync : ProgOp → Bool
  | .sync _ => true
  | _ => false

def isAccumulating : ProgOp → Bool
  | .fabric d => accumulates d.op
  | _ => false

/-- At most 256 accumulating requests and 16 SYNC descriptors a micro-step, and 256 micro-steps of a kind with any of these
(R415, R431). -/
def kindDescOk (p : Placement) (k : ImgKind) : Bool :=
  k.micros.all (fun m => (microOps p m).countP isAccumulating ≤ 256 && (microOps p m).countP isSync ≤ 16)
    && k.micros.countP (fun m => (microOps p m).any isSync) ≤ 256

/-- The refusals of R348 and R447 on an image and the placements its records give, in the order of the table. -/
def imageStatus (s : State) (part : Nat) (im : StepImage) (zero bad : Bool) (places : List Placement) : Status :=
  if zero || places.any bufsZero then .zeroNotAllowed
  else if bad || places.length ≠ im.placements || places.any placementBad
      || places.any (fun p => im.kinds.any (fun k => !kindDescOk p k))
      || !(imageUnits im).all (fun u => places.any (fun p => shapeHas p.shape u))
      || !places.any (placementUsable s.grade im) then .imageInvalid
  else if ledgerMode s part && im.marked then .markedOp
  else if ledgerMode s part && im.detSig ≠ s.syn.sig then .signatureMismatch
  else .success

/-! ### Memory of a context (R349, R350) -/

/-- inference_dram in GB (R349). -/
def inferenceDram (s : State) : Nat := (gradeDramGb s.grade * 2 ^ 30 - 20 * 2 ^ 30 - s.dev.hdmSize) / 2 ^ 30

/-- Granules in which a restore stages step images until it binds (R388). -/
def stagedGranules (s : State) (p : Nat) : Nat :=
  match (partOf s p).restore with
  | some r => if r.bound then 0 else cdiv (r.imgs.foldl (fun n i => n + i.1.length) 0) 2097152
  | none => 0

/-- Granules in use by the contexts of a partition. -/
def partGranules (s : State) (p : Nat) : Nat :=
  ((allContexts s).filter (fun x => x.2.part = p)).foldl (fun n x => n + x.2.dram.foldl (fun k d => k + d.2) 0)
    (stagedGranules s p)

/-- The regions to allocate, as (lregion, region, stack, granules). -/
def regionList (p : Placement) (own : Bool) (b : Binding) : List (Nat × Nat × Nat × Nat) :=
  (List.range p.shape.regions).flatMap (fun r => [0, 1, 2].filterMap (fun k =>
    let g := cdiv (placeBytes p own r k) 2097152
    if g = 0 then none else some (r, k, b.regions.getD r 0, g)))

/-- Allocates regions one after another, each the lowest free range of its stack. -/
def allocRegions (s : State) : List (Nat × Nat × Nat × Nat) → List (Nat × Nat) → Option (List (Nat × Nat))
  | [], l => some l
  | (r, k, p, g) :: rest, l =>
    let mine := (l.filter (fun d => d.1 / 2 ^ 20 % 4 = p)).map (fun d => (d.1 % 2 ^ 20, d.2))
    match firstFit (stackGranules s p) g (stackUsed s p ++ mine) with
    | none => none
    | some f => allocRegions s rest (l ++ [(((r * 4 + k) * 4 + p) * 2 ^ 20 + f, g)])

/-- Contexts that use the weights context c uses. -/
def sharers (s : State) (c : Nat) : List Nat :=
  (s.srv.ctxs.filter (fun p => p.2.state ≠ .absent && weightsHome s p.1 = weightsHome s c)).map (fun p => p.1)

/-! ### CTX_CREATE (R348, R349, R366) -/

/-- A ring of class 5 of the partition in a direction (R362, R366). -/
def servingRing (s : State) (part n : Nat) (toHost : Bool) : Bool :=
  match ringOf s n with
  | some r => r.cls = 5 && r.toHost == toHost && r.part = part
  | none => false

/-- Rings of a creation, shared only with the same done ring (R362). -/
def ringsOk (s : State) (part sub done : Nat) : Bool :=
  servingRing s part sub false && servingRing s part done true
    && (allContexts s).all (fun x => x.2.subRing ≠ sub || x.2.doneRing = done)

/-- Whether an index is in use, a creation's included. -/
def ctxInUse (s : State) (c : Nat) : Bool :=
  (ctxOf s c).state ≠ .absent || s.srv.creating.any (fun p => p.2.1 = c)

/-- A context whose weights another may use. -/
def weightsOk (s : State) (part wo : Nat) : Bool :=
  wo = 0xFFFF || (wo < 256 && (ctxOf s wo).state ≠ .absent && (ctxOf s wo).part = part)

/-- Binding and allocation of a placement (R114, R349), with the statuses of R349, R350 and R377. -/
def ctxMemory (s : State) (part wo : Nat) (p : Placement) : Except Status (Binding × List (Nat × Nat)) :=
  let own := wo = 0xFFFF
  let need := { p.shape with dramGb := (List.range p.shape.regions).map (regionGb p own) }
  match bindFor s need false (stackFreeGb s) with
  | none => .error .noResource
  | some b =>
    let regs := regionList p own b
    if !own && b.regions ≠ (ctxOf s wo).bind.regions then .error .badField
    else if (partOf s part).dramGb * 512 < partGranules s part + regs.foldl (fun n r => n + r.2.2.2) 0 then .error .quota
    else match allocRegions s regs [] with
    | none => .error .noResource
    | some l => .ok (b, l)

/-- Contexts of a partition, creations included. -/
def partContexts (s : State) (p : Nat) : Nat := ((allContexts s).filter (fun x => x.2.part = p)).length

/-- CTX_CREATE; the placements are those the image's records give (assumption 3). -/
def ctxCreateBody (places : List Placement) (q : Req) (s : State) : State × Reply :=
  let c := pl q 0 2
  let prio := pl q 2 1
  let depth := pl q 3 1
  let wo := pl q 6 2
  let ofs := pl q 8 8
  let len := pl q 16 4
  let sub := pl q 20 2
  let done := pl q 22 2
  if 64 ≤ q.target then failed .contextState s
  else if s.dev.twilight then failed .twilight s
  else if depth = 0 then failed .zeroNotAllowed s
  else if 255 < c || 7 < prio || prio < (partOf s q.target).prioLimit || 64 < depth || len = 0
      || !ringsOk s q.target sub done || !weightsOk s q.target wo then failed .badField s
  else if ctxInUse s c then failed .contextState s
  else if !inShare s q.target ofs len then failed .badAddress s
  else
    let bytes := hdmRead s ofs len
    let (im, zero, bad) := parseImage s.tts.duskMargin bytes
    match imageStatus s q.target im zero bad places with
    | .success =>
      if wo ≠ 0xFFFF && (ctxOf s wo).img.weightsId ≠ im.weightsId then failed .badField s
      else if (partOf s q.target).maxContexts ≤ partContexts s q.target then failed .quota s
      else
        let i := places.findIdx (placementUsable s.grade im)
        match ctxMemory s q.target wo (places.getD i {}) with
        | .error st => failed st s
        | .ok (b, dram) =>
          let x : Context := { part := q.target, prio := prio, pinned := bit (pl q 4 2) 0, depth := depth, subRing := sub,
                               doneRing := done, weightsOf := if wo = 0xFFFF then wo else weightsHome s wo, img := im,
                               imgBytes := bytes, places := places, place := i, bind := b, dram := dram }
          longOp q c [] (fun h s => updSrv (fun v => { v with creating := tabPut v.creating h (c, x) }) s) s
    | st => failed st s

def execCtxCreate (m : Nat) (places : List Placement) (s : State) : Host.Outcome State Fault Refusal :=
  run (m < 80) "mailbox" (runCommand 0x0500 m (ctxCreateBody places) s)

/-- Zeroes the regions a context has been given (R379). -/
def zeroRegions (c : Nat) (x : Context) (s : State) : State :=
  s.setMem (x.dram.foldl (fun m d =>
      let rk := d.1 / 2 ^ 22
      memZero m (regionAt c (rk / 4) (rk % 4) 0) (d.2 * 2097152)) s.mem)

/-- A context comes to be, LOADED, and its rings are bound (R344, R362). -/
def ctxAppears (c : Nat) (x : Context) (cause : Nat) (s : State) : State :=
  let s := zeroRegions c x (updSrv (fun v => { v with ctxs := tabPut v.ctxs c { x with state := .absent } }) s)
  let s := ctxTo c .loaded cause s
  settle x.subRing (waitingEntries s x.subRing) s

/-- CTX_CREATE_DONE: the image copy ends; step 0 and seed 0. -/
def ctxCreateDone (h : Nat) (s : State) : State :=
  match tabFind? s.srv.creating h with
  | none => s
  | some (c, x) =>
    finishOp h .success [] (ctxAppears c x 0 (updSrv (fun v => { v with creating := tabDel v.creating h }) s))

def execCtxCreateDone (h : Nat) (s : State) : Host.Outcome State Fault Refusal :=
  run (h < 64) "handle" (ctxCreateDone h s)

/-! ### CTX_DESTROY (R367, R350, R440) -/

/-- CTX_WRITEs of a context that copy are cancelled: their result is the count of bytes copied, whose value within the
copy is open (R35, assumption 2). -/
def cancelWrite (h : Nat) (s : State) : State :=
  match opOf s h with
  | none => s
  | some o =>
    let len := o.args.getD 4 0
    let (v, s) := drawFree s
    let n := v % (len / 64 + 1) * 64
    let at_ := regionAt (if o.args.getD 0 0 = 0 then weightsHome s o.obj else o.obj) (o.args.getD 1 0) (o.args.getD 0 0)
      (o.args.getD 2 0)
    finishOp h .cancelled (leBytes 8 n) (storeBytes at_ (hdmRead s (o.args.getD 3 0) n) s)

/-- The handles of the CTX_WRITEs of a context that run. -/
def writesOf (s : State) (c : Nat) : List Nat :=
  (s.ops.filter (fun p => p.2.opcode = 0x0502 && p.2.obj = c && !p.2.finished)).map (fun p => p.1)

/-- Steps 1 and 2 of R367. -/
def destroyBegins (c : Nat) (s : State) : State :=
  let s := (writesOf s c).foldl (fun s h => cancelWrite h s) s
  endStep c .aborted false (dropNotStarted c .aborted (endReside c .cancelled s))

/-- A context whose destruction runs. -/
def destroying (s : State) (c : Nat) : Bool := (opOn s 0x0501 c).isSome

def ctxDestroyBody (q : Req) (s : State) : State × Reply :=
  let c := pl q 0 2
  match ctxArg q s c with
  | some st => failed st s
  | none =>
    if destroying s c then failed .contextState s
    else longOp q c [] (fun _ s => destroyBegins c s) s

def execCtxDestroy (m : Nat) (s : State) : Host.Outcome State Fault Refusal :=
  run (m < 80) "mailbox" (runCommand 0x0501 m ctxDestroyBody s)

/-- Moves the bytes of the weights of logical region r from context c to context d. -/
def moveRegion (c d r : Nat) (m : Memory) : Memory :=
  let a := regionAt c r 0 0
  let mine := m.cells.filter (fun x => a ≤ x.1 && x.1 < a + 2 ^ 40)
  mine.foldl (fun m x => memWrite m (regionAt d r 0 (x.1 - a)) x.2) (memZero m a (2 ^ 40))

/-- Weights that other contexts use stay: the lowest of them holds them from now on (R350, R367). -/
def handWeights (c : Nat) (s : State) : State :=
  if (ctxOf s c).weightsOf ≠ 0xFFFF then s else
  match (sharers s c).filter (· ≠ c) with
  | [] => s
  | d :: _ =>
    let w := (ctxOf s c).dram.filter (fun e => e.1 / 2 ^ 22 % 4 = 0)
    let s := updSrv (fun v => { v with ctxs := v.ctxs.map (fun p =>
      if p.1 = d then (p.1, { p.2 with weightsOf := 0xFFFF, dram := w ++ p.2.dram })
      else if p.2.weightsOf = c then (p.1, { p.2 with weightsOf := d }) else p) }) s
    s.setMem ((List.range 4).foldl (fun m r => moveRegion c d r m) s.mem)

/-- Steps 3 to 5 of R367: the context is ABSENT and all it held is free. -/
def removeCtx (c cause : Nat) (s : State) : State :=
  if (ctxOf s c).state = .absent then s else
  let s := orphanOwner c (detachTags c (stopContext c s))
  let s := handWeights c (clearArith c (freeContention c (sbFreeOwner c (freeShares c s))))
  let s := ctxTo c .absent cause s
  let s := updFab (fun b => { b with windows := b.windows.filter (fun w => !(w.2.ctx = c && w.2.kind = 0)) }) s
  let s := updHlt (fun h => { h with ctxReset := tabDel h.ctxReset c }) s
  pruneTags (updSrv (fun v => { v with ctxs := tabDel v.ctxs c }) s)

def ctxDestroyDone (h : Nat) (s : State) : State :=
  match opOf s h with
  | none => s
  | some o =>
    if o.opcode ≠ 0x0501 || o.finished then s
    else
      let (st, s) := drawStatus s
      serve (finishOpsOn 0x0800 o.obj st [] (finishOp h .success [] (removeCtx o.obj 0 s)))

def execCtxDestroyDone (h : Nat) (s : State) : Host.Outcome State Fault Refusal :=
  run (h < 64) "handle" (ctxDestroyDone h s)

/-! ### CTX_WRITE (R366) -/

def ctxWriteBody (q : Req) (s : State) : State × Reply :=
  let c := pl q 0 2
  let kind := pl q 2 1
  let lr := pl q 3 1
  let dst := pl q 8 8
  let src := pl q 16 8
  let len := pl q 24 8
  if 255 < c || 1 < kind then failed .badField s else
  match ctxArg q s c with
  | some st => failed st s
  | none =>
    let x := ctxOf s c
    let users := if kind = 0 then sharers s c else [c]
    if ((x.places.getD x.place {}).shape.regions) ≤ lr then failed .badField s
    else if !(x.state = .loaded || x.state = .resident) || users.any (fun d => (ctxOf s d).step.isSome) || destroying s c then
      failed .contextState s
    else if !inShare s q.target src len || ctxRegionBytes s c lr kind < dst + len then failed .badAddress s
    else if len = 0 then (s, reply .success)
    else longOp q c [kind, lr, dst, src, len] (fun _ s => s) s

def execCtxWrite (m : Nat) (s : State) : Host.Outcome State Fault Refusal :=
  run (m < 80) "mailbox" (runCommand 0x0502 m ctxWriteBody s)

/-- CTX_WRITE_DONE: the copy ends. -/
def ctxWriteDone (h : Nat) (s : State) : State :=
  match opOf s h with
  | none => s
  | some o =>
    if o.opcode ≠ 0x0502 || o.finished then s
    else
      let at_ := regionAt (if o.args.getD 0 0 = 0 then weightsHome s o.obj else o.obj) (o.args.getD 1 0) (o.args.getD 0 0)
        (o.args.getD 2 0)
      finishOp h .success [] (storeBytes at_ (hdmRead s (o.args.getD 3 0) (o.args.getD 4 0)) s)

def execCtxWriteDone (h : Nat) (s : State) : Host.Outcome State Fault Refusal :=
  run (h < 64) "handle" (ctxWriteDone h s)

/-! ### Residency (R344, R353 to R356) -/

/-- CTX_RESIDE is accepted; the context asks for residency. -/
def ctxResideBody (q : Req) (s : State) : State × Reply :=
  let c := pl q 0 2
  match ctxArg q s c with
  | some st => failed st s
  | none =>
    if s.dev.twilight then failed .twilight s
    else if (ctxOf s c).state = .frozen || destroying s c then failed .contextState s
    else longOp q c [] (fun _ s => enterResiding c 0 s) s

/-- CTX_RESIDE; the residing order is served once the response stands. -/
def execCtxReside (m : Nat) (s : State) : Host.Outcome State Fault Refusal :=
  run (m < 80) "mailbox" (serve (runCommand 0x0503 m ctxResideBody s))

/-- RESIDENCY_DONE: shares written and programs copied (R344, R355). -/
def residencyDone (c : Nat) (s : State) : State :=
  let x := ctxOf s c
  if x.state = .residing && x.written then
    let s := updCtx c (fun x => { x with prot := !x.queue.isEmpty, lastStepped := s.tmb.free, written := false })
      (ctxTo c .resident x.resideCause s)
    serve (endReside c .success s)
  else if x.state = .resident || x.state = .running then endReside c .success s
  else s

def execResidencyDone (c : Nat) (s : State) : Host.Outcome State Fault Refusal :=
  run (c < 256) "context" (residencyDone c s)

def ctxEvictBody (q : Req) (s : State) : State × Reply :=
  let c := pl q 0 2
  match ctxArg q s c with
  | some st => failed st s
  | none =>
    if destroying s c then failed .contextState s else
    match (ctxOf s c).state with
    | .loaded => (s, reply .success)
    | .resident => (evictNow c 0 s, reply .success)
    | .running =>
      (updCtx c (fun x => { x with evictCause := some (x.evictCause.getD 0), evictBy := none }) s, reply .success)
    | _ => failed .contextState s

def execCtxEvict (m : Nat) (s : State) : Host.Outcome State Fault Refusal :=
  run (m < 80) "mailbox" (serve (runCommand 0x0504 m ctxEvictBody s))

def ctxFlushBody (q : Req) (s : State) : State × Reply :=
  let c := pl q 0 2
  match ctxArg q s c with
  | some st => failed st s
  | none => if destroying s c then failed .contextState s else (dropNotStarted c .aborted s, reply .success)

def execCtxFlush (m : Nat) (s : State) : Host.Outcome State Fault Refusal :=
  run (m < 80) "mailbox" (runCommand 0x0505 m ctxFlushBody s)

/-! ### CTX_QUERY (R368) -/

def ctxRecord (x : Context) : List Byte :=
  leBytes 8 (ctxCode x.state + 8 * x.prio + 64 * b2n x.pinned + 128 * b2n x.evictCause.isSome + 256 * b2n x.prot
      + 65536 * x.depth + 16777216 * x.queue.length)
    ++ leBytes 8 x.lastStepped ++ leBytes 8 (ctrWord x.commits) ++ leBytes 8 (ctrWord x.busy)
    ++ leBytes 8 (ctrWord x.overruns) ++ leBytes 8 (ctrWord x.squashes) ++ leBytes 8 (ctrWord x.evictions)

def ctxQueryBody (q : Req) (s : State) : State × Reply :=
  let c := pl q 0 2
  if 1 < pl q 2 1 then failed .badField s else
  match ctxArg q s c with
  | some st => failed st s
  | none =>
    let out := ctxRecord (ctxOf s c)
    let s := if pl q 2 1 = 1 then
        updCtx c (fun x => { x with commits := {}, busy := {}, overruns := {}, squashes := {}, evictions := {} }) s
      else s
    (s, { payload := out })

def execCtxQuery (m : Nat) (s : State) : Host.Outcome State Fault Refusal :=
  run (m < 80) "mailbox" (runCommand 0x0506 m ctxQueryBody s)

/-! ### Submissions (R362 to R364) -/

/-- The least expected wait of a full queue in µs (R363). -/
def queueWait (s : State) (x : Context) : Nat :=
  match x.step with
  | none => 0
  | some r => min 65535 (cdiv ((r.start + r.bound - s.tmb.free) * 100) 196608)

/-- A STEP_SUBMIT body as a submission. -/
def submissionOf (b : List Byte) (tag : Nat) : Submission :=
  { kind := field b 2 1, noon := bit (field b 3 1) 1, inLen := field b 4 4, inOfs := field b 8 8, outOfs := field b 16 8,
    outLen := field b 24 4, kvCount := field b 28 4, kvOfs := field b 32 8, tag := tag }

/-- An area of a submission outside the share of a partition. -/
def areaBad (s : State) (p a n : Nat) : Bool := n ≠ 0 && !inShare s p a n

/-- The checks of R363 on a STEP_SUBMIT of a context: SUCCESS, or the refusal and its retry_after. -/
def submitStatus (s : State) (ring c : Nat) (b : List Byte) (u : Submission) : Status × Nat :=
  let x := ctxOf s c
  let k := kindOf x u.kind
  let live := x.state = .loaded || x.state = .residing || x.state = .resident || x.state = .running
  if b.length < 48 then (.badLength, 0)
  else if 255 < c || x.subRing ≠ ring || !live || destroying s c then (.contextState, 0)
  else if x.img.kinds.length ≤ u.kind || 65536 < u.kvCount || u.inOfs % 64 ≠ 0 || u.outOfs % 64 ≠ 0
      || 4 ≤ field b 3 1 || field b 40 16 ≠ 0 then (.badField, 0)
  else if k.inMax < u.inLen || k.outMax < u.outLen then (.badLength, 0)
  else if areaBad s x.part u.inOfs u.inLen || areaBad s x.part u.outOfs u.outLen || areaBad s x.part u.kvOfs (4 * u.kvCount)
    then (.badAddress, 0)
  else if s.dev.twilight then (.twilight, 0)
  else if bit (field b 3 1) 0 && !(x.state = .resident || x.state = .running) then (.notResident, 0)
  else if (x.state = .resident || x.state = .running || x.state = .loaded || x.state = .residing) && kindNeverFits s c u.kind
    then (.busy, 0)
  else if x.depth ≤ x.queue.length then (.busy, queueWait s x)
  else (.success, 0)

/-- The done ring of a submission ring: that of the contexts bound to it (R362). -/
def doneRingOf (s : State) (ring : Nat) : Option Nat :=
  (s.srv.ctxs.find? (fun p => p.2.state ≠ .absent && p.2.subRing = ring)).map (fun p => p.2.doneRing)

/-- An accepted submission joins its queue; at an empty one it comes to the head, and a LOADED context asks for residency. -/
def queueUp (c : Nat) (u : Submission) (s : State) : State :=
  let first := (ctxOf s c).queue.isEmpty
  let s := updCtx c (fun x => { x with queue := x.queue ++ [u] }) s
  if !first then s else serve (enterResiding c 1 (stampHead c s))

/-- Refuses an entry with its STEP_DONE. -/
def refuseEntry (done c kind : Nat) (st : Status) (retry tag : Nat) (s : State) : State :=
  let s := if st = .busy then updCtx c (fun x => { x with busy := ctrInc x.busy }) s else s
  emitDone done { ctx := c, kind := kind, status := st, retry := retry, step := (ctxOf s c).rng.step, tag := tag } s

/-- STEP_SUBMIT: the entry at the head of a submission ring is taken (R363, R364). A done ring without room, completions
that wait, or an intake that a context reset holds keep it waiting. -/
def stepSubmit (ring : Nat) (s : State) : State :=
  match headMsg s ring 5, doneRingOf s ring with
  | some (t, tag, k, body), some done =>
    let c := field body 0 2
    let u := submissionOf body tag
    if !(doneWaiting s done).isEmpty || !ringRoom s done 1 then s
    else if t ≠ 0x20 then takeHead ring k (refuseEntry done 0xFFFF 0 .badField 0 tag s)
    else if c < 256 && (ctxOf s c).subRing = ring && (ctxOf s c).held then s
    else match submitStatus s ring c body u with
    | (.success, _) => takeHead ring k (queueUp c u s)
    | (st, retry) => takeHead ring k (refuseEntry done c u.kind st retry tag s)
  | _, _ => s

def execStepSubmit (ring : Nat) (s : State) : Host.Outcome State Fault Refusal :=
  run (ring < 4096) "ring" (stepSubmit ring s)

/-- STEP_DONE: completions that wait for room on a done ring are written (R364). -/
def stepDone (ring : Nat) (s : State) : State := flushDone ring (doneWaiting s ring) s

def execStepDone (ring : Nat) (s : State) : Host.Outcome State Fault Refusal :=
  run (ring < 4096) "ring" (if (doneWaiting s ring).isEmpty then s else stepDone ring s)

/-! ### Batch steps (R357 to R361) -/

/-- The page list of a submission. -/
def pageList (s : State) (u : Submission) : List Nat :=
  (List.range u.kvCount).map (fun i => leNat (hdmRead s (u.kvOfs + 4 * i) 4))

/-- Whether an entry of the page list lies outside the pages of the region that its position addresses (R351). -/
def pageBad (s : State) (c : Nat) (l : List Nat) : Bool :=
  let x := ctxOf s c
  let n := max 1 (x.places.getD x.place {}).shape.regions
  (List.range l.length).any (fun i =>
    ctxRegionBytes s c (Config.pageRegion i % n) 1 / 2 ^ x.img.kvLog2 ≤ l.getD i 0)

/-- Copies the page list into the scratch region of every logical region of the context; where in it is open (R351). -/
def copyPages (c : Nat) (l : List Nat) (s : State) : State :=
  let x := ctxOf s c
  (List.range (x.places.getD x.place {}).shape.regions).foldl (fun s r =>
    storeBytes (regionAt c r 2 Config.pageListOffset) (l.flatMap (leBytes 4)) s) s

/-- A CTX_WRITE of the context, or of weights it uses, runs (R358). -/
def writeRuns (s : State) (c : Nat) : Bool :=
  s.ops.any (fun p => p.2.opcode = 0x0502 && !p.2.finished
    && (p.2.obj = c || (p.2.args.getD 0 0 = 0 && weightsHome s p.2.obj = weightsHome s c)))

/-- Whether the batch step at the head of a context's queue may start now (R358). -/
def mayStart (s : State) (c : Nat) : Bool :=
  let x := ctxOf s c
  x.state = .resident && x.step.isNone && partRuns s c && !x.held && !tabHas s.hlt.ctxReset c && !destroying s c
    && !inPhaseB s && !s.dev.twilight && !writeRuns s c && (match x.queue with
    | [] => false
    | u :: _ => !u.noon || u.launched)

/-- The step as it stands at its start: staged random state, journal and request tags of an older step value gone (R185,
R433, R415). -/
def stepBegins (u : Submission) (k : ImgKind) (now : Nat) (l : List Nat) (x : Context) : Context :=
  let g := applySeed x.rng
  { x with rng := g, journal := if x.journal.1 = g.step then x.journal else (g.step, []),
           acc := if x.acc.1 = g.step then x.acc else (g.step, []),
           step := some { sub := u, start := now, bound := k.stepBound, pages := l,
                          micros := (List.range k.micros.length).map (fun i => (i, {})) } }

/-- The commit of a batch step (R360): the counter, then its completion. -/
def commitStep (c : Nat) (s : State) : State :=
  let s := updCtx c (fun x =>
    { x with rng := { x.rng with step := (x.rng.step + 1) % 2 ^ 64 }, commits := ctrInc x.commits,
             lastStepped := s.tmb.free, journal := (x.journal.1, []), acc := (x.acc.1, []) }) s
  serve (pruneTags (closeStep c .success 0 s))

/-- Whether all that a step did has ended: its micro-steps, fences and requests (R360). -/
def stepOver (s : State) (c : Nat) : Bool :=
  match (ctxOf s c).step with
  | none => false
  | some r => r.micros.all (fun m => m.2.phase = .done)
    && !s.fab.tags.any (fun t => t.2.state = .issued && !t.2.detached && (match t.2.origin with
      | .micro c' _ _ => c' == c
      | _ => false))
    && !s.fab.fences.any (fun f => f.ctx = c) && !s.fab.issueWait.any (fun d => d.2.ctx = some c)

/-- The CAS of a commit bound to a ledger word (R475): once it is sent the step is outside R359. -/
def sendCas (c : Nat) (b : LedgerBind) (s : State) : State :=
  let k := (ctxOf s c).rng.step
  let r : FabReq := { job := b.job, dst := b.device, addr := b.addr, length := 8, operand0 := k,
                      operand1 := (k + 1) % 2 ^ 64 }
  if otherDomain s b.device then endStep c .notPermitted false s
  else if tagWaits s b.device then s
  else (sendTagged (.ledger c) .cas r false .hdm 0 (updStep c (fun r => { r with cas := true }) s)).2

/-- BATCH_STEP_COMMIT: a step with holdings does not commit (R439); a bound one asks its ledger first (R475). -/
def batchStepCommit (c : Nat) (s : State) : State :=
  match (ctxOf s c).step with
  | none => s
  | some r =>
    if !stepOver s c || r.cas then s
    else if !(ctxOf s c).holdings.isEmpty then settleSteps (endOne c .notAsFound 2 false s)
    else match (ctxOf s c).bindLedger with
    | some b => sendCas c b s
    | none => commitStep c s

def execBatchStepCommit (c : Nat) (s : State) : Host.Outcome State Fault Refusal :=
  run (c < 256) "context" (batchStepCommit c s)

/-- BATCH_STEP_START: the page list is checked and copied, micro-steps with no predecessors become ready; a kind of no
micro-steps commits at once (R348, R351, R358). -/
def startStep (c : Nat) (s : State) : State :=
  match (ctxOf s c).queue with
  | [] => s
  | u :: _ =>
    let l := pageList s u
    let s := updCtx c (stepBegins u (kindOf (ctxOf s c) u.kind) s.tmb.free l) (ctxTo c .running 1 s)
    if pageBad s c l then endStep c .badField false s
    else if (kindOf (ctxOf s c) u.kind).micros.isEmpty then batchStepCommit c (copyPages c l s)
    else makeReady c (nowReady s c) (copyPages c l s)

def batchStepStart (c : Nat) (s : State) : State := if mayStart s c then startStep c s else s

def execBatchStepStart (c : Nat) (s : State) : Host.Outcome State Fault Refusal :=
  run (c < 256) "context" (batchStepStart c s)

/-- STEP_BOUND_EXPIRY: OVERRUN at start + step_bound (R359), not once the CAS has gone (R475). -/
def stepBoundExpiry (c : Nat) (s : State) : State :=
  match (ctxOf s c).step with
  | none => s
  | some r => if s.tmb.free < r.start + r.bound || r.cas then s else endStep c .overrun true s

def execStepBoundExpiry (c : Nat) (s : State) : Host.Outcome State Fault Refusal :=
  run (c < 256) "context" (stepBoundExpiry c s)

/-- NOON_HOLD_TIMEOUT: 60 s at the queue head without a STEP_LAUNCH (R365). -/
def noonHoldTimeout (c : Nat) (s : State) : State :=
  match (ctxOf s c).queue with
  | [] => s
  | u :: r =>
    if !u.noon || u.launched || (ctxOf s c).step.isSome || s.tmb.free < u.headTick + 117964800000 then s
    else stampHead c (doneUnstarted c u .timeRange (updCtx c (fun x => { x with queue := r }) s))

def execNoonHoldTimeout (c : Nat) (s : State) : Host.Outcome State Fault Refusal :=
  run (c < 256) "context" (noonHoldTimeout c s)

end Sys2Proof.Machine
end

