-- ==== Sys2Proof/Machine/Table.lean ====
section
/-!
DEFINITION. The meanings of the commands of chapter 07 but the background items (Machine/Power.lean).
-/
namespace Sys2Proof.Machine

/-! ### Sealing (R195, R196, R305, R309) -/

/-- What sealing a slot does for the partition's cells: its decoding jobs, last sealed slot, gains in force, the twin's record. -/
def sealCells (p n : Nat) (es : List TEntry) (s : State) : State :=
  (s.cells.filter (fun c => c.1 / 64 = p && (c.2.state = .running || c.2.state = .moving || c.2.state = .stopping)
      && c.2.firstSlot ≤ n)).foldl (fun s q =>
    let c := q.1 % 64
    let s := buildJobs p c n es s
    let x := cellOf s p c
    let g := (x.nextGains.filter (fun e => e.1 ≤ n)).flatMap (fun e => e.2)
    let s := updCell p c (fun x => { x with
      lastSealed := max x.lastSealed n,
      gains := g.foldl (fun t e => tabPut t e.1 e.2) x.gains,
      nextGains := x.nextGains.filter (fun e => n < e.1) }) s
    if x.role = .active then
      emit (.mirror x.peerDev x.peerPart x.peerCell (.schedule n (mirrorPdus x n) (cellSeqs s p c) (g.map (fun e => (e.1, e.2.1, e.2.2))))) s
    else s) s

/-- The PDUs admitted for a slot that runs the idle instance are reported unfilled (R305); Sweep frames that span it are cut. -/
def unfilledCells (p n : Nat) (s : State) : State :=
  sweepIdle p n <| (s.cells.filter (fun c => c.1 / 64 = p)).foldl (fun s q =>
    let c := q.1 % 64
    let a := tabGet (cellOf s p c).admitted n {}
    let rej : List Reject := a.dl.map (fun e => (false, 6, 0, e.1)) ++ a.ul.map (fun e => (true, 6, 0, e.1))
    let keep : Admitted := { ul := a.ul.filter (fun e => e.2.kind = .prach) }
    kReject p c n (rej.filter (fun r => !(r.1 && keep.ul.any (fun e => e.1 = r.2.2.2))))
      (updCell p c (fun x => { x with admitted := if tabHas x.admitted n then tabPut x.admitted n keep else x.admitted }) s)) s

/-- Whether a twinned cell holds back the sealing of a slot (R309). -/
def twinHolds (s : State) (p n : Nat) (t : FrameTable) : Bool :=
  s.cells.any (fun c => c.1 / 64 = p && c.2.role ≠ .unpaired) && corrNow s < tStart s t (n - 2)

/-- The slot's parameter block in sequencer memory (R193, R194). -/
def sealParams (i : InstSpec) (s : State) : State :=
  let a := i.paramBase * seqGranule
  s.setMem (memWriteBytes s.mem (seqAt a) ((i.params.take (min (64 * i.paramLen) (seqSize - a)))))

/-- SEAL of an instance: sealed when every check of R195 passes, else the slot runs the idle instance. -/
def sealInst (k : Nat) (i : InstSpec) (s : State) : State :=
  let t := tableOf s k
  let n := i.slot
  let live := t.state = .armed || t.state = .running || (t.state = .stopping && tStart s t n < t.stopSlot)
  if !live || (instAt t n).isSome || s.hlt.leaving || (k < 8 && twinHolds s t.part n t) then s
  else
    let inst : Inst := { slot := n, start := tStart s t n, entries := i.entries, sealed := true, paramBase := i.paramBase,
                         paramLen := i.paramLen }
    let others := (allSealed s).filter (fun x => !(x.table = k && x.slot % 8 = n % 8))
    let reason := if tStart s t (n - 1) ≤ corrNow s then 1 else sealReason s k t inst others
    if reason ≠ 0 then
      let s := fillIdle k n reason s
      if k < 8 then unfilledCells t.part n s else s
    else
      let s := sealParams i (updTable k (fun t => { t with insts := tabPut t.insts (n % 8) inst }) s)
      if k < 8 then sealCells t.part n i.entries s else s

def execSeal (table : Nat) (i : InstSpec) (s : State) : Host.Outcome State Fault Refusal :=
  run (table < 9 && i.entries.length ≤ 2048) "instance" (sealInst table i s)

/-- Writes the reports of past slots that reserved nothing. -/
def reportEmpty (k n : Nat) (s : State) : State :=
  ((tableOf s k).insts.filter (fun i => i.2.slot + 1 < n && !i.2.reported && slotOver s k i.2)).foldl
    (fun s i => slotReport k i.2.slot s) s

/-- The table's end: once all its slots are over a stopping table is LOADED (R219, R221). -/
def tableEnd (k : Nat) (s : State) : State :=
  let t := tableOf s k
  if t.state ≠ .stopping then s else
  let last := t.insts.any (fun i => tStart s t (i.2.slot + 1) = t.stopSlot)
  if (t.stopSlot ≤ corrNow s || last) && t.insts.all (fun i => slotOver s k i.2) then
    tableTo k .loaded (tStart s t (slotAt s.win.frameOfs t.mu t.ecp t.stopSlot - 1))
      (updTable k (fun t => { t with insts := [], n0 := 0 }) s)
  else s

/-! ### Launch and end of stages (R197 to R202, R214) -/

/-- An entry whose unit is still reserved is not launched (R202). -/
def entryOverlap (k n p : Nat) (e : TEntry) (u : Nat) (old : Reservation) (s : State) : State :=
  let t := tableOf s k
  let s := fault { code := 4, part := t.part, unit := u, owner := if k = 8 then 264 else 256 + k, table := k, entry := p,
                   cell := e.cell, slotStart := tStart s t n,
                   detail := leBytes 1 old.table ++ leBytes 1 old.entry.cell ++ leBytes 2 old.pos
                     ++ leBytes 8 (tStart s (tableOf s old.table) old.slot) } s
  if e.kind = 1 then s else
  let slack : Int := (e.deadlineOfs : Int) - (e.launchOfs + e.budget)
  addStage { table := k, slot := n, entry := p, unit := u, cell := e.cell, status := 2, slack := slack, run := e.budget,
             cause := 2, position := 0xFFFFFFFF } (markFailed k n e.cell s)

/-- An entry's reservation instant: fence, launch, reservation (R197, R198). A due entry that launches before it goes first. The
instance and the units' scoreboards are read from memories held in two copies (R466). -/
def entryLaunch (k n p : Nat) (errs : List (CtlMem × Nat)) (s : State) : State :=
  let t := tableOf s k
  match instAt t n with
  | none => s
  | some i =>
    let e := i.entries.getD p {}
    let live := (t.state = .running || t.state = .stopping) && slotCounts s t n
    let me : Sealed := { table := k, slot := n, pos := p, entry := e, tick := tStart s t n + e.launchOfs }
    if !live || (dueEntries s).any (fun x => launchBefore s x me) || i.entries.length ≤ p || !reserves e || i.gone.contains p || corrNow s < tStart s t n + e.launchOfs then s
    else
      let us := entryUnits e
      let (ok, s) := ctlRead ((.sequencer, k) :: us.map (fun u => (.scoreboard, u))) errs s
      if !ok then s else
      let s := updInst k n (fun i => { i with gone := i.gone ++ [p] }) s
      match us.findSome? (fun u => (resvOn s u).map (fun r => (u, r))) with
      | some (u, r) => entryOverlap k n p e u r s
      | none =>
        let s := us.foldl (fenceUnit k n p e) s
        let f := firstTick s (tStart s t n + e.launchOfs)
        let r : Reservation := { table := k, slot := n, pos := p, entry := e, start := f, finish := f + e.budget,
                                 deadline := tStart s t n + e.deadlineOfs }
        let s := updTts (fun t => { t with resv := t.resv ++ [r] }) s
        if e.kind = 1 then s
        else us.foldl (startUnit (.radio k n p) (256 + k) e.param 0 e.program) s

def execEntryLaunch (table slot pos : Nat) (errs : List (CtlMem × Nat)) (s : State) : Host.Outcome State Fault Refusal :=
  run (table < 9) "table" (entryLaunch table slot pos errs s)

/-- Whether every LAUNCH entry of a cell in a slot has been served and has ended. -/
def cellStagesDone (s : State) (k n cell : Nat) : Bool :=
  match instAt (tableOf s k) n with
  | none => false
  | some i =>
    (instSealed s k (tableOf s k) i).all (fun x => x.entry.kind ≠ 0 || x.entry.cell ≠ cell
      || (i.gone.contains x.pos && (match resvOf s k n x.pos with
        | some r => r.ended.isSome
        | none => true)))

/-- Whether a unit runs an entry's stage and stands at its program's end (R200). -/
def stageAtEnd (s : State) (k n p u : Nat) : Bool := (unitRun s u).holder = .radio k n p && !(unitRun s u).stopped && atEnd s u

/-- A stage ends on every unit (R200): its units are idle but stay reserved; the last of a cell's stages delivers (R199, R271). -/
def stageEnd (k n p : Nat) (s : State) : State :=
  match resvOf s k n p with
  | none => s
  | some r =>
    if r.ended.isSome || r.entry.kind = 1 || r.finish ≤ s.tmb.free || !(entryUnits r.entry).all (stageAtEnd s k n p) then s
    else
      let s := updResv k n p (fun r => { r with ended := some s.tmb.free }) (clearUnits (entryUnits r.entry) s)
      let part := (tableOf s k).part
      if cellStagesDone s k n r.entry.cell then
        deliver part r.entry.cell n (((instAt (tableOf s k) n).map (fun i => i.idle)).getD false) s
      else s

def execStageEnd (table slot pos : Nat) (s : State) : Host.Outcome State Fault Refusal :=
  run (table < 8) "table" (stageEnd table slot pos s)

/-- A stage not ended at its budget's end: stopped, marked, recorded, posted (R200). -/
def stageOverrun (k n p : Nat) (e : TEntry) (s : State) : State :=
  let u := ((entryUnits e).find? (fun u => (unitRun s u).holder ≠ .idle)).getD e.unitBase
  let t := tableOf s k
  let pos := unitPosition s u
  let s := failStage k n p 1 u s
  let s := updTable k (fun t => { t with overruns := ctrInc t.overruns }) s
  let s := fault { code := 3, status := some .hung, part := t.part, unit := u, owner := 256 + k, table := k, entry := p,
                   cell := e.cell, position := pos, slotStart := tStart s t n } s
  post { code := 0x0442, part := t.part, status := .hung, detail := leBytes 1 u ++ leBytes 1 e.cell ++ leBytes 2 p
         ++ leBytes 8 (tStart s t n) ++ leBytes 4 pos } s

/-- Frees all a table holds and empties it (R222). -/
def unloadTable (k : Nat) (s : State) : State :=
  let s := tableTo k .empty 0 s
  let s := sbFreeOwner (256 + k) (freeShares (256 + k) s)
  tablesChanged (updTts (fun t => { t with tables := tabDel t.tables k,
                                           stages := t.stages.filter (fun r => r.table ≠ k) }) s)

/-! ### A partition's reset at its table (R380) -/

/-- The long operations that a reset sequence ends in its step 3: all of the partition but the sequence's own. The status
they end with is open (assumption 25). -/
def endPartOps (p : Nat) (s : State) : State :=
  let mine := s.ops.filter (fun o => o.2.part = p && !o.2.finished && o.2.opcode ≠ 0x0201 && o.2.opcode ≠ 0x0202)
  let s := mine.foldl (fun s o =>
    let (st, s) := drawStatus s
    finishOp o.1 st [] s) s
  let s := updSrv (fun v => { v with creating := v.creating.filter (fun x => x.2.2.part ≠ p) }) s
  updTts (fun t => { t with loads := t.loads.filter (fun l => !(mine.map (fun o => o.1)).contains l.1) }) s

/-- Step 3 of R380: queued submissions and running batch steps complete with ABORTED; then step 4 runs. -/
def resetStep3 (p : Nat) (s : State) : State :=
  let mine := (s.srv.ctxs.filter (fun x => x.2.part = p)).map (fun x => x.1)
  let s := mine.foldl (fun s c => endOne c .aborted 4 true (dropNotStarted c .aborted s)) s
  let s := endPartOps p (settleSteps s)
  updPart p (fun x => { x with step := 4, stepTick := s.tmb.free }) s

/-- The end of step 2 of R380, once the table of the partition has stopped: it is unloaded, the cells pass to ABSENT. -/
def resetStep2 (p : Nat) (s : State) : State :=
  let wait := match partTable s p with
    | none => false
    | some k => (tableOf s k).state = .running || (tableOf s k).state = .stopping
  if (partOf s p).step ≠ 2 || wait then s else
  let s := ((s.cells.filter (fun c => c.1 / 64 = p)).map (fun c => c.1 % 64)).foldl (fun s c => destroyCell p c s) s
  let s := match partTable s p with
    | none => s
    | some k => if (tableOf s k).state = .empty then s else unloadTable k s
  resetStep3 p s

/-- The seal line of slot n: a slot not sealed runs the idle instance (R195, R305). -/
def sealLine (k n : Nat) (s : State) : State :=
  let t := tableOf s k
  let live := t.state = .running || (t.state = .stopping && tStart s t n < t.stopSlot)
  if !live || corrNow s < tStart s t (n - 1) || n < t.n0 then s
  else
    let s := if (instAt t n).isSome || t.insts.any (fun i => n < i.2.slot) then s
      else unfilledCells t.part n (fillIdle k n 1 s)
    resetStep2 (tableOf s k).part (tableEnd k (reportEmpty k n s))

def execSealLine (table slot : Nat) (s : State) : Host.Outcome State Fault Refusal :=
  run (table < 8) "table" (sealLine table slot s)

/-- The end of a reservation: judged, recorded, freed; then slot, cells and table (R200, R201, R291, R292). -/
def reservationEnd (k n p : Nat) (s : State) : State :=
  match resvOf s k n p with
  | none => s
  | some r0 =>
    if s.tmb.free < r0.finish then s else
    let s := if r0.entry.kind = 0 && r0.ended.isNone then stageOverrun k n p r0.entry s
      else s
    let r := (resvOf s k n p).getD r0
    let s := updTts (fun t => { t with resv := t.resv.filter (fun q => !(q.table = k && q.slot = n && q.pos = p)) }) s
    if k = 8 then s else
    let slack : Int := (r.deadline : Int) - corrected s.tmb r.finish
    let st := if r.cause = 1 then 1 else if r.cause = 2 then 2 else if r.cause ≠ 0 || marked s k n r.entry.cell then 3 else 0
    let run := match r.ended with
      | some e => if r.cause = 1 then r.entry.budget else e - r.start
      | none => r.entry.budget
    let s := if r.entry.kind = 1 then s else
      addStage { table := k, slot := n, entry := p, unit := r.entry.unitBase, cell := r.entry.cell, status := st,
                 slack := slack, run := run, cause := r.cause, position := r.position } s
    let s := match instAt (tableOf s k) n with
      | some i => if slotOver s k i && !i.reported then slotReport k n s else s
      | none => s
    let p := (tableOf s k).part
    resetStep2 p (tableEnd k (cellsEnd p s))

def execReservationEnd (table slot pos : Nat) (s : State) : Host.Outcome State Fault Refusal :=
  run (table < 9) "table" (reservationEnd table slot pos s)

/-! ### Lent work (R206 to R212) -/

def execLendDecision (s : State) : Host.Outcome State Fault Refusal := run true "" (lendAll s)

/-- A micro-step at effective priority 0 that has waited block_after becomes blocking (R210). -/
def microBlocking (c m : Nat) (s : State) : State :=
  updTts (fun t => { t with ready := t.ready.map (fun q =>
    if q.ctx = c && q.micro = m && effPrio s q = 0 && s.tts.blockAfter ≤ s.tmb.free - q.ready then { q with blocking := true }
    else q) }) s

def execMicroStepBlocking (ctx micro : Nat) (s : State) : Host.Outcome State Fault Refusal :=
  run (ctx < 256) "context" (microBlocking ctx micro s)

def execMicroStepEnd (ctx micro : Nat) (s : State) : Host.Outcome State Fault Refusal :=
  run (ctx < 256) "context" (microEnd ctx micro s)

/-! ### Commands (R222 to R224) -/

/-- TABLE_LOAD: checks 1 to 4 at once, the others when the operation ends (R223). -/
def tableLoadBody (t : Option Template) (q : Req) (s : State) : State × Reply :=
  match (if q.target = 0xFF then none else partTable s q.target) with
  | none => failed .partitionState s
  | some k =>
    let loading := s.tts.loads.any (fun l => l.2.1 = q.target)
    if (tableOf s k).state ≠ .empty || loading then failed .partitionState s
    else if 3 < pl q 0 1 || 1 < pl q 1 1 || (pl q 1 1 = 1 && pl q 0 1 ≠ 2) then failed .badField s
    else if pl q 4 4 = 0 then failed .zeroNotAllowed s
    else if !inShare s q.target (pl q 8 8) (pl q 4 4) then failed .badAddress s
    else longOp q q.target [pl q 0 1, pl q 1 1] (fun h s =>
      updTts (fun x => { x with loads := tabPut x.loads h (q.target, t.getD { wellFormed := false }) }) s) s

def execTableLoad (m : Nat) (t : Option Template) (s : State) : Host.Outcome State Fault Refusal :=
  run (m < 80) "mailbox" (runCommand 0x0440 m (tableLoadBody t) s)

/-- Entries bound to physical units. -/
def boundEntries (b : Binding) (l : List TEntry) : List TEntry := l.map (fun e => { e with unitBase := bindUnit b e.unitBase })

/-- The reason an idle instance fails the checks of R195 against the sealed instances, in any slot that can meet them. -/
def idleReason (s : State) (k : Nat) (t : FrameTable) : Nat :=
  let cur := slotAt s.win.frameOfs t.mu t.ecp (corrNow s)
  let at_ := fun n => ({ slot := n, start := tStart s t n, entries := t.idleEntries, idle := true } : Inst)
  let far := (allSealed s).foldl (fun m x => max m (x.tick + x.entry.budget)) 0
  let count := max 12 (slotAt s.win.frameOfs t.mu t.ecp far + 2 - cur)
  ((List.range count).map (fun i =>
    let n := cur + i
    let own := (List.range 3).flatMap (fun j => instSealed s k t (at_ (n + 1 + j)))
    sealReason s k t (at_ n) (allSealed s ++ own))).foldl (fun a r => if a = 0 then r else a) 0

/-- Whether every unit keeps a gap for its background window (R496) with the tables given. -/
def gapsRemain (s : State) (ts : List FrameTable) (window : Nat) : Bool :=
  let us := (List.range 0xF0).filter (fun u => unitExists s.grade u && unitKind u < 3)
  us.all (fun u => window ≤ longestGap 19660800 (ts.flatMap (idleBusy u)))

/-- The tables loaded. -/
def loadedTables (s : State) : List FrameTable :=
  (s.tts.tables.filter (fun p => p.1 < 8 && p.2.state ≠ .empty)).map (fun p => p.2)

/-- Shares a radio placement needs at the first free ranges, or none (R98). -/
def radioShares (s : State) (needs : List (Nat × Nat)) : Option (List (Nat × Nat × Nat)) :=
  needs.mapM (fun n => (freeRange s n.1 (tableTotal n.1) n.2).map (fun b => (n.1, b, n.2)))

/-- The outcome of a load's checks 5 to 10: a status with its result, or the table and its shares (R223). -/
def loadCheck (s : State) (p k mu : Nat) (ecp : Bool) (t : Template) :
    Except (Status × List Byte) (FrameTable × List (Nat × Nat × Nat)) :=
  if bufsZero t.placement then .error (.zeroNotAllowed, [])
  else if !t.wellFormed || t.mu ≠ mu || t.ecp ≠ ecp || (progOps t.placement).any notForRadio || !programsOk t.placement
      || !shapeFits s.grade t.placement.shape || !layoutOk true t.placement || !bufsOk true t.placement then
    .error (.imageInvalid, [])
  else if trafficBad (shortSlot { mu := mu, ecp := ecp }) t || 2500000 < t.learnedOps || s.hlt.radioWindow ≤ t.longestWait then .error (.badField, [])
  else if t.cells.any (fun c => !c.withinBudget) then .error (.overBudget, [])
  else match bindFor s t.placement.shape true (stackFreeGb s) with
  | none => .error (.noResource, [])
  | some b =>
    match radioShares s (shareNeeds b t.placement) with
    | none => .error (.noResource, [])
    | some sh =>
      let tab : FrameTable := { part := p, mu := mu, ecp := ecp, tmpl := t, bind := b, idleEntries := boundEntries b t.idle }
      let r := idleReason s k tab
      if r ≠ 0 then .error (.badField, leBytes 1 r)
      else if !gapsRemain s (loadedTables s ++ [tab]) s.bg.window then .error (.badField, [])
      else .ok (tab, sh)

/-- A load finishes: the table is LOADED with its idle instance sealed, or stays EMPTY (R222, R223). -/
def tableLoadDone (h : Nat) (s : State) : State :=
  match tabFind? s.tts.loads h, opOf s h with
  | some (p, t), some o =>
    let s := updTts (fun x => { x with loads := tabDel x.loads h }) s
    match partTable s p with
    | none => finishOp h .noPartition [] s
    | some k =>
      match loadCheck s p k (o.args.getD 0 0) (o.args.getD 1 0 = 1) t with
      | .error (st, res) => finishOp h st res s
      | .ok (tab, sh) =>
        let s := updTable k (fun _ => tab) s
        let s := sh.foldl (fun s r => setShare r.1 (256 + k) r.2.1 r.2.2 s) s
        let s := writePrograms (256 + k) tab.bind t.placement (writeBufs (256 + k) tab.bind t.placement s)
        finishOp h .success [] (tablesChanged (tableTo k .loaded 0 s))
  | _, _ => s

def execTableLoadDone (h : Nat) (s : State) : Host.Outcome State Fault Refusal :=
  run (h < 64) "handle" (tableLoadDone h s)

def tableUnloadBody (q : Req) (s : State) : State × Reply :=
  match (if q.target = 0xFF then none else partTable s q.target) with
  | none => failed .partitionState s
  | some k => if (tableOf s k).state ≠ .loaded then failed .partitionState s else (unloadTable k s, reply .success)

def execTableUnload (m : Nat) (s : State) : Host.Outcome State Fault Refusal :=
  run (m < 80) "mailbox" (runCommand 0x0441 m tableUnloadBody s)

/-- The first slot whose start is at or after a corrected tick. -/
def slotFrom (s : State) (t : FrameTable) (c : Nat) : Nat :=
  let n := slotAt s.win.frameOfs t.mu t.ecp c
  if c ≤ tStart s t n then n else n + 1

/-- Stops a running table at a corrected tick (R221); the table ends at once where nothing is left. -/
def stopTable (k tick : Nat) (s : State) : State :=
  let t := tableOf s k
  let n := slotFrom s t (max tick (corrNow s + 19661))
  let st := tStart s t n
  let s := tableTo k .stopping (tStart s t (n - 1)) s
  tableEnd k (updTable k (fun t => { t with stopSlot := st, insts := t.insts.filter (fun i => i.2.slot < n) }) s)

def tableStopBody (q : Req) (s : State) : State × Reply :=
  match (if q.target = 0xFF then none else partTable s q.target) with
  | none => failed .partitionState s
  | some k =>
    if (tableOf s k).state ≠ .running then failed .partitionState s
    else
      let t := tableOf s k
      let st := tStart s t (slotFrom s t (max (pl q 0 8) (corrNow s + 19661)))
      (stopTable k (pl q 0 8) s, { payload := leBytes 8 st })

def execTableStop (m : Nat) (s : State) : Host.Outcome State Fault Refusal :=
  run (m < 80) "mailbox" (runCommand 0x0442 m tableStopBody s)

/-- The record of R224. -/
def tableRecord (s : State) (k : Nat) : List Byte :=
  let t := tableOf s k
  let cur := if t.state = .running then curSlot s t else 0
  leBytes 8 (tableCode t.state + 8 * t.mu + 32 * b2n t.ecp) ++ leBytes 8 cur ++ leBytes 8 (sealedThrough t)
    ++ leBytes 8 (ctrWord t.unfilled) ++ leBytes 8 (ctrWord t.overruns) ++ leBytes 8 t.stopSlot

def tableStatusBody (q : Req) (s : State) : State × Reply :=
  match (if q.target = 0xFF then none else partTable s q.target) with
  | none => failed .partitionState s
  | some k => (s, { payload := tableRecord s k })

def execTableStatus (m : Nat) (s : State) : Host.Outcome State Fault Refusal :=
  run (m < 80) "mailbox" (runCommand 0x0443 m tableStatusBody s)

/-- LEND_CONFIG: a change of the tables for R211 and R361 (R222, R223). -/
def lendConfigBody (q : Req) (s : State) : State × Reply :=
  let d := pl q 0 4
  if d = 0 || pl q 4 4 = 0 || pl q 8 4 = 0 then failed .zeroNotAllowed s
  else if 196608 < d || 15 < pl q 12 1 then failed .badField s
  else
    (tablesChanged (updTts (fun t => { t with duskMargin := d, ageStep := pl q 4 4, blockAfter := pl q 8 4,
                                              retryLimit := pl q 12 1 }) s), reply .success)

def execLendConfig (m : Nat) (s : State) : Host.Outcome State Fault Refusal :=
  run (m < 80) "mailbox" (runCommand 0x0444 m lendConfigBody s)

end Sys2Proof.Machine
end

