-- ==== Sys2Proof/Machine/Noon.lean ====
section
/-!
DEFINITION. Noon (R73 to R77): arming, disarming, and what a comparator does when it fires (R220, R310, R365).
-/
namespace Sys2Proof.Machine

/-- Comparator k. -/
def noonOf (s : State) (k : Nat) : Noon := tabGet s.noon k {}

/-- Sets comparator k. -/
def setNoon (k : Nat) (n : Noon) (s : State) : State := s.setNoon (tabPut s.noon k n)

/-- The comparator pending under an identity of a partition. -/
def pendingArm (s : State) (part id : Nat) : Option Nat :=
  (s.noon.find? (fun n => n.2.state = .pending && n.2.part = part && n.2.id = id)).map (fun n => n.1)

/-- A table of the partition leaves LOADED for ARMED, or ARMED for LOADED (R219). -/
def armTable (p t : Nat) (s : State) : State :=
  match partTable s p with
  | none => s
  | some k =>
    if (tableOf s k).state = .loaded then
      tableTo k .armed t (updTable k (fun x => { x with n0 := slotFrom s x t }) s)
    else s
/-- The sealed instances of an armed table lapse (R204). -/
def lapse (k : Nat) (s : State) : State := updTable k (fun t => { t with insts := [], n0 := 0 }) s
def disarmTable (p t : Nat) (s : State) : State :=
  match partTable s p with
  | none => s
  | some k => if (tableOf s k).state = .armed then tableTo k .loaded t (lapse k s) else s

/-- NOON_ARM: the checks of R73 in their order; which free comparator takes the arming is open (assumption 2). -/
def noonArmBody (q : Req) (s : State) : State × Reply :=
  let t := pl q 0 8
  let act := pl q 8 1
  let id := pl q 10 2
  let arg := pl q 12 4
  let arg2 := pl q 16 8
  if isVf q.m && (act = 1 || act = 2) then failed .notPermitted s
  else if s.tmb.state = .freerun || s.tmb.state = .acquire then failed .notLocked s
  else if t < corrNow s + 19661 then failed .late s
  else if corrNow s + 117964800000 < t then failed .timeRange s
  else if 3 < act || (pendingArm s q.target id).isSome || (act ≠ 0 && q.target = 0xFF)
      || (act = 1 && (arg ≠ 0 || arg2 ≠ 0)) || (act = 3 && (256 ≤ arg || 4294967296 ≤ arg2)) then failed .badField s
  else match pickFree 16 (fun k => (noonOf s k).state = .pending) s with
  | (none, s) => failed .noResource s
  | (some k, s) =>
    let old := fun (n : Noon) => if n.part = q.target && n.id = id then { n with wasFired := false } else n
    let s := s.setNoon (s.noon.map (fun n => (n.1, old n.2)))
    let s := setNoon k { tick := t, id := id, part := q.target, action := act, state := .pending, arg := arg, arg2 := arg2,
                         tag := q.cmd.tag } s
    (if act = 1 then armTable q.target t s else s, { payload := leBytes 1 k })

def execNoonArm (m : Nat) (s : State) : Host.Outcome State Fault Refusal :=
  run (m < 80) "mailbox" (runCommand 0x0305 m noonArmBody s)

/-- NOON_DISARM (R75). -/
def noonDisarmBody (q : Req) (s : State) : State × Reply :=
  let id := pl q 0 2
  match pendingArm s q.target id with
  | some k =>
    let n := noonOf s k
    if n.tick ≤ corrNow s then failed .late s
    else
      let s := setNoon k { n with state := .free } s
      (if n.action = 1 then disarmTable n.part n.tick s else s, reply .success)
  | none =>
    if s.noon.any (fun n => n.2.wasFired && n.2.part = q.target && n.2.id = id) then failed .late s
    else failed .badField s

def execNoonDisarm (m : Nat) (s : State) : Host.Outcome State Fault Refusal :=
  run (m < 80) "mailbox" (runCommand 0x0306 m noonDisarmBody s)

/-! ### Firing -/

/-- Whether T is a slot start of a table's grid (R220). -/
def isSlotStart (s : State) (t : FrameTable) (at_ : Nat) : Bool :=
  tStart s t (slotAt s.win.frameOfs t.mu t.ecp at_) = at_

/-- Whether the instance of a slot is sealed. -/
def sealedAt (t : FrameTable) (n : Nat) : Bool := ((instAt t n).map (fun i => i.sealed)).getD false

/-- TABLE_START (R220, R461). A table that is not ARMED does not start, and what status the event carries then is open. -/
def tableStart (p at_ : Nat) (s : State) : State × Status :=
  match partTable s p with
  | none => let (st, s) := drawStatus s; (s, st)
  | some k =>
    let t := tableOf s k
    let n0 := slotAt s.win.frameOfs t.mu t.ecp at_
    if t.state ≠ .armed then let (st, s) := drawStatus s; (s, st)
    else if inPhaseB s then (tableTo k .loaded at_ (lapse k s), .busy)
    else if !isSlotStart s t at_ then (tableTo k .loaded at_ (lapse k s), .timeRange)
    else if !sealedAt t n0 || !sealedAt t (n0 + 1) then (tableTo k .loaded at_ (lapse k s), .slotLate)
    else (tableTo k .running at_ (updTable k (fun t => { t with n0 := n0, stopSlot := 0xFFFFFFFFFFFFFFFF }) s), .success)

/-- A cell becomes MOVING and writes COMMIT(n) to its standby (R310). -/
def beginMove (p c n : Nat) (s : State) : State :=
  let x := cellOf s p c
  let s := sweepMove p c n s
  emit (.twinCommit x.peerDev x.peerPart x.peerCell n)
    (updCell p c (fun x => { x with moveTo := some n }) (cellTo p c .moving n s))

/-- TWIN_MOVE: the checks of the active; a standby notes the slot from which it holds messages (R310). In phase A of a grid
reset a cell whose move is refused stops (R460). -/
def twinMove (p c n at_ : Nat) (s : State) : State × Status :=
  let x := cellOf s p c
  if x.state = .standby then (updCell p c (fun x => { x with heldFrom := some n }) s, .success)
  else if x.state ≠ .running then (s, .cellState)
  else
    let stop := fun (s : State) => if inPhaseA s then stopCell p c s else s
    if x.role ≠ .active then (stop s, .twinUnavailable)
    else if n < 2 || cellStart s x (n - 2) < at_ then (stop s, .timeRange)
    else (beginMove p c n s, .success)

/-- Noon submissions with a tag, but a running one, complete with LATE (R365). -/
def lateNoon (c tag : Nat) (s : State) : State :=
  let k := if (ctxOf s c).step.isSome then 1 else 0
  let late := fun (u : Submission) => u.noon && u.tag = tag
  let head := (ctxOf s c).queue.head?
  let out := ((ctxOf s c).queue.drop k).filter late
  let s := updCtx c (fun x => { x with queue := x.queue.take k ++ (x.queue.drop k).filter (fun u => !late u) }) s
  let s := out.foldl (fun s u => doneUnstarted c u .late s) s
  if (ctxOf s c).queue.head? = head then s else stampHead c s

/-- STEP_LAUNCH (R365, R383, R461): the step starts now if R358 lets it. -/
def stepLaunch (p c tag : Nat) (s : State) : State × Status :=
  let x := ctxOf s c
  if x.state = .absent || x.part ≠ p then (s, .contextState)
  else
    let hit := match x.queue.head? with
      | some u => u.noon && u.tag = tag
      | none => false
    if hit && x.state = .resident && partRuns s c && !inPhaseB s then
      (batchStepStart c (updCtx c (fun x => { x with queue := match x.queue with
        | [] => []
        | u :: r => { u with launched := true } :: r }) s), .success)
    else (lateNoon c tag s, .contextState)

/-- NOON_FIRED: a pending comparator whose tick corrected time has reached starts its action, after those of lower number that
are due; the event follows and frees it (R74, R80). -/
def noonFired (k : Nat) (s : State) : State :=
  let n := noonOf s k
  let due := fun (n : Noon) => n.state = .pending && n.tick ≤ corrNow s
  if !due n || (firstBelow k (fun j => due (noonOf s j))).isSome then s else
  let s := setNoon k { n with state := .fired, wasFired := true } s
  let (s, st) := if n.action = 1 then tableStart n.part n.tick s
    else if n.action = 2 then twinMove n.part n.arg n.arg2 n.tick s
    else if n.action = 3 then stepLaunch n.part n.arg n.arg2 s
    else (s, .success)
  let s := post { code := 0x0302, part := n.part, tag := n.tag, status := st, opcode := 0x0305,
                  detail := leBytes 1 k ++ leBytes 1 n.action ++ leBytes 2 n.id ++ leBytes 8 n.tick ++ leBytes 8 s.tmb.free
                    ++ leBytes 1 (servoCode s.tmb.state) } s
  setNoon k { n with state := .free, wasFired := true } s

def execNoonFired (k : Nat) (s : State) : Host.Outcome State Fault Refusal := run (k < 16) "comparator" (noonFired k s)

/-- Drops the armings of a partition with a status (R76, R380). -/
def dropArmings (p : Nat) (st : Status) (s : State) : State :=
  (s.noon.filter (fun n => n.2.part = p && n.2.state = .pending)).foldl (fun s e =>
    let n := e.2
    post { code := 0x0303, part := p, status := st,
           detail := leBytes 1 e.1 ++ leBytes 1 n.action ++ leBytes 2 n.id ++ leBytes 8 n.tick }
      (let s := setNoon e.1 { n with state := .free } s
       if n.action = 1 then disarmTable p n.tick s else s)) s

end Sys2Proof.Machine
end

