-- ==== Sys2Proof/Machine/Sync.lean ====
section
/-!
DEFINITION. The meanings of the commands of chapter 15: SYNC descriptors and their lists, the object commands, the
determinism mode.
-/
namespace Sys2Proof.Machine

/-! ### SYNC descriptors (R431, R433) -/

/-- A SYNC descriptor is issued: it is only recorded. -/
def syncDescriptor (c m : Nat) (d : SyncDesc) (s : State) : State :=
  match lentOf s c m with
  | none => s
  | some r =>
    let u := bindUnit (ctxOf s c).bind d.unit
    if !r.units.contains u || !working s u then s
    else issued u (updMicro c m (fun q => { q with sync := q.sync ++ [d] }) s)

def execSyncDescriptor (c m : Nat) (d : SyncDesc) (s : State) : Host.Outcome State Fault Refusal :=
  run (c < 256) "context" (syncDescriptor c m d s)

/-- The list at the front of the engine is applied: its bit is set in the journal; a status other than SUCCESS marks the
step to end; then all that the grants lead to. -/
def syncListApply (c m : Nat) (s : State) : State :=
  match s.syn.lists with
  | [] => s
  | l :: rest =>
    if l.2 ≠ (c, m) then s else
    let list := listOrder (microOf s c m).sync
    let s := updSyn (fun y => { y with lists := rest }) s
    let (s, st, sends) := applyList c m list s
    let s := updMicro c m (fun q => { q with sync := [] }) s
    let s := updCtx c (fun x => { x with journal := (x.journal.1, x.journal.2 ++ [m]) }) s
    let s := if st = .success then s else failStep c st s
    sendBarriers sends (settleSync s)

def execSyncListApply (c m : Nat) (s : State) : Host.Outcome State Fault Refusal :=
  run (c < 256) "context" (syncListApply c m s)

/-! ### SYNC_CREATE, SYNC_DESTROY, SYNC_RESET (R434, R435, R442, R443) -/

/-- An object as SYNC_CREATE makes it (R442): its state from the initial value, phase and arrivals 0, no holder. -/
def freshObj (type part initial limit participants : Nat) (flags job home members : Nat) : SyncObj :=
  { type := type, part := part, initial := initial, limit := if type = 3 then limit else 0,
    value := if type = 1 then initial else 0, set := type = 2 && bit initial 0,
    count := if type = 3 then initial else 0, participants := if type = 5 then participants else 0,
    distributed := bit flags 0, home := bit flags 1, job := job, homeDev := home, members := members }

/-- The fields SYNC_CREATE refuses with BAD_FIELD (R443). -/
def syncFieldsBad (s : State) (q : Req) : Bool :=
  let type := pl q 2 1
  let flags := pl q 3 1
  let members := pl q 32 8
  type = 0 || 5 < type || 8 ≤ flags || (bit flags 2 && bit flags 0)
    || (type = 5 && 65536 < pl q 4 4) || (type = 3 && pl q 16 4 < pl q 8 8) || (bit flags 0 && type ≠ 5)
    || (bit flags 1 && members = 0) || (!bit flags 1 && members ≠ 0)
    || (bit flags 0 && !(partOf s q.target).jobs.contains (pl q 20 4)) || bit members (s.fab.device % 64)

/-- Objects of a partition. -/
def partObjects (s : State) (p : Nat) : Nat := (s.syn.objs.filter (fun o => o.2.type ≠ 0 && o.2.part = p)).length

def syncCreateBody (q : Req) (s : State) : State × Reply :=
  let type := pl q 2 1
  let flags := pl q 3 1
  if 64 ≤ q.target then failed .partitionState s
  else if (type = 5 && pl q 4 4 = 0) || (type = 3 && pl q 16 4 = 0) then failed .zeroNotAllowed s
  else if syncFieldsBad s q then failed .badField s
  else
    let used := fun n => (objOf s n).type ≠ 0
    let at_ := if bit flags 2 then firstBelow 65536 (fun n => !used n) else if used (pl q 0 2) then none else some (pl q 0 2)
    match at_ with
    | none => failed .noResource s
    | some n =>
      if (partOf s q.target).syncObjects ≤ partObjects s q.target then failed .quota s
      else
        let o := freshObj type q.target (pl q 8 8) (pl q 16 4) (pl q 4 4) flags (pl q 20 4) (pl q 24 2) (pl q 32 8)
        (updSyn (fun y => { y with objs := tabPut y.objs n o }) s, { payload := leBytes 2 n })

def execSyncCreate (m : Nat) (s : State) : Host.Outcome State Fault Refusal :=
  run (m < 80) "mailbox" (runCommand 0x0700 m syncCreateBody s)

/-- Whether an object lies outside the partition a command acts on (R443). -/
def objectBad (s : State) (q : Req) (n : Nat) : Bool := (objOf s n).type = 0 || (objOf s n).part ≠ q.target

/-- Whether a context holds an object. -/
def anyHolds (s : State) (n : Nat) : Bool := s.srv.ctxs.any (fun p => p.2.holdings.any (fun h => h.1 = n))

/-- Releases waiters with OWNER_LOST and drops holdings. -/
def releaseObject (n : Nat) (s : State) : State :=
  let o := objOf s n
  let s := updObj n (fun o => { o with waiters := [] }) s
  let s := o.waiters.foldl (fun s w => failStep w.ctx .ownerLost s) s
  updSrv (fun v => { v with ctxs := v.ctxs.map (fun p =>
    (p.1, { p.2 with holdings := p.2.holdings.filter (fun h => h.1 ≠ n) })) }) s

/-- SYNC_DESTROY. -/
def syncDestroyBody (q : Req) (s : State) : State × Reply :=
  let n := pl q 0 2
  if 64 ≤ q.target then failed .partitionState s
  else if objectBad s q n || 1 < pl q 2 1 then failed .badField s
  else if (!(objOf s n).waiters.isEmpty || anyHolds s n) && pl q 2 1 = 0 then failed .busy s
  else
    let s := releaseObject n s
    (settleSync (updSyn (fun y => { y with objs := tabDel y.objs n }) s), reply .success)

def execSyncDestroy (m : Nat) (s : State) : Host.Outcome State Fault Refusal :=
  run (m < 80) "mailbox" (runCommand 0x0701 m syncDestroyBody s)

/-- An object as it was created. -/
def resetObj (o : SyncObj) : SyncObj :=
  { o with orphaned := false, value := if o.type = 1 then o.initial else 0, set := o.type = 2 && bit o.initial 0,
           count := if o.type = 3 then o.initial else 0, holder := 0xFFFF, holderStep := 0, arrived := 0, phase := 0 }

def syncResetBody (q : Req) (s : State) : State × Reply :=
  let n := pl q 0 2
  if 64 ≤ q.target then failed .partitionState s
  else if objectBad s q n then failed .badField s
  else if !(objOf s n).waiters.isEmpty || anyHolds s n then failed .busy s
  else (updObj n resetObj s, reply .success)

def execSyncReset (m : Nat) (s : State) : Host.Outcome State Fault Refusal :=
  run (m < 80) "mailbox" (runCommand 0x0705 m syncResetBody s)

/-! ### SYNC_OP, SYNC_QUERY, SYNC_DUMP (R442 to R444) -/

/-- The operations a host may apply (R430, R442). -/
def hostOp (op : Nat) : Bool := op = 1 || op = 2 || op = 8 || op = 9 || op = 0x10

def syncOpBody (q : Req) (s : State) : State × Reply :=
  let n := pl q 0 2
  let op := pl q 2 1
  if 64 ≤ q.target then failed .partitionState s
  else if objectBad s q n || !hostOp op || opType op ≠ (objOf s n).type then failed .badField s
  else if (objOf s n).orphaned then failed .ownerLost s
  else
    let (s, st, _) := applyNow op n (pl q 8 8) 0xFFFF s
    (settleSync s, reply st)

def execSyncOp (m : Nat) (s : State) : Host.Outcome State Fault Refusal :=
  run (m < 80) "mailbox" (runCommand 0x0702 m syncOpBody s)

/-- The waiter entry at position i of an object's list (R429). -/
def waiterBytes (s : State) (n i : Nat) : List Byte :=
  let l := (objOf s n).waiters
  let w := l.getD i ⟨0, 0, 0, 0⟩
  let next := if i + 1 < l.length then Config.waiterEntry n (i + 1) % 32768 else 0xFFFF
  leBytes 2 w.ctx ++ leBytes 2 next ++ leBytes 1 w.op ++ leBytes 1 0 ++ leBytes 2 w.micro ++ leBytes 8 w.arg

def syncQueryBody (q : Req) (s : State) : State × Reply :=
  let n := pl q 0 2
  if 64 ≤ q.target then failed .partitionState s
  else if objectBad s q n then failed .badField s
  else (s, { payload := objRecord s n ++ (List.range (min 64 (objOf s n).waiters.length)).flatMap (waiterBytes s n) })

def execSyncQuery (m : Nat) (s : State) : Host.Outcome State Fault Refusal :=
  run (m < 80) "mailbox" (runCommand 0x0703 m syncQueryBody s)

/-- The objects of a scope in ascending index; the holdings of its contexts. -/
def dumpObjects (s : State) (p : Nat) (all : Bool) : List (Nat × SyncObj) :=
  s.syn.objs.filter (fun o => o.2.type ≠ 0 && (all || o.2.part = p))
def dumpHoldings (s : State) (p : Nat) (all : Bool) : List (Nat × Nat × Nat × Nat) :=
  (s.srv.ctxs.filter (fun x => all || x.2.part = p)).flatMap (fun x => x.2.holdings.map (fun h => (x.1, h)))

/-- The dump (R444). What an object entry without waiters gives for the place of its first one is open: `none_`. -/
def dumpBytes (s : State) (p : Nat) (all : Bool) (none_ : Nat) : List Byte :=
  let objs := dumpObjects s p all
  let holds := dumpHoldings s p all
  let waiters := objs.foldl (fun n o => n + o.2.waiters.length) 0
  let first := 64 + 48 * objs.length
  let len := first + 24 * waiters + 16 * holds.length
  let head := leBytes 1 1 ++ leBytes 1 (b2n all) ++ leBytes 6 0 ++ leBytes 8 s.tmb.free ++ leBytes 4 objs.length
    ++ leBytes 4 waiters ++ leBytes 4 holds.length ++ leBytes 4 0 ++ leBytes 8 len ++ leBytes 24 0
  let body := objs.foldl (fun (acc : List Byte × Nat) o =>
    let w := o.2.waiters.length
    (acc.1 ++ leBytes 2 o.1 ++ leBytes 2 w ++ leBytes 4 (if w = 0 then none_ else first + 24 * acc.2) ++ leBytes 8 0
       ++ objRecord s o.1, acc.2 + w)) ([], 0)
  let ws := objs.flatMap (fun o => (List.range o.2.waiters.length).flatMap (fun i =>
    leBytes 2 o.1 ++ leBytes 2 i ++ leBytes 4 0 ++ waiterBytes s o.1 i))
  let hs := holds.flatMap (fun h => leBytes 2 h.1 ++ leBytes 2 h.2.1 ++ leBytes 1 h.2.2.1 ++ leBytes 1 0 ++ leBytes 4 h.2.2.2
    ++ leBytes 6 0)
  head ++ body.1 ++ ws ++ hs

def syncDumpBody (q : Req) (s : State) : State × Reply :=
  let dst := pl q 0 8
  let len := pl q 8 4
  let scope := pl q 12 1
  if 64 ≤ q.target && scope = 0 then failed .partitionState s
  else if 1 < scope || dst % 64 ≠ 0 then failed .badField s
  else if isVf q.m && scope = 1 then failed .notPermitted s
  else if len ≠ 0 && !inTarget s q.target dst len then failed .badAddress s
  else
    let (v, s) := drawFree s
    let d := dumpBytes s q.target (scope = 1) v
    (hdmWrite dst (d.take len) s, { payload := leBytes 8 d.length })

def execSyncDump (m : Nat) (s : State) : Host.Outcome State Fault Refusal :=
  run (m < 80) "mailbox" (runCommand 0x0704 m syncDumpBody s)

/-! ### DET_MODE, DET_QUERY (R442, R447) -/

def detModeBody (q : Req) (s : State) : State × Reply :=
  if 64 ≤ q.target then failed .partitionState s
  else if 1 < pl q 0 1 then failed .badField s
  else if partContexts s q.target ≠ 0 then failed .partitionState s
  else (updPart q.target (fun p => { p with ledger := pl q 0 1 = 1 }) s, reply .success)

def execDetMode (m : Nat) (s : State) : Host.Outcome State Fault Refusal :=
  run (m < 80) "mailbox" (runCommand 0x0780 m detModeBody s)

def detQueryBody (q : Req) (s : State) : State × Reply :=
  let c := pl q 0 2
  if 1 < pl q 2 1 then failed .badField s else
  match ctxArg q s c with
  | some st => failed st s
  | none =>
    let out := leBytes 1 (b2n (ledgerMode s q.target)) ++ leBytes 7 0 ++ leBytes 8 s.syn.sig ++ leBytes 8 (ctxOf s c).timing
    (if pl q 2 1 = 1 then updCtx c (fun x => { x with timing := 0 }) s else s, { payload := out })

def execDetQuery (m : Nat) (s : State) : Host.Outcome State Fault Refusal :=
  run (m < 80) "mailbox" (runCommand 0x0781 m detQueryBody s)

end Sys2Proof.Machine
end

