-- ==== Sys2Proof/Machine/Partition.lean ====
section
/-!
DEFINITION. The meanings of the commands of chapter 13 but save and restore (Machine/Migration.lean): creation, quotas, the
reset sequence, freeze and thaw.
-/
namespace Sys2Proof.Machine

/-! ### States (R372, R394) -/

def partCode : PartState → Nat
  | .absent => 0 | .active => 1 | .resetting => 2 | .freezing => 3 | .frozen => 4 | .restoring => 5 | .removing => 6

/-- A transition with its PART_STATE. -/
def partTo (p : Nat) (new : PartState) (cause : Nat) (s : State) : State :=
  let old := (partOf s p).state
  if old = new then s else
  post { code := 0x0201, part := p,
         detail := leBytes 1 p ++ leBytes 1 (partCode old) ++ leBytes 1 (partCode new) ++ leBytes 1 cause }
    (updPart p (fun x => { x with state := new }) s)

/-- Partitions that exist or are being created, but p. -/
def otherParts (s : State) (p : Nat) : List Partition :=
  (s.parts.filter (fun x => x.1 ≠ p && (x.2.state ≠ .absent || x.2.creating))).map (fun x => x.2)

/-! ### PART_CREATE, PART_QUOTA (R375 to R377) -/

/-- The quotas of a payload (R375) put into a partition. -/
def quotasOf (q : Req) (x : Partition) : Partition :=
  { x with prioLimit := pl q 2 1, maxRings := pl q 3 1, maxContexts := pl q 4 2, jobIds := pl q 6 1, dramGb := pl q 8 4,
           cuQuota := pl q 12 2, syncObjects := pl q 16 4 }

/-- A quota field outside its range, or radio quota without radio (R376). -/
def quotaBad (q : Req) (radio : Bool) : Bool :=
  63 < pl q 0 1 || 7 < pl q 2 1 || 64 < pl q 3 1 || 256 < pl q 4 2 || 16 < pl q 6 1 || 65536 < pl q 16 4
    || (!radio && pl q 12 2 ≠ 0)

/-- The sums of dram_gb and sync_objects beyond what the device has (R376). -/
def sumsBad (s : State) (q : Req) : Bool :=
  let o := otherParts s (pl q 0 1)
  inferenceDram s < o.foldl (fun n x => n + x.dramGb) (pl q 8 4)
    || 65536 < o.foldl (fun n x => n + x.syncObjects) (pl q 16 4)

/-- The HDM share of a PART_CREATE payload: aligned, in the window, clear of the others (R376). -/
def shareBad (s : State) (q : Req) : Bool :=
  let b := pl q 24 8
  let n := pl q 32 8
  b % 2097152 ≠ 0 || n % 2097152 ≠ 0 || s.dev.hdmSize < b + n
    || (otherParts s (pl q 0 1)).any (fun x => b < x.hdmBase + x.hdmLen && x.hdmBase < b + n)

/-- The answer to a command that draws a key while the entropy source's tests fail (R512). -/
def noKey : Reply := { status := .busy, retry := 1000 }

/-- PART_CREATE: the number is taken and the quotas count at once; the partition stays ABSENT to others until it completes. -/
def partCreateBody (q : Req) (s : State) : State × Reply :=
  let p := pl q 0 1
  let radio := bit (pl q 1 1) 0
  if q.target ≠ 0xFF && q.target ≠ p then failed .badField s
  else if (partOf s p).state ≠ .absent || (partOf s p).creating then failed .partitionState s
  else if pl q 3 1 = 0 || pl q 32 8 = 0 || (radio && pl q 12 2 = 0) then failed .zeroNotAllowed s
  else if quotaBad q radio || shareBad s q then failed .badField s
  else
    let slot := firstBelow 8 (fun k => !(otherParts s p).any (fun x => x.radio && x.radioSlot = k))
    if (radio && slot.isNone) || sumsBad s q then failed .noResource s
    else if !s.mgt.entropyOk then (s, noKey)
    else
      let x : Partition := quotasOf q { creating := true, radio := radio, radioSlot := if radio then slot.getD 0 else 255,
                                        hdmBase := pl q 24 8, hdmLen := pl q 32 8 }
      longOp q p [] (fun _ s => updPart p (fun _ => x) s) s

def execPartCreate (m : Nat) (s : State) : Host.Outcome State Fault Refusal :=
  run (m < 80) "mailbox" (runCommand 0x0200 m partCreateBody s)

/-- A new key pair and a share that reads zero under it (R378, R379). -/
def newKeys (p : Nat) (s : State) : State :=
  let (k, s) := drawEntropy s
  let x := partOf s p
  let s := updPart p (fun x => { x with keyGen := k }) s
  s.setMem (memZero s.mem (hdmAt x.hdmBase) x.hdmLen)

/-- PART_CREATE_DONE: keys, share and VF pages stand; the partition is ACTIVE (R376, R23, R455). -/
def partCreateDone (h : Nat) (s : State) : State :=
  match opOf s h with
  | none => s
  | some o =>
    if o.opcode ≠ 0x0200 || o.finished then s else
    let p := o.obj
    let s := updPart p (fun x => { x with creating := false }) (newKeys p s)
    let s := (s.setMbx (tabDel s.mbx (16 + p))).setHlt { s.hlt with vf := tabDel s.hlt.vf p }
    finishOp h .success (leBytes 1 (partOf s p).radioSlot) (partTo p .active 0 s)

def execPartCreateDone (h : Nat) (s : State) : Host.Outcome State Fault Refusal :=
  run (h < 64) "handle" (partCreateDone h s)

/-- A quota below what the partition uses (R377). -/
def quotaBelowUse (s : State) (q : Req) (p : Nat) : Bool :=
  pl q 3 1 < ringsHeld s p || pl q 4 2 < partContexts s p || pl q 6 1 < (partOf s p).jobs.length
    || pl q 8 4 * 512 < partGranules s p || pl q 12 2 < partCost s p || pl q 16 4 < partObjects s p
    || (allContexts s).any (fun x => x.2.part = p && x.2.prio < pl q 2 1)

def partQuotaBody (q : Req) (s : State) : State × Reply :=
  let p := pl q 0 1
  let x := partOf s p
  if (q.target ≠ 0xFF && q.target ≠ p) || 63 < p then failed .badField s
  else if x.state = .absent then failed .noPartition s
  else if !(x.state = .active || x.state = .freezing || x.state = .frozen) then failed .partitionState s
  else if pl q 3 1 = 0 || (x.radio && pl q 12 2 = 0) then failed .zeroNotAllowed s
  else if quotaBad q x.radio then failed .badField s
  else if quotaBelowUse s q p then failed .quota s
  else if sumsBad s q then failed .noResource s
  else longOp q p [] (fun _ s => updPart p (quotasOf q) s) s

/-- PART_QUOTA, a long operation that ends as soon as its response stands (R392). -/
def execPartQuota (m : Nat) (s : State) : Host.Outcome State Fault Refusal :=
  run (m < 80) "mailbox"
    (let s := runCommand 0x0208 m partQuotaBody s
     (s.ops.filter (fun o => o.2.opcode = 0x0208 && !o.2.finished)).foldl (fun s o => finishOp o.1 .success [] s) s)

/-! ### PART_QUERY (R393) -/

def partRecord (s : State) (p : Nat) : List Byte :=
  let x := partOf s p
  leBytes 8 (partCode x.state + 8 * b2n x.radio + 16 * (if x.radio then x.radioSlot else 0) + 256 * x.prioLimit
      + 65536 * x.maxRings + 2 ^ 24 * ringsHeld s p + 2 ^ 32 * x.maxContexts + 2 ^ 48 * partContexts s p)
    ++ leBytes 4 x.dramGb ++ leBytes 4 (partGranules s p)
    ++ leBytes 2 x.cuQuota ++ leBytes 2 (partCost s p) ++ leBytes 1 x.jobIds ++ leBytes 1 x.jobs.length ++ leBytes 2 0
    ++ leBytes 4 x.syncObjects ++ leBytes 4 (partObjects s p) ++ leBytes 8 x.hdmBase ++ leBytes 8 x.hdmLen
    ++ leBytes 8 ((x.save.map (fun v => v.len)).getD 0) ++ leBytes 8 (ctrWord x.resets) ++ leBytes 8 (ctrWord x.abandoned)
    ++ leBytes 8 (ctrWord x.lateWrites)

def partQueryBody (q : Req) (s : State) : State × Reply :=
  if 64 ≤ q.target then failed .partitionState s
  else if 1 < pl q 0 1 then failed .badField s
  else
    let out := partRecord s q.target
    (if pl q 0 1 = 1 then updPart q.target (fun x => { x with resets := {}, abandoned := {}, lateWrites := {} }) s else s,
     { payload := out })

def execPartQuery (m : Nat) (s : State) : Host.Outcome State Fault Refusal :=
  run (m < 80) "mailbox" (runCommand 0x0203 m partQueryBody s)

/-! ### The reset sequence (R380, R381) -/

/-- Ends the operation of an opcode on a partition. -/
def endPartOp (opcode p : Nat) (st : Status) (s : State) : State := finishOpsOn opcode p st [] s

/-- Step 1: the state, the interrupted freeze, the dropped armings; then the table stops (step 2). A table that does not run
leaves nothing to wait for. -/
def beginReset (p : Nat) (removing : Bool) (cause : Nat) (s : State) : State :=
  let st : Status := if removing then .cancelled else .partitionState
  let s := endPartOp 0x0207 p .cancelled (endPartOp 0x0204 p st s)
  let s := partTo p (if removing then .removing else .resetting) cause s
  let s := dropArmings p (if removing then .noPartition else .partitionState) s
  let s := updPart p (fun x => { x with step := 2, stepTick := s.tmb.free, cause := cause, late := false, save := none,
                                        restore := none }) s
  let s := match partTable s p with
    | none => s
    | some k => if (tableOf s k).state = .running then stopTable k (corrNow s) s else s
  resetStep2 p s

/-- PART_RESET. -/
def partResetBody (q : Req) (s : State) : State × Reply :=
  let st := (partOf s q.target).state
  if 64 ≤ q.target || !(st = .active || st = .freezing || st = .frozen) then failed .partitionState s
  else if !s.mgt.entropyOk then (s, noKey)
  else longOp q q.target [] (fun _ s => beginReset q.target false 0 s) s

def execPartReset (m : Nat) (s : State) : Host.Outcome State Fault Refusal :=
  run (m < 80) "mailbox" (runCommand 0x0202 m partResetBody s)

/-- PART_REMOVE: it carries on a reset that runs (R372). -/
def partRemoveBody (q : Req) (s : State) : State × Reply :=
  let p := q.target
  let st := (partOf s p).state
  if 64 ≤ p || st = .removing then failed .partitionState s
  else if !s.mgt.entropyOk then (s, noKey)
  else longOp q p [] (fun _ s =>
    if st = .resetting then
      dropArmings p .noPartition (partTo p .removing 2 (endPartOp 0x0202 p .cancelled s))
    else beginReset p true 0 s) s

def execPartRemove (m : Nat) (s : State) : Host.Outcome State Fault Refusal :=
  run (m < 80) "mailbox" (runCommand 0x0201 m partRemoveBody s)

/-- A function level reset of a VF; absorbed or ignored where R372 gives no transition. -/
def functionLevelReset (p : Nat) (s : State) : State :=
  let st := (partOf s p).state
  if st = .active || st = .freezing || st = .frozen then beginReset p false 1 s else s

def execFunctionLevelReset (p : Nat) (s : State) : Host.Outcome State Fault Refusal :=
  run (p < 64) "partition" (functionLevelReset p s)

/-- Outstanding requests of a partition. -/
def partTags (s : State) (p : Nat) : List (Nat × TagRec) :=
  s.fab.tags.filter (fun t => t.2.state = .issued && originPart s t.2.origin = some p)

/-- RESET_FABRIC_DRAIN: step 4 ends once every request is answered or is 50 µs past its last transmission, which abandons
it. -/
def resetFabricDrain (p : Nat) (s : State) : State :=
  let open_ := partTags s p
  if (partOf s p).step ≠ 4 || open_.any (fun t => s.tmb.free < t.2.lastTx + 98304) then s else
  let gone := fun (t : TagRec) => { t with state := .abandoned, status := .fabricTimeout, detached := true }
  let keys := open_.map (fun t => t.1)
  let s := updFab (fun b => { b with tags := b.tags.map (fun t => if keys.contains t.1 then (t.1, gone t.2) else t) }) s
  updPart p (fun x => { x with step := 5, stepTick := s.tmb.free, abandoned := ctrAdd x.abandoned open_.length }) s

def execResetFabricDrain (p : Nat) (s : State) : Host.Outcome State Fault Refusal :=
  run (p < 64) "partition" (resetFabricDrain p s)

/-- Who an orphan event of step 7 names: the context that holds the object; with none, what the field carries is open. -/
def orphanPart (p : Nat) (s : State) : State :=
  (s.syn.objs.filter (fun o => o.2.type ≠ 0 && o.2.part = p)).foldl (fun s o =>
    match s.srv.ctxs.find? (fun x => x.2.holdings.any (fun h => h.1 = o.1)) with
    | some x => orphan o.1 1 x.1 s
    | none =>
      let (v, s) := drawFree s
      orphan o.1 1 (v % 65536) s) s

/-- Steps 6 and 7: identities retired, objects orphaned and gone, contexts destroyed, rings and shares free. -/
def resetStep7 (p : Nat) (s : State) : State :=
  let s := (partOf s p).jobs.foldl (fun s j => retireJob j s) s
  let s := settleSteps (orphanPart p s)
  let mine := (s.srv.ctxs.filter (fun x => x.2.part = p)).map (fun x => x.1)
  let s := mine.foldl (fun s c => removeCtx c 0 s) s
  let s := updSyn (fun y => { y with objs := y.objs.filter (fun o => o.2.part ≠ p) }) s
  let s := updFab (fun b => { b with windows := b.windows.filter (fun w => w.2.part ≠ p) }) s
  let s := serve (s.setRings (s.rings.filter (fun r => r.2.part ≠ p)))
  updPart p (fun x => { x with step := 8, stepTick := s.tmb.free }) s

/-- RESET_HOST_DRAIN: step 5 ends, with `late` writes not completed when its bound passed. -/
def resetHostDrain (p late : Nat) (s : State) : State :=
  let x := partOf s p
  if x.step ≠ 5 || (late ≠ 0 && s.tmb.free < x.stepTick + 1966080) then s
  else resetStep7 p (updPart p (fun x => { x with late := late ≠ 0, lateWrites := ctrAdd x.lateWrites late }) s)

def execResetHostDrain (p late : Nat) (s : State) : Host.Outcome State Fault Refusal :=
  run (p < 64) "partition" (resetHostDrain p late s)

/-- PART_RESET_DONE: step 8 ends. A late write gives HUNG and a HOST_LATE record. -/
def partResetDone (p : Nat) (s : State) : State :=
  let x := partOf s p
  if x.step ≠ 8 then s else
  let st : Status := if x.late then .hung else .success
  let s := newKeys p s
  let s := updPart p (fun x => { x with step := 0, late := false, resets := ctrInc x.resets }) s
  let s := if x.late then fault { code := 0xC, status := some .hung, part := p } s else s
  if x.state = .removing then
    let s := partTo p .absent x.cause s
    let s := ((s.setParts (tabDel s.parts p)).setMbx (tabDel s.mbx (16 + p))).setHlt { s.hlt with vf := tabDel s.hlt.vf p }
    endPartOp 0x0201 p st s
  else endPartOp 0x0202 p st (partTo p .active x.cause s)

def execPartResetDone (p : Nat) (s : State) : Host.Outcome State Fault Refusal :=
  run (p < 64) "partition" (partResetDone p s)

/-- QUARANTINE_END: one second after its retirement an identity is free again (R381). -/
def quarantineEnd (job : Nat) (s : State) : State :=
  match tabFind? s.quarantine job with
  | none => s
  | some t => if s.tmb.free < t + 1966080000 then s else s.setQuarantine (tabDel s.quarantine job)

def execQuarantineEnd (job : Nat) (s : State) : Host.Outcome State Fault Refusal :=
  run (job < 16777216) "job" (quarantineEnd job s)

/-! ### Freeze and thaw (R383, R391) -/

/-- A running batch step is squashed for a freeze: its submission stays at the head, its holdings and journal are kept
(R383, R439, R440). -/
def squashStep (c : Nat) (s : State) : State :=
  if (ctxOf s c).step.isNone then s else
  let s := freeContention c (leaveLists c (detachTags c (squashAll c true s)))
  boundary c (updCtx c (fun x => { x with step := none }) s)

/-- The freeze is latched: contexts leave RESIDING, and with squash running steps end at once. -/
def latchFreeze (p : Nat) (squash : Bool) (s : State) : State :=
  let s := partTo p .freezing 0 s
  let mine := (s.srv.ctxs.filter (fun x => x.2.part = p)).map (fun x => x.1)
  let s := mine.foldl (fun s c =>
    let s := if (ctxOf s c).state = .residing then ctxTo c .loaded 4 s else s
    if squash then squashStep c s else s) s
  settleSteps s

def partFreezeBody (q : Req) (s : State) : State × Reply :=
  let p := q.target
  if 64 ≤ p || (partOf s p).radio || (partOf s p).state ≠ .active then failed .partitionState s
  else longOp q p [] (fun _ s => latchFreeze p (bit (pl q 0 2) 0) s) s

def execPartFreeze (m : Nat) (s : State) : Host.Outcome State Fault Refusal :=
  run (m < 80) "mailbox" (runCommand 0x0204 m partFreezeBody s)

/-- Whether nothing of a freezing partition is outstanding (R383). -/
def atBoundary (s : State) (p : Nat) : Bool :=
  (s.srv.ctxs.filter (fun x => x.2.part = p)).all (fun x => (x.2.state = .loaded || x.2.state = .resident) && x.2.step.isNone
      && (writesOf s x.1).isEmpty)
    && (partTags s p).isEmpty && !s.srv.creating.any (fun x => x.2.2.part = p)

/-- FREEZE_COMPLETE: contexts are FROZEN with the shares they hold. -/
def freezeComplete (p : Nat) (s : State) : State :=
  if (partOf s p).state ≠ .freezing || !atBoundary s p then s else
  let mine := (s.srv.ctxs.filter (fun x => x.2.part = p)).map (fun x => x.1)
  let s := mine.foldl (fun s c => ctxTo c .frozen 4 s) s
  endPartOp 0x0204 p .success (partTo p .frozen 0 s)

def execFreezeComplete (p : Nat) (s : State) : Host.Outcome State Fault Refusal :=
  run (p < 64) "partition" (freezeComplete p s)

/-- An ACTIVE partition takes up its work again: ring intake resumes, contexts with submissions ask for residency. -/
def resumePart (p : Nat) (s : State) : State :=
  let mine := (s.srv.ctxs.filter (fun x => x.2.part = p)).map (fun x => x.1)
  let s := mine.foldl (fun s c => if (ctxOf s c).queue.isEmpty then s else enterResiding c 1 s) s
  let rings := (s.rings.filter (fun r => r.2.part = p && !r.2.toHost)).map (fun r => r.1)
  serve (rings.foldl (fun s n => settle n (waitingEntries s n) s) s)

/-- PART_THAW. -/
def partThawBody (q : Req) (s : State) : State × Reply :=
  let p := q.target
  if 64 ≤ p || (partOf s p).state ≠ .frozen then failed .partitionState s
  else
    let mine := (s.srv.ctxs.filter (fun x => x.2.part = p)).map (fun x => x.1)
    let s := partTo p .active 0 (mine.foldl (fun s c => ctxTo c .loaded 4 s) s)
    (updPart p (fun x => { x with save := none }) s, reply .success)

def execPartThaw (m : Nat) (s : State) : Host.Outcome State Fault Refusal :=
  run (m < 80) "mailbox"
    (let t := runCommand 0x0205 m partThawBody s
     (t.parts.filter (fun p => p.2.state = .active && (partOf s p.1).state = .frozen)).foldl (fun t p => resumePart p.1 t) t)

end Sys2Proof.Machine
end

