-- ==== Sys2Proof/Machine/Migration.lean ====
section
/-!
DEFINITION. Save and restore of a partition (R385 to R390, R451): the save stream, its chunks, and what a restore checks,
binds and copies.
-/
namespace Sys2Proof.Machine

/-! ### The save stream (R385 to R387) -/

/-- Rounds up to a unit of 4 096 bytes. -/
def up4k (n : Nat) : Nat := cdiv n 4096 * 4096

/-- Pads a section to a unit. -/
def pad4k (l : List Byte) : List Byte := l ++ List.replicate (up4k l.length - l.length) 0

/-- The contexts of a partition in ascending index. -/
def ctxsOf (s : State) (p : Nat) : List (Nat × Context) := s.srv.ctxs.filter (fun x => x.2.part = p)

/-- The regions a stream carries: context, logical region, kind and length; weights of the context that owns them, then KV. -/
def savedRegions (l : List (Nat × Bool × Placement)) : List (Nat × Nat × Nat × Nat) :=
  l.flatMap (fun x => (List.range x.2.2.shape.regions).flatMap (fun r =>
    [(x.1, r, 0, placeBytes x.2.2 x.2.1 r 0), (x.1, r, 1, placeBytes x.2.2 x.2.1 r 1)]))

/-- What a context contributes. -/
def regionSource (x : Nat × Context) : Nat × Bool × Placement :=
  (x.1, x.2.weightsOf = 0xFFFF, x.2.places.getD x.2.place {})

/-- The bytes of step images, and of regions. -/
def imageBytes (s : State) (p : Nat) : Nat := (ctxsOf s p).foldl (fun n x => n + x.2.imgBytes.length) 0
def carriedBytes (s : State) (p : Nat) : Nat :=
  (savedRegions ((ctxsOf s p).map regionSource)).foldl (fun n r => n + r.2.2.2) 0

/-- A stream as it begins: the directory's length, in whole units, is the firmware's (assumption 2). -/
def newStream (p : Nat) (key : List Byte) (hdm : Bool) (s : State) : SaveStream × State :=
  let (v, s) := drawFree s
  let dir := 4096 * (v % 1048575 + 1)
  let imgEnd := dir + up4k (imageBytes s p)
  let len := imgEnd + up4k (carriedBytes s p) + (if hdm then up4k (partOf s p).hdmLen else 0) + 4096
  ({ key := key, hdm := hdm, dirLen := dir, imgEnd := imgEnd, len := len }, s)

/-- The header of a stream (R386). -/
def streamHeader (s : State) (p : Nat) (v : SaveStream) : List Byte :=
  leBytes 1 1 ++ leBytes 1 0 ++ leBytes 2 (gradeNumber s.grade) ++ [0x41, 0x32] ++ leBytes 2 0 ++ leBytes 8 v.len
    ++ leBytes 8 s.syn.sig
    ++ leBytes 8 (v.dirLen % 2 ^ 32 + 2 ^ 32 * (ctxsOf s p).length + 2 ^ 48 * (ringsHeld s p % 256) + 2 ^ 56 * b2n v.hdm
        + 2 ^ 57 * b2n (ledgerMode s p))
    ++ leBytes 8 (partOf s p).hdmLen ++ leBytes 8 v.imgEnd

/-- What the directory of a stream holds (R386): quotas, rings, contexts with their step images' place in the stream, random
state records (R184) and queued submissions, the determinism mode, objects and job identities. -/
def dirContents (s : State) (p : Nat) (v : SaveStream) : List (List Nat) :=
  let x := partOf s p
  let bytes := fun (l : List Byte) => l.map BitVec.toNat
  let ctx := fun (n : Nat) (c : Nat × Context) =>
    let y := c.2
    let ofs := v.dirLen + ((ctxsOf s p).take n).foldl (fun k d => k + d.2.imgBytes.length) 0
    [c.1, y.prio, y.depth, b2n y.pinned, y.weightsOf, ctxCode y.state, y.place, y.subRing, y.doneRing, ofs, y.imgBytes.length]
      ++ bytes (rngRecord y.rng)
      ++ y.queue.flatMap (fun q => [q.kind, b2n q.noon, q.inLen, q.inOfs, q.outOfs, q.outLen, q.kvCount, q.kvOfs, q.tag])
  [[x.dramGb, x.maxRings, x.maxContexts, x.jobIds, x.cuQuota, x.prioLimit, x.syncObjects]]
    ++ (s.rings.filter (fun r => r.2.part = p)).map (fun r =>
      [r.1, r.2.base, r.2.log2, b2n r.2.toHost, r.2.cls, r.2.vector, r.2.slot, r.2.hostIdx, r.2.devIdx])
    ++ ((List.range (ctxsOf s p).length).map (fun n => (ctxsOf s p)[n]?.elim [] (ctx n)))
    ++ [[b2n (ledgerMode s p)]]
    ++ (s.syn.objs.filter (fun o => o.2.part = p)).map (fun o =>
      [o.1, o.2.type, o.2.value, b2n o.2.set, o.2.count, o.2.limit, o.2.holder, o.2.holderStep, o.2.participants, o.2.arrived,
       o.2.job, o.2.phase, o.2.homeDev, o.2.members, o.2.initial])
    ++ [x.jobs]

/-- The plaintext of a stream before its trailer (R386). -/
def streamBody (s : State) (p : Nat) (v : SaveStream) : List Byte :=
  let dir := (List.range (v.dirLen - 4096)).map (Config.dirByte (dirContents s p v))
  let imgs := (ctxsOf s p).flatMap (fun x => x.2.imgBytes)
  let regs := (savedRegions ((ctxsOf s p).map regionSource)).flatMap (fun r =>
    memReadBytes s.mem (regionAt r.1 r.2.1 r.2.2.1 0) r.2.2.2)
  let hdm := if v.hdm then hdmRead s (partOf s p).hdmBase (partOf s p).hdmLen else []
  pad4k (streamHeader s p v) ++ dir ++ pad4k imgs ++ pad4k regs ++ pad4k hdm

/-- The plaintext with its trailer. -/
def streamPlain (s : State) (p : Nat) (v : SaveStream) : List Byte :=
  let b := streamBody s p v
  b ++ pad4k (shake256 b 64)

/-- `n` bytes of the encrypted stream from a unit boundary on (R387). -/
def streamCipher (s : State) (p : Nat) (v : SaveStream) (ofs n : Nat) : List Byte :=
  let plain := (streamPlain s p v).drop ofs
  ((List.range (n / 4096)).flatMap (fun i =>
    Config.xtsEncrypt v.key (ofs / 4096 + i) ((plain.drop (4096 * i)).take 4096))).take n

/-- The fields of a chunk that R385 refuses: alignment and length. -/
def chunkBad (q : Req) : Bool :=
  pl q 0 8 % 4096 ≠ 0 || pl q 8 8 % 4096 ≠ 0 || pl q 16 4 % 4096 ≠ 0 || 2 ^ 30 < pl q 16 4

/-- PART_SAVE. A chunk of no stream has no status in the spec. -/
def partSaveBody (q : Req) (s : State) : State × Reply :=
  let p := q.target
  let dst := pl q 0 8
  let ofs := pl q 8 8
  let len := pl q 16 4
  if 64 ≤ p || (partOf s p).state ≠ .frozen then failed .partitionState s
  else if chunkBad q then failed .badField s
  else if len ≠ 0 && !inManager s dst len then failed .badAddress s
  else if ofs = 0 then
    longOp q p [dst, ofs, len] (fun _ s =>
      let (v, s) := newStream p ((q.cmd.payload.drop 32).take 64) (bit (pl q 20 2) 0) s
      updPart p (fun x => { x with save := some v }) s) s
  else if (partOf s p).save.isNone then
    let (st, s) := drawStatus s
    (s, reply st)
  else longOp q p [dst, ofs, len] (fun _ s => s) s

def execPartSave (m : Nat) (s : State) : Host.Outcome State Fault Refusal :=
  run (m < 80) "mailbox" (runCommand 0x0206 m partSaveBody s)

/-- SAVE_CHUNK_DONE: the chunk stands in the manager area; the count and stream_len are the result. -/
def saveChunkDone (h : Nat) (s : State) : State :=
  match opOf s h with
  | none => s
  | some o =>
    if o.opcode ≠ 0x0206 || o.finished then s else
    match (partOf s o.obj).save with
    | none =>
      let (st, s) := drawStatus s
      finishOp h st [] s
    | some v =>
      let ofs := o.args.getD 1 0
      let n := min (o.args.getD 2 0) (v.len - ofs)
      let bytes := if n = 0 then [] else streamCipher s o.obj v ofs n
      finishOp h .success (leBytes 4 n ++ leBytes 8 v.len) (hdmWrite (o.args.getD 0 0) bytes s)

def execSaveChunkDone (h : Nat) (s : State) : Host.Outcome State Fault Refusal :=
  run (h < 64) "handle" (saveChunkDone h s)

/-! ### PART_RESTORE (R388, R451) -/

/-- Whether a partition holds nothing (R388). -/
def partEmpty (s : State) (p : Nat) : Bool :=
  partContexts s p = 0 && ringsHeld s p = 0 && partObjects s p = 0 && (partOf s p).jobs.isEmpty
    && !s.cells.any (fun c => c.1 / 64 = p)

/-- The directory beyond the quotas or the share of the target (R388). -/
def headQuota (s : State) (p : Nat) (d : StreamHead) : Bool :=
  let x := partOf s p
  x.maxContexts < d.ctxs.length || x.maxRings < d.rings.length || x.syncObjects < d.objects.length
    || x.jobIds < d.jobs.length || x.dramGb * 512 < d.dram2mb || x.hdmLen < d.hdmLen
    || d.rings.any (fun r => !inShare s p r.base ((2 ^ r.log2 + 1) * 64))

/-- What the directory declares does not fit the free device: DRAM, context indices, objects, ring numbers. -/
def headNoRoom (s : State) (d : StreamHead) : Bool :=
  let free := (List.range (gradeArrays s.grade)).foldl (fun n k =>
    n + (stackGranules s k - (stackUsed s k).foldl (fun m r => m + r.2) 0)) 0
  free < d.dram2mb || d.ctxs.any (fun c => ctxInUse s c.index) || d.objects.any (fun o => (objOf s o.index).type ≠ 0)
    || 4096 < s.rings.length + d.rings.length

/-- The checks of a first chunk on the stream's head, in the order of R388; the mode and signature of R451 after the form. -/
def headStatus (s : State) (p len : Nat) (d : StreamHead) : Status :=
  if len < d.dirLen then .badLength
  else if d.format ≠ 1 || d.imgEnd < d.dirLen || d.len < d.imgEnd then .imageRejected
  else if d.ledger != ledgerMode s p || (d.ledger && d.detSig ≠ s.syn.sig) then .signatureMismatch
  else if headQuota s p d then .quota
  else if headNoRoom s d then .noResource
  else .success

/-- Byte i of the plaintext of a stream's first bytes (R387). -/
def plainByte (key data : List Byte) (i : Nat) : Byte :=
  (Config.xtsDecrypt key (i / 4096) ((data.drop (i / 4096 * 4096)).take 4096)).getD (i % 4096) 0
def plainBytes (key data : List Byte) (i n : Nat) : List Byte := (List.range n).map (fun k => plainByte key data (i + k))

/-- The head of a stream: the header's fields as its plaintext gives them (R386), the directory as decoded. -/
def readHead (key data : List Byte) (d : StreamHead) : StreamHead :=
  let h := plainBytes key data 0 48
  { d with format := field h 0 1, len := field h 8 8, detSig := field h 16 8, dirLen := field h 24 4,
           hdm := bit (field h 31 1) 0, ledger := bit (field h 31 1) 1, hdmLen := field h 32 8, imgEnd := field h 40 8 }

/-- The trailer holds the digest of every plaintext byte before it (R386). -/
def digestHolds (r : RestoreRun) : Bool :=
  let n := r.head.len - 4096
  plainBytes r.key r.data n 64 == shake256 (plainBytes r.key r.data 0 n) 64

/-- PART_RESTORE; `head` is what the directory decodes to under the key (assumption 3), read with the first chunk. -/
def partRestoreBody (head : StreamHead) (q : Req) (s : State) : State × Reply :=
  let p := q.target
  let src := pl q 0 8
  let ofs := pl q 8 8
  let len := pl q 16 4
  let x := partOf s p
  if 64 ≤ p || x.radio then failed .partitionState s
  else if s.dev.twilight then failed .twilight s
  else match x.restore with
  | some r =>
    if x.state ≠ .restoring || (opOn s 0x0207 p).isSome then failed .partitionState s
    else if chunkBad q || ofs ≠ r.data.length then failed .badField s
    else if len ≠ 0 && !inManager s src len then failed .badAddress s
    else longOp q p [src, ofs, len] (fun _ s => s) s
  | none =>
    if x.state ≠ .active || !partEmpty s p then failed .partitionState s
    else if chunkBad q || ofs ≠ 0 then failed .badField s
    else if len ≠ 0 && !inManager s src len then failed .badAddress s
    else
    let key := (q.cmd.payload.drop 32).take 64
    let head := readHead key (hdmRead s src (min len 4096)) head
    match headStatus s p len head with
    | .success =>
      longOp q p [src, ofs, len] (fun _ s => partTo p .restoring 0 (updPart p (fun x => { x with
        restore := some { head := head, key := key } }) s)) s
    | st => failed st s

def execPartRestore (m : Nat) (head : StreamHead) (s : State) : Host.Outcome State Fault Refusal :=
  run (m < 80) "mailbox" (runCommand 0x0207 m (partRestoreBody head) s)

/-! ### What a chunk leads to (R388, R389) -/

/-- The placement chosen for a context: fits the grade, holds the units named, and is the source placement or carries a
remap list for it (R348, R389). -/
def restorePlace (g : Grade) (im : StepImage) (src : Nat) (l : List Placement) : Option Nat :=
  firstBelow l.length (fun i =>
    let p := l.getD i {}
    placementUsable g im p && (i = src || p.remaps.any (fun r => r.1 = src)))

/-- The checks on the step images now complete: the status, and the context it names. -/
def imagesStatus (s : State) (p : Nat) : List (SavedCtx × List Byte × List Placement) → Status × Nat
  | [] => (.success, 0)
  | (c, bytes, l) :: r =>
    let (im, zero, bad) := parseImage s.tts.duskMargin bytes
    if (restorePlace s.grade im c.srcPlacement l).isNone && !zero && !bad then (.restoreShape, c.index)
    else match imageStatus s p im zero bad l with
    | .success => imagesStatus s p r
    | st => (st, c.index)

/-- The contexts whose step images lie within the first n bytes of the stream. -/
def imagesWithin (d : StreamHead) (n : Nat) : List SavedCtx := d.ctxs.takeWhile (fun c => c.imgOfs + c.imgLen ≤ n)

/-- Binds and allocates one context (R389); it stands FROZEN. -/
def bindCtx (p : Nat) (c : SavedCtx) (bytes : List Byte) (l : List Placement) (rings : List (Nat × Nat)) (s : State) :
    Option State :=
  let (im, _, _) := parseImage s.tts.duskMargin bytes
  match restorePlace s.grade im c.srcPlacement l with
  | none => none
  | some i =>
    match ctxMemory s p c.weightsOf (l.getD i {}) with
    | .error _ => none
    | .ok (b, dram) =>
      let ring := fun n => ((rings.find? (fun r => r.1 = n)).map (fun r => r.2)).getD 0xFFFF
      let x : Context :=
        { state := .frozen, part := p, prio := c.prio, pinned := bit c.flags 0, depth := c.depth, subRing := ring c.subRing,
          doneRing := ring c.doneRing, weightsOf := c.weightsOf, img := im, imgBytes := bytes, places := l, place := i,
          bind := b, dram := dram, queue := c.subs.map (fun u => submissionOf u.2 u.1),
          rng := { seed := c.seed, step := c.step, pendSeed := c.pendSeed, pendStep := c.pendStep } }
      some (zeroRegions c.index x (updSrv (fun v => { v with ctxs := tabPut v.ctxs c.index x }) s))

/-- Binds all contexts, those with weights of their own first. -/
def bindCtxs (p : Nat) (rings : List (Nat × Nat)) : List (SavedCtx × List Byte × List Placement) → State → Option State
  | [], s => some s
  | (c, bytes, l) :: r, s => (bindCtx p c bytes l rings s).bind (bindCtxs p rings r)

/-- A saved ring under its new number. -/
def savedRing (p : Nat) (r : SavedRing) : Ring :=
  { base := r.base, log2 := r.log2, toHost := r.toHost, cls := r.cls, vector := r.vector, part := p, slot := r.slot,
    fnVf := r.fnVf, hostIdx := r.hostIdx, devIdx := r.devIdx }

/-- Recreates a ring under the number chosen, where there was one. -/
def restoreRing (p : Nat) (r : SavedRing) (x : Option Nat × State) : List (Nat × Nat) × State :=
  match x.1 with
  | none => ([], x.2)
  | some n => ([(r.number, n)], x.2.setRings (tabPut x.2.rings n (savedRing p r)))

/-- Recreates the rings in turn; which device-wide numbers they take is open. -/
def restoreRings (p : Nat) : List SavedRing → State → List (Nat × Nat) × State
  | [], s => ([], s)
  | r :: rest, s =>
    let x := restoreRing p r (pickFree 4096 (fun n => tabHas s.rings n) s)
    let y := restoreRings p rest x.2
    (x.1 ++ y.1, y.2)

/-- An object as it was saved. -/
def savedObj (p : Nat) (o : SavedObj) : SyncObj :=
  { type := o.type, orphaned := bit o.flags 0, distributed := bit o.flags 1, home := bit o.flags 2, part := p,
    value := if o.type = 1 then o.value else 0, set := o.type = 2 && bit o.value 0,
    count := if o.type = 3 then o.value else 0, limit := o.limit, holder := o.holder, holderStep := o.holderStep,
    participants := o.participants, arrived := o.arrived, job := o.job, phase := o.phase, homeDev := o.homeDev,
    members := o.members, initial := o.initial }

/-- A mutex that a restored context holds is one of its holdings (R438). -/
def holdMutexes (l : List SavedObj) (s : State) : State :=
  l.foldl (fun s o => if o.type = 4 && o.holder ≠ 0xFFFF then setHolding o.holder o.index (some 1) s else s) s

/-- Everything a restore takes at img_end: rings, objects, identities, mode, contexts. -/
def bindRestore (p : Nat) (r : RestoreRun) (s : State) : Option State :=
  let d := r.head
  let all := d.ctxs.zip r.imgs
  let order := all.filter (fun c => c.1.weightsOf = 0xFFFF) ++ all.filter (fun c => c.1.weightsOf ≠ 0xFFFF)
  let (rings, s1) := restoreRings p d.rings s
  let s1 := updSyn (fun y => { y with objs := d.objects.foldl (fun t o => tabPut t o.index (savedObj p o)) y.objs }) s1
  let s1 := updPart p (fun x => { x with jobs := d.jobs, restore := some { r with bound := true } }) s1
  (bindCtxs p rings order s1).map (holdMutexes d.objects)

/-- Where each region stands in the stream: (context, lregion, kind, length) with its offset. -/
def regionOffsets (at_ : Nat) : List (Nat × Nat × Nat × Nat) → List (Nat × (Nat × Nat × Nat × Nat))
  | [] => []
  | r :: rest => (at_, r) :: regionOffsets (at_ + r.2.2.2) rest

/-- Copies one source region to its place: as it stands, or through the extents of the remap list (R389). -/
def copyRegion (r : RestoreRun) (src : Nat) (s : State) (e : Nat × (Nat × Nat × Nat × Nat)) : State :=
  let (ofs, c, lr, kind, len) := e
  let x := ctxOf s c
  if x.place = src then storeBytes (regionAt c lr kind 0) (plainBytes r.key r.data ofs len) s
  else
    let ext := ((((x.places.getD x.place {}).remaps.find? (fun m => m.1 = src)).map (fun m => m.2)).getD []).filter
      (fun m => m.srcRegion = lr && m.kind = kind)
    ext.foldl (fun s m => storeBytes (regionAt c m.dstRegion kind m.dstOfs) (plainBytes r.key r.data (ofs + m.srcOfs) m.len) s) s

/-- The regions and the HDM share of a stream come to stand (R389). -/
def copyStream (p : Nat) (r : RestoreRun) (s : State) : State :=
  let d := r.head
  let srcs := (d.ctxs.zip r.imgs).map (fun c => (c.1.index, decide (c.1.weightsOf = 0xFFFF), c.2.2.getD c.1.srcPlacement {}))
  let regs := regionOffsets d.imgEnd (savedRegions srcs)
  let srcOf := fun c => ((d.ctxs.find? (fun x => x.index = c)).map (fun x => x.srcPlacement)).getD 0
  let s := regs.foldl (fun s e => copyRegion r (srcOf e.2.1) s e) s
  let total := (savedRegions srcs).foldl (fun n e => n + e.2.2.2) 0
  if d.hdm then hdmWrite (partOf s p).hdmBase (plainBytes r.key r.data (d.imgEnd + up4k total) d.hdmLen) s else s

/-- A refusal up to img_end: the target is ACTIVE and empty again (R388). -/
def restoreRefused (h p : Nat) (st : Status) (payload : List Byte) (s : State) : State :=
  finishOp h st payload (partTo p .active 3 (updPart p (fun x => { x with restore := none }) s))

/-- The last chunk: with the digest the partition is FROZEN, else it is reset (R388, R372). -/
def restoreLast (h p : Nat) (r : RestoreRun) (s : State) : State :=
  if digestHolds r then
    let s := updPart p (fun x => { x with restore := none }) (copyStream p r s)
    finishOp h .success [] (partTo p .frozen 0 s)
  else beginReset p false 3 (finishOp h .imageRejected [] s)

/-- RESTORE_CHUNK_DONE: the chunk is accepted. `places` are the placements that the records of the step images complete by now
give (assumption 3); the images are the stream's bytes. -/
def restoreChunkDone (h : Nat) (places : List (List Placement)) (s : State) : State :=
  match opOf s h with
  | none => s
  | some o =>
    let p := o.obj
    if o.opcode ≠ 0x0207 || o.finished then s else
    match (partOf s p).restore with
    | none => s
    | some r0 =>
      let r := { r0 with data := r0.data ++ hdmRead s (o.args.getD 0 0) (o.args.getD 2 0) }
      let ready := imagesWithin r.head r.data.length
      let fresh := ((List.range ready.length).zip ready).drop r.imgs.length |>.map (fun c =>
        (c.2, plainBytes r.key r.data c.2.imgOfs c.2.imgLen, places.getD c.1 []))
      let put := fun (r : RestoreRun) => updPart p (fun x => { x with restore := some r })
      if r.bound then
        if r.head.len ≤ r.data.length then restoreLast h p r (put r s) else finishOp h .success [] (put r s)
      else match imagesStatus s p fresh with
      | (.success, _) =>
        let r := { r with imgs := r.imgs ++ fresh.map (fun c => c.2) }
        if r.data.length < r.head.imgEnd then finishOp h .success [] (put r s)
        else match bindRestore p r (put r s) with
        | none => restoreRefused h p .noResource [] s
        | some t => if r.head.len ≤ r.data.length then restoreLast h p { r with bound := true } t
                    else finishOp h .success [] t
      | (st, c) => restoreRefused h p st (if st = .restoreShape then leBytes 2 c else []) s

def execRestoreChunkDone (h : Nat) (places : List (List Placement)) (s : State) : Host.Outcome State Fault Refusal :=
  run (h < 64) "handle" (restoreChunkDone h places s)

end Sys2Proof.Machine
end

