-- ==== Sys2Proof/Machine/Cancel.lean ====
section
/-!
DEFINITION. CANCEL (R34, R35, R392): which long operations it ends and the state each leaves.
-/
namespace Sys2Proof.Machine

/-- A cancelled CTX_RESIDE: only the named operation ends; with no other pending and nothing at the head of the queue the
context is LOADED again and its shares are free for others (R35, R344). -/
def cancelReside (h c : Nat) (s : State) : State :=
  let s := finishOp h .cancelled [] s
  if (opOn s 0x0503 c).isSome || !(ctxOf s c).queue.isEmpty then s else serve (ctxTo c .loaded 0 s)

/-- A cancelled save chunk: what stands of it in the manager area by then is open (assumption 2). -/
def cancelSave (h : Nat) (o : LongOp) (s : State) : State :=
  match (partOf s o.obj).save with
  | none => finishOp h .cancelled [] s
  | some v =>
    let ofs := o.args.getD 1 0
    let n := min (o.args.getD 2 0) (v.len - ofs)
    let (r, s) := drawFree s
    finishOp h .cancelled [] (hdmWrite (o.args.getD 0 0) ((streamCipher s o.obj v ofs n).take (r % (n + 1))) s)

/-- What CANCEL makes of a running operation, none where it cannot be cancelled (R35). -/
def cancelOp (h : Nat) (o : LongOp) (s : State) : Option State :=
  if o.opcode = 0x0440 then
    some (finishOp h .cancelled [] (updTts (fun t => { t with loads := tabDel t.loads h }) s))
  else if o.opcode = 0x0500 then
    some (finishOp h .cancelled [] (updSrv (fun v => { v with creating := tabDel v.creating h }) s))
  else if o.opcode = 0x0502 then some (cancelWrite h s)
  else if o.opcode = 0x0503 then
    if (ctxOf s o.obj).state = .residing then some (cancelReside h o.obj s) else none
  else if o.opcode = 0x0204 then
    some (resumePart o.obj (partTo o.obj .active 0 (finishOp h .cancelled [] s)))
  else if o.opcode = 0x0206 then some (cancelSave h o s)
  else if o.opcode = 0x0207 then some (beginReset o.obj false 0 (finishOp h .cancelled [] s))
  else none

def cancelBody (q : Req) (s : State) : State × Reply :=
  match opOf s (pl q 0 2) with
  | none => failed .badField s
  | some o =>
    if !opVisible q.m o then failed .badField s
    else if o.finished then failed .notPermitted s
    else match cancelOp (pl q 0 2) o s with
    | none => failed .notPermitted s
    | some t => (t, reply .success)

def execCancel (m : Nat) (s : State) : Host.Outcome State Fault Refusal :=
  run (m < 80) "mailbox" (runCommand 0x0102 m cancelBody s)

end Sys2Proof.Machine
end

