-- ==== Sys2Proof/Machine/Health.lean ====
section
/-!
DEFINITION. Faults and resets (chapter 16): the meanings of HLT_RESET, HLT_WINDOWS and STEP_LEDGER_BIND, hangs, the ends and
escalations of resets, the decay of the penalty, stragglers and the step ledger.
-/
namespace Sys2Proof.Machine

/-! ### Context resets (R459) -/

/-- Step 6 of R459: the step ends without commit, the intake resumes, RESET_DONE. -/
def contextResetDone (c : Nat) (s : State) : State :=
  match tabFind? s.hlt.ctxReset c with
  | none => s
  | some r =>
    let s := endOne c r.status 1 false s
    let s := updCtx c (fun x => { x with held := false }) (updHlt (fun h => { h with ctxReset := tabDel h.ctxReset c }) s)
    let s := post { code := 0x0802, part := (ctxOf s c).part, status := r.status,
                    detail := leBytes 1 0 ++ leBytes 1 0 ++ leBytes 2 c ++ leBytes 2 (statusCode r.status) ++ leBytes 2 0
                      ++ leBytes 8 (s.tmb.free - r.trigger) } s
    settleSteps (finishOpsOn 0x0800 c .success [] s)

/-- CONTEXT_RESET_DONE; during phase B it is part of the grid reset (R463). -/
def execContextResetDone (c : Nat) (s : State) : Host.Outcome State Fault Refusal :=
  run (c < 256) "context" (if inPhaseB s then s else contextResetDone c s)

/-! ### Grid reset (R460, R461) -/

/-- The object under which the operation of a grid reset stands. -/
def gridObj : Nat := 65536

/-- Arms TWIN_MOVE of a cell at corrected tick T for the first slot n with slot_start(n - 2) ≥ T, and its peer by a firmware
message; the comparator and the identity it takes are open. With no comparator free the move is refused. -/
def armMove (p c T : Nat) (s : State) : State :=
  let x := cellOf s p c
  let n0 := slotAt s.win.frameOfs x.cfg.mu x.cfg.ecp T + 2
  let n := (((List.range 3).map (fun i => n0 + i)).find? (fun n => T ≤ cellStart s x (n - 2))).getD (n0 + 3)
  match pickFree 16 (fun k => (noonOf s k).state = .pending) s with
  | (none, s) => stopCell p c s
  | (some k, s) =>
    let (id, s) := drawFree s
    emit (.twinArm x.peerDev x.peerPart x.peerCell T n)
      (setNoon k { tick := T, id := id % 65536, part := p, action := 2, state := .pending, arg := c, arg2 := n } s)

/-- Phase A: cells with a standby move, the others stop; then every running table stops (R460). -/
def phaseA (s : State) : State :=
  let T := corrNow s + 117965
  let s := (s.cells.filter (fun c => c.2.state = .running)).foldl (fun s q =>
    let p := q.1 / 64
    let c := q.1 % 64
    if q.2.role = .active then armMove p c T s else stopCell p c s) s
  (List.range 8).foldl (fun s k =>
    let t := tableOf s k
    if t.state ≠ .running then s else
    let moves := (s.cells.filter (fun c => c.1 / 64 = t.part)).filterMap (fun c =>
      ((armedMove s t.part (c.1 % 64)).orElse (fun _ => c.2.moveTo)).map (fun n => tStart s t n))
    stopTable k (moves.foldl max (corrNow s)) s) s

/-- The bound of phase A (R460). -/
def phaseABound (s : State) : Nat :=
  let mus := ((List.range 8).filter (fun k => (tableOf s k).state = .running)).map (fun k => (tableOf s k).mu)
  match mus.min? with
  | none => 0
  | some m => 118989 + 11796480 / 2 ^ m

/-- Begins a grid reset; a second trigger is absorbed (R463). -/
def beginGridReset (handle : Option Nat) (s : State) : State :=
  if s.hlt.grid.isSome then s
  else phaseA (updHlt (fun h => { h with
    grid := some { trigger := s.tmb.free, bound := phaseABound s, handle := handle },
    gridResets := ctrInc h.gridResets }) s)

/-- Every store zero-filled; a word rewritten is readable again (R460, R465). The byte ranges are those of assumption 6. -/
def zeroStores (s : State) : State :=
  let a := arrayAt 0 0
  let n := seqAt 0 - a
  updHlt (fun h => { h with bad := h.bad.filter (fun b => b < a || a + n ≤ b) }) (s.setMem (memZero s.mem a n))

/-- Every unit stopped and cleared, every scoreboard entry zero: produced, consumed and the producer's shadow. -/
def clearGrid (s : State) : State :=
  let s := updGrd (fun g => { g with
    units := [], sb := g.sb.map (fun e => (e.1, { e.2 with produced := 0, consumed := 0, shadow := 0, lens := [] })) }) s
  ((s.setTiles []).setCde { s.cde with engines := [] }).setTts { s.tts with lent := [], ready := [], waiting := [] }

/-- The last table reservation has ended: phase B resets compute (R460). -/
def gridResetPhaseB (s : State) : State :=
  match s.hlt.grid with
  | none => s
  | some g =>
    if g.phaseB.isSome || anyTableRuns s then s else
    let s := updHlt (fun h => { h with grid := some { g with phaseB := some s.tmb.free } }) s
    let cs := (s.srv.ctxs.filter (fun c => c.2.step.isSome || tabHas s.hlt.ctxReset c.1)).map (fun c => c.1)
    let s := cs.foldl (fun s c => contextResetDone c (resetContext c .aborted none s)) s
    zeroStores (clearGrid s)

def execGridResetPhaseB (s : State) : Host.Outcome State Fault Refusal := run true "" (gridResetPhaseB s)

/-- Phase B ends: units whose checks failed leave service, lending and background work resume, RESET_DONE. Resets of
contexts that fell in phase B end with it (R460, R463). -/
def gridResetDone (failed : List Nat) (s : State) : State :=
  match s.hlt.grid with
  | none => s
  | some g =>
    if g.phaseB.isNone then s else
    let s := failed.foldl (fun s u => unitFault u s) s
    let s := (s.hlt.ctxReset.map (fun r => r.1)).foldl (fun s c => contextResetDone c s) s
    let s := updHlt (fun h => { h with grid := none }) s
    let s := post { code := 0x0802,
                    detail := leBytes 1 1 ++ leBytes 1 0 ++ leBytes 2 0xFFFF ++ leBytes 2 0 ++ leBytes 2 0
                      ++ leBytes 8 (s.tmb.free - g.trigger) } s
    finishOpsOn 0x0800 gridObj .success [] s

/-- GRID_RESET_DONE; the checks are of quadrants and tiles. -/
def execGridResetDone (failed : List Nat) (s : State) : Host.Outcome State Fault Refusal :=
  run (failed.all (fun u => (isQuad u || isTile u) && unitExists s.grade u)) "unit" (gridResetDone failed s)

/-- RESET_OVERRUN (R463): a context reset beyond its bound begins a grid reset; a phase B beyond its bound takes the device
out. -/
def resetOverrun (ctx : Option Nat) (s : State) : State :=
  match ctx with
  | some c =>
    match tabFind? s.hlt.ctxReset c with
    | some r =>
      if s.hlt.grid.isSome || s.tmb.free ≤ r.trigger + 78643 then s
      else beginGridReset none (fault { code := 0xD, part := (ctxOf s c).part, reset := 2, owner := c } s)
    | none => s
  | none =>
    match s.hlt.grid with
    | some { phaseB := some b, .. } =>
      if s.hlt.leaving || s.tmb.free ≤ b + 3932160 then s
      else updHlt (fun h => { h with leaving := true }) (fault { code := 0xD, reset := 4 } s)
    | _ => s

def execResetOverrun (ctx : Option Nat) (s : State) : Host.Outcome State Fault Refusal :=
  run (ctx.all (fun c => decide (c < 256))) "context" (resetOverrun ctx s)

/-! ### Device reset (R462) -/

/-- A device reset begins: leaving, no heartbeats, every link dropped, then Dawn (the DAWN command), before which the device
is out of service. Every Noon arming is dropped (R76). What else a device reset loses is lost when Dawn runs. -/
def beginDeviceReset (s : State) : State :=
  let s := updHlt (fun h => { h with leaving := true }) s
  let s := updFab (fun f => { f with ports := f.ports.map (fun p => (p.1, { p.2 with link := false })) }) s
  let s := updFh (fun h => { h with macs := h.macs.map (fun m => (m.1, { m.2 with link := false })) }) s
  let s := s.setNoon []
  let s := s.setDev { s.dev with dawnDone := false, lanes := 0, rate := 0 }
  s.setMgt { s.mgt with mode := .off, step := 0, cause := 0, pwrOk := false }

/-! ### HLT_RESET, HLT_WINDOWS (R477, R478) -/

def hltResetBody (q : Req) (s : State) : State × Reply :=
  let scope := pl q 0 1
  let c := pl q 2 2
  if 2 < scope then failed .badField s
  else if isVf q.m && scope ≠ 0 then failed .notPermitted s
  else if scope = 2 then (s, reply .success)
  else if scope = 1 then longOp q gridObj [1] (fun h s => beginGridReset (some h) s) s
  else match ctxArg q s c with
  | some st => failed st s
  | none => longOp q c [0] (fun h s => resetContext c .aborted (some h) s) s

/-- HLT_RESET at device scope has been accepted: its response is written before the reset begins. -/
def hltDevice (m : Nat) (s : State) : Bool :=
  match (mbxOf s m).taken with
  | none => false
  | some c => c.opcode = 0x0800 && (generalCheck m c s).isNone && !isVf m && field c.payload 0 1 = 2

def execHltReset (m : Nat) (s : State) : Host.Outcome State Fault Refusal :=
  run (m < 80) "mailbox"
    (let t := runCommand 0x0800 m hltResetBody s
     if hltDevice m s then beginDeviceReset t else t)

/-- HLT_WINDOWS; 0 keeps the present window (R457, R458, R477). -/
def hltWindowsBody (q : Req) (s : State) : State × Reply :=
  let r := pl q 0 4
  let i := pl q 4 4
  if (r ≠ 0 && (r < 19661 || 3932160 < r)) || (i ≠ 0 && (i < 41287680 || 1966080000 < i)) then failed .badField s
  else if r ≠ 0 && (loadedTables s).any (fun t => r ≤ t.tmpl.longestWait) then failed .notPermitted s
  else (updHlt (fun h => { h with radioWindow := if r = 0 then h.radioWindow else r,
                                  inferenceWindow := if i = 0 then h.inferenceWindow else i }) s, reply .success)

def execHltWindows (m : Nat) (s : State) : Host.Outcome State Fault Refusal :=
  run (m < 80) "mailbox" (runCommand 0x0801 m hltWindowsBody s)

/-! ### Hangs (R457) -/

/-- A unit of a running radio stage whose counter has not moved for radio_window: the stage is stopped and failed. -/
def radioHang (u : Nat) (s : State) : State :=
  match (unitRun s u).holder with
  | .radio k n p =>
    let moved := (tabGet s.hlt.progress u (0, 0)).2
    let live := ((resvOf s k n p).map (fun r => r.ended.isNone)).getD false
    if !live || isEndpoint u || s.tmb.free < moved + s.hlt.radioWindow then s
    else
      let r := { unitRec s u with code := 6, status := some .hung }
      fault r (failStage k n p 2 u s)
  | _ => s

def execRadioHang (u : Nat) (s : State) : Host.Outcome State Fault Refusal :=
  runOn (unitExists s.grade u) "unit" u (run true "" (radioHang u s))

/-- A batch step that neither commits nor ends within inference_window: the context is reset with HUNG. -/
def inferenceHang (c : Nat) (s : State) : State :=
  match (ctxOf s c).step with
  | none => s
  | some r =>
    if s.tmb.free < r.start + s.hlt.inferenceWindow || tabHas s.hlt.ctxReset c then s
    else resetContext c .hung none
      (fault { code := 6, status := some .hung, part := (ctxOf s c).part, reset := 1, owner := c } s)

def execInferenceHang (c : Nat) (s : State) : Host.Outcome State Fault Refusal :=
  run (c < 256) "context" (inferenceHang c s)

/-! ### The penalty (R467) -/

/-- At every second of the free counter the penalty falls by ceil(penalty / 64). -/
def healthDecay (s : State) : State :=
  if s.tmb.free / 1966080000 ≤ s.hlt.decayAt then s
  else healthReport (updHlt (fun h => { h with penalty := h.penalty - cdiv h.penalty 64, decayAt := h.decayAt + 1 }) s)

def execHealthDecay (s : State) : Host.Outcome State Fault Refusal := run true "" (healthDecay s)

/-! ### Stragglers and the step ledger (R475, R476) -/

def stepLedgerBody (q : Req) (s : State) : State × Reply :=
  let c := pl q 0 2
  let job := pl q 4 4
  if pl q 16 8 % 8 ≠ 0 || (job ≠ 0 && !(partOf s q.target).jobs.contains job) then failed .badField s else
  match ctxArg q s c with
  | some st => failed st s
  | none =>
    if (ctxOf s c).step.isSome then failed .contextState s
    else
      let b : Option LedgerBind := if job = 0 then none
        else some { job := job, device := pl q 8 2, addr := pl q 16 8, slowAfter := pl q 24 4 }
      (updCtx c (fun x => { x with bindLedger := b }) s, reply .success)

def execStepLedgerBind (m : Nat) (s : State) : Host.Outcome State Fault Refusal :=
  run (m < 80) "mailbox" (runCommand 0x0820 m stepLedgerBody s)

/-- The last CAS that a context's commit has sent. -/
def casTag (s : State) (c : Nat) : Option TagRec :=
  let mine := (s.fab.tags.map (fun t => t.2)).filter (fun t => t.origin = .ledger c)
  mine.find? (fun t => mine.all (fun u => u.order ≤ t.order))

/-- The outcome of the CAS decides the step (R475). It is due once its tag has an outcome, with the status and old value
that this has. -/
def ledgerCasResult (c status old : Nat) (s : State) : State :=
  match (ctxOf s c).step, casTag s c with
  | some r, some t =>
    if !r.cas || t.state = .issued || statusCode t.status ≠ status || t.result ≠ old then s else
    let k := (ctxOf s c).rng.step
    let s := updFab (fun b => { b with tags := b.tags.filter (fun u => u.2.origin ≠ .ledger c || u.2.state = .issued) }) s
    if t.status ≠ .success then endStep c t.status false s
    else if old = k then commitStep c s
    else if k < old then settleSteps (updCtx c (fun x => { x with rng := { x.rng with step := old } }) (endOne c .aborted 4 false s))
    else endStep c .badField false s
  | _, _ => s

def execLedgerCasResult (c status old : Nat) (s : State) : Host.Outcome State Fault Refusal :=
  run (c < 256 && old < 2 ^ 64) "context" (ledgerCasResult c status old s)

/-- A bound step that has not committed by start + slow_after posts STEP_SLOW once (R476). -/
def stepSlow (c : Nat) (s : State) : State :=
  match (ctxOf s c).step, (ctxOf s c).bindLedger with
  | some r, some b =>
    if r.slow || b.slowAfter = 0 || s.tmb.free < r.start + b.slowAfter then s
    else
      let k := (ctxOf s c).rng.step
      post { code := 0x0804, part := (ctxOf s c).part,
             detail := leBytes 2 c ++ leBytes 2 0 ++ leBytes 8 k ++ leBytes 8 r.start }
        (updStep c (fun r => { r with slow := true }) s)
  | _, _ => s

def execStepSlow (c : Nat) (s : State) : Host.Outcome State Fault Refusal := run (c < 256) "context" (stepSlow c s)

end Sys2Proof.Machine
end

