-- ==== Sys2Proof/Machine/Power.lean ====
section
/-!
DEFINITION. Power, ageing and background work (chapter 17): the control period, clock steps, input and thermal events, trips,
PWR_CAP and BG_CONFIG, the background items and their strides.
-/
namespace Sys2Proof.Machine

/-! ### Voltage and margin (R484, R491 to R493) -/

/-- v_fuse of clock step k (2 000 MHz + 25 k) in mV: within the bounds of R492, not falling as k rises; which value is the
part's (Config.fuse). -/
def vFuse : Nat → Nat
  | 0 => 600 + Config.fuse 0 % 201
  | k + 1 => vFuse k + Config.fuse (k + 1) % (851 - vFuse k)

/-- The clock step of a frequency. -/
def clockStep (f : Nat) : Nat := (f - 2000) / 25

/-- The largest delta of the regions in use. -/
def maxDelta (p : Power) : Nat := (p.delta.filter (fun d => !p.regionsOut.contains d.1)).foldl (fun n d => max n d.2) 0

/-- v_req of a clock step, and of a region at 2 000 MHz. -/
def vReq (p : Power) (k : Nat) : Nat := vFuse k + maxDelta p
def regionReq (p : Power) (r : Nat) : Nat := vFuse 0 + tabGet p.delta r 0

/-- The highest step with v_req at most 0.850 V; 2 000 MHz where no step has. -/
def fMaxOf (p : Power) : Nat := 2000 + 25 * (((List.range 17).filter (fun k => vReq p k ≤ 850)).foldl max 0)

/-! ### Events, the log, trips (R483, R490, R500) -/

/-- Writes the power and thermal log of 64 events, and tells the management controller of the entry (R483, R518). -/
def logPower (sensor : Nat) (value : Int) (s : State) : State :=
  let l := s.mgt.log ++ [(s.tmb.free, sensor, toBits 16 value)]
  emit (.platformEvent sensor (toBits 16 value)) (s.setMgt { s.mgt with log := l.drop (l.length - 64) })

/-- Posts PWR_LIMIT and logs it. -/
def powerLimit (cause sensor : Nat) (value : Int) (s : State) : State :=
  post { code := 0x0806, detail := leBytes 1 cause ++ leBytes 1 sensor ++ leInt 2 value } (logPower sensor value s)

/-- A trip: THERMTRIP, leaving, heartbeats stop, every rail but VSTBY off; DRAM contents are lost (R490). The rails are off
within 10 µs: here, at once. -/
def trip (sensor : Nat) (value : Int) (s : State) : State :=
  if s.pwr.tripped then s else
  let s := beginDeviceReset (logPower sensor value s)
  let s := s.setMgt { s.mgt with thermtrip := true }
  updPwr (fun p => { p with tripped := true }) (s.setMem {})

/-! ### The control period (R484, R486 to R489, R498) -/

/-- The cap in force, in W. -/
def capOf (s : State) : Nat := if s.pwr.cap = 0 then gradeTdp s.grade else s.pwr.cap

/-- Sensors with number, temperature, threshold for holding lending (0: none) and for a trip, in 1/16 °C (R489, R500). -/
def sensorList (v : Sensors) : List (Nat × Int × Nat × Nat) :=
  (List.range 64).map (fun k => (k, v.grid.getD k (-32768), 105 * 16, 115 * 16))
  ++ (List.range 8).map (fun k =>
    let t := v.pkg.getD k (-32768)
    if k < 4 then (64 + k, t, 95 * 16, 105 * 16) else if k < 6 then (64 + k, t, 105 * 16, 115 * 16) else (64 + k, t, 0, 125 * 16))

/-- What the sensors read: those of an absent region or stack read 0x8000 (R489, R498). -/
def present (g : Grade) (v : Sensors) : Sensors :=
  { v with grid := v.grid.take (16 * gradeArrays g),
           pkg := (List.range 8).map (fun k => if k < 4 && gradeArrays g ≤ k then -32768 else v.pkg.getD k (-32768)) }

/-- The first sensor at its trip. -/
def tripped (v : Sensors) : Option (Nat × Int) :=
  ((sensorList v).find? (fun x => decide ((x.2.2.2 : Int) ≤ x.2.1))).map (fun x => (x.1, x.2.1))

/-- The sensors that hold lending: from their threshold until 3 °C below it. -/
def holding (v : Sensors) (old : List Nat) : List Nat :=
  ((sensorList v).filter (fun x => x.2.2.1 ≠ 0
    && (decide ((x.2.2.1 : Int) ≤ x.2.1) || (old.contains x.1 && decide ((x.2.2.1 : Int) - 48 < x.2.1))))).map (fun x => x.1)

/-- The hottest of a list of temperatures. -/
def hottest (l : List Int) : Int := l.foldl max (-32768)

/-- The thermal request (R489). -/
def thermRequest (v : Sensors) (f : Nat) : Nat :=
  let t := hottest v.grid
  if 95 * 16 < t then max 2000 (f - 25) else if t ≤ 92 * 16 then min 2400 (f + 25) else f

/-- The cap loop: the cap request and lend_duty (R486); a power die above 110 °C lowers lend_duty as well, and between 107 and
110 °C it does not rise (R489). -/
def capLoop (cap : Nat) (v : Sensors) (f duty : Nat) : Nat × Nat :=
  let die := hottest (v.pkg.drop 6)
  let (f', d') :=
    if 4 * cap < v.pIn then (if 2000 < f then (f - 25, duty) else (f, duty - 8))
    else if 100 * v.pIn < 392 * cap then
      (if duty < 64 then (f, if 107 * 16 < die then duty else min 64 (duty + 4)) else (min 2400 (f + 25), duty))
    else (f, duty)
  (f', if 110 * 16 ≤ die then d' - 8 else d')

/-- The stacks with doubled refresh: from 85 °C to 3 °C below it (R489). -/
def refreshed (v : Sensors) (old : List Nat) : List Nat :=
  (List.range 4).filter (fun k =>
    let t := v.pkg.getD k (-32768)
    decide (85 * 16 ≤ t) || (old.contains k && decide (82 * 16 < t)))

/-- VCORE at the present tick, on its way from one value to the next at 10 mV per 3 933 Tc (R484). -/
def vcoreNow (s : State) : Nat :=
  let p := s.pwr
  let moved := (s.tmb.free - p.vAt) / 3933 * 10
  if p.vFrom ≤ p.vcore then min p.vcore (p.vFrom + moved) else max p.vcore (p.vFrom - moved)

/-- Starts VCORE on its way to a value. -/
def setVcore (v : Nat) (s : State) : State :=
  let now := vcoreNow s
  updPwr (fun p => { p with vFrom := now, vAt := s.tmb.free, vcore := v }) s

/-- Moves the clock towards its target by at most one step: down at once, with VCORE after it; up once VCORE has settled. -/
def moveClock (target : Nat) (s : State) : State :=
  let f := s.grd.clock
  if s.pwr.stepTo.isSome || target = f then s
  else if target < f then
    setVcore (vReq s.pwr (clockStep (f - 25))) (updGrd (fun g => { g with clock := f - 25 }) s)
  else
    let v := vReq s.pwr (clockStep (f + 25))
    let settled := s.tmb.free + cdiv (v - vcoreNow s) 10 * 3933
    updPwr (fun p => { p with stepTo := some (f + 25), vTick := settled }) (setVcore (max s.pwr.vcore v) s)

/-- The power mirror as it would be taken now (R498), at a multiple of 8 below 0x130. -/
def powerLive (s : State) (o : Nat) : Nat :=
  let p := s.pwr
  let w := fun (l : List Int) i n => (List.range 4).foldl (fun a j =>
    if i + j < n then a + toBits 16 (l.getD (i + j) (-32768)) * 65536 ^ j else a) 0
  if o = 0x000 then p.gen
  else if o = 0x008 then p.tick
  else if o = 0x010 then p.last.pIn % 65536 + p.last.vIn % 65536 * 2 ^ 16 + p.last.iIn % 65536 * 2 ^ 32 + capOf s * 2 ^ 48
  else if o = 0x018 then s.grd.clock + p.fMax * 2 ^ 12 + p.fCap * 2 ^ 24 + p.fTherm * 2 ^ 36 + vcoreNow s * 2 ^ 48
  else if o = 0x020 then p.lendDuty + b2n p.uvWarn * 128 + b2n (!p.holds.isEmpty) * 256 + b2n (decide (100 ≤ p.unmetRun)) * 512
  else if 0x028 ≤ o && o < 0x038 then w ((List.range 7).map (fun k => Int.ofNat (p.last.dom.getD k 0))) ((o - 0x028) / 2) 7
  else if 0x040 ≤ o && o < 0x0C0 then w p.last.grid ((o - 0x040) / 2) 64
  else if 0x0C0 ≤ o && o < 0x0D0 then w p.last.pkg ((o - 0x0C0) / 2) 8
  else if 0x0D0 ≤ o && o < 0x0E8 then
    let r := fun i => if i < 4 && gradeArrays s.grade ≤ i then 0 else regionReq p i + tabGet p.delta i 0 * 65536
    r ((o - 0x0D0) / 4) + r ((o - 0x0D0) / 4 + 1) * 2 ^ 32
  else if o = 0x100 then p.energy
  else if o = 0x108 then ctrWord p.capHeld
  else if o = 0x110 then ctrWord p.bgSquashed
  else if o = 0x118 then ((s.bg.passStart.map (fun x => x.2)).min?).getD 0
  else if o = 0x120 then s.bg.lastPass
  else if o = 0x128 then ((s.bg.checkDone.map (fun x => x.2)).min?).getD 0
  else 0

/-- The snapshot of the mirror that a control period takes. -/
def powerWords (s : State) : List Nat := (List.range 38).map (fun i => powerLive s (8 * i))

/-- The power mirror as the host reads it: the last snapshot, before the first the values of reset (R498). -/
def powerReg (s : State) (o : Nat) : Nat :=
  if s.pwr.snap.isEmpty then
    if o = 0x010 then gradeTdp s.grade * 2 ^ 48 else if o = 0x018 then 2400 * (2 ^ 12 + 2 ^ 24 + 2 ^ 36)
    else if o = 0x020 then 64 else 0
  else s.pwr.snap.getD (o / 8) 0

/-- CONTROL_PERIOD, at a free tick that is a multiple of 1 ms: the target of the requests as they stand, then the loop, the
thermal limits and the mirror. -/
def controlPeriod (v : Sensors) (s : State) : State :=
  let v := present s.grade v
  let t := s.tmb.free / 1966080 * 1966080
  if !s.dev.dawnDone || s.pwr.tripped || t ≤ s.pwr.periodStart then s else
  match tripped v with
  | some (k, x) => trip k x s
  | none =>
    let p := s.pwr
    let target := max 2000 (min (min p.fCap p.fTherm) (min p.fMaxNext (if p.uvWarn then 2000 else 2400)))
    let was := s.grd.clock
    let s := moveClock target s
    let s := updPwr (fun p => { p with cap := p.capNext.getD p.cap, capNext := none, fMax := p.fMaxNext }) s
    let (f, d) := capLoop (capOf s) v p.fCap p.duty
    let above := 4 * capOf s < v.pIn && was = 2000 && p.lendDuty = 0
    let holds := holding v p.holds
    let s := updPwr (fun q => { q with
      fCap := f, duty := d, fTherm := thermRequest v q.fTherm, holds := holds,
      lendDuty := if p.uvWarn || !holds.isEmpty then 0 else d, hotStacks := refreshed v q.hotStacks,
      unmetRun := if above then q.unmetRun + 1 else 0, periodStart := t, lentBusy := 0,
      gen := q.gen + 2, tick := s.tmb.free, last := v, energy := q.energy + v.energy }) s
    let s := updPwr (fun q => { q with snap := powerWords s }) s
    let s := if above && p.unmetRun + 1 = 100 then powerLimit 1 0xFF 0 s else s
    let temp := fun k => (((sensorList v).find? (fun x => x.1 = k)).map (fun x => x.2.1)).getD 0
    if p.holds.isEmpty && !holds.isEmpty then powerLimit 3 (holds.headD 0xFF) (temp (holds.headD 0xFF)) s
    else if !p.holds.isEmpty && holds.isEmpty then powerLimit 4 (p.holds.headD 0xFF) (temp (p.holds.headD 0xFF)) s
    else s

def execControlPeriod (v : Sensors) (s : State) : Host.Outcome State Fault Refusal :=
  run (v.grid.length ≤ 64 && v.pkg.length ≤ 8 && v.dom.length ≤ 7) "sensors" (controlPeriod v s)

/-- VCORE has settled: the step up follows (R484). -/
def clockStepUp (s : State) : State :=
  match s.pwr.stepTo with
  | none => s
  | some f =>
    if s.tmb.free < s.pwr.vTick then s
    else updPwr (fun p => { p with stepTo := none }) (updGrd (fun g => { g with clock := f }) s)

def execClockStepUp (s : State) : Host.Outcome State Fault Refusal := run true "" (clockStepUp s)

/-! ### The input (R481) -/

/-- The input is measured below 40 V: PWR_LIMIT once; below 36 V the 100 µs of a power fault begin. -/
def inputUndervoltage (vIn : Nat) (s : State) : State :=
  if 4000 ≤ vIn then s else
  let s := updPwr (fun p => { p with below36 := if vIn < 3600 then some (p.below36.getD s.tmb.free) else none }) s
  if s.pwr.uvWarn then s else powerLimit 2 0xFF vIn (updPwr (fun p => { p with uvWarn := true }) s)

def execInputUndervoltage (vIn : Nat) (s : State) : Host.Outcome State Fault Refusal :=
  run (vIn < 32768) "voltage" (inputUndervoltage vIn s)

/-- The input is measured above 41 V again. -/
def inputRestored (vIn : Nat) (s : State) : State :=
  if !s.pwr.uvWarn || vIn ≤ 4100 then s
  else powerLimit 5 0xFF vIn (updPwr (fun p => { p with uvWarn := false, below36 := none }) s)

def execInputRestored (vIn : Nat) (s : State) : Host.Outcome State Fault Refusal :=
  run (vIn < 32768) "voltage" (inputRestored vIn s)

/-- The input has stayed below 36 V for 100 µs: a power fault, handled as a trip (R481, R490). -/
def powerFault (vIn : Nat) (s : State) : State :=
  match s.pwr.below36 with
  | some t => if 3600 ≤ vIn || s.tmb.free < t + 196608 then s else trip 0xFF vIn s
  | none => s

def execPowerFault (vIn : Nat) (s : State) : Host.Outcome State Fault Refusal :=
  run (vIn < 32768) "voltage" (powerFault vIn s)

/-! ### PWR_CAP, BG_CONFIG (R499) -/

def pwrCapBody (q : Req) (s : State) : State × Reply :=
  let w := pl q 0 2
  if w ≠ 0 && (w < gradeCapMin s.grade || gradeTdp s.grade < w) then failed .badField s
  else (updPwr (fun p => { p with capNext := some w }) s, reply .success)

def execPwrCap (m : Nat) (s : State) : Host.Outcome State Fault Refusal :=
  run (m < 80) "mailbox" (runCommand 0x0830 m pwrCapBody s)

def updBg (f : Background → Background) (s : State) : State := s.setBg (f s.bg)

def bgConfigBody (q : Req) (s : State) : State × Reply :=
  let w := pl q 0 4
  let d := pl q 4 4
  if w = 0 || d = 0 then failed .zeroNotAllowed s
  else if w < 4000 || 196608 < w || d < 19660800 || 1966080000 < d || !gapsRemain s (loadedTables s) w then failed .badField s
  else (tablesChanged (updBg (fun b => { b with next := some (w, d) }) s), reply .success)

def execBgConfig (m : Nat) (s : State) : Host.Outcome State Fault Refusal :=
  run (m < 80) "mailbox" (runCommand 0x0831 m bgConfigBody s)

/-- STRIDE_START: the stride in progress ends and the next begins, under the settings configured (R496, R499). Its windows come
as the SEAL commands of table 8. -/
def strideStart (s : State) : State :=
  let at_ := s.bg.strideStart + s.bg.stride
  if s.tmb.free < at_ then s
  else updBg (fun b => { b with strideStart := at_, window := (b.next.map (fun n => n.1)).getD b.window,
                                stride := (b.next.map (fun n => n.2)).getD b.stride, next := none }) s

def execStrideStart (s : State) : Host.Outcome State Fault Refusal := run true "" (strideStart s)

/-! ### Background items (R189, R217, R492 to R495) -/

/-- The guarantee deadline of an item on a unit. -/
def bgDeadline (s : State) (u : Nat) (i : BgItem) : Nat :=
  if passGranules s.grade i = 0 then tabGet s.bg.checkDone (bgKey u i) 0 + 2 * halfHour
  else tabGet s.bg.passStart (bgKey u i) 0 + 2 * halfDay

/-- Whether the scheduler could launch lent work on a unit now. -/
def lentWants (s : State) (u : Nat) : Bool :=
  !lendHeld s && s.tts.ready.any (fun m => m.units.contains u && mayLend s m && admits s m && letsBlock s m)

/-- Whether an item may start on a unit now: in a background window that its bound fits, due items before lent work and that
before ordinary items, the earliest guarantee deadline first (R217, R495). -/
def bgMayStart (s : State) (u : Nat) (i : BgItem) : Bool :=
  match resvOn s u with
  | none => false
  | some r =>
    let fits := fun j => bgRunsOn u j && s.tmb.free + bgBound j ≤ r.finish
    let mine := allItems.filter (fun j => fits j && bgDue s u j == bgDue s u i)
    r.entry.kind = 1 && (unitRun s u).holder = .idle && inService s u && !inPhaseB s && fits i
      && (bgDue s u i || (!dueReady s u && !lentWants s u)) && mine.all (fun j => bgDeadline s u i ≤ bgDeadline s u j)

def backgroundItemStart (u : Nat) (i : BgItem) (s : State) : State :=
  if bgMayStart s u i then updUnit u (fun _ => { holder := .item i s.tmb.free }) s else s

def execBackgroundItemStart (u : Nat) (item : BgItem) (s : State) : Host.Outcome State Fault Refusal :=
  runOn (unitExists s.grade u) "unit" u (run true "" (backgroundItemStart u item s))

/-- Counts corrected errors; each 4 096 of them weigh 1 (R467). -/
def correctedErrors (n : Nat) (s : State) : State :=
  let old := s.hlt.corrected.val
  let s := updHlt (fun h => { h with corrected := ctrAdd h.corrected n }) s
  if s.hlt.corrected.val / 4096 = old / 4096 then s else healthAdd (s.hlt.corrected.val / 4096 - old / 4096) s

/-- Posts AGEING. -/
def ageing (region cause : Nat) (s : State) : State :=
  post { code := 0x0807, detail := leBytes 1 region ++ leBytes 1 cause ++ leBytes 2 s.pwr.fMaxNext ++ leBytes 2 (vReq s.pwr 0) } s

/-- A region whose requirement at 2 000 MHz exceeds 0.850 V (R493): an array region's units leave service; for the coding or
control region the device leaves. -/
def regionOut (s : State) (r : Nat) : State :=
  if s.pwr.regionsOut.contains r || regionReq s.pwr r ≤ 850 then s else
  let s := ageing r 2 s
  if r < 4 then
    let us := (List.range 0xF0).filter (fun u => (isQuad u || isTile u || isMover u) && unitRegion u = r && unitExists s.grade u)
    us.foldl (fun s u => unitFault u s) (updPwr (fun p => { p with regionsOut := p.regionsOut ++ [r] }) s)
  else
    updHlt (fun h => { h with leaving := true }) (fault { code := 8, reset := 4 }
      (updPwr (fun p => { p with regionsOut := p.regionsOut ++ [r] }) s))

/-- A measurement: no delta decreases; then f_max, the warning and the regions beyond their limit (R492, R493). -/
def measured (ds : List (Nat × Nat)) (s : State) : State :=
  let s := updPwr (fun p => { p with delta := ds.foldl (fun t d => tabUpd t d.1 0 (max d.2)) p.delta }) s
  let worst := ((s.pwr.delta.find? (fun d => d.2 = maxDelta s.pwr)).map (fun d => d.1)).getD 0
  let s := (ds.map (fun d => d.1)).foldl regionOut s
  let f := fMaxOf s.pwr
  let low := f < s.pwr.fMaxNext
  let s := setVcore (max s.pwr.vcore (vReq s.pwr (clockStep s.grd.clock))) (updPwr (fun p => { p with fMaxNext := f }) s)
  let s := if low then ageing worst 3 s else s
  if !s.pwr.warned && 830 < vReq s.pwr 0 then ageing worst 1 (updPwr (fun p => { p with warned := true }) s) else s

/-- Uncorrectable words that a scrub meets: recorded and counted (R465). -/
def scrubBad (u : Nat) (s : State) (a : Nat) : State :=
  let s := updHlt (fun h => { h with bad := if h.bad.contains a then h.bad else h.bad ++ [a] }) s
  fault { code := 7, status := some .uncorrectable, unit := u, addr := a } s

/-- The scrubs of all units of the grade, as keys. -/
def scrubKeys (g : Grade) : List Nat :=
  ((List.range 0xF0).filter (unitExists g)).flatMap (fun u =>
    (allItems.filter (fun i => bgRunsOn u i && passGranules g i ≠ 0)).map (bgKey u))

/-- An item is done: its pass or its check (R495, R498). -/
def bgDone (u : Nat) (i : BgItem) (s : State) : State :=
  let k := bgKey u i
  let now := s.tmb.free
  if passGranules s.grade i = 0 then updBg (fun b => { b with checkDone := tabPut b.checkDone k now }) s
  else
    let n := tabGet s.bg.passDone k 0 + 1
    if n < passGranules s.grade i then updBg (fun b => { b with passDone := tabPut b.passDone k n }) s
    else
      let passed := if s.bg.passed.contains k then s.bg.passed else s.bg.passed ++ [k]
      let wide := (scrubKeys s.grade).all passed.contains
      updBg (fun b => { b with
        passDone := tabPut b.passDone k 0, passStart := tabPut b.passStart k now,
        passed := if wide then [] else passed, wideStart := if wide then now else b.wideStart,
        lastPass := if wide then now - b.wideStart else b.lastPass }) s

/-- BACKGROUND_ITEM_END: what the item met, its account, and the unit free again. -/
def backgroundItemEnd (u : Nat) (r : BgResult) (s : State) : State :=
  match (unitRun s u).holder with
  | .item i _ =>
    let s := bgDone u i (clearUnits [u] s)
    let s := r.uncorrectable.foldl (scrubBad u) (correctedErrors r.corrected s)
    let s := if r.failed && (i = .generatorCheck || i = .datapathCheck) then unitFault u s else s
    if i = .ageing then measured (r.deltas.filter (fun d => d.1 = unitRegion u || (unitRegion u = 0 && (d.1 = 4 || d.1 = 5)))) s
    else s
  | _ => s

def execBackgroundItemEnd (u : Nat) (r : BgResult) (s : State) : Host.Outcome State Fault Refusal :=
  runOn (unitExists s.grade u) "unit" u
    (run (r.deltas.all (fun d => d.1 < 6 && d.2 % 5 = 0)) "delta" (backgroundItemEnd u r s))

end Sys2Proof.Machine
end

