-- ==== Sys2Proof/Machine/Dawn.lean ====
section
/-!
DEFINITION. Dawn (chapter 18, R502 to R514, R522), its triggers and stops, the return of the reference, and the entropy source.
-/
namespace Sys2Proof.Machine

def updMgt (f : Mgmt → Mgmt) (s : State) : State := s.setMgt (f s.mgt)

/-! ### The boot flash (R506 to R510, R534) -/

def flashAt (s : State) (a n : Nat) : List Byte := memReadBytes s.mgt.flash a n
def blobBase : Nat := 0x01010000
def blobSize : Nat := 30720
def headerSize : Nat := 32768

/-- Checks 1 to 3 of R507 on an image header. -/
def imageHeadOk (s : State) (h : List Byte) : Bool :=
  let slot := field h 5 1
  let svn := field h 6 1
  let body := field h 18 4
  field h 0 4 = 0x5746444B && field h 4 1 = 1 && 1 ≤ body && body ≤ 16777216 && svn ≤ 64 && field h 7 1 ≤ svn
    && slot ≤ 3 && tabFind? s.mgt.keySlots slot = some (shake256 ((h.drop 32).take 64) 64) && !s.mgt.revoked.contains slot
    && s.mgt.svn ≤ svn

/-- The checks of R510 on a blob; `sigOk` tells whether its signature verifies. -/
def blobOk (s : State) (b : List Byte) (sigOk : Bool) : Bool :=
  let digest := shake256 ((b.drop 16).take 64) 64
  let key := match s.mgt.owner with
    | some o => digest = o
    | none => s.mgt.keySlots.any (fun k => k.2 = digest && !s.mgt.revoked.contains k.1)
  field b 0 1 = 1 && key && sigOk && (!bit (field b 1 1) 0 || (b.drop 8).take 8 = shake256 Config.identityKey 8)

/-! ### The sequence (R502 to R504) -/

/-- What a device reset leaves: everything is lost but the flash, the fuses and the management domain (R464, R483). -/
def coldState (s : State) : State :=
  { grade := s.grade, dev := { radioCuMax := gradeCu s.grade }, tap := s.tap, out := s.out, fresh := s.fresh,
    pending := s.pending,
    mgt := { s.mgt with thermtrip := false, pwrOk := false, meas := [], aliasCert := [], spdm := [], signing := none } }

/-- Dawn stops (R504). While it waits for the reference the rails stay up. -/
def dawnStop (mode : DawnMode) (step cause : Nat) (s : State) : State :=
  updMgt (fun g => { g with mode := mode, step := step, cause := cause, pwrOk := decide (mode = .waiting) }) (coldState s)

/-- det_sig (R450). -/
def detSig (opt numlib tableset : Nat) : Nat :=
  let v := leNat (shake256 ([0x4B, 0x44, 0x53, 0x31] ++ leBytes 1 1 ++ leBytes 1 opt ++ leBytes 2 numlib ++ leBytes 4 tableset
    ++ leBytes 4 0) 8)
  if v = 0 then 1 else v

/-- The measurements of R513. -/
def measurements (env : DawnEnv) (s : State) (head body blob : List Byte) : Tab (List Byte) :=
  let fuses := Config.fuseImage s.mgt.svn (s.mgt.keySlots.flatMap (fun k => k.2) ++ s.mgt.revoked.map (BitVec.ofNat 8)
    ++ s.mgt.owner.getD [])
  [(1, env.romDigest), (2, shake256 fuses 64), (3, shake256 (head.take 96 ++ body) 64), (4, shake256 (blob.take 16) 64),
   (5, leBytes 8 s.syn.sig ++ leBytes 8 (s.syn.numlib + s.syn.tableset * 65536))]

/-- Steps 7 to 9: the image configures the device, and dawn_done. -/
def dawnService (env : DawnEnv) (head body blob : List Byte) (s : State) : State :=
  let units := field blob 2 1
  let modes := field blob 3 2
  let opt := bits (field blob 5 1) 2 0
  let numlib := field head 12 2
  let tables := field head 14 4
  let s := s.setDev { s.dev with hdmSize := (if units = 0 then 256 else units) * 268435456, fwVersion := field head 8 3 }
  let s := linkTraining env.lanes env.rate s
  let s := updPwr (fun p => { p with vcore := vReq p 0, vFrom := vReq p 0 }) s
  let s := measured env.deltas (env.failedUnits.foldl (fun s u => unitFault u s) s)
  let s := updGrd (fun g => { g with opt := { e5m2Inf := bit opt 0, h16Sat := bit opt 1, b16Sat := bit opt 2, locked := true } }) s
  let s := s.setSyn { s.syn with sig := detSig opt numlib tables, numlib := numlib, tableset := tables }
  let s := updFh (fun h => { h with modes := (List.range 8).map (fun n => (n, bits modes (2 * n + 1) (2 * n))) }) s
  let s := updTts (fun t => { t with tables := tabPut t.tables 8 { state := .running } }) s
  let (k, s) := drawEntropy s
  let s := updMgt (fun g => { g with
    mode := .service, step := 9, cause := 0, pwrOk := true, imageVerified := true, devKey := k, aliasCert := env.aliasCert,
    meas := measurements env s head body blob, svn := max g.svn (field head 7 1) }) s
  let s := s.setTel { s.tel with clearTick := s.tmb.free }
  s.setDev { s.dev with dawnDone := true }

/-- Dawn from step 3 on, the reference locked: the free counter starts at 0. Dawn is one step of the model: dawn_done is set in
the tick in which the counter starts. -/
def dawnFrom3 (env : DawnEnv) (s : State) : State :=
  let head := flashAt s 0 headerSize
  let blob := flashAt s blobBase blobSize
  let body := flashAt s headerSize (field head 18 4)
  if !env.flashAnswers then dawnStop .recovery 4 5 s
  else if !blobOk s blob env.blobSigOk then dawnStop .recovery 4 4 s
  else if !imageHeadOk s head then dawnStop .recovery 4 5 s
  else if !env.entropyOk then dawnStop .halted 5 7 s
  else if !env.memoryOk then dawnStop .halted 5 6 s
  else if !env.imageSigOk then updMgt (fun g => { g with imageVerified := false }) (dawnStop .recovery 6 5 s)
  else dawnService env head body blob (s.setTmb { s.tmb with pllLocked := true })

/-- Dawn from its trigger: straps are sampled, then the steps. -/
def dawnRun (env : DawnEnv) (s : State) : State :=
  let s := updMgt (fun g => { g with env := env, straps := env.straps, entropyOk := env.entropyOk }) (coldState s)
  if !env.identityOk then dawnStop .halted 1 1 s
  else if !env.railsOk then dawnStop .halted 2 2 s
  else if !env.refLocked then dawnStop .waiting 3 3 s
  else dawnFrom3 env s

/-- DAWN: due after a trigger, with the CXL reset input deasserted, and not after a trip (R502, R490, R529). -/
def dawn (env : DawnEnv) (s : State) : State :=
  if s.mgt.mode ≠ .off || s.mgt.perst || s.pwr.tripped then s else dawnRun env s

/-- The form of what Dawn meets: the digests of its ROMs, failed units of the grade, deltas of regions, link widths. -/
def dawnEnvOk (g : Grade) (env : DawnEnv) : Bool :=
  env.romDigest.length = 64 && env.failedUnits.all (fun u => (isQuad u || isTile u) && unitExists g u)
    && env.deltas.all (fun d => d.1 < 6 && d.2 % 5 = 0) && env.straps < 256
    && (env.lanes = 4 || env.lanes = 8 || env.lanes = 16) && (env.rate = 16 || env.rate = 32 || env.rate = 64)

def execDawn (env : DawnEnv) (s : State) : Host.Outcome State Fault Refusal :=
  run (dawnEnvOk s.grade env) "environment" (dawn env s)

/-! ### Triggers and the reference (R50, R504, R505, R530) -/

/-- The reference returns: REF_LOST with lost = 0; a Dawn that waits for it resumes at step 3. -/
def refReturn (s : State) : State :=
  if s.mgt.mode = .waiting then dawnFrom3 s.mgt.env s
  else if !s.tmb.refLost then s
  else post { code := 0x0304, detail := leBytes 1 0 } (updTmb (fun t => { t with refLost := false }) s)

def execRefReturn (s : State) : Host.Outcome State Fault Refusal := run true "" (refReturn s)

/-- CXL_PERST# asserted: a device reset in service or while Dawn waits; no effect while halted, in recovery or after a trip. -/
def perstAssert (s : State) : State :=
  let s := updMgt (fun g => { g with perst := true }) (s.setTap { s.tap with heldOff := false })
  if s.pwr.tripped || s.mgt.mode = .halted || s.mgt.mode = .recovery || s.mgt.mode = .off then s else beginDeviceReset s

def execCxlPerstAssert (s : State) : Host.Outcome State Fault Refusal := run true "" (perstAssert s)

/-- Whether a boundary-scan instruction that drives the lands is in effect (R536). -/
def tapDrives (s : State) : Bool := s.tap.ir = .extest || s.tap.ir = .clamp || s.tap.ir = .highz

/-- CXL_PERST# deasserted; held off while such an instruction is in effect (R536). -/
def perstDeassert (s : State) : State :=
  if !s.mgt.perst then s
  else if tapDrives s then s.setTap { s.tap with heldOff := true }
  else updMgt (fun g => { g with perst := false }) s

def execCxlPerstDeassert (s : State) : Host.Outcome State Fault Refusal := run true "" (perstDeassert s)

/-- VSTBY is lost: everything is, but flash and fuses; the next rise of both supplies is a new trigger (R505, R530). -/
def vstbyLoss (s : State) : State :=
  let kept : Mgmt := { flash := s.mgt.flash, imageVerified := s.mgt.imageVerified, svn := s.mgt.svn,
                       keySlots := s.mgt.keySlots, revoked := s.mgt.revoked, owner := s.mgt.owner }
  ((coldState s).setTap {}).setMgt kept

def execVstbyLoss (s : State) : Host.Outcome State Fault Refusal := run true "" (vstbyLoss s)

/-- The entropy source's tests fail, or pass again (R512). -/
def execEntropyTestFailure (s : State) : Host.Outcome State Fault Refusal :=
  run true "" (updMgt (fun g => { g with entropyOk := false }) s)
def execEntropyTestsPass (s : State) : Host.Outcome State Fault Refusal :=
  run true "" (updMgt (fun g => { g with entropyOk := true }) s)

end Sys2Proof.Machine
end

