-- ==== Sys2Proof/Machine/Member.lean ====
section
/-!
DEFINITION. Membership (chapter 16, R468 to R474): heartbeats and suspicions, the two-phase agreement, the expulsion budget,
Twilight, and what the adoption of an epoch does. Devices are numbered 0 to 63 within the domain.
-/
namespace Sys2Proof.Machine

def updMbr (f : Membership → Membership) (s : State) : State := s.setMbr (f s.mbr)

/-- This device within its domain. -/
def selfDev (s : State) : Nat := s.fab.device % 64

/-- A set of devices as a bitmap, and back. -/
def devBits (l : List Nat) : Nat := l.foldl (fun n d => Nat.lor n (2 ^ (d % 64))) 0
def devList (b : Nat) : List Nat := (List.range 64).filter (bit b)

/-! ### Suspicions (R468, R469) -/

/-- Whether this device suspects member e: silent, unhealthy, or named. -/
def suspects (s : State) (e : Nat) : Bool :=
  e ≠ selfDev s && (s.mbr.silent.contains e || s.mbr.named.contains e
    || ((tabFind? s.mbr.heard e).map (fun h => decide (h.beat.health < s.mbr.suspectBelow))).getD false)

/-- The suspicions of this device, as its heartbeat carries them. -/
def mySuspects (s : State) : List Nat := s.mbr.members.filter (suspects s)

/-- Members that hold a suspicion of e, by the heartbeats this device holds. -/
def suspectCount (s : State) (e : Nat) : Nat :=
  (s.mbr.members.filter (fun m =>
    if m = selfDev s then suspects s e else (tabGet s.mbr.heard m {}).beat.suspects.contains e)).length

/-- A majority of the current epoch. -/
def majority (s : State) : Nat := s.mbr.members.length / 2 + 1

/-- Members that a majority suspects. -/
def suspected (s : State) : List Nat := s.mbr.members.filter (fun e => majority s ≤ suspectCount s e)

/-- The coordinator: the lowest member that no majority suspects. -/
def coordinator (s : State) : Option Nat := (s.mbr.members.filter (fun e => !(suspected s).contains e)).min?

/-! ### What a coordinator proposes (R469, R471, R473, R474) -/

/-- Whether the budget lets an unhealthy member go. -/
def budgetAllows (s : State) : Bool :=
  s.mbr.outstanding < s.mbr.budgetMax
    && (s.mbr.lastUnhealthy = 0 || s.mbr.lastUnhealthy + s.mbr.budgetPeriod ≤ corrNow s)

/-- Members in Twilight whose bit an epoch may clear: no majority suspects them, and their health has reached resume_above
or MEMBER_SUSPECT has cleared their naming (R474). -/
def mayResume (s : State) : List Nat :=
  s.mbr.twilightSet.filter (fun e => !(suspected s).contains e
    && (s.mbr.resumeAbove ≤ (if e = selfDev s then healthScore s.hlt.penalty else (tabGet s.mbr.heard e {}).beat.health)
      || s.mbr.unnamed.contains e))

/-- The proposal for the present suspicions: silent members go; of the unhealthy ones one goes while the budget allows, the
others get their twilight bit. None when nothing changes. -/
def wanted (s : State) : Option Proposal :=
  let m := s.mbr
  let quiet := (suspected s).filter m.silent.contains
  let ill := (suspected s).filter (fun e => !m.silent.contains e)
  let out := if budgetAllows s then ill.take 1 else []
  let stay := ill.filter (fun e => !out.contains e)
  let clear := mayResume s
  let gone := quiet ++ out
  let members := m.members.filter (fun e => !gone.contains e)
  let dusk := members.filter (fun e => (m.twilightSet.contains e || stay.contains e) && !clear.contains e)
  let base : Proposal := { epoch := m.epoch + 1, members := members, twilight := dusk, outstanding := m.outstanding + gone.length,
                           lastUnhealthy := if out.isEmpty then m.lastUnhealthy else corrNow s }
  let first := fun (l : List Nat) => l.headD 0xFFFF
  if !quiet.isEmpty then some { base with changed := first quiet, cause := 1 }
  else if !out.isEmpty then some { base with changed := first out, cause := 2 }
  else match m.joining with
  | some (_, d) =>
    if m.members.contains d then none
    else some { base with members := insertBy (fun a b => a < b) d members, outstanding := m.outstanding - 1, changed := d, cause := 3 }
  | none =>
    let set := stay.filter (fun e => !m.twilightSet.contains e)
    if !set.isEmpty then some { base with changed := first set, cause := 4 }
    else if !clear.isEmpty then some { base with changed := first clear, cause := 5 }
    else none

/-! ### Adoption of an epoch (R470, R472 to R474, R312, R313) -/

/-- A device outside the domain: EXCLUDED, and it destroys each cell that has a twin (R470, R313). -/
def exclude (s : State) : State :=
  if !s.mbr.member then s else
  let s := fault { code := 0xE } (updMbr (fun m => { m with member := false, round := none }) s)
  (s.cells.filter (fun c => c.2.role ≠ .unpaired)).foldl (fun s c => destroyCell (c.1 / 64) (c.1 % 64) s) s

/-- Twilight begins: running steps end, queued submissions are answered (R474). A step whose CAS has gone is outside (R475). -/
def enterTwilight (s : State) : State :=
  if s.dev.twilight then s else
  let s := s.setDev { s.dev with twilight := true }
  settleSteps ((s.srv.ctxs.map (fun c => c.1)).foldl (fun s c =>
    let cas := ((ctxOf s c).step.map (fun r => r.cas)).getD false
    dropNotStarted c .twilight (if cas then s else endOne c .twilight 4 false s)) s)

/-- Standbys whose active's device has gone take over from corrected tick E (R312). -/
def takeOvers (gone : List Nat) (e : Nat) (s : State) : State :=
  (s.cells.filter (fun c => c.2.state = .standby && c.2.peerDev / 64 = s.fab.device / 64 && gone.contains (c.2.peerDev % 64))).foldl
    (fun s c => takeOver (c.1 / 64) (c.1 % 64) e s) s

/-- Adopts a proposal that has committed at corrected tick E, and posts EPOCH; the lost cells it names are reported. -/
def adopt (p : Proposal) (e : Nat) (s : State) : State :=
  if p.epoch ≤ s.mbr.epoch then s else
  let me := selfDev s
  let gone := s.mbr.members.filter (fun d => !p.members.contains d)
  let join := s.mbr.joining
  let s := updHlt (fun h => { h with expulsions := ctrAdd h.expulsions gone.length }) s
  let s := updMbr (fun m => { m with
    epoch := p.epoch, members := p.members, twilightSet := p.twilight, outstanding := p.outstanding,
    lastUnhealthy := p.lastUnhealthy, promised := 0, lastProposal := none, round := none,
    silent := m.silent.filter p.members.contains, unnamed := m.unnamed.filter p.twilight.contains,
    joining := m.joining.filter (fun j => !p.members.contains j.2) }) s
  let s := post { code := 0x0803, detail := leBytes 8 p.epoch ++ leBytes 8 (devBits p.members) ++ leBytes 8 (devBits p.twilight)
                    ++ leBytes 2 p.changed ++ leBytes 1 p.cause } s
  let s := if p.members.contains me then takeOvers gone e s else exclude s
  let s := p.lost.foldl (fun s l => post { code := 0x0402, detail := leBytes 1 l.1 ++ leBytes 1 l.2.1 ++ leBytes 2 0
                                             ++ leBytes 8 p.epoch ++ leBytes 8 l.2.2 } s) s
  let s := match join with
    | some (h, d) => if p.members.contains d then finishOp h .success [] s else s
    | none => s
  if p.twilight.contains me then enterTwilight s else s.setDev { s.dev with twilight := false }

/-! ### The agreement (R469) -/

/-- Every other device of a list. -/
def others (s : State) (l : List Nat) : List Nat := l.filter (· ≠ selfDev s)

/-- Sends to every device of a list. -/
def sendAll (l : List Nat) (o : Nat → Out) (s : State) : State := s.setOut (s.out ++ l.map o)

/-- With acceptances from a majority the coordinator sends COMMIT and adopts. -/
def tryCommit (s : State) : State :=
  match s.mbr.round with
  | some { sent := some p, accepted := a, .. } =>
    if a.length < majority s then s
    else
      let e := corrNow s
      let all := s.mbr.members ++ p.members.filter (fun d => !s.mbr.members.contains d)
      adopt p e (sendAll (others s all) (fun d => .commit d p e) s)
  | _ => s

/-- The proposal returned with the highest round, if any. -/
def highestReturned (l : List (Nat × Option Proposal)) : Option Proposal :=
  let ps := l.filterMap (fun x => x.2)
  ps.find? (fun p => ps.all (fun q => q.round ≤ p.round))

/-- With promises from a majority the coordinator proposes, and accepts its own proposal unless it has promised more. -/
def tryPropose (s : State) : State :=
  match s.mbr.round with
  | some r =>
    if r.sent.isSome || r.promises.length < majority s then s
    else
      let base := (highestReturned r.promises).getD r.want
      let p : Proposal := { base with epoch := s.mbr.epoch + 1, round := r.round }
      let own := decide (s.mbr.promised ≤ r.round)
      let s := updMbr (fun m => { m with
        round := some { r with sent := some p, accepted := if own then [selfDev s] else [] },
        lastProposal := if own then some p else m.lastProposal }) s
      tryCommit (sendAll (others s s.mbr.members) (fun d => .proposal d p) s)
  | none => s

/-- Begins a round for a proposal: PREPARE to every other member, and its own promise. -/
def startRound (p : Proposal) (s : State) : State :=
  let n := s.mbr.promised + 1
  let s := updMbr (fun m => { m with
    promised := n, round := some { round := n, started := s.tmb.free, want := p, promises := [(selfDev s, m.lastProposal)] } }) s
  let ep := s.mbr.epoch + 1
  tryPropose (sendAll (others s s.mbr.members) (fun d => .prepare d ep n) s)

/-- Starts what is wanted: the coordinator for suspicions, the device that a MEMBER_JOIN reached for its join. -/
def consider (s : State) : State :=
  if !s.mbr.member || s.mbr.round.isSome || s.hlt.leaving then s
  else if coordinator s = some (selfDev s) || s.mbr.joining.isSome then
    match wanted s with
    | some p => startRound p s
    | none => s
  else s

/-! ### The rows -/

/-- The heartbeat this device sends at tick h. -/
def ownBeat (s : State) (h : Nat) : Beat :=
  { sender := selfDev s, epoch := s.mbr.epoch, tick := h, health := healthScore s.hlt.penalty, twilight := s.dev.twilight,
    suspects := mySuspects s }

/-- Members silent at heartbeat tick h: none of the heartbeats due at h - 3p, h - 2p and h - p has arrived. -/
def silentAt (s : State) (h : Nat) : List Nat :=
  let p := s.mbr.period
  (others s s.mbr.members).filter (fun e => s.mbr.joined + 3 * p ≤ h
    && [1, 2, 3].all (fun i => !(tabGet s.mbr.heard e {}).ticks.contains (h - i * p)))

/-- HEARTBEAT_SEND, at a corrected tick that is a multiple of the period: judges silent members, sends to every other
member; a device that hears no majority is outside (R468, R470). -/
def heartbeatSend (s : State) : State :=
  let h := corrNow s / max 1 s.mbr.period * s.mbr.period
  if !s.mbr.member || s.hlt.leaving || !s.dev.dawnDone || h = s.mbr.sentAt then s else
  let s := updMbr (fun m => { m with sentAt := h, silent := silentAt s h }) s
  let s := sendAll (others s s.mbr.members) (fun d => .heartbeat d (ownBeat s h)) s
  if majority s ≤ s.mbr.silent.length then exclude s else consider s

def execHeartbeatSend (s : State) : Host.Outcome State Fault Refusal := run true "" (heartbeatSend s)

/-- HEARTBEAT: what its sender says of itself and of others. -/
def heartbeat (b : Beat) (s : State) : State :=
  consider (updMbr (fun m => { m with
    heard := tabPut m.heard b.sender { beat := b, ticks := (b.tick :: (tabGet m.heard b.sender {}).ticks).take 8 } }) s)

def execHeartbeat (b : Beat) (s : State) : Host.Outcome State Fault Refusal :=
  run (b.sender < 64 && b.health ≤ 1000) "device" (heartbeat b s)

/-- PREPARE: a member promises the highest round it has seen and returns the proposal it last accepted. -/
def prepare (src epoch round : Nat) (s : State) : State :=
  if !s.mbr.member || epoch ≠ s.mbr.epoch + 1 || round ≤ s.mbr.promised then s
  else emit (.promise src epoch round s.mbr.lastProposal) (updMbr (fun m => { m with promised := round }) s)

def execPrepare (src epoch round : Nat) (s : State) : Host.Outcome State Fault Refusal :=
  run (src < 64) "device" (prepare src epoch round s)

/-- PROMISE, at the coordinator of the round. -/
def promise (src epoch round : Nat) (last : Option Proposal) (s : State) : State :=
  match s.mbr.round with
  | some r =>
    if epoch ≠ s.mbr.epoch + 1 || round ≠ r.round || r.sent.isSome || !s.mbr.members.contains src
        || r.promises.any (fun x => x.1 = src) then s
    else tryPropose (updMbr (fun m => { m with round := some { r with promises := r.promises ++ [(src, last)] } }) s)
  | none => s

def execPromise (src epoch round : Nat) (last : Option Proposal) (s : State) : Host.Outcome State Fault Refusal :=
  run (src < 64) "device" (promise src epoch round last s)

/-- A proposal: accepted unless a higher round has been promised. -/
def proposal (src : Nat) (p : Proposal) (s : State) : State :=
  if !s.mbr.member || p.epoch ≠ s.mbr.epoch + 1 || p.round < s.mbr.promised then s
  else emit (.acceptance src p.epoch p.round) (updMbr (fun m => { m with promised := p.round, lastProposal := some p }) s)

def execProposal (src : Nat) (p : Proposal) (s : State) : Host.Outcome State Fault Refusal :=
  run (src < 64) "device" (proposal src p s)

/-- An acceptance, at the coordinator of the round. -/
def acceptance (src epoch round : Nat) (s : State) : State :=
  match s.mbr.round with
  | some r =>
    if epoch ≠ s.mbr.epoch + 1 || round ≠ r.round || r.sent.isNone || !s.mbr.members.contains src || r.accepted.contains src then s
    else tryCommit (updMbr (fun m => { m with round := some { r with accepted := r.accepted ++ [src] } }) s)
  | none => s

def execAcceptance (src epoch round : Nat) (s : State) : Host.Outcome State Fault Refusal :=
  run (src < 64) "device" (acceptance src epoch round s)

/-- COMMIT: the new epoch is adopted on receipt. -/
def commit (p : Proposal) (e : Nat) (s : State) : State :=
  if s.mbr.member then consider (adopt p e s) else s

def execCommit (p : Proposal) (e : Tick) (s : State) : Host.Outcome State Fault Refusal :=
  run (p.members.all (fun d => decide (d < 64))) "device" (commit p e s)

/-- A round that has not committed within 786 432 Tc is retried with a higher one. -/
def roundTimeout (s : State) : State :=
  match s.mbr.round with
  | none => s
  | some r =>
    if s.tmb.free < r.started + 786432 then s
    else consider (updMbr (fun m => { m with round := none, promised := max m.promised r.round }) s)

def execRoundTimeout (s : State) : Host.Outcome State Fault Refusal := run true "" (roundTimeout s)

/-! ### Commands (R477, R478) -/

def memberConfigBody (q : Req) (s : State) : State × Reply :=
  let period := pl q 16 4
  let members := devList (pl q 0 8)
  if s.mbr.member && !(others s s.mbr.members).isEmpty then failed .notPermitted s
  else if period = 0 || pl q 20 1 = 0 || pl q 24 8 = 0 then failed .zeroNotAllowed s
  else if !members.contains (selfDev s) || period < 19661 || 1966080 < period || pl q 34 2 ≤ pl q 32 2 then failed .badField s
  else
    (updMbr (fun _ => { member := true, epoch := pl q 8 8, members := members, period := period, budgetMax := pl q 20 1,
                        budgetPeriod := pl q 24 8, suspectBelow := pl q 32 2, resumeAbove := pl q 34 2, joined := corrNow s,
                        sentAt := corrNow s / period * period }) s, reply .success)

def execMemberConfig (m : Nat) (s : State) : Host.Outcome State Fault Refusal :=
  run (m < 80) "mailbox" (runCommand 0x0810 m memberConfigBody s)

/-- MEMBER_QUERY; with no coordinator the field reads 0xFFFF. -/
def memberQueryBody (_q : Req) (s : State) : State × Reply :=
  let c := ((coordinator s).map (fun d => s.fab.device / 64 * 64 + d)).getD 0xFFFF
  (s, { payload := leBytes 8 s.mbr.epoch ++ leBytes 8 (devBits s.mbr.members) ++ leBytes 8 (devBits s.mbr.twilightSet)
          ++ leBytes 2 c ++ leBytes 1 s.mbr.outstanding ++ leBytes 1 0 ++ leBytes 8 s.mbr.lastUnhealthy })

def execMemberQuery (m : Nat) (s : State) : Host.Outcome State Fault Refusal :=
  run (m < 80) "mailbox" (runCommand 0x0811 m memberQueryBody s)

/-- MEMBER_JOIN (R471). For a device that is a member already, or while another join runs, the spec states no status: it is
free. -/
def memberJoinBody (q : Req) (s : State) : State × Reply :=
  let d := pl q 0 2
  if !s.mbr.member then failed .notMember s
  else if d / 64 ≠ s.fab.device / 64 then failed .badField s
  else if s.mbr.members.contains (d % 64) || s.mbr.joining.isSome then
    let (st, s) := drawStatus s
    failed st s
  else longOp q d [] (fun h s => updMbr (fun m => { m with joining := some (h, d % 64) }) s) s

/-- MEMBER_JOIN; its round begins once the response stands. -/
def execMemberJoin (m : Nat) (s : State) : Host.Outcome State Fault Refusal :=
  run (m < 80) "mailbox" (consider (runCommand 0x0812 m memberJoinBody s))

/-- MEMBER_SUSPECT: this device's naming of a member. -/
def memberSuspectBody (q : Req) (s : State) : State × Reply :=
  let d := pl q 0 2
  if !s.mbr.member then failed .notMember s
  else if d / 64 ≠ s.fab.device / 64 || 1 < pl q 2 1 then failed .badField s
  else
    let e := d % 64
    (updMbr (fun m =>
      let rest := m.named.filter (· ≠ e)
      let free := m.unnamed.filter (· ≠ e)
      if pl q 2 1 = 1 then { m with named := rest ++ [e], unnamed := free }
      else { m with named := rest, unnamed := if m.named.contains e then free ++ [e] else free }) s, reply .success)

def execMemberSuspect (m : Nat) (s : State) : Host.Outcome State Fault Refusal :=
  run (m < 80) "mailbox" (consider (runCommand 0x0813 m memberSuspectBody s))

end Sys2Proof.Machine
end

