-- ==== Sys2Proof/Machine/Mgmt.lean ====
section
/-!
DEFINITION. The management port (chapter 18, R515 to R521): vendor commands, PLDM sensors and update, the SPDM responder.
-/
namespace Sys2Proof.Machine

/-- Answers a request on the management port. -/
def answer (st : Nat) (body : List Byte) (s : State) : State := emit (.mgmt st body) s

/-! ### Vendor commands (R520) -/

/-- image_valid: the flash image passes checks 1 to 3 and last verified. -/
def imageValid (s : State) : Bool := s.mgt.imageVerified && imageHeadOk s (flashAt s 0 headerSize)

def dawnState (s : State) : State :=
  answer 0 (leBytes 1 s.mgt.step ++ leBytes 1 s.mgt.cause ++ leBytes 1 (b2n (imageValid s)) ++ leBytes 1 (b2n s.mgt.owner.isSome)
    ++ leBytes 1 s.mgt.svn) s

def execDawnState (s : State) : Host.Outcome State Fault Refusal := run true "" (dawnState s)

/-- DEVICE_RESET: BUSY while an image update or a BLOB_WRITE is in progress (R505). -/
def deviceReset (s : State) : State :=
  if s.mgt.update.isSome || s.mgt.blobBusy then answer (statusCode .busy) [] s
  else
    let s := beginDeviceReset (answer 0 [] s)
    updMgt (fun g => { g with thermtrip := false }) (updPwr (fun p => { p with tripped := false }) s)

def execDeviceReset (s : State) : Host.Outcome State Fault Refusal := run true "" (deviceReset s)

/-- Dawn runs again by itself after a write that a device in recovery has waited for (R504). -/
def leaveRecovery (s : State) : State :=
  if s.mgt.mode = .recovery then updMgt (fun g => { g with mode := .off }) s else s

/-- BLOB_WRITE: the part that ends at byte 30 720 is checked. For a part beyond the region the spec states no status: it is
free, and nothing is written. -/
def blobWrite (offset : Nat) (bytes : List Byte) (sigOk : Bool) (s : State) : State :=
  let stop := offset + bytes.length
  if 1024 < bytes.length then answer (statusCode .badLength) [] s
  else if blobSize < stop then
    let (st, s) := drawStatus s
    answer (statusCode st) [] s
  else
    let s := updMgt (fun g => { g with flash := memWriteBytes g.flash (blobBase + offset) bytes, blobBusy := decide (stop < blobSize) }) s
    if stop < blobSize then answer 0 [] s
    else if blobOk s (flashAt s blobBase blobSize) sigOk then leaveRecovery (answer 0 [] s)
    else answer (statusCode .imageRejected) [] s

def execBlobWrite (offset : Nat) (bytes : List Byte) (sigOk : Bool) (s : State) : Host.Outcome State Fault Refusal :=
  run (offset < 2 ^ 32) "offset" (blobWrite offset bytes sigOk s)

/-- OWNER_ENROL. -/
def ownerEnrol (key : List Byte) (s : State) : State :=
  if key.length ≠ 64 then answer (statusCode .badLength) [] s
  else if s.mgt.owner.isSome then answer (statusCode .notPermitted) [] s
  else answer 0 [] (updMgt (fun g => { g with owner := some (shake256 key 64) }) s)

def execOwnerEnrol (key : List Byte) (s : State) : Host.Outcome State Fault Refusal := run true "" (ownerEnrol key s)

/-- EVENT_LOG_READ: up to 16 entries from one on: tick, sensor, value. -/
def eventLogRead (first : Nat) (s : State) : State :=
  answer 0 (((s.mgt.log.drop first).take 16).flatMap (fun e => leBytes 8 e.1 ++ leBytes 1 e.2.1 ++ leBytes 2 e.2.2)) s

def execEventLogRead (first : Nat) (s : State) : Host.Outcome State Fault Refusal :=
  run (first < 256) "entry" (eventLogRead first s)

/-- Set Endpoint ID (R517). -/
def execSetEndpointId (eid : Nat) (s : State) : Host.Outcome State Fault Refusal :=
  run (eid < 256) "endpoint" (answer 0 [] (updMgt (fun g => { g with eid := eid }) s))

/-! ### PLDM sensors (R518) -/

/-- Offset, high and low bit of field k of the power mirror, in its order. -/
def mirrorField (k : Nat) : Nat × Nat × Nat :=
  let first := [(0x000, 63, 0), (0x008, 63, 0), (0x010, 15, 0), (0x010, 31, 16), (0x010, 47, 32), (0x010, 63, 48), (0x018, 11, 0),
    (0x018, 23, 12), (0x018, 35, 24), (0x018, 47, 36), (0x018, 57, 48), (0x020, 6, 0), (0x020, 7, 7), (0x020, 8, 8), (0x020, 9, 9)]
  let half := fun base i => (base + 2 * i) / 8 * 8
  let lo := fun base i => (base + 2 * i) % 8 * 8
  let word := fun base i => (half base i, lo base i + 15, lo base i)
  if k < 15 then first.getD k (0, 0, 0)
  else if k < 22 then word 0x028 (k - 15)
  else if k < 86 then word 0x040 (k - 22)
  else if k < 94 then word 0x0C0 (k - 86)
  else if k < 100 then word 0x0D0 (2 * (k - 94))
  else if k < 106 then word 0x0D0 (2 * (k - 100) + 1)
  else (0x100 + 8 * (k - 106), 63, 0)

/-- Whether a sensor is present: before step 7 only the Dawn state, the temperatures and the input. -/
def sensorPresent (s : State) : Sensor → Bool
  | .dawnState => true
  | .health => 7 ≤ s.mgt.step
  | .mirror k => 7 ≤ s.mgt.step || (2 ≤ k && k ≤ 4) || (22 ≤ k && k < 94)

/-- A sensor read. For a sensor that is not present the spec states no answer: its code is free. -/
def pldmRead (x : Sensor) (s : State) : State :=
  if !sensorPresent s x then
    let (v, s) := drawFree s
    answer v [] s
  else match x with
  | .dawnState => answer 0 (leBytes 1 s.mgt.step ++ leBytes 1 s.mgt.cause) s
  | .health => answer 0 (leBytes 2 (healthScore s.hlt.penalty)) s
  | .mirror k => let (o, h, l) := mirrorField k; answer 0 (leBytes 8 (bits (powerReg s o) h l)) s

def execPldmSensorRead (sensor : Sensor) (s : State) : Host.Outcome State Fault Refusal :=
  run (match sensor with | .mirror k => decide (k < 112) | _ => true) "sensor" (pldmRead sensor s)

/-! ### PLDM update (R519, R521) -/

/-- ALREADY_IN_UPDATE_MODE of PLDM (assumption 26). -/
def alreadyInUpdate : Nat := 0x81

def requestUpdate (s : State) : State :=
  if s.mgt.update.isSome then answer alreadyInUpdate [] s
  else answer 0 [] (updMgt (fun g => { g with update := some { lastTick := s.tmb.free } }) s)

def execRequestUpdate (s : State) : Host.Outcome State Fault Refusal := run true "" (requestUpdate s)

/-- The header has arrived: checks 1 to 3, then the slot is erased and the header written; or the update ends. -/
def updateHead (head : List Byte) (s : State) : State :=
  if !imageHeadOk s head then answer 1 [] (updMgt (fun g => { g with update := none }) s)
  else updMgt (fun g => { g with
    flash := memWriteBytes (memZero g.flash 0 blobBase) 0 head, imageVerified := false,
    update := some { got := headerSize, lastTick := s.tmb.free } }) s

/-- The last part has been written: VerifyComplete reports check 4; a device in recovery runs Dawn again. -/
def updateVerify (sigOk : Bool) (s : State) : State :=
  let s := answer (b2n (!sigOk)) [] (updMgt (fun g => { g with update := none, imageVerified := sigOk }) s)
  if sigOk then leaveRecovery s else s

/-- RequestFirmwareData: the next part arrives; `sigOk` tells, with the last part, whether the signature verifies. -/
def firmwareData (bytes : List Byte) (sigOk : Bool) (s : State) : State :=
  match s.mgt.update with
  | none => s
  | some u =>
    if u.got < headerSize then
      let head := u.head ++ bytes
      if head.length < headerSize then
        updMgt (fun g => { g with update := some { got := head.length, head := head, lastTick := s.tmb.free } }) s
      else updateHead (head.take headerSize) s
    else
      let stop := headerSize + field (flashAt s 0 headerSize) 18 4
      let part := bytes.take (stop - u.got)
      let s := updMgt (fun g => { g with flash := memWriteBytes g.flash u.got part,
                                         update := some { got := u.got + part.length, lastTick := s.tmb.free } }) s
      if u.got + part.length < stop then s else updateVerify sigOk s

def execRequestFirmwareData (bytes : List Byte) (sigOk : Bool) (s : State) : Host.Outcome State Fault Refusal :=
  run (1 ≤ bytes.length && bytes.length ≤ 4096) "part" (firmwareData bytes sigOk s)

/-- ActivateFirmware: a device reset is needed. -/
def execActivateFirmware (s : State) : Host.Outcome State Fault Refusal := run true "" (answer 0 (leBytes 1 1) s)

/-- FD_T1, 120 s without a part: the update ends. Where the free counter does not run the management domain's own oscillator
judges it. -/
def updateTimeout (s : State) : State :=
  match s.mgt.update with
  | none => s
  | some u =>
    if s.tmb.pllLocked && s.tmb.free < u.lastTick + 120 * 1966080000 then s
    else updMgt (fun g => { g with update := none }) s

def execUpdateIdleTimeout (s : State) : Host.Outcome State Fault Refusal := run true "" (updateTimeout s)

/-! ### SPDM (R514 to R516) -/

def transportKey : Transport → Nat | .mctp => 0 | .doe => 1

def spdmOf (s : State) (t : Transport) : Spdm := tabGet s.mgt.spdm (transportKey t) {}
def updSpdm (t : Transport) (f : Spdm → Spdm) (s : State) : State :=
  updMgt (fun g => { g with spdm := tabUpd g.spdm (transportKey t) {} f }) s

/-- A response; the codes are those of SPDM 1.3 (assumption 26). -/
def spdmSay (t : Transport) (code : Nat) (body : List Byte) (s : State) : State := emit (.spdm t code body) s
def spdmError (t : Transport) (code : Nat) (s : State) : State := spdmSay t 0x7F (leBytes 1 code) s

/-- Runs a request once the responder is open (R503 step 8): before that no request is answered. -/
def spdmRun (ok : Bool) (t : Transport) (f : State → State) (s : State) : State :=
  if s.mgt.mode ≠ .service then s else if ok then f s else spdmError t 4 s

def execGetVersion (t : Transport) (s : State) : Host.Outcome State Fault Refusal :=
  run true "" (spdmRun true t (fun s => spdmSay t 0x04 (leBytes 2 0x1300) (updSpdm t (fun _ => { version := true }) s)) s)

/-- CERT_CAP, CHAL_CAP, MEAS_CAP with signature; CTExponent; transfer and message sizes. -/
def execGetCapabilities (t : Transport) (s : State) : Host.Outcome State Fault Refusal :=
  run true "" (spdmRun (spdmOf s t).version t (fun s =>
    spdmSay t 0x61 (leBytes 1 20 ++ leBytes 4 0x16 ++ leBytes 4 4096 ++ leBytes 4 65536) (updSpdm t (fun x => { x with caps := true }) s)) s)

def execNegotiateAlgorithms (t : Transport) (sig hash : Bool) (s : State) : Host.Outcome State Fault Refusal :=
  run true "" (spdmRun (spdmOf s t).caps t (fun s =>
    if !sig && !hash then spdmError t 1 s
    else spdmSay t 0x63 (leBytes 1 (b2n sig) ++ leBytes 1 (b2n hash)) (updSpdm t (fun x => { x with algs := true }) s)) s)

/-- The chain of slot 0. -/
def certChain (s : State) : List Byte := Config.issuedCerts ++ s.mgt.aliasCert

def execGetDigests (t : Transport) (slot : Nat) (s : State) : Host.Outcome State Fault Refusal :=
  run (slot < 256) "slot" (spdmRun (spdmOf s t).algs t (fun s =>
    if slot ≠ 0 then spdmError t 1 s else spdmSay t 0x01 (shake256 (certChain s) 64) s) s)

def execGetCertificate (t : Transport) (slot offset len : Nat) (s : State) : Host.Outcome State Fault Refusal :=
  run (slot < 256) "slot" (spdmRun (spdmOf s t).algs t (fun s =>
    if slot ≠ 0 || (certChain s).length ≤ offset then spdmError t 1 s
    else spdmSay t 0x02 (((certChain s).drop offset).take (min len 4096)) s) s)

/-- A request that needs a signature: the one engine takes it, or ERROR Busy (R516). The signature itself is not carried. -/
def startSign (t : Transport) (code : Nat) (body : List Byte) (s : State) : State :=
  if s.mgt.signing.isSome then spdmError t 3 s
  else spdmError t 0x42 (updSpdm t (fun x => { x with waiting := some (leBytes 1 code ++ body), ready := none })
    (updMgt (fun g => { g with signing := some (transportKey t) }) s))

/-- The measurement blocks of an index: one, or all for 0xFF; none where there is no such index. -/
def measBlocks (s : State) (index : Nat) : Option (List Byte) :=
  let block := fun (m : Nat × List Byte) => leBytes 1 m.1 ++ leBytes 2 m.2.length ++ m.2
  if index = 0xFF then some (s.mgt.meas.flatMap block)
  else (s.mgt.meas.find? (fun m => m.1 = index)).map block

def execChallenge (t : Transport) (slot : Nat) (nonce : List Byte) (s : State) : Host.Outcome State Fault Refusal :=
  run (nonce.length = 32 && slot < 256) "nonce" (spdmRun (spdmOf s t).algs t (fun s =>
    if slot ≠ 0 then spdmError t 1 s
    else startSign t 0x03 (shake256 (certChain s) 64 ++ nonce ++ shake256 ((measBlocks s 0xFF).getD []) 64) s) s)

def execGetMeasurements (t : Transport) (index : Nat) (signed : Bool) (nonce : List Byte) (s : State) :
    Host.Outcome State Fault Refusal :=
  run (nonce.length = 32 && index < 256) "nonce" (spdmRun (spdmOf s t).algs t (fun s =>
    let body := if index = 0 then some (leBytes 1 s.mgt.meas.length) else measBlocks s index
    match body with
    | none => spdmError t 1 s
    | some b => if signed then startSign t 0x60 (b ++ nonce) s else spdmSay t 0x60 b s) s)

/-- RESPOND_IF_READY. -/
def respondIfReady (t : Transport) (s : State) : State :=
  match (spdmOf s t).ready with
  | some b => spdmSay t (field b 0 1) (b.drop 1) (updSpdm t (fun x => { x with ready := none }) s)
  | none => if (spdmOf s t).waiting.isSome then spdmError t 0x42 s else spdmError t 4 s

def execRespondIfReady (t : Transport) (s : State) : Host.Outcome State Fault Refusal :=
  run true "" (spdmRun true t (respondIfReady t) s)

/-- The engine has signed. -/
def signatureDone (s : State) : State :=
  match s.mgt.signing with
  | none => s
  | some k =>
    let t : Transport := if k = 0 then .mctp else .doe
    updSpdm t (fun x => { x with waiting := none, ready := x.waiting }) (updMgt (fun g => { g with signing := none }) s)

def execSignatureDone (s : State) : Host.Outcome State Fault Refusal := run true "" (signatureDone s)

end Sys2Proof.Machine
end

