-- ==== Sys2Proof/Machine/Sweep.lean ====
section
/-!
DEFINITION. The meanings of the commands of chapter 11: Sweep channels, frames sent, detection and demodulation.
-/
namespace Sys2Proof.Machine

/-! ### SWEEP_CHANNEL_SET, SWEEP_CHANNEL_CLEAR, SWEEP_STATUS (R338 to R340) -/

/-- The channel in a SWEEP_CHANNEL_SET payload. -/
def sweepConfig (q : Req) : SweepChan :=
  { part := q.target, cell := pl q 1 1, firstPrb := pl q 2 2, prbs := pl q 4 1, sfMask := pl q 5 1, netid := pl q 6 1,
    rx := bit (pl q 7 1) 0, tx := bit (pl q 7 1) 1, any := bit (pl q 7 1) 2, demods := pl q 8 2, thr := pl q 10 2,
    floorPwr := pl q 12 4, gm := pl q 16 2, ge := fieldInt q.cmd.payload 18 1 }

/-- Whether a channel fits its cell: its shape, its PRBs, clear of reference signals, its gain, and the template's Sweep pattern
(R317, R318, R333). -/
def sweepFits (s : State) (n : Nat) (h : SweepChan) : Bool :=
  let x := cellOf s h.part h.cell
  let shape := h.prbs * 2 ^ x.cfg.mu
  let clear := fun (g : SweepChan) => !(g.part = h.part && g.cell = h.cell)
    || g.firstPrb + g.prbs ≤ h.firstPrb || h.firstPrb + h.prbs ≤ g.firstPrb
  n < 64 && (shape = 1 || shape = 2 || shape = 4) && (!h.rx || h.firstPrb + h.prbs ≤ x.cfg.prbUl)
    && (!h.tx || h.firstPrb + h.prbs ≤ x.cfg.prbDl) && s.sweep.all (fun g => clear g.2) && h.gm ≤ 32767
    && x.wide.all (fun w => w.1 + w.2 ≤ h.firstPrb || h.firstPrb + h.prbs ≤ w.1) && -16 ≤ h.ge && h.ge ≤ 15 && (!h.tx || x.cfg.fdd)
    && (cellTable s h.part).tmpl.cells.any (fun t => t.index = x.cfg.tmplCell
      && Nat.land t.sweepMask h.sfMask = h.sfMask && h.demods ≤ t.sweepDemods)

/-- SWEEP_CHANNEL_SET: the checks of R339 in their order. -/
def sweepSetBody (q : Req) (s : State) : State × Reply :=
  let n := pl q 0 1
  let h := sweepConfig q
  if 64 ≤ q.target then failed .partitionState s
  else if (chanOf s n).isSome then failed .notPermitted s
  else if 64 ≤ h.cell || (cellOf s q.target h.cell).state = .absent then failed .cellState s
  else if h.sfMask = 0 || h.demods = 0 || (!h.rx && !h.tx) then failed .zeroNotAllowed s
  else if !sweepFits s n h then failed .badField s
  else if 4096 < s.sweep.foldl (fun k g => k + g.2.demods) h.demods then failed .noResource s
  else
    let slot := firstUnsealed s q.target
    ((s.setSweep (tabPut s.sweep n { h with fromSlot := slot })),
      { payload := leBytes 8 (cellStart s (cellOf s q.target h.cell) slot) })

def execSweepChannelSet (m : Nat) (s : State) : Host.Outcome State Fault Refusal :=
  run (m < 80) "mailbox" (runCommand 0x04C0 m sweepSetBody s)

/-- SWEEP_CHANNEL_CLEAR: the channel ends at the next slot boundary (Machine/Tick.lean). For a channel that does not exist
the spec states no status: it is free. -/
def sweepClearBody (q : Req) (s : State) : State × Reply :=
  let n := pl q 0 1
  if 64 ≤ q.target then failed .partitionState s else
  match chanOf s n with
  | none => let (st, s) := drawStatus s; failed st s
  | some _ =>
    (updChan n (fun h => { h with endSlot := some (h.endSlot.getD (cellSlot s (cellOf s h.part h.cell) + 1)) }) s,
      reply .success)

def execSweepChannelClear (m : Nat) (s : State) : Host.Outcome State Fault Refusal :=
  run (m < 80) "mailbox" (runCommand 0x04C1 m sweepClearBody s)

/-- The record of R340. -/
def sweepRecord (h : SweepChan) : List Byte :=
  leBytes 1 h.sfMask ++ leBytes 2 h.demods ++ leBytes 2 h.active.length ++ leBytes 3 0 ++ leBytes 8 (ctrWord h.candidates)
    ++ leBytes 8 (ctrWord h.mismatch) ++ leBytes 8 (ctrWord h.noSlot) ++ leBytes 8 (ctrWord h.hdrFail)
    ++ leBytes 8 (ctrWord h.tooLong) ++ leBytes 8 (ctrWord h.crcFail) ++ leBytes 8 (ctrWord h.framesOk)
    ++ leBytes 8 (ctrWord h.ringDrops) ++ leBytes 8 (ctrWord h.txFrames)

/-- SWEEP_STATUS; a VF sees channels of its own partition. -/
def sweepStatusBody (q : Req) (s : State) : State × Reply :=
  let n := pl q 0 1
  if 64 ≤ q.target then failed .partitionState s
  else if 1 < pl q 1 1 then failed .badField s else
  match chanOf s n with
  | none => let (st, s) := drawStatus s; failed st s
  | some h =>
    if isVf q.m && h.part ≠ q.target then failed .notPermitted s
    else (if pl q 1 1 = 1 then updChan n (fun h => { h with
            candidates := {}, mismatch := {}, noSlot := {}, hdrFail := {}, tooLong := {}, crcFail := {}, framesOk := {},
            ringDrops := {}, txFrames := {} }) s else s, { payload := sweepRecord h })

def execSweepStatus (m : Nat) (s : State) : Host.Outcome State Fault Refusal :=
  run (m < 80) "mailbox" (runCommand 0x04C2 m sweepStatusBody s)

/-! ### Sending (R335 to R337) -/

/-- A SWEEP_TX entry: partition, tag, entries, body, arrival (free tick). -/
def sweepHead (s : State) (ring : Nat) : Option (Nat × Nat × Nat × List Byte × Nat) :=
  match headMsg s ring 4, ringOf s ring with
  | some (0x73, tag, k, b), some r =>
    if r.part = 255 then none
    else some (r.part, tag, k, b, coverTick s r ((r.devIdx + k - 1) % 4294967296))
  | _, _ => none

/-- The frame that a SWEEP_TX asks for, or the status of its refusal (R336, R337). For a cell that does not run the spec
states no status; such a frame is accepted and is not sent unless the cell runs. -/
def sweepAccept (s : State) (ring p tag arr : Nat) (b : List Byte) : Except Status (Nat × SweepFrame) :=
  let n := field b 16 1
  let sf := field b 17 1
  let len := field b 18 1
  let fl := field b 19 1
  let start := field b 8 8
  match (chanOf s n).filter (fun h => h.part = p && (cellOf s p h.cell).cfg.reqRing = ring) with
  | none => .error .notPermitted
  | some h =>
    let x := cellOf s p h.cell
    if !h.tx || !x.cfg.fdd then .error .notPermitted else
    match symUsefulAt s x start with
    | none => .error .badField
    | some l =>
      let total := (12 + sweepSyms sf len) * 2 ^ sf
      let fin := sampleEnd s x h (l * sweepQ h + total - 1)
      let slot := slotAt s.win.frameOfs x.cfg.mu x.cfg.ecp start
      if sf < 8 || 15 < sf || !bit h.sfMask (sf - 8) then .error .badField
      else if sweepMax sf < len then .error .badLength
      else if len ≠ 0 && !inShare s p (field b 0 8) len then .error .badAddress
      else if intakeTick s x slot < corrected s.tmb arr then .error .slotLate
      else if h.sends.any (fun f => f.start < fin && start < f.finish) then .error .busy
      else if x.state = .moving && (x.moveTo.map (fun m => decide (cellStart s x m < fin))).getD false then
        .error .cellState
      else
        let hdr := len + b2n (bit fl 0) * 256 + b2n (bit fl 1) * 512 + field b 20 1 * 65536 + h.netid * 16777216
        .ok (n, { tag := tag, start := start, finish := fin, sf := sf, first := l,
                  syms := sweepValues sf (sweepBits hdr (hdmRead s (field b 0 8) len)) })

/-- SWEEP_TX from a cell's request ring. -/
def sweepTx (ring : Nat) (s : State) : State :=
  match sweepHead s ring with
  | none => s
  | some (p, tag, k, b, arr) =>
    let back := ((s.cells.find? (fun c => c.1 / 64 = p && c.2.state ≠ .absent && c.2.cfg.reqRing = ring)).map
      (fun c => c.2.cfg.indRing)).getD 0xFFFF
    match sweepAccept s ring p tag arr b with
    | .error st => sweepAnswer back tag st 0 (takeHead ring k s)
    | .ok (n, f) => updChan n (fun h => { h with sends := h.sends ++ [f] }) (takeHead ring k s)

def execSweepTx (ring : Nat) (s : State) : Host.Outcome State Fault Refusal := run (ring < 4096) "ring" (sweepTx ring s)

/-- Whether the cell sent a frame's slots: it ran from the frame's start to its end. -/
def sweepSentWhole (s : State) (h : SweepChan) (f : SweepFrame) : Bool :=
  let x := cellOf s h.part h.cell
  (x.state = .running || x.state = .moving || (x.state = .stopping && f.finish ≤ cellStart s x (x.lastSlot + 1)))
    && cellStart s x x.firstSlot ≤ f.start

/-- The end of the earliest accepted frame of a channel: sent whole, answered with SUCCESS (R336, R340). One that a cell not
running has not sent is answered as one cut (assumption 166). -/
def sweepTxDone (n : Nat) (s : State) : State :=
  match chanOf s n with
  | none => s
  | some h =>
    match h.sends.find? (fun f => h.sends.all (fun g => f.finish ≤ g.finish)) with
    | none => s
    | some f =>
      if corrNow s < f.finish then s else
      if !sweepSentWhole s h f then sweepDrop n .cellState (fun g => g = f) s else
      sweepAnswer (cellOf s h.part h.cell).cfg.indRing f.tag .success f.finish
        (updChan n (fun h => { h with sends := h.sends.filter (fun g => g ≠ f), txFrames := ctrInc h.txFrames }) s)

def execSweepTxDone (chan : Nat) (s : State) : Host.Outcome State Fault Refusal :=
  run (chan < 64) "channel" (sweepTxDone chan s)

/-! ### Detection (R328, R329, R333) -/

/-- f and t0 of a candidate (R329). -/
def sweepFix (N su bu sd bd : Nat) : Int × Int :=
  let n : Int := N
  let d := ((bu : Int) + bd - su + sd) % n
  let f2 := if n / 2 ≤ d then d - n else d
  let f := (f2 + 1) / 2
  let r := ((su : Int) + f - bu) % n
  (f, sd - 10 * n - (((sd : Int) - 10 * n - r) % n))

/-- Whether a channel's cell detects in the samples from `k`, `n` of them: it runs here, from its first slot and the
channel's on, to the slot of its move; a standby runs no detection (R337, R339). -/
def sweepLive (s : State) (h : SweepChan) (k n : Nat) : Bool :=
  let x := cellOf s h.part h.cell
  let t := sampleTick s x h k
  h.rx && (x.state = .running || x.state = .moving || x.state = .stopping) && cellStart s x (max h.fromSlot x.firstSlot) ≤ t
    && sampleEnd s x h (k + n - 1) ≤ corrNow s
    && (x.moveTo.map (fun m => decide (sampleEnd s x h (k + n - 1) ≤ cellStart s x m))).getD true

/-- The first window of a channel: the first that begins in its first slot or the cell's. -/
def firstWindow (s : State) (h : SweepChan) (sf : Nat) : Nat :=
  let x := cellOf s h.part h.cell
  cdiv (max h.fromSlot x.firstSlot * symsPerSlot x.cfg.ecp * sweepQ h) (2 ^ sf / 2)

/-- The window of a spreading factor to examine next: its number and first sample (R328). -/
def nextWindow (s : State) (h : SweepChan) (sf : Nat) : Nat × Nat :=
  let j := max (tabGet h.wins sf 0) (firstWindow s h sf)
  (j, j * (2 ^ sf / 2))

/-- Whether a channel examines its next window of a spreading factor now: it is complete, and none of a lower spreading factor ends
with it or before it, nor of a higher one before it, unexamined (R333). -/
def windowDue (s : State) (h : SweepChan) (sf : Nat) : Bool :=
  let start := fun g => (nextWindow s h g).2
  let done := fun g => start g + 2 ^ g
  bit h.sfMask (sf - 8) && sweepLive s h (start sf) (2 ^ sf)
    && (List.range 8).all (fun i => !bit h.sfMask i || 8 + i = sf || done sf < done (8 + i)
        || (sf < 8 + i && done sf = done (8 + i)))

/-- The run of a spreading factor after a window that starts at `start` (R328); none when the window does not pass. -/
def sweepRun (h : SweepChan) (sf start : Nat) (g : SweepFound) : Option SweepRun :=
  let N := 2 ^ sf
  let old := tabGet h.runs sf {}
  if g.peak * 256 < h.thr * g.noise || g.peak < h.floorPwr then none
  else if old.len ≠ 0 && start = old.start + N / 2 && g.bin = (old.bin + N / 2) % N then
    some { len := old.len + 1, start := start, bin := g.bin }
  else some { len := 1, start := start, bin := g.bin }

/-- A candidate takes a demodulation, or finds none (R328, R333). -/
def sweepCandidate (sf start : Nat) (g : SweepFound) (h : SweepChan) : SweepChan :=
  let h := { h with candidates := ctrInc h.candidates }
  if h.demods ≤ h.active.length then { h with noSlot := ctrInc h.noSlot }
  else { h with active := h.active ++ [{ sf := sf, peak := g.peak, noise := g.noise, search := some { start := start, bin := g.bin } }] }

/-- A window in a candidate's search for the down-sweep: the first of the windows with the largest peak stands (R329). -/
def searchStep (start : Nat) (p : Nat × Nat) (q : SweepSearch) : SweepSearch :=
  if q.seen = 0 || q.peak < p.2 then { q with seen := q.seen + 1, peak := p.2, downStart := start, downBin := p.1 }
  else { q with seen := q.seen + 1 }

/-- What a window does to a demodulation of its spreading factor that searches; after 24 windows it has its start and offset. -/
def searchDemod (sf start : Nat) (p : Nat × Nat) (d : Demod) : Demod :=
  match d.search with
  | none => d
  | some q =>
    if d.sf ≠ sf then d else
    let q := searchStep start p q
    if q.seen < 24 then { d with search := some q }
    else
      let (f, t0) := sweepFix (2 ^ sf) q.start q.bin q.downStart q.downBin
      { d with search := none, t0 := t0.toNat, f := f }

/-- Whether two demodulations receive the same frame (R329). -/
def sameFrame (a b : Demod) : Bool :=
  a.search.isNone && b.search.isNone && a.sf = b.sf && a.f = b.f && ((a.t0 : Int) - b.t0).natAbs ≤ 1

/-- The demodulations after a window: a candidate that turns out to be a frame already received is discarded. -/
def searchAll (sf start : Nat) (p : Nat × Nat) (l : List Demod) : List Demod :=
  l.filterMap (fun d =>
    let e := searchDemod sf start p d
    if d.search.isSome && l.any (sameFrame e) then none else some e)

/-- A detection window (R328, R329): the searches under way, then the run and its candidate. -/
def sweepWindow (n sf : Nat) (s : State) : State :=
  match chanOf s n with
  | none => s
  | some h =>
    if !windowDue s h sf then s else
    let (j, start) := nextWindow s h sf
    let g := foundOf (upPowers h sf start)
    let h := { h with wins := tabPut h.wins sf (j + 1), active := searchAll sf start (binPeak (downPowers h sf start)) h.active }
    updChan n (fun _ => match sweepRun h sf start g with
      | none => { h with runs := tabDel h.runs sf }
      | some r =>
        let h := { h with runs := tabPut h.runs sf r }
        if r.len = 6 then sweepCandidate sf start g h else h) s

def execSweepDetectionWindow (chan sf : Nat) (s : State) : Host.Outcome State Fault Refusal :=
  run (chan < 64 && 8 ≤ sf && sf ≤ 15) "window" (sweepWindow chan sf s)

/-! ### Demodulation (R330 to R332, R334) -/

/-- The SWEEP_RX body (R334). -/
def sweepRx (s : State) (n : Nat) (h : SweepChan) (d : Demod) (hdr : Nat) (payload : List Byte) : List Byte :=
  let x := cellOf s h.part h.cell
  leBytes 1 n ++ leBytes 1 d.sf ++ leBytes 1 (bits hdr 7 0)
    ++ leBytes 1 (b2n (decide (bits hdr 7 0 = 0)) + 2 * b2n (bit hdr 8) + 4 * b2n (bit hdr 9))
    ++ leBytes 1 (bits hdr 23 16) ++ leBytes 1 (bits hdr 31 24) ++ leInt 2 d.f ++ leBytes 8 (sampleTick s x h d.t0)
    ++ leBytes 4 (d.peak / 256) ++ leBytes 4 (d.noise / 256) ++ payload ++ List.replicate (32 - payload.length) 0

/-- A demodulation of channel n is over: it goes, with what it counts. -/
def sweepOver (n : Nat) (d : Demod) (f : SweepChan → SweepChan) (s : State) : State :=
  updChan n (fun h => f { h with active := h.active.filter (fun e => !(e.sf = d.sf && e.t0 = d.t0 && e.f = d.f && e.search.isNone)) }) s

/-- The header's check at its symbol: hdr_crc, network, length (R330, R332, R327). -/
def sweepHeader (n : Nat) (d : Demod) (s : State) : State :=
  match chanOf s n with
  | none => s
  | some h =>
    let head := d.bits.take 32
    let hdr := bitsNat head
    if crc24 head ≠ bitsNat ((d.bits.drop 32).take 24) then
      sweepOver n d (fun h => { h with hdrFail := ctrInc h.hdrFail }) s
    else if bits hdr 31 24 ≠ h.netid && !h.any then sweepOver n d (fun h => { h with mismatch := ctrInc h.mismatch }) s
    else if sweepMax d.sf < bits hdr 7 0 then sweepOver n d (fun h => { h with tooLong := ctrInc h.tooLong }) s
    else updChan n (fun h => { h with active := h.active.map (fun e =>
      if e.sf = d.sf && e.t0 = d.t0 && e.f = d.f && e.search.isNone then { d with hdr := some hdr } else e) }) s

/-- The last data symbol: the frame CRC, and delivery (R332, R334). -/
def sweepFinish (n : Nat) (d : Demod) (hdr : Nat) (s : State) : State :=
  match chanOf s n with
  | none => s
  | some h =>
    let len := bits hdr 7 0
    let body := (d.bits.drop 56).take (8 * len)
    let payload := (List.range len).map (fun i => BitVec.ofNat 8 (bitsNat ((body.drop (8 * i)).take 8)))
    let ring := (cellOf s h.part h.cell).cfg.indRing
    let rx := sweepRx s n h d hdr payload
    if crc24 (d.bits.take 32 ++ body) ≠ bitsNat ((d.bits.drop (56 + 8 * len)).take 24) then
      sweepOver n d (fun h => { h with crcFail := ctrInc h.crcFail }) s
    else if ringRoom s ring (entriesFor rx.length) then
      ringPut ring 0x72 0 rx (sweepOver n d (fun h => { h with framesOk := ctrInc h.framesOk }) s)
    else sweepOver n d (fun h => { h with ringDrops := ctrInc h.ringDrops }) s

/-- The next data symbol of the demodulation (sf, t0, f) (R331). -/
def sweepSymbol (n sf t0 : Nat) (f : Int) (s : State) : State :=
  match chanOf s n with
  | none => s
  | some h =>
    match h.active.find? (fun d => d.sf = sf && d.t0 = t0 && d.f = f && d.search.isNone) with
    | none => s
    | some d =>
      let N := 2 ^ sf
      if !sweepLive s h (t0 + d.sym * N) N then s else
      let m := ((((binPeak (upPowers h sf (t0 + d.sym * N))).1 : Int) - f) % (N : Int)).toNat
      let d := { d with bits := d.bits ++ lsbBits sf (gray m), sym := d.sym + 1 }
      let s := updChan n (fun h => { h with active := h.active.map (fun e =>
        if e.sf = sf && e.t0 = t0 && e.f = f && e.search.isNone then d else e) }) s
      let s := if d.sym = 12 + cdiv 56 sf then sweepHeader n d s else s
      match ((chanOf s n).bind (fun h => h.active.find? (fun e => e.sf = sf && e.t0 = t0 && e.f = f && e.search.isNone))).bind (fun e => e.hdr) with
      | none => s
      | some hdr => if d.sym = 12 + sweepSyms sf (bits hdr 7 0) then sweepFinish n { d with hdr := some hdr } hdr s else s

def execSweepSymbol (chan sf t0 : Nat) (f : Int) (s : State) : Host.Outcome State Fault Refusal :=
  run (chan < 64 && 8 ≤ sf && sf ≤ 15) "symbol" (sweepSymbol chan sf t0 f s)

end Sys2Proof.Machine
end

