-- ==== Sys2Proof/Machine/TestPort.lean ====
section
/-!
DEFINITION. The board test port (chapter 19, R536).
-/
namespace Sys2Proof.Machine

/-- Lets a held-off deassertion of CXL_PERST# through. -/
def tapRelease (s : State) : State :=
  if s.tap.heldOff then updMgt (fun g => { g with perst := false }) (s.setTap { s.tap with heldOff := false }) else s

/-- Sets the instruction; BYPASS ends a hold of CXL_PERST#. -/
def tapLoad (i : TapInstr) (s : State) : State :=
  let s := s.setTap { s.tap with ir := i }
  if i = .bypass then tapRelease s else s

/-- EXTEST, CLAMP and HIGHZ take effect while CXL_PERST# is asserted or Dawn is stopped; else BYPASS. -/
def tapDrive (i : TapInstr) (s : State) : State :=
  let ok := s.mgt.perst || s.mgt.mode = .halted || s.mgt.mode = .waiting || s.mgt.mode = .recovery
  tapLoad (if ok then i else .bypass) s

/-- The IDCODE value, bit 0 first. -/
def idcodeBits (s : State) : List Bool :=
  let v := 2 ^ 28 + gradeNumber s.grade * 2 ^ 12 + Config.jep106 % 2048 * 2 + 1
  (List.range 32).map (fun i => v.testBit i)

/-- The levels of the chain's 27 lands in the order of R531: those the device drives or reads straps from; the others stand
outside the model, so theirs are free. -/
def landLevels (free : Nat) (s : State) : List Bool :=
  let f := fun i => free.testBit i
  [f 0, s.pps.outHigh, f 1, f 2, f 3, f 4, f 5, f 6, f 7, f 8, f 9]
  ++ (List.range 8).map (fun i => s.mgt.straps.testBit i)
  ++ [f 10, f 11, f 12, f 13, f 14, !s.mgt.thermtrip, !s.mgt.perst || s.tap.heldOff, s.mgt.pwrOk]

def execBypass (s : State) : Host.Outcome State Fault Refusal := run true "" (tapLoad .bypass s)

def execIdcode (s : State) : Host.Outcome State Fault Refusal :=
  run true "" (emit (.tdo (idcodeBits s)) (tapLoad .idcode s))

/-- SAMPLE/PRELOAD: the lands' levels go out, the cells are loaded. -/
def samplePreload (cells : List Bool) (s : State) : State :=
  let (v, s) := drawFree s
  let s := tapLoad .samplePreload (emit (.tdo (landLevels v s)) s)
  s.setTap { s.tap with cells := cells }

def execSamplePreload (cells : List Bool) (s : State) : Host.Outcome State Fault Refusal :=
  run (cells.length = 27) "cells" (samplePreload cells s)

def execExtest (s : State) : Host.Outcome State Fault Refusal := run true "" (tapDrive .extest s)
def execClamp (s : State) : Host.Outcome State Fault Refusal := run true "" (tapDrive .clamp s)
def execHighz (s : State) : Host.Outcome State Fault Refusal := run true "" (tapDrive .highz s)

/-- TRST# asserted: the port resets to IDCODE (IEEE 1149.1, assumption 26), and a hold of CXL_PERST# ends. -/
def execTrstAssert (s : State) : Host.Outcome State Fault Refusal := run true "" (tapRelease (tapLoad .idcode s))

end Sys2Proof.Machine
end

