-- ==== Sys2Proof/Machine/Dispatch.lean ====
section
/-!
DEFINITION. What each command does: one arm per row of the opcode table, each one call of its meaning.
-/
namespace Sys2Proof.Machine

def exec (i : Instr) (s : State) : Host.Outcome State Fault Refusal :=
  match i with
  | .linkTraining lanes rate => Sys2Proof.Machine.execLinkTraining lanes rate s
  | .mbxGo m abort ack irqEn ring => Sys2Proof.Machine.execMbxGo m abort ack irqEn ring s
  | .mbxAbort m ack irqEn ring => Sys2Proof.Machine.execMbxAbort m ack irqEn ring s
  | .mbxAck m irqEn ring => Sys2Proof.Machine.execMbxAck m irqEn ring s
  | .commandTaken m errs => Sys2Proof.Machine.execCommandTaken m errs s
  | .mbxTimeout m => Sys2Proof.Machine.execMbxTimeout m s
  | .registerWrite w offset size value => Sys2Proof.Machine.execRegisterWrite w offset size value s
  | .nop m => Sys2Proof.Machine.execNop m s
  | .eventRingConfig m => Sys2Proof.Machine.execEventRingConfig m s
  | .cancel m => Sys2Proof.Machine.execCancel m s
  | .queryOperation m => Sys2Proof.Machine.execQueryOperation m s
  | .ringCreate m => Sys2Proof.Machine.execRingCreate m s
  | .ringDestroy m => Sys2Proof.Machine.execRingDestroy m s
  | .telemetryClear m => Sys2Proof.Machine.execTelemetryClear m s
  | .eventRingConsWrite ring value => Sys2Proof.Machine.execEventRingConsWrite ring value s
  | .doorbellWrite d value => Sys2Proof.Machine.execDoorbellWrite d value s
  | .telemetrySnapshot => Sys2Proof.Machine.execTelemetrySnapshot s
  | .refLost => Sys2Proof.Machine.execRefLost s
  | .refReturn => Sys2Proof.Machine.execRefReturn s
  | .servoInput e m => Sys2Proof.Machine.execServoInput e m s
  | .holdoverStart => Sys2Proof.Machine.execHoldoverStart s
  | .holdoverLimit => Sys2Proof.Machine.execHoldoverLimit s
  | .ptpFrame mac msg => Sys2Proof.Machine.execPtpFrame mac msg s
  | .ptpTransmit mac kind => Sys2Proof.Machine.execPtpTransmit mac kind s
  | .esmcReceive mac ql => Sys2Proof.Machine.execEsmcReceive mac ql s
  | .esmcTransmit mac ql => Sys2Proof.Machine.execEsmcTransmit mac ql s
  | .ppsInEdge => Sys2Proof.Machine.execPpsInEdge s
  | .ppsMissed => Sys2Proof.Machine.execPpsMissed s
  | .ppsOutRise => Sys2Proof.Machine.execPpsOutRise s
  | .ppsOutFall => Sys2Proof.Machine.execPpsOutFall s
  | .freeRead low => Sys2Proof.Machine.execFreeRead low s
  | .lowHalfRead offset => Sys2Proof.Machine.execLowHalfRead offset s
  | .timeRead m => Sys2Proof.Machine.execTimeRead m s
  | .timeServoConfig m => Sys2Proof.Machine.execTimeServoConfig m s
  | .timeSource m => Sys2Proof.Machine.execTimeSource m s
  | .timeStep m => Sys2Proof.Machine.execTimeStep m s
  | .frameConfig m => Sys2Proof.Machine.execFrameConfig m s
  | .noonArm m => Sys2Proof.Machine.execNoonArm m s
  | .noonDisarm m => Sys2Proof.Machine.execNoonDisarm m s
  | .ppsConfig m => Sys2Proof.Machine.execPpsConfig m s
  | .noonList m => Sys2Proof.Machine.execNoonList m s
  | .noonFired k => Sys2Proof.Machine.execNoonFired k s
  | .mma d stop => Sys2Proof.Machine.execMma d stop s
  | .moverCopy d stop => Sys2Proof.Machine.execMoverCopy d stop s
  | .waitFree producer sl unit entry => Sys2Proof.Machine.execWaitFree producer sl unit entry s
  | .waitFreeResume producer sl unit entry => Sys2Proof.Machine.execWaitFreeResume producer sl unit entry s
  | .post poster sl unit entry len => Sys2Proof.Machine.execPost poster sl unit entry len s
  | .waitFull unit sl entry => Sys2Proof.Machine.execWaitFull unit sl entry s
  | .waitFullResume unit sl entry => Sys2Proof.Machine.execWaitFullResume unit sl entry s
  | .release unit sl entry => Sys2Proof.Machine.execRelease unit sl entry s
  | .releaseReturn unit entry => Sys2Proof.Machine.execReleaseReturn unit entry s
  | .vld t sl vd a c8 => Sys2Proof.Machine.execVld t sl vd a c8 s
  | .vld2 t sl vd a c8 => Sys2Proof.Machine.execVld2 t sl vd a c8 s
  | .vst t sl vs a => Sys2Proof.Machine.execVst t sl vs a s
  | .vgath t sl vd va a => Sys2Proof.Machine.execVgath t sl vd va a s
  | .vscat t sl vs va a => Sys2Proof.Machine.execVscat t sl vs va a s
  | .mac t sl va vb => Sys2Proof.Machine.execMac t sl va vb s
  | .mul t sl vd va vb sh => Sys2Proof.Machine.execMul t sl vd va vb sh s
  | .add t sl vd va vb => Sys2Proof.Machine.execAdd t sl vd va vb s
  | .sub t sl vd va vb => Sys2Proof.Machine.execSub t sl vd va vb s
  | .shift t sl vd va sh => Sys2Proof.Machine.execShift t sl vd va sh s
  | .select t sl vd vp va vb => Sys2Proof.Machine.execSelect t sl vd vp va vb s
  | .cmac t sl va vb => Sys2Proof.Machine.execCmac t sl va vb s
  | .cmacj t sl va vb => Sys2Proof.Machine.execCmacj t sl va vb s
  | .cmul t sl va vb => Sys2Proof.Machine.execCmul t sl va vb s
  | .accst t sl f vd sh => Sys2Proof.Machine.execAccst t sl f vd sh s
  | .bfly2 t sl x w sc => Sys2Proof.Machine.execBfly2 t sl x w sc s
  | .bfly4 t sl x w sc => Sys2Proof.Machine.execBfly4 t sl x w sc s
  | .bfly8 t sl x w sc => Sys2Proof.Machine.execBfly8 t sl x w sc s
  | .vadd t sl f vd va vb => Sys2Proof.Machine.execVadd t sl f vd va vb s
  | .vsub t sl f vd va vb => Sys2Proof.Machine.execVsub t sl f vd va vb s
  | .vmul t sl f vd va vb => Sys2Proof.Machine.execVmul t sl f vd va vb s
  | .vfma t sl f vd va vb vc => Sys2Proof.Machine.execVfma t sl f vd va vb vc s
  | .vmin t sl f vd va vb => Sys2Proof.Machine.execVmin t sl f vd va vb s
  | .vmax t sl f vd va vb => Sys2Proof.Machine.execVmax t sl f vd va vb s
  | .vexp t sl f vd va => Sys2Proof.Machine.execVexp t sl f vd va s
  | .vlog t sl f vd va => Sys2Proof.Machine.execVlog t sl f vd va s
  | .vrcp t sl f vd va => Sys2Proof.Machine.execVrcp t sl f vd va s
  | .vrsqrt t sl f vd va => Sys2Proof.Machine.execVrsqrt t sl f vd va s
  | .vtanh t sl f vd va => Sys2Proof.Machine.execVtanh t sl f vd va s
  | .vsigm t sl f vd va => Sys2Proof.Machine.execVsigm t sl f vd va s
  | .cvt t sl src dst vd va r quad => Sys2Proof.Machine.execCvt t sl src dst vd va r quad s
  | .mxq t sl dst vd va sc r quad => Sys2Proof.Machine.execMxq t sl dst vd va sc r quad s
  | .mxd t sl src dst vd va sc quad => Sys2Proof.Machine.execMxd t sl src dst vd va sc quad s
  | .redSum unit sl f addr n sd => Sys2Proof.Machine.execRedSum unit sl f addr n sd s
  | .loop t sl n last => Sys2Proof.Machine.execLoop t sl n last s
  | .rep t n op => Sys2Proof.Machine.execRep t n op s
  | .sbar t sl mask => Sys2Proof.Machine.execSbar t sl mask s
  | .sbarResume t => Sys2Proof.Machine.execSbarResume t s
  | .xsend t sl dir src dst b entry stop => Sys2Proof.Machine.execXsend t sl dir src dst b entry stop s
  | .xsendStallEnd t sl => Sys2Proof.Machine.execXsendStallEnd t sl s
  | .rdraw t sl vd sm sn vp => Sys2Proof.Machine.execRdraw t sl vd sm sn vp s
  | .runi t sl vd sm sn vp => Sys2Proof.Machine.execRuni t sl vd sm sn vp s
  | .rnormBm t sl vd sm sn vp => Sys2Proof.Machine.execRnormBm t sl vd sm sn vp s
  | .rnormTab t sl vd sm sn vp => Sys2Proof.Machine.execRnormTab t sl vd sm sn vp s
  | .gmax t n addr sm sn sd vp => Sys2Proof.Machine.execGmax t n addr sm sn sd vp s
  | .topk t n k addr dst sm sn vp => Sys2Proof.Machine.execTopk t n k addr dst sm sn vp s
  | .rngSeed m => Sys2Proof.Machine.execRngSeed m s
  | .rngQuery m => Sys2Proof.Machine.execRngQuery m s
  | .rngEval m => Sys2Proof.Machine.execRngEval m s
  | .seal table inst => Sys2Proof.Machine.execSeal table inst s
  | .sealLine table slot => Sys2Proof.Machine.execSealLine table slot s
  | .entryLaunch table slot pos errs => Sys2Proof.Machine.execEntryLaunch table slot pos errs s
  | .stageEnd table slot pos => Sys2Proof.Machine.execStageEnd table slot pos s
  | .reservationEnd table slot pos => Sys2Proof.Machine.execReservationEnd table slot pos s
  | .lendDecision => Sys2Proof.Machine.execLendDecision s
  | .microStepBlocking ctx micro => Sys2Proof.Machine.execMicroStepBlocking ctx micro s
  | .microStepEnd ctx micro => Sys2Proof.Machine.execMicroStepEnd ctx micro s
  | .backgroundItemStart unit item => Sys2Proof.Machine.execBackgroundItemStart unit item s
  | .backgroundItemEnd unit r => Sys2Proof.Machine.execBackgroundItemEnd unit r s
  | .tableLoad m t => Sys2Proof.Machine.execTableLoad m t s
  | .tableLoadDone h => Sys2Proof.Machine.execTableLoadDone h s
  | .tableUnload m => Sys2Proof.Machine.execTableUnload m s
  | .tableStop m => Sys2Proof.Machine.execTableStop m s
  | .tableStatus m => Sys2Proof.Machine.execTableStatus m s
  | .lendConfig m => Sys2Proof.Machine.execLendConfig m s
  | .fhLink mac up => Sys2Proof.Machine.execFhLink mac up s
  | .frameReceive mac f => Sys2Proof.Machine.execFrameReceive mac f s
  | .windowOpen b slot symbol => Sys2Proof.Machine.execWindowOpen b slot symbol s
  | .symbolPost b slot symbol => Sys2Proof.Machine.execSymbolPost b slot symbol s
  | .uplaneRelease b slot symbol => Sys2Proof.Machine.execUplaneRelease b slot symbol s
  | .cplaneRelease b slot symbol msg => Sys2Proof.Machine.execCplaneRelease b slot symbol msg s
  | .transmitSelect mac => Sys2Proof.Machine.execTransmitSelect mac s
  | .shaperRefill mac q => Sys2Proof.Machine.execShaperRefill mac q s
  | .policerRefill mac inst => Sys2Proof.Machine.execPolicerRefill mac inst s
  | .gateEdge mac => Sys2Proof.Machine.execGateEdge mac s
  | .gclSwitched mac => Sys2Proof.Machine.execGclSwitched mac s
  | .ethTx ring => Sys2Proof.Machine.execEthTx ring s
  | .fhPortMode m => Sys2Proof.Machine.execFhPortMode m s
  | .fhMacConfig m => Sys2Proof.Machine.execFhMacConfig m s
  | .fhQueueConfig m => Sys2Proof.Machine.execFhQueueConfig m s
  | .fhGclSet m => Sys2Proof.Machine.execFhGclSet m s
  | .fhPolicerSet m => Sys2Proof.Machine.execFhPolicerSet m s
  | .fhAsymSet m => Sys2Proof.Machine.execFhAsymSet m s
  | .fhStatus m => Sys2Proof.Machine.execFhStatus m s
  | .ldInputPhase eng => Sys2Proof.Machine.execLdInputPhase eng s
  | .ldDecodePhase eng => Sys2Proof.Machine.execLdDecodePhase eng s
  | .ldOutputPhase eng => Sys2Proof.Machine.execLdOutputPhase eng s
  | .leJob eng => Sys2Proof.Machine.execLeJob eng s
  | .pdJob eng j => Sys2Proof.Machine.execPdJob eng j s
  | .peJob eng j => Sys2Proof.Machine.execPeJob eng j s
  | .gainSet m => Sys2Proof.Machine.execGainSet m s
  | .stageRecords m => Sys2Proof.Machine.execStageRecords m s
  | .cellCreate m => Sys2Proof.Machine.execCellCreate m s
  | .cellDestroy m => Sys2Proof.Machine.execCellDestroy m s
  | .cellQuery m => Sys2Proof.Machine.execCellQuery m s
  | .twinPair m peerEqual => Sys2Proof.Machine.execTwinPair m peerEqual s
  | .twinUnpair m => Sys2Proof.Machine.execTwinUnpair m s
  | .paramRequest ring => Sys2Proof.Machine.execParamRequest ring s
  | .configRequest ring items => Sys2Proof.Machine.execConfigRequest ring items s
  | .startRequest ring => Sys2Proof.Machine.execStartRequest ring s
  | .stopRequest ring => Sys2Proof.Machine.execStopRequest ring s
  | .dlTtiRequest ring msg => Sys2Proof.Machine.execDlTtiRequest ring msg s
  | .ulTtiRequest ring msg => Sys2Proof.Machine.execUlTtiRequest ring msg s
  | .ulDciRequest ring msg => Sys2Proof.Machine.execUlDciRequest ring msg s
  | .txDataRequest ring msg => Sys2Proof.Machine.execTxDataRequest ring msg s
  | .kPrioRequest ring msg => Sys2Proof.Machine.execKPrioRequest ring msg s
  | .unsupportedMessage ring identity => Sys2Proof.Machine.execUnsupportedMessage ring identity s
  | .intakeLine part cell slot => Sys2Proof.Machine.execIntakeLine part cell slot s
  | .slotIndication part cell slot => Sys2Proof.Machine.execSlotIndication part cell slot s
  | .twinMirrorRecord part cell r => Sys2Proof.Machine.execTwinMirrorRecord part cell r s
  | .twinCommit part cell slot => Sys2Proof.Machine.execTwinCommit part cell slot s
  | .commitResult part cell o => Sys2Proof.Machine.execCommitResult part cell o s
  | .sweepChannelSet m => Sys2Proof.Machine.execSweepChannelSet m s
  | .sweepChannelClear m => Sys2Proof.Machine.execSweepChannelClear m s
  | .sweepStatus m => Sys2Proof.Machine.execSweepStatus m s
  | .sweepTx ring => Sys2Proof.Machine.execSweepTx ring s
  | .sweepTxDone chan => Sys2Proof.Machine.execSweepTxDone chan s
  | .sweepDetectionWindow chan sf => Sys2Proof.Machine.execSweepDetectionWindow chan sf s
  | .sweepSymbol chan sf t0 f => Sys2Proof.Machine.execSweepSymbol chan sf t0 f s
  | .ctxCreate m places => Sys2Proof.Machine.execCtxCreate m places s
  | .ctxCreateDone h => Sys2Proof.Machine.execCtxCreateDone h s
  | .ctxDestroy m => Sys2Proof.Machine.execCtxDestroy m s
  | .ctxDestroyDone h => Sys2Proof.Machine.execCtxDestroyDone h s
  | .ctxWrite m => Sys2Proof.Machine.execCtxWrite m s
  | .ctxWriteDone h => Sys2Proof.Machine.execCtxWriteDone h s
  | .ctxReside m => Sys2Proof.Machine.execCtxReside m s
  | .residencyDone ctx => Sys2Proof.Machine.execResidencyDone ctx s
  | .ctxEvict m => Sys2Proof.Machine.execCtxEvict m s
  | .ctxFlush m => Sys2Proof.Machine.execCtxFlush m s
  | .ctxQuery m => Sys2Proof.Machine.execCtxQuery m s
  | .stepSubmit ring => Sys2Proof.Machine.execStepSubmit ring s
  | .batchStepStart ctx => Sys2Proof.Machine.execBatchStepStart ctx s
  | .batchStepCommit ctx => Sys2Proof.Machine.execBatchStepCommit ctx s
  | .stepBoundExpiry ctx => Sys2Proof.Machine.execStepBoundExpiry ctx s
  | .stepDone ring => Sys2Proof.Machine.execStepDone ring s
  | .noonHoldTimeout ctx => Sys2Proof.Machine.execNoonHoldTimeout ctx s
  | .partCreate m => Sys2Proof.Machine.execPartCreate m s
  | .partCreateDone h => Sys2Proof.Machine.execPartCreateDone h s
  | .partRemove m => Sys2Proof.Machine.execPartRemove m s
  | .partReset m => Sys2Proof.Machine.execPartReset m s
  | .functionLevelReset part => Sys2Proof.Machine.execFunctionLevelReset part s
  | .resetFabricDrain part => Sys2Proof.Machine.execResetFabricDrain part s
  | .resetHostDrain part late => Sys2Proof.Machine.execResetHostDrain part late s
  | .partResetDone part => Sys2Proof.Machine.execPartResetDone part s
  | .partQuery m => Sys2Proof.Machine.execPartQuery m s
  | .partFreeze m => Sys2Proof.Machine.execPartFreeze m s
  | .freezeComplete part => Sys2Proof.Machine.execFreezeComplete part s
  | .partThaw m => Sys2Proof.Machine.execPartThaw m s
  | .partSave m => Sys2Proof.Machine.execPartSave m s
  | .partRestore m head => Sys2Proof.Machine.execPartRestore m head s
  | .partQuota m => Sys2Proof.Machine.execPartQuota m s
  | .quarantineEnd job => Sys2Proof.Machine.execQuarantineEnd job s
  | .fabDeviceConfig m => Sys2Proof.Machine.execFabDeviceConfig m s
  | .fabPortConfig m => Sys2Proof.Machine.execFabPortConfig m s
  | .fabJobTake m => Sys2Proof.Machine.execFabJobTake m s
  | .fabJobRelease m => Sys2Proof.Machine.execFabJobRelease m s
  | .fabWindowSet m => Sys2Proof.Machine.execFabWindowSet m s
  | .fabWindowClear m => Sys2Proof.Machine.execFabWindowClear m s
  | .fabStatus m => Sys2Proof.Machine.execFabStatus m s
  | .fabPort port up => Sys2Proof.Machine.execFabPort port up s
  | .fabricRequestIssue d => Sys2Proof.Machine.execFabricRequestIssue d s
  | .fabricIssueResume ctx => Sys2Proof.Machine.execFabricIssueResume ctx s
  | .load r => Sys2Proof.Machine.execLoad r s
  | .store r => Sys2Proof.Machine.execStore r s
  | .get r => Sys2Proof.Machine.execGet r s
  | .put r => Sys2Proof.Machine.execPut r s
  | .reduceAdd r => Sys2Proof.Machine.execReduceAdd r s
  | .atomicAdd r => Sys2Proof.Machine.execAtomicAdd r s
  | .atomicAnd r => Sys2Proof.Machine.execAtomicAnd r s
  | .atomicOr r => Sys2Proof.Machine.execAtomicOr r s
  | .atomicXor r => Sys2Proof.Machine.execAtomicXor r s
  | .addR r => Sys2Proof.Machine.execAddR r s
  | .andR r => Sys2Proof.Machine.execAndR r s
  | .orR r => Sys2Proof.Machine.execOrR r s
  | .xorR r => Sys2Proof.Machine.execXorR r s
  | .xchg r => Sys2Proof.Machine.execXchg r s
  | .cas r => Sys2Proof.Machine.execCas r s
  | .fadd r b16 => Sys2Proof.Machine.execFadd r b16 s
  | .faddR r b16 => Sys2Proof.Machine.execFaddR r b16 s
  | .fabricReply r => Sys2Proof.Machine.execFabricReply r s
  | .replyTimeout dst tag => Sys2Proof.Machine.execReplyTimeout dst tag s
  | .lifetimeExpiry dst tag => Sys2Proof.Machine.execLifetimeExpiry dst tag s
  | .sourceRecordExpiry src => Sys2Proof.Machine.execSourceRecordExpiry src s
  | .ledgerEntryExpiry src tag => Sys2Proof.Machine.execLedgerEntryExpiry src tag s
  | .ffence ctx micro mover scope => Sys2Proof.Machine.execFfence ctx micro mover scope s
  | .ffenceComplete ctx => Sys2Proof.Machine.execFfenceComplete ctx s
  | .syncDescriptor ctx micro d => Sys2Proof.Machine.execSyncDescriptor ctx micro d s
  | .syncListApply ctx micro => Sys2Proof.Machine.execSyncListApply ctx micro s
  | .syncCreate m => Sys2Proof.Machine.execSyncCreate m s
  | .syncDestroy m => Sys2Proof.Machine.execSyncDestroy m s
  | .syncOp m => Sys2Proof.Machine.execSyncOp m s
  | .syncQuery m => Sys2Proof.Machine.execSyncQuery m s
  | .syncDump m => Sys2Proof.Machine.execSyncDump m s
  | .syncReset m => Sys2Proof.Machine.execSyncReset m s
  | .detMode m => Sys2Proof.Machine.execDetMode m s
  | .detQuery m => Sys2Proof.Machine.execDetQuery m s
  | .hltReset m => Sys2Proof.Machine.execHltReset m s
  | .hltWindows m => Sys2Proof.Machine.execHltWindows m s
  | .memberConfig m => Sys2Proof.Machine.execMemberConfig m s
  | .memberQuery m => Sys2Proof.Machine.execMemberQuery m s
  | .memberJoin m => Sys2Proof.Machine.execMemberJoin m s
  | .memberSuspect m => Sys2Proof.Machine.execMemberSuspect m s
  | .stepLedgerBind m => Sys2Proof.Machine.execStepLedgerBind m s
  | .ledgerCasResult ctx status old => Sys2Proof.Machine.execLedgerCasResult ctx status old s
  | .stepSlow ctx => Sys2Proof.Machine.execStepSlow ctx s
  | .faultLogConsWrite part value => Sys2Proof.Machine.execFaultLogConsWrite part value s
  | .radioHang unit => Sys2Proof.Machine.execRadioHang unit s
  | .inferenceHang ctx => Sys2Proof.Machine.execInferenceHang ctx s
  | .contextResetDone ctx => Sys2Proof.Machine.execContextResetDone ctx s
  | .gridResetPhaseB => Sys2Proof.Machine.execGridResetPhaseB s
  | .gridResetDone failed => Sys2Proof.Machine.execGridResetDone failed s
  | .resetOverrun ctx => Sys2Proof.Machine.execResetOverrun ctx s
  | .healthDecay => Sys2Proof.Machine.execHealthDecay s
  | .heartbeatSend => Sys2Proof.Machine.execHeartbeatSend s
  | .heartbeat b => Sys2Proof.Machine.execHeartbeat b s
  | .prepare src epoch round => Sys2Proof.Machine.execPrepare src epoch round s
  | .promise src epoch round last => Sys2Proof.Machine.execPromise src epoch round last s
  | .proposal src p => Sys2Proof.Machine.execProposal src p s
  | .acceptance src epoch round => Sys2Proof.Machine.execAcceptance src epoch round s
  | .commit p e => Sys2Proof.Machine.execCommit p e s
  | .roundTimeout => Sys2Proof.Machine.execRoundTimeout s
  | .controlPeriod v => Sys2Proof.Machine.execControlPeriod v s
  | .clockStepUp => Sys2Proof.Machine.execClockStepUp s
  | .inputUndervoltage vIn => Sys2Proof.Machine.execInputUndervoltage vIn s
  | .inputRestored vIn => Sys2Proof.Machine.execInputRestored vIn s
  | .powerFault vIn => Sys2Proof.Machine.execPowerFault vIn s
  | .vstbyLoss => Sys2Proof.Machine.execVstbyLoss s
  | .strideStart => Sys2Proof.Machine.execStrideStart s
  | .pwrCap m => Sys2Proof.Machine.execPwrCap m s
  | .bgConfig m => Sys2Proof.Machine.execBgConfig m s
  | .dawn env => Sys2Proof.Machine.execDawn env s
  | .cxlPerstAssert => Sys2Proof.Machine.execCxlPerstAssert s
  | .cxlPerstDeassert => Sys2Proof.Machine.execCxlPerstDeassert s
  | .entropyTestFailure => Sys2Proof.Machine.execEntropyTestFailure s
  | .dawnState => Sys2Proof.Machine.execDawnState s
  | .deviceReset => Sys2Proof.Machine.execDeviceReset s
  | .blobWrite offset bytes sigOk => Sys2Proof.Machine.execBlobWrite offset bytes sigOk s
  | .ownerEnrol key => Sys2Proof.Machine.execOwnerEnrol key s
  | .eventLogRead first => Sys2Proof.Machine.execEventLogRead first s
  | .setEndpointId eid => Sys2Proof.Machine.execSetEndpointId eid s
  | .pldmSensorRead sensor => Sys2Proof.Machine.execPldmSensorRead sensor s
  | .requestUpdate => Sys2Proof.Machine.execRequestUpdate s
  | .requestFirmwareData bytes sigOk => Sys2Proof.Machine.execRequestFirmwareData bytes sigOk s
  | .activateFirmware => Sys2Proof.Machine.execActivateFirmware s
  | .updateIdleTimeout => Sys2Proof.Machine.execUpdateIdleTimeout s
  | .getVersion tr => Sys2Proof.Machine.execGetVersion tr s
  | .getCapabilities tr => Sys2Proof.Machine.execGetCapabilities tr s
  | .negotiateAlgorithms tr sig hash => Sys2Proof.Machine.execNegotiateAlgorithms tr sig hash s
  | .getDigests tr slot => Sys2Proof.Machine.execGetDigests tr slot s
  | .getCertificate tr slot offset len => Sys2Proof.Machine.execGetCertificate tr slot offset len s
  | .challenge tr slot nonce => Sys2Proof.Machine.execChallenge tr slot nonce s
  | .getMeasurements tr index signed nonce => Sys2Proof.Machine.execGetMeasurements tr index signed nonce s
  | .respondIfReady tr => Sys2Proof.Machine.execRespondIfReady tr s
  | .signatureDone => Sys2Proof.Machine.execSignatureDone s
  | .bypass => Sys2Proof.Machine.execBypass s
  | .idcode => Sys2Proof.Machine.execIdcode s
  | .samplePreload cells => Sys2Proof.Machine.execSamplePreload cells s
  | .extest => Sys2Proof.Machine.execExtest s
  | .clamp => Sys2Proof.Machine.execClamp s
  | .highz => Sys2Proof.Machine.execHighz s
  | .trstAssert => Sys2Proof.Machine.execTrstAssert s
  | .saveChunkDone h => Sys2Proof.Machine.execSaveChunkDone h s
  | .restoreChunkDone h places => Sys2Proof.Machine.execRestoreChunkDone h places s
  | .entropyTestsPass => Sys2Proof.Machine.execEntropyTestsPass s

end Sys2Proof.Machine
end

