-- ==== Sys2Proof/Machine/Tick.lean ====
section
/-!
DEFINITION. One tick of the air clock: what moves with time whatever is commanded (assumption 1).
-/
namespace Sys2Proof.Machine

/-- Each quadrant whose time is lendable in this tick counts it (R7, R8). -/
def lendTick (s : State) : State :=
  let us := (List.range (gradeQuads s.grade)).filter (lendableNow s)
  s.setTel { s.tel with liveLend := us.foldl (fun t u => tabUpd t u {} ctrInc) s.tel.liveLend }

/-- Quadrants and tiles of the grade. -/
def lendUnits (g : Grade) : List Nat := (List.range 0x80).filter (fun u => unitExists g u && (isQuad u || isTile u))

/-- While the scheduler is held, the lendable ticks of quadrants and tiles count as cap_held_ticks (R487). -/
def heldTick (s : State) : State :=
  if !lendHeld s then s
  else s.setPwr { s.pwr with capHeld := ctrAdd s.pwr.capHeld ((lendUnits s.grade).filter (lendableNow s)).length }

/-- Every shaper and policer gains its fraction (R249, R255). -/
def shaperTick (s : State) : State :=
  s.setFh { s.fh with macs := s.fh.macs.map (fun m =>
      (m.1, { m.2 with queues := m.2.queues.map (fun k => (k.1, queueTick k.2)),
                       policers := m.2.policers.map (fun p => (p.1, policerTick p.2)) })) }

/-- One air tick (R49): nothing moves before the clock runs. Sweep channels whose last slot has ended go with it. -/
def airTick (s : State) : State :=
  if !s.tmb.pllLocked then s
  else
    let s := shaperTick (if s.dev.dawnDone then heldTick (lendTick s) else s)
    sweepEnd (s.setTmb { s.tmb with free := s.tmb.free + 1 })

end Sys2Proof.Machine
end

