-- ==== Sys2Proof/Machine/HostRead.lean ====
section
/-!
DEFINITION. What the host reads (R19 to R22, R43) and its accesses to HDM over CXL.mem (R17). The table of commands has no row for a
read but those that latch (FREE_READ, LOW_HALF_READ) nor for an access to HDM: these are the views they would have.
-/
namespace Sys2Proof.Machine

/-! ### Identity and capability block (R1, R4, R22, R122, R450, R515, R535) -/

/-- The ordering code in ASCII, padded with zero bytes. -/
def orderCode (g : Grade) : List Byte :=
  let n : List Byte := match g with | .t96 => [0x39, 0x36] | .t72 => [0x37, 0x32]
  [0x4B, 0x44, 0x2D, 0x54] ++ n ++ [0x2D, 0x41, 0x32] ++ List.replicate 7 0

/-- DEV_STATUS. A link that has not trained is not degraded (assumption 148). -/
def devStatus (s : State) : Nat :=
  let d := s.dev
  b2n d.dawnDone + b2n d.twilight * 2 + b2n (d.lanes ≠ 0 && (d.lanes < 16 || d.rate < 64)) * 4 + d.lanes * 8 + d.rate * 256

/-- GRD_ARITH_OPT with the revision of stepping A2 (R122). -/
def arithOptWord (o : ArithOpt) : Nat := b2n o.e5m2Inf + b2n o.h16Sat * 2 + b2n o.b16Sat * 4 + 0x01 * 256

/-- DEV_CAP0 to DEV_CAP7. -/
def devCap (s : State) (k : Nat) : Nat :=
  let g := s.grade
  if k = 0 then gradeArrays g + gradeQuads g * 2 ^ 3 + gradeTiles g * 2 ^ 8 + gradeArrays g * 2 ^ 15 + gradePorts g * 2 ^ 18
    + 8 * 2 ^ 22
  else if k = 1 then 64 + 16 * 2 ^ 7 + 8 * 2 ^ 12 + 4 * 2 ^ 16
  else if k = 2 then 48 + 1024 * 2 ^ 8 + 24 * 2 ^ 20 + 8 * 2 ^ 28
  else if k = 3 then gradeDramGb g + 64 * 2 ^ 10 + s.dev.radioCuMax * 2 ^ 20
  else if k = 4 then 64 + 8 * 2 ^ 7 + 256 * 2 ^ 11
  else if k = 5 then 65536 + 4096 * 2 ^ 17
  else if k = 6 then 4096 + 16 * 2 ^ 13
  else gradeTdp g + gradeCapMin g * 2 ^ 16

/-- A 32-bit register of the block by its offset. -/
def identWord (s : State) (o : Nat) : Nat :=
  if o = 0x00 then gradeNumber s.grade + 0x41 * 2 ^ 16 + 0x32 * 2 ^ 24
  else if 0x08 ≤ o && o < 0x18 then field (orderCode s.grade) (o - 0x08) 4
  else if o = 0x20 then s.dev.fwVersion % 2 ^ 24
  else if o = 0x24 then devStatus s
  else if 0x40 ≤ o && o < 0x60 then devCap s ((o - 0x40) / 4)
  else if o = 0x60 then arithOptWord s.grd.opt
  else if 0x68 ≤ o && o < 0x78 then field (leBytes 8 s.syn.sig ++ leBytes 8 (s.syn.numlib + s.syn.tableset * 65536)) (o - 0x68) 4
  else if o = 0x78 then Config.iana % 4294967296
  else if o = 0x80 then s.mgt.straps % 256
  else 0

/-! ### Mailbox pages (R23 to R26) -/

def phaseCode : MbxPhase → Nat | .idle => 0 | .submitted => 1 | .running => 2 | .done => 3

/-- The response area: the header of R26, the payload, zeros behind it (assumption 148). -/
def respBytes (r : Resp) : List Byte :=
  leBytes 2 (statusCode r.status) ++ leBytes 2 r.opcode ++ leBytes 4 r.tag ++ leBytes 2 r.payload.length ++ leBytes 2 r.retryAfter
    ++ leBytes 2 r.handle ++ leBytes 2 0 ++ r.payload

/-- A 32-bit word of a mailbox page. The bits of MBX_CTRL that start an action read 0 (assumption 148). -/
def mbxWord (b : Mailbox) (o : Nat) : Nat :=
  if o = 0 then b2n b.irqEn * 8 + b.evRing * 16
  else if o = 4 then phaseCode b.phase + b2n b.goIgnored * 8 + b2n b.fwTimeout * 16
  else if o = 8 then b.seq
  else if 0x80 ≤ o && o < 0x840 then leNat (memReadBytes b.area (o - 0x80) 4)
  else if 0x840 ≤ o then field (respBytes b.resp) (o - 0x840) 4
  else 0

/-! ### Event rings (R37, R38), fault records (R454, R455) -/

/-- An event entry as its 64 bytes. -/
def eventBytes (e : Event) : List Byte :=
  leBytes 2 e.code ++ leBytes 1 e.part ++ leBytes 1 0 ++ leBytes 4 e.tag ++ leBytes 8 e.tick ++ leBytes 2 (statusCode e.status)
    ++ leBytes 2 e.opcode ++ leBytes 2 e.handle ++ leBytes 2 0 ++ leBytes 4 e.seq ++ e.detail.take 36

/-- A 32-bit word of an event ring: of an entry once written, of the controls. -/
def eventWord (r : EventRing) (o : Nat) : Nat :=
  ((tabFind? r.entries (o / 64)).map (fun e => field (eventBytes e) (o % 64) 4)).getD 0
def eventCtlReg (r : EventRing) (o : Nat) : Nat :=
  if o = 0 then b2n r.enable + b2n r.overflow * 2 + b2n r.badCons * 4 + r.prod * 2 ^ 32
  else if o = 8 then r.cons
  else if o = 0x10 then ctrWord r.drops
  else 0

/-- A fault record as its 128 bytes. -/
def faultBytes (r : FaultRec) : List Byte :=
  leBytes 2 r.code ++ leBytes 2 ((r.status.map statusCode).getD 0) ++ leBytes 1 r.part ++ leBytes 1 r.unit ++ leBytes 1 r.unit2
    ++ leBytes 1 r.reset ++ leBytes 2 r.owner ++ leBytes 2 r.micro ++ leBytes 1 r.table ++ leBytes 1 r.cell ++ leBytes 2 r.entry
    ++ leBytes 4 r.position ++ leBytes 4 r.seq ++ leBytes 8 r.tick ++ leBytes 8 r.slotStart ++ leBytes 8 r.addr
    ++ leBytes 3 r.job ++ leBytes 1 0 ++ leBytes 2 r.dst ++ leBytes 2 0 ++ leBytes 4 r.tag ++ leBytes 4 0 ++ r.detail.take 64

def faultWord (l : FaultLog) (o : Nat) : Nat :=
  ((tabFind? l.recs (o / 128)).map (fun r => field (faultBytes r) (o % 128) 4)).getD 0

/-- The indices and the counter of a log of fault records. -/
def logReg (l : FaultLog) (o : Nat) : Nat :=
  if o = 0 then l.prod else if o = 8 then l.cons else if o = 0x10 then ctrWord l.overwritten else 0

/-- A set of devices as one bit each. -/
def setMask (l : List Nat) : Nat := (List.range 64).foldl (fun a d => a + b2n (l.contains d) * 2 ^ d) 0

/-- A 64-bit register of the control block of the fault log. -/
def faultCtlReg (s : State) (o : Nat) : Nat :=
  let h := s.hlt
  if o < 0x18 then logReg h.log o
  else if o = 0x18 then healthScore h.penalty + h.penalty * 2 ^ 16 + b2n h.leaving * 2 ^ 32
  else if o = 0x20 then s.mbr.epoch
  else if o = 0x28 then setMask s.mbr.members
  else if o = 0x30 then setMask s.mbr.twilightSet
  else if o = 0x38 then ctrWord h.corrected
  else if o = 0x40 then ctrWord h.uncorrectable
  else if o = 0x48 then ctrWord h.hangs
  else if o = 0x50 then ctrWord h.contextResets
  else if o = 0x58 then ctrWord h.gridResets
  else if o = 0x60 then ctrWord h.expulsions
  else 0

/-! ### Telemetry mirror (R46) -/

/-- A 64-bit register of the telemetry mirror; on the T72 the counters of absent quadrants read 0. -/
def telReg (s : State) (o : Nat) : Nat :=
  let t := s.tel
  if o = 0x000 then t.gen
  else if o = 0x008 then t.tick
  else if o = 0x010 then t.period
  else if o = 0x018 then t.clearTick
  else if 0x100 ≤ o && o < 0x180 then
    if (o - 0x100) / 8 < gradeQuads s.grade then ctrWord (tabGet t.lend ((o - 0x100) / 8) {}) else 0
  else if o = 0x180 then ctrWord t.stray
  else 0

/-! ### Reads by window, offset and size (R19 to R21) -/

/-- A half of a 64-bit register by its offset. -/
def halfOf (v o : Nat) : Nat := if o % 8 = 4 then hi32 v else lo32 v

/-- The 32-bit word at an aligned offset of a window; reserved places read 0 (R11). The high half of a timebase register reads
what a read of its low half has latched (R66), 0 before the first (assumption 148). -/
def hostWord (s : State) (w : RegWindow) (o : Nat) : Nat :=
  let a := o / 8 * 8
  match w with
  | .pfBar0 =>
    if o < 0x10000 then identWord s o
    else if 0x100000 ≤ o && o < 0x110000 then mbxWord (mbxOf s ((o - 0x100000) / 0x1000)) (o % 0x1000)
    else if 0x200000 ≤ o && o < 0x300000 then
      if o % 8 = 4 then tabGet s.win.highs (a - 0x200000) 0 else lo32 (timeReg s (a - 0x200000))
    else if 0x300000 ≤ o && o < 0x380000 then eventWord (evRing s ((o - 0x300000) / 0x8000)) (o % 0x8000)
    else if 0x380000 ≤ o && o < 0x380400 then halfOf (eventCtlReg (evRing s ((o - 0x380000) / 0x40)) (a % 0x40)) o
    else if 0x400000 ≤ o && o < 0x480000 then faultWord s.hlt.log (o - 0x400000)
    else if 0x480000 ≤ o && o < 0x480068 then halfOf (faultCtlReg s (a - 0x480000)) o
    else if 0x500000 ≤ o && o < 0x501000 then halfOf (telReg s (a - 0x500000)) o
    else if 0x501000 ≤ o && o < 0x510000 then halfOf (powerReg s (a - 0x501000)) o
    else 0
  | .pfBar2 => if o % 0x1000 = 0 then ((ringOf s (o / 0x1000)).map (fun r => r.hostIdx)).getD 0 else 0
  | .vfBar0 p =>
    if o < 0x1000 then mbxWord (mbxOf s (16 + p)) o
    else if o < 0x2000 then
      if o % 0x40 = 0 then
        (((slotRing s p ((o - 0x1000) / 0x40)).bind (ringOf s)).map (fun r => r.hostIdx)).getD 0
      else 0
    else if o < 0x2080 then halfOf (logReg (tabGet s.hlt.vf p {}) (a - 0x2000)) o
    else if o < 0x3000 then faultWord (tabGet s.hlt.vf p {}) (o - 0x2080)
    else 0

/-- Whether a 64-bit register begins at an offset that is a multiple of 8. The 64-bit fields of event entries and fault records
count as such (assumption 148). -/
def hostWide (w : RegWindow) (o : Nat) : Bool :=
  match w with
  | .pfBar0 =>
    o = 0x68 || o = 0x70 || (0x200000 ≤ o && o < 0x380000) || (0x380000 ≤ o && o < 0x380400 && o % 0x40 = 0x10) || (0x400000 ≤ o && o < 0x480000)
      || (0x480010 ≤ o && o < 0x480068) || (0x500000 ≤ o && o < 0x510000 && o ≠ 0x500010)
  | .pfBar2 => false
  | .vfBar0 _ => o = 0x2010 || (0x2080 ≤ o && o < 0x3000)

/-- What a host read returns: of an aligned 32-bit word, of an aligned 64-bit register; any other read, and every read of an
absent partition's VF, returns 0. -/
def hostRead (w : RegWindow) (o size : Nat) (s : State) : Nat :=
  let absent := match w with | .vfBar0 p => decide ((partOf s p).state = PartState.absent) | _ => false
  if absent then 0
  else if size = 4 && o % 4 = 0 then hostWord s w o
  else if size = 8 && o % 8 = 0 && hostWide w o then
    if w = RegWindow.pfBar0 && 0x200000 ≤ o && o < 0x300000 then timeReg s (o - 0x200000)
    else hostWord s w o + hostWord s w (o + 4) * 2 ^ 32
  else 0

/-! ### HDM over CXL.mem (R17) -/

/-- The host reads, or writes, bytes of the HDM window; what lies outside the window is no memory of the device. -/
def cxlMemRead (a n : Nat) (s : State) : List Byte :=
  (List.range n).map (fun i => if a + i < s.dev.hdmSize then memRead s.mem (hdmAt (a + i)) else 0)
def cxlMemWrite (a : Nat) (bs : List Byte) (s : State) : State := hdmWrite a (bs.take (s.dev.hdmSize - a)) s

end Sys2Proof.Machine
end

