-- ==== Sys2Proof/WellFormed.lean ====
section
/-!
DEFINITION. The well-formed commands: those the hardware of a grade can be given. The operands lie in the ranges of their
fields, and the units, ports and stores named are ones the grade has (R3).
-/
namespace Sys2Proof
open Sys2Proof.Machine

/-- Whether a command exists on a device of the grade. -/
def wellFormed (g : Grade) (i : Instr) : Bool :=
  match i with
  | .linkTraining lanes rate => (lanes = 4 || lanes = 8 || lanes = 16) && (rate = 16 || rate = 32 || rate = 64)
  | .mbxGo m _ _ _ ring => m < 80 && ring < 16
  | .mbxAbort m _ _ ring => m < 80 && ring < 16
  | .mbxAck m _ ring => m < 80 && ring < 16
  | .commandTaken m _ => m < 80
  | .mbxTimeout m => m < 80
  | .registerWrite w _ size value => registerWriteOk w size value
  | .nop m => m < 80
  | .eventRingConfig m => m < 80
  | .cancel m => m < 80
  | .queryOperation m => m < 80
  | .ringCreate m => m < 80
  | .ringDestroy m => m < 80
  | .telemetryClear m => m < 80
  | .eventRingConsWrite ring value => ring < 16 && value < 4294967296
  | .doorbellWrite d value => doorbellOk d && value < 4294967296
  | .telemetrySnapshot => true
  | .refLost => true
  | .refReturn => true
  | .servoInput _ _ => true
  | .holdoverStart => true
  | .holdoverLimit => true
  | .ptpFrame mac _ => mac < 32
  | .ptpTransmit mac _ => mac < 32
  | .esmcReceive mac ql => mac < 32 && ql < 16
  | .esmcTransmit mac ql => mac < 32 && ql < 16
  | .ppsInEdge => true
  | .ppsMissed => true
  | .ppsOutRise => true
  | .ppsOutFall => true
  | .freeRead _ => true
  | .lowHalfRead offset => offset % 8 = 0 && offset < 0x100000
  | .timeRead m => m < 80
  | .timeServoConfig m => m < 80
  | .timeSource m => m < 80
  | .timeStep m => m < 80
  | .frameConfig m => m < 80
  | .noonArm m => m < 80
  | .noonDisarm m => m < 80
  | .ppsConfig m => m < 80
  | .noonList m => m < 80
  | .noonFired k => k < 16
  | .mma d _ => unitExists g d.quad && matOk d
  | .moverCopy d _ => unitExists g d.mover && placeExists g d.src && placeExists g d.dst && copyOk d
  | .waitFree producer sl unit entry => unitExists g producer && unitExists g unit && sl < 8 && entry < sbCount unit
  | .waitFreeResume producer sl unit entry => unitExists g producer && unitExists g unit && sl < 8
      && entry < sbCount unit
  | .post poster sl unit entry len => unitExists g poster && unitExists g unit && sl < 8 && entry < sbCount unit
      && len < 65536
  | .waitFull unit sl entry => unitExists g unit && sl < 8 && entry < sbCount unit
  | .waitFullResume unit sl entry => unitExists g unit && sl < 8 && entry < sbCount unit
  | .release unit sl entry => unitExists g unit && sl < 8 && entry < sbCount unit
  | .releaseReturn unit entry => unitExists g unit && entry < sbCount unit
  | .vld t sl vd a _ => t < gradeTiles g && sl < 8 && regOk [vd] && aOk a
  | .vld2 t sl vd a _ => t < gradeTiles g && sl < 8 && regOk [vd, vd + 1] && aOk a
  | .vst t sl vs a => t < gradeTiles g && sl < 8 && regOk [vs] && aOk a
  | .vgath t sl vd va a => t < gradeTiles g && sl < 8 && regOk [vd, va] && aOk a
  | .vscat t sl vs va a => t < gradeTiles g && sl < 8 && regOk [vs, va] && aOk a
  | .mac t sl va vb => t < gradeTiles g && sl < 8 && regOk [va, vb]
  | .mul t sl vd va vb sh => t < gradeTiles g && sl < 8 && regOk [vd, va, vb] && shOk sh
  | .add t sl vd va vb => t < gradeTiles g && sl < 8 && regOk [vd, va, vb]
  | .sub t sl vd va vb => t < gradeTiles g && sl < 8 && regOk [vd, va, vb]
  | .shift t sl vd va sh => t < gradeTiles g && sl < 8 && regOk [vd, va] && shOk sh
  | .select t sl vd vp va vb => t < gradeTiles g && sl < 8 && regOk [vd, vp, va, vb]
  | .cmac t sl va vb => t < gradeTiles g && sl < 8 && regOk [va, vb]
  | .cmacj t sl va vb => t < gradeTiles g && sl < 8 && regOk [va, vb]
  | .cmul t sl va vb => t < gradeTiles g && sl < 8 && regOk [va, vb]
  | .accst t sl f vd sh => t < gradeTiles g && sl < 8 && (regOk [vd] && shOk sh && (f = .q15 || f = .c16 || f = .c8))
  | .bfly2 t sl x w k => t < gradeTiles g && sl < 8 && regOk [x + 1, w] && k < 4
  | .bfly4 t sl x w k => t < gradeTiles g && sl < 8 && regOk [x + 3, w + 2] && k < 4
  | .bfly8 t sl x w k => t < gradeTiles g && sl < 8 && regOk [x + 7, w + 6] && k < 4
  | .vadd t sl f vd va vb => t < gradeTiles g && sl < 8 && regOk [vd, va, vb] && fpFmt f
  | .vsub t sl f vd va vb => t < gradeTiles g && sl < 8 && regOk [vd, va, vb] && fpFmt f
  | .vmul t sl f vd va vb => t < gradeTiles g && sl < 8 && regOk [vd, va, vb] && fpFmt f
  | .vfma t sl f vd va vb vc => t < gradeTiles g && sl < 8 && regOk [vd, va, vb, vc] && fpFmt f
  | .vmin t sl f vd va vb => t < gradeTiles g && sl < 8 && regOk [vd, va, vb] && minMaxOk f
  | .vmax t sl f vd va vb => t < gradeTiles g && sl < 8 && regOk [vd, va, vb] && minMaxOk f
  | .vexp t sl f vd va => t < gradeTiles g && sl < 8 && regOk [vd, va] && fpFmt f
  | .vlog t sl f vd va => t < gradeTiles g && sl < 8 && regOk [vd, va] && fpFmt f
  | .vrcp t sl f vd va => t < gradeTiles g && sl < 8 && regOk [vd, va] && fpFmt f
  | .vrsqrt t sl f vd va => t < gradeTiles g && sl < 8 && regOk [vd, va] && fpFmt f
  | .vtanh t sl f vd va => t < gradeTiles g && sl < 8 && regOk [vd, va] && fpFmt f
  | .vsigm t sl f vd va => t < gradeTiles g && sl < 8 && regOk [vd, va] && fpFmt f
  | .cvt t sl src dst vd va r quad => quad.elim ((t < gradeTiles g) && (sl < 8) && (regOk [vd, va]
      && cvtOk src dst && rndOk dst r)) (fun d => unitExists g d.quad && isQuad d.quad && cvtOk d.src d.dst
      && rndOk d.dst d.rnd)
  | .mxq t sl dst vd va sc r quad => quad.elim ((t < gradeTiles g) && (sl < 8) && (regOk [vd, va, sc]
      && mxMay dst && rndOk dst r)) (fun d => unitExists g d.quad && isQuad d.quad && mxMay d.dst
      && rndOk d.dst d.rnd)
  | .mxd t sl src dst vd va sc quad => quad.elim ((t < gradeTiles g) && (sl < 8) && (regOk [vd, va, sc]
      && mxMay src && (dst = .f32 || dst = .b16))) (fun d => unitExists g d.quad && isQuad d.quad && mxMay d.src
      && (d.dst = .f32 || d.dst = .b16))
  | .redSum unit sl f _ n sd => unitExists g unit && ((isTile unit || isQuad unit) && sl < 8
      && (f = .f32 || f = .i32) && n ≤ 65536 && (isQuad unit || sd < 16))
  | .loop t sl n last => t < gradeTiles g && sl < 8 && n ≤ 65535 && last ≤ 4091
  | .rep t n op => t < gradeTiles g && n ≤ 4096 && n * opCost op ≤ 4096 && opOk op && repMay op
  | .sbar t sl mask => t < gradeTiles g && sl < 8 && mask < 256 && bit mask sl
  | .sbarResume t => t < gradeTiles g
  | .xsend t sl dir _ _ b entry _ => t < gradeTiles g && (neighbour t dir).isSome && sl < 8 && b % 64 = 0
      && b ≤ 65536 && entry < 64
  | .xsendStallEnd t sl => t < gradeTiles g && sl < 8
  | .rdraw t sl vd sm sn vp => t < gradeTiles g && sl < 8 && regOk [vd] && drawOk sm sn vp
  | .runi t sl vd sm sn vp => t < gradeTiles g && sl < 8 && regOk [vd] && drawOk sm sn vp
  | .rnormBm t sl vd sm sn vp => t < gradeTiles g && sl < 8 && regOk [vd] && drawOk sm sn vp
  | .rnormTab t sl vd sm sn vp => t < gradeTiles g && sl < 8 && regOk [vd] && drawOk sm sn vp
  | .gmax t n _ sm sn sd vp => t < gradeTiles g && n ≤ 1048576 && drawOk sm sn vp && sd < 15
  | .topk t n k _ _ sm sn vp => t < gradeTiles g && n ≤ 1048576 && k ≤ 256 && drawOk sm sn vp
  | .rngSeed m => m < 80
  | .rngQuery m => m < 80
  | .rngEval m => m < 80
  | .seal table i => table < 9 && i.entries.length ≤ 2048
  | .sealLine table _ => table < 8
  | .entryLaunch table _ _ _ => table < 9
  | .stageEnd table _ _ => table < 8
  | .reservationEnd table _ _ => table < 9
  | .lendDecision => true
  | .microStepBlocking ctx _ => ctx < 256
  | .microStepEnd ctx _ => ctx < 256
  | .backgroundItemStart u _ => unitExists g u
  | .backgroundItemEnd u r => unitExists g u && r.deltas.all (fun d => d.1 < 6 && d.2 % 5 = 0)
  | .tableLoad m _ => m < 80
  | .tableLoadDone h => h < 64
  | .tableUnload m => m < 80
  | .tableStop m => m < 80
  | .tableStatus m => m < 80
  | .lendConfig m => m < 80
  | .fhLink mac _ => mac < 32
  | .frameReceive mac _ => mac < 32
  | .windowOpen b _ symbol => b < 4096 && symbol < 14
  | .symbolPost b _ symbol => b < 4096 && symbol < 14
  | .uplaneRelease b _ symbol => b < 4096 && symbol < 14
  | .cplaneRelease b _ symbol msg => b < 4096 && symbol < 14 && cplaneOk msg
  | .transmitSelect mac => mac < 32
  | .shaperRefill mac q => mac < 32 && q < 8
  | .policerRefill mac i => mac < 32 && i < 64
  | .gateEdge mac => mac < 32
  | .gclSwitched mac => mac < 32
  | .ethTx ring => ring < 4096
  | .fhPortMode m => m < 80
  | .fhMacConfig m => m < 80
  | .fhQueueConfig m => m < 80
  | .fhGclSet m => m < 80
  | .fhPolicerSet m => m < 80
  | .fhAsymSet m => m < 80
  | .fhStatus m => m < 80
  | .ldInputPhase eng => isLd eng
  | .ldDecodePhase eng => isLd eng
  | .ldOutputPhase eng => isLd eng
  | .leJob eng => isLe eng
  | .pdJob eng _ => 0xD0 ≤ eng && eng < 0xD8
  | .peJob eng _ => 0xD8 ≤ eng && eng < 0xDC
  | .gainSet m => m < 80
  | .stageRecords m => m < 80
  | .cellCreate m => m < 80
  | .cellDestroy m => m < 80
  | .cellQuery m => m < 80
  | .twinPair m _ => m < 80
  | .twinUnpair m => m < 80
  | .paramRequest ring => ring < 4096
  | .configRequest ring _ => ring < 4096
  | .startRequest ring => ring < 4096
  | .stopRequest ring => ring < 4096
  | .dlTtiRequest ring _ => ring < 4096
  | .ulTtiRequest ring _ => ring < 4096
  | .ulDciRequest ring _ => ring < 4096
  | .txDataRequest ring _ => ring < 4096
  | .kPrioRequest ring msg => ring < 4096 && msg.entries.all (fun e => e.2.1 < 256 && e.2.2 < 65536)
  | .unsupportedMessage ring identity => ring < 4096 && identity < 65536 && !knownIdentity identity
  | .intakeLine part cell _ => part < 64 && cell < 64
  | .slotIndication part cell _ => part < 64 && cell < 64
  | .twinMirrorRecord part cell _ => part < 64 && cell < 64
  | .twinCommit part cell _ => part < 64 && cell < 64
  | .commitResult part cell _ => part < 64 && cell < 64
  | .sweepChannelSet m => m < 80
  | .sweepChannelClear m => m < 80
  | .sweepStatus m => m < 80
  | .sweepTx ring => ring < 4096
  | .sweepTxDone chan => chan < 64
  | .sweepDetectionWindow chan sf => chan < 64 && 8 ≤ sf && sf ≤ 15
  | .sweepSymbol chan sf _ _ => chan < 64 && 8 ≤ sf && sf ≤ 15
  | .ctxCreate m _ => m < 80
  | .ctxCreateDone h => h < 64
  | .ctxDestroy m => m < 80
  | .ctxDestroyDone h => h < 64
  | .ctxWrite m => m < 80
  | .ctxWriteDone h => h < 64
  | .ctxReside m => m < 80
  | .residencyDone c => c < 256
  | .ctxEvict m => m < 80
  | .ctxFlush m => m < 80
  | .ctxQuery m => m < 80
  | .stepSubmit ring => ring < 4096
  | .batchStepStart c => c < 256
  | .batchStepCommit c => c < 256
  | .stepBoundExpiry c => c < 256
  | .stepDone ring => ring < 4096
  | .noonHoldTimeout c => c < 256
  | .partCreate m => m < 80
  | .partCreateDone h => h < 64
  | .partRemove m => m < 80
  | .partReset m => m < 80
  | .functionLevelReset p => p < 64
  | .resetFabricDrain p => p < 64
  | .resetHostDrain p _ => p < 64
  | .partResetDone p => p < 64
  | .partQuery m => m < 80
  | .partFreeze m => m < 80
  | .freezeComplete p => p < 64
  | .partThaw m => m < 80
  | .partSave m => m < 80
  | .partRestore m _ => m < 80
  | .partQuota m => m < 80
  | .quarantineEnd job => job < 16777216
  | .fabDeviceConfig m => m < 80
  | .fabPortConfig m => m < 80
  | .fabJobTake m => m < 80
  | .fabJobRelease m => m < 80
  | .fabWindowSet m => m < 80
  | .fabWindowClear m => m < 80
  | .fabStatus m => m < 80
  | .fabPort port _ => port < gradePorts g
  | .fabricRequestIssue d => descLenOk d && (d.ctx.isNone || isMover d.mover) && d.req.dst < 65536
      && d.req.job < 16777216
  | .fabricIssueResume ctx => ctx ≤ 256
  | .load r => reqOk .load r
  | .store r => reqOk .store r
  | .get r => reqOk .get r
  | .put r => reqOk .put r
  | .reduceAdd r => reqOk .reduceAdd r
  | .atomicAdd r => reqOk .add r
  | .atomicAnd r => reqOk .and r
  | .atomicOr r => reqOk .or r
  | .atomicXor r => reqOk .xor r
  | .addR r => reqOk .addR r
  | .andR r => reqOk .andR r
  | .orR r => reqOk .orR r
  | .xorR r => reqOk .xorR r
  | .xchg r => reqOk .xchg r
  | .cas r => reqOk .cas r
  | .fadd r b16 => reqOk (if b16 then FabOp.faddB16 else .faddF32) r
  | .faddR r b16 => reqOk (if b16 then FabOp.faddRB16 else .faddRF32) r
  | .fabricReply r => (statusOf r.status).isSome && r.tag < 4294967296
  | .replyTimeout dst tag => dst < 65536 && tag < 4294967296
  | .lifetimeExpiry dst tag => dst < 65536 && tag < 4294967296
  | .sourceRecordExpiry src => src < 65536
  | .ledgerEntryExpiry src tag => src < 65536 && tag < 4294967296
  | .ffence ctx _ mover _ => ctx < 256 && isMover mover
  | .ffenceComplete ctx => ctx < 256
  | .syncDescriptor c _ _ => c < 256
  | .syncListApply c _ => c < 256
  | .syncCreate m => m < 80
  | .syncDestroy m => m < 80
  | .syncOp m => m < 80
  | .syncQuery m => m < 80
  | .syncDump m => m < 80
  | .syncReset m => m < 80
  | .detMode m => m < 80
  | .detQuery m => m < 80
  | .hltReset m => m < 80
  | .hltWindows m => m < 80
  | .memberConfig m => m < 80
  | .memberQuery m => m < 80
  | .memberJoin m => m < 80
  | .memberSuspect m => m < 80
  | .stepLedgerBind m => m < 80
  | .ledgerCasResult c _ old => c < 256 && old < 2 ^ 64
  | .stepSlow c => c < 256
  | .faultLogConsWrite part value => (part.getD 0) < 64 && value < 4294967296
  | .radioHang u => unitExists g u
  | .inferenceHang c => c < 256
  | .contextResetDone c => c < 256
  | .gridResetPhaseB => true
  | .gridResetDone failed => failed.all (fun u => (isQuad u || isTile u) && unitExists g u)
  | .resetOverrun ctx => ctx.all (fun c => decide (c < 256))
  | .healthDecay => true
  | .heartbeatSend => true
  | .heartbeat b => b.sender < 64 && b.health ≤ 1000
  | .prepare src _ _ => src < 64
  | .promise src _ _ _ => src < 64
  | .proposal src _ => src < 64
  | .acceptance src _ _ => src < 64
  | .commit p _ => p.members.all (fun d => decide (d < 64))
  | .roundTimeout => true
  | .controlPeriod v => v.grid.length ≤ 64 && v.pkg.length ≤ 8 && v.dom.length ≤ 7
  | .clockStepUp => true
  | .inputUndervoltage vIn => vIn < 32768
  | .inputRestored vIn => vIn < 32768
  | .powerFault vIn => vIn < 32768
  | .vstbyLoss => true
  | .strideStart => true
  | .pwrCap m => m < 80
  | .bgConfig m => m < 80
  | .dawn env => dawnEnvOk g env
  | .cxlPerstAssert => true
  | .cxlPerstDeassert => true
  | .entropyTestFailure => true
  | .dawnState => true
  | .deviceReset => true
  | .blobWrite offset _ _ => offset < 2 ^ 32
  | .ownerEnrol _ => true
  | .eventLogRead first => first < 256
  | .setEndpointId eid => eid < 256
  | .pldmSensorRead sensor => (match sensor with | .mirror k => decide (k < 112) | _ => true)
  | .requestUpdate => true
  | .requestFirmwareData bytes _ => 1 ≤ bytes.length && bytes.length ≤ 4096
  | .activateFirmware => true
  | .updateIdleTimeout => true
  | .getVersion _ => true
  | .getCapabilities _ => true
  | .negotiateAlgorithms _ _ _ => true
  | .getDigests _ slot => slot < 256
  | .getCertificate _ slot _ _ => slot < 256
  | .challenge _ slot nonce => nonce.length = 32 && slot < 256
  | .getMeasurements _ index _ nonce => nonce.length = 32 && index < 256
  | .respondIfReady _ => true
  | .signatureDone => true
  | .bypass => true
  | .idcode => true
  | .samplePreload cells => cells.length = 27
  | .extest => true
  | .clamp => true
  | .highz => true
  | .trstAssert => true
  | .saveChunkDone h => h < 64
  | .restoreChunkDone h _ => h < 64
  | .entropyTestsPass => true

end Sys2Proof
end

