-- ==== Sys2Proof/Safety.lean ====
section
/-!
DEFINITION. The terms the statements use: when a mailbox command is due, what its answer is, when a command has its own
effect, and which pieces of state a command may change.
-/
namespace Sys2Proof.Machine

/-- The firmware has taken command c of opcode `op` in mailbox m, and no general check of R539 refuses it. -/
abbrev Due (s : State) (m op : Nat) (c : Cmd) : Prop :=
  m < 80 ∧ (mbxOf s m).taken = some c ∧ (mbxOf s m).discard = false ∧ c.opcode = op ∧ generalCheck m c s = none

/-- Mailbox m is DONE with the response to c: a status, a payload, no handle and no advice to wait (R26, R27). -/
abbrev Answered (t : State) (m : Nat) (c : Cmd) (st : Status) (body : List Byte) : Prop :=
  (mbxOf t m).phase = .done ∧ (mbxOf t m).taken = none
    ∧ (mbxOf t m).resp = { status := st, opcode := c.opcode, tag := c.tag, retryAfter := 0, handle := 0xFFFF,
                                payload := body }

/-- Mailbox m is DONE with IN_PROGRESS and handle h, and h holds the operation (R30). -/
abbrev Accepted (t : State) (m : Nat) (c : Cmd) (h : Nat) : Prop :=
  (mbxOf t m).phase = .done ∧ (mbxOf t m).taken = none
    ∧ (mbxOf t m).resp = { status := .inProgress, opcode := c.opcode, tag := c.tag, retryAfter := 0, handle := h,
                                payload := [] }
    ∧ ∃ o, opOf t h = some o ∧ o.opcode = c.opcode ∧ o.finished = false

/-- Operation h has ended with a status and a result (R30). -/
abbrev Ended (t : State) (h : Nat) (st : Status) (result : List Byte) : Prop :=
  ∃ o, opOf t h = some o ∧ o.finished = true ∧ o.status = st ∧ o.result = result

/-! ### Pieces of state -/

/-- One mark per piece of state. -/
structure Part where
  grade : Bool := false
  dev : Bool := false
  mbx : Bool := false
  ops : Bool := false
  evr : Bool := false
  rings : Bool := false
  tel : Bool := false
  mem : Bool := false
  tmb : Bool := false
  win : Bool := false
  pps : Bool := false
  noon : Bool := false
  grd : Bool := false
  tts : Bool := false
  fh : Bool := false
  srv : Bool := false
  fab : Bool := false
  syn : Bool := false
  parts : Bool := false
  quarantine : Bool := false
  hlt : Bool := false
  tiles : Bool := false
  cde : Bool := false
  cells : Bool := false
  sweep : Bool := false
  mbr : Bool := false
  pwr : Bool := false
  bg : Bool := false
  mgt : Bool := false
  tap : Bool := false
  out : Bool := false
  fresh : Bool := false
  pending : Bool := false
  deriving DecidableEq, Repr

/-- A state with the marked pieces at their reset values. -/
def State.erase (s : State) (m : Part) : State :=
  { grade := if m.grade then State.reset.grade else s.grade,
    dev := if m.dev then State.reset.dev else s.dev,
    mbx := if m.mbx then State.reset.mbx else s.mbx,
    ops := if m.ops then State.reset.ops else s.ops,
    evr := if m.evr then State.reset.evr else s.evr,
    rings := if m.rings then State.reset.rings else s.rings,
    tel := if m.tel then State.reset.tel else s.tel,
    mem := if m.mem then State.reset.mem else s.mem,
    tmb := if m.tmb then State.reset.tmb else s.tmb,
    win := if m.win then State.reset.win else s.win,
    pps := if m.pps then State.reset.pps else s.pps,
    noon := if m.noon then State.reset.noon else s.noon,
    grd := if m.grd then State.reset.grd else s.grd,
    tts := if m.tts then State.reset.tts else s.tts,
    fh := if m.fh then State.reset.fh else s.fh,
    srv := if m.srv then State.reset.srv else s.srv,
    fab := if m.fab then State.reset.fab else s.fab,
    syn := if m.syn then State.reset.syn else s.syn,
    parts := if m.parts then State.reset.parts else s.parts,
    quarantine := if m.quarantine then State.reset.quarantine else s.quarantine,
    hlt := if m.hlt then State.reset.hlt else s.hlt,
    tiles := if m.tiles then State.reset.tiles else s.tiles,
    cde := if m.cde then State.reset.cde else s.cde,
    cells := if m.cells then State.reset.cells else s.cells,
    sweep := if m.sweep then State.reset.sweep else s.sweep,
    mbr := if m.mbr then State.reset.mbr else s.mbr,
    pwr := if m.pwr then State.reset.pwr else s.pwr,
    bg := if m.bg then State.reset.bg else s.bg,
    mgt := if m.mgt then State.reset.mgt else s.mgt,
    tap := if m.tap then State.reset.tap else s.tap,
    out := if m.out then State.reset.out else s.out,
    fresh := if m.fresh then State.reset.fresh else s.fresh,
    pending := if m.pending then State.reset.pending else s.pending }

/-- The canonical forms: of the byte stores (the one memory, the boot flash) and of the table of contexts. -/
def State.Canonical (s : State) : Prop := memWf s.mem ∧ memWf s.mgt.flash ∧ tabWf s.srv.ctxs

/-- The pieces of state a command may change: its own, and those that an event, a fault record, a ring entry or the settling of
what waits on it may reach. -/
def touches : Instr → Part
  | .linkTraining .. =>
    { dev := true, evr := true, out := true }
  | .mbxGo .. | .mbxAbort .. | .mbxAck .. | .nop .. | .eventRingConfig .. | .noonList .. | .rngQuery .. | .rngEval ..
  | .tableStatus .. | .stageRecords .. | .syncQuery .. | .memberQuery .. =>
    { mbx := true, evr := true, out := true }
  | .commandTaken .. | .mbxTimeout .. | .hltWindows .. =>
    { mbx := true, evr := true, hlt := true, out := true }
  | .registerWrite .. =>
    { mbx := true, ops := true, evr := true, rings := true, tel := true, mem := true, hlt := true, out := true }
  | .cancel .. | .partRemove .. | .partReset .. =>
    { mbx := true, ops := true, evr := true, rings := true, mem := true, noon := true, grd := true, tts := true,
      fh := true, srv := true, fab := true, syn := true, parts := true, hlt := true, tiles := true, cells := true,
      sweep := true, out := true, fresh := true }
  | .queryOperation .. =>
    { mbx := true, ops := true, evr := true, out := true }
  | .ringCreate .. =>
    { mbx := true, evr := true, rings := true, out := true, fresh := true }
  | .ringDestroy .. =>
    { mbx := true, evr := true, rings := true, out := true }
  | .telemetryClear .. | .telemetrySnapshot .. =>
    { mbx := true, evr := true, tel := true, out := true }
  | .eventRingConsWrite .. =>
    { ops := true, evr := true }
  | .doorbellWrite .. =>
    { evr := true, rings := true, tel := true, mem := true, hlt := true, out := true }
  | .refLost .. =>
    { evr := true, tmb := true, hlt := true, out := true }
  | .refReturn .. | .dawn .. =>
    { dev := true, mbx := true, ops := true, evr := true, rings := true, tel := true, mem := true, tmb := true,
      win := true, pps := true, noon := true, grd := true, tts := true, fh := true, srv := true, fab := true,
      syn := true, parts := true, quarantine := true, hlt := true, tiles := true, cde := true, cells := true,
      sweep := true, mbr := true, pwr := true, bg := true, mgt := true, out := true, fresh := true }
  | .servoInput .. | .ppsInEdge .. =>
    { evr := true, tmb := true, pps := true, fab := true, out := true }
  | .holdoverStart .. | .holdoverLimit .. =>
    { evr := true, tmb := true, fab := true, out := true }
  | .ptpFrame .. =>
    { evr := true, tmb := true, pps := true, fh := true, fab := true, out := true }
  | .ptpTransmit .. =>
    { pps := true, fh := true }
  | .esmcReceive .. =>
    { pps := true, out := true, fresh := true }
  | .esmcTransmit .. | .cplaneRelease .. | .shaperRefill .. | .policerRefill .. | .gateEdge .. =>
    { fh := true }
  | .ppsMissed .. =>
    { pps := true }
  | .ppsOutRise .. | .ppsOutFall .. =>
    { pps := true, out := true }
  | .freeRead .. | .lowHalfRead .. =>
    { win := true }
  | .timeRead .. | .frameConfig .. =>
    { mbx := true, evr := true, win := true, out := true }
  | .timeServoConfig .. | .timeStep .. =>
    { mbx := true, evr := true, tmb := true, out := true }
  | .timeSource .. =>
    { mbx := true, evr := true, tmb := true, pps := true, fab := true, out := true }
  | .noonArm .. =>
    { mbx := true, evr := true, noon := true, tts := true, out := true, fresh := true }
  | .noonDisarm .. =>
    { mbx := true, evr := true, noon := true, tts := true, out := true }
  | .ppsConfig .. =>
    { mbx := true, evr := true, pps := true, out := true }
  | .noonFired .. =>
    { ops := true, evr := true, rings := true, mem := true, noon := true, grd := true, tts := true, srv := true,
      fab := true, syn := true, hlt := true, tiles := true, cells := true, sweep := true, out := true, fresh := true }
  | .mma .. | .moverCopy .. | .post .. | .vld .. | .vld2 .. | .vst .. | .vgath .. | .vscat .. | .cvt .. | .mxq ..
  | .mxd .. | .redSum .. | .rep .. | .xsend .. | .xsendStallEnd .. | .gmax .. | .topk .. | .fabricRequestIssue ..
  | .gridResetPhaseB .. =>
    { ops := true, evr := true, rings := true, mem := true, grd := true, tts := true, srv := true, fab := true,
      syn := true, hlt := true, tiles := true, cde := true, out := true, fresh := true }
  | .waitFree .. | .waitFreeResume .. | .waitFull .. | .waitFullResume .. | .release .. | .mac .. | .mul .. | .add ..
  | .sub .. | .shift .. | .select .. | .cmac .. | .cmacj .. | .cmul .. | .accst .. | .bfly2 .. | .bfly4 ..
  | .bfly8 .. | .vadd .. | .vsub .. | .vmul .. | .vfma .. | .vmin .. | .vmax .. | .vexp .. | .vlog .. | .vrcp ..
  | .vrsqrt .. | .vtanh .. | .vsigm .. | .loop .. | .sbar .. | .sbarResume .. | .rdraw .. | .runi .. | .rnormBm ..
  | .rnormTab .. =>
    { grd := true, hlt := true, tiles := true }
  | .releaseReturn .. | .backgroundItemStart .. =>
    { grd := true }
  | .rngSeed .. | .ctxQuery .. | .detQuery .. | .stepLedgerBind .. =>
    { mbx := true, evr := true, srv := true, out := true }
  | .seal .. =>
    { evr := true, rings := true, mem := true, tts := true, cde := true, cells := true, sweep := true, out := true }
  | .sealLine .. | .reservationEnd .. =>
    { ops := true, evr := true, rings := true, mem := true, grd := true, tts := true, fh := true, srv := true,
      fab := true, syn := true, parts := true, hlt := true, tiles := true, cde := true, cells := true, sweep := true,
      out := true, fresh := true }
  | .entryLaunch .. =>
    { ops := true, evr := true, rings := true, mem := true, grd := true, tts := true, srv := true, fab := true,
      syn := true, hlt := true, tiles := true, cde := true, pwr := true, out := true, fresh := true }
  | .stageEnd .. =>
    { rings := true, mem := true, grd := true, tts := true, tiles := true, cells := true, out := true }
  | .lendDecision .. =>
    { grd := true, tts := true, srv := true, hlt := true, tiles := true }
  | .microStepBlocking .. =>
    { tts := true }
  | .microStepEnd .. =>
    { ops := true, evr := true, rings := true, mem := true, grd := true, tts := true, srv := true, fab := true,
      syn := true, hlt := true, tiles := true, pwr := true, out := true, fresh := true }
  | .backgroundItemEnd .. =>
    { evr := true, grd := true, hlt := true, tiles := true, pwr := true, bg := true, out := true }
  | .tableLoad .. =>
    { mbx := true, ops := true, evr := true, tts := true, out := true, fresh := true }
  | .tableLoadDone .. | .ctxDestroyDone .. | .batchStepStart .. | .batchStepCommit .. | .stepBoundExpiry ..
  | .fabricIssueResume .. | .load .. | .store .. | .get .. | .put .. | .reduceAdd .. | .atomicAdd .. | .atomicAnd ..
  | .atomicOr .. | .atomicXor .. | .addR .. | .andR .. | .orR .. | .xorR .. | .xchg .. | .cas .. | .fadd ..
  | .faddR .. | .fabricReply .. | .replyTimeout .. | .syncListApply .. | .ledgerCasResult .. | .inferenceHang ..
  | .contextResetDone .. | .gridResetDone .. =>
    { ops := true, evr := true, rings := true, mem := true, grd := true, tts := true, srv := true, fab := true,
      syn := true, hlt := true, tiles := true, out := true, fresh := true }
  | .tableUnload .. | .lendConfig .. | .ctxDestroy .. | .syncDestroy .. | .syncOp .. =>
    { mbx := true, ops := true, evr := true, rings := true, mem := true, grd := true, tts := true, srv := true,
      fab := true, syn := true, hlt := true, tiles := true, out := true, fresh := true }
  | .tableStop .. =>
    { mbx := true, evr := true, tts := true, out := true }
  | .fhLink .. | .gclSwitched .. =>
    { evr := true, fh := true, out := true }
  | .frameReceive .. =>
    { rings := true, mem := true, fh := true, hlt := true, out := true }
  | .windowOpen .. =>
    { mem := true, hlt := true }
  | .symbolPost .. =>
    { evr := true, mem := true, grd := true, fh := true, hlt := true, sweep := true, out := true }
  | .uplaneRelease .. =>
    { grd := true, fh := true }
  | .transmitSelect .. =>
    { pps := true, fh := true, out := true }
  | .ethTx .. =>
    { evr := true, rings := true, mem := true, fh := true, hlt := true, out := true }
  | .fhPortMode .. | .fhMacConfig .. | .fhQueueConfig .. | .fhGclSet .. | .fhPolicerSet .. | .fhAsymSet ..
  | .fhStatus .. =>
    { mbx := true, evr := true, fh := true, out := true }
  | .ldInputPhase .. | .leJob .. | .pdJob .. | .peJob .. =>
    { grd := true, cde := true }
  | .ldDecodePhase .. =>
    { cde := true }
  | .ldOutputPhase .. =>
    { mem := true, hlt := true, cde := true }
  | .gainSet .. | .cellQuery .. | .twinPair .. | .twinUnpair .. =>
    { mbx := true, evr := true, cells := true, out := true }
  | .cellCreate .. =>
    { mbx := true, evr := true, fh := true, cells := true, sweep := true, out := true, fresh := true }
  | .cellDestroy .. =>
    { mbx := true, evr := true, fh := true, cells := true, sweep := true, out := true }
  | .paramRequest .. | .configRequest .. | .dlTtiRequest .. | .ulTtiRequest .. | .ulDciRequest .. | .txDataRequest ..
  | .kPrioRequest .. | .unsupportedMessage .. =>
    { evr := true, rings := true, mem := true, hlt := true, cells := true, out := true, fresh := true }
  | .startRequest .. | .stopRequest .. =>
    { evr := true, rings := true, mem := true, hlt := true, cells := true, sweep := true, out := true, fresh := true }
  | .intakeLine .. | .slotIndication .. =>
    { rings := true, mem := true, cells := true, out := true }
  | .twinMirrorRecord .. =>
    { evr := true, fh := true, cells := true, out := true }
  | .twinCommit .. | .commitResult .. =>
    { evr := true, rings := true, mem := true, cells := true, sweep := true, out := true }
  | .sweepChannelSet .. =>
    { mbx := true, evr := true, sweep := true, out := true }
  | .sweepChannelClear .. | .sweepStatus .. =>
    { mbx := true, evr := true, sweep := true, out := true, fresh := true }
  | .sweepTx .. =>
    { evr := true, rings := true, mem := true, hlt := true, sweep := true, out := true }
  | .sweepTxDone .. | .sweepSymbol .. =>
    { rings := true, mem := true, sweep := true, out := true }
  | .sweepDetectionWindow .. =>
    { sweep := true }
  | .ctxCreate .. =>
    { mbx := true, ops := true, evr := true, srv := true, out := true, fresh := true }
  | .ctxCreateDone .. | .stepSubmit .. =>
    { ops := true, evr := true, rings := true, mem := true, grd := true, srv := true, hlt := true, out := true }
  | .ctxWrite .. =>
    { mbx := true, ops := true, evr := true, out := true, fresh := true }
  | .ctxWriteDone .. =>
    { ops := true, evr := true, mem := true, hlt := true, out := true }
  | .ctxReside .. =>
    { mbx := true, ops := true, evr := true, rings := true, mem := true, grd := true, srv := true, out := true,
      fresh := true }
  | .residencyDone .. =>
    { ops := true, evr := true, rings := true, mem := true, grd := true, srv := true, out := true }
  | .ctxEvict .. =>
    { mbx := true, ops := true, evr := true, rings := true, mem := true, grd := true, srv := true, out := true }
  | .ctxFlush .. =>
    { mbx := true, evr := true, rings := true, mem := true, srv := true, out := true }
  | .stepDone .. | .noonHoldTimeout .. =>
    { rings := true, mem := true, srv := true, out := true }
  | .partCreate .. | .partSave .. | .partRestore .. | .partQuota .. =>
    { mbx := true, ops := true, evr := true, parts := true, out := true, fresh := true }
  | .partCreateDone .. | .partResetDone .. =>
    { mbx := true, ops := true, evr := true, mem := true, parts := true, hlt := true, out := true, fresh := true }
  | .functionLevelReset .. | .restoreChunkDone .. =>
    { ops := true, evr := true, rings := true, mem := true, noon := true, grd := true, tts := true, fh := true,
      srv := true, fab := true, syn := true, parts := true, hlt := true, tiles := true, cells := true, sweep := true,
      out := true, fresh := true }
  | .resetFabricDrain .. =>
    { fab := true, parts := true }
  | .resetHostDrain .. =>
    { ops := true, evr := true, rings := true, mem := true, grd := true, tts := true, srv := true, fab := true,
      syn := true, parts := true, quarantine := true, hlt := true, tiles := true, out := true, fresh := true }
  | .partQuery .. | .fabJobTake .. | .detMode .. =>
    { mbx := true, evr := true, parts := true, out := true }
  | .partFreeze .. =>
    { mbx := true, ops := true, evr := true, rings := true, mem := true, grd := true, tts := true, srv := true,
      fab := true, syn := true, parts := true, hlt := true, tiles := true, out := true, fresh := true }
  | .freezeComplete .. =>
    { ops := true, evr := true, grd := true, srv := true, parts := true, out := true }
  | .partThaw .. =>
    { mbx := true, ops := true, evr := true, rings := true, mem := true, grd := true, srv := true, parts := true,
      hlt := true, out := true }
  | .quarantineEnd .. =>
    { quarantine := true }
  | .fabDeviceConfig .. | .fabPortConfig .. | .fabWindowClear .. | .fabStatus .. =>
    { mbx := true, evr := true, fab := true, out := true }
  | .fabJobRelease .. =>
    { mbx := true, evr := true, fab := true, parts := true, quarantine := true, out := true }
  | .fabWindowSet .. =>
    { mbx := true, evr := true, fab := true, out := true, fresh := true }
  | .fabPort .. =>
    { evr := true, fab := true, hlt := true, out := true }
  | .lifetimeExpiry .. | .sourceRecordExpiry .. | .ledgerEntryExpiry .. =>
    { fab := true }
  | .ffence .. =>
    { evr := true, grd := true, srv := true, fab := true, hlt := true, out := true }
  | .ffenceComplete .. =>
    { evr := true, srv := true, fab := true, hlt := true, out := true }
  | .syncDescriptor .. =>
    { grd := true, srv := true, hlt := true }
  | .syncCreate .. | .syncReset .. =>
    { mbx := true, evr := true, syn := true, out := true }
  | .syncDump .. =>
    { mbx := true, evr := true, mem := true, out := true, fresh := true }
  | .hltReset .. =>
    { dev := true, mbx := true, ops := true, evr := true, rings := true, mem := true, noon := true, grd := true,
      tts := true, fh := true, srv := true, fab := true, syn := true, hlt := true, tiles := true, cells := true,
      sweep := true, mgt := true, out := true, fresh := true }
  | .memberConfig .. =>
    { mbx := true, evr := true, mbr := true, out := true }
  | .memberJoin .. | .memberSuspect .. =>
    { dev := true, mbx := true, ops := true, evr := true, rings := true, mem := true, grd := true, tts := true,
      fh := true, srv := true, fab := true, syn := true, hlt := true, tiles := true, cells := true, sweep := true,
      mbr := true, out := true, fresh := true }
  | .stepSlow .. =>
    { evr := true, srv := true, out := true }
  | .faultLogConsWrite .. =>
    { hlt := true }
  | .radioHang .. =>
    { evr := true, grd := true, tts := true, hlt := true, tiles := true, cde := true, out := true, fresh := true }
  | .resetOverrun .. =>
    { evr := true, rings := true, mem := true, noon := true, tts := true, hlt := true, cells := true, sweep := true,
      out := true, fresh := true }
  | .healthDecay .. =>
    { evr := true, hlt := true, out := true }
  | .heartbeatSend .. | .heartbeat .. | .promise .. | .acceptance .. | .commit .. | .roundTimeout .. =>
    { dev := true, ops := true, evr := true, rings := true, mem := true, grd := true, tts := true, fh := true,
      srv := true, fab := true, syn := true, hlt := true, tiles := true, cells := true, sweep := true, mbr := true,
      out := true, fresh := true }
  | .prepare .. | .proposal .. =>
    { mbr := true, out := true }
  | .controlPeriod .. =>
    { dev := true, evr := true, mem := true, noon := true, grd := true, fh := true, fab := true, hlt := true,
      pwr := true, mgt := true, out := true }
  | .clockStepUp .. =>
    { grd := true, pwr := true }
  | .inputUndervoltage .. | .inputRestored .. =>
    { evr := true, pwr := true, mgt := true, out := true }
  | .powerFault .. =>
    { dev := true, mem := true, noon := true, fh := true, fab := true, hlt := true, pwr := true, mgt := true,
      out := true }
  | .vstbyLoss .. =>
    { dev := true, mbx := true, ops := true, evr := true, rings := true, tel := true, mem := true, tmb := true,
      win := true, pps := true, noon := true, grd := true, tts := true, fh := true, srv := true, fab := true,
      syn := true, parts := true, quarantine := true, hlt := true, tiles := true, cde := true, cells := true,
      sweep := true, mbr := true, pwr := true, bg := true, mgt := true, tap := true }
  | .strideStart .. =>
    { bg := true }
  | .pwrCap .. =>
    { mbx := true, evr := true, pwr := true, out := true }
  | .bgConfig .. =>
    { mbx := true, ops := true, evr := true, rings := true, mem := true, grd := true, tts := true, srv := true,
      fab := true, syn := true, hlt := true, tiles := true, bg := true, out := true, fresh := true }
  | .cxlPerstAssert .. =>
    { dev := true, noon := true, fh := true, fab := true, hlt := true, mgt := true, tap := true }
  | .cxlPerstDeassert .. | .bypass .. | .extest .. | .clamp .. | .highz .. | .trstAssert .. =>
    { mgt := true, tap := true }
  | .entropyTestFailure .. | .updateIdleTimeout .. | .signatureDone .. | .entropyTestsPass .. =>
    { mgt := true }
  | .dawnState .. | .eventLogRead .. | .activateFirmware .. | .getDigests .. | .getCertificate .. =>
    { out := true }
  | .deviceReset .. =>
    { dev := true, noon := true, fh := true, fab := true, hlt := true, pwr := true, mgt := true, out := true }
  | .blobWrite .. =>
    { mgt := true, out := true, fresh := true }
  | .ownerEnrol .. | .setEndpointId .. | .requestUpdate .. | .requestFirmwareData .. | .getVersion ..
  | .getCapabilities .. | .negotiateAlgorithms .. | .challenge .. | .getMeasurements .. | .respondIfReady .. =>
    { mgt := true, out := true }
  | .pldmSensorRead .. =>
    { out := true, fresh := true }
  | .idcode .. =>
    { mgt := true, tap := true, out := true }
  | .samplePreload .. =>
    { mgt := true, tap := true, out := true, fresh := true }
  | .saveChunkDone .. =>
    { ops := true, evr := true, mem := true, out := true, fresh := true }

end Sys2Proof.Machine
end

