-- ==== Sys2Proof/Certificates/Slice0/Obligations.lean ====
section
/-!
DEFINITION. The statements for the provers: the parts of each first, in Sys2Proof.Claims, then the statements themselves.
-/

open Sys2Proof Sys2Proof.Machine

namespace Sys2Proof.Claims

/-! ### The whole machine -/

/-- A command answers a next state exactly when it exists on a device of the grade: no well-formed command is refused. -/
def NextExactlyWhenWellFormed : Prop :=
  (∀ (i : Instr) (s : State), wellFormed s.grade i = true ↔ ∃ t, exec i s = .next t)
  ∧ ∀ i : Instr, wellFormed .t72 i = true → wellFormed .t96 i = true

/-- What makes no next state is a unit the grade lacks (R3) or an operand no command can carry. -/
def StopsNamed : Prop :=
  ∀ (i : Instr) (s : State), wellFormed s.grade i = false →
    (∃ what n, exec i s = .fault (.absentUnit what n)) ∨ (∃ what, exec i s = .refused (.malformed what))

/-! ### Chapter 01: host attach and mailboxes -/

/-- R18: a link training sets lanes, rate and the radio capacity, and stops no cell. -/
def LinkTraining : Prop :=
  ∀ (s : State) (lanes rate : Nat), (lanes = 4 ∨ lanes = 8 ∨ lanes = 16) → (rate = 16 ∨ rate = 32 ∨ rate = 64) →
    ∃ t, exec (.linkTraining lanes rate) s = .next t
      ∧ t.dev = { s.dev with lanes := lanes, rate := rate,
                             radioCuMax := (match s.grade with | .t96 => 320 | .t72 => 240) * lanes * rate / 1024 }
      ∧ t.cells = s.cells

/-- R24, R27, R28: the handshake of a mailbox: go, abort, ack, taking a command, and a go that is ignored. -/
def MailboxHandshake : Prop :=
  ∀ (s : State) (m ring : Nat), m < 80 → ring < 16 → mbxUsable s m = true →
    (∀ ack irq, s.dev.dawnDone = true → ((mbxOf s m).phase = .idle ∨ (mbxOf s m).phase = .done) →
      ∃ t, exec (.mbxGo m false ack irq ring) s = .next t ∧ (mbxOf t m).phase = .submitted
        ∧ (mbxOf t m).cmd = areaCmd (mbxOf s m).area ∧ (mbxOf t m).seq = ((mbxOf s m).seq + 1) % 2 ^ 32)
    ∧ (∀ abort ack irq, ((mbxOf s m).phase = .submitted ∨ (mbxOf s m).phase = .running) → abort = false →
      ∃ t, exec (.mbxGo m abort ack irq ring) s = .next t ∧ (mbxOf t m).phase = (mbxOf s m).phase
        ∧ (mbxOf t m).goIgnored = true ∧ (mbxOf t m).cmd = (mbxOf s m).cmd ∧ (mbxOf t m).seq = (mbxOf s m).seq)
    ∧ (∀ ack irq, (mbxOf s m).phase = .submitted →
      ∃ t, exec (.mbxAbort m ack irq ring) s = .next t ∧ (mbxOf t m).phase = .done
        ∧ (mbxOf t m).resp.status = .aborted ∧ (mbxOf t m).resp.tag = (mbxOf s m).cmd.tag)
    ∧ (∀ irq, (mbxOf s m).phase = .done →
      ∃ t, exec (.mbxAck m irq ring) s = .next t ∧ (mbxOf t m).phase = .idle ∧ (mbxOf t m).resp = (mbxOf s m).resp)

/-- A read that meets a control structure readable in one of its two copies (R466). -/
abbrev Readable (s : State) (errs : List (CtlMem × Nat)) (x : CtlMem × Nat) : Prop :=
  ∃ c < 2, errs.contains (x.1, c) = false ∧ s.hlt.badCopies.contains (x.1, x.2, c) = false

/-- R27, R29: the firmware takes the command of a SUBMITTED mailbox that nothing precedes, one copy of it being readable. -/
def CommandTaken : Prop :=
  ∀ (s : State) (m : Nat) (errs : List (CtlMem × Nat)), m < 80 → (mbxOf s m).phase = .submitted → (mbxOf s m).taken = none →
    earlierWaits m s = false → (opcodeRow (mbxOf s m).cmd.opcode).isSome = true → Readable s errs (.imilo, m) →
    ∃ t, exec (.commandTaken m errs) s = .next t ∧ (mbxOf t m).phase = .running ∧ (mbxOf t m).taken = some (mbxOf s m).cmd

/-- R31: a command not DONE 50 ms after go is completed by the mailbox hardware, once 98 304 000 ticks have passed. -/
def MailboxTimeout : Prop :=
  ∀ (s : State) (m : Nat), m < 80 → ((mbxOf s m).phase = .submitted ∨ (mbxOf s m).phase = .running) →
    ((mbxOf s m).goTick + 98304000 ≤ s.tmb.free →
      ∃ t, exec (.mbxTimeout m) s = .next t ∧ (mbxOf t m).phase = .done ∧ (mbxOf t m).fwTimeout = true
        ∧ (mbxOf t m).resp.status = .mbxTimeout ∧ (mbxOf t m).resp.payload = [])
    ∧ (s.tmb.free < (mbxOf s m).goTick + 98304000 → exec (.mbxTimeout m) s = .next s)

/-- R21, R24: a register write acts by its window and offset; one of another size or alignment is ignored. -/
def RegisterWrites : Prop :=
  (∀ (s : State) (o v : Nat), v < 2 ^ 16 → exec (.registerWrite .pfBar0 o 2 v) s = .next s)
  ∧ (∀ (s : State) (m v : Nat), m < 16 → v < 2 ^ 32 →
      exec (.registerWrite .pfBar0 (0x100000 + 0x1000 * m) 4 v) s
        = .next (ctrlWrite m (v.testBit 0) (v.testBit 1) (v.testBit 2) (v.testBit 3) (v / 16 % 16) s))
  ∧ (∀ (s : State) (m o v : Nat), m < 16 → v < 2 ^ 32 → o % 4 = 0 → 0x80 ≤ o → o < 0x840 →
      ∃ t, exec (.registerWrite .pfBar0 (0x100000 + 0x1000 * m + o) 4 v) s = .next t
        ∧ (mbxOf t m).area = memWriteBytes (mbxOf s m).area (o - 0x80) (leBytes 4 v)
        ∧ (mbxOf t m).phase = (mbxOf s m).phase ∧ (mbxOf t m).cmd = (mbxOf s m).cmd)

/-- R19, R21, R22, R26, R43: what the host reads. A read of another size or alignment returns zero, and so does every read of an
absent partition's VF; DEV_STATUS, the response header, a doorbell and the high half that a read of the low half has latched. -/
def HostReads : Prop :=
  (∀ (s : State) (w : RegWindow) (o n : Nat), (n ≠ 4 ∧ n ≠ 8) ∨ (n = 4 ∧ o % 4 ≠ 0) ∨ (n = 8 ∧ o % 8 ≠ 0) → hostRead w o n s = 0)
  ∧ (∀ (s : State) (p o n : Nat), (partOf s p).state = .absent → hostRead (.vfBar0 p) o n s = 0)
  ∧ (∀ s : State, s.dev.lanes < 32 → hostRead .pfBar0 0x24 4 s
      = (if s.dev.dawnDone then 1 else 0) + (if s.dev.twilight then 2 else 0)
        + (if s.dev.lanes ≠ 0 ∧ (s.dev.lanes < 16 ∨ s.dev.rate < 64) then 4 else 0) + s.dev.lanes * 8 + s.dev.rate * 256)
  ∧ (∀ (s : State) (m : Nat), m < 16 → (mbxOf s m).resp.opcode < 65536 →
      hostRead .pfBar0 (0x100000 + 0x1000 * m + 0x840) 4 s = statusCode (mbxOf s m).resp.status + (mbxOf s m).resp.opcode * 65536)
  ∧ (∀ (s : State) (n : Nat) (r : Ring), ringOf s n = some r → hostRead .pfBar2 (0x1000 * n) 4 s = r.hostIdx)
  ∧ (∀ (s : State) (o : Nat), o % 8 = 0 → o < 0x100000 → ∃ t, exec (.lowHalfRead o) s = .next t
      ∧ hostRead .pfBar0 (0x200000 + o + 4) 4 t = timeReg s o / 2 ^ 32 % 2 ^ 32)

/-- R34: NOP, EVENT_RING_CONFIG and QUERY_OPERATION. -/
def DeviceCommands : Prop :=
  (∀ (s : State) (m : Nat) (c : Cmd), Due s m 0x0100 c → ∃ t, exec (.nop m) s = .next t ∧ Answered t m c .success []
      ∧ t.parts = s.parts ∧ t.tmb = s.tmb ∧ t.mem = s.mem)
  ∧ (∀ (s : State) (m : Nat) (c : Cmd), Due s m 0x0101 c → field c.payload 0 1 ≤ 15 → field c.payload 1 1 ≤ 1 →
      field c.payload 2 2 % 2 = 0 → field c.payload 2 2 < 512 → (mbxOf s m).irqEn = false →
      ∃ t, exec (.eventRingConfig m) s = .next t ∧ Answered t m c .success []
        ∧ (evRing t (field c.payload 0 1)).enable = decide (field c.payload 1 1 = 1)
        ∧ (evRing t (field c.payload 0 1)).mask = field c.payload 2 2
        ∧ (evRing t (field c.payload 0 1)).prod = (evRing s (field c.payload 0 1)).prod)
  ∧ (∀ (s : State) (m : Nat) (c : Cmd) (o : LongOp), Due s m 0x0103 c → opOf s (field c.payload 0 2) = some o →
      opVisible m o = true → field c.payload 2 1 ≤ 1 → o.result.length ≤ 1964 →
      ∃ t, exec (.queryOperation m) s = .next t
        ∧ Answered t m c .success (if o.finished then leBytes 2 1 ++ leBytes 2 (statusCode o.status) ++ o.result
            else leBytes 2 0 ++ leBytes 2 1)
        ∧ opOf t (field c.payload 0 2) = if o.finished ∧ field c.payload 2 1 = 1 then none else some o)

/-- R35: CANCEL ends a CTX_CREATE, whose index stays ABSENT, and answers NOT_PERMITTED for a finished operation. -/
def Cancel : Prop :=
  ∀ (s : State) (m : Nat) (c : Cmd) (o : LongOp), Due s m 0x0102 c → opOf s (field c.payload 0 2) = some o →
    opVisible m o = true →
    (o.finished = false → o.opcode = 0x0500 →
      ∃ t, exec (.cancel m) s = .next t ∧ Answered t m c .success [] ∧ Ended t (field c.payload 0 2) .cancelled []
        ∧ tabFind? t.srv.creating (field c.payload 0 2) = none ∧ t.srv.ctxs = s.srv.ctxs)
    ∧ (o.finished = true →
      ∃ t, exec (.cancel m) s = .next t ∧ Answered t m c .notPermitted [] ∧ t.ops = s.ops)

/-- R40, R41, R34: RING_CREATE of a manager ring, and RING_DESTROY of a ring of the target. -/
def RingCommands : Prop :=
  (∀ (s : State) (m : Nat) (c : Cmd), Due s m 0x0104 c → m < 16 → c.target = 0xFF → field c.payload 0 8 % 64 = 0 →
      4 ≤ field c.payload 8 1 → field c.payload 8 1 ≤ 16 → field c.payload 9 1 ≤ 1 → field c.payload 10 1 = 4 →
      (field c.payload 11 1 = 255 ∨ field c.payload 11 1 ≤ 15) →
      inManager s (field c.payload 0 8) ((2 ^ field c.payload 8 1 + 1) * 64) = true →
      (∃ n < 4096, tabHas s.rings n = false) →
      ∃ n t, exec (.ringCreate m) s = .next t ∧ n < 4096 ∧ ringOf s n = none
        ∧ Answered t m c .success (leBytes 2 n ++ leBytes 1 255)
        ∧ ∃ r, ringOf t n = some r ∧ r.base = field c.payload 0 8 ∧ r.log2 = field c.payload 8 1
          ∧ r.toHost = decide (field c.payload 9 1 = 1) ∧ r.cls = 4 ∧ r.part = 255 ∧ r.hostIdx = 0 ∧ r.devIdx = 0)
  ∧ (∀ (s : State) (m : Nat) (c : Cmd) (r : Ring), Due s m 0x0105 c → ringOf s (field c.payload 0 2) = some r →
      r.part = targetOf m c →
      ∃ t, exec (.ringDestroy m) s = .next t ∧ Answered t m c .success [] ∧ ringOf t (field c.payload 0 2) = none)

/-- R46 to R48: a snapshot mirrors the live counters; a waiting TELEMETRY_CLEAR zeroes them at it and then completes. -/
def Telemetry : Prop :=
  (∀ s : State, s.tel.clearPending = [] →
      ∃ t, exec .telemetrySnapshot s = .next t ∧ t.tel.tick = s.tmb.free ∧ t.tel.lend = s.tel.liveLend
        ∧ t.tel.stray = s.tel.liveStray ∧ t.tel.clearTick = s.tel.clearTick ∧ t.tel.gen = (s.tel.gen + 2) % 2 ^ 64)
  ∧ (∀ (s : State) (m : Nat) (c : Cmd), Due s m 0x0106 c → s.tel.clearPending = [] →
      ∃ t u, exec (.telemetryClear m) s = .next t ∧ exec .telemetrySnapshot t = .next u
        ∧ Answered u m c .success [] ∧ u.tel.lend = [] ∧ u.tel.liveLend = [] ∧ u.tel.clearTick = s.tmb.free)

/-- R39: a write of cons is accepted only if it does not pass prod; else bad_cons is set. -/
def EventConsumer : Prop :=
  ∀ (s : State) (n v : Nat), n < 16 → v < 2 ^ 32 →
    (idxSub (evRing s n).prod v ≤ idxSub (evRing s n).prod (evRing s n).cons →
      ∃ t, exec (.eventRingConsWrite n v) s = .next t ∧ (evRing t n).cons = v ∧ (evRing t n).prod = (evRing s n).prod)
    ∧ (idxSub (evRing s n).prod (evRing s n).cons < idxSub (evRing s n).prod v →
      ∃ t, exec (.eventRingConsWrite n v) s = .next t ∧ evRing t n = { evRing s n with badCons := true })

/-- R43, R44: the doorbell of a device-to-host ring, accepted within its window and a ring fault outside it; one with no
ring behind it is counted. -/
def Doorbells : Prop :=
  (∀ (s : State) (n v : Nat) (r : Ring), n < 4096 → v < 2 ^ 32 → ringOf s n = some r → r.toHost = true → r.faulted = false →
      v ≠ r.hostIdx →
      (idxSub v r.hostIdx ≤ idxSub r.devIdx r.hostIdx →
        ∃ t r', exec (.doorbellWrite (.pf n) v) s = .next t ∧ ringOf t n = some r' ∧ r'.hostIdx = v ∧ r'.faulted = false)
      ∧ (idxSub r.devIdx r.hostIdx < idxSub v r.hostIdx →
        ∃ t r', exec (.doorbellWrite (.pf n) v) s = .next t ∧ ringOf t n = some r' ∧ r'.hostIdx = r.hostIdx
          ∧ r'.faulted = true))
  ∧ (∀ (s : State) (n v : Nat), n < 4096 → v < 2 ^ 32 → ringOf s n = none →
      ∃ t, exec (.doorbellWrite (.pf n) v) s = .next t ∧ t.tel.liveStray = ctrInc s.tel.liveStray ∧ t.rings = s.rings)

/-- R34, R38, R39: an event goes to the lowest enabled ring whose mask has its class: the entry, then prod, then the vector; a
full ring drops it and counts; with no ring it is counted on ring 0. -/
def EventPosting : Prop :=
  (∀ (s : State) (e : Event) (n : Nat), routeClass s (e.code / 256) = some n →
    n < 16 ∧ (evRing s n).enable = true ∧ bit (evRing s n).mask (e.code / 256) = true
    ∧ (∀ k < n, ¬ ((evRing s k).enable = true ∧ bit (evRing s k).mask (e.code / 256) = true))
    ∧ (evOcc (evRing s n) ≠ 512 →
      tabFind? (evRing (post e s) n).entries ((evRing s n).prod % 512)
        = some { e with tick := s.tmb.free, seq := (evRing s n).prod, detail := e.detail.take 36 }
      ∧ (evRing (post e s) n).prod = ((evRing s n).prod + 1) % 4294967296 ∧ (post e s).out = s.out ++ [.vectorPf n])
    ∧ (evOcc (evRing s n) = 512 →
      evRing (post e s) n = { evRing s n with overflow := true, drops := ctrInc (evRing s n).drops } ∧ (post e s).out = s.out)
    ∧ (∀ k, k ≠ n → evRing (post e s) k = evRing s k))
  ∧ (∀ (s : State) (e : Event), routeClass s (e.code / 256) = none →
    evRing (post e s) 0 = { evRing s 0 with drops := ctrInc (evRing s 0).drops } ∧ (post e s).out = s.out)

/-! ### Chapter 02: air clock and timebase -/

/-- An input that the servo accepts (R55), none of the three conditions holding. -/
abbrev ServoAccepts (s : State) (e : Int) (m : Nat) : Prop :=
  s.tmb.source ≠ .none ∧ (∀ l, s.tmb.lastM = some l → l < m) ∧ s.tmb.free ≤ m + 245760000 ∧ e.natAbs < 2 ^ 47

/-- The state is one in which the input is made a step if it stands in ACQUIRE (R58). -/
abbrev MaySlew (s : State) (e : Int) : Prop :=
  e.natAbs ≤ 1966080 * 65536 ∨ anyTableRuns s = true ∨ anyNoonPending s = true

/-- The parameters of corrected time at the tick of an update, the old ones folded into the offset (R52). -/
abbrev Folded (s t : State) : Prop :=
  t.tmb.ofsInt = wrap64 (s.tmb.ofsInt + rateTerm s.tmb s.tmb.free / 2 ^ 40)
    ∧ (t.tmb.ofsFrac : Int) = rateTerm s.tmb s.tmb.free % 2 ^ 40 ∧ t.tmb.anchor = s.tmb.free
    ∧ corrNow t = corrNow s ∧ t.tmb.free = s.tmb.free

/-- R57: silence ends LOCKED, and the limit ends HOLDOVER, each with its rate. -/
def HoldoverByTime : Prop :=
  (∀ s : State, s.tmb.state = .locked → s.tmb.lastArr + s.tmb.act.holdoverStart * 1966080 ≤ s.tmb.free →
    ∃ t, exec .holdoverStart s = .next t ∧ t.tmb.state = .holdover
      ∧ t.tmb.rate = max (-(s.tmb.act.rateLimit : Int)) (min s.tmb.act.rateLimit (-s.tmb.integ)))
  ∧ (∀ s : State, s.tmb.state = .holdover → s.tmb.act.holdoverLimit ≠ 0 →
    s.tmb.holdEntry + s.tmb.act.holdoverLimit * 1966080000 ≤ s.tmb.free →
    ∃ t, exec .holdoverLimit s = .next t ∧ t.tmb.state = .freerun ∧ t.tmb.rate = s.tmb.rate)

/-- R63, R64: PPS edges in and out. -/
def PpsEdges : Prop :=
  (∀ s : State, ∃ t, exec .ppsInEdge s = .next t ∧ t.pps.inFree = s.tmb.free ∧ t.pps.inCorr = corrNow s)
  ∧ (∀ s : State, s.tmb.source = .ppsIn → s.pps.lastEdge + 2162688000 + s.pps.missedSince * 1966080000 ≤ s.tmb.free →
      ∃ t, exec .ppsMissed s = .next t ∧ t.pps.missed = ctrInc s.pps.missed
        ∧ t.pps.missedSince = s.pps.missedSince + 1 ∧ t.tmb = s.tmb)
  ∧ (∀ (s : State) (n : Nat), s.pps.outEn = true → s.pps.outDone = some n →
      ((n + 1) * 1966080000 : Int) + s.pps.outDelay ≤ corrNow s →
      ∃ t, exec .ppsOutRise s = .next t ∧ t.pps.outHigh = true ∧ t.pps.outRise = s.tmb.free
        ∧ t.out = s.out ++ [.ppsOut true])
  ∧ (∀ s : State, s.pps.outHigh = true → s.pps.outRise + s.pps.widthMs * 1966080 ≤ s.tmb.free →
      ∃ t, exec .ppsOutFall s = .next t ∧ t.pps.outHigh = false ∧ t.out = s.out ++ [.ppsOut false])

/-- R66, R78: a read of free, of a low half, and TIME_READ. -/
def TimeReads : Prop :=
  (∀ (s : State) (low : Bool), ∃ t, exec (.freeRead low) s = .next t ∧ t.win.snapFree = s.tmb.free
      ∧ t.win.snapCorr = corrNow s ∧ t.win.snapNr = nrWord (nrTime s.win (corrNow s))
      ∧ (low = true → tabGet t.win.highs 0 0 = s.tmb.free / 2 ^ 32 % 2 ^ 32))
  ∧ (∀ (s : State) (o : Nat), o % 8 = 0 → o ≠ 0 → o < 0x100000 → ∃ t, exec (.lowHalfRead o) s = .next t
      ∧ tabGet t.win.highs o 0 = timeReg s o / 2 ^ 32 % 2 ^ 32 ∧ t.tmb = s.tmb)
  ∧ (∀ (s : State) (m : Nat) (c : Cmd), Due s m 0x0300 c → ∃ t, exec (.timeRead m) s = .next t
      ∧ Answered t m c .success (leBytes 8 s.tmb.free ++ leBytes 8 (corrNow s)
          ++ leBytes 8 (nrWord (nrTime s.win (corrNow s))) ++ leBytes 1 (servoCode s.tmb.state)))

/-- R78, R79: the commands that set the clock's fields. -/
def TimeSettings : Prop :=
  (∀ (s : State) (m : Nat) (c : Cmd), Due s m 0x0301 c → field c.payload 8 4 ≠ 0 → field c.payload 8 4 ≤ 2 ^ 31 - 1 →
      field c.payload 14 1 ≠ 0 → field c.payload 0 4 ≠ 0 → field c.payload 12 2 ≤ field c.payload 16 4 →
      ∃ t, exec (.timeServoConfig m) s = .next t ∧ Answered t m c .success [] ∧ t.tmb.lockRun = 0
        ∧ t.tmb.cfg.kp = field c.payload 0 4 ∧ t.tmb.cfg.ki = field c.payload 4 4
        ∧ t.tmb.cfg.rateLimit = field c.payload 8 4 ∧ t.tmb.cfg.lockThresh = field c.payload 12 2
        ∧ t.tmb.cfg.lockCount = field c.payload 14 1 ∧ t.tmb.cfg.unlockThresh = field c.payload 16 4
        ∧ t.tmb.cfg.holdoverStart = field c.payload 20 2 ∧ t.tmb.cfg.holdoverLimit = field c.payload 22 2
        ∧ t.tmb.act = s.tmb.act)
  ∧ (∀ (s : State) (m : Nat) (c : Cmd), Due s m 0x0302 c → field c.payload 0 1 = 2 →
      ∃ t, exec (.timeSource m) s = .next t ∧ Answered t m c .success [] ∧ t.tmb.source = .ppsIn ∧ t.tmb.integ = 0
        ∧ t.tmb.lockRun = 0 ∧ t.tmb.rate = s.tmb.rate ∧ t.tmb.state = .freerun ∧ t.pps.ports = [])
  ∧ (∀ (s : State) (m : Nat) (c : Cmd), Due s m 0x0303 c → anyTableRuns s = false → anyNoonPending s = false →
      ∃ t, exec (.timeStep m) s = .next t ∧ Answered t m c .success []
        ∧ (corrNow t : Int) = (corrNow s + fieldInt c.payload 0 8) % 2 ^ 64 ∧ t.tmb.free = s.tmb.free)
  ∧ (∀ (s : State) (m : Nat) (c : Cmd), Due s m 0x0304 c → anyTableRuns s = false → field c.payload 0 4 ≤ 19660799 →
      field c.payload 4 1 ≤ 3 → field c.payload 5 1 = 0 →
      ∃ t, exec (.frameConfig m) s = .next t ∧ Answered t m c .success [] ∧ t.win.frameOfs = field c.payload 0 4
        ∧ t.win.reportMu = field c.payload 4 1 ∧ t.win.ecp = false)
  ∧ (∀ (s : State) (m : Nat) (c : Cmd), Due s m 0x0307 c → field c.payload 0 1 ≤ 1 → field c.payload 1 1 ≠ 0 →
      field c.payload 1 1 ≤ 200 → (fieldInt c.payload 4 4).natAbs ≤ 1966080 →
      ∃ t, exec (.ppsConfig m) s = .next t ∧ Answered t m c .success [] ∧ t.pps.outEn = decide (field c.payload 0 1 = 1)
        ∧ t.pps.widthMs = field c.payload 1 1 ∧ t.pps.outDelay = fieldInt c.payload 4 4)

/-- R79: TIME_STEP, FRAME_CONFIG and TIME_SERVO_CONFIG refuse, and a refused command changes nothing of the timebase. -/
def TimeRefusals : Prop :=
  (∀ (s : State) (m : Nat) (c : Cmd), Due s m 0x0303 c → (anyTableRuns s = true ∨ anyNoonPending s = true) →
      ∃ t, exec (.timeStep m) s = .next t ∧ Answered t m c .notPermitted [] ∧ t.tmb = s.tmb)
  ∧ (∀ (s : State) (m : Nat) (c : Cmd), Due s m 0x0304 c → anyTableRuns s = true →
      ∃ t, exec (.frameConfig m) s = .next t ∧ Answered t m c .notPermitted [] ∧ t.win = s.win)
  ∧ (∀ (s : State) (m : Nat) (c : Cmd), Due s m 0x0301 c → field c.payload 8 4 = 0 →
      ∃ t, exec (.timeServoConfig m) s = .next t ∧ Answered t m c .zeroNotAllowed [] ∧ t.tmb = s.tmb)

/-- A message that the firmware accepts on a MAC (R60, R72). -/
abbrev PtpAccepts (s : State) (mac : Nat) (msg : PtpMsg) : Prop :=
  mac < 32 ∧ ptpRuns s mac = true ∧ msg.domain = s.pps.domain ∧ seqFresh (ptpPort s mac) (bodyKind msg.body) msg.seqId = true

/-- Room in the queue of PTP and ESMC, and a packet that has joined it behind the earlier ones. -/
abbrev Q2Room (s : State) (mac : Nat) : Prop :=
  (queueOf (macOf s mac) 2).pkts.length < (queueOf (macOf s mac) 2).depth
abbrev Q2Joined (s t : State) (mac : Nat) (p : TxPkt) : Prop :=
  (queueOf (macOf t mac) 2).pkts = insertPkt p (queueOf (macOf s mac) 2).pkts

/-- R60 to R62: PTP and ESMC messages. An Announce settles the roles, of which at most one is slave; a one-step Sync on the slave
port makes a servo input of the measured offset; a Delay_Resp settles the delay; a Delay_Req on a master port is answered. -/
def PtpAndEsmc : Prop :=
  (∀ (s : State) (mac : Nat) (msg : PtpMsg) (d : PtpSet), PtpAccepts s mac msg → msg.body = .announce d →
      ∃ t, exec (.ptpFrame mac msg) s = .next t ∧ (ptpPort t mac).best = some (d, msg.source) ∧ t.tmb = s.tmb
        ∧ tabFind? (ptpPort t mac).lastSeq 11 = some msg.seqId
        ∧ ∀ p ∈ t.pps.ports, p.2.slave = decide (bestPort t.pps.ports = some p.1))
  ∧ (∀ (s : State) (mac : Nat) (msg : PtpMsg) (t1 sm : Int), PtpAccepts s mac msg → msg.body = .sync false t1 →
      (ptpPort s mac).slave = true → (ptpPort s mac).delay = some sm →
      ∃ u, u.tmb = s.tmb ∧ exec (.ptpFrame mac msg) s
        = .next (servoInput (((((ptpNs16 (rxStamp s mac msg.cap16).1 (rxStamp s mac msg.cap16).2.1 - t1 - msg.corr) - sm) / 2
            - (macOf s mac).asym) * 6144 + 1562) / 3125) (rxStamp s mac msg.cap16).2.2 u))
  ∧ (∀ (s : State) (mac q : Nat) (msg : PtpMsg) (t3 t4 : Int), PtpAccepts s mac msg → msg.body = .delayResp t4 →
      (ptpPort s mac).slave = true → (ptpPort s mac).req = some (q, t3) → msg.seqId = q →
      ∃ t, exec (.ptpFrame mac msg) s = .next t ∧ (ptpPort t mac).delay = some (t4 - t3 - msg.corr) ∧ t.tmb = s.tmb)
  ∧ (∀ (s : State) (mac : Nat) (msg : PtpMsg), PtpAccepts s mac msg → msg.body = .delayReq → (ptpPort s mac).slave = false →
      Q2Room s mac → ∃ t p, exec (.ptpFrame mac msg) s = .next t ∧ Q2Joined s t mac p ∧ p.ptp = some (.delayResp, msg.seqId)
        ∧ t.tmb = s.tmb)
  ∧ (∀ (s : State) (mac : Nat) (msg : PtpMsg), mac < 32 → s.tmb.source ≠ .ptp ∨ msg.domain ≠ s.pps.domain →
      exec (.ptpFrame mac msg) s = .next s)
  ∧ (∀ (s : State) (mac : Nat) (k : PtpKind), mac < 32 → ptpRuns s mac = true → k ≠ .delayResp → k ≠ .followUp →
      (ptpPort s mac).slave = (k == .delayReq) → Q2Room s mac →
      ∃ t p, exec (.ptpTransmit mac k) s = .next t ∧ Q2Joined s t mac p
        ∧ p.ptp = some (k, tabGet (ptpPort s mac).txSeq (ptpType k) 0))
  ∧ (∀ (s : State) (mac q ns : Nat), mac < 32 → ptpRuns s mac = true → (ptpPort s mac).slave = false →
      (ptpPort s mac).stamp = some (q, ns) → Q2Room s mac →
      ∃ t p, exec (.ptpTransmit mac .followUp) s = .next t ∧ Q2Joined s t mac p ∧ p.ptp = some (.followUp, q)
        ∧ (ptpPort t mac).stamp = none)
  ∧ (∀ (s : State) (mac ql : Nat), mac < 32 → ql < 16 →
      (∃ t, exec (.esmcReceive mac ql) s = .next t ∧ tabGet t.pps.esmc mac 0 = ql ∧ t.tmb = s.tmb
        ∧ t.out = s.out ++ [.quality mac ql]))
  ∧ (∀ (s : State) (mac ql : Nat), mac < 32 → ql < 16 → Q2Room s mac →
      (∃ t p, exec (.esmcTransmit mac ql) s = .next t ∧ Q2Joined s t mac p ∧ p.bytes = esmcEth (macOf s mac).address ql))

/-- R73 to R75, R78: a Noon arming that passes every check is pending, can be disarmed before its tick, and fires once its
tick is reached. -/
def NoonLife : Prop :=
  (∀ (s : State) (m : Nat) (c : Cmd), Due s m 0x0305 c → (s.tmb.state = .locked ∨ s.tmb.state = .holdover) →
      field c.payload 8 1 = 0 → corrNow s + 19661 ≤ field c.payload 0 8 → field c.payload 0 8 ≤ corrNow s + 117964800000 →
      pendingArm s (targetOf m c) (field c.payload 10 2) = none → (∃ k < 16, (noonOf s k).state ≠ .pending) →
      ∃ k t, exec (.noonArm m) s = .next t ∧ k < 16 ∧ (noonOf s k).state ≠ .pending ∧ Answered t m c .success (leBytes 1 k)
        ∧ (noonOf t k).state = .pending ∧ (noonOf t k).tick = field c.payload 0 8
        ∧ (noonOf t k).id = field c.payload 10 2 ∧ (noonOf t k).part = targetOf m c ∧ (noonOf t k).action = 0)
  ∧ (∀ (s : State) (m k : Nat) (c : Cmd), Due s m 0x0306 c → pendingArm s (targetOf m c) (field c.payload 0 2) = some k →
      corrNow s < (noonOf s k).tick →
      ∃ t, exec (.noonDisarm m) s = .next t ∧ Answered t m c .success [] ∧ (noonOf t k).state = .free)
  ∧ (∀ (s : State) (k : Nat), k < 16 → (noonOf s k).state = .pending → (noonOf s k).action = 0 →
      (noonOf s k).tick ≤ corrNow s →
      ∃ t, exec (.noonFired k) s = .next t ∧ (noonOf t k).state = .free ∧ t.tmb = s.tmb ∧ t.tts = s.tts)
  ∧ (∀ (s : State) (m : Nat) (c : Cmd), Due s m 0x0308 c → ∃ t, exec (.noonList m) s = .next t
      ∧ Answered t m c .success ((List.range 16).flatMap (fun k =>
          leBytes 8 (noonOf s k).tick ++ leBytes 8 (noonWord (noonOf s k)) ++ List.replicate 8 0)))

/-- R73: the first refusals, in their order: NOT_LOCKED, LATE, TIME_RANGE; nothing is armed. -/
def NoonRefusals : Prop :=
  ∀ (s : State) (m : Nat) (c : Cmd), Due s m 0x0305 c →
    ¬(16 ≤ m ∧ (field c.payload 8 1 = 1 ∨ field c.payload 8 1 = 2)) →
    ((s.tmb.state = .freerun ∨ s.tmb.state = .acquire) →
      ∃ t, exec (.noonArm m) s = .next t ∧ Answered t m c .notLocked [] ∧ t.noon = s.noon)
    ∧ (s.tmb.state ≠ .freerun → s.tmb.state ≠ .acquire → field c.payload 0 8 < corrNow s + 19661 →
      ∃ t, exec (.noonArm m) s = .next t ∧ Answered t m c .late [] ∧ t.noon = s.noon)
    ∧ (s.tmb.state ≠ .freerun → s.tmb.state ≠ .acquire → corrNow s + 117964800000 < field c.payload 0 8 →
      ∃ t, exec (.noonArm m) s = .next t ∧ Answered t m c .timeRange [] ∧ t.noon = s.noon)

/-! ### Chapter 03: the compute grid -/

/-- A unit that works for an owner none of whose shares the accesses leave, and whose reads meet no bad word (R99, R465). -/
abbrev AccessFine (s : State) (u : Nat) (ranges : List (Place × Bool × Nat × Nat)) : Prop :=
  working s u = true
  ∧ (∀ r ∈ ranges, r.2.2.2 ≠ 0 → placeOk s (unitRun s u).owner r.2.1 r.1 r.2.2.1 r.2.2.2 = true)
  ∧ (∀ r ∈ ranges, r.2.1 = false → meetsBad s (placeAt r.1 r.2.2.1) r.2.2.2 = false)

/-- The bytes a matrix descriptor reads and writes, as its quadrant's accesses. -/
def matRanges (d : MatDesc) : List (Place × Bool × Nat × Nat) :=
  (matReads d).map (fun r => (Place.array (d.quad / 4), false, r.1, r.2))
    ++ [(Place.array (d.quad / 4), true, (matWrite d).1, (matWrite d).2)]

/-- R86, R90, R110: a matrix descriptor of one repetition writes the elements of its product row by row from the result
address and nothing else of memory; with M, K, N or the repeat count 0, or for a slot of length 0, it writes nothing. R198: of a
single pass that a stop ends, the complete groups of 256 rows are written and no byte behind them. -/
def MatrixDescriptor : Prop :=
  (∀ (s : State) (d : MatDesc), matOk d = true → d.quad < gradeQuads s.grade → AccessFine s d.quad (matRanges d) →
    (unitRun s d.quad).side.hush = false → d.rep = 1 → d.m ≠ 0 → d.k ≠ 0 → d.n ≠ 0 →
    ∃ t, exec (.mma d none) s = .next t
      ∧ (∀ i j, i < d.m → j < d.n →
          memReadBytes t.mem (arrayAt (d.quad / 4) (d.rAddr + (i * d.n + j) * (matElem s d i j).1.length))
            (matElem s d i j).1.length = (matElem s d i j).1)
      ∧ (∀ a, (a < arrayAt (d.quad / 4) (matWrite d).1 ∨ arrayAt (d.quad / 4) ((matWrite d).1 + (matWrite d).2) ≤ a) →
          memRead t.mem a = memRead s.mem a)
      ∧ t.tiles = s.tiles ∧ t.fab = s.fab ∧ t.srv = s.srv ∧ t.tts = s.tts ∧ t.grd.sb = s.grd.sb
      ∧ (unitRun t d.quad).position = (unitRun s d.quad).position + 1)
  ∧ (∀ (s : State) (d : MatDesc), matOk d = true → d.quad < gradeQuads s.grade → working s d.quad = true →
    (d.m = 0 ∨ d.k = 0 ∨ d.n = 0 ∨ d.rep = 0) →
    ∃ t, exec (.mma d none) s = .next t ∧ t.mem = s.mem ∧ t.grd.arith = s.grd.arith
      ∧ (unitRun t d.quad).position = (unitRun s d.quad).position + 1)
  ∧ (∀ (s : State) (d : MatDesc), matOk d = true → d.quad < gradeQuads s.grade → AccessFine s d.quad (matRanges d) →
    (unitRun s d.quad).side.hush = true →
    ∃ t, exec (.mma d none) s = .next t ∧ t.mem = s.mem ∧ t.grd.arith = s.grd.arith)
  ∧ (∀ (s : State) (d : MatDesc) (k : Nat), matOk d = true → d.quad < gradeQuads s.grade → AccessFine s d.quad (matRanges d) →
    (unitRun s d.quad).side.hush = false → d.rep = 1 → matPasses d = 1 → d.m ≠ 0 → 256 * k ≤ d.m →
    ∃ t, exec (.mma d (some k)) s = .next t ∧ (unitRun t d.quad).stopped = true
      ∧ (∀ i j, i < 256 * k → j < d.n →
          memReadBytes t.mem (arrayAt (d.quad / 4) (d.rAddr + (i * d.n + j) * (matElem s d i j).1.length))
            (matElem s d i j).1.length = (matElem s d i j).1)
      ∧ (∀ a, (a < arrayAt (d.quad / 4) (matWrite d).1
            ∨ arrayAt (d.quad / 4) ((matWrite d).1 + 256 * k * d.n * (if opClass d.fa = 3 then 8 else 4)) ≤ a) →
          memRead t.mem a = memRead s.mem a))

/-- R99: an access outside the share of a radio owner does not take place, stops the unit's program and writes a record that
names the owner, the unit, the address and the position. -/
def ShareCheck : Prop :=
  ∀ (s : State) (d : CopyDesc), copyOk d = true → unitExists s.grade d.mover = true → placeExists s.grade d.src = true →
    placeExists s.grade d.dst = true → working s d.mover = true → d.len ≠ 0 →
    256 ≤ (unitRun s d.mover).owner → placeOk s (unitRun s d.mover).owner false d.src d.sAddr d.len = false →
    ∃ t, exec (.moverCopy d none) s = .next t ∧ t.mem = s.mem ∧ t.grd.sb = s.grd.sb ∧ working t d.mover = false
      ∧ t.hlt.log.prod = (s.hlt.log.prod + 1) % 2 ^ 32
      ∧ ∃ r, tabFind? t.hlt.log.recs (s.hlt.log.prod % 4096) = some r ∧ r.code = 1 ∧ r.status = some .notPermitted
        ∧ r.unit = d.mover ∧ r.owner = (unitRun s d.mover).owner ∧ r.addr = d.sAddr
        ∧ r.position = unitPosition s d.mover

/-- R94, R110, R140: a copy that its owner's shares hold moves its bytes, performs the post it carries, and changes no other byte; of
a slot of length 0 nothing is stored; SCATTER_ADD leaves the rounded sums. R111, R198: a stop leaves whole pieces of 64 bytes, and
no post. -/
def MoverCopy : Prop :=
  ∀ (s : State) (d : CopyDesc) (k : Nat), copyOk d = true → placeExists s.grade d.src = true →
    placeExists s.grade d.dst = true → 64 * k ≤ d.len →
    AccessFine s d.mover [(d.src, false, d.sAddr, d.len), (d.dst, false, d.dAddr, if d.add then d.len else 0),
      (d.dst, true, d.dAddr, d.len)] →
    (∃ t, exec (.moverCopy d none) s = .next t
      ∧ ((unitRun s d.mover).side.hush = false →
          (d.add = false →
            memReadBytes t.mem (placeAt d.dst d.dAddr) d.len = memReadBytes s.mem (placeAt d.src d.sAddr) d.len)
          ∧ (d.add = true → ∀ i < d.len / 4, leNat (memReadBytes t.mem (placeAt d.dst d.dAddr + 4 * i) 4)
              = (fpAdd {} .f32 (leNat (memReadBytes s.mem (placeAt d.dst d.dAddr + 4 * i) 4))
                  (leNat (memReadBytes s.mem (placeAt d.src d.sAddr + 4 * i) 4))).1)
          ∧ ∀ a, (a < placeAt d.dst d.dAddr ∨ placeAt d.dst d.dAddr + d.len ≤ a) → memRead t.mem a = memRead s.mem a)
      ∧ ((unitRun s d.mover).side.hush = true → t.mem = s.mem)
      ∧ (∀ u e n, d.post = some (u, e, n) → (sbOf s u e).valid = true → (sbOf s u e).producer = d.mover →
          sbOcc (sbOf s u e) < (sbOf s u e).slots →
          (sbOf t u e).produced = ((sbOf s u e).produced + 1) % 65536
          ∧ tabGet (sbOf t u e).lens ((sbOf s u e).produced % (sbOf s u e).slots) 0 = n)
      ∧ (d.post = none → t.grd.sb = s.grd.sb))
    ∧ (d.add = false → (unitRun s d.mover).side.hush = false →
      ∃ t, exec (.moverCopy d (some k)) s = .next t ∧ (unitRun t d.mover).stopped = true ∧ t.grd.sb = s.grd.sb
        ∧ memReadBytes t.mem (placeAt d.dst d.dAddr) (64 * k) = memReadBytes s.mem (placeAt d.src d.sAddr) (64 * k)
        ∧ ∀ a, (a < placeAt d.dst d.dAddr ∨ placeAt d.dst d.dAddr + 64 * k ≤ a) → memRead t.mem a = memRead s.mem a)

/-- R108: POST and RELEASE move the two counts of an entry, the return flit moves the producer's shadow. -/
def ScoreboardCounts : Prop :=
  (∀ (s : State) (p sl u e n : Nat), unitExists s.grade p = true → unitExists s.grade u = true → sl < 8 → e < sbCount u →
    n < 65536 → takesPart s p sl = true → (sbOf s u e).valid = true → (sbOf s u e).producer = p →
    sbOcc (sbOf s u e) < (sbOf s u e).slots →
    ∃ t, exec (.post p sl u e n) s = .next t
      ∧ (sbOf t u e).produced = ((sbOf s u e).produced + 1) % 65536 ∧ (sbOf t u e).consumed = (sbOf s u e).consumed
      ∧ tabGet (sbOf t u e).lens ((sbOf s u e).produced % (sbOf s u e).slots) 0 = n
      ∧ t.mem = s.mem
      ∧ ∀ v f, f < 256 → (v, f) ≠ (u, e) → sbOf t v f = sbOf s v f)
  ∧ (∀ (s : State) (u sl e : Nat), unitExists s.grade u = true → sl < 8 → e < sbCount u → takesPart s u sl = true →
    (sbOf s u e).valid = true → sbOcc (sbOf s u e) ≠ 0 →
    ∃ t, exec (.release u sl e) s = .next t
      ∧ (sbOf t u e).consumed = ((sbOf s u e).consumed + 1) % 65536 ∧ (sbOf t u e).produced = (sbOf s u e).produced
      ∧ (sbOf t u e).shadow = (sbOf s u e).shadow ∧ (sideOf t u sl).hush = false ∧ t.mem = s.mem)
  ∧ (∀ (s : State) (u e : Nat), unitExists s.grade u = true → e < sbCount u →
    (sbOf s u e).shadow ≠ (sbOf s u e).consumed →
    ∃ t, exec (.releaseReturn u e) s = .next t
      ∧ sbOf t u e = { sbOf s u e with shadow := ((sbOf s u e).shadow + 1) % 65536 } ∧ t.hlt = s.hlt ∧ t.mem = s.mem)
  ∧ (∀ (s : State) (p sl u e n : Nat), unitExists s.grade p = true → unitExists s.grade u = true → sl < 8 → e < sbCount u →
    n < 65536 → takesPart s p sl = true → (sbOf s u e).valid = true → (sbOf s u e).producer ≠ p → 256 ≤ (unitRun s p).owner →
    ∃ t, exec (.post p sl u e n) s = .next t ∧ sbOf t u e = sbOf s u e
      ∧ ∃ r, tabFind? t.hlt.log.recs (s.hlt.log.prod % 4096) = some r ∧ r.code = 2 ∧ r.unit = (sbOf s u e).producer
        ∧ r.unit2 = p)

/-- R108 to R110, R145: a wait gives the slot, or the stream stalls and resumes once the entry allows it; a slot of length 0
suppresses the consumer's results. A slice of a tile stalls alone. -/
def ScoreboardWaits : Prop :=
  (∀ (s : State) (p sl u e : Nat), unitExists s.grade p = true → unitExists s.grade u = true → sl < 8 → e < sbCount u →
    takesPart s p sl = true → (sideOf s p sl).wait = none → (sbOf s u e).valid = true →
    (sbOccShadow (sbOf s u e) < (sbOf s u e).slots →
      ∃ t, exec (.waitFree p sl u e) s = .next t ∧ (sideOf t p sl).slot = (sbOf s u e).produced % (sbOf s u e).slots
        ∧ (sideOf t p sl).wait = none ∧ t.grd.sb = s.grd.sb ∧ t.mem = s.mem)
    ∧ ((sbOf s u e).slots ≤ sbOccShadow (sbOf s u e) →
      ∃ t, exec (.waitFree p sl u e) s = .next t ∧ (sideOf t p sl).wait = some (.free u e) ∧ t.grd.sb = s.grd.sb
        ∧ t.mem = s.mem ∧ t.hlt = s.hlt ∧ ∀ sl', isTile p = true → sl' ≠ sl → sideOf t p sl' = sideOf s p sl'))
  ∧ (∀ (s : State) (p sl u e : Nat), unitExists s.grade p = true → unitExists s.grade u = true → sl < 8 → e < sbCount u →
    (sideOf s p sl).wait = some (.free u e) → sbOccShadow (sbOf s u e) < (sbOf s u e).slots →
    ∃ t, exec (.waitFreeResume p sl u e) s = .next t ∧ (sideOf t p sl).wait = none
      ∧ (sideOf t p sl).slot = (sbOf s u e).produced % (sbOf s u e).slots ∧ t.grd.sb = s.grd.sb ∧ t.mem = s.mem)
  ∧ (∀ (s : State) (u sl e : Nat), unitExists s.grade u = true → sl < 8 → e < sbCount u → takesPart s u sl = true →
    (sideOf s u sl).wait = none → (sbOf s u e).valid = true →
    (sbOcc (sbOf s u e) ≠ 0 →
      ∃ t, exec (.waitFull u sl e) s = .next t ∧ (sideOf t u sl).slot = (sbOf s u e).consumed % (sbOf s u e).slots
        ∧ (sideOf t u sl).len = tabGet (sbOf s u e).lens ((sbOf s u e).consumed % (sbOf s u e).slots) 0
        ∧ (sideOf t u sl).hush = decide ((sideOf t u sl).len = 0) ∧ t.grd.sb = s.grd.sb ∧ t.mem = s.mem)
    ∧ (sbOcc (sbOf s u e) = 0 →
      ∃ t, exec (.waitFull u sl e) s = .next t ∧ (sideOf t u sl).wait = some (.full u e) ∧ t.grd.sb = s.grd.sb))
  ∧ (∀ (s : State) (u sl e : Nat), unitExists s.grade u = true → sl < 8 → e < sbCount u →
    (sideOf s u sl).wait = some (.full u e) → sbOcc (sbOf s u e) ≠ 0 →
    ∃ t, exec (.waitFullResume u sl e) s = .next t ∧ (sideOf t u sl).wait = none
      ∧ (sideOf t u sl).slot = (sbOf s u e).consumed % (sbOf s u e).slots ∧ t.grd.sb = s.grd.sb)

/-! ### Chapters 04 to 06: numbers, signal tiles, random bits -/

/-- R120, R121, R127: a code that is no NaN comes back from its exact value in every floating format, in either rounding
mode, and sets no flag. -/
def FloatCodesRoundTrip : Prop :=
  ∀ (o : ArithOpt) (f : Fmt) (g : FloatFmt) (by_ : RoundBy) (c : Nat), floatFmt f = some g → c < 2 ^ g.width →
    decodeVal f c ≠ .nan → encodeVal o f by_ (decodeVal f c) = (c, {})

/-- R126: the 243 valid T5P bytes and five trits are the same thing; the others decode as five zeros and set t5p_bad. -/
def TernaryBytes : Prop :=
  (∀ b < 243, t5pByte ((t5pTrits b).1.map (unsignedOf 2)) = b ∧ (t5pTrits b).2 = {})
  ∧ (∀ b, 243 ≤ b → t5pTrits b = ([0, 0, 0, 0, 0], { t5pBad := true }))
  ∧ (∀ b < 243, ((t5pTrits b).1.zip [1, 3, 9, 27, 81]).foldl (fun (n : Int) p => n + (p.1 + 1) * p.2) 0 = b)

/-- R130: stochastic rounding of a value with c bits below the step rounds its magnitude up exactly when D + U reaches 2^n,
n = min(c, 24), and leaves a value with no such bits as it is. -/
def StochasticRounding : Prop :=
  (∀ (word mant c : Nat) (exp : Int), 0 < c →
    roundSteps (.sr word) mant exp (exp + c) = mant / 2 ^ c
      + (if 2 ^ min c 24 ≤ mant % 2 ^ c / 2 ^ (c - min c 24) + word % 2 ^ min c 24 then 1 else 0))
  ∧ (∀ (word mant : Nat) (exp : Int), roundSteps (.sr word) mant exp exp = mant)

/-- R173: one round of KCG-128 on four words, with the keys k, and the permutation: twelve rounds. -/
abbrev Words := BitVec 32 × BitVec 32 × BitVec 32 × BitVec 32
def kcgStep (k : Nat → BitVec 32) (x : Words) (r : Nat) : Words :=
  let x0 := x.1 + x.2.1 + k (r % 5)
  let x2 := x.2.2.1 + x.2.2.2 + k ((r + 2) % 5) + BitVec.ofNat 32 r
  (x0, x.2.2.2.rotateLeft 20 ^^^ x2, x2, x.2.1.rotateLeft 12 ^^^ x0)
def kcg128 (seed : BitVec 128) (stream : BitVec 32) (p : BitVec 64 × BitVec 64) : Words :=
  (List.range 12).foldl (kcgStep (fun i => if i = 4 then stream ^^^ 0x9E3779B9#32 else seed.extractLsb' (32 * i) 32))
    (p.2.extractLsb' 0 32, p.2.extractLsb' 32 32, p.1.extractLsb' 0 32, p.1.extractLsb' 32 32)

/-- The registers of a tile have their 256 lanes. -/
abbrev laneShape (x : Tile) : Prop := (∀ v, (lanesOf x v).length = 256) ∧ (x.acc = [] ∨ x.acc.length = 256)

/-- Lane i of a slice's register as a signed number; its accumulator. -/
def laneQ (x : Tile) (sl v i : Nat) : Int := (readQ x sl v).getD i 0
def laneAcc (x : Tile) (sl i : Nat) : Int := (readAcc x sl).getD i 0

/-- R132 to R134, R154: what the fixed-point instructions leave in each lane. -/
def FixedPointLanes : Prop :=
  ∀ (x : Tile) (sl vd va vb i : Nat) (sh : ShiftSrc), laneShape x → sl < 8 → i < laneCount x →
    laneAcc (opMac sl va vb x).1 sl i
      = max (-2 ^ 39) (min (2 ^ 39 - 1) (laneAcc x sl i + laneQ x sl va i * laneQ x sl vb i))
    ∧ laneQ (opMul sl vd va vb sh x).1 sl vd i
      = max (-32768) (min 32767 (shiftRound (laneQ x sl va i * laneQ x sl vb i) (shiftOf x sl sh)))
    ∧ laneQ (opShift sl vd va sh x).1 sl vd i
      = max (-32768) (min 32767 (shiftRound (laneQ x sl va i) (shiftOf x sl sh)))
    ∧ (-32768 ≤ laneQ x sl va i + laneQ x sl vb i → laneQ x sl va i + laneQ x sl vb i ≤ 32767 →
        laneQ (opAdd sl vd va vb x).1 sl vd i = laneQ x sl va i + laneQ x sl vb i)
    ∧ (-32768 ≤ laneQ x sl va i - laneQ x sl vb i → laneQ x sl va i - laneQ x sl vb i ≤ 32767 →
        laneQ (opSub sl vd va vb x).1 sl vd i = laneQ x sl va i - laneQ x sl vb i)
    ∧ (laneQ (opAccst sl .q15 vd sh x).1 sl vd i
      = max (-32768) (min 32767 (shiftRound (laneAcc x sl i) (shiftOf x sl sh))))
    ∧ (i % 2 = 0 → laneAcc (opCmac sl va vb x).1 sl i = max (-2 ^ 39) (min (2 ^ 39 - 1) (laneAcc x sl i
        + (laneQ x sl va i * laneQ x sl vb i - laneQ x sl va (i + 1) * laneQ x sl vb (i + 1)))))
    ∧ (i % 2 = 0 → laneAcc (opCmacj sl va vb x).1 sl (i + 1) = max (-2 ^ 39) (min (2 ^ 39 - 1) (laneAcc x sl (i + 1)
        + (laneQ x sl va (i + 1) * laneQ x sl vb i - laneQ x sl va i * laneQ x sl vb (i + 1)))))
    ∧ (i % 2 = 0 → laneAcc (opCmul sl va vb x).1 sl i
        = laneQ x sl va i * laneQ x sl vb i - laneQ x sl va (i + 1) * laneQ x sl vb (i + 1))

/-- R155: a radix-2 butterfly with stage scale k on a complex lane: the rounded product of twiddle and second input, added
and subtracted, shifted and saturated. -/
def ButterflyLanes : Prop :=
  ∀ (x : Tile) (sl xr wr k j : Nat), laneShape x → sl < 8 → 2 * j < laneCount x → k < 4 →
    let t := shiftRound (laneQ x sl wr (2 * j) * laneQ x sl (xr + 1) (2 * j)
      - laneQ x sl wr (2 * j + 1) * laneQ x sl (xr + 1) (2 * j + 1)) 15
    laneQ (opBfly 2 sl xr wr k x).1 sl xr (2 * j)
        = max (-32768) (min 32767 (shiftRound (laneQ x sl xr (2 * j) + t) k))
      ∧ laneQ (opBfly 2 sl xr wr k x).1 sl (xr + 1) (2 * j)
        = max (-32768) (min 32767 (shiftRound (laneQ x sl xr (2 * j) - t) k))

/-- The seed and step under which the owner of a tile draws (R169). -/
abbrev tileKey (s : State) (t : Nat) : Nat × Nat := drawKey s (unitRun s (tileUnit t)).owner

/-- A well-formed instruction on registers that its slice can issue. -/
abbrev RegIssues (s : State) (i : Instr) (t sl : Nat) : Prop := wellFormed s.grade i = true ∧ canIssue s t sl = true

/-- R110, R138, R152: an instruction on registers changes its own slice's registers as its operation f says, joins its flags to the
owner's word, and touches no memory and no other tile; after a slot of length 0 only the slice's position moves. -/
def RegEffect (s : State) (t sl : Nat) (f : Tile → Tile × ArithFlags) (u : State) : Prop :=
  (hushed s t sl = false → tileOf u t = updSlice sl stepSlice (f (tileOf s t)).1
      ∧ tabGet u.grd.arith (unitRun s (tileUnit t)).owner {}
        = orFlags (tabGet s.grd.arith (unitRun s (tileUnit t)).owner {}) (f (tileOf s t)).2)
  ∧ (hushed s t sl = true → tileOf u t = updSlice sl stepSlice (tileOf s t) ∧ u.grd.arith = s.grd.arith)
  ∧ u.mem = s.mem ∧ u.grd.sb = s.grd.sb ∧ u.tts = s.tts ∧ u.srv = s.srv ∧ u.hlt.log = s.hlt.log
  ∧ ∀ t', t' ≠ t → tileOf u t' = tileOf s t'

/-- R132 to R134, R153 to R155: each fixed-point instruction and butterfly issues and has the effect of its operation. -/
def FixedPointInstructions : Prop :=
  (∀ (s : State) (t sl : Nat) (va vb : Nat), RegIssues s (.mac t sl va vb) t sl →
    ∃ u, exec (.mac t sl va vb) s = .next u ∧ RegEffect s t sl (opMac sl va vb) u)
  ∧ (∀ (s : State) (t sl : Nat) (vd va vb : Nat) (sh : ShiftSrc), RegIssues s (.mul t sl vd va vb sh) t sl →
    ∃ u, exec (.mul t sl vd va vb sh) s = .next u ∧ RegEffect s t sl (opMul sl vd va vb sh) u)
  ∧ (∀ (s : State) (t sl : Nat) (vd va vb : Nat), RegIssues s (.add t sl vd va vb) t sl →
    ∃ u, exec (.add t sl vd va vb) s = .next u ∧ RegEffect s t sl (opAdd sl vd va vb) u)
  ∧ (∀ (s : State) (t sl : Nat) (vd va vb : Nat), RegIssues s (.sub t sl vd va vb) t sl →
    ∃ u, exec (.sub t sl vd va vb) s = .next u ∧ RegEffect s t sl (opSub sl vd va vb) u)
  ∧ (∀ (s : State) (t sl : Nat) (vd va : Nat) (sh : ShiftSrc), RegIssues s (.shift t sl vd va sh) t sl →
    ∃ u, exec (.shift t sl vd va sh) s = .next u ∧ RegEffect s t sl (opShift sl vd va sh) u)
  ∧ (∀ (s : State) (t sl : Nat) (vd vp va vb : Nat), RegIssues s (.select t sl vd vp va vb) t sl →
    ∃ u, exec (.select t sl vd vp va vb) s = .next u ∧ RegEffect s t sl (opSelect sl vd vp va vb) u)
  ∧ (∀ (s : State) (t sl : Nat) (va vb : Nat), RegIssues s (.cmac t sl va vb) t sl →
    ∃ u, exec (.cmac t sl va vb) s = .next u ∧ RegEffect s t sl (opCmac sl va vb) u)
  ∧ (∀ (s : State) (t sl : Nat) (va vb : Nat), RegIssues s (.cmacj t sl va vb) t sl →
    ∃ u, exec (.cmacj t sl va vb) s = .next u ∧ RegEffect s t sl (opCmacj sl va vb) u)
  ∧ (∀ (s : State) (t sl : Nat) (va vb : Nat), RegIssues s (.cmul t sl va vb) t sl →
    ∃ u, exec (.cmul t sl va vb) s = .next u ∧ RegEffect s t sl (opCmul sl va vb) u)
  ∧ (∀ (s : State) (t sl : Nat) (f : Fmt) (vd : Nat) (sh : ShiftSrc), RegIssues s (.accst t sl f vd sh) t sl →
    ∃ u, exec (.accst t sl f vd sh) s = .next u ∧ RegEffect s t sl (opAccst sl f vd sh) u)
  ∧ (∀ (s : State) (t sl : Nat) (x w k : Nat), RegIssues s (.bfly2 t sl x w k) t sl →
    ∃ u, exec (.bfly2 t sl x w k) s = .next u ∧ RegEffect s t sl (opBfly 2 sl x w k) u)
  ∧ (∀ (s : State) (t sl : Nat) (x w k : Nat), RegIssues s (.bfly4 t sl x w k) t sl →
    ∃ u, exec (.bfly4 t sl x w k) s = .next u ∧ RegEffect s t sl (opBfly 4 sl x w k) u)
  ∧ (∀ (s : State) (t sl : Nat) (x w k : Nat), RegIssues s (.bfly8 t sl x w k) t sl →
    ∃ u, exec (.bfly8 t sl x w k) s = .next u ∧ RegEffect s t sl (opBfly 8 sl x w k) u)

/-- R125, R127 to R131, R141: so does each floating-point instruction, library function and conversion. -/
def FloatInstructions : Prop :=
  (∀ (s : State) (t sl : Nat) (f : Fmt) (vd va vb : Nat), RegIssues s (.vadd t sl f vd va vb) t sl →
    ∃ u, exec (.vadd t sl f vd va vb) s = .next u ∧ RegEffect s t sl (opFp2 (fpAdd s.grd.opt f) sl f vd va vb) u)
  ∧ (∀ (s : State) (t sl : Nat) (f : Fmt) (vd va vb : Nat), RegIssues s (.vsub t sl f vd va vb) t sl →
    ∃ u, exec (.vsub t sl f vd va vb) s = .next u ∧ RegEffect s t sl (opFp2 (fpSub s.grd.opt f) sl f vd va vb) u)
  ∧ (∀ (s : State) (t sl : Nat) (f : Fmt) (vd va vb : Nat), RegIssues s (.vmul t sl f vd va vb) t sl →
    ∃ u, exec (.vmul t sl f vd va vb) s = .next u ∧ RegEffect s t sl (opFp2 (fpMul s.grd.opt f) sl f vd va vb) u)
  ∧ (∀ (s : State) (t sl : Nat) (f : Fmt) (vd va vb vc : Nat), RegIssues s (.vfma t sl f vd va vb vc) t sl →
    ∃ u, exec (.vfma t sl f vd va vb vc) s = .next u ∧ RegEffect s t sl (opFma s.grd.opt sl f vd va vb vc) u)
  ∧ (∀ (s : State) (t sl : Nat) (f : Fmt) (vd va vb : Nat), RegIssues s (.vmin t sl f vd va vb) t sl →
    ∃ u, exec (.vmin t sl f vd va vb) s = .next u ∧ RegEffect s t sl (opFp2 (fun a b => (minCode f a b, {})) sl f vd va vb) u)
  ∧ (∀ (s : State) (t sl : Nat) (f : Fmt) (vd va vb : Nat), RegIssues s (.vmax t sl f vd va vb) t sl →
    ∃ u, exec (.vmax t sl f vd va vb) s = .next u ∧ RegEffect s t sl (opFp2 (fun a b => (maxCode f a b, {})) sl f vd va vb) u)
  ∧ (∀ (s : State) (t sl : Nat) (f : Fmt) (vd va : Nat), RegIssues s (.vexp t sl f vd va) t sl →
    ∃ u, exec (.vexp t sl f vd va) s = .next u ∧ RegEffect s t sl (opLib s.grd.opt .exp sl f vd va) u)
  ∧ (∀ (s : State) (t sl : Nat) (f : Fmt) (vd va : Nat), RegIssues s (.vlog t sl f vd va) t sl →
    ∃ u, exec (.vlog t sl f vd va) s = .next u ∧ RegEffect s t sl (opLib s.grd.opt .log sl f vd va) u)
  ∧ (∀ (s : State) (t sl : Nat) (f : Fmt) (vd va : Nat), RegIssues s (.vrcp t sl f vd va) t sl →
    ∃ u, exec (.vrcp t sl f vd va) s = .next u ∧ RegEffect s t sl (opLib s.grd.opt .rcp sl f vd va) u)
  ∧ (∀ (s : State) (t sl : Nat) (f : Fmt) (vd va : Nat), RegIssues s (.vrsqrt t sl f vd va) t sl →
    ∃ u, exec (.vrsqrt t sl f vd va) s = .next u ∧ RegEffect s t sl (opLib s.grd.opt .rsqrt sl f vd va) u)
  ∧ (∀ (s : State) (t sl : Nat) (f : Fmt) (vd va : Nat), RegIssues s (.vtanh t sl f vd va) t sl →
    ∃ u, exec (.vtanh t sl f vd va) s = .next u ∧ RegEffect s t sl (opLib s.grd.opt .tanh sl f vd va) u)
  ∧ (∀ (s : State) (t sl : Nat) (f : Fmt) (vd va : Nat), RegIssues s (.vsigm t sl f vd va) t sl →
    ∃ u, exec (.vsigm t sl f vd va) s = .next u ∧ RegEffect s t sl (opLib s.grd.opt .sigm sl f vd va) u)
  ∧ (∀ (s : State) (t sl : Nat) (src dst : Fmt) (vd va : Nat) (r : Rounding), RegIssues s (.cvt t sl src dst vd va r none) t sl →
    ∃ u, exec (.cvt t sl src dst vd va r none) s = .next u ∧ RegEffect s t sl (opCvt s.grd.opt (tileKey s t) sl src dst vd va r) u)
  ∧ (∀ (s : State) (t sl : Nat) (dst : Fmt) (vd va sc : Nat) (r : Rounding), RegIssues s (.mxq t sl dst vd va sc r none) t sl →
    ∃ u, exec (.mxq t sl dst vd va sc r none) s = .next u ∧ RegEffect s t sl (opMxq s.grd.opt (tileKey s t) sl dst vd va sc r) u)
  ∧ (∀ (s : State) (t sl : Nat) (src dst : Fmt) (vd va sc : Nat), RegIssues s (.mxd t sl src dst vd va sc none) t sl →
    ∃ u, exec (.mxd t sl src dst vd va sc none) s = .next u ∧ RegEffect s t sl (opMxd s.grd.opt sl src dst vd va sc) u)

/-- R172 to R179: and each random instruction. -/
def RandomInstructions : Prop :=
  (∀ (s : State) (t sl : Nat) (vd sm sn : Nat) (vp : Option Nat), RegIssues s (.rdraw t sl vd sm sn vp) t sl →
    ∃ u, exec (.rdraw t sl vd sm sn vp) s = .next u ∧ RegEffect s t sl (opDraw (tileKey s t) sl vd sm sn vp (fun o => o.1)) u)
  ∧ (∀ (s : State) (t sl : Nat) (vd sm sn : Nat) (vp : Option Nat), RegIssues s (.runi t sl vd sm sn vp) t sl →
    ∃ u, exec (.runi t sl vd sm sn vp) s = .next u ∧ RegEffect s t sl (opDraw (tileKey s t) sl vd sm sn vp (fun o => uniform o.1)) u)
  ∧ (∀ (s : State) (t sl : Nat) (vd sm sn : Nat) (vp : Option Nat), RegIssues s (.rnormBm t sl vd sm sn vp) t sl →
    ∃ u, exec (.rnormBm t sl vd sm sn vp) s = .next u ∧ RegEffect s t sl (opDraw (tileKey s t) sl vd sm sn vp (fun o => boxMuller (uniM o.1) (uniM o.2.1))) u)
  ∧ (∀ (s : State) (t sl : Nat) (vd sm sn : Nat) (vp : Option Nat), RegIssues s (.rnormTab t sl vd sm sn vp) t sl →
    ∃ u, exec (.rnormTab t sl vd sm sn vp) s = .next u ∧ RegEffect s t sl (opDraw (tileKey s t) sl vd sm sn vp (fun o => normalTab o.1)) u)

/-- What a conversion on a quadrant may touch (R140). -/
abbrev QuadFine (s : State) (q : QuadCvt) (reads writes : List (Nat × Nat)) : Prop :=
  unitExists s.grade q.quad = true ∧ (unitRun s q.quad).side.hush = false
  ∧ AccessFine s q.quad (reads.map (fun r => (Place.array (q.quad / 4), false, r.1, r.2))
      ++ writes.map (fun r => (Place.array (q.quad / 4), true, r.1, r.2)))

/-- The codes a quadrant reads, and the draw of an element under its owner's seed and step. -/
abbrev quadIn (s : State) (q : QuadCvt) (f : Fmt) : List Nat := (memElems s (arrayAt (q.quad / 4) q.sAddr) f q.count).1
abbrev quadDraw (s : State) (q : QuadCvt) (i : Nat) : RoundBy :=
  roundAt q.rnd (drawKey s (unitRun s q.quad).owner).1 (drawKey s (unitRun s q.quad).owner).2 (quadIndex q i)

/-- R125, R128, R140, R172: a conversion, MXQ and MXD on a quadrant leave the packed results, and no other byte changes. -/
def QuadConversions : Prop :=
  (∀ (s : State) (t sl vd va : Nat) (src dst : Fmt) (r : Rounding) (q : QuadCvt), wellFormed s.grade (.cvt t sl src dst vd va r (some q)) = true →
    QuadFine s q [(q.sAddr, packedBytes q.src q.count)] [(q.dAddr, packedBytes q.dst q.count)] →
    let out := pack q.dst ((List.range q.count).map (fun i => (cvtCode s.grd.opt q.src q.dst (quadDraw s q i) ((quadIn s q q.src).getD i 0)).1))
    ∃ u, exec (.cvt t sl src dst vd va r (some q)) s = .next u
      ∧ memReadBytes u.mem (arrayAt (q.quad / 4) q.dAddr) out.length = out
      ∧ ∀ b, (b < arrayAt (q.quad / 4) q.dAddr ∨ arrayAt (q.quad / 4) q.dAddr + out.length ≤ b) → memRead u.mem b = memRead s.mem b)
  ∧ (∀ (s : State) (t sl vd va sc : Nat) (dst : Fmt) (r : Rounding) (q : QuadCvt), wellFormed s.grade (.mxq t sl dst vd va sc r (some q)) = true →
    QuadFine s q [(q.sAddr, 4 * q.count)] [(q.dAddr, packedBytes q.dst q.count), (q.scale, (q.count + 31) / 32)] →
    q.dAddr + packedBytes q.dst q.count ≤ q.scale →
    let out := mxqList s.grd.opt q.dst (quadDraw s q) (quadIn s q .f32)
    ∃ u, exec (.mxq t sl dst vd va sc r (some q)) s = .next u
      ∧ memReadBytes u.mem (arrayAt (q.quad / 4) q.scale) out.1.length = out.1.map (BitVec.ofNat 8)
      ∧ memReadBytes u.mem (arrayAt (q.quad / 4) q.dAddr) (pack q.dst out.2.1).length = pack q.dst out.2.1)
  ∧ (∀ (s : State) (t sl vd va sc : Nat) (src dst : Fmt) (q : QuadCvt), wellFormed s.grade (.mxd t sl src dst vd va sc (some q)) = true →
    QuadFine s q [(q.sAddr, packedBytes q.src q.count), (q.scale, (q.count + 31) / 32)] [(q.dAddr, packedBytes q.dst q.count)] →
    let out := pack q.dst ((List.range q.count).map (fun i => (mxdCode s.grd.opt q.src q.dst
      (memRead s.mem (arrayAt (q.quad / 4) (q.scale + i / 32))).toNat ((quadIn s q q.src).getD i 0)).1))
    ∃ u, exec (.mxd t sl src dst vd va sc (some q)) s = .next u
      ∧ memReadBytes u.mem (arrayAt (q.quad / 4) q.dAddr) out.length = out
      ∧ ∀ b, (b < arrayAt (q.quad / 4) q.dAddr ∨ arrayAt (q.quad / 4) q.dAddr + out.length ≤ b) → memRead u.mem b = memRead s.mem b)

/-- R149, R150: a vector load and a vector store of Fused tile t through an address register, their share granted and no
bad word met: what they move, and the register's advance. -/
def TileLoadsAndStores : Prop :=
  (∀ (s : State) (t v a : Nat), t < gradeTiles s.grade → v < 32 → a < 16 → canIssue s t 0 = true →
    (tileOf s t).fused = true → hushed s t 0 = false → laneShape (tileOf s t) →
    let addr := areaAddr (addrReg (tileOf s t) 0 a) / 64 * 64
    let owner := (unitRun s (tileUnit t)).owner
    (placeOk s owner false (.tile t) addr 512 = true → meetsBad s (tileAt t addr) 512 = false →
      ∃ u, exec (.vld t 0 v a false) s = .next u
        ∧ lanesOf (tileOf u t) v = bytesLanes (memReadBytes s.mem (tileAt t addr) 512)
        ∧ addrReg (tileOf u t) 0 a = areaNext (addrReg (tileOf s t) 0 a)
        ∧ (∀ w, w ≠ v → lanesOf (tileOf u t) w = lanesOf (tileOf s t) w) ∧ u.mem = s.mem)
    ∧ (placeOk s owner true (.tile t) addr 512 = true →
      ∃ u, exec (.vst t 0 v a) s = .next u
        ∧ memReadBytes u.mem (tileAt t addr) 512 = (lanesOf (tileOf s t) v).flatMap (leBytes 2)
        ∧ (∀ b, (b < tileAt t addr ∨ tileAt t addr + 512 ≤ b) → memRead u.mem b = memRead s.mem b)
        ∧ addrReg (tileOf u t) 0 a = areaNext (addrReg (tileOf s t) 0 a)
        ∧ (∀ w, lanesOf (tileOf u t) w = lanesOf (tileOf s t) w)))
  ∧ (∀ (s : State) (t v a : Nat), t < gradeTiles s.grade → v + 1 < 32 → a < 16 → canIssue s t 0 = true →
    (tileOf s t).fused = true → hushed s t 0 = false → laneShape (tileOf s t) →
    let addr := areaAddr (addrReg (tileOf s t) 0 a) / 64 * 64
    placeOk s (unitRun s (tileUnit t)).owner false (.tile t) addr 1024 = true → meetsBad s (tileAt t addr) 1024 = false →
      ∃ u, exec (.vld2 t 0 v a false) s = .next u
        ∧ lanesOf (tileOf u t) v = bytesLanes (memReadBytes s.mem (tileAt t addr) 512)
        ∧ lanesOf (tileOf u t) (v + 1) = bytesLanes (memReadBytes s.mem (tileAt t (addr + 512)) 512) ∧ u.mem = s.mem)

/-- R150: a gather and a scatter whose every lane address lies in the owner's share; of lanes that meet, the highest stands. -/
def GatherScatter : Prop :=
  ∀ (s : State) (t v va a : Nat), t < gradeTiles s.grade → v < 32 → va < 32 → a < 16 → canIssue s t 0 = true →
    (tileOf s t).fused = true → hushed s t 0 = false → laneShape (tileOf s t) →
    (∀ p ∈ laneAddrs (tileOf s t) 0 va a, placeOk s (unitRun s (tileUnit t)).owner false (.tile t) p 2 = true
      ∧ placeOk s (unitRun s (tileUnit t)).owner true (.tile t) p 2 = true ∧ meetsBad s (tileAt t p) 2 = false) →
    (∃ u, exec (.vgath t 0 v va a) s = .next u
      ∧ lanesOf (tileOf u t) v = (laneAddrs (tileOf s t) 0 va a).map (fun p => leNat (memReadBytes s.mem (tileAt t p) 2))
      ∧ u.mem = s.mem)
    ∧ (∃ u, exec (.vscat t 0 v va a) s = .next u
      ∧ (∀ b, (∀ p ∈ laneAddrs (tileOf s t) 0 va a, b ≠ tileAt t p ∧ b ≠ tileAt t p + 1) →
          memRead u.mem b = memRead s.mem b)
      ∧ (∀ i < 256, (∀ j, i < j → j < 256 → (laneAddrs (tileOf s t) 0 va a).getD j 0 + 2 ≤ (laneAddrs (tileOf s t) 0 va a).getD i 0
            ∨ (laneAddrs (tileOf s t) 0 va a).getD i 0 + 2 ≤ (laneAddrs (tileOf s t) 0 va a).getD j 0) →
          memReadBytes u.mem (tileAt t ((laneAddrs (tileOf s t) 0 va a).getD i 0)) 2 = leBytes 2 ((lanesOf (tileOf s t) v).getD i 0))
      ∧ (∀ w, lanesOf (tileOf u t) w = lanesOf (tileOf s t) w))

/-- R121, R141: RED_SUM of no elements gives +0, of one that element, or the canonical NaN where it is none, of two their rounded sum; on a tile it goes to its scalar
register and memory does not change, on a quadrant to the array store (the model's place for it, log entry 17). -/
def Reduction : Prop :=
  (∀ f a b, f = .f32 ∨ f = .i32 → redSumOf f [] = (0, {}) ∧ (decodeVal f a ≠ .nan → redSumOf f [a] = (a, {}))
      ∧ (decodeVal f a = .nan → redSumOf f [a] = (canonNan f, {})) ∧ (redSumOf f [a, b]).1 = (redAdd f a b).1)
  ∧ (∀ (s : State) (t sl n addr sd : Nat) (f : Fmt), t < gradeTiles s.grade → sl < 8 → (f = .f32 ∨ f = .i32) → n ≤ 65536 →
      sd < 16 → canIssue s t sl = true → hushed s t sl = false →
      placeOk s (unitRun s (tileUnit t)).owner false (.tile t) addr (4 * n) = true →
      meetsBad s (tileAt t addr) (4 * n) = false →
      ∃ u, exec (.redSum (tileUnit t) sl f addr n sd) s = .next u ∧ u.mem = s.mem
        ∧ scalar (tileOf u t) sl sd = (redSumOf f (memElems s (tileAt t addr) .f32 n).1).1 % 2 ^ 32)
  ∧ (∀ (s : State) (q n addr sd : Nat) (f : Fmt), q < gradeQuads s.grade → (f = .f32 ∨ f = .i32) → n ≤ 65536 →
      (unitRun s q).side.hush = false →
      AccessFine s q [(.array (q / 4), false, addr, 4 * n), (.array (q / 4), true, sd, 4)] →
      ∃ u, exec (.redSum q 0 f addr n sd) s = .next u
        ∧ memReadBytes u.mem (arrayAt (q / 4) sd) 4
          = leBytes 4 (redSumOf f (memElems s (arrayAt (q / 4) addr) .f32 n).1).1
        ∧ ∀ b, (b < arrayAt (q / 4) sd ∨ arrayAt (q / 4) sd + 4 ≤ b) → memRead u.mem b = memRead s.mem b)

/-- R156 to R162: a block repeat and a fused repeat: LOOP opens a level or skips its body, REP of radio work repeats its
instruction, and of lent work it issues only where it ends by the Dusk line. -/
def Repeats : Prop :=
  (∀ (s : State) (t sl n last : Nat), t < gradeTiles s.grade → sl < 8 → n ≤ 65535 → last ≤ 4091 → canIssue s t sl = true →
    (sliceOf (tileOf s t) sl).loops.length < 4 → (sliceOf (tileOf s t) sl).pos < last →
    (∀ l ∈ (sliceOf (tileOf s t) sl).loops, last ≤ l.last) →
    ∃ u, exec (.loop t sl n last) s = .next u ∧ u.mem = s.mem
      ∧ (n ≠ 0 → sliceOf (tileOf u t) sl = { sliceOf (tileOf s t) sl with
            loops := (sliceOf (tileOf s t) sl).loops ++
              [{ top := (sliceOf (tileOf s t) sl).pos + 1, last := last, count := n - 1 }],
            pos := (sliceOf (tileOf s t) sl).pos + 1 })
      ∧ (n = 0 → (sliceOf (tileOf s t) sl).loops = [] → (sliceOf (tileOf u t) sl).pos = last + 1
          ∧ (sliceOf (tileOf u t) sl).a = (sliceOf (tileOf s t) sl).a))
  ∧ (∀ (s : State) (t n : Nat) (op : TileOp) (k j p : Nat), t < gradeTiles s.grade → n ≤ 4096 → n * opCost op ≤ 4096 →
    opOk op = true → repMay op = true → canIssue s t 0 = true → (tileOf s t).fused = true → (unitRun s (tileUnit t)).holder = .radio k j p →
    exec (.rep t n op) s = .next (pastIssue t 0 (repLoop t op n (markIssue t 0 s))))
  ∧ (∀ (s : State) (t n c m : Nat) (va vb : Nat), t < gradeTiles s.grade → n ≤ 2048 → va < 32 → vb < 32 →
    canIssue s t 0 = true → (tileOf s t).fused = true → (unitRun s (tileUnit t)).holder = .lent c m →
    hushed s t 0 = false → (n * 2 * 3072 + 3124) / 3125 + s.tmb.free ≤ (unitRun s (tileUnit t)).dusk →
    ∃ u, exec (.rep t n (.cmac va vb)) s = .next u ∧ u.mem = s.mem ∧ u.tts = s.tts
      ∧ (sliceOf (tileOf u t) 0) = stepSlice (sliceOf (tileOf s t) 0)
      ∧ (tileOf u t).acc = ((List.range n).foldl (fun x _ => (opCmac 0 va vb x).1) (tileOf s t)).acc)

/-- R145: the last slice of a mask to issue its SBAR lets all of the mask go; so does the resume, where they still stall. -/
def SliceBarrier : Prop :=
  (∀ (s : State) (t : Nat), t < gradeTiles s.grade → tabWf (tileOf s t).slices →
    canIssue s t 0 = true → tabHas (tileOf s t).slices 1 = true →
    (sliceOf (tileOf s t) 1).sbar = some 3 → (∀ k, 2 ≤ k → (sliceOf (tileOf s t) k).sbar = none) →
    ∃ u, exec (.sbar t 0 3) s = .next u ∧ (sliceOf (tileOf u t) 0).sbar = none ∧ (sliceOf (tileOf u t) 1).sbar = none
      ∧ (sliceOf (tileOf u t) 0).pos = (stepSlice (sliceOf (tileOf s t) 0)).pos
      ∧ (sliceOf (tileOf u t) 1).pos = (stepSlice (sliceOf (tileOf s t) 1)).pos ∧ u.mem = s.mem)
  ∧ (∀ (s : State) (t sl mask : Nat), t < gradeTiles s.grade → sl < 8 → mask < 256 → bit mask sl = true →
    tabWf (tileOf s t).slices → canIssue s t sl = true → (∃ k < 8, k ≠ sl ∧ bit mask k = true ∧ (sliceOf (tileOf s t) k).sbar = none) →
    (∀ k, k ≠ sl → (sliceOf (tileOf s t) k).sbar = none) →
    ∃ u, exec (.sbar t sl mask) s = .next u ∧ (sliceOf (tileOf u t) sl).sbar = some mask
      ∧ (sliceOf (tileOf u t) sl).pos = (sliceOf (tileOf s t) sl).pos)
  ∧ (∀ (s : State) (t : Nat), t < gradeTiles s.grade → working s (tileUnit t) = true →
    tabWf (tileOf s t).slices → tabHas (tileOf s t).slices 0 = true → tabHas (tileOf s t).slices 1 = true →
    (sliceOf (tileOf s t) 0).sbar = some 3 → (sliceOf (tileOf s t) 1).sbar = some 3 →
    (∀ k, 2 ≤ k → (sliceOf (tileOf s t) k).sbar = none) →
    ∃ u, exec (.sbarResume t) s = .next u ∧ (sliceOf (tileOf u t) 0).sbar = none ∧ (sliceOf (tileOf u t) 1).sbar = none
      ∧ (sliceOf (tileOf u t) 0).pos = (stepSlice (sliceOf (tileOf s t) 0)).pos
      ∧ (sliceOf (tileOf u t) 1).pos = (stepSlice (sliceOf (tileOf s t) 1)).pos ∧ u.mem = s.mem)

/-- R165 to R167: a neighbour send to a free port copies its bytes and posts its entry; to a port another writer holds it
stalls its slice; the stall ends with the send; a stop leaves whole pieces of 64 bytes and no post. -/
def NeighbourSend : Prop :=
  ∀ (s : State) (t q sl : Nat) (dir : Int) (src dst b entry k : Nat), t < gradeTiles s.grade → neighbour t dir = some q → sl < 8 →
    b % 64 = 0 → b ≤ 65536 → entry < 64 → 0 < b → 64 * k ≤ b →
    placeOk s (unitRun s (tileUnit t)).owner false (.tile t) src b = true →
    placeOk s (unitRun s (tileUnit t)).owner true (.tile q) dst b = true → meetsBad s (tileAt t src) b = false →
    hushed s t sl = false →
    (sbOf s (tileUnit q) entry).valid = true → (sbOf s (tileUnit q) entry).producer = tileUnit t →
    sbOcc (sbOf s (tileUnit q) entry) < (sbOf s (tileUnit q) entry).slots →
    let x : XSend := { dir := dir, to_ := q, src := src, dst := dst, b := b, entry := entry, stop := none }
    (canIssue s t sl = true → portTaken s dir q = false → portNext s t x = true →
      ∃ u, exec (.xsend t sl dir src dst b entry none) s = .next u
        ∧ memReadBytes u.mem (tileAt q dst) b = memReadBytes s.mem (tileAt t src) b
        ∧ (∀ a, (a < tileAt q dst ∨ tileAt q dst + b ≤ a) → memRead u.mem a = memRead s.mem a)
        ∧ (sbOf u (tileUnit q) entry).produced = ((sbOf s (tileUnit q) entry).produced + 1) % 65536
        ∧ tabGet (sbOf u (tileUnit q) entry).lens
            ((sbOf s (tileUnit q) entry).produced % (sbOf s (tileUnit q) entry).slots) 0 = b / 64
        ∧ (tileOf u q).port.1 = linkPlace dir)
    ∧ (canIssue s t sl = true → portTaken s dir q = true →
      ∃ u, exec (.xsend t sl dir src dst b entry none) s = .next u
        ∧ (sliceOf (tileOf u t) sl).xstall = some x ∧ u.mem = s.mem ∧ u.grd = s.grd)
    ∧ ((sliceOf (tileOf s t) sl).xstall = some x → working s (tileUnit t) = true → portTaken s dir q = false →
      portNext s t x = true →
      ∃ u, exec (.xsendStallEnd t sl) s = .next u ∧ (sliceOf (tileOf u t) sl).xstall = none
        ∧ memReadBytes u.mem (tileAt q dst) b = memReadBytes s.mem (tileAt t src) b)
    ∧ (canIssue s t sl = true → portTaken s dir q = false → portNext s t x = true →
      ∃ u, exec (.xsend t sl dir src dst b entry (some k)) s = .next u ∧ (unitRun u (tileUnit t)).stopped = true
        ∧ u.grd.sb = s.grd.sb ∧ memReadBytes u.mem (tileAt q dst) (64 * k) = memReadBytes s.mem (tileAt t src) (64 * k)
        ∧ ∀ a, (a < tileAt q dst ∨ tileAt q dst + 64 * k ≤ a) → memRead u.mem a = memRead s.mem a)

/-- R180, R181: GMAX and TOPK on a Fused tile: where the result goes, and what no element gives. -/
def Sampling : Prop :=
  ∀ (s : State) (t n k addr dst sm sn sd : Nat) (vp : Option Nat), t < gradeTiles s.grade → n ≤ 1048576 → k ≤ 256 →
    drawOk sm sn vp = true → sd < 15 → canIssue s t 0 = true → (tileOf s t).fused = true → hushed s t 0 = false →
    placeOk s (unitRun s (tileUnit t)).owner false (.tile t) addr (4 * n) = true →
    meetsBad s (tileAt t addr) (4 * n) = false →
    (∃ u, exec (.gmax t n addr sm sn sd vp) s = .next u ∧ u.mem = s.mem
      ∧ (n = 0 → scalar (tileOf u t) 0 sd = 0xFFFFFFFF ∧ scalar (tileOf u t) 0 (sd + 1) = 0xFF800000)
      ∧ (0 < n → vp = none → scalar (tileOf u t) 0 sd < n))
    ∧ (placeOk s (unitRun s (tileUnit t)).owner true (.tile t) dst (8 * k) = true →
      ∃ u, exec (.topk t n k addr dst sm sn vp) s = .next u
        ∧ (∀ a, (a < tileAt t dst ∨ tileAt t dst + 8 * k ≤ a) → memRead u.mem a = memRead s.mem a)
        ∧ ∀ j, n ≤ j → j < k → memReadBytes u.mem (tileAt t (dst + 8 * j)) 8
            = leBytes 4 0xFFFFFFFF ++ leBytes 4 0xFF800000)

/-- R185, R186: RNG_SEED stages or applies, RNG_QUERY gives the record, RNG_EVAL gives blocks and touches no context. -/
def RandomCommands : Prop :=
  (∀ (s : State) (m : Nat) (c : Cmd) (k : Nat), Due s m 0x0580 c → k = field c.payload 0 2 → k ≤ 255 →
    field c.payload 2 2 = 3 → (ctxOf s k).state ≠ .absent → (ctxOf s k).part = targetOf m c →
    ((ctxOf s k).step = none →
      ∃ t, exec (.rngSeed m) s = .next t ∧ Answered t m c .success (leBytes 8 (field c.payload 24 8))
        ∧ (ctxOf t k).rng = { seed := field c.payload 8 16, step := field c.payload 24 8 })
    ∧ ((ctxOf s k).step ≠ none →
      ∃ t, exec (.rngSeed m) s = .next t ∧ Answered t m c .success (leBytes 8 (field c.payload 24 8))
        ∧ (ctxOf t k).rng.seed = (ctxOf s k).rng.seed ∧ (ctxOf t k).rng.step = (ctxOf s k).rng.step
        ∧ (ctxOf t k).rng.pendSeed = some (field c.payload 8 16)
        ∧ (ctxOf t k).rng.pendStep = some (field c.payload 24 8)))
  ∧ (∀ (s : State) (m : Nat) (c : Cmd) (k : Nat), Due s m 0x0581 c → k = field c.payload 0 2 → k ≤ 255 →
    (ctxOf s k).state ≠ .absent → (ctxOf s k).part = targetOf m c →
    ∃ t, exec (.rngQuery m) s = .next t ∧ Answered t m c .success (rngRecord (ctxOf s k).rng) ∧ t.srv = s.srv)
  ∧ (∀ (s : State) (m : Nat) (c : Cmd), Due s m 0x0582 c → field c.payload 20 2 ≤ 64 →
    ∃ t body, exec (.rngEval m) s = .next t ∧ Answered t m c .success body ∧ t.srv = s.srv
      ∧ body.length = 16 * field c.payload 20 2
      ∧ ∀ i < field c.payload 20 2, field body (16 * i) 4
          = (kcg (field c.payload 0 16) (field c.payload 16 4) (field c.payload 24 8)
              ((field c.payload 32 8 + i) % 2 ^ 64)).1)

/-! ### Chapter 07: the time-table sequencer -/

/-- A SEAL that the sequencer considers: its table runs, the ring position is not yet decided, no twin holds the slot back. -/
abbrev SealHeard (s : State) (k : Nat) (i : InstSpec) : Prop :=
  k < 9 ∧ i.entries.length ≤ 2048 ∧ (tableOf s k).state = .running ∧ instAt (tableOf s k) i.slot = none
    ∧ s.hlt.leaving = false ∧ ∀ c ∈ s.cells, c.2.role = .unpaired

/-- The instance a SEAL describes, and the other sealed entries it is checked against. -/
def sealInstance (s : State) (k : Nat) (i : InstSpec) : Inst :=
  { slot := i.slot, start := tStart s (tableOf s k) i.slot, entries := i.entries, sealed := true, paramBase := i.paramBase,
    paramLen := i.paramLen }
def sealOthers (s : State) (k : Nat) (i : InstSpec) : List Sealed :=
  (allSealed s).filter (fun x => !(x.table = k && x.slot % 8 = i.slot % 8))

/-- The bytes of a parameter block that its length and the sequencer memory hold. -/
def sealBytes (i : InstSpec) : List Byte := i.params.take (min (64 * i.paramLen) (8 * 2 ^ 20 - 1024 * i.paramBase))

/-- R193 to R195, R224: an instance that passes the checks before its seal line is sealed, its parameter block in sequencer memory; a
late one, or one that fails a check, leaves its slot to the idle instance, which is counted once it has run. -/
def Sealing : Prop :=
  (∀ (s : State) (k : Nat) (i : InstSpec), SealHeard s k i → corrNow s < tStart s (tableOf s k) (i.slot - 1) →
    sealReason s k (tableOf s k) (sealInstance s k i) (sealOthers s k i) = 0 →
    ∃ t, exec (.seal k i) s = .next t ∧ instAt (tableOf t k) i.slot = some (sealInstance s k i)
      ∧ (tableOf t k).unfilled = (tableOf s k).unfilled ∧ t.evr = s.evr ∧ t.tts.resv = s.tts.resv
      ∧ memReadBytes t.mem (seqAt (1024 * i.paramBase)) (sealBytes i).length = sealBytes i
      ∧ ∀ a, (a < seqAt (1024 * i.paramBase) ∨ seqAt (1024 * i.paramBase) + (sealBytes i).length ≤ a) →
          memRead t.mem a = memRead s.mem a)
  ∧ (∀ (s : State) (k : Nat) (i : InstSpec), SealHeard s k i →
    (tStart s (tableOf s k) (i.slot - 1) ≤ corrNow s
      ∨ sealReason s k (tableOf s k) (sealInstance s k i) (sealOthers s k i) ≠ 0) →
    ∃ t, exec (.seal k i) s = .next t
      ∧ instAt (tableOf t k) i.slot = some { slot := i.slot, start := tStart s (tableOf s k) i.slot,
                                             entries := (tableOf s k).idleEntries, idle := true }
      ∧ (tableOf t k).unfilled = (tableOf s k).unfilled ∧ t.tts.resv = s.tts.resv)
  ∧ (∀ (s : State) (k n : Nat), k < 8 → (tableOf s k).state = .running → (tableOf s k).n0 ≤ n →
    tStart s (tableOf s k) (n - 1) ≤ corrNow s → instAt (tableOf s k) n = none →
    (∀ i ∈ (tableOf s k).insts, i.2.slot ≤ n) → (partOf s (tableOf s k).part).step ≠ 2 →
    ∃ t, exec (.sealLine k n) s = .next t
      ∧ instAt (tableOf t k) n = some { slot := n, start := tStart s (tableOf s k) n,
                                        entries := (tableOf s k).idleEntries, idle := true })
  ∧ (∀ (s : State) (k n j : Nat) (i : Inst), k < 8 → (tableOf s k).state = .running → (tableOf s k).n0 ≤ n →
    tStart s (tableOf s k) (n - 1) ≤ corrNow s → (instAt (tableOf s k) n).isSome = true →
    (tableOf s k).insts.filter (fun x => x.2.slot + 1 < n && !x.2.reported && slotOver s k x.2) = [(j, i)] → i.idle = true →
    instAt (tableOf s k) i.slot = some i → (partOf s (tableOf s k).part).step ≠ 2 →
    ∃ t, exec (.sealLine k n) s = .next t ∧ (tableOf t k).unfilled = ctrInc (tableOf s k).unfilled)

/-- R194, R195: what an instance with no reason against it satisfies. -/
def SealChecks : Prop :=
  ∀ (s : State) (k : Nat) (t : FrameTable) (i : Inst) (others : List Sealed), sealReason s k t i others = 0 →
    (∀ e ∈ i.entries, e.kind = 0 → e.launchOfs + e.budget ≤ e.deadlineOfs)
    ∧ (∀ e ∈ i.entries, e.launchOfs + e.budget ≤ 4 * 1966080 / 2 ^ t.mu)
    ∧ (∀ a ∈ instSealed s k t i, ∀ b ∈ others, ∀ u, u ∈ entryUnits a.entry → u ∈ entryUnits b.entry →
        0 < a.entry.budget → 0 < b.entry.budget →
        a.tick + a.entry.budget ≤ b.tick ∨ b.tick + b.entry.budget ≤ a.tick)
    ∧ (∀ a ∈ instSealed s k t i, ((instSealed s k t i ++ others).filter (fun b => b.tick = a.tick)).length ≤ 64)
    ∧ (∀ e ∈ i.entries, ∀ u ∈ entryUnits e, unitExists s.grade u = true ∧ isCoding u = false)
    ∧ i.entries.length ≤ 2048

/-- An entry as the sequencer sees it. -/
abbrev asSealed (s : State) (k n p : Nat) (e : TEntry) : Sealed :=
  { table := k, slot := n, pos := p, entry := e, tick := tStart s (tableOf s k) n + e.launchOfs }

/-- The entry at a place of an instance is due: none that launches before it waits, and what its launch reads is readable. -/
abbrev EntryDue (s : State) (k n p : Nat) (errs : List (CtlMem × Nat)) (i : Inst) (e : TEntry) : Prop :=
  (tableOf s k).state = .running ∧ instAt (tableOf s k) n = some i ∧ i.entries[p]? = some e ∧ reserves e = true
  ∧ i.gone.contains p = false ∧ tStart s (tableOf s k) n + e.launchOfs ≤ corrNow s
  ∧ (∀ x ∈ dueEntries s, launchBefore s x (asSealed s k n p e) = false)
  ∧ Readable s errs (.sequencer, k) ∧ ∀ u ∈ entryUnits e, Readable s errs (.scoreboard, u)

/-- R197, R198: at its instant an entry whose units are free is reserved for its budget from its first tick on; a LAUNCH entry starts
its program on each unit at its entry position, with the table's owner and its parameter, a tile's registers zero. -/
def EntryLaunch : Prop :=
  ∀ (s : State) (k n p : Nat) (errs : List (CtlMem × Nat)) (i : Inst) (e : TEntry), k < 9 → EntryDue s k n p errs i e →
    (∀ u ∈ entryUnits e, (unitRun s u).holder = .idle ∧ resvOn s u = none ∧ inService s u = true) →
    let f := firstTick s (tStart s (tableOf s k) n + e.launchOfs)
    ∃ t, exec (.entryLaunch k n p errs) s = .next t
      ∧ t.tts.resv = s.tts.resv ++ [{ table := k, slot := n, pos := p, entry := e, start := f, finish := f + e.budget,
                                      deadline := tStart s (tableOf s k) n + e.deadlineOfs }]
      ∧ instAt (tableOf t k) n = some { i with gone := i.gone ++ [p] }
      ∧ (e.kind ≠ 1 → ∀ u ∈ entryUnits e,
          unitRun t u = { holder := .radio k n p, owner := 256 + k, param := e.param, program := e.program,
                          position := (if isTile u then (programOf s u (256 + k) e.program).head.entry.getD 0 0
                            else (programOf s u (256 + k) e.program).first) }
          ∧ (isTile u = true → (tileOf t (u - 0x40)).v = [] ∧ (tileOf t (u - 0x40)).acc = []
              ∧ (tileOf t (u - 0x40)).fused = (programOf s u (256 + k) e.program).head.fused))
      ∧ (e.kind = 1 → t.grd = s.grd)
      ∧ t.mem = s.mem ∧ t.grd.sb = s.grd.sb ∧ t.evr = s.evr ∧ t.srv = s.srv

/-- R202: an entry that finds a unit still reserved does not launch: the earlier reservation keeps the unit, and a record
of code ENTRY_OVERLAP names both. -/
def EntryOverlap : Prop :=
  ∀ (s : State) (k n p u : Nat) (errs : List (CtlMem × Nat)) (i : Inst) (e : TEntry) (r : Reservation), k < 8 →
    EntryDue s k n p errs i e → entryUnits e = [u] → resvOn s u = some r →
    ∃ t, exec (.entryLaunch k n p errs) s = .next t ∧ t.tts.resv = s.tts.resv ∧ t.grd = s.grd
      ∧ ∃ f, tabFind? t.hlt.log.recs (s.hlt.log.prod % 4096) = some f ∧ f.code = 4 ∧ f.table = k ∧ f.entry = p
        ∧ f.cell = e.cell ∧ f.slotStart = tStart s (tableOf s k) n
        ∧ f.detail = leBytes 1 r.table ++ leBytes 1 r.entry.cell ++ leBytes 2 r.pos
            ++ leBytes 8 (tStart s (tableOf s r.table) r.slot)

/-- R199 to R201: a stage that ends within its budget leaves its units idle and reserved; at the budget's end the
reservation goes with a stage record of its slack and run; one that has not ended by then is stopped and recorded. -/
def StageAndReservationEnd : Prop :=
  (∀ (s : State) (k n p : Nat) (r : Reservation), k < 8 → resvOf s k n p = some r → r.ended = none → r.entry.kind = 0 →
    s.tmb.free < r.finish → (∀ u ∈ entryUnits r.entry, stageAtEnd s k n p u = true) →
    ∃ t, exec (.stageEnd k n p) s = .next t ∧ resvOf t k n p = some { r with ended := some s.tmb.free }
      ∧ (∀ u ∈ entryUnits r.entry, unitRun t u = {}))
  ∧ (∀ (s : State) (k n p e : Nat) (r : Reservation), k < 8 → resvOf s k n p = some r → r.ended = some e →
    r.entry.kind = 0 → r.cause = 0 → r.finish ≤ s.tmb.free → (partOf s (tableOf s k).part).step ≠ 2 →
    ∃ t, exec (.reservationEnd k n p) s = .next t ∧ resvOf t k n p = none
      ∧ ∃ g ∈ t.tts.stages, g.table = k ∧ g.slot = n ∧ g.entry = p ∧ g.cause = 0 ∧ g.run = e - r.start
        ∧ g.slack = (r.deadline : Int) - corrected s.tmb r.finish
        ∧ g.status = (if marked s k n r.entry.cell then 3 else 0))
  ∧ (∀ (s : State) (k n p : Nat) (r : Reservation), k < 8 → resvOf s k n p = some r → r.ended = none →
    r.entry.kind = 0 → r.cause = 0 → r.finish ≤ s.tmb.free → (partOf s (tableOf s k).part).step ≠ 2 →
    ∃ t, exec (.reservationEnd k n p) s = .next t ∧ resvOf t k n p = none
      ∧ (∃ g ∈ t.tts.stages, g.table = k ∧ g.slot = n ∧ g.entry = p ∧ g.cause = 1 ∧ g.status = 1)
      ∧ (∀ u ∈ entryUnits r.entry, unitRun t u = {})
      ∧ ∃ f, tabFind? t.hlt.log.recs (s.hlt.log.prod % 4096) = some f ∧ f.code = 3 ∧ f.status = some .hung
        ∧ f.table = k ∧ f.entry = p)

/-- No submission is queued: a change of the tables ends no batch step. -/
abbrev NoneQueued (s : State) : Prop := ∀ p ∈ s.srv.ctxs, p.2.queue = [] ∧ p.2.step = none

/-! ### Chapter 08: fronthaul ports -/

/-- A frame that passes the first four checks of R240 on MAC `mac` and is judged by no policer. -/
abbrev PassesMac (s : State) (mac : Nat) (f : RxFrame) : Prop :=
  mac < 32 ∧ (macOf s mac).link = true ∧ rxHeld s (mac / 4) + f.len ≤ 4 * 2 ^ 20 ∧ f.fcsOk = true ∧ 64 ≤ f.len ∧ f.len ≤ (macOf s mac).maxFrame
    ∧ destOk (macOf s mac) f.dest = true ∧ f.doubleTag = false
    ∧ f.vid = (if (macOf s mac).vid = 0xFFFF then none else some (macOf s mac).vid)
    ∧ policerFor (macOf s mac) f = none

/-- The receive buffer of the MAC's port with a frame taken in (R244). -/
abbrev Buffered (s : State) (mac : Nat) (f : RxFrame) : State :=
  updFh (fun h => { h with rxFill := tabPut h.rxFill (mac / 4) (rxHeld s (mac / 4) + f.len, s.tmb.free) }) s

/-- R240, R244, R255: the first check that fails drops the frame and only moves its counter. -/
def FrameChecks : Prop :=
  (∀ (s : State) (mac : Nat) (f : RxFrame), mac < 32 → (macOf s mac).link = true → 4 * 2 ^ 20 < rxHeld s (mac / 4) + f.len →
    exec (.frameReceive mac f) s
      = .next (macCount (mac / 4 * 4) (fun c => { c with rxOverflow := ctrInc c.rxOverflow }) s))
  ∧ (∀ (s : State) (mac : Nat) (f : RxFrame), mac < 32 → (macOf s mac).link = true → rxHeld s (mac / 4) + f.len ≤ 4 * 2 ^ 20 →
    (f.fcsOk = false ∨ f.len < 64 ∨ (macOf s mac).maxFrame < f.len) →
    exec (.frameReceive mac f) s = .next (macCount mac (fun c => { c with rxFcs := ctrInc c.rxFcs }) (Buffered s mac f)))
  ∧ (∀ (s : State) (mac : Nat) (f : RxFrame), mac < 32 → (macOf s mac).link = true → rxHeld s (mac / 4) + f.len ≤ 4 * 2 ^ 20 →
    f.fcsOk = true → 64 ≤ f.len → f.len ≤ (macOf s mac).maxFrame → destOk (macOf s mac) f.dest = false →
    exec (.frameReceive mac f) s = .next (macCount mac (fun c => { c with rxFiltered := ctrInc c.rxFiltered }) (Buffered s mac f)))
  ∧ (∀ (s : State) (mac : Nat) (f : RxFrame) (i : Nat), mac < 32 → (macOf s mac).link = true → rxHeld s (mac / 4) + f.len ≤ 4 * 2 ^ 20 →
    f.fcsOk = true → 64 ≤ f.len → f.len ≤ (macOf s mac).maxFrame → destOk (macOf s mac) f.dest = true →
    f.doubleTag = false → f.vid = (if (macOf s mac).vid = 0xFFFF then none else some (macOf s mac).vid) →
    policerFor (macOf s mac) f = some i → (tabGet (macOf s mac).policers i {}).tokens < f.len →
    exec (.frameReceive mac f) s = .next (macCount mac (fun c => { c with rxPoliced := ctrInc c.rxPoliced }) (Buffered s mac f)))
  ∧ (∀ (s : State) (mac : Nat) (f : RxFrame) (u : UPacket), PassesMac s mac f → f.etype = 0xAEFE → f.upacket = some u →
    (u.revision ≠ 1 ∨ u.cbit = true ∨ u.msgType ≠ 0 ∨ u.sizeOk = false ∨ u.ebit = false) →
    exec (.frameReceive mac f) s = .next (macCount mac (fun c => { c with rxBad := ctrInc c.rxBad }) (Buffered s mac f)))

/-- R231, R232, R238, R241, R242: a well-formed U-plane packet of one PRB: early or late it is dropped whole, inside its
window its PRB is written where the layout says, once. Its arrival is its timestamp at the land (R261). -/
def ReceiveWindow : Prop :=
  ∀ (s : State) (mac id n : Nat) (f : RxFrame) (u : UPacket) (b : FhBinding) (x : USection) (bytes : List Byte),
    PassesMac s mac f → f.etype = 0xAEFE → f.upacket = some u → u.revision = 1 → u.cbit = false → u.msgType = 0 →
    u.sizeOk = true → u.ebit = true → bindingFor s mac u.eaxc = some (id, b) → packetOk b u = true →
    packetSlot s b u (rxStamp s mac f.cap16).1 = some n → symBound b n u.symbol = true → u.sections = [x] → x.numPrb = 1 →
    x.prbs = [bytes] → bytes.length = prbBytes b.comp → (b.ecp = true → b.mu = 2) →
    (((rxStamp s mac f.cap16).1 : Int) < airStart s b n u.symbol + b.f0 →
      ∃ t, exec (.frameReceive mac f) s = .next t ∧ t.mem = s.mem
        ∧ (macOf t mac).ctr.rxEarly = ctrInc (macOf s mac).ctr.rxEarly
        ∧ (macOf t mac).ctr.rxFrames = (macOf s mac).ctr.rxFrames)
    ∧ (airStart s b n u.symbol + b.f0 ≤ (rxStamp s mac f.cap16).1 → airStart s b n u.symbol + b.f1 ≤ (rxStamp s mac f.cap16).1 →
      ∃ t, exec (.frameReceive mac f) s = .next t ∧ t.mem = s.mem
        ∧ (macOf t mac).ctr.rxLate = ctrInc (macOf s mac).ctr.rxLate)
    ∧ (airStart s b n u.symbol + b.f0 ≤ (rxStamp s mac f.cap16).1 →
      ((rxStamp s mac f.cap16).1 : Int) < airStart s b n u.symbol + b.f1 → prbPresent s b n u.symbol x.startPrb = false →
      ∃ t, exec (.frameReceive mac f) s = .next t
        ∧ memReadBytes t.mem (dramAt (symAddr b n u.symbol + x.startPrb * prbBytes b.comp)) (prbBytes b.comp) = bytes
        ∧ prbPresent t b n u.symbol x.startPrb = true
        ∧ (macOf t mac).ctr.rxFrames = ctrInc (macOf s mac).ctr.rxFrames)
    ∧ (airStart s b n u.symbol + b.f0 ≤ (rxStamp s mac f.cap16).1 →
      ((rxStamp s mac f.cap16).1 : Int) < airStart s b n u.symbol + b.f1 → prbPresent s b n u.symbol x.startPrb = true →
      ∃ t, exec (.frameReceive mac f) s = .next t ∧ t.mem = s.mem
        ∧ (macOf t mac).ctr.rxDupPrb = ctrInc (macOf s mac).ctr.rxDupPrb)

/-- R235, R242, R243, R286: a window's open clears the symbol's presence bitmap; the post comes once the window has closed, with the
missing PRBs counted, and each PRB is unpacked, a missing one as zero. -/
def SymbolWindows : Prop :=
  (∀ (s : State) (id n k : Nat) (b : FhBinding), id < 4096 → k < 14 → tabFind? s.fh.binds id = some b → b.down = false →
    airStart s b n k + b.f0 ≤ corrNow s →
    ∃ t, exec (.windowOpen id n k) s = .next t ∧ (∀ p < 512, prbPresent t b n k p = false)
      ∧ (∀ a, (a < dramAt (bitmapAddr b n k) ∨ dramAt (bitmapAddr b n k) + 64 ≤ a) → memRead t.mem a = memRead s.mem a)
      ∧ t.fh = s.fh)
  ∧ (∀ (s : State) (id n k : Nat) (b : FhBinding), id < 4096 → k < 14 → tabFind? s.fh.binds id = some b → b.down = false →
    (bindCell s b).state ≠ .standby → airStart s b n k + b.f1 ≤ corrNow s → symBound b n k = true →
    (∀ p, b.posted = some p → p < symAbs b n k) → b.consumer ≠ 0xFF → (sbOf s b.consumer b.entry).valid = true →
    (sbOf s b.consumer b.entry).producer = 0xF0 → sbOcc (sbOf s b.consumer b.entry) < (sbOf s b.consumer b.entry).slots →
    ∃ t, exec (.symbolPost id n k) s = .next t
      ∧ (sbOf t b.consumer b.entry).produced = ((sbOf s b.consumer b.entry).produced + 1) % 65536
      ∧ tabGet (sbOf t b.consumer b.entry).lens
          ((sbOf s b.consumer b.entry).produced % (sbOf s b.consumer b.entry).slots) 0 = stride b / 64
      ∧ (macOf t b.mac).ctr.rxMissingPrb = ctrAdd (macOf s b.mac).ctr.rxMissingPrb (missingPrbs s b n k)
      ∧ (∀ p < b.prbCount, readParts t (captureAt (symSamples id b n k + 48 * p)) 24
          = if prbPresent s b n k p then (unpackPrb s b n k p).1 else List.replicate 24 0)
      ∧ (∀ a, (a < captureAt (symSamples id b n k) ∨ captureAt (symSamples id b n k) + 48 * b.prbCount ≤ a) →
          memRead t.mem a = memRead s.mem a)
      ∧ exec (.symbolPost id n k) t = .next t)

/-- R230, R231, R234, R245 to R247: at its release tick a downlink symbol that takes one packet, and a C-plane message, enter Q1 and
Q0 as their frames with the binding's next sequence identity; a symbol is released once. -/
def Releases : Prop :=
  (∀ (s : State) (id n k : Nat) (b : FhBinding), id < 4096 → k < 14 → tabFind? s.fh.binds id = some b → b.down = true →
    airStart s b n k - b.f0 ≤ corrNow s → cellSends s b n = true → slotIdle s b n = false →
    (∀ p, b.released = some p → p < symAbs b n k) → 0 < b.prbCount → b.prbCount ≤ packetPrbs (macOf s b.mac) b.comp →
    (queueOf (macOf s b.mac) 1).pkts.length < (queueOf (macOf s b.mac) 1).depth →
    ∃ t, exec (.uplaneRelease id n k) s = .next t
      ∧ (queueOf (macOf t b.mac) 1).pkts = insertPkt
          { bytes := fhFrame s b n k 0 (uHead (Config.sectionId b.eaxc 0 % 4096) 0 b.prbCount (compHdrOf b.comp)
              ++ ((List.range b.prbCount).map (fun p => (sentPrb s id b n k p).1)).flatten), key := (s.tmb.free, id) }
          (queueOf (macOf s b.mac) 1).pkts
      ∧ tabFind? t.fh.binds id = some { b with txSeq := (b.txSeq + 1) % 256, released := some (symAbs b n k) }
      ∧ t.mem = s.mem ∧ t.tts = s.tts ∧ exec (.uplaneRelease id n k) t = .next t)
  ∧ (∀ (s : State) (id n k : Nat) (b : FhBinding) (msg : CPlane), id < 4096 → k < 14 → cplaneOk msg = true →
    tabFind? s.fh.binds id = some b → airStart s b n k - b.f2 ≤ corrNow s → cellSends s b n = true →
    (queueOf (macOf s b.mac) 0).pkts.length < (queueOf (macOf s b.mac) 0).depth →
    ∃ t, exec (.cplaneRelease id n k msg) s = .next t
      ∧ (queueOf (macOf t b.mac) 0).pkts = insertPkt { bytes := fhFrame s b n k 2 (cBody msg), key := (s.tmb.free, id) }
          (queueOf (macOf s b.mac) 0).pkts
      ∧ tabFind? t.fh.binds id = some { b with txSeq := (b.txSeq + 1) % 256 } ∧ t.mem = s.mem)

/-- R248, R249, R254, R261: with the link free an eligible Q0 sends its head frame with its timestamp whatever the other queues hold;
under profile A a frame on the wire is left alone; under profile B it is cut at a fragment's end for an eligible Q0. -/
def TransmitSelection : Prop :=
  (∀ (s : State) (mac : Nat) (p : TxPkt) (r : List TxPkt), mac < 32 → (macOf s mac).link = true →
    (∀ x, (macOf s mac).sending = some x → x.finish ≤ s.tmb.free) → eligible s mac 0 = true →
    (∀ x, (macOf s mac).preempted = some x → x.1 ≠ 0) → (queueOf (macOf s mac) 0).pkts = p :: r →
    ∃ t, exec (.transmitSelect mac) s = .next t ∧ (queueOf (macOf t mac) 0).pkts = r
      ∧ (macOf t mac).sending = some { queue := 0, start := s.tmb.free,
                                       finish := s.tmb.free + ((pktLen (macOf s mac) p + 20) * 1572864 + macRate s mac * 100000 - 1)
                                         / (macRate s mac * 100000),
                                       left := pktLen (macOf s mac) p, pkt := p }
      ∧ ((queueOf (macOf s mac) 0).rate ≠ 0 → (queueOf (macOf t mac) 0).tokens
          = (queueOf (macOf s mac) 0).tokens - (pktLen (macOf s mac) p + 20))
      ∧ (macOf t mac).ctr.txFrames = ctrInc (macOf s mac).ctr.txFrames
      ∧ t.out = s.out ++ [.frame mac 0 (sentFrame (macOf s mac) 0 p
            (ptpNs16 (txStamp s mac s.tmb.free).1 (txStamp s mac s.tmb.free).2.1))
          (txStamp s mac s.tmb.free).1 (txStamp s mac s.tmb.free).2.1 (txStamp s mac s.tmb.free).2.2]
      ∧ ∀ q, q ≠ 0 → (queueOf (macOf t mac) q).pkts = (queueOf (macOf s mac) q).pkts)
  ∧ (∀ (s : State) (mac : Nat) (x : Sending), mac < 32 → (macOf s mac).link = true → (macOf s mac).sending = some x →
    s.tmb.free < x.finish → (macOf s mac).profileB = false → exec (.transmitSelect mac) s = .next s)
  ∧ (∀ (s : State) (mac : Nat) (x : Sending), mac < 32 → (macOf s mac).link = true → (macOf s mac).sending = some x →
    s.tmb.free < x.finish → (macOf s mac).profileB = true → 3 ≤ x.queue → (macOf s mac).preempted = none →
    eligible s mac 0 = true → max 64 ((sentBytes x s.tmb.free (macRate s mac) + 63) / 64 * 64) + 64 ≤ x.left →
    ∃ t c, exec (.transmitSelect mac) s = .next t ∧ c = max 64 ((sentBytes x s.tmb.free (macRate s mac) + 63) / 64 * 64)
      ∧ (macOf t mac).preempted = some (x.queue, x.left - c, x.pkt) ∧ (macOf t mac).queues = (macOf s mac).queues
      ∧ (macOf t mac).sending = some { x with finish := x.start + txTime c (macRate s mac) })

/-- R249, R251 to R253, R255: refills, gate edges and the switch of a gate list. -/
def ShapersAndGates : Prop :=
  (∀ (s : State) (mac q : Nat), mac < 32 → q < 8 → (queueOf (macOf s mac) q).rate ≠ 0 →
    49152000 ≤ (queueOf (macOf s mac) q).frac →
    ∃ t, exec (.shaperRefill mac q) s = .next t
      ∧ queueOf (macOf t mac) q = { queueOf (macOf s mac) q with
          frac := (queueOf (macOf s mac) q).frac - 49152000,
          tokens := min ((queueOf (macOf s mac) q).burst : Int) ((queueOf (macOf s mac) q).tokens + 1) })
  ∧ (∀ (s : State) (mac i : Nat) (p : Policer), mac < 32 → i < 64 → tabFind? (macOf s mac).policers i = some p →
    p.rate ≠ 0 → 49152000 ≤ p.frac →
    ∃ t, exec (.policerRefill mac i) s = .next t
      ∧ tabFind? (macOf t mac).policers i = some { p with frac := p.frac - 49152000, tokens := min p.burst (p.tokens + 1) })
  ∧ (∀ (s : State) (mac : Nat), mac < 32 → ∃ t, exec (.gateEdge mac) s = .next t
      ∧ (macOf t mac).gates = gatesAt (macOf s mac) (corrNow s) ∧ (macOf t mac).queues = (macOf s mac).queues)
  ∧ (∀ (s : State) (mac : Nat) (l : GateList), mac < 32 → (macOf s mac).gclPending = some l → switchTick l ≤ corrNow s →
    ∃ t, exec (.gclSwitched mac) s = .next t ∧ (macOf t mac).gcl = l ∧ (macOf t mac).gclPending = none
      ∧ (macOf t mac).gclTick = switchTick l)
  ∧ (∀ l : GateList, l.cycle ≠ 0 → l.base ≤ l.change →
      l.change ≤ switchTick l ∧ switchTick l < l.change + l.cycle ∧ (switchTick l - l.base) % l.cycle = 0)

/-- R256: an ETH_TX entry that passes its checks leaves its ring for the queue it names and completes with SUCCESS; a queue
outside 3 to 7, a bad length and a full queue complete with their statuses and send nothing. -/
def HostFrames : Prop :=
  ∀ (s : State) (ring tag k mac q len : Nat) (body : List Byte) (r : Ring), ring < 4096 →
    headMsg s ring 4 = some (0x60, tag, k, body) → ringOf s ring = some r → mac = field body 10 1 → q = field body 11 1 →
    len = field body 8 2 → macPresent s mac = true →
    (60 ≤ len → len ≤ (macOf s mac).maxFrame - 4 → 3 ≤ q → q ≤ 7 → inTarget s r.part (field body 0 8) len = true →
      (queueOf (macOf s mac) q).pkts.length < (queueOf (macOf s mac) q).depth →
      ∃ t o, exec (.ethTx ring) s = .next t ∧ t.out = o ++ [.ringDone ring tag .success]
        ∧ (queueOf (macOf t mac) q).pkts = insertPkt
            { bytes := hdmRead s (field body 0 8) len, tagged := false, key := (s.tmb.free, 0) } (queueOf (macOf s mac) q).pkts)
    ∧ (len ≠ 0 → (q < 3 ∨ 7 < q) →
      ∃ t o, exec (.ethTx ring) s = .next t ∧ t.out = o ++ [.ringDone ring tag .badField] ∧ t.fh = s.fh)
    ∧ (3 ≤ q → q ≤ 7 → 0 < len → len < 60 →
      ∃ t o, exec (.ethTx ring) s = .next t ∧ t.out = o ++ [.ringDone ring tag .badLength] ∧ t.fh = s.fh)
    ∧ (len = 0 → ∃ t o, exec (.ethTx ring) s = .next t ∧ t.out = o ++ [.ringDone ring tag .success] ∧ t.fh = s.fh)

/-! ### Chapter 09: radio -/

/-- R275: one lift of a min-sum row: what a column receives is the least magnitude of the other columns less the offset, at
most 127, with the product of their signs. -/
def MinSumRow : Prop :=
  ∀ (offset : Nat) (t : List Int) (i : Nat), 2 ≤ t.length → i < t.length →
    (rowLift offset t).getD i 0
      = ((min ((((t.eraseIdx i).map Int.natAbs).min?.getD 0) - offset) 127 : Nat) : Int)
        * ((t.eraseIdx i).map signOf).foldl (fun a b => a * b) 1

/-- Engine `eng` is in service and its oldest posted job stands in slot `x` of entry `e` (R93). -/
abbrev JobPosted (s : State) (eng e : Nat) (x : PostRec × Nat × Nat) : Prop :=
  inService s eng = true ∧ headEntry s eng = some e ∧ headSlot s eng e = x

/-- R272, R274, R276, R277: the input phase of the oldest posted job of a decoder. Its end comes its cycles after the post and the
phase of the job before; then the slot is free again. -/
def LdpcInput : Prop :=
  ∀ (s : State) (eng e : Nat) (x : PostRec × Nat × Nat) (j : LdJob) (fin : Nat), isLd eng = true → JobPosted s eng e x →
    j = jobAt s x.2.1 → fin = max x.1.tick (engOf s eng).inEnd + codeTicks (16 + cdiv j.e 64 + (if j.combine then cdiv j.ncb 512 else 0)) →
    (ldJobOk s.grade j = true → j.e ≠ 0 → j.e % j.qm = 0 → 0 < j.ncb → fin ≤ s.tmb.free → (j.combine = true → s.hlt.bad = []) →
      ∃ t g, exec (.ldInputPhase eng) s = .next t ∧ (engOf t eng).inp = (engOf s eng).inp ++ [g] ∧ g.job = j ∧ g.src = x.1
        ∧ g.cause = 0 ∧ g.done = fin
        ∧ g.b = recover j (if j.combine then (List.range j.ncb).map (fun i => byteInt (memRead s.mem (dramAt (j.sbAddr + i))))
              else List.replicate j.ncb 0)
            (deinterleave j.qm ((jobData s x.2.1 j.e).map (fun b => sat7 b.toInt)))
        ∧ g.b.length = j.ncb ∧ (j.combine = false → ∀ v ∈ g.b, -127 ≤ v ∧ v ≤ 127)
        ∧ (engOf t eng).dec = (engOf s eng).dec ∧ t.grd = (sbRelease eng e s).grd ∧ t.mem = s.mem)
    ∧ (∀ i, ldJobOk s.grade j = true → j.e ≠ 0 → fin ≤ s.tmb.free → j.combine = true → i < j.ncb →
      meetsBad s (dramAt (j.sbAddr + i / 64 * 64)) 64 = true →
      ∃ t g, exec (.ldInputPhase eng) s = .next t ∧ (engOf t eng).inp = (engOf s eng).inp ++ [g] ∧ g.job = j ∧ g.cause = 4
        ∧ (softRead s j).1.getD i 0 = 0 ∧ t.mem = s.mem)
    ∧ (ldJobOk s.grade j = false → ∃ t, exec (.ldInputPhase eng) s = .next t
        ∧ (engOf t eng).result = some { tag := j.tag, cause := 1 } ∧ (engOf t eng).inp = (engOf s eng).inp
        ∧ t.grd = (sbRelease eng e s).grd ∧ t.mem = s.mem)
    ∧ (ldJobOk s.grade j = true → j.e = 0 → ∃ t, exec (.ldInputPhase eng) s = .next t
        ∧ (engOf t eng).result = some { tag := j.tag, cause := 2 } ∧ (engOf t eng).inp = (engOf s eng).inp
        ∧ t.grd = (sbRelease eng e s).grd ∧ t.mem = s.mem)
    ∧ (ldJobOk s.grade j = true → j.e ≠ 0 → s.tmb.free < fin → exec (.ldInputPhase eng) s = .next s)

/-- R275 to R277, R290: the decode and output phases of a decoder's oldest job. -/
def LdpcDecoding : Prop :=
  (∀ (s : State) (eng fin : Nat) (g : LdStage) (rest : List LdStage), isLd eng = true → (engOf s eng).inp = g :: rest →
    fin = max g.done (engOf s eng).decEnd + codeTicks (54 + g.job.iterations * g.job.rows * (8 + 8 * cdiv g.job.zc 128)) →
    fin ≤ s.tmb.free → (∀ v ∈ g.b, -128 ≤ v ∧ v ≤ 127) →
    ∃ t h, exec (.ldDecodePhase eng) s = .next t ∧ (engOf t eng).inp = rest ∧ (engOf t eng).dec = (engOf s eng).dec ++ [h]
      ∧ h.job = g.job ∧ h.src = g.src ∧ h.b = g.b ∧ h.done = fin ∧ h.post.length = bgCols g.job.bg * g.job.zc
      ∧ (∀ v ∈ h.post, -512 ≤ v ∧ v ≤ 511) ∧ h.conv ≤ g.job.iterations
      ∧ (g.job.iterations = 0 → h.post = ldStart g.job g.b) ∧ t.mem = s.mem)
  ∧ (∀ (s : State) (eng fin : Nat) (g : LdStage) (rest : List LdStage) (info : List Bool) (marked : Bool), isLd eng = true →
    (engOf s eng).dec = g :: rest →
    fin = max g.done (engOf s eng).outEnd
      + codeTicks (8 + cdiv (kInfo g.job) 512 + (if g.job.writeBack then cdiv g.job.ncb 512 else 0)) → fin ≤ s.tmb.free →
    info = (g.post.take (kInfo g.job)).map (fun v => decide (v < 0)) →
    marked = s.cde.marks.contains (g.src.table, g.src.slot, g.src.cell, true) →
    ∃ t r, exec (.ldOutputPhase eng) s = .next t ∧ (engOf t eng).dec = rest ∧ (engOf t eng).outEnd = fin
      ∧ (engOf t eng).result = some r
      ∧ r.tag = g.job.tag ∧ r.conv = g.conv ∧ r.iters = g.job.iterations ∧ r.bits.length = info.length
      ∧ (g.job.cbCrc = true → (r.crcOk = true ↔ crc24bOk info = true ∧ g.cause = 0)) ∧ r.cause = g.cause + (if marked then 8 else 0)
      ∧ tabGet t.cde.cbFailed g.src.table 0 = tabGet s.cde.cbFailed g.src.table 0 + (if r.cause ≠ 0 ∨ r.crcOk = false then 1 else 0)
      ∧ (g.job.writeBack = true → marked = false → (g.cause = 4 ∨ g.job.cbCrc = false ∨ crc24bOk info = false) →
          (∀ i < g.b.length, memRead t.mem (dramAt (g.job.sbAddr + i)) = BitVec.ofInt 8 (g.b.getD i 0))
          ∧ ∀ a, (a < dramAt g.job.sbAddr ∨ dramAt g.job.sbAddr + g.b.length ≤ a) → memRead t.mem a = memRead s.mem a)
      ∧ ((g.job.writeBack = false ∨ marked = true ∨ (g.cause ≠ 4 ∧ g.job.cbCrc = true ∧ crc24bOk info = true)) → t.mem = s.mem))
  ∧ (∀ (s : State) (eng : Nat) (g : LdStage) (rest : List LdStage), isLd eng = true →
    ((engOf s eng).inp = g :: rest → s.tmb.free < max g.done (engOf s eng).decEnd
        + codeTicks (54 + g.job.iterations * g.job.rows * (8 + 8 * cdiv g.job.zc 128)) → exec (.ldDecodePhase eng) s = .next s)
    ∧ ((engOf s eng).inp = [] → exec (.ldDecodePhase eng) s = .next s)
    ∧ ((engOf s eng).dec = [] → exec (.ldOutputPhase eng) s = .next s))

/-- R278, R279, R293: encoders and polar engines complete their oldest posted job, in range, at the end of its cycles, with its tag,
release its slot and touch no memory; an encoding job out of range gives cause 1. That a polar job with a mother length the rule
does not name is released without a result is the model's choice (assumption 163). -/
def EncodersAndPolar : Prop :=
  ∀ (s : State) (eng e : Nat) (x : PostRec × Nat × Nat), JobPosted s eng e x →
    (∀ (j : LdJob) (rows fin : Nat), isLe eng = true → j = jobAt s x.2.1 →
      rows = rowsFor j.bg (highColumn { bg := j.bg, zc := j.zc, filler := j.filler, e := j.e, ncb := j.ncb } j.rv) →
      fin = max x.1.tick (engOf s eng).outEnd + codeTicks (38 + 2 * rows * cdiv j.zc 128 + cdiv j.e 128) →
      j.bg ≤ 1 → zcOk j.zc = true → j.filler < 16384 → j.e < 262144 → j.rv ≤ 3 → qmOk j.qm = true → j.ncb < 131072 →
      (fin ≤ s.tmb.free → ∃ t r, exec (.leJob eng) s = .next t ∧ (engOf t eng).result = some r ∧ r.tag = j.tag ∧ r.cause = 0
        ∧ (engOf t eng).outEnd = fin ∧ t.grd = (sbRelease eng e s).grd ∧ t.mem = s.mem ∧ t.fresh = s.fresh)
      ∧ (s.tmb.free < fin → exec (.leJob eng) s = .next s))
    ∧ (∀ j, isLe eng = true → j = jobAt s x.2.1 → max x.1.tick (engOf s eng).outEnd ≤ s.tmb.free →
      (1 < j.bg ∨ zcOk j.zc = false ∨ 3 < j.rv ∨ qmOk j.qm = false) →
      ∃ t, exec (.leJob eng) s = .next t ∧ (engOf t eng).result = some { tag := j.tag, cause := 1 }
        ∧ t.grd = (sbRelease eng e s).grd ∧ t.mem = s.mem)
    ∧ (∀ (j : CodeJob), 0xD0 ≤ eng → eng < 0xD8 →
      (motherOk j.mother = true → max x.1.tick (engOf s eng).outEnd + codeTicks (pdCycles j.mother j.k j.e) ≤ s.tmb.free →
        ∃ t r, exec (.pdJob eng j) s = .next t ∧ (engOf t eng).result = some r ∧ r.tag = j.tag ∧ r.cause = 0
          ∧ t.grd = (sbRelease eng e s).grd ∧ t.mem = s.mem)
      ∧ (motherOk j.mother = false → exec (.pdJob eng j) s = .next (sbRelease eng e s)))
    ∧ (∀ (j : CodeJob), 0xD8 ≤ eng → eng < 0xDC →
      (motherOk j.mother = true → max x.1.tick (engOf s eng).outEnd + codeTicks (peCycles j.mother j.e) ≤ s.tmb.free →
        ∃ t r, exec (.peJob eng j) s = .next t ∧ (engOf t eng).result = some r ∧ r.tag = j.tag ∧ r.cause = 0
          ∧ t.grd = (sbRelease eng e s).grd ∧ t.mem = s.mem)
      ∧ (motherOk j.mother = false → exec (.peJob eng j) s = .next (sbRelease eng e s)))

/-- R284, R285: a preamble is reported exactly when the peak of its zone reaches both thresholds, in ascending order; the
peak is the largest power of the zone, at the lowest offset that has it. -/
def PrachDetection : Prop :=
  ∀ (o : Prach) (pw : Nat → Nat → Nat) (thr fl : Nat),
    (∀ i < min 64 o.preambles.length,
      ((∃ e ∈ prachDetect thr fl o pw, e.1 = i)
        ↔ thr * prachNoise o pw ≤ (zonePeak o pw (o.preambles.getD i (0, 0))).1 * 256
          ∧ fl ≤ (zonePeak o pw (o.preambles.getD i (0, 0))).1))
    ∧ (prachDetect thr fl o pw).Pairwise (fun a b => a.1 < b.1) ∧ (prachDetect thr fl o pw).length ≤ 64
    ∧ (∀ q d, d < zoneSpan o → pw q.1 ((zoneStart o q.2 + d) % prachSize o) ≤ (zonePeak o pw q).1)
    ∧ (∀ q, (zonePeak o pw q).1 ≠ 0 → (zonePeak o pw q).2 < zoneSpan o
        ∧ pw q.1 ((zoneStart o q.2 + (zonePeak o pw q).2) % prachSize o) = (zonePeak o pw q).1
        ∧ ∀ d < (zonePeak o pw q).2, pw q.1 ((zoneStart o q.2 + d) % prachSize o) < (zonePeak o pw q).1)
    ∧ (∀ e ∈ prachDetect thr fl o pw, ∃ d, (0 < zoneSpan o → d < zoneSpan o) ∧ e.2.1 = d * 1966080000 / (prachSize o * o.spacing))

/-- R287, R292: GAIN_SET takes effect at the first slot not yet sealed, two slots ahead or later; STAGE_RECORDS reads. -/
def GainsAndStageRecords : Prop :=
  (∀ (s : State) (m : Nat) (c : Cmd) (p cell dir ant gm : Nat) (ge : Int), Due s m 0x04A0 c → targetOf m c = p → p < 64 →
    cell = field c.payload 0 1 → dir = field c.payload 1 1 → ant = field c.payload 2 1 → ge = fieldInt c.payload 3 1 →
    gm = field c.payload 4 2 →
    (dir ≤ 1 → gm ≤ 32767 → -16 ≤ ge → ge ≤ 15 → cell < 64 → (cellOf s p cell).state ≠ .absent →
      (∃ b ∈ s.fh.binds, b.2.part = p ∧ b.2.cell = cell ∧ b.2.down = (dir == 1) ∧ b.2.ant = ant) →
      ∃ t n, exec (.gainSet m) s = .next t ∧ Answered t m c .success (leBytes 8 (tStart s (cellTable s p) n))
        ∧ slotAt s.win.frameOfs (cellTable s p).mu (cellTable s p).ecp (corrNow s) + 2 ≤ n
        ∧ ((cellTable s p).state = .armed ∨ (cellTable s p).state = .running ∨ (cellTable s p).state = .stopping →
          sealedThrough (cellTable s p) < n)
        ∧ tabGet (cellOf t p cell).nextGains n [] = tabGet (cellOf s p cell).nextGains n [] ++ [(dir * 64 + ant, (gm : Int), ge)]
        ∧ (cellOf t p cell).gains = (cellOf s p cell).gains ∧ t.mem = s.mem)
    ∧ ((1 < dir ∨ 32767 < gm ∨ ge < -16 ∨ 15 < ge) →
      ∃ t, exec (.gainSet m) s = .next t ∧ Answered t m c .badField [] ∧ t.cells = s.cells)
    ∧ (cell < 64 → (cellOf s p cell).state ≠ .absent →
      (∀ b ∈ s.fh.binds, ¬(b.2.part = p ∧ b.2.cell = cell ∧ b.2.down = (dir == 1) ∧ b.2.ant = ant)) →
      ∃ t, exec (.gainSet m) s = .next t ∧ Answered t m c .badField [] ∧ t.cells = s.cells)
    ∧ (dir ≤ 1 → gm ≤ 32767 → -16 ≤ ge → ge ≤ 15 → cell < 64 → (cellOf s p cell).state = .absent →
      ∃ t, exec (.gainSet m) s = .next t ∧ Answered t m c .cellState [] ∧ t.cells = s.cells))
  ∧ (∀ (s : State) (m : Nat) (c : Cmd) (p k : Nat), Due s m 0x04A1 c → targetOf m c = p → p ≠ 0xFF →
    partTable s p = some k →
    (120 < field c.payload 10 2 → ∃ t, exec (.stageRecords m) s = .next t ∧ Answered t m c .badField [] ∧ t.tts = s.tts)
    ∧ (field c.payload 10 2 ≤ 120 → slotRun s k (field c.payload 0 8) = none →
      ∃ t, exec (.stageRecords m) s = .next t ∧ Answered t m c .timeRange [] ∧ t.tts = s.tts)
    ∧ (∀ n, field c.payload 10 2 ≤ 120 → slotRun s k (field c.payload 0 8) = some n →
      ∃ (t : State) (l : List StageRec), exec (.stageRecords m) s = .next t ∧ Answered t m c .success (l.flatMap stageBytes) ∧ t.tts = s.tts
        ∧ l.length ≤ field c.payload 10 2 ∧ l.Pairwise (fun a b => a.entry ≤ b.entry)
        ∧ ∀ r ∈ l, r ∈ s.tts.stages ∧ r.table = k ∧ r.slot = n ∧ field c.payload 8 2 ≤ r.entry))
  ∧ (∀ (s : State) (m : Nat) (c : Cmd), Due s m 0x04A1 c → (targetOf m c = 0xFF ∨ partTable s (targetOf m c) = none) →
    ∃ t, exec (.stageRecords m) s = .next t ∧ Answered t m c .partitionState [] ∧ t.tts = s.tts)

/-! ### Chapter 10: cells and twins -/

/-- R294: the cost of a cell is the least number of 64ths, at least 1, that covers every term of the rule. -/
abbrev costCovers (x : CellConfig) (n : Nat) : Prop :=
  64 * 2 ^ x.mu * max x.prbDl x.prbUl * max x.antTx x.antRx ≤ n * 2184
  ∧ 64 * 2 ^ x.mu * x.prbUl * x.layersUl ≤ n * 2184
  ∧ (if x.fdd then 64 * 2 ^ x.mu * x.prbUl * x.layersUl * 4 ≤ n * 2184
      else 64 * 2 ^ x.mu * x.prbUl * x.layersUl * 4 * x.uSlots ≤ n * 2184 * x.periodSlots)
  ∧ 64 * 2 ^ x.mu * x.prbDl * x.layersDl ≤ n * 2184

/-- R304: what admission keeps holds every budget and every count; each PDU is kept or reported, once. -/
def Admission : Prop :=
  ∀ (x : Cell) (sweep : Pdu → Bool) (h : SlotHold),
    (∀ k < 6, demandOf x k (admitPdus x sweep h).1 ≤ classBudget x k)
    ∧ (∀ (kd : PduKind) (up : Bool),
        ((admitPdus x sweep h).1.filter (fun c => c.pdu.kind = kd && c.up = up)).length ≤ kindLimit kd)
    ∧ (∀ c ∈ (admitPdus x sweep h).1, c ∈ candidates h ∧ pduSupported c.pdu = true ∧ sweep c.pdu = false
        ∧ overLayers (admitPdus x sweep h).1 c = false)
    ∧ (∀ c ∈ candidates h, (c ∈ (admitPdus x sweep h).1
        ↔ ¬ ∃ r ∈ (admitPdus x sweep h).2, r.1 = c.up ∧ r.2.2.2 = c.idx))
    ∧ ((admitPdus x sweep h).2.Pairwise (fun a b => ¬ (a.1 = b.1 ∧ a.2.2.2 = b.2.2.2)))

/-- R281 to R283: a new transmission frees its process's slot and takes a free one of the pool; a retransmission keeps it, and one
whose process holds no slot, is marked, or comes too early is decoded without combining and counts its code blocks. -/
def HarqCombining : Prop :=
  ∀ (x : Cell) (n : Nat) (early : Bool) (p : Pdu),
    (p.newData = true → (harqStart x n early p).2 = 0
      ∧ ∀ k, (tabGet (harqStart x n early p).1.harq p.harq {}).slot = some k →
          k < x.cfg.poolSlots ∧ ∀ h ∈ x.harq, h.1 ≠ p.harq → h.2.slot ≠ some k)
    ∧ (p.newData = false → ((tabGet x.harq p.harq {}).slot = none ∨ (tabGet x.harq p.harq {}).noCombine = true ∨ early = true) →
        (harqStart x n early p).2 = (p.blocks.map (fun b => b.count)).sum
        ∧ (tabGet (harqStart x n early p).1.harq p.harq {}).noCombine = false
        ∧ (tabGet (harqStart x n early p).1.harq p.harq {}).slot = (tabGet x.harq p.harq {}).slot)
    ∧ (∀ k, p.newData = false → (tabGet x.harq p.harq {}).slot = some k → (tabGet x.harq p.harq {}).noCombine = false →
        early = false → (harqStart x n early p).2 = 0
        ∧ (tabGet (harqStart x n early p).1.harq p.harq {}).slot = some k
        ∧ (tabGet (harqStart x n early p).1.harq p.harq {}).last = some n
        ∧ (tabGet x.harq p.harq {}).high ≤ (tabGet (harqStart x n early p).1.harq p.harq {}).high)

/-- R297 to R300, R314: the cell commands. -/
def CellCommands : Prop :=
  (∀ (s : State) (m : Nat) (c : Cmd) (p cell : Nat) (x : CellConfig), Due s m 0x0400 c → targetOf m c = p →
    cell = field c.payload 0 1 → x = cellConfig { m := m, target := p, cmd := c } →
    (p < 64 → (partOf s p).radio = true → (cellTable s p).state ≠ .empty → (cell < 64 → (cellOf s p cell).state = .absent) →
      x.bindCount ≠ 0 → x.poolSlots ≠ 0 → x.ldIter ≠ 0 → x.ulDeliver ≠ 0 → (x.fdd = false → x.periodSlots ≠ 0) →
      cfgOk s p cell x = true → tmplAgrees (cellTable s p) x = true → inShare s p x.indBase x.indLen = true →
      inShare s p x.bindList (16 * x.bindCount) = true →
      (partCost s p + cellCost x ≤ (partOf s p).cuQuota → allCost s + cellCost x ≤ 64 * s.dev.radioCuMax →
        allPools s + poolUnits x ≤ 7168 * 16 →
        ∀ room, poolRoom s (cellStack (cellTable s p) cell) (poolUnits x * 65536) = some room →
        (∀ u, makeBindings p cell x
            ((List.range x.bindCount).map (fun i => hdmRead s (x.bindList + 16 * i) 16)) s = .ok u →
          ∃ t, exec (.cellCreate m) s = .next t ∧ Answered t m c .success (leBytes 2 (cellCost x))
            ∧ (cellOf t p cell).cfg = x ∧ (cellOf t p cell).cost64 = cellCost x
            ∧ (cellOf t p cell).state = (if x.standby then .standby else .configured)
            ∧ (cellOf t p cell).softBase = radioBase s.grade (cellStack (cellTable s p) cell) 1 + room
            ∧ (cellOf t p cell).role = .unpaired ∧ t.fh = u.fh ∧ t.mem = s.mem)
        ∧ (∀ st, makeBindings p cell x
            ((List.range x.bindCount).map (fun i => hdmRead s (x.bindList + 16 * i) 16)) s = .error st →
          ∃ t, exec (.cellCreate m) s = .next t ∧ Answered t m c st [] ∧ t.cells = s.cells ∧ t.fh = s.fh))
      ∧ ((partOf s p).cuQuota < partCost s p + cellCost x →
        ∃ t, exec (.cellCreate m) s = .next t ∧ Answered t m c .quota [] ∧ t.cells = s.cells ∧ t.fh = s.fh)
      ∧ (partCost s p + cellCost x ≤ (partOf s p).cuQuota → allCost s + cellCost x ≤ 64 * s.dev.radioCuMax →
        7168 * 16 < allPools s + poolUnits x →
        ∃ t, exec (.cellCreate m) s = .next t ∧ Answered t m c .noResource [] ∧ t.cells = s.cells ∧ t.fh = s.fh)
      ∧ (partCost s p + cellCost x ≤ (partOf s p).cuQuota → 64 * s.dev.radioCuMax < allCost s + cellCost x →
        ∃ t, exec (.cellCreate m) s = .next t ∧ Answered t m c .overBudget [] ∧ t.cells = s.cells ∧ t.fh = s.fh))
    ∧ ((64 ≤ p ∨ (partOf s p).radio = false ∨ (cellTable s p).state = .empty) →
      ∃ t, exec (.cellCreate m) s = .next t ∧ Answered t m c .partitionState [] ∧ t.cells = s.cells ∧ t.fh = s.fh)
    ∧ (p < 64 → (partOf s p).radio = true → (cellTable s p).state ≠ .empty → cell < 64 → (cellOf s p cell).state ≠ .absent →
      ∃ t, exec (.cellCreate m) s = .next t ∧ Answered t m c .cellState [] ∧ t.cells = s.cells ∧ t.fh = s.fh))
  ∧ (∀ (s : State) (m : Nat) (c : Cmd) (p cell : Nat), Due s m 0x0401 c → targetOf m c = p → p < 64 →
    cell = field c.payload 0 1 → cell < 64 →
    (((cellOf s p cell).state = .configured ∨ (cellOf s p cell).state = .standby) →
      ∃ t, exec (.cellDestroy m) s = .next t ∧ Answered t m c .success [] ∧ cellOf t p cell = {}
        ∧ (∀ b ∈ t.fh.binds, b ∈ s.fh.binds ∧ ¬ (b.2.part = p ∧ b.2.cell = cell)) ∧ t.mem = s.mem)
    ∧ (((cellOf s p cell).state = .running ∨ (cellOf s p cell).state = .stopping ∨ (cellOf s p cell).state = .moving
          ∨ (cellOf s p cell).state = .absent) →
      ∃ t, exec (.cellDestroy m) s = .next t ∧ Answered t m c .cellState [] ∧ t.cells = s.cells ∧ t.fh = s.fh))
  ∧ (∀ (s : State) (m : Nat) (c : Cmd) (p cell : Nat), Due s m 0x0402 c → targetOf m c = p → p < 64 →
    cell = field c.payload 0 1 → cell < 64 → field c.payload 1 1 ≤ 1 → (cellOf s p cell).state ≠ .absent →
    ∃ t, exec (.cellQuery m) s = .next t ∧ Answered t m c .success (cellRecord s p cell)
      ∧ cellOf t p cell = (if field c.payload 1 1 = 1 then { cellOf s p cell with
          rejected := {}, lateMsgs := {}, mirrorGaps := {}, indDrops := {} } else cellOf s p cell) ∧ t.mem = s.mem)

/-- R307, R308: pairing makes a cell the active and sends its snapshot; unpairing ends it from either side. -/
def TwinPairing : Prop :=
  (∀ (s : State) (m : Nat) (c : Cmd) (p cell dev : Nat), Due s m 0x0403 c → targetOf m c = p → p < 64 →
    cell = field c.payload 0 1 → cell < 64 → dev = field c.payload 2 2 →
    (dev / 64 = s.fab.device / 64 → s.mbr.members.contains (dev % 64) = true →
      ((cellOf s p cell).state = .configured ∨ (cellOf s p cell).state = .running) → (cellOf s p cell).role = .unpaired →
      ∃ t r, exec (.twinPair m true) s = .next t ∧ Answered t m c .success [] ∧ (cellOf t p cell).role = .active
        ∧ (cellOf t p cell).peerDev = dev ∧ (cellOf t p cell).state = (cellOf s p cell).state
        ∧ Out.mirror dev (field c.payload 4 1) (field c.payload 5 1) (.snapshot (s.fab.device, p, cell) r
            (mirrorPdus (cellOf s p cell) r) ((cellOf s p cell).gains.map (fun g => (g.1, g.2.1, g.2.2))) (cellSeqs s p cell) (harqProcs (cellOf s p cell))) ∈ t.out
        ∧ r = (cellOf s p cell).lastSealed ∧ t.mem = s.mem)
    ∧ (dev / 64 = s.fab.device / 64 → s.mbr.members.contains (dev % 64) = true →
      ((cellOf s p cell).role ≠ .unpaired ∨ (cellOf s p cell).state = .standby ∨ (cellOf s p cell).state = .absent) →
      ∃ t, exec (.twinPair m true) s = .next t ∧ Answered t m c .cellState [] ∧ t.cells = s.cells)
    ∧ ((dev / 64 ≠ s.fab.device / 64 ∨ s.mbr.members.contains (dev % 64) = false) →
      ∃ t, exec (.twinPair m true) s = .next t ∧ Answered t m c .twinUnavailable [] ∧ t.cells = s.cells))
  ∧ (∀ (s : State) (m : Nat) (c : Cmd), Due s m 0x0403 c → targetOf m c < 64 →
    ∃ t, exec (.twinPair m false) s = .next t ∧ Answered t m c .twinUnavailable [] ∧ t.cells = s.cells)
  ∧ (∀ (s : State) (m : Nat) (c : Cmd) (p cell : Nat), Due s m 0x0404 c → targetOf m c = p → p < 64 →
    cell = field c.payload 0 1 → cell < 64 →
    ((cellOf s p cell).state ≠ .absent → (cellOf s p cell).role ≠ .unpaired →
      ∃ t, exec (.twinUnpair m) s = .next t ∧ Answered t m c .success [] ∧ (cellOf t p cell).role = .unpaired
        ∧ (cellOf t p cell).peerDev = 0xFFFF ∧ (cellOf t p cell).state = (cellOf s p cell).state ∧ t.mem = s.mem)
    ∧ ((cellOf s p cell).role = .unpaired →
      ∃ t, exec (.twinUnpair m) s = .next t ∧ Answered t m c .cellState [] ∧ t.cells = s.cells))

/-- A FAPI message of an identity waits at the head of a cell's request ring and passes the checks on its entry. -/
abbrev FapiDue (s : State) (ring identity : Nat) (f : FapiIn) : Prop :=
  ring < 4096 ∧ fapiHead s ring = some f ∧ fapiIdentity s f = identity ∧ 8 ≤ f.len ∧ f.len ≤ 1048576
    ∧ inShare s f.part f.ofs f.len = true ∧ f.cell < 64 ∧ (cellOf s f.part f.cell).state ≠ .absent
    ∧ (cellOf s f.part f.cell).cfg.reqRing = ring

/-- R301: a FAPI message out stands whole in the indication area, with one entry on the ring; with no room it is dropped and
counted. -/
def IndicationArea : Prop :=
  ∀ (s : State) (p c identity : Nat) (body : List Byte) (r : Ring) (msg : List Byte),
    (cellOf s p c).state ≠ .absent → ringOf s (cellOf s p c).cfg.indRing = some r →
    msg = leBytes 2 identity ++ leBytes 4 body.length ++ body →
    (r.toHost = true → r.faulted = false → idxSub r.devIdx r.hostIdx < ringSize r → liveSpans s (cellOf s p c) = [] →
      (cellOf s p c).indPos + msg.length + 63 < (cellOf s p c).cfg.indLen →
      (cellOf s p c).cfg.indBase + (cellOf s p c).cfg.indLen ≤ r.base →
      hdmRead (fapi p c identity body s) ((cellOf s p c).cfg.indBase + (cellOf s p c).indPos) msg.length = msg
      ∧ ringOf (fapi p c identity body s) (cellOf s p c).cfg.indRing = some { r with devIdx := (r.devIdx + 1) % 4294967296 }
      ∧ (cellOf (fapi p c identity body s) p c).indDrops = (cellOf s p c).indDrops)
    ∧ ((r.faulted = true ∨ ringSize r ≤ idxSub r.devIdx r.hostIdx) →
      fapi p c identity body s = updCell p c (fun x => { x with indDrops := ctrInc x.indDrops }) s)

/-- R300, R301, R316: the control messages of a cell. -/
def CellControlMessages : Prop :=
  (∀ (s : State) (ring : Nat) (f : FapiIn), FapiDue s ring 0x00 f →
    ((cellOf s f.part f.cell).state ≠ .standby →
      exec (.paramRequest ring) s
        = .next (fapi f.part f.cell 0x01 (paramBody (cellOf s f.part f.cell).cfg) (takeHead ring f.n s)))
    ∧ ((cellOf s f.part f.cell).state = .standby →
      exec (.paramRequest ring) s = .next (errorNow f 0x00 msgInvalidState (takeHead ring f.n s))))
  ∧ (∀ (s : State) (ring : Nat) (f : FapiIn) (items : List ConfigItem), FapiDue s ring 0x02 f →
    ((cellOf s f.part f.cell).state = .configured → (∀ i ∈ items, itemAgrees (cellOf s f.part f.cell).cfg i = true) →
      ∃ t, exec (.configRequest ring items) s = .next t ∧ (cellOf t f.part f.cell).configured = true
        ∧ (cellOf t f.part f.cell).wide = wideItems items ∧ (cellOf t f.part f.cell).state = .configured)
    ∧ (∀ i ∈ items, (cellOf s f.part f.cell).state = .configured → itemAgrees (cellOf s f.part f.cell).cfg i = false →
      exec (.configRequest ring items) s = .next (errorNow f 0x02 msgInvalidConfig (takeHead ring f.n s)))
    ∧ ((cellOf s f.part f.cell).state ≠ .configured →
      exec (.configRequest ring items) s = .next (errorNow f 0x02 msgInvalidState (takeHead ring f.n s))))
  ∧ (∀ (s : State) (ring : Nat) (f : FapiIn), FapiDue s ring 0x04 f →
    ((cellOf s f.part f.cell).state = .configured → (cellOf s f.part f.cell).configured = true →
      ∃ t, exec (.startRequest ring) s = .next t ∧ (cellOf t f.part f.cell).state = .running
        ∧ (cellOf t f.part f.cell).firstSlot = nextIntake s (cellOf s f.part f.cell))
    ∧ (((cellOf s f.part f.cell).state ≠ .configured ∨ (cellOf s f.part f.cell).configured = false) →
      exec (.startRequest ring) s = .next (errorNow f 0x04 msgInvalidState (takeHead ring f.n s))))
  ∧ (∀ (s : State) (ring : Nat) (f : FapiIn), FapiDue s ring 0x05 f → f.part < 64 →
    ((cellOf s f.part f.cell).state = .running →
      ∃ t, exec (.stopRequest ring) s = .next t
        ∧ ((cellOf t f.part f.cell).state = .stopping ∨ (cellOf t f.part f.cell).state = .configured)
        ∧ (cellOf t f.part f.cell).lastSlot = sealedThrough (cellTable s f.part))
    ∧ ((cellOf s f.part f.cell).state ≠ .running →
      exec (.stopRequest ring) s = .next (errorNow f 0x05 msgInvalidState (takeHead ring f.n s))))
  ∧ (∀ (s : State) (ring identity : Nat) (f : FapiIn), FapiDue s ring identity f → identity < 65536 →
    knownIdentity identity = false →
    exec (.unsupportedMessage ring identity) s = .next (errorNow f identity msgInvalidState (takeHead ring f.n s)))
  ∧ (∀ (s : State) (ring : Nat) (f : FapiIn), ring < 4096 → fapiHead s ring = some f → fapiIdentity s f = 0x04 →
    (f.len < 8 ∨ 1048576 < f.len) →
    ∃ t o, exec (.startRequest ring) s = .next t ∧ t.out = o ++ [.ringDone ring f.tag .badLength] ∧ t.cells = s.cells)

/-- What arrives for slot n of a cell is held: it came by the intake line and at most eight slots ahead (R303). -/
abbrev HeldSlot (s : State) (f : FapiIn) (sfn slot n : Nat) : Prop :=
  let x := cellOf s f.part f.cell
  let c := corrected s.tmb f.arr
  let now := slotAt s.win.frameOfs x.cfg.mu x.cfg.ecp c
  x.state = .running ∧ resolveMod (sfn * slotsPerFrame x.cfg.mu + slot) now (1024 * slotsPerFrame x.cfg.mu) = n
    ∧ c ≤ intakeTick s x n ∧ n ≤ now + 8

/-- R302, R303: slot messages are held under their slot; a late one is refused and counted, a second one changes nothing. -/
def SlotMessages : Prop :=
  (∀ (s : State) (ring n : Nat) (f : FapiIn) (msg : SlotMsg), HeldSlot s f msg.sfn msg.slot n →
    (FapiDue s ring 0x80 f → (tabGet (cellOf s f.part f.cell).slots n {}).dl = none →
      ∃ t, exec (.dlTtiRequest ring msg) s = .next t ∧ tabGet (cellOf t f.part f.cell).slots n {}
        = { tabGet (cellOf s f.part f.cell).slots n {} with dl := some msg.pdus })
    ∧ (FapiDue s ring 0x81 f → (tabGet (cellOf s f.part f.cell).slots n {}).ul = none →
      ∃ t, exec (.ulTtiRequest ring msg) s = .next t ∧ tabGet (cellOf t f.part f.cell).slots n {}
        = { tabGet (cellOf s f.part f.cell).slots n {} with ul := some msg.pdus })
    ∧ (FapiDue s ring 0x83 f → (tabGet (cellOf s f.part f.cell).slots n {}).dci = none →
      ∃ t, exec (.ulDciRequest ring msg) s = .next t ∧ tabGet (cellOf t f.part f.cell).slots n {}
        = { tabGet (cellOf s f.part f.cell).slots n {} with dci := some msg.pdus })
    ∧ (FapiDue s ring 0x80 f → (tabGet (cellOf s f.part f.cell).slots n {}).dl ≠ none →
      ∃ t, exec (.dlTtiRequest ring msg) s = .next t
        ∧ (cellOf t f.part f.cell).slots = (cellOf s f.part f.cell).slots))
  ∧ (∀ (s : State) (ring n : Nat) (f : FapiIn) (msg : TxMsg), FapiDue s ring 0x84 f → HeldSlot s f msg.sfn msg.slot n →
    ∃ t, exec (.txDataRequest ring msg) s = .next t ∧ tabGet (cellOf t f.part f.cell).slots n {}
      = { tabGet (cellOf s f.part f.cell).slots n {} with tx := (tabGet (cellOf s f.part f.cell).slots n {}).tx ++ msg.blocks })
  ∧ (∀ (s : State) (ring n : Nat) (f : FapiIn) (msg : PrioMsg), FapiDue s ring 0x180 f → HeldSlot s f msg.sfn msg.slot n →
    (∀ e ∈ msg.entries, e.2.1 < 256 ∧ e.2.2 < 65536) →
    ∃ t, exec (.kPrioRequest ring msg) s = .next t ∧ tabGet (cellOf t f.part f.cell).slots n {}
      = { tabGet (cellOf s f.part f.cell).slots n {} with prio := msg.entries })
  ∧ (∀ (s : State) (ring n : Nat) (f : FapiIn) (msg : SlotMsg) (x : Cell), FapiDue s ring 0x81 f →
    x = cellOf s f.part f.cell → x.state = .running →
    resolveMod (msg.sfn * slotsPerFrame x.cfg.mu + msg.slot) (slotAt s.win.frameOfs x.cfg.mu x.cfg.ecp (corrected s.tmb f.arr))
      (1024 * slotsPerFrame x.cfg.mu) = n → intakeTick s x n < corrected s.tmb f.arr →
    ∃ t, exec (.ulTtiRequest ring msg) s = .next t ∧ (cellOf t f.part f.cell).slots = x.slots
      ∧ (cellOf t f.part f.cell).lateMsgs = ctrInc x.lateMsgs)

/-- R303, R308, R310: at the intake line what is held is admitted; a synced standby takes the cell over at an agreed slot. -/
def IntakeAndTwins : Prop :=
  (∀ (s : State) (p c n : Nat) (h : SlotHold), p < 64 → c < 64 → (cellOf s p c).state = .running →
    (cellOf s p c).firstSlot ≤ n → intakeTick s (cellOf s p c) n ≤ corrNow s → tabFind? (cellOf s p c).slots n = some h →
    ∃ t, exec (.intakeLine p c n) s = .next t ∧ tabFind? (cellOf t p c).slots n = none
      ∧ tabGet (cellOf t p c).admitted n {} =
        { dl := ((admitPdus (cellOf s p c) (meetsSweep s p c n) h).1.filter (fun k => k.up == false)).map (fun k => (k.idx, k.pdu)),
          ul := ((admitPdus (cellOf s p c) (meetsSweep s p c n) h).1.filter (fun k => k.up == true)).map (fun k => (k.idx, k.pdu)) }
      ∧ ((admitPdus (cellOf s p c) (meetsSweep s p c n) h).2 ≠ [] → (cellOf t p c).rejected
          = ctrAdd (cellOf s p c).rejected (admitPdus (cellOf s p c) (meetsSweep s p c n) h).2.length))
  ∧ (∀ (s : State) (p c n : Nat), p < 64 → c < 64 → (cellOf s p c).state = .running → cellSlot s (cellOf s p c) = n →
    exec (.slotIndication p c n) s = .next (fapi p c 0x82 (sfnSlot (cellOf s p c) (n + 2)) s))
  ∧ (∀ (s : State) (p c n : Nat) (who : Nat × Nat × Nat) (d : List (Bool × Nat × Pdu)) (g : List (Nat × Int × Int))
      (q : List (Nat × Nat)) (h : List HarqMirror),
    p < 64 → c < 64 → (cellOf s p c).state = .standby →
    ∃ t, exec (.twinMirrorRecord p c (.snapshot who n d g q h)) s = .next t ∧ (cellOf t p c).synced = true
      ∧ (cellOf t p c).snapshot = true ∧ (cellOf t p c).lastRecord = n ∧ (cellOf t p c).role = .standby
      ∧ (cellOf t p c).peerDev = who.1 ∧ (cellOf t p c).state = .standby ∧ t.mem = s.mem
      ∧ tabGet (cellOf t p c).admitted n {} = { dl := (d.filter (fun e => e.1 == false)).map (fun e => e.2),
                                                ul := (d.filter (fun e => e.1 == true)).map (fun e => e.2) })
  ∧ (∀ (s : State) (p c n : Nat) (d : List (Bool × Nat × Pdu)) (g : List (Nat × Int × Int)) (q : List (Nat × Nat)),
    p < 64 → c < 64 → (cellOf s p c).state = .standby → (cellOf s p c).snapshot = true →
    ∃ t, exec (.twinMirrorRecord p c (.schedule n d q g)) s = .next t ∧ (cellOf t p c).lastRecord = n
      ∧ (cellOf t p c).synced = (cellOf s p c).synced ∧ t.mem = s.mem
      ∧ tabGet (cellOf t p c).admitted n {} = { dl := (d.filter (fun e => e.1 == false)).map (fun e => e.2),
                                                ul := (d.filter (fun e => e.1 == true)).map (fun e => e.2) })
  ∧ (∀ (s : State) (p c : Nat), p < 64 → c < 64 → (cellOf s p c).state = .standby →
    ∃ t, exec (.twinMirrorRecord p c .gap) s = .next t ∧ (cellOf t p c).synced = false
      ∧ (cellOf t p c).mirrorGaps = ctrInc (cellOf s p c).mirrorGaps)
  ∧ (∀ (s : State) (p c n : Nat), p < 64 → c < 64 → (cellOf s p c).state = .standby →
    ((cellOf s p c).synced = true → corrNow s < intakeTick s (cellOf s p c) n →
      ∃ t o, exec (.twinCommit p c n) s = .next t ∧ (cellOf t p c).state = .running ∧ (cellOf t p c).role = .active
        ∧ (cellOf t p c).firstSlot = n ∧ (∀ e ∈ (cellOf t p c).harq, e.2.noCombine = true)
        ∧ t.out = o ++ [.twinReply (cellOf s p c).peerDev (cellOf s p c).peerPart (cellOf s p c).peerCell true])
    ∧ (((cellOf s p c).synced = false ∨ intakeTick s (cellOf s p c) n ≤ corrNow s) →
      exec (.twinCommit p c n) s
        = .next (emit (.twinReply (cellOf s p c).peerDev (cellOf s p c).peerPart (cellOf s p c).peerCell false) s)))
  ∧ (∀ (s : State) (p c n : Nat), p < 64 → c < 64 → (cellOf s p c).state = .moving → (cellOf s p c).moveTo = some n →
    (∃ t, exec (.commitResult p c .applied) s = .next t ∧ (cellOf t p c).state = .moving
      ∧ (cellOf t p c).slots = (cellOf s p c).slots.filter (fun h => h.1 < n))
    ∧ (inPhaseA s = false → ∃ t, exec (.commitResult p c .refused) s = .next t ∧ (cellOf t p c).state = .running
      ∧ (cellOf t p c).moveTo = none ∧ (cellOf t p c).firstSlot = nextIntake s (cellOf s p c) ∧ t.mem = s.mem)
    ∧ exec (.commitResult p c .unknown) s = .next s)

/-! ### Chapter 11: Sweep access -/

/-- R323, R325, R326, R329: the receiver's arithmetic recovers what a sender's frame holds. -/
def SweepArithmetic : Prop :=
  (∀ d < 2 ^ 16, gray (grayInv d) = d)
  ∧ (∀ (hdr : Nat) (payload : List Byte), hdr < 2 ^ 32 →
      (sweepBits hdr payload).length = 80 + 8 * payload.length
      ∧ bitsNat ((sweepBits hdr payload).take 32) = hdr
      ∧ crc24 ((sweepBits hdr payload).take 32) = bitsNat (((sweepBits hdr payload).drop 32).take 24)
      ∧ crc24 ((sweepBits hdr payload).take 32 ++ ((sweepBits hdr payload).drop 56).take (8 * payload.length))
          = bitsNat (((sweepBits hdr payload).drop (56 + 8 * payload.length)).take 24)
      ∧ (List.range payload.length).map (fun i => BitVec.ofNat 8 (bitsNat
          (((((sweepBits hdr payload).drop 56).take (8 * payload.length)).drop (8 * i)).take 8))) = payload)
  ∧ (∀ (sf su sd : Nat) (t0 f : Int), 8 ≤ sf → sf ≤ 15 → -(2 ^ (sf - 2)) ≤ f → f < 2 ^ (sf - 2) →
      t0 + 10 * 2 ^ sf ≤ sd → (sd : Int) < t0 + 11 * 2 ^ sf →
      sweepFix (2 ^ sf) su (((su : Int) - t0 + f) % 2 ^ sf).toNat sd ((t0 - (sd : Int) + f) % 2 ^ sf).toNat = (f, t0))

/-- R336 to R340: setting, reading and clearing a channel, and the frames it sends. -/
def SweepCommands : Prop :=
  (∀ (s : State) (m : Nat) (c : Cmd) (p n : Nat) (h : SweepChan), Due s m 0x04C0 c → targetOf m c = p → p < 64 →
    n = field c.payload 0 1 → h = sweepConfig { m := m, target := p, cmd := c } →
    (chanOf s n = none → h.cell < 64 → (cellOf s p h.cell).state ≠ .absent → h.sfMask ≠ 0 → h.demods ≠ 0 →
      (h.rx = true ∨ h.tx = true) →
      (sweepFits s n h = true → s.sweep.foldl (fun k g => k + g.2.demods) h.demods ≤ 4096 →
        ∃ t, exec (.sweepChannelSet m) s = .next t
          ∧ Answered t m c .success (leBytes 8 (cellStart s (cellOf s p h.cell) (firstUnsealed s p)))
          ∧ chanOf t n = some { h with fromSlot := firstUnsealed s p } ∧ t.mem = s.mem ∧ t.cells = s.cells)
      ∧ (sweepFits s n h = true → 4096 < s.sweep.foldl (fun k g => k + g.2.demods) h.demods →
        ∃ t, exec (.sweepChannelSet m) s = .next t ∧ Answered t m c .noResource [] ∧ t.sweep = s.sweep)
      ∧ (sweepFits s n h = false → ∃ t, exec (.sweepChannelSet m) s = .next t ∧ Answered t m c .badField [] ∧ t.sweep = s.sweep))
    ∧ (∀ g, chanOf s n = some g →
      ∃ t, exec (.sweepChannelSet m) s = .next t ∧ Answered t m c .notPermitted [] ∧ t.sweep = s.sweep))
  ∧ (∀ (s : State) (m : Nat) (c : Cmd) (n : Nat) (h : SweepChan), Due s m 0x04C1 c → n = field c.payload 0 1 →
    targetOf m c < 64 → chanOf s n = some h → h.endSlot = none →
    ∃ t, exec (.sweepChannelClear m) s = .next t ∧ Answered t m c .success []
      ∧ chanOf t n = some { h with endSlot := some (cellSlot s (cellOf s h.part h.cell) + 1) } ∧ t.mem = s.mem)
  ∧ (∀ (s : State) (m : Nat) (c : Cmd) (n : Nat) (h : SweepChan), Due s m 0x04C2 c → n = field c.payload 0 1 →
    targetOf m c < 64 → field c.payload 1 1 ≤ 1 → chanOf s n = some h → (isVf m = true → h.part = targetOf m c) →
    ∃ t, exec (.sweepStatus m) s = .next t ∧ Answered t m c .success (sweepRecord h)
      ∧ (field c.payload 1 1 = 0 → t.sweep = s.sweep)
      ∧ (field c.payload 1 1 = 1 → chanOf t n = some { h with
          candidates := {}, mismatch := {}, noSlot := {}, hdrFail := {}, tooLong := {}, crcFail := {}, framesOk := {},
          ringDrops := {}, txFrames := {} }))
  ∧ (∀ (s : State) (ring p tag k arr n : Nat) (b : List Byte) (f : SweepFrame) (h : SweepChan), ring < 4096 →
    sweepHead s ring = some (p, tag, k, b, arr) → sweepAccept s ring p tag arr b = .ok (n, f) → chanOf s n = some h →
    (∃ t, exec (.sweepTx ring) s = .next t ∧ chanOf t n = some { h with sends := h.sends ++ [f] } ∧ t.cells = s.cells)
    ∧ n = field b 16 1 ∧ f.tag = tag ∧ f.start = field b 8 8 ∧ h.tx = true ∧ 8 ≤ field b 17 1 ∧ field b 17 1 ≤ 15
    ∧ bit h.sfMask (field b 17 1 - 8) = true ∧ field b 18 1 ≤ sweepMax (field b 17 1)
    ∧ f.syms.length = sweepSyms (field b 17 1) (field b 18 1)
    ∧ ∀ g ∈ h.sends, g.finish ≤ f.start ∨ f.finish ≤ g.start)
  ∧ (∀ (s : State) (n : Nat) (h : SweepChan) (f : SweepFrame), n < 64 → chanOf s n = some h → h.sends = [f] →
    f.finish ≤ corrNow s →
    (sweepSentWhole s h f = true →
      ∃ t, exec (.sweepTxDone n) s = .next t ∧ chanOf t n = some { h with sends := [], txFrames := ctrInc h.txFrames })
    ∧ (sweepSentWhole s h f = false → ∃ t, exec (.sweepTxDone n) s = .next t ∧ chanOf t n = some { h with sends := [] }))

/-- R321, R322, R335: a channel keeps its last stream samples; the samples of a frame are ten up-sweeps, two down-sweeps and
the shifted sweeps of its data; a quarter of a turn is exact in Q15. -/
def SweepSamples : Prop :=
  (∀ (l : Nat) (xs : List (Int × Int)) (h : SweepChan), 0 < h.prbs → h.prbs ≤ 4 →
    (∀ i < sweepQ h, sampleAt (takeSymbol l xs h) (l * sweepQ h + i) = xs.getD i (0, 0))
    ∧ (∀ k, k / sweepQ h ≠ l →
      ((l + 1) * sweepQ h ≤ k / sweepQ h * sweepQ h + 4 * 2 ^ sweepTop h → sampleAt (takeSymbol l xs h) k = sampleAt h k)
      ∧ (k / sweepQ h * sweepQ h + 4 * 2 ^ sweepTop h < (l + 1) * sweepQ h → sampleAt (takeSymbol l xs h) k = (0, 0))))
  ∧ (∀ (f : SweepFrame) (j : Nat),
    (j < 10 * 2 ^ f.sf → frameSample f j = upSweep f.sf (j % 2 ^ f.sf))
    ∧ (10 * 2 ^ f.sf ≤ j → j < 12 * 2 ^ f.sf → frameSample f j = downSweep f.sf (j % 2 ^ f.sf))
    ∧ (∀ i m, f.syms[i]? = some m → j / 2 ^ f.sf = 12 + i → frameSample f j = upSweep f.sf ((j + m) % 2 ^ f.sf))
    ∧ ((12 + f.syms.length) * 2 ^ f.sf ≤ j → frameSample f j = (0, 0)))
  ∧ (∀ b, 0 < b → expQ15 0 (4 * b) = (32767, 0) ∧ expQ15 b (4 * b) = (0, 32767) ∧ expQ15 (2 * b) (4 * b) = (-32768, 0)
      ∧ expQ15 (3 * b) (4 * b) = (0, -32768))

/-- R323: data bits go out as symbols by the inverse Gray map and come back by the Gray map; symbols one bin apart differ in
one data bit. -/
def SweepGray : Prop :=
  ∀ sf, 8 ≤ sf → sf ≤ 15 →
    (∀ d < 2 ^ sf, grayInv d = (List.range sf).foldl (fun m k => m ^^^ (d >>> k)) 0 ∧ grayInv d < 2 ^ sf
      ∧ gray (grayInv d) = d)
    ∧ (∀ m < 2 ^ sf, gray m = m ^^^ (m >>> 1) ∧ grayInv (gray m) = m
      ∧ ∃ k < sf, gray m ^^^ gray ((m + 1) % 2 ^ sf) = 2 ^ k)
    ∧ (∀ (l : List Bool) (i : Nat), sf * i + sf ≤ l.length →
      lsbBits sf (gray ((sweepValues sf l).getD i 0)) = (l.drop (sf * i)).take sf
      ∧ ∀ j < sf, (gray ((sweepValues sf l).getD i 0)).testBit j = l.getD (sf * i + j) false)

/-- R328, R329, R331 to R334: detection windows make runs and candidates; data symbols make a frame. -/
def SweepReception : Prop :=
  (∀ l : List Nat, l ≠ [] → (binPeak l).1 < l.length ∧ l.getD (binPeak l).1 0 = (binPeak l).2)
  ∧ (∀ (l : List Nat) (i : Nat), i < l.length → l.getD i 0 ≤ (binPeak l).2)
  ∧ (∀ (l : List Nat) (i : Nat), i < l.length → l.getD i 0 = (binPeak l).2 → (binPeak l).1 ≤ i)
  ∧ (∀ (s : State) (n sf j start : Nat) (h : SweepChan) (g : SweepFound) (dw : Nat × Nat), n < 64 → 8 ≤ sf → sf ≤ 15 →
    chanOf s n = some h → windowDue s h sf = true → nextWindow s h sf = (j, start) → g = foundOf (upPowers h sf start) →
    dw = binPeak (downPowers h sf start) →
    ((g.peak * 256 < h.thr * g.noise ∨ g.peak < h.floorPwr) →
      ∃ t k, exec (.sweepDetectionWindow n sf) s = .next t ∧ chanOf t n = some k ∧ tabFind? k.runs sf = none
        ∧ tabGet k.wins sf 0 = j + 1 ∧ k.active = searchAll sf start dw h.active ∧ k.candidates = h.candidates)
    ∧ (h.thr * g.noise ≤ g.peak * 256 → h.floorPwr ≤ g.peak → tabFind? h.runs sf = none →
      ∃ t k, exec (.sweepDetectionWindow n sf) s = .next t ∧ chanOf t n = some k
        ∧ tabGet k.runs sf {} = { len := 1, start := start, bin := g.bin } ∧ k.active = searchAll sf start dw h.active)
    ∧ (∀ r : SweepRun, h.thr * g.noise ≤ g.peak * 256 → h.floorPwr ≤ g.peak → tabFind? h.runs sf = some r → r.len = 5 →
      start = r.start + 2 ^ sf / 2 → g.bin = (r.bin + 2 ^ sf / 2) % 2 ^ sf →
      ∃ t k, exec (.sweepDetectionWindow n sf) s = .next t ∧ chanOf t n = some k
        ∧ k.candidates = ctrInc h.candidates ∧ (tabGet k.runs sf {}).len = 6
        ∧ ((searchAll sf start dw h.active).length < h.demods → k.noSlot = h.noSlot ∧ k.active = searchAll sf start dw h.active
            ++ [{ sf := sf, peak := g.peak, noise := g.noise, search := some { start := start, bin := g.bin } }])
        ∧ (h.demods ≤ (searchAll sf start dw h.active).length →
            k.noSlot = ctrInc h.noSlot ∧ k.active = searchAll sf start dw h.active))
    ∧ (∀ (d : Demod) (q : SweepSearch) (f t0 : Int), (g.peak * 256 < h.thr * g.noise ∨ g.peak < h.floorPwr) →
      h.active = [d] → d.sf = sf → d.search = some q → q.seen = 23 →
      sweepFix (2 ^ sf) q.start q.bin (if q.peak < dw.2 then start else q.downStart) (if q.peak < dw.2 then dw.1 else q.downBin)
        = (f, t0) →
      ∃ t k, exec (.sweepDetectionWindow n sf) s = .next t ∧ chanOf t n = some k
        ∧ k.active = [{ d with search := none, t0 := t0.toNat, f := f }]))
  ∧ (∀ (s : State) (n sf t0 : Nat) (f : Int) (h : SweepChan) (d : Demod) (more : List Bool), n < 64 →
    8 ≤ sf → sf ≤ 15 → chanOf s n = some h → d.sf = sf → d.t0 = t0 → d.f = f → d.search = none → h.active = [d] →
    sweepLive s h (t0 + d.sym * 2 ^ sf) (2 ^ sf) = true →
    more = lsbBits sf (gray ((((binPeak (upPowers h sf (t0 + d.sym * 2 ^ sf))).1 : Int) - f) % ((2 ^ sf : Nat) : Int)).toNat) →
    (d.hdr = none → d.sym + 1 ≠ 12 + cdiv 56 sf →
      ∃ t, exec (.sweepSymbol n sf t0 f) s = .next t
        ∧ chanOf t n = some { h with active := [{ d with bits := d.bits ++ more, sym := d.sym + 1 }] } ∧ t.mem = s.mem)
    ∧ (d.sym + 1 = 12 + cdiv 56 sf →
      crc24 ((d.bits ++ more).take 32) ≠ bitsNat (((d.bits ++ more).drop 32).take 24) →
      ∃ t, exec (.sweepSymbol n sf t0 f) s = .next t
        ∧ chanOf t n = some { h with active := [], hdrFail := ctrInc h.hdrFail } ∧ t.mem = s.mem)
    ∧ (∀ hdr len : Nat, d.hdr = some hdr → len = bits hdr 7 0 → d.sym + 1 = 12 + sweepSyms sf len →
      (crc24 ((d.bits ++ more).take 32 ++ ((d.bits ++ more).drop 56).take (8 * len))
          = bitsNat (((d.bits ++ more).drop (56 + 8 * len)).take 24) →
        ringRoom s (cellOf s h.part h.cell).cfg.indRing (entriesFor (max 56 (24 + len))) = true →
        ∃ t, exec (.sweepSymbol n sf t0 f) s = .next t
          ∧ chanOf t n = some { h with active := [], framesOk := ctrInc h.framesOk }
          ∧ (ringOf t (cellOf s h.part h.cell).cfg.indRing).map (fun r => r.devIdx)
            = (ringOf s (cellOf s h.part h.cell).cfg.indRing).map
                (fun r => (r.devIdx + entriesFor (max 56 (24 + len))) % 4294967296))
      ∧ (crc24 ((d.bits ++ more).take 32 ++ ((d.bits ++ more).drop 56).take (8 * len))
          ≠ bitsNat (((d.bits ++ more).drop (56 + 8 * len)).take 24) →
        ∃ t, exec (.sweepSymbol n sf t0 f) s = .next t
          ∧ chanOf t n = some { h with active := [], crcFail := ctrInc h.crcFail } ∧ t.rings = s.rings ∧ t.mem = s.mem)))

/-! ### Chapter 12: inference serving -/

/-- R344, R348 to R350, R366, R367: a context comes and goes. -/
def ContextLife : Prop :=
  (∀ (s : State) (m : Nat) (c : Cmd) (places : List Placement) (p n wo : Nat) (bytes : List Byte),
    Due s m 0x0500 c → targetOf m c = p → p < 64 → n = field c.payload 0 2 → wo = field c.payload 6 2 →
    bytes = hdmRead s (field c.payload 8 8) (field c.payload 16 4) → s.dev.twilight = false →
    (field c.payload 3 1 ≠ 0 → n ≤ 255 → field c.payload 2 1 ≤ 7 → (partOf s p).prioLimit ≤ field c.payload 2 1 →
      field c.payload 3 1 ≤ 64 → field c.payload 16 4 ≠ 0 →
      ringsOk s p (field c.payload 20 2) (field c.payload 22 2) = true → weightsOk s p wo = true → ctxInUse s n = false →
      inShare s p (field c.payload 8 8) (field c.payload 16 4) = true →
      imageStatus s p (parseImage s.tts.duskMargin bytes).1 (parseImage s.tts.duskMargin bytes).2.1
        (parseImage s.tts.duskMargin bytes).2.2 places = .success →
      (wo = 0xFFFF ∨ (ctxOf s wo).img.weightsId = (parseImage s.tts.duskMargin bytes).1.weightsId) →
      partContexts s p < (partOf s p).maxContexts → (∃ h < 64, tabHas s.ops h = false) →
      (∀ b dram, ctxMemory s p wo (places.getD (places.findIdx
            (placementUsable s.grade (parseImage s.tts.duskMargin bytes).1)) {}) = .ok (b, dram) →
        ∃ t h x, exec (.ctxCreate m places) s = .next t ∧ Accepted t m c h ∧ tabFind? t.srv.creating h = some (n, x)
          ∧ x.part = p ∧ x.prio = field c.payload 2 1 ∧ x.depth = field c.payload 3 1 ∧ x.bind = b ∧ x.dram = dram
          ∧ x.rng.step = 0 ∧ x.rng.seed = 0 ∧ t.srv.ctxs = s.srv.ctxs ∧ t.mem = s.mem)
      ∧ (∀ st, ctxMemory s p wo (places.getD (places.findIdx
            (placementUsable s.grade (parseImage s.tts.duskMargin bytes).1)) {}) = .error st →
        ∃ t, exec (.ctxCreate m places) s = .next t ∧ Answered t m c st [] ∧ t.srv = s.srv))
    ∧ (field c.payload 3 1 = 0 →
      ∃ t, exec (.ctxCreate m places) s = .next t ∧ Answered t m c .zeroNotAllowed [] ∧ t.srv = s.srv)
    ∧ (field c.payload 3 1 ≠ 0 → 255 < n →
      ∃ t, exec (.ctxCreate m places) s = .next t ∧ Answered t m c .badField [] ∧ t.srv = s.srv))
  ∧ (∀ (s : State) (h n : Nat) (x : Context) (o : LongOp), h < 64 → tabFind? s.srv.creating h = some (n, x) →
    opOf s h = some o → o.finished = false →
    ∃ t, exec (.ctxCreateDone h) s = .next t ∧ Ended t h .success [] ∧ (ctxOf t n).state = .loaded
      ∧ (ctxOf t n).rng = x.rng ∧ (ctxOf t n).prio = x.prio ∧ (ctxOf t n).bind = x.bind ∧ (ctxOf t n).dram = x.dram
      ∧ (waitingEntries s x.subRing = 0 → ∀ d ∈ x.dram, ∀ a < d.2 * 2097152, memRead t.mem (regionAt n (d.1 / 2 ^ 24) (d.1 / 2 ^ 22 % 4) 0 + a) = 0))
  ∧ (∀ (s : State) (m n : Nat) (c : Cmd), Due s m 0x0501 c → n = field c.payload 0 2 → n < 256 →
    ((ctxOf s n).state ≠ .absent → (ctxOf s n).part = targetOf m c → destroying s n = false →
      (∃ h < 64, tabHas s.ops h = false) →
      ∃ t h, exec (.ctxDestroy m) s = .next t ∧ Accepted t m c h ∧ (ctxOf t n).queue = [] ∧ (ctxOf t n).step = none)
    ∧ (((ctxOf s n).state = .absent ∨ (ctxOf s n).part ≠ targetOf m c) →
      ∃ t, exec (.ctxDestroy m) s = .next t ∧ Answered t m c .contextState [] ∧ t.srv = s.srv))
  ∧ (∀ (s : State) (h : Nat) (o : LongOp), h < 64 → opOf s h = some o → o.opcode = 0x0501 → o.finished = false →
    ∃ t, exec (.ctxDestroyDone h) s = .next t ∧ Ended t h .success [] ∧ (ctxOf t o.obj).state = .absent)

/-- R366: CTX_WRITE copies HDM bytes into a region when it ends. -/
def ContextWrite : Prop :=
  (∀ (s : State) (m n kind lr dst src len : Nat) (c : Cmd), Due s m 0x0502 c → n = field c.payload 0 2 → n < 256 →
    kind = field c.payload 2 1 → lr = field c.payload 3 1 → dst = field c.payload 8 8 → src = field c.payload 16 8 →
    len = field c.payload 24 8 → kind ≤ 1 → (ctxOf s n).part = targetOf m c → destroying s n = false →
    ((ctxOf s n).state = .loaded ∨ (ctxOf s n).state = .resident) →
    (∀ d ∈ (if kind = 0 then sharers s n else [n]), (ctxOf s d).step = none) →
    lr < ((ctxOf s n).places.getD (ctxOf s n).place {}).shape.regions →
    (inShare s (ctxOf s n).part src len = true → dst + len ≤ ctxRegionBytes s n lr kind →
      (len ≠ 0 → (∃ h < 64, tabHas s.ops h = false) → ∃ t h o, exec (.ctxWrite m) s = .next t ∧ Accepted t m c h
        ∧ opOf t h = some o ∧ o.obj = n ∧ o.args = [kind, lr, dst, src, len] ∧ t.mem = s.mem)
      ∧ (len = 0 → ∃ t, exec (.ctxWrite m) s = .next t ∧ Answered t m c .success [] ∧ t.mem = s.mem ∧ t.ops = s.ops))
    ∧ ((inShare s (ctxOf s n).part src len = false ∨ ctxRegionBytes s n lr kind < dst + len) →
      ∃ t, exec (.ctxWrite m) s = .next t ∧ Answered t m c .badAddress [] ∧ t.mem = s.mem ∧ t.ops = s.ops))
  ∧ (∀ (s : State) (h n kind lr dst src len at_ : Nat) (o : LongOp), h < 64 → opOf s h = some o → o.opcode = 0x0502 →
    o.finished = false → o.obj = n → o.args = [kind, lr, dst, src, len] →
    at_ = regionAt (if kind = 0 then weightsHome s n else n) lr kind dst →
    ∃ t, exec (.ctxWriteDone h) s = .next t ∧ Ended t h .success [] ∧ memReadBytes t.mem at_ len = hdmRead s src len
      ∧ (∀ a, (a < at_ ∨ at_ + len ≤ a) → memRead t.mem a = memRead s.mem a) ∧ t.srv = s.srv)

/-! ### Chapter 13: partitions and migration -/

/-- R372, R380, R381: the reset sequence, by whatever begins it, up to the state it leaves. -/
def PartitionReset : Prop :=
  (∀ (s : State) (m : Nat) (c : Cmd), Due s m 0x0202 c → targetOf m c < 64 → s.mgt.entropyOk = true →
    (((partOf s (targetOf m c)).state = .active ∨ (partOf s (targetOf m c)).state = .freezing
        ∨ (partOf s (targetOf m c)).state = .frozen) → (∃ h < 64, tabHas s.ops h = false) →
      ∃ t h, exec (.partReset m) s = .next t ∧ Accepted t m c h ∧ (partOf t (targetOf m c)).state = .resetting)
    ∧ (((partOf s (targetOf m c)).state = .restoring) →
      ∃ t, exec (.partReset m) s = .next t ∧ Answered t m c .partitionState [] ∧ t.parts = s.parts))
  ∧ (∀ (s : State) (m : Nat) (c : Cmd), Due s m 0x0201 c → targetOf m c < 64 → s.mgt.entropyOk = true →
    (partOf s (targetOf m c)).state ≠ .removing → (∃ h < 64, tabHas s.ops h = false) →
      ∃ t h, exec (.partRemove m) s = .next t ∧ Accepted t m c h ∧ (partOf t (targetOf m c)).state = .removing)
  ∧ (∀ (s : State) (p : Nat), p < 64 →
    ((partOf s p).state = .active → (partOf s p).radio = false →
      ∃ t, exec (.functionLevelReset p) s = .next t ∧ (partOf t p).state = .resetting ∧ (partOf t p).step = 4
        ∧ (partOf t p).cause = 1
        ∧ ∀ c, (ctxOf s c).part = p → (ctxOf s c).state ≠ .absent → (ctxOf t c).queue = [] ∧ (ctxOf t c).step = none)
    ∧ (((partOf s p).state = .resetting ∨ (partOf s p).state = .removing ∨ (partOf s p).state = .absent) →
      exec (.functionLevelReset p) s = .next s))
  ∧ (∀ (s : State) (p : Nat), p < 64 → (partOf s p).step = 4 →
    ((∀ t ∈ partTags s p, t.2.lastTx + 98304 ≤ s.tmb.free) →
      ∃ t, exec (.resetFabricDrain p) s = .next t ∧ (partOf t p).step = 5 ∧ partTags t p = []
        ∧ (partOf t p).abandoned = ctrAdd (partOf s p).abandoned (partTags s p).length)
    ∧ ((∃ t ∈ partTags s p, s.tmb.free < t.2.lastTx + 98304) → exec (.resetFabricDrain p) s = .next s))
  ∧ (∀ (s : State) (p late : Nat), p < 64 → (partOf s p).step = 5 → (late ≠ 0 → (partOf s p).stepTick + 1966080 ≤ s.tmb.free) →
    ∃ t, exec (.resetHostDrain p late) s = .next t ∧ (partOf t p).step = 8 ∧ (partOf t p).jobs = []
      ∧ (partOf t p).late = decide (late ≠ 0) ∧ (partOf t p).lateWrites = ctrAdd (partOf s p).lateWrites late
      ∧ (∀ j ∈ (partOf s p).jobs, tabFind? t.quarantine j = some s.tmb.free)
      ∧ (∀ r ∈ t.rings, r.2.part ≠ p) ∧ (∀ o ∈ t.syn.objs, o.2.part ≠ p)
      ∧ ∀ c, (ctxOf t c).part = p → (ctxOf t c).state = .absent)
  ∧ (∀ (s : State) (p : Nat), p < 64 → (partOf s p).step = 8 →
    ((partOf s p).state = .resetting →
      ∃ t, exec (.partResetDone p) s = .next t ∧ (partOf t p).state = .active ∧ (partOf t p).step = 0
        ∧ (partOf t p).resets = ctrInc (partOf s p).resets ∧ (partOf t p).keyGen = Config.entropy s.fresh
        ∧ (∀ a < (partOf s p).hdmLen, memRead t.mem (hdmAt ((partOf s p).hdmBase + a)) = 0)
        ∧ ∀ h o, opOf s h = some o → o.opcode = 0x0202 → o.obj = p → o.finished = false →
            Ended t h (if (partOf s p).late then .hung else .success) [])
    ∧ ((partOf s p).state = .removing →
      ∃ t, exec (.partResetDone p) s = .next t ∧ partOf t p = {} ∧ mbxOf t (16 + p) = {}
        ∧ (∀ a < (partOf s p).hdmLen, memRead t.mem (hdmAt ((partOf s p).hdmBase + a)) = 0)
        ∧ ∀ h o, opOf s h = some o → o.opcode = 0x0201 → o.obj = p → o.finished = false →
            Ended t h (if (partOf s p).late then .hung else .success) []))

/-- R383, R384, R391: freeze and thaw. -/
def FreezeAndThaw : Prop :=
  (∀ (s : State) (m p : Nat) (c : Cmd), Due s m 0x0204 c → targetOf m c = p → p < 64 →
    ((partOf s p).radio = false → (partOf s p).state = .active → (∃ h < 64, tabHas s.ops h = false) →
      ∃ t h, exec (.partFreeze m) s = .next t ∧ Accepted t m c h ∧ (partOf t p).state = .freezing
        ∧ (∀ n, (ctxOf t n).part = p → (ctxOf t n).state ≠ .residing)
        ∧ (bit (field c.payload 0 2) 0 = true → ∀ n, (ctxOf t n).part = p → (ctxOf t n).step = none))
    ∧ (((partOf s p).radio = true ∨ (partOf s p).state ≠ .active) →
      ∃ t, exec (.partFreeze m) s = .next t ∧ Answered t m c .partitionState [] ∧ t.parts = s.parts ∧ t.srv = s.srv))
  ∧ (∀ (s : State) (p : Nat), p < 64 → (partOf s p).state = .freezing →
    (atBoundary s p = true →
      ∃ t, exec (.freezeComplete p) s = .next t ∧ (partOf t p).state = .frozen ∧ t.grd = s.grd
        ∧ (∀ n, (ctxOf s n).part = p → (ctxOf s n).state ≠ .absent →
            (ctxOf t n).state = .frozen ∧ (ctxOf t n).queue = (ctxOf s n).queue ∧ (ctxOf t n).rng = (ctxOf s n).rng)
        ∧ ∀ h o, opOf s h = some o → o.opcode = 0x0204 → o.obj = p → o.finished = false → Ended t h .success [])
    ∧ (atBoundary s p = false → exec (.freezeComplete p) s = .next s))
  ∧ (∀ (s : State) (m p : Nat) (c : Cmd), Due s m 0x0205 c → targetOf m c = p → p < 64 →
    ((partOf s p).state = .frozen →
      ∃ t, exec (.partThaw m) s = .next t ∧ Answered t m c .success [] ∧ (partOf t p).state = .active
        ∧ (partOf t p).save = none
        ∧ ∀ n, (ctxOf s n).part = p → (ctxOf s n).state ≠ .absent → (ctxOf s n).queue = [] → (ctxOf t n).state = .loaded)
    ∧ ((partOf s p).state ≠ .frozen →
      ∃ t, exec (.partThaw m) s = .next t ∧ Answered t m c .partitionState []))

/-! ### Chapter 14: the memory fabric -/

/-- R400, R402, R404, R405, R410, R415, R418: what the issue of a descriptor checks, and what it sends. -/
def RequestIssue : Prop :=
  ∀ (s : State) (d : FabDesc), descLenOk d = true → d.req.dst < 65536 → d.req.job < 16777216 →
    (d.ctx = none →
      (d.req.length = 0 → accumulates d.op = false →
        ∃ t, exec (.fabricRequestIssue d) s = .next t ∧ t = s)
      ∧ (d.req.length ≠ 0 → fabAligned d.op d.req.addr d.req.length = true →
          ¬ (accumulates d.op = true ∧ otherDomain s d.req.dst = true) → tagWaits s d.req.dst = true →
        ∃ t, exec (.fabricRequestIssue d) s = .next t
          ∧ t.fab = { s.fab with issueWait := s.fab.issueWait ++ [(.firmware, d)] } ∧ t.out = s.out))
    ∧ (∀ (c : Nat) (r : RunningMicro) (q : StepRun) (k : MicroRun), d.ctx = some c → isMover d.mover = true →
      lentOf s c d.micro = some r → d.mover ∈ r.units → working s d.mover = true → (ctxOf s c).step = some q →
      tabFind? q.micros d.micro = some k → k.status = .success → d.op ≠ .load → d.op ≠ .get → returnsOld d.op = false →
      (∀ st, (d.req.length ≠ 0 ∨ accumulates d.op = true) →
        ((fabAligned d.op d.req.addr d.req.length = false ∧ st = Status.badField)
          ∨ (fabAligned d.op d.req.addr d.req.length = true ∧ accumulates d.op = true
              ∧ otherDomain s d.req.dst = true ∧ st = Status.notPermitted)
          ∨ (fabAligned d.op d.req.addr d.req.length = true ∧ ¬ (accumulates d.op = true ∧ otherDomain s d.req.dst = true)
              ∧ d.req.job ∉ (partOf s (ctxOf s c).part).jobs ∧ st = Status.notPermitted)) →
        ∃ t rec, exec (.fabricRequestIssue d) s = .next t ∧ t.fab = s.fab ∧ (microOf t c d.micro).status = st
          ∧ tabFind? t.hlt.log.recs (s.hlt.log.prod % 4096) = some rec ∧ rec.code = 0xB ∧ rec.status = some st
          ∧ rec.owner = c ∧ rec.job = d.req.job ∧ rec.dst = d.req.dst ∧ t.mem = s.mem)
      ∧ (fabAligned d.op d.req.addr d.req.length = true → ¬ (accumulates d.op = true ∧ otherDomain s d.req.dst = true) →
        d.req.length ≠ 0 → d.req.job ∈ (partOf s (ctxOf s c).part).jobs → tagWaits s d.req.dst = false →
        ((accumulates d.op = false ∨
            (earlierTags s c d.micro d.req.dst).length ≤ tabGet (microOf s c d.micro).accNext d.req.dst 0) →
          ∃ t rec, exec (.fabricRequestIssue d) s = .next t ∧ tagOf t d.req.dst (nextTag s d.req.dst) = some rec
            ∧ rec.state = .issued ∧ rec.attempt = 0 ∧ rec.op = d.op ∧ rec.origin = .micro c d.micro d.mover
            ∧ rec.req.firstStamp = corrNow s ∧ rec.req.src = s.fab.device ∧ rec.req.tag = nextTag s d.req.dst
            ∧ rec.lastTx = s.tmb.free ∧ nextTag t d.req.dst = tagAfter (nextTag s d.req.dst) ∧ t.mem = s.mem
            ∧ (rec.req.combined = true → mayCombine d.op = true ∧ d.combinable = true
                ∧ otherDomain s d.req.dst = false)
            ∧ (usablePorts s (some (unitRegion d.mover)) ≠ [] → sentTo s d.req.dst ≠ 0xFFFF →
                ∃ n ∈ usablePorts s (some (unitRegion d.mover)),
                  t.out = s.out ++ [.fabRequest n (sentTo s d.req.dst) d.op rec.req]))
        ∧ (∀ (tg : Nat) (y : TagRec), accumulates d.op = true →
            (earlierTags s c d.micro d.req.dst)[tabGet (microOf s c d.micro).accNext d.req.dst 0]? = some tg →
            tagOf s d.req.dst tg = some y → y.state = .resolved → y.status = .success →
          ∃ t, exec (.fabricRequestIssue d) s = .next t ∧ t.out = s.out ∧ t.fab.nextTag = s.fab.nextTag
            ∧ t.fab.issued = s.fab.issued)))

/-- R397: the port by fixed route is the one at position (dst + job) mod u; by adaptive routing it is one of the usable
ports. -/
def PortChoice : Prop :=
  ∀ (s : State) (r : Option Nat) (dst job : Nat), usablePorts s r ≠ [] →
    (choosePort r true dst job s).1 = (usablePorts s r)[(dst + job) % (usablePorts s r).length]?
    ∧ (∃ n ∈ usablePorts s r, (choosePort r false dst job s).1 = some n)
    ∧ (∀ n ∈ usablePorts s r, n < gradePorts s.grade ∧ (portOf s n).link = true ∧ (portOf s n).enabled = true)
    ∧ (∀ a, r = some a → (∃ n ∈ usablePorts s r, n / 3 = a) → ∀ n ∈ usablePorts s r, n / 3 = a)

/-- The command that a received request of an operation is (R401). -/
def received (op : FabOp) (r : FabReq) : Instr :=
  match op with
  | .load => .load r | .store => .store r | .get => .get r | .put => .put r | .reduceAdd => .reduceAdd r
  | .add => .atomicAdd r | .and => .atomicAnd r | .or => .atomicOr r | .xor => .atomicXor r
  | .addR => .addR r | .andR => .andR r | .orR => .orR r | .xorR => .xorR r | .xchg => .xchg r | .cas => .cas r
  | .faddF32 => .fadd r false | .faddB16 => .fadd r true
  | .faddRF32 => .faddR r false | .faddRB16 => .faddR r true

/-- The one reply that leaves for a request (R403). -/
abbrev Replied (s t : State) (op : FabOp) (r : FabReq) (dup : Bool) (st : Status) (result : Nat) (data : List Byte) : Prop :=
  t.out = s.out ++ [.fabReply op (FabReply.mk false dup r.attempt (statusCode st) s.fab.device r.src r.tag result data)]

/-- Nothing of memory, sources and entries but what ack_floor releases has changed (R409). -/
abbrev NoTrace (s t : State) (r : FabReq) : Prop :=
  t.mem = s.mem ∧ t.fab.sources.map (fun x => (x.1, x.2.high, x.2.applied))
      = s.fab.sources.map (fun x => (x.1, x.2.high, x.2.applied))
    ∧ (t.fab.entries = s.fab.entries ∨ t.fab.entries = (releaseEntries r.src r.ackFloor s).fab.entries)

/-- A request passes rows 1 to 4 of R409. -/
abbrev Reaches (s : State) (r : FabReq) : Prop :=
  r.dst = s.fab.device ∧ s.fab.started = true ∧ s.mbr.member = true ∧ srcOutside s r.src = false
    ∧ ¬ ((s.tmb.state = .locked ∨ s.tmb.state = .holdover) ∧ r.firstStamp + s.fab.lifetime < corrNow s)
    ∧ s.fab.start ≤ r.firstStamp

/-- R409: the rows that refuse, in their order, leave no trace. -/
def ReceiverChecks : Prop :=
  ∀ (s : State) (op : FabOp) (r : FabReq), reqOk op r = true →
    (r.dst ≠ s.fab.device →
      ∃ t, exec (received op r) s = .next t ∧ t.out = s.out ∧ NoTrace s t r
        ∧ t.fab.ctr = { s.fab.ctr with misrouted := ctrInc s.fab.ctr.misrouted })
    ∧ (r.dst = s.fab.device → (s.fab.started = false ∨ s.mbr.member = false ∨ srcOutside s r.src = true) →
      ∃ t, exec (received op r) s = .next t ∧ Replied s t op r false .notMember 0 [] ∧ NoTrace s t r)
    ∧ (r.dst = s.fab.device → s.fab.started = true → s.mbr.member = true → srcOutside s r.src = false →
      ((s.tmb.state = .locked ∨ s.tmb.state = .holdover) → r.firstStamp + s.fab.lifetime < corrNow s →
        ∃ t, exec (received op r) s = .next t ∧ t.out = s.out ∧ NoTrace s t r
          ∧ t.fab.ctr = { s.fab.ctr with stale := ctrInc s.fab.ctr.stale })
      ∧ (¬ ((s.tmb.state = .locked ∨ s.tmb.state = .holdover) ∧ r.firstStamp + s.fab.lifetime < corrNow s) →
          r.firstStamp < s.fab.start →
        ∃ t, exec (received op r) s = .next t ∧ Replied s t op r false .outcomeUnknown 0 [] ∧ NoTrace s t r
          ∧ t.fab.ctr = { s.fab.ctr with outcomeUnknown := ctrInc s.fab.ctr.outcomeUnknown }))
    ∧ (Reaches s r → tagPlace s r.src r.tag = .fresh →
      (tabHas s.quarantine r.job = true →
        ∃ t, exec (received op r) s = .next t ∧ Replied s t op r false .jobRetired 0 [] ∧ NoTrace s t r)
      ∧ (tabHas s.quarantine r.job = false →
        ((jobOnDevice s r.job = false ∨ windowFor s r.job r.addr r.length = none) →
          ∃ t, exec (received op r) s = .next t ∧ Replied s t op r false .windowFault 0 [] ∧ NoTrace s t r)
        ∧ (∀ w, jobOnDevice s r.job = true → windowFor s r.job r.addr r.length = some w →
          ((windowAllows w op = false ∨ (isCombined r = true ∧ w.comb = false)) →
            ∃ t, exec (received op r) s = .next t ∧ Replied s t op r false .windowFault 0 [] ∧ NoTrace s t r)
          ∧ (windowAllows w op = true → ¬ (isCombined r = true ∧ w.comb = false) →
            (partHeld s w.part = true → op ≠ .load → op ≠ .get →
              ∃ t, exec (received op r) s = .next t ∧ Replied s t op r false .busy 0 [] ∧ NoTrace s t r)
            ∧ (¬ (partHeld s w.part = true ∧ op ≠ .load ∧ op ≠ .get) → accumulates op = true →
                262144 ≤ (releaseEntries r.src r.ackFloor s).fab.entries.length →
              ∃ t, exec (received op r) s = .next t ∧ Replied s t op r false .busy 0 [] ∧ NoTrace s t r)
            ∧ (¬ (partHeld s w.part = true ∧ op ≠ .load ∧ op ≠ .get) →
                ¬ (accumulates op = true ∧ 262144 ≤ (releaseEntries r.src r.ackFloor s).fab.entries.length) →
                srcOf s r.src = none → 256 ≤ s.fab.sources.length →
              ∃ t, exec (received op r) s = .next t ∧ Replied s t op r false .noResource 0 [] ∧ NoTrace s t r)))))

/-- A request that row 12 of R409 applies on context memory through window w. -/
abbrev Applies (s : State) (op : FabOp) (r : FabReq) (w : FabWindow) : Prop :=
  reqOk op r = true ∧ Reaches s r ∧ tagPlace s r.src r.tag = .fresh ∧ tabHas s.quarantine r.job = false
    ∧ jobOnDevice s r.job = true ∧ windowFor s r.job r.addr r.length = some w ∧ w.kind = 0 ∧ windowAllows w op = true
    ∧ ¬ (isCombined r = true ∧ w.comb = false) ∧ (partHeld s w.part = false ∨ op = .load ∨ op = .get)
    ∧ (accumulates op = true → (releaseEntries r.src r.ackFloor s).fab.entries.length < 262144)
    ∧ ((srcOf s r.src).isSome = true ∨ s.fab.sources.length < 256)
    ∧ (op = .store ∨ op = .put ∨ meetsBad s (windowAddr s w r.addr) r.length = false)

/-- The new value that an accumulating request on one word stores (R401). -/
def newWord (s : State) (op : FabOp) (r : FabReq) (old : Nat) : Nat :=
  let m := 2 ^ (8 * r.length)
  match op with
  | .add => (old + r.operand0) % m | .addR => (old + r.operand0) % m
  | .and => old &&& (r.operand0 % m) | .andR => old &&& (r.operand0 % m)
  | .or => old ||| (r.operand0 % m) | .orR => old ||| (r.operand0 % m)
  | .xor => Nat.xor old (r.operand0 % m) | .xorR => Nat.xor old (r.operand0 % m)
  | .xchg => r.operand0 % m
  | .cas => if old = r.operand0 % m then r.operand1 % m else old
  | .faddF32 => (fpAdd s.grd.opt .f32 old (r.operand0 % m)).1 % m
  | .faddRF32 => (fpAdd s.grd.opt .f32 old (r.operand0 % m)).1 % m
  | .faddB16 => (fpAdd s.grd.opt .b16 old (r.operand0 % m)).1 % m
  | .faddRB16 => (fpAdd s.grd.opt .b16 old (r.operand0 % m)).1 % m
  | _ => old

/-- A read that row 12 of R409 serves: the bytes go back, and the tag counts as applied. -/
abbrev ReadDone (s t : State) (op : FabOp) (r : FabReq) (w : FabWindow) : Prop :=
  t.mem = s.mem ∧ Replied s t op r false .success 0 (memReadBytes s.mem (windowAddr s w r.addr) r.length)
    ∧ tagPlace t r.src r.tag = .applied

/-- A write: exactly the request's bytes come to stand. -/
abbrev WriteDone (s t : State) (op : FabOp) (r : FabReq) (w : FabWindow) : Prop :=
  Replied s t op r false .success 0 [] ∧ memReadBytes t.mem (windowAddr s w r.addr) r.length = r.data
    ∧ (∀ a, (a < windowAddr s w r.addr ∨ windowAddr s w r.addr + r.length ≤ a) → memRead t.mem a = memRead s.mem a)
    ∧ tagPlace t r.src r.tag = .applied

/-- An atomic on one word: the word's new value, the old one as the result where the form returns it, and a ledger entry. -/
abbrev AtomicDone (s t : State) (op : FabOp) (r : FabReq) (w : FabWindow) : Prop :=
  ∃ (e : LedgerEntry) (old : Nat), old = leNat (memReadBytes s.mem (windowAddr s w r.addr) r.length)
    ∧ Replied s t op r false .success (if returnsOld op then old else 0) []
    ∧ leNat (memReadBytes t.mem (windowAddr s w r.addr) r.length) = newWord s op r old
    ∧ (∀ a, (a < windowAddr s w r.addr ∨ windowAddr s w r.addr + r.length ≤ a) → memRead t.mem a = memRead s.mem a)
    ∧ tagPlace t r.src r.tag = .applied ∧ entryOf t r.src r.tag = some e ∧ e.status = .success
    ∧ e.result = (if returnsOld op then old else 0) ∧ e.made = s.tmb.free

/-- R401, R408, R409, R412: what an applied request of each operation reads, writes, answers and leaves in the ledger. -/
def AppliedRequests : Prop :=
  (∀ (s : State) (r : FabReq) (w : FabWindow), Applies s .load r w → ∃ t, exec (.load r) s = .next t ∧ ReadDone s t .load r w)
  ∧ (∀ (s : State) (r : FabReq) (w : FabWindow), Applies s .get r w → ∃ t, exec (.get r) s = .next t ∧ ReadDone s t .get r w)
  ∧ (∀ (s : State) (r : FabReq) (w : FabWindow), Applies s .store r w → ∃ t, exec (.store r) s = .next t ∧ WriteDone s t .store r w)
  ∧ (∀ (s : State) (r : FabReq) (w : FabWindow), Applies s .put r w → ∃ t, exec (.put r) s = .next t ∧ WriteDone s t .put r w)
  ∧ (∀ (s : State) (r : FabReq) (w : FabWindow), Applies s .reduceAdd r w →
    ∃ t e, exec (.reduceAdd r) s = .next t ∧ Replied s t .reduceAdd r false .success 0 []
      ∧ (∀ i < r.length / 4, leNat (memReadBytes t.mem (windowAddr s w r.addr + 4 * i) 4)
          = (fpAdd s.grd.opt .f32 (leNat (memReadBytes s.mem (windowAddr s w r.addr + 4 * i) 4))
              (field r.data (4 * i) 4)).1 % 2 ^ 32)
      ∧ (∀ a, (a < windowAddr s w r.addr ∨ windowAddr s w r.addr + r.length ≤ a) → memRead t.mem a = memRead s.mem a)
      ∧ tagPlace t r.src r.tag = .applied ∧ entryOf t r.src r.tag = some e ∧ e.status = .success)
  ∧ (∀ (s : State) (r : FabReq) (w : FabWindow), Applies s .add r w →
    ∃ t, exec (.atomicAdd r) s = .next t ∧ AtomicDone s t .add r w)
  ∧ (∀ (s : State) (r : FabReq) (w : FabWindow), Applies s .and r w →
    ∃ t, exec (.atomicAnd r) s = .next t ∧ AtomicDone s t .and r w)
  ∧ (∀ (s : State) (r : FabReq) (w : FabWindow), Applies s .or r w →
    ∃ t, exec (.atomicOr r) s = .next t ∧ AtomicDone s t .or r w)
  ∧ (∀ (s : State) (r : FabReq) (w : FabWindow), Applies s .xor r w →
    ∃ t, exec (.atomicXor r) s = .next t ∧ AtomicDone s t .xor r w)
  ∧ (∀ (s : State) (r : FabReq) (w : FabWindow), Applies s .addR r w →
    ∃ t, exec (.addR r) s = .next t ∧ AtomicDone s t .addR r w)
  ∧ (∀ (s : State) (r : FabReq) (w : FabWindow), Applies s .andR r w →
    ∃ t, exec (.andR r) s = .next t ∧ AtomicDone s t .andR r w)
  ∧ (∀ (s : State) (r : FabReq) (w : FabWindow), Applies s .orR r w →
    ∃ t, exec (.orR r) s = .next t ∧ AtomicDone s t .orR r w)
  ∧ (∀ (s : State) (r : FabReq) (w : FabWindow), Applies s .xorR r w →
    ∃ t, exec (.xorR r) s = .next t ∧ AtomicDone s t .xorR r w)
  ∧ (∀ (s : State) (r : FabReq) (w : FabWindow), Applies s .xchg r w →
    ∃ t, exec (.xchg r) s = .next t ∧ AtomicDone s t .xchg r w)
  ∧ (∀ (s : State) (r : FabReq) (w : FabWindow), Applies s .cas r w →
    ∃ t, exec (.cas r) s = .next t ∧ AtomicDone s t .cas r w)
  ∧ (∀ (s : State) (r : FabReq) (w : FabWindow), Applies s .faddF32 r w →
    ∃ t, exec (.fadd r false) s = .next t ∧ AtomicDone s t .faddF32 r w)
  ∧ (∀ (s : State) (r : FabReq) (w : FabWindow), Applies s .faddB16 r w →
    ∃ t, exec (.fadd r true) s = .next t ∧ AtomicDone s t .faddB16 r w)
  ∧ (∀ (s : State) (r : FabReq) (w : FabWindow), Applies s .faddRF32 r w →
    ∃ t, exec (.faddR r false) s = .next t ∧ AtomicDone s t .faddRF32 r w)
  ∧ (∀ (s : State) (r : FabReq) (w : FabWindow), Applies s .faddRB16 r w →
    ∃ t, exec (.faddR r true) s = .next t ∧ AtomicDone s t .faddRB16 r w)

/-- R412 to R414: a duplicate is never applied again; it is answered from the ledger. -/
def DuplicatesAndLedger : Prop :=
  (∀ (s : State) (op : FabOp) (r : FabReq), reqOk op r = true → Reaches s r → op ≠ .load → op ≠ .get →
    (tagPlace s r.src r.tag = .applied →
      (accumulates op = false →
        ∃ t, exec (received op r) s = .next t ∧ Replied s t op r true .success 0 [] ∧ NoTrace s t r)
      ∧ (∀ e, accumulates op = true → entryOf (releaseEntries r.src r.ackFloor s) r.src r.tag = some e →
        ∃ t, exec (received op r) s = .next t ∧ Replied s t op r true e.status e.result [] ∧ NoTrace s t r)
      ∧ (accumulates op = true → entryOf (releaseEntries r.src r.ackFloor s) r.src r.tag = none →
        ∃ t, exec (received op r) s = .next t ∧ Replied s t op r true .outcomeUnknown 0 [] ∧ NoTrace s t r))
    ∧ (tagPlace s r.src r.tag = .before →
      ∃ t, exec (received op r) s = .next t ∧ NoTrace s t r
        ∧ (if accumulates op then Replied s t op r false .outcomeUnknown 0 [] else Replied s t op r true .success 0 [])))
  ∧ (∀ (s : State) (src : Nat) (x : SrcRec), src < 65536 → srcOf s src = some x →
    (x.heard + 31457280 ≤ s.tmb.free → ∃ t, exec (.sourceRecordExpiry src) s = .next t ∧ srcOf t src = none
        ∧ (∀ k, k ≠ src → srcOf t k = srcOf s k) ∧ t.fab.entries = s.fab.entries)
    ∧ (s.tmb.free < x.heard + 31457280 → exec (.sourceRecordExpiry src) s = .next s))
  ∧ (∀ (s : State) (src tag : Nat) (e : LedgerEntry), src < 65536 → tag < 4294967296 → entryOf s src tag = some e →
    (e.made + 31457280 ≤ s.tmb.free → ∃ t, exec (.ledgerEntryExpiry src tag) s = .next t ∧ entryOf t src tag = none
        ∧ t.fab.sources = s.fab.sources)
    ∧ (s.tmb.free < e.made + 31457280 → exec (.ledgerEntryExpiry src tag) s = .next s))

/-- R410, R411, R417, R420: the requester's side of a tag. That a combined reply is matched by its tag alone is the model's reading
(assumption 167). -/
def TagStates : Prop :=
  (∀ (s : State) (r : FabReply), (statusOf r.status).isSome = true → r.tag < 4294967296 →
    (∀ (x : TagRec) (st : Status), r.dst = s.fab.device → tagOf s r.src r.tag = some x → statusOf r.status = some st →
      (x.state = .issued → st ≠ .busy → (∀ n, x.origin ≠ .barrier n) →
        ∃ t, exec (.fabricReply r) s = .next t
          ∧ (∀ y, tagOf t r.src r.tag = some y → y.state = .resolved ∧ y.status = st ∧ y.result = r.result)
          ∧ ((x.op = .load ∨ x.op = .get) → (∃ c m u, x.origin = .micro c m u) → x.detached = false → st = .success →
              memReadBytes t.mem (placeAt x.retPlace x.retAddr) r.data.length = r.data)
          ∧ (st ≠ .success → t.mem = s.mem))
      ∧ ((x.state ≠ .issued ∨ st = .busy) →
        ∃ t, exec (.fabricReply r) s = .next t ∧ t.fab.tags = s.fab.tags ∧ t.mem = s.mem))
    ∧ (∀ (k : Nat) (x : TagRec) (st : Status), r.dst = s.fab.device → tagOf s r.src r.tag = none → r.combined = true →
      s.fab.tags = [(k, x)] → k % 4294967296 = r.tag → x.state = .issued → x.req.combined = true → statusOf r.status = some st →
      st ≠ .busy → (∀ n, x.origin ≠ .barrier n) →
      ∃ t, exec (.fabricReply r) s = .next t
        ∧ ∀ y, tabFind? t.fab.tags k = some y → y.state = .resolved ∧ y.status = st ∧ y.result = r.result)
    ∧ ((r.dst ≠ s.fab.device ∨ (tagOf s r.src r.tag = none ∧ r.combined = false ∧ r.src ≠ s.fab.gateway)) →
      ∃ t, exec (.fabricReply r) s = .next t ∧ t.fab.tags = s.fab.tags ∧ t.mem = s.mem))
  ∧ (∀ (s : State) (dst tag : Nat) (x : TagRec), dst < 65536 → tag < 4294967296 → tagOf s dst tag = some x →
    x.state = .issued → originResets s x.origin = false → (∀ n, x.origin ≠ .barrier n) →
    (x.lastTx + replyWait s dst ≤ s.tmb.free → x.attempt < 8 →
      ∃ t y, exec (.replyTimeout dst tag) s = .next t ∧ tagOf t dst tag = some y ∧ y.state = .issued
        ∧ y.attempt = x.attempt + 1 ∧ y.req.firstStamp = x.req.firstStamp ∧ y.req.tag = x.req.tag ∧ y.lastTx = s.tmb.free
        ∧ t.fab.ctr.retries = ctrInc s.fab.ctr.retries ∧ t.fab.nextTag = s.fab.nextTag ∧ t.mem = s.mem)
    ∧ (x.lastTx + replyWait s dst ≤ s.tmb.free → 8 ≤ x.attempt →
      ∃ t y, exec (.replyTimeout dst tag) s = .next t ∧ tagOf t dst tag = some y ∧ y.state = .abandoned
        ∧ y.status = .fabricTimeout ∧ t.fab.ctr.timeouts = ctrInc s.fab.ctr.timeouts ∧ t.mem = s.mem)
    ∧ (s.tmb.free < x.lastTx + replyWait s dst → exec (.replyTimeout dst tag) s = .next s))
  ∧ (∀ (s : State) (dst tag : Nat) (x : TagRec), dst < 65536 → tag < 4294967296 → tagOf s dst tag = some x →
    x.state = .abandoned →
    (x.req.firstStamp + s.fab.lifetime < corrNow s →
      ∃ t, exec (.lifetimeExpiry dst tag) s = .next t ∧ ∀ y, tagOf t dst tag = some y → y.state = .resolved)
    ∧ (corrNow s ≤ x.req.firstStamp + s.fab.lifetime → exec (.lifetimeExpiry dst tag) s = .next s))
  ∧ (∀ (s : State) (c : Nat) (o : FabOrigin) (d : FabDesc), c < 256 → s.fab.issueWait = [(o, d)] → d.ctx = some c →
    accumulates d.op = false →
    (tagWaits s d.req.dst = false →
      ∃ t y, exec (.fabricIssueResume c) s = .next t ∧ t.fab.issueWait = []
        ∧ tagOf t d.req.dst (nextTag s d.req.dst) = some y ∧ y.state = .issued ∧ y.op = d.op
        ∧ nextTag t d.req.dst = tagAfter (nextTag s d.req.dst))
    ∧ (tagWaits s d.req.dst = true → exec (.fabricIssueResume c) s = .next s))

/-- R416: what a fence covers, when it completes and with what status. -/
def Fences : Prop :=
  (∀ (s : State) (c m u : Nat) (scope : Option Nat) (r : RunningMicro), c < 256 → isMover u = true →
    lentOf s c m = some r → u ∈ r.units → working s u = true →
    ((∃ k ∈ fenceTags s c scope, tagOver s k = false) →
      ∃ t, exec (.ffence c m u scope) s = .next t
        ∧ t.fab.fences = s.fab.fences ++ [{ ctx := c, micro := m, mover := u, tags := fenceTags s c scope }]
        ∧ t.fab.tags = s.fab.tags ∧ t.mem = s.mem)
    ∧ ((∀ k ∈ fenceTags s c scope, ∃ x, tabFind? s.fab.tags k = some x ∧ x.state ≠ .issued ∧ x.status = .success) →
      ∃ t, exec (.ffence c m u scope) s = .next t ∧ t.fab = s.fab ∧ t.srv = s.srv ∧ t.hlt.log = s.hlt.log))
  ∧ (∀ (s : State) (c : Nat) (scope : Option Nat) (k : Nat), k ∈ fenceTags s c scope →
    ∃ x, (k, x) ∈ s.fab.tags ∧ x.op ≠ .load ∧ x.op ≠ .get ∧ (∃ m u, x.origin = .micro c m u)
      ∧ ∀ d, scope = some d → k / 4294967296 = d)
  ∧ (∀ (s : State) (c : Nat) (f : Fence), c < 256 → s.fab.fences = [f] → f.ctx = c →
    ((∀ k ∈ f.tags, tagOver s k = true) →
      ∃ t, exec (.ffenceComplete c) s = .next t ∧ t.fab.fences = [] ∧ t.fab.tags = s.fab.tags
        ∧ ((∀ k ∈ f.tags, ∀ x, tabFind? s.fab.tags k = some x → x.status = .success) → t.srv = s.srv)
        ∧ ∀ a b k x q y, f.tags = a ++ k :: b → (∀ j ∈ a, ∀ z, tabFind? s.fab.tags j = some z → z.status = .success) →
            tabFind? s.fab.tags k = some x → x.status ≠ .success → (ctxOf s c).step = some q →
            tabFind? q.micros f.micro = some y → y.status = .success → (microOf t c f.micro).status = x.status)
    ∧ ((∃ k ∈ f.tags, tagOver s k = false) → exec (.ffenceComplete c) s = .next s))

/-! ### Chapter 15: synchronisation and determinism -/

/-- R427, R434, R442, R443: objects come, go and return to their state at creation. -/
def SyncObjects : Prop :=
  (∀ (s : State) (m p n type : Nat) (c : Cmd) (q : Req), Due s m 0x0700 c →
    q = { m := m, target := targetOf m c, cmd := c } → targetOf m c = p → p < 64 → type = field c.payload 2 1 →
    (((type = 5 ∧ field c.payload 4 4 = 0) ∨ (type = 3 ∧ field c.payload 16 4 = 0)) →
      ∃ t, exec (.syncCreate m) s = .next t ∧ Answered t m c .zeroNotAllowed [] ∧ t.syn = s.syn)
    ∧ (¬ ((type = 5 ∧ field c.payload 4 4 = 0) ∨ (type = 3 ∧ field c.payload 16 4 = 0)) →
      (syncFieldsBad s q = true → ∃ t, exec (.syncCreate m) s = .next t ∧ Answered t m c .badField [] ∧ t.syn = s.syn)
      ∧ (syncFieldsBad s q = false →
        ((if bit (field c.payload 3 1) 2 then n < 65536 ∧ (objOf s n).type = 0 ∧ ∀ k < n, (objOf s k).type ≠ 0
          else n = field c.payload 0 2 ∧ (objOf s n).type = 0) →
          (partObjects s p < (partOf s p).syncObjects →
            ∃ t, exec (.syncCreate m) s = .next t ∧ Answered t m c .success (leBytes 2 n)
              ∧ (objOf t n).type = type ∧ (objOf t n).part = p ∧ (objOf t n).waiters = [] ∧ (objOf t n).orphaned = false
              ∧ (objOf t n).phase = 0 ∧ (objOf t n).arrived = 0 ∧ (objOf t n).holder = 0xFFFF
              ∧ (type = 1 → (objOf t n).value = field c.payload 8 8)
              ∧ (type = 2 → (objOf t n).set = bit (field c.payload 8 8) 0)
              ∧ (type = 3 → (objOf t n).count = field c.payload 8 8 ∧ (objOf t n).limit = field c.payload 16 4)
              ∧ (type = 5 → (objOf t n).participants = field c.payload 4 4)
              ∧ ∀ k, k ≠ n → objOf t k = objOf s k)
          ∧ ((partOf s p).syncObjects ≤ partObjects s p →
            ∃ t, exec (.syncCreate m) s = .next t ∧ Answered t m c .quota [] ∧ t.syn = s.syn))
        ∧ ((if bit (field c.payload 3 1) 2 then ∀ k < 65536, (objOf s k).type ≠ 0
            else (objOf s (field c.payload 0 2)).type ≠ 0) →
          ∃ t, exec (.syncCreate m) s = .next t ∧ Answered t m c .noResource [] ∧ t.syn = s.syn))))
  ∧ (∀ (s : State) (m p n : Nat) (c : Cmd), Due s m 0x0701 c → targetOf m c = p → p < 64 → n = field c.payload 0 2 →
    ((objOf s n).type ≠ 0 → (objOf s n).part = p → field c.payload 2 1 ≤ 1 →
      ((((objOf s n).waiters ≠ [] ∨ anyHolds s n = true) ∧ field c.payload 2 1 = 0) →
        ∃ t, exec (.syncDestroy m) s = .next t ∧ Answered t m c .busy [] ∧ t.syn = s.syn ∧ t.srv = s.srv)
      ∧ ((((objOf s n).waiters = [] ∧ anyHolds s n = false) ∨ field c.payload 2 1 = 1) →
        ∃ t, exec (.syncDestroy m) s = .next t ∧ Answered t m c .success [] ∧ objOf t n = {}))
    ∧ (((objOf s n).type = 0 ∨ (objOf s n).part ≠ p) →
      ∃ t, exec (.syncDestroy m) s = .next t ∧ Answered t m c .badField [] ∧ t.syn = s.syn))
  ∧ (∀ (s : State) (m p n : Nat) (c : Cmd), Due s m 0x0705 c → targetOf m c = p → p < 64 → n = field c.payload 0 2 →
    (objOf s n).type ≠ 0 → (objOf s n).part = p →
    ((objOf s n).waiters = [] → anyHolds s n = false →
      ∃ t, exec (.syncReset m) s = .next t ∧ Answered t m c .success [] ∧ (objOf t n).orphaned = false
        ∧ (objOf t n).holder = 0xFFFF ∧ (objOf t n).arrived = 0 ∧ (objOf t n).phase = 0
        ∧ ((objOf s n).type = 1 → (objOf t n).value = (objOf s n).initial)
        ∧ ((objOf s n).type = 2 → (objOf t n).set = bit (objOf s n).initial 0)
        ∧ ((objOf s n).type = 3 → (objOf t n).count = (objOf s n).initial)
        ∧ (objOf t n).limit = (objOf s n).limit ∧ (objOf t n).participants = (objOf s n).participants
        ∧ ∀ k, k ≠ n → objOf t k = objOf s k)
    ∧ (((objOf s n).waiters ≠ [] ∨ anyHolds s n = true) →
      ∃ t, exec (.syncReset m) s = .next t ∧ Answered t m c .busy [] ∧ t.syn = s.syn))

/-- R430, R441 to R443: the host's operations on an object, and that an orphan takes none. -/
def HostOperations : Prop :=
  ∀ (s : State) (m p n op a : Nat) (c : Cmd) (o : SyncObj), Due s m 0x0702 c → targetOf m c = p → p < 64 →
    n = field c.payload 0 2 → op = field c.payload 2 1 → a = field c.payload 8 8 → o = objOf s n → o.type ≠ 0 → o.part = p →
    ((hostOp op = false ∨ opType op ≠ o.type) →
      ∃ t, exec (.syncOp m) s = .next t ∧ Answered t m c .badField [] ∧ t.syn = s.syn)
    ∧ (hostOp op = true → opType op = o.type → o.orphaned = true →
      ∃ t, exec (.syncOp m) s = .next t ∧ Answered t m c .ownerLost [] ∧ t.syn = s.syn)
    ∧ (hostOp op = true → opType op = o.type → o.orphaned = false → o.waiters = [] → NoneQueued s →
      (op = 0x01 → ∃ t, exec (.syncOp m) s = .next t ∧ Answered t m c .success []
        ∧ objOf t n = { o with value := (o.value + a) % 2 ^ 64 })
      ∧ (op = 0x02 → ∃ t, exec (.syncOp m) s = .next t ∧ Answered t m c .success [] ∧ objOf t n = { o with value := a })
      ∧ (op = 0x08 → ∃ t, exec (.syncOp m) s = .next t ∧ Answered t m c .success [] ∧ objOf t n = { o with set := true })
      ∧ (op = 0x09 → ∃ t, exec (.syncOp m) s = .next t ∧ Answered t m c .success [] ∧ objOf t n = { o with set := false })
      ∧ (op = 0x10 → o.count + a ≤ o.limit → ∃ t, exec (.syncOp m) s = .next t ∧ Answered t m c .success []
        ∧ objOf t n = { o with count := o.count + a })
      ∧ (op = 0x10 → o.limit < o.count + a → ∃ t, exec (.syncOp m) s = .next t ∧ Answered t m c .badField []
        ∧ objOf t n = o))

/-- R428, R429, R442, R444: queries and the dump. -/
def SyncReports : Prop :=
  (∀ (s : State) (m p n : Nat) (c : Cmd), Due s m 0x0703 c → targetOf m c = p → p < 64 → n = field c.payload 0 2 →
    (objOf s n).type ≠ 0 → (objOf s n).part = p →
    ∃ t, exec (.syncQuery m) s = .next t ∧ t.syn = s.syn ∧ Answered t m c .success
      (objRecord s n ++ (List.range (min 64 (objOf s n).waiters.length)).flatMap (waiterBytes s n)))
  ∧ (∀ (s : State) (m p dst len : Nat) (c : Cmd), Due s m 0x0704 c → targetOf m c = p → p < 64 →
    dst = field c.payload 0 8 → len = field c.payload 8 4 → dst % 64 = 0 → field c.payload 12 1 ≤ 1 →
    (isVf m = true → field c.payload 12 1 = 0) → (len ≠ 0 → inTarget s p dst len = true) →
    ∃ t v d, d = dumpBytes s p (field c.payload 12 1 = 1) v ∧ exec (.syncDump m) s = .next t
      ∧ Answered t m c .success (leBytes 8 d.length) ∧ hdmRead t dst (min len d.length) = d.take len
      ∧ (∀ a, (a < hdmAt dst ∨ hdmAt dst + len ≤ a) → memRead t.mem a = memRead s.mem a) ∧ t.syn = s.syn)
  ∧ (∀ (s : State) (m : Nat) (c : Cmd), Due s m 0x0704 c → targetOf m c < 64 → field c.payload 0 8 % 64 = 0 →
    isVf m = true → field c.payload 12 1 = 1 →
    ∃ t, exec (.syncDump m) s = .next t ∧ Answered t m c .notPermitted [] ∧ t.mem = s.mem)

/-- R431, R433: a SYNC descriptor is only recorded; the list at the engine's front is applied when its micro-step has
ended. -/
def SyncLists : Prop :=
  (∀ (s : State) (c m : Nat) (d : SyncDesc) (r : RunningMicro) (q : StepRun) (k : MicroRun), c < 256 →
    lentOf s c m = some r → bindUnit (ctxOf s c).bind d.unit ∈ r.units →
    working s (bindUnit (ctxOf s c).bind d.unit) = true → (ctxOf s c).step = some q → tabFind? q.micros m = some k →
    ∃ t, exec (.syncDescriptor c m d) s = .next t ∧ microOf t c m = { k with sync := k.sync ++ [d] } ∧ t.syn = s.syn
      ∧ t.mem = s.mem)
  ∧ (∀ (s : State) (c m tick n : Nat) (rest : List (Nat × Nat × Nat)) (d : SyncDesc) (o : SyncObj), c < 256 →
    s.syn.lists = (tick, c, m) :: rest → (microOf s c m).sync = [d] → n = d.object → o = objOf s n → o.type ≠ 0 →
    o.part = (ctxOf s c).part → o.orphaned = false → o.waiters = [] →
    (d.op = 0x01 → o.type = 1 →
      ∃ t, exec (.syncListApply c m) s = .next t ∧ (objOf t n).value = (o.value + d.amount) % 2 ^ 64
        ∧ ∀ l ∈ t.syn.lists, l ∈ rest)
    ∧ (d.op = 0x08 → o.type = 2 →
      ∃ t, exec (.syncListApply c m) s = .next t ∧ (objOf t n).set = true ∧ ∀ l ∈ t.syn.lists, l ∈ rest)
    ∧ (d.op = 0x10 → o.type = 3 → o.count + d.amount ≤ o.limit →
      ∃ t, exec (.syncListApply c m) s = .next t ∧ (objOf t n).count = o.count + d.amount ∧ ∀ l ∈ t.syn.lists, l ∈ rest))
  ∧ (∀ (s : State) (c m : Nat), c < 256 → (∀ l ∈ s.syn.lists.head?, l.2 ≠ (c, m)) →
    exec (.syncListApply c m) s = .next s)

/-- R429, R430, R434, R438: what each operation of a micro-step does to its object and to the holdings of its context. -/
def MicroOperations : Prop :=
  ∀ (s : State) (c m : Nat) (d : SyncDesc) (o : SyncObj), o = objOf s d.object → o.type ≠ 0 → o.part = (ctxOf s c).part →
    (ctxOf s c).state ≠ .absent →
    (o.orphaned = true → applyDesc c m d s = (s, .ownerLost, []))
    ∧ (o.orphaned = false →
      ((opType d.op ≠ o.type ∨ d.op = 2 ∨ d.op = 9) → applyDesc c m d s = (s, .notPermitted, []))
      ∧ (d.op = 0x03 → o.type = 1 → d.amount ≤ o.value → applyDesc c m d s = (s, .success, []))
      ∧ (d.op = 0x03 → o.type = 1 → o.value < d.amount → waiterCount s < 32768 →
        (applyDesc c m d s).2.1 = .success ∧ objOf (applyDesc c m d s).1 d.object
          = { o with waiters := o.waiters ++ [{ ctx := c, op := 3, micro := m, arg := d.amount }] })
      ∧ (d.op = 0x03 → o.type = 1 → o.value < d.amount → 32768 ≤ waiterCount s →
        applyDesc c m d s = (s, .noResource, []))
      ∧ (d.op = 0x11 → o.type = 3 → d.amount ≠ 0 → o.waiters = [] → d.amount ≤ o.count →
        (applyDesc c m d s).2.1 = .success
          ∧ objOf (applyDesc c m d s).1 d.object = { o with count := o.count - d.amount })
      ∧ (d.op = 0x12 → o.type = 3 → d.amount ≠ 0 → o.waiters = [] → d.amount ≤ o.count → canHold s c d.object = true →
        (applyDesc c m d s).2.1 = .success
          ∧ objOf (applyDesc c m d s).1 d.object = { o with count := o.count - d.amount }
          ∧ holdingOf (applyDesc c m d s).1 c d.object = some ((holdingOf s c d.object).getD 0 + d.amount))
      ∧ (d.op = 0x12 → o.type = 3 → d.amount ≠ 0 → o.waiters = [] → d.amount ≤ o.count → canHold s c d.object = false →
        applyDesc c m d s = (s, .noResource, []))
      ∧ (d.op = 0x13 → o.type = 3 → (holdingOf s c d.object).getD 0 < d.amount →
        applyDesc c m d s = (s, .notOwner, []))
      ∧ (d.op = 0x18 → o.type = 4 → o.holder = c → applyDesc c m d s = (s, .notPermitted, []))
      ∧ (d.op = 0x18 → o.type = 4 → o.holder = 0xFFFF → c < 256 → o.waiters = [] → canHold s c d.object = true →
        (applyDesc c m d s).2.1 = .success ∧ objOf (applyDesc c m d s).1 d.object
            = { o with holder := c, holderStep := (ctxOf s c).rng.step }
          ∧ holdingOf (applyDesc c m d s).1 c d.object = some 1)
      ∧ (d.op = 0x19 → o.type = 4 → o.holder ≠ c → applyDesc c m d s = (s, .notOwner, []))
      ∧ (d.op = 0x20 → o.type = 5 → (holdingOf s c d.object).isSome = true → applyDesc c m d s = (s, .notPermitted, []))
      ∧ (d.op = 0x20 → o.type = 5 → holdingOf s c d.object = none → canHold s c d.object = true →
          o.arrived + 1 < o.participants →
        (applyDesc c m d s).2.1 = .success ∧ objOf (applyDesc c m d s).1 d.object = { o with arrived := o.arrived + 1 }
          ∧ holdingOf (applyDesc c m d s).1 c d.object = some o.phase)
      ∧ (d.op = 0x20 → o.type = 5 → holdingOf s c d.object = none → canHold s c d.object = true →
          o.participants ≤ o.arrived + 1 → o.distributed = false → o.waiters = [] →
        (applyDesc c m d s).2.1 = .success
          ∧ objOf (applyDesc c m d s).1 d.object = { o with arrived := 0, phase := (o.phase + 1) % 4294967296 }))

/-- R432, R441: grants leave nothing that could be granted, semaphores and mutexes only from the head; orphaning releases
every waiter and every holding. -/
def GrantsAndOrphans : Prop :=
  (∀ (s : State) (n : Nat),
    (headOnly (objOf s n).type = true →
      ∀ w, (objOf (grant n s) n).waiters.head? = some w → waitHolds (objOf (grant n s) n) w = false)
    ∧ (headOnly (objOf s n).type = false →
      ∀ w ∈ (objOf (grant n s) n).waiters, waitHolds (objOf (grant n s) n) w = false)
    ∧ (objOf (grant n s) n).waiters.Sublist (objOf s n).waiters)
  ∧ (∀ (s : State) (n cause c : Nat), (objOf s n).type ≠ 0 → (objOf s n).orphaned = false →
    (objOf (orphan n cause c s) n).orphaned = true ∧ (objOf (orphan n cause c s) n).waiters = []
    ∧ (∀ x ∈ (orphan n cause c s).srv.ctxs, ∀ h ∈ x.2.holdings, h.1 ≠ n)
    ∧ (∀ w ∈ (objOf s n).waiters, ∀ r, (ctxOf s w.ctx).step = some r → r.ending = none →
        ∃ r', (ctxOf (orphan n cause c s) w.ctx).step = some r' ∧ r'.ending = some .ownerLost)
    ∧ (∀ k, k ≠ n → objOf (orphan n cause c s) k = objOf s k))

/-- A request that reaches an object through a window of kind 1 (R409, R437). -/
abbrev ReachesObject (s : State) (op : FabOp) (r : FabReq) (w : FabWindow) (n ofs : Nat) : Prop :=
  reqOk op r = true ∧ Reaches s r ∧ tagPlace s r.src r.tag = .fresh ∧ tabHas s.quarantine r.job = false
    ∧ jobOnDevice s r.job = true ∧ windowFor s r.job r.addr r.length = some w ∧ w.kind = 1 ∧ windowAllows w op = true
    ∧ ¬ (isCombined r = true ∧ w.comb = false) ∧ (partHeld s w.part = false ∨ op = .load ∨ op = .get)
    ∧ (accumulates op = true → (releaseEntries r.src r.ackFloor s).fab.entries.length < 262144)
    ∧ ((srcOf s r.src).isSome = true ∨ s.fab.sources.length < 256)
    ∧ w.offset + (r.addr - w.base) = 32 * n + ofs ∧ ofs < 32

/-- R435, R437: fabric requests on synchronisation objects. -/
def FabricObjects : Prop :=
  ∀ (s : State) (op : FabOp) (r : FabReq) (w : FabWindow) (n ofs : Nat) (o : SyncObj), ReachesObject s op r w n ofs →
    o = objOf s n → ofs + r.length ≤ 32 →
    ((o.type = 0 ∨ o.part ≠ w.part) →
      ∃ t, exec (received op r) s = .next t ∧ Replied s t op r false .windowFault 0 [] ∧ t.syn = s.syn ∧ NoTrace s t r)
    ∧ (o.type ≠ 0 → o.part = w.part → o.orphaned = true →
      ∃ t, exec (received op r) s = .next t ∧ Replied s t op r false .ownerLost 0 [] ∧ t.syn = s.syn ∧ NoTrace s t r)
    ∧ (o.type ≠ 0 → o.part = w.part → o.orphaned = false →
      ((op = .load ∨ op = .get) →
        ∃ t, exec (received op r) s = .next t ∧ t.syn = s.syn
          ∧ Replied s t op r false .success 0 (((objRecord s n).drop ofs).take r.length))
      ∧ (op ≠ .load → op ≠ .get → objectReq s op r n ofs = none →
        ∃ t, exec (received op r) s = .next t ∧ Replied s t op r false .windowFault 0 [] ∧ t.syn = s.syn ∧ NoTrace s t r)
      ∧ (op = .add → r.length = 8 → ofs = 8 → o.waiters = [] → NoneQueued s → frontResiding s = none →
        (o.type = 1 → ∃ t, exec (received op r) s = .next t ∧ Replied s t op r false .success 0 []
          ∧ objOf t n = { o with value := (o.value + r.operand0) % 2 ^ 64 } ∧ t.mem = s.mem)
        ∧ (o.type = 3 → r.operand0 < 4294967296 → o.count + r.operand0 ≤ o.limit →
          ∃ t, exec (received op r) s = .next t ∧ Replied s t op r false .success 0 []
            ∧ objOf t n = { o with count := o.count + r.operand0 } ∧ t.mem = s.mem)
        ∧ (o.type = 3 → 4294967296 ≤ r.operand0 →
          ∃ t, exec (received op r) s = .next t ∧ Replied s t op r false .badField 0 [] ∧ objOf t n = o)
        ∧ (o.type = 5 → o.distributed = true → o.home = true → r.operand0 = 1 → o.arrived + 1 < o.participants →
          ∃ t, exec (received op r) s = .next t ∧ Replied s t op r false .success 0 []
            ∧ objOf t n = { o with arrived := o.arrived + 1 } ∧ t.mem = s.mem))
      ∧ (op = .or → r.length = 8 → ofs = 8 → o.type = 2 → r.operand0 = 1 → o.waiters = [] → NoneQueued s →
          frontResiding s = none →
        ∃ t, exec (received op r) s = .next t ∧ Replied s t op r false .success 0 []
          ∧ objOf t n = { o with set := true } ∧ t.mem = s.mem)
      ∧ (op = .store → r.length = 8 → ofs = 16 → o.type = 5 → o.distributed = true → o.home = false → o.waiters = [] →
          NoneQueued s → frontResiding s = none →
        ∃ t, exec (received op r) s = .next t ∧ Replied s t op r false .success 0 []
          ∧ objOf t n = (if after32 (field r.data 0 4) o.phase then { o with phase := field r.data 0 4 } else o)))

/-! ### Chapter 16: faults, resets and membership -/

/-- R454, R455, R467: a fault record takes the place prod names, is copied to its partition's page, and weighs on the
penalty; the decay of the penalty. -/
def FaultRecords : Prop :=
  (∀ (s : State) (r : FaultRec),
    tabFind? (fault r s).hlt.log.recs (s.hlt.log.prod % 4096) = some { r with tick := s.tmb.free, seq := s.hlt.log.prod }
    ∧ (fault r s).hlt.log.prod = (s.hlt.log.prod + 1) % 4294967296
    ∧ (r.part < 64 → tabFind? (tabGet (fault r s).hlt.vf r.part {}).recs ((tabGet s.hlt.vf r.part {}).prod % 31)
        = some { r with tick := s.tmb.free, seq := (tabGet s.hlt.vf r.part {}).prod })
    ∧ (∀ p, p ≠ r.part → tabGet (fault r s).hlt.vf p {} = tabGet s.hlt.vf p {})
    ∧ (fault r s).hlt.penalty = min 65535 (s.hlt.penalty + faultWeight r.code)
    ∧ ((s.hlt.log.prod + 4294967296 - s.hlt.log.cons) % 4294967296 = 4096 →
        (fault r s).hlt.log.cons = (s.hlt.log.cons + 1) % 4294967296
        ∧ (fault r s).hlt.log.overwritten = ctrInc s.hlt.log.overwritten)
    ∧ ((s.hlt.log.prod + 4294967296 - s.hlt.log.cons) % 4294967296 ≠ 4096 →
        (fault r s).hlt.log.cons = s.hlt.log.cons ∧ (fault r s).hlt.log.overwritten = s.hlt.log.overwritten)
    ∧ (fault r s).mem = s.mem ∧ (fault r s).srv = s.srv ∧ (fault r s).tts = s.tts ∧ (fault r s).fab = s.fab)
  ∧ (∀ (s : State), (s.hlt.decayAt < s.tmb.free / 1966080000 →
      ∃ t, exec .healthDecay s = .next t ∧ t.hlt.penalty = s.hlt.penalty - (s.hlt.penalty + 63) / 64
        ∧ t.hlt.decayAt = s.hlt.decayAt + 1)
    ∧ (s.tmb.free / 1966080000 ≤ s.hlt.decayAt → exec .healthDecay s = .next s))
  ∧ (∀ (s : State) (v : Nat), v < 4294967296 →
    (idxSub s.hlt.log.prod v ≤ idxSub s.hlt.log.prod s.hlt.log.cons →
      exec (.faultLogConsWrite none v) s = .next (s.setHlt { s.hlt with log := { s.hlt.log with cons := v } }))
    ∧ (idxSub s.hlt.log.prod s.hlt.log.cons < idxSub s.hlt.log.prod v → exec (.faultLogConsWrite none v) s = .next s))

/-- R457, R459, R463: what begins a context reset, and how it ends. -/
def ContextResets : Prop :=
  (∀ (s : State) (m n : Nat) (c : Cmd), Due s m 0x0800 c → field c.payload 0 1 = 0 → n = field c.payload 2 2 → n < 256 →
    ((ctxOf s n).state ≠ .absent → (ctxOf s n).part = targetOf m c → tabFind? s.hlt.ctxReset n = none →
        (∃ h < 64, tabHas s.ops h = false) →
      ∃ t h, exec (.hltReset m) s = .next t ∧ Accepted t m c h
        ∧ tabFind? t.hlt.ctxReset n = some { trigger := s.tmb.free, status := .aborted, handle := some h }
        ∧ (ctxOf t n).held = true ∧ (∀ r ∈ t.tts.lent, r.ctx ≠ n) ∧ (∀ r ∈ t.tts.ready, r.ctx ≠ n)
        ∧ (∀ l ∈ t.syn.lists, l.2.1 ≠ n) ∧ (∀ f ∈ t.fab.fences, f.ctx ≠ n))
    ∧ (((ctxOf s n).state = .absent ∨ (ctxOf s n).part ≠ targetOf m c) →
      ∃ t, exec (.hltReset m) s = .next t ∧ Answered t m c .contextState [] ∧ t.hlt = s.hlt ∧ t.srv = s.srv))
  ∧ (∀ (s : State) (c : Nat) (r : CtxReset), c < 256 → inPhaseB s = false → tabFind? s.hlt.ctxReset c = some r →
    ∃ t, exec (.contextResetDone c) s = .next t ∧ tabFind? t.hlt.ctxReset c = none ∧ (ctxOf t c).step = none
      ∧ (ctxOf t c).held = false ∧ (ctxOf t c).rng.step = (ctxOf s c).rng.step
      ∧ ∀ h o, opOf s h = some o → o.opcode = 0x0800 → o.obj = c → o.finished = false → Ended t h .success [])
  ∧ (∀ (s : State) (c : Nat) (r : StepRun), c < 256 → (ctxOf s c).step = some r → (ctxOf s c).state ≠ .absent →
    tabFind? s.hlt.ctxReset c = none →
    (r.start + s.hlt.inferenceWindow ≤ s.tmb.free → s.tts.lent.length < 4096 →
      ∃ t rec, exec (.inferenceHang c) s = .next t
        ∧ tabFind? t.hlt.ctxReset c = some { trigger := s.tmb.free, status := .hung, handle := none }
        ∧ tabFind? t.hlt.log.recs (s.hlt.log.prod % 4096) = some rec ∧ rec.code = 6 ∧ rec.status = some .hung
        ∧ rec.owner = c ∧ rec.reset = 1)
    ∧ (s.tmb.free < r.start + s.hlt.inferenceWindow → exec (.inferenceHang c) s = .next s))
  ∧ (∀ (s : State) (u k n p : Nat) (r : Reservation), unitExists s.grade u = true → isEndpoint u = false →
    (unitRun s u).holder = .radio k n p → resvOf s k n p = some r → r.ended = none →
    ((tabGet s.hlt.progress u (0, 0)).2 + s.hlt.radioWindow ≤ s.tmb.free →
      ∃ t i rec, exec (.radioHang u) s = .next t ∧ tabFind? t.hlt.log.recs i = some rec ∧ rec.code = 6
        ∧ rec.status = some .hung ∧ rec.unit = u ∧ t.mem = s.mem)
    ∧ (s.tmb.free < (tabGet s.hlt.progress u (0, 0)).2 + s.hlt.radioWindow → exec (.radioHang u) s = .next s))
  ∧ (∀ (s : State) (c : Nat) (r : CtxReset), c < 256 → tabFind? s.hlt.ctxReset c = some r → s.hlt.grid = none →
    (r.trigger + 78643 < s.tmb.free → ∃ t, exec (.resetOverrun (some c)) s = .next t ∧ t.hlt.grid.isSome = true
        ∧ t.hlt.gridResets = ctrInc s.hlt.gridResets)
    ∧ (s.tmb.free ≤ r.trigger + 78643 → exec (.resetOverrun (some c)) s = .next s))

/-- R460, R462, R463, R465, R477, R478: grid and device resets. -/
def GridResets : Prop :=
  (∀ (s : State) (m : Nat) (c : Cmd), Due s m 0x0800 c → field c.payload 0 1 ≠ 0 →
    (2 < field c.payload 0 1 → ∃ t, exec (.hltReset m) s = .next t ∧ Answered t m c .badField [] ∧ t.hlt = s.hlt)
    ∧ (field c.payload 0 1 ≤ 2 → isVf m = true →
      ∃ t, exec (.hltReset m) s = .next t ∧ Answered t m c .notPermitted [] ∧ t.hlt = s.hlt)
    ∧ (field c.payload 0 1 = 1 → isVf m = false → s.hlt.grid = none → (∃ h < 64, tabHas s.ops h = false) →
      ∃ t h g, exec (.hltReset m) s = .next t ∧ Accepted t m c h ∧ t.hlt.grid = some g ∧ g.trigger = s.tmb.free
        ∧ g.phaseB = none ∧ g.handle = some h ∧ t.hlt.gridResets = ctrInc s.hlt.gridResets)
    ∧ (field c.payload 0 1 = 2 → isVf m = false →
      ∃ t, exec (.hltReset m) s = .next t ∧ Answered t m c .success [] ∧ t.hlt.leaving = true ∧ t.dev.dawnDone = false
        ∧ (∀ p ∈ t.fab.ports, p.2.link = false) ∧ (∀ x ∈ t.fh.macs, x.2.link = false) ∧ t.noon = []))
  ∧ (∀ (s : State) (g : GridReset), s.hlt.grid = some g → g.phaseB = none →
    (anyTableRuns s = false →
      ∃ t, exec .gridResetPhaseB s = .next t ∧ t.hlt.grid = some { g with phaseB := some s.tmb.free }
        ∧ t.grd.units = [] ∧ t.tiles = [] ∧ t.cde.engines = [] ∧ t.tts.lent = [] ∧ t.tts.ready = []
        ∧ (∀ e ∈ t.grd.sb, e.2.produced = 0 ∧ e.2.consumed = 0)
        ∧ (∀ a, arrayAt 0 0 ≤ a → a < seqAt 0 → memRead t.mem a = 0 ∧ a ∉ t.hlt.bad)
        ∧ (∀ c, (ctxOf s c).state ≠ .absent → (ctxOf t c).step = none))
    ∧ (anyTableRuns s = true → exec .gridResetPhaseB s = .next s))
  ∧ (∀ (s : State) (g : GridReset) (b : Nat) (failed : List Nat), s.hlt.grid = some g → g.phaseB = some b →
    (∀ u ∈ failed, (isQuad u = true ∨ isTile u = true) ∧ unitExists s.grade u = true) →
    ∃ t, exec (.gridResetDone failed) s = .next t ∧ t.hlt.grid = none ∧ (∀ u ∈ failed, u ∈ t.hlt.outOfService)
      ∧ (∀ c, tabFind? t.hlt.ctxReset c = none)
      ∧ ∀ h o, opOf s h = some o → o.opcode = 0x0800 → o.obj = gridObj → o.finished = false → Ended t h .success [])
  ∧ (∀ (s : State) (g : GridReset) (b : Nat), s.hlt.grid = some g → g.phaseB = some b → s.hlt.leaving = false →
    (b + 3932160 < s.tmb.free → ∃ t rec, exec (.resetOverrun none) s = .next t ∧ t.hlt.leaving = true
        ∧ tabFind? t.hlt.log.recs (s.hlt.log.prod % 4096) = some rec ∧ rec.code = 0xD ∧ rec.reset = 4)
    ∧ (s.tmb.free ≤ b + 3932160 → exec (.resetOverrun none) s = .next s))
  ∧ (∀ (s : State) (m r i : Nat) (c : Cmd), Due s m 0x0801 c → r = field c.payload 0 4 → i = field c.payload 4 4 →
    ((r = 0 ∨ (19661 ≤ r ∧ r ≤ 3932160)) → (i = 0 ∨ (41287680 ≤ i ∧ i ≤ 1966080000)) →
      ((r = 0 ∨ ∀ x ∈ loadedTables s, x.tmpl.longestWait < r) →
        ∃ t, exec (.hltWindows m) s = .next t ∧ Answered t m c .success []
          ∧ t.hlt = { s.hlt with radioWindow := if r = 0 then s.hlt.radioWindow else r,
                                 inferenceWindow := if i = 0 then s.hlt.inferenceWindow else i })
      ∧ (r ≠ 0 → (∃ x ∈ loadedTables s, r ≤ x.tmpl.longestWait) →
        ∃ t, exec (.hltWindows m) s = .next t ∧ Answered t m c .notPermitted [] ∧ t.hlt = s.hlt))
    ∧ (((r ≠ 0 ∧ (r < 19661 ∨ 3932160 < r)) ∨ (i ≠ 0 ∧ (i < 41287680 ∨ 1966080000 < i))) →
      ∃ t, exec (.hltWindows m) s = .next t ∧ Answered t m c .badField [] ∧ t.hlt = s.hlt))

/-- R468 to R470: heartbeats, and the device that hears no majority. -/
def Heartbeats : Prop :=
  (∀ (s : State) (h : Nat), h = corrNow s / max 1 s.mbr.period * s.mbr.period → s.mbr.member = true →
    s.hlt.leaving = false → s.dev.dawnDone = true → h ≠ s.mbr.sentAt →
    (∃ t, exec .heartbeatSend s = .next t
      ∧ ∀ d ∈ s.mbr.members, d ≠ selfDev s → ∃ b, Out.heartbeat d b ∈ t.out ∧ b.sender = selfDev s
          ∧ b.epoch = s.mbr.epoch ∧ b.tick = h ∧ b.health = healthScore s.hlt.penalty ∧ b.twilight = s.dev.twilight)
    ∧ (majority s ≤ (silentAt s h).length →
      ∃ t, exec .heartbeatSend s = .next t ∧ t.mbr.member = false))
  ∧ (∀ (s : State), (s.mbr.member = false ∨ s.hlt.leaving = true ∨ s.dev.dawnDone = false) →
    exec .heartbeatSend s = .next s)
  ∧ (∀ (s : State) (b : Beat), b.sender < 64 → b.health ≤ 1000 →
    ∃ t x, exec (.heartbeat b) s = .next t ∧ tabFind? t.mbr.heard b.sender = some x ∧ x.beat = b ∧ x.ticks.head? = some b.tick)
  ∧ (∀ (s : State) (h e : Nat), e ∈ silentAt s h →
    e ∈ s.mbr.members ∧ e ≠ selfDev s
    ∧ ∀ i, 1 ≤ i → i ≤ 3 → (h - i * s.mbr.period) ∉ (tabGet s.mbr.heard e {}).ticks)
  ∧ (∀ (s : State) (e : Nat), coordinator s = some e →
    e ∈ s.mbr.members ∧ e ∉ suspected s ∧ ∀ d ∈ s.mbr.members, d ∉ suspected s → e ≤ d)

/-- R469, R473: the two phases of the agreement as each side runs them. -/
def Agreement : Prop :=
  (∀ (s : State) (src ep n : Nat), src < 64 →
    (s.mbr.member = true → ep = s.mbr.epoch + 1 → s.mbr.promised < n →
      ∃ t, exec (.prepare src ep n) s = .next t ∧ t.mbr = { s.mbr with promised := n }
        ∧ t.out = s.out ++ [.promise src ep n s.mbr.lastProposal])
    ∧ ((s.mbr.member = false ∨ ep ≠ s.mbr.epoch + 1 ∨ n ≤ s.mbr.promised) → exec (.prepare src ep n) s = .next s))
  ∧ (∀ (s : State) (src : Nat) (p : Proposal), src < 64 →
    (s.mbr.member = true → p.epoch = s.mbr.epoch + 1 → s.mbr.promised ≤ p.round →
      ∃ t, exec (.proposal src p) s = .next t ∧ t.mbr = { s.mbr with promised := p.round, lastProposal := some p }
        ∧ t.out = s.out ++ [.acceptance src p.epoch p.round])
    ∧ ((s.mbr.member = false ∨ p.epoch ≠ s.mbr.epoch + 1 ∨ p.round < s.mbr.promised) →
      exec (.proposal src p) s = .next s))
  ∧ (∀ (s : State) (src : Nat) (last : Option Proposal) (r : Round), src < 64 → s.mbr.round = some r → r.sent = none →
    src ∈ s.mbr.members → (∀ x ∈ r.promises, x.1 ≠ src) →
    (r.promises.length + 1 < majority s →
      ∃ t, exec (.promise src (s.mbr.epoch + 1) r.round last) s = .next t ∧ t.out = s.out
        ∧ t.mbr = { s.mbr with round := some { r with promises := r.promises ++ [(src, last)] } })
    ∧ (majority s ≤ r.promises.length + 1 →
      ∃ t p, exec (.promise src (s.mbr.epoch + 1) r.round last) s = .next t ∧ p.round = r.round
        ∧ p.epoch = s.mbr.epoch + 1
        ∧ p.members = ((highestReturned (r.promises ++ [(src, last)])).getD r.want).members
        ∧ ∀ d ∈ s.mbr.members, d ≠ selfDev s → Out.proposal d p ∈ t.out))
  ∧ (∀ (l : List (Nat × Option Proposal)) (p : Proposal), highestReturned l = some p →
    (∃ d, (d, some p) ∈ l) ∧ ∀ d q, (d, some q) ∈ l → q.round ≤ p.round)
  ∧ (∀ (s : State) (src : Nat) (r : Round) (p : Proposal), src < 64 → s.mbr.round = some r → r.sent = some p →
    src ∈ s.mbr.members → src ∉ r.accepted → p.epoch = s.mbr.epoch + 1 →
    (r.accepted.length + 1 < majority s →
      ∃ t, exec (.acceptance src (s.mbr.epoch + 1) r.round) s = .next t ∧ t.out = s.out
        ∧ t.mbr = { s.mbr with round := some { r with accepted := r.accepted ++ [src] } })
    ∧ (majority s ≤ r.accepted.length + 1 →
      ∃ t, exec (.acceptance src (s.mbr.epoch + 1) r.round) s = .next t ∧ t.mbr.epoch = p.epoch ∧ t.mbr.members = p.members
        ∧ ∀ d ∈ s.mbr.members, d ≠ selfDev s → Out.commit d p (corrNow s) ∈ t.out))
  ∧ (∀ (s : State) (r : Round), s.mbr.round = some r → 2 ≤ s.mbr.members.length →
    (r.started + 786432 ≤ s.tmb.free →
      ∃ t, exec .roundTimeout s = .next t ∧ ∀ r', t.mbr.round = some r' → r.round < r'.round)
    ∧ (s.tmb.free < r.started + 786432 → exec .roundTimeout s = .next s))
  ∧ (∀ (s : State) (p : Proposal), wanted s = some p →
    p.epoch = s.mbr.epoch + 1
    ∧ (∀ e ∈ suspected s, e ∈ s.mbr.silent → e ∉ p.members)
    ∧ (budgetAllows s = false → ∀ e ∈ suspected s, e ∉ s.mbr.silent → e ∈ p.members ∧ e ∈ p.twilight))

/-- R470 to R474: what the adoption of an epoch does. -/
def EpochAdoption : Prop :=
  ∀ (s : State) (p : Proposal) (e : Nat), (∀ d ∈ p.members, d < 64) →
    (s.mbr.member = true → s.mbr.epoch < p.epoch → 2 ≤ p.members.length →
      ∃ t, exec (.commit p e) s = .next t ∧ t.mbr.epoch = p.epoch ∧ t.mbr.members = p.members
        ∧ t.mbr.twilightSet = p.twilight ∧ t.mbr.outstanding = p.outstanding
        ∧ t.hlt.expulsions = ctrAdd s.hlt.expulsions (s.mbr.members.filter (fun d => !p.members.contains d)).length
        ∧ t.mbr.member = p.members.contains (selfDev s)
        ∧ (t.dev.twilight = true ↔ selfDev s ∈ p.twilight)
        ∧ (selfDev s ∈ p.twilight → s.dev.twilight = false →
            ∀ c, (∀ r, (ctxOf s c).step = some r → r.cas = false) → (ctxOf t c).queue = [] ∧ (ctxOf t c).step = none))
    ∧ ((s.mbr.member = false) → exec (.commit p e) s = .next s)

/-- R471, R477, R478: the membership commands. -/
def MembershipCommands : Prop :=
  (∀ (s : State) (m : Nat) (c : Cmd), Due s m 0x0810 c →
    (s.mbr.member = true → (∃ d ∈ s.mbr.members, d ≠ selfDev s) →
      ∃ t, exec (.memberConfig m) s = .next t ∧ Answered t m c .notPermitted [] ∧ t.mbr = s.mbr)
    ∧ ((s.mbr.member = false ∨ ∀ d ∈ s.mbr.members, d = selfDev s) →
      ((field c.payload 16 4 = 0 ∨ field c.payload 20 1 = 0 ∨ field c.payload 24 8 = 0) →
        ∃ t, exec (.memberConfig m) s = .next t ∧ Answered t m c .zeroNotAllowed [] ∧ t.mbr = s.mbr)
      ∧ (field c.payload 16 4 ≠ 0 → field c.payload 20 1 ≠ 0 → field c.payload 24 8 ≠ 0 →
        ((bit (field c.payload 0 8) (selfDev s) = false ∨ field c.payload 16 4 < 19661 ∨ 1966080 < field c.payload 16 4
            ∨ field c.payload 34 2 ≤ field c.payload 32 2) →
          ∃ t, exec (.memberConfig m) s = .next t ∧ Answered t m c .badField [] ∧ t.mbr = s.mbr)
        ∧ (bit (field c.payload 0 8) (selfDev s) = true → 19661 ≤ field c.payload 16 4 → field c.payload 16 4 ≤ 1966080 →
            field c.payload 32 2 < field c.payload 34 2 →
          ∃ t, exec (.memberConfig m) s = .next t ∧ Answered t m c .success [] ∧ t.mbr.member = true
            ∧ t.mbr.epoch = field c.payload 8 8 ∧ t.mbr.period = field c.payload 16 4
            ∧ t.mbr.budgetMax = field c.payload 20 1 ∧ t.mbr.budgetPeriod = field c.payload 24 8
            ∧ t.mbr.suspectBelow = field c.payload 32 2 ∧ t.mbr.resumeAbove = field c.payload 34 2
            ∧ ∀ d, d ∈ t.mbr.members ↔ d < 64 ∧ bit (field c.payload 0 8) d = true))))
  ∧ (∀ (s : State) (m : Nat) (c : Cmd), Due s m 0x0811 c →
    ∃ t, exec (.memberQuery m) s = .next t ∧ t.mbr = s.mbr ∧ Answered t m c .success
      (leBytes 8 s.mbr.epoch ++ leBytes 8 (devBits s.mbr.members) ++ leBytes 8 (devBits s.mbr.twilightSet)
        ++ leBytes 2 (((coordinator s).map (fun d => s.fab.device / 64 * 64 + d)).getD 0xFFFF)
        ++ leBytes 1 s.mbr.outstanding ++ leBytes 1 0 ++ leBytes 8 s.mbr.lastUnhealthy))
  ∧ (∀ (s : State) (m d : Nat) (c : Cmd), Due s m 0x0812 c → d = field c.payload 0 2 →
    (s.mbr.member = false → ∃ t, exec (.memberJoin m) s = .next t ∧ Answered t m c .notMember [])
    ∧ (s.mbr.member = true → 2 ≤ s.mbr.members.length →
      (d / 64 ≠ s.fab.device / 64 →
        ∃ t, exec (.memberJoin m) s = .next t ∧ Answered t m c .badField [] ∧ t.mbr.members = s.mbr.members)
      ∧ (d / 64 = s.fab.device / 64 → d % 64 ∉ s.mbr.members → s.mbr.joining = none → (∃ h < 64, tabHas s.ops h = false) →
        ∃ t h, exec (.memberJoin m) s = .next t ∧ Accepted t m c h ∧ t.mbr.joining = some (h, d % 64)
          ∧ t.mbr.members = s.mbr.members ∧ t.mbr.epoch = s.mbr.epoch)))
  ∧ (∀ (s : State) (m d : Nat) (c : Cmd), Due s m 0x0813 c → d = field c.payload 0 2 →
    (s.mbr.member = false → ∃ t, exec (.memberSuspect m) s = .next t ∧ Answered t m c .notMember [])
    ∧ (s.mbr.member = true → d / 64 = s.fab.device / 64 →
      (field c.payload 2 1 = 1 →
        ∃ t, exec (.memberSuspect m) s = .next t ∧ Answered t m c .success [] ∧ d % 64 ∈ t.mbr.named)
      ∧ (field c.payload 2 1 = 0 →
        ∃ t, exec (.memberSuspect m) s = .next t ∧ Answered t m c .success [] ∧ d % 64 ∉ t.mbr.named)))

/-! ### Chapter 17: power, ageing and background work -/

/-- The least of the five requests of R484, never below 2 000 MHz. -/
def clockTarget (p : Power) : Nat :=
  max 2000 (min (min p.fCap p.fTherm) (min p.fMaxNext (if p.uvWarn then 2000 else 2400)))

/-- R484 to R486, R489: the control period: the clock's step, the cap loop, the thermal request and the mirror. -/
def ControlPeriod : Prop :=
  (∀ (s : State) (v : Sensors), v.grid.length ≤ 64 → v.pkg.length ≤ 8 → v.dom.length ≤ 7 →
    s.dev.dawnDone = true → s.pwr.tripped = false → s.pwr.periodStart < s.tmb.free / 1966080 * 1966080 →
    tripped (present s.grade v) = none →
    ∃ t, exec (.controlPeriod v) s = .next t
      ∧ (clockTarget s.pwr < s.grd.clock → s.pwr.stepTo = none → t.grd.clock = s.grd.clock - 25)
      ∧ (s.grd.clock ≤ clockTarget s.pwr → t.grd.clock = s.grd.clock)
      ∧ (s.grd.clock < clockTarget s.pwr → s.pwr.stepTo = none → t.pwr.stepTo = some (s.grd.clock + 25)
          ∧ s.tmb.free ≤ t.pwr.vTick)
      ∧ t.pwr.cap = s.pwr.capNext.getD s.pwr.cap
      ∧ (∀ cap, cap = (if t.pwr.cap = 0 then gradeTdp s.grade else t.pwr.cap) →
          (hottest ((present s.grade v).pkg.drop 6) ≤ 107 * 16 →
            (4 * cap < v.pIn → 2000 < s.pwr.fCap → t.pwr.fCap = s.pwr.fCap - 25 ∧ t.pwr.duty = s.pwr.duty)
            ∧ (4 * cap < v.pIn → s.pwr.fCap ≤ 2000 → t.pwr.fCap = s.pwr.fCap ∧ t.pwr.duty = s.pwr.duty - 8)
            ∧ (100 * v.pIn < 392 * cap → s.pwr.duty < 64 → t.pwr.fCap = s.pwr.fCap ∧ t.pwr.duty = min 64 (s.pwr.duty + 4))
            ∧ (100 * v.pIn < 392 * cap → 64 ≤ s.pwr.duty →
                t.pwr.fCap = min 2400 (s.pwr.fCap + 25) ∧ t.pwr.duty = s.pwr.duty)
            ∧ (392 * cap ≤ 100 * v.pIn → v.pIn ≤ 4 * cap → t.pwr.fCap = s.pwr.fCap ∧ t.pwr.duty = s.pwr.duty)))
      ∧ (95 * 16 < hottest (present s.grade v).grid → t.pwr.fTherm = max 2000 (s.pwr.fTherm - 25))
      ∧ (hottest (present s.grade v).grid ≤ 92 * 16 → t.pwr.fTherm = min 2400 (s.pwr.fTherm + 25))
      ∧ (92 * 16 < hottest (present s.grade v).grid → hottest (present s.grade v).grid ≤ 95 * 16 → t.pwr.fTherm = s.pwr.fTherm)
      ∧ ((∃ x ∈ sensorList (present s.grade v), x.2.2.1 ≠ 0 ∧ (x.2.2.1 : Int) ≤ x.2.1) → t.pwr.lendDuty = 0)
      ∧ t.pwr.gen = s.pwr.gen + 2 ∧ t.pwr.tick = s.tmb.free ∧ t.pwr.energy = s.pwr.energy + v.energy
      ∧ t.pwr.periodStart = s.tmb.free / 1966080 * 1966080 ∧ t.pwr.lentBusy = 0
      ∧ t.mem = s.mem ∧ t.tts = s.tts ∧ t.srv = s.srv ∧ t.hlt = s.hlt)
  ∧ (∀ (s : State) (v : Sensors), v.grid.length ≤ 64 → v.pkg.length ≤ 8 → v.dom.length ≤ 7 →
    (s.dev.dawnDone = false ∨ s.pwr.tripped = true ∨ s.tmb.free / 1966080 * 1966080 ≤ s.pwr.periodStart) →
    exec (.controlPeriod v) s = .next s)
  ∧ (∀ (s : State) (f : Nat), s.pwr.stepTo = some f →
    (s.pwr.vTick ≤ s.tmb.free → exec .clockStepUp s
      = .next ((s.setGrd { s.grd with clock := f }).setPwr { s.pwr with stepTo := none }))
    ∧ (s.tmb.free < s.pwr.vTick → exec .clockStepUp s = .next s))
  ∧ (∀ (s : State) (m : Nat) (c : Cmd), Due s m 0x0830 c →
    ((field c.payload 0 2 = 0 ∨ (gradeCapMin s.grade ≤ field c.payload 0 2 ∧ field c.payload 0 2 ≤ gradeTdp s.grade)) →
      ∃ t, exec (.pwrCap m) s = .next t ∧ Answered t m c .success []
        ∧ t.pwr = { s.pwr with capNext := some (field c.payload 0 2) })
    ∧ (field c.payload 0 2 ≠ 0 → (field c.payload 0 2 < gradeCapMin s.grade ∨ gradeTdp s.grade < field c.payload 0 2) →
      ∃ t, exec (.pwrCap m) s = .next t ∧ Answered t m c .badField [] ∧ t.pwr = s.pwr))

/-- A trip has acted (R490). -/
abbrev TripActed (s t : State) (sensor : Nat) (value : Int) : Prop :=
  t.pwr.tripped = true ∧ t.mgt.thermtrip = true ∧ t.mgt.pwrOk = false ∧ t.mgt.mode = .off ∧ t.hlt.leaving = true
    ∧ t.dev.dawnDone = false ∧ t.mem = {} ∧ t.mgt.log.getLast? = some (s.tmb.free, sensor, toBits 16 value)

/-- R481, R489, R490, R518: undervoltage, its end, the power fault and the thermal trip. -/
def InputAndTrips : Prop :=
  (∀ (s : State) (v : Nat), v < 32768 →
    (v < 4000 → s.pwr.uvWarn = false →
      ∃ t, exec (.inputUndervoltage v) s = .next t ∧ t.pwr.uvWarn = true 
        ∧ t.evr = (post { code := 0x0806, detail := leBytes 1 2 ++ leBytes 1 0xFF ++ leInt 2 (Int.ofNat v) } s).evr
        ∧ t.mgt.log.getLast? = some (s.tmb.free, 0xFF, toBits 16 v) ∧ Out.platformEvent 0xFF (toBits 16 v) ∈ t.out
        ∧ (v < 3600 → t.pwr.below36 = some (s.pwr.below36.getD s.tmb.free)) ∧ (3600 ≤ v → t.pwr.below36 = none)
        ∧ t.mem = s.mem ∧ t.tts = s.tts ∧ t.srv = s.srv)
    ∧ (v < 4000 → s.pwr.uvWarn = true →
      ∃ t, exec (.inputUndervoltage v) s = .next t ∧ t.pwr.uvWarn = true ∧ t.evr = s.evr ∧ t.mgt = s.mgt ∧ t.out = s.out)
    ∧ (4000 ≤ v → exec (.inputUndervoltage v) s = .next s)
    ∧ (s.pwr.uvWarn = true → 4100 < v →
      ∃ t, exec (.inputRestored v) s = .next t ∧ t.pwr = { s.pwr with uvWarn := false, below36 := none }
        ∧ t.evr = (post { code := 0x0806, detail := leBytes 1 5 ++ leBytes 1 0xFF ++ leInt 2 (Int.ofNat v) } s).evr
        ∧ t.mem = s.mem)
    ∧ ((s.pwr.uvWarn = false ∨ v ≤ 4100) → exec (.inputRestored v) s = .next s))
  ∧ (∀ (s : State) (v b : Nat), s.pwr.below36 = some b → s.pwr.tripped = false →
    (v < 3600 → b + 196608 ≤ s.tmb.free → ∃ t, exec (.powerFault v) s = .next t ∧ TripActed s t 0xFF v)
    ∧ (v < 32768 → (3600 ≤ v ∨ s.tmb.free < b + 196608) → exec (.powerFault v) s = .next s))
  ∧ (∀ (s : State) (v : Sensors) (k : Nat) (x : Int), v.grid.length ≤ 64 → v.pkg.length ≤ 8 → v.dom.length ≤ 7 →
    s.dev.dawnDone = true → s.pwr.tripped = false → s.pwr.periodStart < s.tmb.free / 1966080 * 1966080 →
    tripped (present s.grade v) = some (k, x) →
    ∃ t, exec (.controlPeriod v) s = .next t ∧ TripActed s t k x)

/-- R484, R492: the fused voltages lie within their bounds and do not fall as the clock rises. -/
def FusedVoltages : Prop :=
  ∀ k, 600 ≤ vFuse k ∧ vFuse k ≤ 850 ∧ vFuse k ≤ vFuse (k + 1)

/-- R217, R492 to R496, R499: background settings, strides, items, and what a measurement may change. -/
def BackgroundWork : Prop :=
  (∀ (s : State) (m w d : Nat) (c : Cmd), Due s m 0x0831 c → w = field c.payload 0 4 → d = field c.payload 4 4 →
    (4000 ≤ w → w ≤ 196608 → 19660800 ≤ d → d ≤ 1966080000 → gapsRemain s (loadedTables s) w = true →
      ∃ t, exec (.bgConfig m) s = .next t ∧ Answered t m c .success [] ∧ t.bg = { s.bg with next := some (w, d) })
    ∧ (w ≠ 0 → d ≠ 0 → (w < 4000 ∨ 196608 < w ∨ d < 19660800 ∨ 1966080000 < d ∨ gapsRemain s (loadedTables s) w = false) →
      ∃ t, exec (.bgConfig m) s = .next t ∧ Answered t m c .badField [] ∧ t.bg = s.bg)
    ∧ ((w = 0 ∨ d = 0) → ∃ t, exec (.bgConfig m) s = .next t ∧ Answered t m c .zeroNotAllowed [] ∧ t.bg = s.bg))
  ∧ (∀ (s : State),
    (s.bg.strideStart + s.bg.stride ≤ s.tmb.free →
      ∃ t, exec .strideStart s = .next t ∧ t.bg.strideStart = s.bg.strideStart + s.bg.stride ∧ t.bg.next = none
        ∧ (∀ w d, s.bg.next = some (w, d) → t.bg.window = w ∧ t.bg.stride = d)
        ∧ (s.bg.next = none → t.bg.window = s.bg.window ∧ t.bg.stride = s.bg.stride))
    ∧ (s.tmb.free < s.bg.strideStart + s.bg.stride → exec .strideStart s = .next s))
  ∧ (∀ (s : State) (u : Nat) (i : BgItem), unitExists s.grade u = true →
    (bgMayStart s u i = true →
      ∃ t, exec (.backgroundItemStart u i) s = .next t ∧ (unitRun t u).holder = .item i s.tmb.free
        ∧ ∀ u', u' ≠ u → unitRun t u' = unitRun s u')
    ∧ (bgMayStart s u i = false → exec (.backgroundItemStart u i) s = .next s))
  ∧ (∀ (s : State) (u : Nat) (i : BgItem), bgMayStart s u i = true →
    (unitRun s u).holder = .idle ∧ inService s u = true
    ∧ ∃ r, resvOn s u = some r ∧ r.entry.kind = 1 ∧ s.tmb.free + bgBound i ≤ r.finish)
  ∧ (∀ (s : State) (u x : Nat) (i : BgItem) (r : BgResult), unitExists s.grade u = true → (unitRun s u).holder = .item i x →
    (∀ d ∈ r.deltas, d.1 < 6 ∧ d.2 % 5 = 0) →
    ∃ t, exec (.backgroundItemEnd u r) s = .next t ∧ (unitRun t u).holder = .idle
      ∧ (∀ k, tabGet s.pwr.delta k 0 ≤ tabGet t.pwr.delta k 0)
      ∧ (i ≠ .ageing → t.pwr = s.pwr)
      ∧ (∀ a ∈ r.uncorrectable, a ∈ t.hlt.bad)
      ∧ (passGranules s.grade i = 0 → tabGet t.bg.checkDone (bgKey u i) 0 = s.tmb.free)
      ∧ t.mem = s.mem ∧ t.tts = s.tts ∧ t.srv = s.srv)
  ∧ (∀ (s : State) (u : Nat) (r : BgResult), unitExists s.grade u = true → (∀ d ∈ r.deltas, d.1 < 6 ∧ d.2 % 5 = 0) →
    (∀ i x, (unitRun s u).holder ≠ .item i x) → exec (.backgroundItemEnd u r) s = .next s)

/-! ### Chapter 18: Dawn, firmware and trust -/

/-- What Dawn meets has the form of the grade, and every step passes. -/
abbrev DawnPasses (s : State) (env : DawnEnv) : Prop :=
  dawnEnvOk s.grade env = true ∧ env.identityOk = true ∧ env.railsOk = true ∧ env.refLocked = true
    ∧ env.flashAnswers = true ∧ env.entropyOk = true ∧ env.memoryOk = true ∧ env.imageSigOk = true
    ∧ blobOk s (flashAt s blobBase blobSize) env.blobSigOk = true ∧ imageHeadOk s (flashAt s 0 headerSize) = true

/-- Dawn has stopped (R504). -/
abbrev Stopped (t : State) (mode : DawnMode) (cause : Nat) : Prop :=
  t.mgt.mode = mode ∧ t.mgt.cause = cause ∧ t.dev.dawnDone = false ∧ t.mem = {} ∧ t.mgt.pwrOk = decide (mode = .waiting)

/-- R502 to R504, R508, R510, R513: Dawn from its trigger to service, and each cause it stops with. -/
def DawnSequence : Prop :=
  (∀ (s : State) (env : DawnEnv), s.mgt.mode = .off → s.mgt.perst = false → s.pwr.tripped = false → DawnPasses s env →
    ∃ t, exec (.dawn env) s = .next t ∧ t.mgt.mode = .service ∧ t.mgt.step = 9 ∧ t.mgt.cause = 0 ∧ t.mgt.pwrOk = true
      ∧ t.dev.dawnDone = true ∧ t.tmb.free = 0 ∧ t.tmb.pllLocked = true ∧ t.tel.clearTick = 0
      ∧ t.dev.hdmSize = (if field (flashAt s blobBase blobSize) 2 1 = 0 then 256
          else field (flashAt s blobBase blobSize) 2 1) * 268435456
      ∧ t.grd.opt.locked = true ∧ t.grd.opt.e5m2Inf = bit (field (flashAt s blobBase blobSize) 5 1) 0
      ∧ t.grd.opt.h16Sat = bit (field (flashAt s blobBase blobSize) 5 1) 1
      ∧ t.grd.opt.b16Sat = bit (field (flashAt s blobBase blobSize) 5 1) 2
      ∧ t.syn.sig = detSig (bits (field (flashAt s blobBase blobSize) 5 1) 2 0) (field (flashAt s 0 headerSize) 12 2)
          (field (flashAt s 0 headerSize) 14 4)
      ∧ t.dev.fwVersion = field (flashAt s 0 headerSize) 8 3
      ∧ t.dev.lanes = env.lanes ∧ t.dev.rate = env.rate ∧ t.dev.radioCuMax = gradeCu s.grade * env.lanes * env.rate / 1024
      ∧ (∀ n < 8, tabFind? t.fh.modes n = some (bits (field (flashAt s blobBase blobSize) 3 2) (2 * n + 1) (2 * n)))
      ∧ t.mgt.svn = max s.mgt.svn (field (flashAt s 0 headerSize) 7 1) ∧ t.mgt.flash = s.mgt.flash
      ∧ tabFind? t.mgt.meas 4 = some (shake256 ((flashAt s blobBase blobSize).take 16) 64)
      ∧ t.mgt.straps = env.straps ∧ t.mem = {} ∧ t.mbx = [] ∧ t.parts = [] ∧ t.cells = [] ∧ t.srv = {}
      ∧ ∀ u ∈ env.failedUnits, u ∈ t.hlt.outOfService)
  ∧ (∀ (s : State) (env : DawnEnv), dawnEnvOk s.grade env = true →
    (s.mgt.mode ≠ .off ∨ s.mgt.perst = true ∨ s.pwr.tripped = true) → exec (.dawn env) s = .next s)
  ∧ (∀ (s : State) (env : DawnEnv), dawnEnvOk s.grade env = true → s.mgt.mode = .off → s.mgt.perst = false →
    s.pwr.tripped = false →
    (env.identityOk = false → ∃ t, exec (.dawn env) s = .next t ∧ Stopped t .halted 1)
    ∧ (env.identityOk = true → env.railsOk = false → ∃ t, exec (.dawn env) s = .next t ∧ Stopped t .halted 2)
    ∧ (env.identityOk = true → env.railsOk = true → env.refLocked = false →
        ∃ t, exec (.dawn env) s = .next t ∧ Stopped t .waiting 3)
    ∧ (env.identityOk = true → env.railsOk = true → env.refLocked = true →
        (env.flashAnswers = false → ∃ t, exec (.dawn env) s = .next t ∧ Stopped t .recovery 5)
        ∧ (env.flashAnswers = true → blobOk s (flashAt s blobBase blobSize) env.blobSigOk = false →
            ∃ t, exec (.dawn env) s = .next t ∧ Stopped t .recovery 4)
        ∧ (env.flashAnswers = true → blobOk s (flashAt s blobBase blobSize) env.blobSigOk = true →
          (imageHeadOk s (flashAt s 0 headerSize) = false → ∃ t, exec (.dawn env) s = .next t ∧ Stopped t .recovery 5)
          ∧ (imageHeadOk s (flashAt s 0 headerSize) = true →
            (env.entropyOk = false → ∃ t, exec (.dawn env) s = .next t ∧ Stopped t .halted 7)
            ∧ (env.entropyOk = true → env.memoryOk = false → ∃ t, exec (.dawn env) s = .next t ∧ Stopped t .halted 6)
            ∧ (env.entropyOk = true → env.memoryOk = true → env.imageSigOk = false →
                ∃ t, exec (.dawn env) s = .next t ∧ Stopped t .recovery 5 ∧ t.mgt.imageVerified = false)))))

/-- R50, R502, R505, R529, R530: what leads to Dawn: the reset input, DEVICE_RESET, loss of VSTBY, the reference. -/
def DawnTriggers : Prop :=
  (∀ (s : State), (s.mgt.mode = .service ∨ s.mgt.mode = .waiting) → s.pwr.tripped = false →
    ∃ t, exec .cxlPerstAssert s = .next t ∧ t.mgt.perst = true ∧ t.mgt.mode = .off ∧ t.dev.dawnDone = false
      ∧ t.hlt.leaving = true ∧ (∀ p ∈ t.fab.ports, p.2.link = false) ∧ ∀ x ∈ t.fh.macs, x.2.link = false)
  ∧ (∀ (s : State), (s.mgt.mode = .halted ∨ s.mgt.mode = .recovery ∨ s.pwr.tripped = true) →
    ∃ t, exec .cxlPerstAssert s = .next t ∧ t.mgt.perst = true ∧ t.mgt.mode = s.mgt.mode ∧ t.dev = s.dev ∧ t.hlt = s.hlt
      ∧ t.mem = s.mem ∧ t.fab = s.fab)
  ∧ (∀ (s : State), s.mgt.perst = true →
    (s.tap.ir ≠ .extest → s.tap.ir ≠ .clamp → s.tap.ir ≠ .highz →
      ∃ t, exec .cxlPerstDeassert s = .next t ∧ t.mgt = { s.mgt with perst := false } ∧ t.dev = s.dev ∧ t.mem = s.mem)
    ∧ ((s.tap.ir = .extest ∨ s.tap.ir = .clamp ∨ s.tap.ir = .highz) →
      ∃ t, exec .cxlPerstDeassert s = .next t ∧ t.mgt = s.mgt ∧ t.tap = { s.tap with heldOff := true }))
  ∧ (∀ (s : State), s.mgt.perst = false → exec .cxlPerstDeassert s = .next s)
  ∧ (∀ (s : State),
    ((s.mgt.update.isSome = true ∨ s.mgt.blobBusy = true) →
      ∃ t, exec .deviceReset s = .next t ∧ t.out = s.out ++ [.mgmt 2 []] ∧ t.mgt = s.mgt ∧ t.dev = s.dev ∧ t.pwr = s.pwr)
    ∧ (s.mgt.update = none → s.mgt.blobBusy = false →
      ∃ t, exec .deviceReset s = .next t ∧ t.out = s.out ++ [.mgmt 0 []] ∧ t.mgt.mode = .off ∧ t.mgt.thermtrip = false
        ∧ t.pwr.tripped = false ∧ t.dev.dawnDone = false ∧ t.hlt.leaving = true ∧ t.mgt.flash = s.mgt.flash))
  ∧ (∀ (s : State), ∃ t, exec .vstbyLoss s = .next t ∧ t.mgt.mode = .off ∧ t.mgt.flash = s.mgt.flash ∧ t.mgt.svn = s.mgt.svn
      ∧ t.mgt.owner = s.mgt.owner ∧ t.mgt.keySlots = s.mgt.keySlots ∧ t.mgt.revoked = s.mgt.revoked ∧ t.mgt.log = []
      ∧ t.mem = {} ∧ t.pwr.tripped = false ∧ t.dev.dawnDone = false)
  ∧ (∀ (s : State),
    (s.mgt.mode ≠ .waiting → s.tmb.refLost = true →
      ∃ t, exec .refReturn s = .next t ∧ t.tmb = { s.tmb with refLost := false }
        ∧ t.evr = (post { code := 0x0304, detail := leBytes 1 0 } s).evr ∧ t.mem = s.mem ∧ t.tts = s.tts)
    ∧ (s.mgt.mode ≠ .waiting → s.tmb.refLost = false → exec .refReturn s = .next s)
    ∧ (s.mgt.mode = .waiting → s.mgt.env.flashAnswers = true → s.mgt.env.entropyOk = true → s.mgt.env.memoryOk = true →
        s.mgt.env.imageSigOk = true → blobOk s (flashAt s blobBase blobSize) s.mgt.env.blobSigOk = true →
        imageHeadOk s (flashAt s 0 headerSize) = true →
      ∃ t, exec .refReturn s = .next t ∧ t.mgt.mode = .service ∧ t.dev.dawnDone = true))
  ∧ (∀ (s : State), exec .entropyTestFailure s = .next (s.setMgt { s.mgt with entropyOk := false })
      ∧ exec .entropyTestsPass s = .next (s.setMgt { s.mgt with entropyOk := true }))

/-- The management port has answered, and nothing but its own state has changed: every piece of state the host, the fabric or
the fronthaul sees stays. -/
abbrev PortAnswered (s t : State) (st : Nat) (body : List Byte) : Prop :=
  t = (s.setMgt t.mgt).setOut (s.out ++ [.mgmt st body])

/-- R504 to R507, R510, R517, R519, R520: vendor commands and the image update. -/
def ManagementCommands : Prop :=
  (∀ (s : State), ∃ t, exec .dawnState s = .next t ∧ t.mgt = s.mgt ∧ PortAnswered s t 0 (leBytes 1 s.mgt.step
      ++ leBytes 1 s.mgt.cause ++ leBytes 1 (b2n (imageValid s)) ++ leBytes 1 (b2n s.mgt.owner.isSome) ++ leBytes 1 s.mgt.svn))
  ∧ (∀ (s : State) (o : Nat) (b : List Byte) (sig : Bool), o < 4294967296 →
    (1024 < b.length → ∃ t, exec (.blobWrite o b sig) s = .next t ∧ t.mgt = s.mgt ∧ PortAnswered s t 4 [])
    ∧ (b.length ≤ 1024 → o + b.length < 30720 →
      ∃ t, exec (.blobWrite o b sig) s = .next t ∧ PortAnswered s t 0 [] ∧ t.mgt.blobBusy = true
        ∧ t.mgt.mode = s.mgt.mode ∧ t.mgt.flash = memWriteBytes s.mgt.flash (0x01010000 + o) b)
    ∧ (b.length ≤ 1024 → o + b.length = 30720 →
      ∃ t f, exec (.blobWrite o b sig) s = .next t ∧ f = memWriteBytes s.mgt.flash (0x01010000 + o) b ∧ t.mgt.flash = f
        ∧ t.mgt.blobBusy = false
        ∧ (blobOk s (memReadBytes f 0x01010000 30720) sig = true →
            PortAnswered s t 0 [] ∧ t.mgt.mode = (if s.mgt.mode = .recovery then .off else s.mgt.mode))
        ∧ (blobOk s (memReadBytes f 0x01010000 30720) sig = false → PortAnswered s t 0x0102 [] ∧ t.mgt.mode = s.mgt.mode)))
  ∧ (∀ (s : State) (k : List Byte),
    (k.length ≠ 64 → ∃ t, exec (.ownerEnrol k) s = .next t ∧ t.mgt = s.mgt ∧ PortAnswered s t 4 [])
    ∧ (k.length = 64 → s.mgt.owner.isSome = true →
      ∃ t, exec (.ownerEnrol k) s = .next t ∧ t.mgt = s.mgt ∧ PortAnswered s t 7 [])
    ∧ (k.length = 64 → s.mgt.owner = none →
      ∃ t, exec (.ownerEnrol k) s = .next t ∧ t.mgt = { s.mgt with owner := some (shake256 k 64) } ∧ PortAnswered s t 0 []))
  ∧ (∀ (s : State) (first : Nat), first < 256 → ∃ t, exec (.eventLogRead first) s = .next t ∧ t.mgt = s.mgt
      ∧ PortAnswered s t 0 (((s.mgt.log.drop first).take 16).flatMap
          (fun e => leBytes 8 e.1 ++ leBytes 1 e.2.1 ++ leBytes 2 e.2.2)))
  ∧ (∀ (s : State) (e : Nat), e < 256 →
      ∃ t, exec (.setEndpointId e) s = .next t ∧ t.mgt = { s.mgt with eid := e } ∧ PortAnswered s t 0 [])
  ∧ (∀ (s : State),
    (∃ t, exec (.pldmSensorRead .dawnState) s = .next t ∧ t.mgt = s.mgt
        ∧ PortAnswered s t 0 (leBytes 1 s.mgt.step ++ leBytes 1 s.mgt.cause))
    ∧ (7 ≤ s.mgt.step → (∃ t, exec (.pldmSensorRead .health) s = .next t ∧ t.mgt = s.mgt
        ∧ PortAnswered s t 0 (leBytes 2 (healthScore s.hlt.penalty)))
      ∧ ∀ k < 112, ∃ t, exec (.pldmSensorRead (.mirror k)) s = .next t ∧ t.mgt = s.mgt
        ∧ PortAnswered s t 0 (leBytes 8 (bits (powerReg s (mirrorField k).1) (mirrorField k).2.1 (mirrorField k).2.2))))
  ∧ (∀ (s : State), ∃ t, exec .activateFirmware s = .next t ∧ t.mgt = s.mgt ∧ PortAnswered s t 0 (leBytes 1 1))

/-- R519, R521: an image update: its start, its parts, its check, its end without a part for 120 s. -/
def ImageUpdate : Prop :=
  (∀ (s : State),
    (s.mgt.update = none → ∃ t, exec .requestUpdate s = .next t ∧ PortAnswered s t 0 []
        ∧ t.mgt = { s.mgt with update := some { got := 0, head := [], lastTick := s.tmb.free } })
    ∧ (s.mgt.update.isSome = true → ∃ t, exec .requestUpdate s = .next t ∧ t.mgt = s.mgt ∧ PortAnswered s t 0x81 []))
  ∧ (∀ (s : State) (u : Update) (b : List Byte) (sig : Bool), s.mgt.update = some u → b ≠ [] → b.length ≤ 4096 →
    (u.got < 32768 → (u.head ++ b).length < 32768 →
      ∃ t, exec (.requestFirmwareData b sig) s = .next t ∧ t.mgt.flash = s.mgt.flash ∧ t.out = s.out
        ∧ t.mgt.update = some { got := (u.head ++ b).length, head := u.head ++ b, lastTick := s.tmb.free })
    ∧ (u.got < 32768 → 32768 ≤ (u.head ++ b).length →
      (imageHeadOk s ((u.head ++ b).take 32768) = false →
        ∃ t, exec (.requestFirmwareData b sig) s = .next t ∧ t.mgt = { s.mgt with update := none } ∧ PortAnswered s t 1 [])
      ∧ (imageHeadOk s ((u.head ++ b).take 32768) = true →
        ∃ t, exec (.requestFirmwareData b sig) s = .next t ∧ memReadBytes t.mgt.flash 0 32768 = (u.head ++ b).take 32768
          ∧ t.mgt.imageVerified = false ∧ t.mgt.update = some { got := 32768, head := [], lastTick := s.tmb.free }
          ∧ (∀ a, 32768 ≤ a → a < 0x01010000 → memRead t.mgt.flash a = 0)
          ∧ ∀ a, 0x01010000 ≤ a → memRead t.mgt.flash a = memRead s.mgt.flash a))
    ∧ (32768 ≤ u.got → u.got + b.length < 32768 + field (flashAt s 0 32768) 18 4 →
      ∃ t, exec (.requestFirmwareData b sig) s = .next t ∧ t.mgt.flash = memWriteBytes s.mgt.flash u.got b ∧ t.out = s.out
        ∧ t.mgt.update = some { got := u.got + b.length, head := [], lastTick := s.tmb.free })
    ∧ (32768 ≤ u.got → 32768 + field (flashAt s 0 32768) 18 4 ≤ u.got + b.length →
      ∃ t, exec (.requestFirmwareData b sig) s = .next t ∧ PortAnswered s t (b2n (!sig)) [] ∧ t.mgt.update = none
        ∧ t.mgt.imageVerified = sig
        ∧ t.mgt.mode = (if sig = true ∧ s.mgt.mode = .recovery then .off else s.mgt.mode)))
  ∧ (∀ (s : State) (u : Update), s.mgt.update = some u →
    ((s.tmb.pllLocked = false ∨ u.lastTick + 235929600000 ≤ s.tmb.free) →
      ∃ t, exec .updateIdleTimeout s = .next t ∧ t = s.setMgt { s.mgt with update := none })
    ∧ (s.tmb.pllLocked = true → s.tmb.free < u.lastTick + 235929600000 → exec .updateIdleTimeout s = .next s))
  ∧ (∀ (s : State) (b : List Byte) (sig : Bool), s.mgt.update = none → b ≠ [] → b.length ≤ 4096 →
    exec (.requestFirmwareData b sig) s = .next s ∧ exec .updateIdleTimeout s = .next s)

/-- The SPDM responder has answered. -/
abbrev SpdmSaid (s t : State) (tr : Transport) (code : Nat) (body : List Byte) : Prop :=
  t = (s.setMgt t.mgt).setOut (s.out ++ [.spdm tr code body])

/-- R514 to R516: the SPDM responder; its one signing engine. -/
def SpdmResponder : Prop :=
  (∀ (s : State) (tr : Transport), s.mgt.mode = .service →
    (∃ t, exec (.getVersion tr) s = .next t ∧ SpdmSaid s t tr 4 (leBytes 2 0x1300) ∧ spdmOf t tr = { version := true })
    ∧ ((spdmOf s tr).version = true → ∃ t, exec (.getCapabilities tr) s = .next t ∧ (spdmOf t tr).caps = true
        ∧ SpdmSaid s t tr 0x61 (leBytes 1 20 ++ leBytes 4 0x16 ++ leBytes 4 4096 ++ leBytes 4 65536))
    ∧ (∀ a b, (spdmOf s tr).caps = true → (a = true ∨ b = true) →
        ∃ t, exec (.negotiateAlgorithms tr a b) s = .next t ∧ (spdmOf t tr).algs = true
          ∧ SpdmSaid s t tr 0x63 (leBytes 1 (b2n a) ++ leBytes 1 (b2n b)))
    ∧ ((spdmOf s tr).caps = true →
        ∃ t, exec (.negotiateAlgorithms tr false false) s = .next t ∧ t.mgt = s.mgt ∧ SpdmSaid s t tr 0x7F (leBytes 1 1))
    ∧ ((spdmOf s tr).algs = true →
      (∃ t, exec (.getDigests tr 0) s = .next t ∧ t.mgt = s.mgt ∧ SpdmSaid s t tr 1 (shake256 (certChain s) 64))
      ∧ (∀ o l, o < (certChain s).length → ∃ t, exec (.getCertificate tr 0 o l) s = .next t ∧ t.mgt = s.mgt
          ∧ SpdmSaid s t tr 2 (((certChain s).drop o).take (min l 4096)))
      ∧ (∀ slot, slot ≠ 0 → slot < 256 →
          ∃ t, exec (.getDigests tr slot) s = .next t ∧ t.mgt = s.mgt ∧ SpdmSaid s t tr 0x7F (leBytes 1 1))
      ∧ (∀ (nonce b : List Byte) (i : Nat), nonce.length = 32 → 1 ≤ i → i ≤ 5 → tabFind? s.mgt.meas i = some b →
          ∃ t, exec (.getMeasurements tr i false nonce) s = .next t ∧ t.mgt = s.mgt
            ∧ SpdmSaid s t tr 0x60 (leBytes 1 i ++ leBytes 2 b.length ++ b))
      ∧ (∀ (nonce : List Byte), nonce.length = 32 →
          (s.mgt.signing = none →
            (∃ t b, exec (.challenge tr 0 nonce) s = .next t ∧ SpdmSaid s t tr 0x7F (leBytes 1 0x42)
              ∧ t.mgt.signing = some (transportKey tr) ∧ (spdmOf t tr).waiting = some (leBytes 1 3 ++ b))
            ∧ ∃ t, exec (.getMeasurements tr 0xFF true nonce) s = .next t ∧ SpdmSaid s t tr 0x7F (leBytes 1 0x42)
              ∧ t.mgt.signing = some (transportKey tr))
          ∧ (s.mgt.signing.isSome = true →
            ∃ t, exec (.challenge tr 0 nonce) s = .next t ∧ t.mgt = s.mgt ∧ SpdmSaid s t tr 0x7F (leBytes 1 3))))
    ∧ ((spdmOf s tr).ready = none → (spdmOf s tr).waiting.isSome = true →
        ∃ t, exec (.respondIfReady tr) s = .next t ∧ t.mgt = s.mgt ∧ SpdmSaid s t tr 0x7F (leBytes 1 0x42))
    ∧ (∀ (code : Byte) (b : List Byte), (spdmOf s tr).ready = some (code :: b) →
        ∃ t, exec (.respondIfReady tr) s = .next t ∧ SpdmSaid s t tr code.toNat b ∧ (spdmOf t tr).ready = none)
    ∧ (s.mgt.signing = some (transportKey tr) →
        ∃ t, exec .signatureDone s = .next t ∧ t.mgt.signing = none ∧ (spdmOf t tr).ready = (spdmOf s tr).waiting
          ∧ (spdmOf t tr).waiting = none ∧ t = s.setMgt t.mgt))
  ∧ (∀ (s : State) (tr : Transport), s.mgt.mode ≠ .service →
      exec (.getVersion tr) s = .next s ∧ exec (.respondIfReady tr) s = .next s)
  ∧ (∀ (s : State), s.mgt.signing = none → exec .signatureDone s = .next s)

/-! ### Chapter 19: the board test port -/

/-- R536: the instructions of the test access port, and the hold of CXL_PERST#. -/
def BoardTestPort : Prop :=
  (∀ (s : State),
    (∃ t, exec .bypass s = .next t ∧ t.tap = { s.tap with ir := .bypass, heldOff := false }
        ∧ t.mgt = (if s.tap.heldOff then { s.mgt with perst := false } else s.mgt) ∧ t = (s.setTap t.tap).setMgt t.mgt)
    ∧ (∃ t, exec .trstAssert s = .next t ∧ t.tap = { s.tap with ir := .idcode, heldOff := false }
        ∧ t.mgt = (if s.tap.heldOff then { s.mgt with perst := false } else s.mgt) ∧ t = (s.setTap t.tap).setMgt t.mgt)
    ∧ (∃ t bits, exec .idcode s = .next t ∧ t.tap = { s.tap with ir := .idcode } ∧ t.mgt = s.mgt
        ∧ t.out = s.out ++ [.tdo bits] ∧ bits.length = 32
        ∧ (∀ i, bits.getD i false = (0x10000001 + (if s.grade = .t96 then 0x0096 else 0x0072) * 4096
            + Config.jep106 % 2048 * 2).testBit i))
    ∧ (∀ cells, cells.length = 27 → ∃ t levels, exec (.samplePreload cells) s = .next t
        ∧ t.tap = { s.tap with ir := .samplePreload, cells := cells } ∧ t.out = s.out ++ [.tdo levels] ∧ levels.length = 27
        ∧ (∀ i < 8, levels.getD (11 + i) false = s.mgt.straps.testBit i)
        ∧ levels.getD 1 false = s.pps.outHigh ∧ levels.getD 24 false = !s.mgt.thermtrip ∧ levels.getD 26 false = s.mgt.pwrOk
        ∧ t.mgt = s.mgt ∧ t.mem = s.mem))
  ∧ (∀ (s : State), (s.mgt.perst = true ∨ s.mgt.mode = .halted ∨ s.mgt.mode = .waiting ∨ s.mgt.mode = .recovery) →
    exec .extest s = .next (s.setTap { s.tap with ir := .extest })
    ∧ exec .clamp s = .next (s.setTap { s.tap with ir := .clamp })
    ∧ exec .highz s = .next (s.setTap { s.tap with ir := .highz }))
  ∧ (∀ (s : State), s.mgt.perst = false → (s.mgt.mode = .off ∨ s.mgt.mode = .service) →
    exec .extest s = exec .bypass s ∧ exec .clamp s = exec .bypass s ∧ exec .highz s = exec .bypass s)

end Sys2Proof.Claims

open Sys2Proof.Claims

/-- A step takes the command at the front of the queue and runs it on the state with the queue's rest. -/
def Obligations.StepRunsFront : Prop :=
  ∀ (s : State) (c : Instr) (rest : List Instr), step { s with pending := c :: rest } = exec c { s with pending := rest }

/-- On an empty queue one air tick passes (the model's choice, log entry 1): the free counter gains one while the PLL is
locked, and nothing moves before. -/
def Obligations.EmptyQueueTick : Prop :=
  ∀ s : State, s.pending = [] →
    (s.tmb.pllLocked = false → step s = .next s)
    ∧ (s.tmb.pllLocked = true → ∃ t, step s = .next t ∧ t.tmb = { s.tmb with free := s.tmb.free + 1 })

/-- What reset leaves: nothing before Dawn answers (R31, R502); the timebase by R49 and R65; mailboxes IDLE (R24), event rings
disabled (R34), no ring, partition, context, cell or table; memory with nothing listed. -/
def Obligations.ResetState : Prop :=
  State.reset.Canonical ∧ State.reset.mem = {} ∧ State.reset.pending = [] ∧ State.reset.dev.dawnDone = false
  ∧ State.reset.mgt.mode = .off ∧ State.reset.tmb.free = 0 ∧ State.reset.tmb.rate = 0 ∧ State.reset.tmb.state = .freerun
  ∧ State.reset.tmb.cfg = ServoCfg.mk 0x04000000 0x00100000 10995116 40 16 1000 2000 14400
  ∧ (∀ m < 80, (mbxOf State.reset m).phase = .idle) ∧ (∀ n < 16, (evRing State.reset n).enable = false)
  ∧ (∀ n < 4096, ringOf State.reset n = none) ∧ (∀ p < 64, (partOf State.reset p).state = .absent)
  ∧ (∀ c < 256, (ctxOf State.reset c).state = .absent) ∧ (∀ k < 8, (tableOf State.reset k).state = .empty)
  ∧ State.reset.hlt.penalty = 0 ∧ State.reset.mbr.member = false

/-- Every step keeps the canonical forms of the byte stores and of the context table. -/
def Obligations.StepKeepsCanonical : Prop :=
  ∀ s t : State, s.Canonical → step s = .next t → t.Canonical

/-- A command changes only the pieces of state marked for it; the queue is none of them. -/
def Obligations.CommandsTouchOnly : Prop :=
  (∀ (i : Instr) (s t : State), exec i s = .next t → t.erase (touches i) = s.erase (touches i))
  ∧ ∀ i : Instr, (touches i).pending = false ∧ (touches i).grade = false

/-- A command answers a next state exactly when it is well formed; what stops is named. For every command and state: the command
is well formed for the grade exactly if exec answers a next state; what is well formed on a T72 is so on a T96; and where it
is not well formed, exec answers the fault of an absent unit (R3) or the refusal of an operand no command can carry, never
another stop. -/
def Obligations.NextExactlyWhenWellFormed : Prop :=
  Claims.NextExactlyWhenWellFormed ∧ Claims.StopsNamed

/-- Mailboxes: go, abort, ack, the taking of a command and the hardware timeout (R24, R27 to R29, R31, R466). For a usable
mailbox: go from IDLE or DONE after Dawn makes it SUBMITTED with the command of its area and the next sequence number; go
while SUBMITTED or RUNNING sets go_ignored and changes neither phase, command nor number; abort while SUBMITTED ends it DONE
with ABORTED and the command's tag; ack from DONE makes it IDLE and keeps the response. A SUBMITTED command that nothing
precedes, one copy of it being readable, is taken and RUNNING. A command not DONE 98 304 000 ticks after its go is completed
with MBX_TIMEOUT and fw_timeout; before that the timeout does nothing. -/
def Obligations.MailboxLife : Prop :=
  Claims.MailboxHandshake ∧ Claims.CommandTaken ∧ Claims.MailboxTimeout

/-- Link training, telemetry, CANCEL and the plain device commands (R18, R34, R35, R46 to R48). LINK_TRAINING sets lanes, rate
and the radio capacity and leaves the cells. NOP answers SUCCESS and leaves partitions, timebase and memory.
EVENT_RING_CONFIG sets enable and mask of the named ring and keeps its producer index. QUERY_OPERATION answers whether the
operation has ended, its status and result, and frees the handle where asked. CANCEL of a running CTX_CREATE answers
SUCCESS, ends the operation with CANCELLED and creates no context; of a finished operation it answers NOT_PERMITTED. A
telemetry snapshot mirrors the live counters with the tick and raises the generation by 2; a TELEMETRY_CLEAR waits for the
next snapshot, zeroes the counters and then answers. -/
def Obligations.HostCommands : Prop :=
  Claims.LinkTraining ∧ Claims.DeviceCommands ∧ Claims.Cancel ∧ Claims.Telemetry

/-- Rings, doorbells, register writes and reads, and event posting (R19, R21, R22, R24, R26, R34, R38 to R41, R43, R44).
RING_CREATE of a manager ring answers a number that was free and the ring stands as asked with both indices 0; RING_DESTROY
of the target's ring removes it. A doorbell of a device-to-host ring inside its window moves the host index; outside it the
ring is faulted and the index stays; with no ring behind it the stray counter moves. A write of cons that does not pass prod
is accepted, else bad_cons is set and nothing else. A register write of 2 bytes is ignored; one to a mailbox's control
register acts as its bits say; one to its command area stores the bytes and leaves phase and command. A read of another size
or alignment, or of the VF of an absent partition, returns zero; DEV_STATUS, the response header, a doorbell and the latched
high half read as their rules say. An event goes to the lowest enabled ring whose mask has its class: entry with tick and
sequence number, then prod, then the vector; a full ring drops it, sets overflow and counts; with no such ring it is counted
on ring 0; no other ring changes. Doorbell offset 0 and some view choices are the model's (log entries 147, 148). -/
def Obligations.RingsDoorbellsEvents : Prop :=
  Claims.RingCommands ∧ Claims.Doorbells ∧ Claims.EventConsumer ∧ Claims.RegisterWrites ∧ Claims.HostReads ∧ Claims.EventPosting

/-- R56: an accepted input that is no step sets the integral and the rate by the formulas, at the tick of arrival. -/
def Obligations.ServoRate : Prop :=
  ∀ (s : State) (e : Int) (m : Nat), ServoAccepts s e m → MaySlew s e →
    ∃ t, exec (.servoInput e m) s = .next t
      ∧ t.tmb.integ = max (-(2 ^ 31 - 1)) (min (2 ^ 31 - 1) (s.tmb.integ + s.tmb.cfg.ki * e / 2 ^ 32))
      ∧ t.tmb.rate = max (-(s.tmb.cfg.rateLimit : Int)) (min s.tmb.cfg.rateLimit
          (-(s.tmb.cfg.kp * e / 2 ^ 32 + t.tmb.integ)))
      ∧ t.tmb.anchor = s.tmb.free ∧ t.tmb.err = e

/-- R52: every update except a step first folds the old parameters into the offset, so that corrected time at the tick of the
update stays as it was: an input that is no step, TIME_SOURCE, and entry to HOLDOVER. -/
def Obligations.CorrectedTimeContinuous : Prop :=
  (∀ (s : State) (e : Int) (m : Nat), ServoAccepts s e m → MaySlew s e →
    ∃ t, exec (.servoInput e m) s = .next t ∧ Folded s t)
  ∧ (∀ (s : State) (m : Nat) (c : Cmd), Due s m 0x0302 c →
    (field c.payload 0 1 = 0 ∨ field c.payload 0 1 = 2 ∨ (field c.payload 0 1 = 1 ∧ 24 ≤ field c.payload 1 1
      ∧ field c.payload 1 1 ≤ 43 ∧ field c.payload 2 1 ≠ 0)) →
    ∃ t, exec (.timeSource m) s = .next t ∧ Answered t m c .success [] ∧ Folded s t ∧ t.tmb.rate = s.tmb.rate)
  ∧ (∀ s : State, s.tmb.state = .locked → s.tmb.lastArr + s.tmb.act.holdoverStart * 1966080 ≤ s.tmb.free →
    ∃ t, exec .holdoverStart s = .next t ∧ Folded s t)

/-- R50: the reference is lost: ref_lost is set and REF_LOST posted; it returns: ref_lost clears; nothing else of the timebase
moves, and the free counter keeps counting at the ticks that follow. -/
def Obligations.ReferenceLoss : Prop :=
  (∀ s : State, s.tmb.refLost = false →
    exec .refLost s
      = .next (healthAdd 50 (post { code := 0x0304, detail := leBytes 1 1 } (s.setTmb { s.tmb with refLost := true }))))
  ∧ (∀ s : State, s.mgt.mode ≠ .waiting → s.tmb.refLost = true →
    ∃ t, exec .refReturn s = .next t ∧ t.tmb = { s.tmb with refLost := false } ∧ t.mem = s.mem ∧ t.tts = s.tts ∧ t.srv = s.srv)
  ∧ (∀ s : State, s.pending = [] → s.tmb.pllLocked = true →
    ∃ t, step s = .next t ∧ t.tmb = { s.tmb with free := s.tmb.free + 1 })

/-- Holdover by time, PPS edges, PTP and ESMC messages (R57, R60 to R64). Silence of holdover_start ends LOCKED in HOLDOVER with
the rate of the clamped integral; holdover_limit ends HOLDOVER in FREERUN and keeps the rate. A PPS edge in takes both
times; a missed edge is counted and leaves the timebase; PPS out rises at its second and falls after its width, each put
out. An accepted Announce sets a port's sequence number and leaves the timebase, and the roles that follow make at most one
port slave; a one-step Sync on the slave port makes a servo input of the measured offset, a Delay_Resp settles the delay, a
Delay_Req on a master port is answered; with another source PTP frames change nothing; a PTP message due and an ESMC message
join queue Q2 of their MAC; a received ESMC sets the port's quality level. The layout of these standards' messages and what
their ranking leaves open are the model's (log entries 156, 158). -/
def Obligations.HoldoverPpsPtp : Prop :=
  Claims.HoldoverByTime ∧ Claims.PpsEdges ∧ Claims.PtpAndEsmc

/-- Reads of time and the commands that set the clock (R66, R78, R79). A read of free snapshots free, corrected and NR time; a
read of a low half latches its high half; TIME_READ answers the three times and the servo state. TIME_SERVO_CONFIG,
TIME_SOURCE (PPS in), TIME_STEP, FRAME_CONFIG and PPS_CONFIG with fields in range answer SUCCESS and set their fields as
written out. TIME_STEP answers NOT_PERMITTED while a table runs or a Noon is pending, FRAME_CONFIG while a table runs,
TIME_SERVO_CONFIG answers ZERO_NOT_ALLOWED for a rate limit 0; a refused command changes nothing of the timebase. -/
def Obligations.TimeCommands : Prop :=
  Claims.TimeReads ∧ Claims.TimeSettings ∧ Claims.TimeRefusals

/-- Noon armings: arm, disarm, fire, list and the first refusals (R73 to R75, R78). An arming of an event with the clock LOCKED
or in HOLDOVER, a tick in range, no pending arming of its identity and a comparator free answers its number and is pending
with tick, identity and partition. NOON_DISARM before the tick frees it. It fires once its tick is reached and leaves the
timebase and the tables. NOON_LIST gives all sixteen. In FREERUN or ACQUIRE the answer is NOT_LOCKED, for a tick too near
LATE, too far TIME_RANGE, in this order, and nothing is armed. -/
def Obligations.NoonArmings : Prop :=
  Claims.NoonLife ∧ Claims.NoonRefusals

/-- Matrix descriptors, quadrant conversions, copies and the share check (R86, R90, R94, R99, R110, R111, R125, R128, R140,
R198). A matrix descriptor of one repetition whose accesses lie in its owner's shares and meet no bad word writes the
elements of its product row by row (layout: log entries) and no other byte, and moves the position by one; with M, K, N or
the repeat count 0, or for a slot of length 0, memory and the flags stay; of a pass that a stop ends the complete groups of
256 rows are written. A conversion, MXQ and MXD on a quadrant leave the packed results and no other byte changes. A copy
moves its bytes, performs its post and changes no other byte; of a slot of length 0 memory stays; SCATTER_ADD leaves the
rounded sums; a stop leaves whole pieces of 64 bytes and no post. A radio owner's read outside its share moves nothing,
stops the program and writes a record of code 1 with NOT_PERMITTED, unit, owner, address and position. -/
def Obligations.MatrixAndCopy : Prop :=
  Claims.MatrixDescriptor ∧ Claims.QuadConversions ∧ Claims.ShareCheck ∧ Claims.MoverCopy

/-- Scoreboard counts, waits and the slot of length 0 (R108 to R110, R145). POST to a valid entry of its producer with room
raises produced and stores the length, and changes no other entry; RELEASE raises consumed and ends the hush, leaving
produced and the shadow; the return flit moves the shadow alone; a foreign post changes no count and writes a record of code
2 naming producer and poster. WAIT_FREE and WAIT_FULL give the slot (and the length, hush where 0) or stall the stream, of a
tile the slice alone; the resumes give the slot once the entry allows it. What the operations do on an entry that is not
valid is the model's (log entry 150). -/
def Obligations.Scoreboards : Prop :=
  Claims.ScoreboardCounts ∧ Claims.ScoreboardWaits

/-- Number formats: round trips, T5P bytes, stochastic rounding (R120, R121, R126, R127, R130). In every floating format a code
that is no NaN encodes back to itself from its exact value in either rounding mode and sets no flag. The 243 valid T5P bytes
and five trits are the same thing by base 3, the others give five zeros and t5p_bad. Stochastic rounding of a magnitude with
c > 0 bits below the step rounds up exactly when D + U reaches 2^n, n = min(c, 24), and leaves one with no such bits. -/
def Obligations.NumberFormats : Prop :=
  Claims.FloatCodesRoundTrip ∧ Claims.TernaryBytes ∧ Claims.StochasticRounding

/-- Fixed-point lanes, the radix-2 butterfly, and each instruction of registers (R125, R127 to R134, R141, R153 to R155, R172 to
R179). For a tile whose registers have 256 lanes: MAC, CMAC, CMACJ, CMUL, MUL, SHIFT and ACCST of Q15 leave in each lane the
exact value shifted, rounded and saturated as written out, ADD and SUB the exact sum or difference where it lies in range; a
radix-2 butterfly the rounded twiddle product added and subtracted, shifted and saturated. Each fixed-point, floating-point
and random instruction of the tile that may issue answers a next state in which its slice holds the effect of its own
operation, written out per instruction, and has moved on, and the owner's flags have joined. After a slot of length 0 only
the position moves; memory, scoreboards, tables, contexts, the fault log and every other tile stay. That real MUL narrows
into a vector register and a library result within its error are the model's readings (log entries 152, 151). -/
def Obligations.TileRegisters : Prop :=
  Claims.FixedPointLanes ∧ Claims.ButterflyLanes ∧ Claims.FixedPointInstructions ∧ Claims.FloatInstructions ∧ Claims.RandomInstructions

/-- Vector loads and stores, gather and scatter, RED_SUM (R141, R149, R150). On a Fused tile with its share granted and no bad
word: VLD, VLD2 and VST move the bytes between the register and the rounded-down area address, VLD and VST advance the
address register by its rule and leave the other registers, stores leave every other byte. VGATH reads each lane's element,
VSCAT writes none but the lanes' bytes. RED_SUM of no elements is +0, of one that element, of two their rounded sum; on a
tile it goes to the scalar register and memory stays, on a quadrant to the array store, the model's place for it (log entry
17), and nowhere else. -/
def Obligations.TileMemory : Prop :=
  Claims.TileLoadsAndStores ∧ Claims.GatherScatter ∧ Claims.Reduction

/-- Repeats, the slice barrier and the neighbour send (R145, R156 to R162, R165 to R167). LOOP opens a level or skips its body;
REP of radio work is its instruction repeated; REP in lent work issues exactly where it ends by the Dusk line, and of CMAC
leaves the accumulators of that many. The last slice of a mask to issue SBAR lets all go, another waits; the resume has
nothing to do where none waits. XSEND to a free port copies its bytes, changes no other byte and posts its entry; to a port
another writer holds it stalls its slice; the stall ends with the send; a stop leaves whole pieces of 64 bytes and no post. -/
def Obligations.TileControl : Prop :=
  Claims.Repeats ∧ Claims.SliceBarrier ∧ Claims.NeighbourSend

/-- R173: the model's draw is KCG-128; for each seed and stream the map from (step, index) to the block is a bijection, so
that no two draws give equal blocks. -/
def Obligations.KcgPermutation : Prop :=
  (∀ (seed : BitVec 128) (stream : BitVec 32) (step index : BitVec 64),
    kcg seed.toNat stream.toNat step.toNat index.toNat
      = ((kcg128 seed stream (step, index)).1.toNat, (kcg128 seed stream (step, index)).2.1.toNat,
         (kcg128 seed stream (step, index)).2.2.1.toNat, (kcg128 seed stream (step, index)).2.2.2.toNat))
  ∧ (∀ (seed : BitVec 128) (stream : BitVec 32),
    (∀ p q, kcg128 seed stream p = kcg128 seed stream q → p = q) ∧ ∀ w : Words, ∃ p, kcg128 seed stream p = w)
  ∧ (∀ (seed stream step index step' index' : Nat), step < 2 ^ 64 → index < 2 ^ 64 → step' < 2 ^ 64 → index' < 2 ^ 64 →
    kcg seed stream step index = kcg seed stream step' index' → step = step' ∧ index = index')

/-- GMAX, TOPK and the commands on random streams (R180, R181, R185, R186). On a Fused tile GMAX of no element gives 0xFFFFFFFF
and minus infinity, of some an index below the count, and leaves memory; TOPK writes no byte outside its k entries and fills
those past the count with that same pair. RNG_SEED of an idle context sets seed and step, of one with a running step stages
them; RNG_QUERY gives the record; RNG_EVAL gives the KCG blocks of consecutive indices and touches no context. -/
def Obligations.RandomAndSampling : Prop :=
  Claims.Sampling ∧ Claims.RandomCommands

/-- Sealing of slots (R193 to R195, R224). A SEAL the sequencer considers, before its seal line and with no reason against it,
seals the instance as given with its parameter block in sequencer memory; a late one, or one with a reason, leaves its slot
to the idle instance; a seal line with nothing sealed seals the idle instance; the slot is counted as unfilled once the idle
instance has run in it. No reason against an instance means: deadlines and the horizon hold, no two reservations of a unit
meet, at most 64 launches at a tick, its units exist and are no coding engines, at most 2 048 entries. -/
def Obligations.SlotSealing : Prop :=
  Claims.Sealing ∧ Claims.SealChecks

/-- Launch, overlap and end of reservations (R197 to R202). At its instant an entry whose units are free is reserved from its
first tick for its budget and is gone from the instance, no earlier entry of the instant being due; a LAUNCH entry starts
its program on each unit at its entry position with the table's owner and its parameter, a tile's registers zero; a unit out
of service gets no program. An entry that finds its unit reserved does not launch and a record of code 4 names both. A stage
whose units have all ended in time leaves its units idle; at the budget's end the reservation goes with a stage record of
run, slack and status; one not ended is stopped with cause 1 and a record of code 3, HUNG. The order within an instant
across tables is the model's (log entry 36). -/
def Obligations.Reservations : Prop :=
  Claims.EntryLaunch ∧ Claims.EntryOverlap ∧ Claims.StageAndReservationEnd

/-- R206 to R208: the choice of the lend scheduler is admitted by R207 and no other eligible micro-step precedes it; a
decision with one ready micro-step that is admitted launches it on all its units. -/
def Obligations.LendDecision : Prop :=
  (∀ (s : State) (m : ReadyMicro), chooseLent s = some m → m ∈ s.tts.ready ∧ lendHeld s = false
    ∧ (∀ u ∈ m.units, freeForLent s u = true)
    ∧ (∀ d, duskOf s m.units = some d → s.tmb.free + (m.bound + guardOf s m.bound) ≤ d)
    ∧ ∀ m' ∈ s.tts.ready, mayLend s m' = true → admits s m' = true → letsBlock s m' = true → chooseBefore s m' m = false)
  ∧ (∀ (s : State) (m : ReadyMicro), s.tts.ready = [m] → s.tts.waiting = [] → lendHeld s = false → mayLend s m = true →
    admits s m = true → m.blocking = false →
    ∃ t, exec .lendDecision s = .next t ∧ t.tts.ready = []
      ∧ t.tts.lent = s.tts.lent ++ [{ ctx := m.ctx, micro := m.micro, units := m.units, bound := m.bound,
                                      launch := s.tmb.free, dusk := (duskOf s m.units).getD (2 ^ 64),
                                      snap := sbSnapshot s m.ctx m.units }]
      ∧ (∀ u ∈ m.units, (unitRun t u).holder = .lent m.ctx m.micro ∧ (unitRun t u).owner = m.ctx
          ∧ (unitRun t u).dusk = (duskOf s m.units).getD (2 ^ 64))
      ∧ (m.units.Nodup → ∀ i < m.units.length, (unitRun t (m.units.getD i 0)).program = m.progs.getD i 0)
      ∧ t.mem = s.mem ∧ t.grd.sb = s.grd.sb)
  ∧ (∀ (s : State) (c m : Nat), c < 256 → ∃ t, exec (.microStepBlocking c m) s = .next t
    ∧ t.tts.ready.length = s.tts.ready.length ∧ t.grd = s.grd
    ∧ ∀ q ∈ s.tts.ready, q.ctx = c → q.micro = m → effPrio s q = 0 → s.tts.blockAfter ≤ s.tmb.free - q.ready →
        { q with blocking := true } ∈ t.tts.ready)
  ∧ (∀ (s : State) (c m : Nat) (r : RunningMicro), c < 256 → lentOf s c m = some r → (microOf s c m).phase = .running →
    (microOf s c m).status = .success → (microOf s c m).sync = [] →
    (∀ u ∈ r.units, atEnd s u = true ∧ (unitRun s u).stopped = false) → dueOn s r.units = none →
    (∀ j, j < (stepMicros s c).length → (microOf s c j).phase ≠ .waiting) →
    ∃ t, exec (.microStepEnd c m) s = .next t ∧ lentOf t c m = none ∧ (microOf t c m).phase = .done
      ∧ (∀ u ∈ r.units, unitRun t u = {}) ∧ t.mem = s.mem ∧ t.grd.sb = s.grd.sb)

/-- R219, R222 to R224: the commands of the time-table sequencer. -/
def Obligations.TableCommands : Prop :=
  (∀ (s : State) (m k : Nat) (c : Cmd) (tp : Template), Due s m 0x0440 c → targetOf m c ≠ 0xFF →
    partTable s (targetOf m c) = some k → (tableOf s k).state = .empty → (∀ l ∈ s.tts.loads, l.2.1 ≠ targetOf m c) →
    field c.payload 0 1 ≤ 3 → field c.payload 1 1 = 0 → field c.payload 4 4 ≠ 0 →
    inShare s (targetOf m c) (field c.payload 8 8) (field c.payload 4 4) = true → (∃ h < 64, tabHas s.ops h = false) →
    ∃ t h, exec (.tableLoad m (some tp)) s = .next t ∧ h < 64 ∧ tabHas s.ops h = false ∧ Accepted t m c h
      ∧ tabFind? t.tts.loads h = some (targetOf m c, tp) ∧ (tableOf t k).state = .empty)
  ∧ (∀ (s : State) (h k p : Nat) (tp : Template) (o : LongOp), h < 64 → tabFind? s.tts.loads h = some (p, tp) →
    opOf s h = some o → o.finished = false → partTable s p = some k → NoneQueued s → (tableOf s k).state = .empty →
    (∀ tab sh, loadCheck s p k (o.args.getD 0 0) (o.args.getD 1 0 = 1) tp = .ok (tab, sh) → tab.state = .empty →
      ∃ t, exec (.tableLoadDone h) s = .next t ∧ Ended t h .success [] ∧ (tableOf t k).state = .loaded
        ∧ (tableOf t k).idleEntries = tab.idleEntries ∧ tabFind? t.tts.loads h = none)
    ∧ (∀ st res, loadCheck s p k (o.args.getD 0 0) (o.args.getD 1 0 = 1) tp = .error (st, res) →
      ∃ t, exec (.tableLoadDone h) s = .next t ∧ Ended t h st res ∧ t.tts.tables = s.tts.tables ∧ t.grd = s.grd))
  ∧ (∀ (s : State) (m k : Nat) (c : Cmd), Due s m 0x0441 c → targetOf m c ≠ 0xFF → partTable s (targetOf m c) = some k →
    (tableOf s k).state = .loaded → k < 8 → NoneQueued s →
    ∃ t, exec (.tableUnload m) s = .next t ∧ Answered t m c .success [] ∧ tableOf t k = {}
      ∧ (∀ x, x < 512 → shareOf t x (256 + k) = (0, 0)))
  ∧ (∀ (s : State) (m k : Nat) (c : Cmd), Due s m 0x0442 c → targetOf m c ≠ 0xFF → partTable s (targetOf m c) = some k →
    (tableOf s k).state = .running →
    ∃ t st, exec (.tableStop m) s = .next t ∧ Answered t m c .success (leBytes 8 st) ∧ (tableOf t k).stopSlot = st
      ∧ ((tableOf t k).state = .stopping ∨ (tableOf t k).state = .loaded)
      ∧ st = tStart s (tableOf s k) (slotFrom s (tableOf s k) (max (field c.payload 0 8) (corrNow s + 19661))))
  ∧ (∀ (s : State) (m k : Nat) (c : Cmd), Due s m 0x0443 c → targetOf m c ≠ 0xFF → partTable s (targetOf m c) = some k →
    ∃ t, exec (.tableStatus m) s = .next t ∧ t.tts = s.tts ∧ Answered t m c .success
      (leBytes 8 (tableCode (tableOf s k).state + 8 * (tableOf s k).mu + 32 * b2n (tableOf s k).ecp)
        ++ leBytes 8 (if (tableOf s k).state = .running then curSlot s (tableOf s k) else 0)
        ++ leBytes 8 (sealedThrough (tableOf s k)) ++ leBytes 8 (ctrWord (tableOf s k).unfilled)
        ++ leBytes 8 (ctrWord (tableOf s k).overruns) ++ leBytes 8 (tableOf s k).stopSlot))
  ∧ (∀ (s : State) (m : Nat) (c : Cmd), Due s m 0x0444 c → NoneQueued s →
    (field c.payload 0 4 ≠ 0 → field c.payload 4 4 ≠ 0 → field c.payload 8 4 ≠ 0 → field c.payload 0 4 ≤ 196608 →
      field c.payload 12 1 ≤ 15 →
      ∃ t, exec (.lendConfig m) s = .next t ∧ Answered t m c .success [] ∧ t.tts.duskMargin = field c.payload 0 4
        ∧ t.tts.ageStep = field c.payload 4 4 ∧ t.tts.blockAfter = field c.payload 8 4
        ∧ t.tts.retryLimit = field c.payload 12 1 ∧ t.tts.tables = s.tts.tables)
    ∧ (field c.payload 0 4 = 0 →
      ∃ t, exec (.lendConfig m) s = .next t ∧ Answered t m c .zeroNotAllowed [] ∧ t.tts = s.tts))

/-- R234, R235: block floating point takes the smallest exponent at which every part fits; a part it holds without
saturation comes back within half a step. -/
def Obligations.WireCompression : Prop :=
  ∀ (w : Nat) (l : List Int), (w = 8 ∨ w = 9 ∨ w = 12 ∨ w = 14) → (∀ x ∈ l, -32768 ≤ x ∧ x ≤ 32767) →
    (∀ e, e ≤ 16 - w → bfpFits w e l = true → bfpExp w l ≤ e ∧ bfpFits w (bfpExp w l) l = true ∧ (bfpPack w l).2.2 = {})
    ∧ (∀ e < bfpExp w l, bfpFits w e l = false) ∧ bfpExp w l ≤ 16 - w
    ∧ (∀ x ∈ l, bfpFits w (bfpExp w l) l = true →
        2 * (shiftRound x (bfpExp w l) * 2 ^ bfpExp w l - x).natAbs ≤ 2 ^ bfpExp w l)
    ∧ (∀ (e : Nat) (m : Int), -2 ^ (w - 1) ≤ m → m < 2 ^ (w - 1) → e ≤ 16 - w → bfpUnpack e m = (m * 2 ^ e, {}))

/-- Fronthaul receive path: frame checks, windows, symbols (R231, R232, R235, R238, R240 to R244, R255, R261). The checks of a
received frame come in their order, and the first that fails drops it and only moves its counter. A well-formed U-plane
packet of one PRB, its arrival its timestamp at the land, before or after its window is dropped whole and counted; inside it
is written where the layout says, once, and its presence bit set. A window's opening clears the symbol's bitmap; the post
comes after its close, with the missing PRBs counted, and the consumer's slot holds each PRB unpacked, a missing one as
zero. -/
def Obligations.FronthaulReceive : Prop :=
  Claims.FrameChecks ∧ Claims.ReceiveWindow ∧ Claims.SymbolWindows

/-- Fronthaul send path: releases, selection, shapers, gates, host frames (R230, R231, R234, R245 to R256, R261). At its release
tick a downlink symbol of one packet joins Q1 and a C-plane message Q0 as the bytes of their frames, the samples compressed,
with the binding's next sequence identity; a symbol is released once. With the link free an eligible Q0 sends its head
frame, with its timestamp, whatever the others hold; under profile A a frame on the wire is left alone, under profile B it
is cut at a fragment's end for an eligible Q0. Refills add tokens by rate up to the burst; a gate edge takes the gates of
the list at corrected time; a gate list switches at its tick, the first multiple of its cycle at or after the change. An
ETH_TX entry in order joins the queue it names and completes with SUCCESS; a queue outside 3 to 7, a bad length, length 0
and a full queue complete with their statuses and send nothing. -/
def Obligations.FronthaulSend : Prop :=
  Claims.Releases ∧ Claims.TransmitSelection ∧ Claims.ShapersAndGates ∧ Claims.HostFrames

/-- R227, R229, R247 to R258, R263: the fronthaul commands and the link. -/
def Obligations.FronthaulCommands : Prop :=
  (∀ (s : State) (mac : Nat) (up : Bool), mac < 32 → (macOf s mac).link = !up → macPresent s mac = true →
    ∃ t, exec (.fhLink mac up) s = .next t ∧ (macOf t mac).link = up ∧ t.fh.binds = s.fh.binds)
  ∧ (∀ (s : State) (m : Nat) (c : Cmd), Due s m 0x0460 c → field c.payload 0 1 ≤ 7 → field c.payload 1 1 ≤ 3 →
    tabGet s.fh.modes (field c.payload 0 1) 0 ≠ field c.payload 1 1 →
    ((∀ j < 4, macBoundIn s (field c.payload 0 1 * 4 + j) [.running, .stopping] = false) →
      ∃ t, exec (.fhPortMode m) s = .next t ∧ Answered t m c .success []
        ∧ tabGet t.fh.modes (field c.payload 0 1) 0 = field c.payload 1 1
        ∧ ∀ j < 4, (macOf t (field c.payload 0 1 * 4 + j)).link = false
            ∧ (macOf t (field c.payload 0 1 * 4 + j)).ctr = {} ∧ (macOf t (field c.payload 0 1 * 4 + j)).queues = [])
    ∧ ((∃ j < 4, macBoundIn s (field c.payload 0 1 * 4 + j) [.running, .stopping] = true) →
      ∃ t, exec (.fhPortMode m) s = .next t ∧ Answered t m c .notPermitted [] ∧ t.fh = s.fh))
  ∧ (∀ (s : State) (m : Nat) (c : Cmd), Due s m 0x0461 c → macPresent s (field c.payload 0 1) = true →
    field c.payload 1 1 ≤ 1 → 64 ≤ field c.payload 2 2 → field c.payload 2 2 ≤ 9216 → field c.payload 4 2 = 0xFFFF →
    field c.payload 6 1 ≤ 1 → field c.payload 7 1 = 0 → 16 ≤ c.len → macBoundIn s (field c.payload 0 1) [.running] = false →
    ∃ t, exec (.fhMacConfig m) s = .next t ∧ Answered t m c .success []
      ∧ macOf t (field c.payload 0 1) = { macOf s (field c.payload 0 1) with
          profileB := decide (field c.payload 1 1 = 1), maxFrame := field c.payload 2 2, vid := 0xFFFF,
          oneStep := decide (field c.payload 6 1 = 1), address := field c.payload 8 6, hostRing := field c.payload 14 2,
          groups := [] })
  ∧ (∀ (s : State) (m : Nat) (c : Cmd), Due s m 0x0462 c → macPresent s (field c.payload 0 1) = true →
    3 ≤ field c.payload 1 1 → field c.payload 1 1 ≤ 7 → field c.payload 4 1 ≠ 0 → field c.payload 5 1 ≤ 7 →
    field c.payload 8 4 ≤ 400000 → field c.payload 12 4 ≠ 0 → field c.payload 12 4 ≤ 1048576 →
    ((List.range 8).map (fun j => if j = field c.payload 1 1 then field c.payload 2 2
      else (queueOf (macOf s (field c.payload 0 1)) j).depth)).sum ≤ 4096 →
    ∃ t, exec (.fhQueueConfig m) s = .next t ∧ Answered t m c .success []
      ∧ queueOf (macOf t (field c.payload 0 1)) (field c.payload 1 1)
        = { queueOf (macOf s (field c.payload 0 1)) (field c.payload 1 1) with
              depth := field c.payload 2 2, weight := field c.payload 4 1, pcp := field c.payload 5 1,
              rate := field c.payload 8 4, burst := field c.payload 12 4, tokens := 0, frac := 0 })
  ∧ (∀ (s : State) (m : Nat) (c : Cmd), Due s m 0x0463 c → macPresent s (field c.payload 0 1) = true →
    field c.payload 2 2 = 0 → 24 ≤ c.len → field c.payload 4 4 ≤ 19660800 →
    (corrNow s + 19661 ≤ field c.payload 16 8 → field c.payload 16 8 ≤ corrNow s + 117964800000 →
      ∃ t, exec (.fhGclSet m) s = .next t ∧ Answered t m c .success []
        ∧ (macOf t (field c.payload 0 1)).gclPending = some { base := field c.payload 8 8, cycle := field c.payload 4 4,
                                                              entries := [], change := field c.payload 16 8 }
        ∧ (macOf t (field c.payload 0 1)).gcl = (macOf s (field c.payload 0 1)).gcl)
    ∧ (field c.payload 16 8 < corrNow s + 19661 →
      ∃ t, exec (.fhGclSet m) s = .next t ∧ Answered t m c .late [] ∧ t.fh = s.fh))
  ∧ (∀ (s : State) (m : Nat) (c : Cmd), Due s m 0x0464 c → macPresent s (field c.payload 0 1) = true →
    field c.payload 1 1 ≤ 63 → field c.payload 2 2 = 0xFFFF → field c.payload 6 2 ≤ field c.payload 8 2 →
    field c.payload 12 4 ≤ 400000 → field c.payload 16 4 ≠ 0 → field c.payload 16 4 ≤ 1048576 →
    ∃ t, exec (.fhPolicerSet m) s = .next t ∧ Answered t m c .success []
      ∧ tabFind? (macOf t (field c.payload 0 1)).policers (field c.payload 1 1)
        = some { vid := 0xFFFF, etype := field c.payload 4 2, eaxcLo := field c.payload 6 2, eaxcHi := field c.payload 8 2,
                 rate := field c.payload 12 4, burst := field c.payload 16 4, tokens := field c.payload 16 4 })
  ∧ (∀ (s : State) (m : Nat) (c : Cmd), Due s m 0x0465 c → macPresent s (field c.payload 0 1) = true →
    ∃ t, exec (.fhAsymSet m) s = .next t ∧ Answered t m c .success []
      ∧ (macOf t (field c.payload 0 1)).asym = fieldInt c.payload 4 4)
  ∧ (∀ (s : State) (m : Nat) (c : Cmd), Due s m 0x0466 c → macPresent s (field c.payload 0 1) = true →
    field c.payload 1 1 ≤ 1 →
    ∃ t, exec (.fhStatus m) s = .next t ∧ Answered t m c .success (fhStatusRecord s (field c.payload 0 1))
      ∧ (macOf t (field c.payload 0 1)).ctr
        = (if field c.payload 1 1 = 1 then {} else (macOf s (field c.payload 0 1)).ctr))

/-- LDPC decoding, encoders and polar engines (R272, R274 to R279, R290, R293). One lift of a min-sum row gives each column the
least magnitude of the others less the offset, at most 127, with the product of their signs. The oldest posted job of a
decoder goes through its phases, each ending its cycles after the post and the phase before: the input phase gives the
recovered soft bits and frees the slot, the decode phase values within -512 to 511 and at most the iterations asked, the
output phase the information bits, the CRC verdict, the causes and the soft buffer written back exactly where the rule says.
A job out of range gives cause 1, of length 0 cause 2. Encoders and polar engines complete their oldest posted job with its
tag, release its slot and touch no memory. Descriptor places and a mother length not named are the model's (log entry 163). -/
def Obligations.ChannelCoding : Prop :=
  Claims.MinSumRow ∧ Claims.LdpcInput ∧ Claims.LdpcDecoding ∧ Claims.EncodersAndPolar

/-- PRACH detection, GAIN_SET and STAGE_RECORDS (R284, R285, R287, R292). A preamble is reported exactly when its zone's peak
reaches both thresholds, in ascending order, at most 64; the peak is the largest power of the zone at the lowest offset that
has it; the timing advance is that of an offset of the zone. GAIN_SET of a bound antenna answers the start of the slot at
which it takes effect, two ahead or later and not sealed, and adds the gain there; its other answers are BAD_FIELD and
CELL_STATE. STAGE_RECORDS gives the slot's records from an entry on in order, TIME_RANGE, BAD_FIELD or PARTITION_STATE. -/
def Obligations.PrachAndGains : Prop :=
  Claims.PrachDetection ∧ Claims.GainsAndStageRecords

/-- R294: the cost of a cell, rounded up to a 64th; the cell unit of R5 costs exactly 1; a learned receiver changes nothing. -/
def Obligations.CellCost : Prop :=
  (∀ x : CellConfig, (x.fdd = false → 0 < x.periodSlots) →
    1 ≤ cellCost x ∧ costCovers x (cellCost x) ∧ ∀ n, 1 ≤ n → costCovers x n → cellCost x ≤ n)
  ∧ (∀ x : CellConfig, x.mu = 1 → x.prbDl = 273 → x.prbUl = 273 → x.antTx = 4 → x.antRx = 4 → x.layersDl = 4 →
    x.layersUl = 4 → x.fdd = false → 0 < x.periodSlots → 5 * x.uSlots = x.periodSlots → cellCost x = 64)
  ∧ ∀ (x : CellConfig) (b : Bool), cellCost { x with learned := b } = cellCost x

/-- Admission of PDUs, HARQ combining and the cell commands (R281 to R283, R297 to R300, R304, R314). What admission keeps is
within every class budget and every count, comes from the messages held and is supported; each PDU is kept or reported,
once. A new transmission frees its process's soft-buffer slot and takes a free one of the pool; a retransmission keeps it;
one whose process holds no slot, is marked, or comes before the write-back has ended (its instants: log entry 162) is
decoded without combining and counts its code blocks. CELL_CREATE with every field in order and room makes the cell
CONFIGURED or STANDBY with its cost and the bindings of its list, or answers QUOTA, OVER_BUDGET, NO_RESOURCE,
PARTITION_STATE, CELL_STATE or the status of a bad binding and changes no cell and no binding. CELL_DESTROY of a CONFIGURED
or STANDBY cell removes it and its bindings, else CELL_STATE. CELL_QUERY gives the record and clears the four counters where
asked. -/
def Obligations.CellCommands : Prop :=
  Claims.Admission ∧ Claims.HarqCombining ∧ Claims.CellCommands

/-- Twins: pairing, intake and takeover (R303, R307, R308, R310). TWIN_PAIR with an address where the peer is a member makes the
cell the active and sends one snapshot; else TWIN_UNAVAILABLE, or CELL_STATE of a cell that does not allow it. TWIN_UNPAIR
ends the pairing from either side and keeps the cell's state. At the intake line of a slot of a running cell what is held is
admitted as the admission rule gives. A mirror record brings the standby the snapshot or the schedule of what was admitted.
A synced standby takes the cell over at an agreed slot, as written out. -/
def Obligations.Twins : Prop :=
  Claims.TwinPairing ∧ Claims.IntakeAndTwins

/-- FAPI messages of a cell (R300 to R303, R316). A FAPI message out stands whole in the indication area with one entry on the
ring, or is dropped and counted. PARAM, CONFIG, START and STOP requests and an unsupported message do what the cell's state
allows, or answer the error of the model's layout (log entry 18). A slot message in time is held under its slot: DL_TTI,
UL_TTI, UL_DCI once each, TX_DATA appended, K_PRIO set; a second one changes no slot, a late one is counted. -/
def Obligations.FapiMessages : Prop :=
  Claims.IndicationArea ∧ Claims.CellControlMessages ∧ Claims.SlotMessages

/-- Sweep: the receiver's arithmetic, its samples and the commands of a channel (R321 to R326, R329, R335 to R340). The
receiver's arithmetic recovers what a sender's frame holds: Gray values, payload bits and the CRC. A channel keeps its last
stream samples; a frame's samples are ten up-sweeps, two down-sweeps and the shifted sweeps of its data, and a quarter of a
turn is exact in Q15. SWEEP_CHANNEL_SET, SWEEP_CHANNEL_CLEAR and SWEEP_STATUS set, remove and report a channel, SWEEP_TX and
its end queue, send whole and answer a frame, with the statuses written out. CELL_STATE for a frame of a cell that does not
run is the model's (log entry 166). -/
def Obligations.SweepCommands : Prop :=
  Claims.SweepArithmetic ∧ Claims.SweepSamples ∧ Claims.SweepCommands

/-- Sweep reception: Gray map, windows, candidates, symbols and frames (R323, R328, R329, R331 to R334). For every spreading
factor 8 to 15 the symbol of a group of data bits, its first bit least significant, is the inverse Gray map of the group,
the Gray map gives the group back, and the groups of symbols one bin apart differ in one bit. The bin of a window is the
lowest that holds its largest power. Detection windows make runs and a run with its down-chirps a candidate, which starts a
demodulation with the fixed start and frequency. A data symbol adds its bits; a header with a wrong CRC ends the
demodulation and counts; a frame with the right CRC is counted and posted on the cell's indication ring, one with a wrong
CRC counted only. -/
def Obligations.SweepReception : Prop :=
  Claims.SweepGray ∧ Claims.SweepReception

/-- A context comes, is written and goes (R344, R348 to R350, R366, R367). CTX_CREATE with every check passed is accepted with
the context's fields, and no context exists yet; it answers the status of memory that does not suffice, ZERO_NOT_ALLOWED and
BAD_FIELD; its end makes the context LOADED with regions that read zero. CTX_DESTROY is accepted and ends its submissions,
or answers CONTEXT_STATE; its end makes the index ABSENT. CTX_WRITE is accepted with its arguments, or answers SUCCESS for
length 0 or BAD_ADDRESS; its end copies the bytes and changes no other. -/
def Obligations.ContextLife : Prop :=
  Claims.ContextLife ∧ Claims.ContextWrite

/-- R344, R353 to R355: victims are of equal or lower priority, not pinned, not protected; residency comes, is protected for
the first step, and goes at a boundary. -/
def Obligations.Residency : Prop :=
  (∀ (s : State) (c : Nat) (vs : List Nat), chooseVictims s c false = some vs →
    (placeAll s c vs).isSome = true
    ∧ ∀ v ∈ vs, ∃ x, (v, x) ∈ s.srv.ctxs ∧ v ≠ c ∧ (x.state = .resident ∨ x.state = .running) ∧ x.pinned = false
        ∧ x.prot = false ∧ (ctxOf s c).prio ≤ x.prio)
  ∧ (∀ (s : State) (m n : Nat) (c : Cmd), Due s m 0x0503 c → n = field c.payload 0 2 → n < 256 →
    (ctxOf s n).part = targetOf m c → (ctxOf s n).state ≠ .absent → destroying s n = false →
    (s.dev.twilight = false → (ctxOf s n).state ≠ .frozen → (∃ h < 64, tabHas s.ops h = false) →
      ∃ t h o, exec (.ctxReside m) s = .next t ∧ (mbxOf t m).phase = .done ∧ (mbxOf t m).resp
          = { status := .inProgress, opcode := c.opcode, tag := c.tag, retryAfter := 0, handle := h, payload := [] }
        ∧ opOf t h = some o ∧ o.opcode = 0x0503 ∧ o.obj = n)
    ∧ (s.dev.twilight = true → (mbxOf s m).irqEn = false → frontResiding s = none →
      ∃ t, exec (.ctxReside m) s = .next t ∧ Answered t m c .twilight [] ∧ t.srv = s.srv))
  ∧ (∀ (s : State) (c : Nat), c < 256 → tabWf s.srv.ctxs → (ctxOf s c).state = .residing → (ctxOf s c).written = true →
    (ctxOf s c).queue ≠ [] →
    ∃ t, exec (.residencyDone c) s = .next t ∧ (ctxOf t c).state = .resident ∧ (ctxOf t c).prot = true
      ∧ (ctxOf t c).lastStepped = s.tmb.free ∧ (ctxOf t c).queue = (ctxOf s c).queue)
  ∧ (∀ (s : State) (m n : Nat) (c : Cmd), Due s m 0x0504 c → n = field c.payload 0 2 → n < 256 → tabWf s.srv.ctxs →
    (ctxOf s n).part = targetOf m c → destroying s n = false →
    ((ctxOf s n).state = .loaded →
      ∃ t, exec (.ctxEvict m) s = .next t ∧ Answered t m c .success [] ∧ (ctxOf t n).state = .loaded)
    ∧ ((ctxOf s n).state = .resident → (ctxOf s n).queue = [] →
      ∃ t, exec (.ctxEvict m) s = .next t ∧ Answered t m c .success [] ∧ (ctxOf t n).state = .loaded
        ∧ (ctxOf t n).evictions = ctrInc (ctxOf s n).evictions)
    ∧ ((ctxOf s n).state = .running →
      ∃ t, exec (.ctxEvict m) s = .next t ∧ Answered t m c .success [] ∧ (ctxOf t n).state = .running
        ∧ (ctxOf t n).evictCause = some ((ctxOf s n).evictCause.getD 0))
    ∧ ((ctxOf s n).state = .residing →
      ∃ t, exec (.ctxEvict m) s = .next t ∧ Answered t m c .contextState []))

/-- R362 to R365, R366, R368: submissions and their completions. -/
def Obligations.Submissions : Prop :=
  (∀ (s : State) (ring tag k c done : Nat) (body : List Byte), ring < 4096 → headMsg s ring 5 = some (0x20, tag, k, body) →
    doneRingOf s ring = some done → doneWaiting s done = [] → ringRoom s done 1 = true → c = field body 0 2 →
    (ctxOf s c).held = false → tabWf s.srv.ctxs →
    (submitStatus s ring c body (submissionOf body tag) = (.success, 0) → (ctxOf s c).queue ≠ [] →
      ∃ t, exec (.stepSubmit ring) s = .next t ∧ (ctxOf t c).queue = (ctxOf s c).queue ++ [submissionOf body tag]
        ∧ (ctxOf t c).state = (ctxOf s c).state)
    ∧ (submitStatus s ring c body (submissionOf body tag) = (.success, 0) → (ctxOf s c).queue = [] →
      (ctxOf s c).state = .loaded → partRuns s c = true → frontResiding s = none → (placeAll s c []).isSome = true →
      ∃ t, exec (.stepSubmit ring) s = .next t ∧ (ctxOf t c).state = .residing ∧ (ctxOf t c).written = true
        ∧ (ctxOf t c).queue = [{ submissionOf body tag with headTick := s.tmb.free }])
    ∧ (∀ st retry, submitStatus s ring c body (submissionOf body tag) = (st, retry) → st ≠ .success →
      ∃ t, exec (.stepSubmit ring) s = .next t ∧ (ctxOf t c).queue = (ctxOf s c).queue
        ∧ (ringOf t done).map (fun r => r.devIdx) = (ringOf s done).map (fun r => (r.devIdx + 1) % 4294967296)))
  ∧ (∀ (s : State) (ring c : Nat) (b : List Byte) (u : Submission), 48 ≤ b.length → c < 256 →
    (((ctxOf s c).subRing ≠ ring ∨ (ctxOf s c).state = .absent ∨ (ctxOf s c).state = .frozen) →
      submitStatus s ring c b u = (.contextState, 0))
    ∧ (submitStatus s ring c b u = (.success, 0) → (ctxOf s c).queue.length < (ctxOf s c).depth
        ∧ u.kind < (ctxOf s c).img.kinds.length ∧ u.inLen ≤ (kindOf (ctxOf s c) u.kind).inMax))
  ∧ (∀ (s : State) (ring tag : Nat) (body : List Byte), ring < 4096 → doneWaiting s ring = [(tag, body)] →
    ringRoom s ring 1 = true → body.length = 56 →
    ∃ t, exec (.stepDone ring) s = .next t ∧ doneWaiting t ring = []
      ∧ (ringOf t ring).map (fun r => r.devIdx) = (ringOf s ring).map (fun r => (r.devIdx + 1) % 4294967296))
  ∧ (∀ (s : State) (m n : Nat) (c : Cmd), Due s m 0x0505 c → n = field c.payload 0 2 → n < 256 →
    (ctxOf s n).part = targetOf m c → (ctxOf s n).state ≠ .absent → destroying s n = false →
    ∃ t, exec (.ctxFlush m) s = .next t ∧ Answered t m c .success [] ∧ (ctxOf t n).state = (ctxOf s n).state
      ∧ (ctxOf t n).queue = (if (ctxOf s n).step.isSome then (ctxOf s n).queue.take 1 else []))
  ∧ (∀ (s : State) (m n : Nat) (c : Cmd), Due s m 0x0506 c → n = field c.payload 0 2 → n < 256 → field c.payload 2 1 ≤ 1 →
    (ctxOf s n).part = targetOf m c → (ctxOf s n).state ≠ .absent →
    ∃ t, exec (.ctxQuery m) s = .next t ∧ Answered t m c .success (ctxRecord (ctxOf s n))
      ∧ (ctxOf t n).commits = (if field c.payload 2 1 = 1 then {} else (ctxOf s n).commits)
      ∧ (ctxOf t n).queue = (ctxOf s n).queue ∧ t.mem = s.mem)
  ∧ (∀ (s : State) (c : Nat) (u : Submission) (r : List Submission), c < 256 → (ctxOf s c).queue = u :: r → u.noon = true →
    u.launched = false → (ctxOf s c).step = none →
    (u.headTick + 117964800000 ≤ s.tmb.free →
      ∃ t, exec (.noonHoldTimeout c) s = .next t ∧ (ctxOf t c).queue.map (fun q => q.tag) = r.map (fun q => q.tag)
        ∧ (ctxOf t c).state = (ctxOf s c).state)
    ∧ (s.tmb.free < u.headTick + 117964800000 → exec (.noonHoldTimeout c) s = .next s))

/-- R351, R358 to R360: a batch step starts with its first micro-steps ready, commits when all is over, and ends with OVERRUN
at its bound. -/
def Obligations.BatchSteps : Prop :=
  (∀ (s : State) (c : Nat) (u : Submission) (r : List Submission), c < 256 → mayStart s c = true →
    (ctxOf s c).queue = u :: r → pageBad s c (pageList s u) = false → (kindOf (ctxOf s c) u.kind).micros ≠ [] →
    kindNeverFits s c u.kind = false →
    ∃ t run, exec (.batchStepStart c) s = .next t ∧ (ctxOf t c).state = .running ∧ (ctxOf t c).step = some run
      ∧ run.sub = u ∧ run.start = s.tmb.free ∧ run.bound = (kindOf (ctxOf s c) u.kind).stepBound
      ∧ (ctxOf t c).rng = applySeed (ctxOf s c).rng
      ∧ ∀ i < (kindOf (ctxOf s c) u.kind).micros.length, ((kindOf (ctxOf s c) u.kind).micros.getD i {}).preds = [] →
        ∃ q ∈ t.tts.ready ++ t.tts.waiting, q.ctx = c ∧ q.micro = i)
  ∧ (∀ (s : State) (c : Nat), c < 256 → mayStart s c = false → exec (.batchStepStart c) s = .next s)
  ∧ (∀ (s : State) (c : Nat) (run : StepRun), c < 256 → (ctxOf s c).step = some run → stepOver s c = true → run.cas = false →
    (ctxOf s c).holdings = [] → (ctxOf s c).bindLedger = none →
    ∃ t, exec (.batchStepCommit c) s = .next t ∧ (ctxOf t c).step = none
      ∧ (ctxOf t c).rng.step = ((ctxOf s c).rng.step + 1) % 2 ^ 64 ∧ (ctxOf t c).commits = ctrInc (ctxOf s c).commits
      ∧ (ctxOf t c).rng.seed = (ctxOf s c).rng.seed)
  ∧ (∀ (s : State) (c : Nat) (run : StepRun), c < 256 → (ctxOf s c).step = some run → run.cas = false →
    (run.start + run.bound ≤ s.tmb.free →
      ∃ t, exec (.stepBoundExpiry c) s = .next t ∧ (ctxOf t c).step = none
        ∧ (ctxOf t c).rng.step = (ctxOf s c).rng.step ∧ (ctxOf t c).overruns = ctrInc (ctxOf s c).overruns)
    ∧ (s.tmb.free < run.start + run.bound → exec (.stepBoundExpiry c) s = .next s))

/-- R372, R375 to R377, R379, R381, R393: a partition is made under new keys with a share that reads zero; its quotas. -/
def Obligations.PartitionSetup : Prop :=
  (∀ (s : State) (m p : Nat) (c : Cmd) (q : Req), Due s m 0x0200 c → q = { m := m, target := targetOf m c, cmd := c } →
    p = field c.payload 0 1 → (targetOf m c = 0xFF ∨ targetOf m c = p) →
    ((partOf s p).state = .absent → (partOf s p).creating = false → field c.payload 3 1 ≠ 0 → field c.payload 32 8 ≠ 0 →
      (bit (field c.payload 1 1) 0 = true → field c.payload 12 2 ≠ 0) → quotaBad q (bit (field c.payload 1 1) 0) = false →
      shareBad s q = false →
      ((bit (field c.payload 1 1) 0 = true → ∃ k < 8, ∀ x ∈ otherParts s p, ¬ (x.radio = true ∧ x.radioSlot = k)) →
        sumsBad s q = false → s.mgt.entropyOk = true → (∃ h < 64, tabHas s.ops h = false) →
        ∃ t h, exec (.partCreate m) s = .next t ∧ Accepted t m c h ∧ (partOf t p).state = .absent
          ∧ (partOf t p).creating = true ∧ (partOf t p).radio = bit (field c.payload 1 1) 0
          ∧ (partOf t p).maxRings = field c.payload 3 1 ∧ (partOf t p).hdmBase = field c.payload 24 8
          ∧ (partOf t p).hdmLen = field c.payload 32 8
          ∧ (bit (field c.payload 1 1) 0 = true → (partOf t p).radioSlot < 8
              ∧ ∀ x ∈ otherParts s p, ¬ (x.radio = true ∧ x.radioSlot = (partOf t p).radioSlot))
          ∧ (∀ p', p' ≠ p → partOf t p' = partOf s p') ∧ t.mem = s.mem)
      ∧ (sumsBad s q = true →
        ∃ t, exec (.partCreate m) s = .next t ∧ Answered t m c .noResource [] ∧ t.parts = s.parts))
    ∧ (((partOf s p).state ≠ .absent ∨ (partOf s p).creating = true) →
      ∃ t, exec (.partCreate m) s = .next t ∧ Answered t m c .partitionState [] ∧ t.parts = s.parts))
  ∧ (∀ (s : State) (h p : Nat) (o : LongOp), h < 64 → opOf s h = some o → o.opcode = 0x0200 → o.finished = false → o.obj = p →
    ∃ t, exec (.partCreateDone h) s = .next t ∧ Ended t h .success (leBytes 1 (partOf s p).radioSlot)
      ∧ (partOf t p).state = .active ∧ (partOf t p).creating = false ∧ (partOf t p).keyGen = Config.entropy s.fresh
      ∧ (∀ a < (partOf s p).hdmLen, memRead t.mem (hdmAt ((partOf s p).hdmBase + a)) = 0)
      ∧ ∀ a, (a < hdmAt (partOf s p).hdmBase ∨ hdmAt (partOf s p).hdmBase + (partOf s p).hdmLen ≤ a) →
          memRead t.mem a = memRead s.mem a)
  ∧ (∀ (s : State) (m p : Nat) (c : Cmd) (q : Req), Due s m 0x0208 c → q = { m := m, target := targetOf m c, cmd := c } →
    p = field c.payload 0 1 → (targetOf m c = 0xFF ∨ targetOf m c = p) → p < 64 →
    ((partOf s p).state = .active ∨ (partOf s p).state = .freezing ∨ (partOf s p).state = .frozen) →
    field c.payload 3 1 ≠ 0 → ((partOf s p).radio = true → field c.payload 12 2 ≠ 0) → quotaBad q (partOf s p).radio = false →
    (quotaBelowUse s q p = true →
      ∃ t, exec (.partQuota m) s = .next t ∧ Answered t m c .quota [] ∧ t.parts = s.parts)
    ∧ (quotaBelowUse s q p = false → sumsBad s q = false → (∃ h < 64, tabHas s.ops h = false) →
      ∃ t h, exec (.partQuota m) s = .next t ∧ Ended t h .success [] ∧ partOf t p = quotasOf q (partOf s p)
        ∧ ∀ p', p' ≠ p → partOf t p' = partOf s p'))
  ∧ (∀ (s : State) (m : Nat) (c : Cmd), Due s m 0x0203 c → targetOf m c < 64 → field c.payload 0 1 ≤ 1 →
    ∃ t, exec (.partQuery m) s = .next t ∧ Answered t m c .success (partRecord s (targetOf m c))
      ∧ (partOf t (targetOf m c)).resets = (if field c.payload 0 1 = 1 then {} else (partOf s (targetOf m c)).resets)
      ∧ (partOf t (targetOf m c)).state = (partOf s (targetOf m c)).state ∧ t.mem = s.mem)
  ∧ (∀ (s : State) (job tick : Nat), job < 16777216 → tabFind? s.quarantine job = some tick →
    (tick + 1966080000 ≤ s.tmb.free → ∃ t, exec (.quarantineEnd job) s = .next t ∧ tabFind? t.quarantine job = none
        ∧ ∀ j, j ≠ job → tabFind? t.quarantine j = tabFind? s.quarantine j)
    ∧ (s.tmb.free < tick + 1966080000 → exec (.quarantineEnd job) s = .next s))

/-- Reset sequence, removal, freeze and thaw (R372, R380, R381, R383, R384, R391). PART_RESET and PART_REMOVE are accepted in
the states that allow them; a function level reset of an ACTIVE partition without radio goes to step 4 with every submission
ended, and has nothing to do in the states named. The fabric drain waits 50 µs after each tag's last transmission and
abandons them; the host drain waits for late writes at most 1 ms, then retires the jobs and destroys rings, objects and
contexts; the end makes the partition ACTIVE under a new key, or gone with its mailbox, its share reads zero, and the
operation ends with SUCCESS or HUNG. PART_FREEZE, its completion at a boundary and PART_THAW move partition and contexts as
written out and keep queues and streams. -/
def Obligations.PartitionChange : Prop :=
  Claims.PartitionReset ∧ Claims.FreezeAndThaw

/-- R372, R385, R387 to R390: save streams and restores. -/
def Obligations.SaveAndRestore : Prop :=
  (∀ (s : State) (m p : Nat) (c : Cmd) (q : Req), Due s m 0x0206 c → q = { m := m, target := targetOf m c, cmd := c } →
    targetOf m c = p → p < 64 → chunkBad q = false → (partOf s p).state = .frozen →
    (field c.payload 16 4 ≠ 0 → inManager s (field c.payload 0 8) (field c.payload 16 4) = true) → field c.payload 8 8 = 0 →
    (∃ h < 64, tabHas s.ops h = false) →
    ∃ t h v, exec (.partSave m) s = .next t ∧ Accepted t m c h ∧ (partOf t p).save = some v
      ∧ v.key = (c.payload.drop 32).take 64 ∧ v.dirLen % 4096 = 0 ∧ v.imgEnd % 4096 = 0 ∧ v.len % 4096 = 0
      ∧ v.dirLen ≤ v.imgEnd ∧ v.imgEnd < v.len ∧ (partOf t p).state = .frozen ∧ t.mem = s.mem ∧ t.srv = s.srv)
  ∧ (∀ (s : State) (m : Nat) (c : Cmd), Due s m 0x0206 c → targetOf m c < 64 → (partOf s (targetOf m c)).state ≠ .frozen →
    ∃ t, exec (.partSave m) s = .next t ∧ Answered t m c .partitionState [] ∧ t.parts = s.parts ∧ t.mem = s.mem)
  ∧ (∀ (s : State) (h p dst ofs len n : Nat) (o : LongOp) (v : SaveStream), h < 64 → opOf s h = some o → o.opcode = 0x0206 →
    o.finished = false → o.obj = p → o.args = [dst, ofs, len] → (partOf s p).save = some v → n = min len (v.len - ofs) →
    n ≠ 0 →
    ∃ t, exec (.saveChunkDone h) s = .next t ∧ Ended t h .success (leBytes 4 n ++ leBytes 8 v.len)
      ∧ hdmRead t dst (streamCipher s p v ofs n).length = streamCipher s p v ofs n
      ∧ (∀ a, (a < hdmAt dst ∨ hdmAt dst + n ≤ a) → memRead t.mem a = memRead s.mem a)
      ∧ t.parts = s.parts ∧ t.srv = s.srv)
  ∧ (∀ (s : State) (m p : Nat) (c : Cmd) (q : Req) (d0 d : StreamHead), Due s m 0x0207 c →
    d = readHead ((c.payload.drop 32).take 64) (hdmRead s (field c.payload 0 8) (min (field c.payload 16 4) 4096)) d0 →
    q = { m := m, target := targetOf m c, cmd := c } → targetOf m c = p → p < 64 → (partOf s p).radio = false →
    s.dev.twilight = false → (partOf s p).restore = none → chunkBad q = false → (partOf s p).state = .active →
    partEmpty s p = true → field c.payload 8 8 = 0 →
    (field c.payload 16 4 ≠ 0 → inManager s (field c.payload 0 8) (field c.payload 16 4) = true) →
    ∃ t, exec (.partRestore m d0) s = .next t
      ∧ (headStatus s p (field c.payload 16 4) d = .success → (∃ h < 64, tabHas s.ops h = false) →
        ∃ h r, Accepted t m c h ∧ (partOf t p).state = .restoring
          ∧ (partOf t p).restore = some r ∧ r.head = d ∧ r.data = [] ∧ r.bound = false ∧ t.mem = s.mem)
      ∧ (headStatus s p (field c.payload 16 4) d ≠ .success →
        Answered t m c (headStatus s p (field c.payload 16 4) d) [] ∧ t.parts = s.parts))
  ∧ (∀ (s : State) (h p src ofs len : Nat) (o : LongOp) (r g : RestoreRun) (places : List (List Placement)),
    h < 64 → opOf s h = some o → o.opcode = 0x0207 → o.finished = false → o.obj = p → o.args = [src, ofs, len] →
    (partOf s p).restore = some r → g = { r with data := r.data ++ hdmRead s src len } →
    (r.bound = true → g.data.length < r.head.len →
      ∃ t, exec (.restoreChunkDone h places) s = .next t ∧ Ended t h .success []
        ∧ (partOf t p).restore = some g ∧ (partOf t p).state = (partOf s p).state ∧ t.mem = s.mem)
    ∧ (r.bound = true → r.head.len ≤ g.data.length →
      ∃ t, exec (.restoreChunkDone h places) s = .next t
        ∧ (digestHolds g = true → Ended t h .success [] ∧ (partOf t p).state = .frozen ∧ (partOf t p).restore = none)
        ∧ (digestHolds g = false → (partOf s p).radio = false → Ended t h .imageRejected []
          ∧ (partOf t p).state = .resetting ∧ (partOf t p).restore = none))
    ∧ (∀ (st : Status) (n : Nat) (new : List (SavedCtx × List Byte × List Placement)), r.bound = false →
      new = (((List.range (imagesWithin r.head g.data.length).length).zip (imagesWithin r.head g.data.length)).drop
        r.imgs.length).map (fun c => (c.2, plainBytes r.key g.data c.2.imgOfs c.2.imgLen, places.getD c.1 [])) →
      imagesStatus s p new = (st, n) →
      (st ≠ .success → ∃ t, exec (.restoreChunkDone h places) s = .next t
        ∧ Ended t h st (if st = .restoreShape then leBytes 2 n else []) ∧ (partOf t p).state = .active
        ∧ (partOf t p).restore = none ∧ t.srv = s.srv ∧ t.mem = s.mem)
      ∧ (st = .success → g.data.length < r.head.imgEnd → ∃ t, exec (.restoreChunkDone h places) s = .next t
        ∧ Ended t h .success [] ∧ (partOf t p).restore = some { g with imgs := r.imgs ++ new.map (fun c => c.2) }
        ∧ (partOf t p).state = (partOf s p).state ∧ t.srv = s.srv ∧ t.mem = s.mem)))

/-- R405 to R407, R421 to R425: the commands of class 0x06 and the ports. -/
def Obligations.FabricCommands : Prop :=
  (∀ (s : State) (m dev gate life gw : Nat) (c : Cmd), Due s m 0x0600 c → dev = field c.payload 0 2 →
    gate = field c.payload 2 2 → life = field c.payload 4 4 → gw = field c.payload 8 4 →
    ((∃ q ∈ s.parts, q.2.jobs ≠ []) →
      ∃ t, exec (.fabDeviceConfig m) s = .next t ∧ Answered t m c .notPermitted [] ∧ t.fab = s.fab)
    ∧ ((∀ q ∈ s.parts, q.2.jobs = []) → gw = 0 →
      ∃ t, exec (.fabDeviceConfig m) s = .next t ∧ Answered t m c .zeroNotAllowed [] ∧ t.fab = s.fab)
    ∧ ((∀ q ∈ s.parts, q.2.jobs = []) → gw ≠ 0 →
        (dev / 64 = 0x3FF ∨ life < 1966080 ∨ 15728640 < life ∨ life < 9 * gw) →
      ∃ t, exec (.fabDeviceConfig m) s = .next t ∧ Answered t m c .badField [] ∧ t.fab = s.fab)
    ∧ ((∀ q ∈ s.parts, q.2.jobs = []) → gw ≠ 0 → dev / 64 < 0x3FF → 1966080 ≤ life → life ≤ 15728640 → 9 * gw ≤ life →
      ∃ t, exec (.fabDeviceConfig m) s = .next t ∧ Answered t m c .success [] ∧ t.fab =
        { s.fab with device := dev, gateway := gate, lifetime := life, gwTimeout := gw }))
  ∧ (∀ (s : State) (m n : Nat) (c : Cmd), Due s m 0x0601 c → n = field c.payload 0 1 →
    (n < gradePorts s.grade → field c.payload 1 1 ≤ 1 →
      ∃ t, exec (.fabPortConfig m) s = .next t ∧ Answered t m c .success []
        ∧ (portOf t n).enabled = (field c.payload 1 1 == 1)
        ∧ (portOf t n).link = ((portOf s n).link && field c.payload 1 1 == 1)
        ∧ t.evr = (if (portOf s n).link = true ∧ field c.payload 1 1 = 0
            then (post { code := 0x0601, detail := leBytes 1 n ++ leBytes 1 0 ++ leBytes 1 0 } s).evr else s.evr)
        ∧ ∀ k, k ≠ n → portOf t k = portOf s k)
    ∧ (gradePorts s.grade ≤ n →
      ∃ t, exec (.fabPortConfig m) s = .next t ∧ Answered t m c .badField [] ∧ t.fab = s.fab))
  ∧ (∀ (s : State) (m p job : Nat) (c : Cmd), Due s m 0x0602 c → targetOf m c = p → p < 64 →
    job = field c.payload 0 4 % 16777216 →
    (tabHas s.quarantine job = true →
      ∃ t, exec (.fabJobTake m) s = .next t ∧ Answered t m c .jobRetired [] ∧ t.parts = s.parts)
    ∧ (tabHas s.quarantine job = false → job ∈ (partOf s p).jobs →
      ∃ t, exec (.fabJobTake m) s = .next t ∧ Answered t m c .success [] ∧ t.parts = s.parts)
    ∧ (tabHas s.quarantine job = false → job ∉ (partOf s p).jobs → jobOnDevice s job = true →
      ∃ t, exec (.fabJobTake m) s = .next t ∧ Answered t m c .notPermitted [] ∧ t.parts = s.parts)
    ∧ (tabHas s.quarantine job = false → job ∉ (partOf s p).jobs → jobOnDevice s job = false →
        (partOf s p).jobIds ≤ (partOf s p).jobs.length →
      ∃ t, exec (.fabJobTake m) s = .next t ∧ Answered t m c .quota [] ∧ t.parts = s.parts)
    ∧ (tabHas s.quarantine job = false → job ∉ (partOf s p).jobs → jobOnDevice s job = false →
        (partOf s p).jobs.length < (partOf s p).jobIds →
      ∃ t, exec (.fabJobTake m) s = .next t ∧ Answered t m c .success []
        ∧ partOf t p = { partOf s p with jobs := (partOf s p).jobs ++ [job] } ∧ ∀ q, q ≠ p → partOf t q = partOf s q))
  ∧ (∀ (s : State) (m p job : Nat) (c : Cmd), Due s m 0x0603 c → targetOf m c = p → p < 64 →
    job = field c.payload 0 4 % 16777216 →
    (job ∈ (partOf s p).jobs →
      ∃ t, exec (.fabJobRelease m) s = .next t ∧ Answered t m c .success [] ∧ job ∉ (partOf t p).jobs
        ∧ jobOnDevice t job = false ∧ tabFind? t.quarantine job = some s.tmb.free
        ∧ (∀ w ∈ t.fab.windows, w.2.job ≠ job) ∧ (∀ w ∈ s.fab.windows, w.2.job ≠ job → w ∈ t.fab.windows)
        ∧ t.fab.entries = s.fab.entries ∧ t.fab.sources = s.fab.sources)
    ∧ (job ∉ (partOf s p).jobs →
      ∃ t, exec (.fabJobRelease m) s = .next t ∧ Answered t m c .badField [] ∧ t.parts = s.parts ∧ t.fab = s.fab))
  ∧ (∀ (s : State) (m p : Nat) (c : Cmd) (w : FabWindow), Due s m 0x0604 c → targetOf m c = p → p < 64 →
    w = windowOf { m := m, target := targetOf m c, cmd := c } →
    ((w.length = 0 ∨ (w.rd = false ∧ w.wr = false ∧ w.atom = false)) →
      ∃ t, exec (.fabWindowSet m) s = .next t ∧ Answered t m c .zeroNotAllowed [] ∧ t.fab = s.fab)
    ∧ (w.length ≠ 0 → (w.rd = true ∨ w.wr = true ∨ w.atom = true) →
      ((w.job ∉ (partOf s p).jobs ∨ (ctxOf s w.ctx).state = .absent ∨ (ctxOf s w.ctx).part ≠ p) →
        ∃ t, exec (.fabWindowSet m) s = .next t ∧ Answered t m c .notPermitted [] ∧ t.fab = s.fab)
      ∧ (w.job ∈ (partOf s p).jobs → w.ctx ≤ 255 → (ctxOf s w.ctx).state ≠ .absent → (ctxOf s w.ctx).part = p →
        (windowFieldsOk s w = false →
          ∃ t, exec (.fabWindowSet m) s = .next t ∧ Answered t m c .badField [] ∧ t.fab = s.fab)
        ∧ (windowFieldsOk s w = true → 16 ≤ (s.fab.windows.filter (fun v => v.2.job = w.job)).length →
          ∃ t, exec (.fabWindowSet m) s = .next t ∧ Answered t m c .noResource [] ∧ t.fab = s.fab)
        ∧ (windowFieldsOk s w = true → (s.fab.windows.filter (fun v => v.2.job = w.job)).length < 16 →
            (∃ n < 4096, tabHas s.fab.windows n = false) →
          ∃ t n, exec (.fabWindowSet m) s = .next t ∧ Answered t m c .success (leBytes 2 n) ∧ n < 4096
            ∧ tabHas s.fab.windows n = false ∧ t.fab.windows = tabPut s.fab.windows n w ∧ t.mem = s.mem))))
  ∧ (∀ (s : State) (m p n : Nat) (c : Cmd), Due s m 0x0605 c → targetOf m c = p → p < 64 → n = field c.payload 0 2 →
    (∀ w, tabFind? s.fab.windows n = some w → w.part = p →
      ∃ t, exec (.fabWindowClear m) s = .next t ∧ Answered t m c .success [] ∧ t.fab.windows = tabDel s.fab.windows n)
    ∧ ((∀ w, tabFind? s.fab.windows n = some w → w.part ≠ p) →
      ∃ t, exec (.fabWindowClear m) s = .next t ∧ Answered t m c .badField [] ∧ t.fab = s.fab))
  ∧ (∀ (s : State) (m n : Nat) (c : Cmd), Due s m 0x0606 c → n = field c.payload 0 1 → n < gradePorts s.grade →
    field c.payload 1 1 ≤ 1 →
    ∃ t, exec (.fabStatus m) s = .next t ∧ Answered t m c .success (fabRecord s n)
      ∧ t.fab.ctr = (if field c.payload 1 1 = 1 then {} else s.fab.ctr)
      ∧ portOf t n = (if field c.payload 1 1 = 1 then { link := (portOf s n).link, enabled := (portOf s n).enabled }
          else portOf s n))
  ∧ (∀ (s : State) (n : Nat) (up : Bool), n < gradePorts s.grade →
    ((portOf s n).link ≠ up → (up = true → (portOf s n).enabled = true) →
      ∃ t, exec (.fabPort n up) s = .next t ∧ (portOf t n).link = up ∧ (∀ k, k ≠ n → portOf t k = portOf s k)
        ∧ (up = true → t.evr = (post { code := 0x0601, detail := leBytes 1 n ++ leBytes 1 1 ++ leBytes 1 2 } s).evr)
        ∧ (up = false → t.evr
            = (healthAdd 20 (post { code := 0x0601, detail := leBytes 1 n ++ leBytes 1 0 ++ leBytes 1 1 } s)).evr)
        ∧ t.hlt.penalty = (if up then s.hlt.penalty else min 65535 (s.hlt.penalty + 20)))
    ∧ ((portOf s n).link = up → exec (.fabPort n up) s = .next s))

/-- The issue of fabric descriptors and the choice of a port (R397, R400 to R405, R410, R415, R418). A descriptor that fails a
check at issue sends nothing and has the status written out; one that passes sends one request with the next tag and its
record, by job, source and operation. The port by fixed route is the one at position (dst + job) mod u of the usable ports,
by adaptive routing one of them; usable ports are enabled, up and of the region while one of it is. -/
def Obligations.FabricIssue : Prop :=
  Claims.RequestIssue ∧ Claims.PortChoice

/-- The receiver: refusals leave no trace, applied requests act once, duplicates are answered from the ledger (R401, R408, R409,
R412 to R414). For each operation, one clause each: the rows of R409 that refuse, in order, leave memory, sources and
entries (but what ack_floor releases) and answer or drop as the row says. An applied request on context memory reads, or
writes exactly its bytes, or replaces words by the operation's value, changes no other byte, is answered once and marks its
tag applied, with a ledger entry where it accumulates. A duplicate is answered from the ledger and changes nothing; source
records and ledger entries expire after 16 ms, not before. -/
def Obligations.FabricReceive : Prop :=
  Claims.ReceiverChecks ∧ Claims.AppliedRequests ∧ Claims.DuplicatesAndLedger

/-- The requester's tags and fences (R410, R411, R416, R417, R420). A reply resolves an ISSUED tag with its status and result
and lands a read's data; BUSY, a tag not issued, a foreign reply change no tag and no memory; a combined reply resolves the
tag it names (matched by tag: the model's reading, log entry 167). A reply timeout resends under the same tag and first
stamp up to the eighth attempt, then abandons with FABRIC_TIMEOUT; an abandoned tag resolves after its lifetime; a waiting
descriptor issues once its tag may. A fence covers the writing tags of its context and scope, waits for them, and ends with
the first status that is not SUCCESS. -/
def Obligations.FabricTags : Prop :=
  Claims.TagStates ∧ Claims.Fences

/-- The host's commands on synchronisation objects (R427 to R430, R434, R441 to R444). SYNC_CREATE makes the object as given
under the number given or the lowest free one, or answers ZERO_NOT_ALLOWED, BAD_FIELD, NO_RESOURCE or QUOTA; SYNC_DESTROY
frees it, BUSY with waiters or holders unless forced; SYNC_RESET returns it to its creation, or BUSY. SYNC_OP does what its
operation says on an object without waiters, OWNER_LOST on an orphan, BAD_FIELD on a wrong type. SYNC_QUERY gives record and
waiters, SYNC_DUMP writes the dump and no other byte, NOT_PERMITTED where a VF asks for content. -/
def Obligations.SyncCommands : Prop :=
  Claims.SyncObjects ∧ Claims.HostOperations ∧ Claims.SyncReports

/-- R442, R443, R447: the determinism mode and the timing-choice counter. -/
def Obligations.Determinism : Prop :=
  (∀ (s : State) (m p : Nat) (c : Cmd), Due s m 0x0780 c → targetOf m c = p → p < 64 → field c.payload 0 1 ≤ 1 →
    (partContexts s p = 0 →
      ∃ t, exec (.detMode m) s = .next t ∧ Answered t m c .success []
        ∧ partOf t p = { partOf s p with ledger := field c.payload 0 1 == 1 } ∧ ∀ k, k ≠ p → partOf t k = partOf s k)
    ∧ (partContexts s p ≠ 0 →
      ∃ t, exec (.detMode m) s = .next t ∧ Answered t m c .partitionState [] ∧ t.parts = s.parts))
  ∧ (∀ (s : State) (m n : Nat) (c : Cmd), Due s m 0x0781 c → n = field c.payload 0 2 → n < 256 → field c.payload 2 1 ≤ 1 →
    targetOf m c < 64 →
    ((ctxOf s n).state ≠ .absent → (ctxOf s n).part = targetOf m c →
      ∃ t, exec (.detQuery m) s = .next t ∧ Answered t m c .success
          (leBytes 1 (b2n (ledgerMode s (targetOf m c))) ++ leBytes 7 0 ++ leBytes 8 s.syn.sig
            ++ leBytes 8 (ctxOf s n).timing)
        ∧ (ctxOf t n).timing = (if field c.payload 2 1 = 1 then 0 else (ctxOf s n).timing)
        ∧ (ctxOf t n).state = (ctxOf s n).state ∧ t.mem = s.mem)
    ∧ (((ctxOf s n).state = .absent ∨ (ctxOf s n).part ≠ targetOf m c) →
      ∃ t, exec (.detQuery m) s = .next t ∧ Answered t m c .contextState [] ∧ t.srv = s.srv))
  ∧ (∀ (s : State) (c a l : Nat), (ctxOf s c).state ≠ .absent →
    (ledgerMode s (ctxOf s c).part = true → (ctxOf (contend c a l s) c).timing = (ctxOf s c).timing)
    ∧ (ledgerMode s (ctxOf s c).part = false →
      (∀ l', tabFind? s.syn.contention (a / 64) = some (c, l') →
        (ctxOf (contend c a l s) c).timing
          = (if l' = l then (ctxOf s c).timing else ((ctxOf s c).timing + 1) % 2 ^ 64))
      ∧ (tabFind? s.syn.contention (a / 64) = none → 4096 ≤ s.syn.contention.length →
        (ctxOf (contend c a l s) c).timing = ((ctxOf s c).timing + 1) % 2 ^ 64)
      ∧ (tabFind? s.syn.contention (a / 64) = none → s.syn.contention.length < 4096 →
        (ctxOf (contend c a l s) c).timing = (ctxOf s c).timing)))
  ∧ (∀ (f32 : Bool) (a b c d e : List Nat) (j : Nat),
    shardElem f32 [a, b, c, d, e] j
      = (shardAdd f32 (shardAdd f32 (shardAdd f32 (a.getD j 0) (b.getD j 0)).1
          (shardAdd f32 (c.getD j 0) (d.getD j 0)).1).1 (e.getD j 0)).1)

/-- Sync lists, micro-step operations, grants, orphans, fabric objects (R429 to R435, R437, R438, R441). A SYNC descriptor is
only recorded; the list at the front is applied when its micro-step has ended. Each operation of a micro-step does to its
object and its context's holdings what is written out. Grants leave nothing that could be granted, semaphores and mutexes
only from the head, in order; orphaning releases every waiter with OWNER_LOST and every holding, and touches no other
object. A fabric request on an object acts as its operation and answers as written out. -/
def Obligations.SyncEngine : Prop :=
  Claims.SyncLists ∧ Claims.MicroOperations ∧ Claims.GrantsAndOrphans ∧ Claims.FabricObjects

/-- Fault records, context resets, grid and device resets (R454 to R465, R467, R477, R478). A record takes the place prod names,
is copied to its partition's page, weighs on the penalty; the penalty decays by its rule. A context reset begins and ends as
written out. HLT_RESET of kind 1 begins a grid reset, of kind 2 a device reset that brings ports and links down; phase B
waits for tables and clears units, tiles, engines, lent work and counts, the stores read zero and no context steps; its end
records failed units; its bounds lead to the next larger reset. HLT_WINDOWS sets the windows in range. -/
def Obligations.FaultsAndResets : Prop :=
  Claims.FaultRecords ∧ Claims.ContextResets ∧ Claims.GridResets

/-- Heartbeats, agreement, epochs and the membership commands (R468 to R474, R477, R478). Heartbeats go to every other member at
each period; a device that hears no majority leaves. PREPARE, PROPOSAL, PROMISE and ACCEPTANCE move the promise, the
proposal and the round as the two phases say, a majority decides, the highest proposal returned is taken up. COMMIT of a
later epoch sets members, Twilight set, budget and the device's own membership, and Twilight ends its steps. The four
membership commands set, report, join and name as written out, with their refusals. -/
def Obligations.Membership : Prop :=
  Claims.Heartbeats ∧ Claims.Agreement ∧ Claims.EpochAdoption ∧ Claims.MembershipCommands

/-- R475, R476: a bound context's step is decided by its ledger word. -/
def Obligations.StepLedger : Prop :=
  (∀ (s : State) (m n job : Nat) (c : Cmd), Due s m 0x0820 c → n = field c.payload 0 2 → job = field c.payload 4 4 →
    ((field c.payload 16 8 % 8 ≠ 0 ∨ (job ≠ 0 ∧ job ∉ (partOf s (targetOf m c)).jobs)) →
      ∃ t, exec (.stepLedgerBind m) s = .next t ∧ Answered t m c .badField [] ∧ t.srv = s.srv)
    ∧ (field c.payload 16 8 % 8 = 0 → (job = 0 ∨ job ∈ (partOf s (targetOf m c)).jobs) → n < 256 →
        (ctxOf s n).state ≠ .absent → (ctxOf s n).part = targetOf m c →
      ((ctxOf s n).step ≠ none →
        ∃ t, exec (.stepLedgerBind m) s = .next t ∧ Answered t m c .contextState [] ∧ t.srv = s.srv)
      ∧ ((ctxOf s n).step = none →
        ∃ t, exec (.stepLedgerBind m) s = .next t ∧ Answered t m c .success []
          ∧ (job = 0 → (ctxOf t n).bindLedger = none)
          ∧ (job ≠ 0 → ∃ b, (ctxOf t n).bindLedger = some b ∧ b.job = job ∧ b.device = field c.payload 8 2
              ∧ b.addr = field c.payload 16 8 ∧ b.slowAfter = field c.payload 24 4))))
  ∧ (∀ (s : State) (c old k : Nat) (r : StepRun) (x : TagRec), c < 256 → old < 2 ^ 64 → (ctxOf s c).step = some r →
    r.cas = true → casTag s c = some x → x.state ≠ .issued → x.result = old → k = (ctxOf s c).rng.step →
    (x.status = .success → old = k →
      ∃ t, exec (.ledgerCasResult c 0 old) s = .next t ∧ (ctxOf t c).step = none
        ∧ (ctxOf t c).rng.step = (k + 1) % 2 ^ 64 ∧ (ctxOf t c).commits = ctrInc (ctxOf s c).commits)
    ∧ (x.status = .success → k < old →
      ∃ t, exec (.ledgerCasResult c 0 old) s = .next t ∧ (ctxOf t c).step = none ∧ (ctxOf t c).rng.step = old
        ∧ (ctxOf t c).commits = (ctxOf s c).commits)
    ∧ (x.status = .success → old < k →
      ∃ t, exec (.ledgerCasResult c 0 old) s = .next t ∧ (ctxOf t c).step = none ∧ (ctxOf t c).rng.step = k
        ∧ (ctxOf t c).commits = (ctxOf s c).commits)
    ∧ (x.status ≠ .success →
      ∃ t, exec (.ledgerCasResult c (statusCode x.status) old) s = .next t ∧ (ctxOf t c).step = none
        ∧ (ctxOf t c).rng.step = k ∧ (ctxOf t c).commits = (ctxOf s c).commits))
  ∧ (∀ (s : State) (c : Nat) (r : StepRun) (b : LedgerBind), c < 256 → (ctxOf s c).step = some r →
    (ctxOf s c).bindLedger = some b →
    (r.slow = false → b.slowAfter ≠ 0 → r.start + b.slowAfter ≤ s.tmb.free →
      ∃ t, exec (.stepSlow c) s = .next t ∧ (ctxOf t c).step = some { r with slow := true } ∧ t.mem = s.mem)
    ∧ ((r.slow = true ∨ b.slowAfter = 0 ∨ s.tmb.free < r.start + b.slowAfter) → exec (.stepSlow c) s = .next s))

/-- The control period, undervoltage and the trips (R481, R484 to R486, R489, R490, R518). At a control period the clock steps
one down or prepares one up toward the least request, the cap loop moves the cap request or the duty by its three cases, the
thermal request moves by its band, the lend duty falls to 0 at a throttle threshold, the mirror and the energy are taken,
and memory, tables, contexts and faults stay. PWR_CAP sets the next cap in range, else BAD_FIELD. Undervoltage is posted,
logged and put out once, ends above 4 100, and 100 µs below 3 600 it is a power fault; a power fault and a sensor at its
trip switch the device off with empty memory. -/
def Obligations.PowerControl : Prop :=
  Claims.ControlPeriod ∧ Claims.InputAndTrips

/-- Background windows and items, and the fused voltages (R217, R484, R492 to R496, R499). The fused voltages lie within 600 and
850 and do not fall as the clock rises (their values are open). BG_CONFIG sets window and stride for the next stride,
BAD_FIELD out of range, ZERO_NOT_ALLOWED for 0; a stride starts at its tick. An item starts exactly where it may: an idle
unit in service under a background reservation that its bound fits. Its end frees the unit, never lowers an ageing delta,
changes the power state only for an ageing item, marks the words found bad, and leaves memory, tables and contexts. -/
def Obligations.BackgroundWork : Prop :=
  Claims.FusedVoltages ∧ Claims.BackgroundWork

/-- Dawn from its triggers to service, and each cause it stops with (R50, R502 to R505, R508, R510, R513, R529, R530). Dawn with
every step passing brings the device to service with the settings of blob and image header, measurements and empty state;
each failure stops it in the mode and with the cause of its step, memory empty and dawn_done clear; where it may not run it
does nothing. Asserting the reset input in service leads off; a halted device only notes it; its end releases the hold or,
with the test port on the pins, is held. DEVICE_RESET is refused during an update; loss of VSTBY keeps flash, owner, keys
and version; the return of the reference resumes a waiting Dawn. The order among causes is the model's (log entry). -/
def Obligations.Dawn : Prop :=
  Claims.DawnSequence ∧ Claims.DawnTriggers

/-- Management commands, image update, SPDM and the board test port (R504 to R507, R510, R514 to R517, R519 to R521, R536). Each
vendor and PLDM command answers as written out and changes nothing but the management state. An image update takes its
header whole, checks it, erases, writes its parts, checks the signature, and ends without a part for 120 s. The SPDM
responder answers by its order of requests; its one signing engine makes others wait. The test port's instructions load,
give identity and levels, and the hold of CXL_PERST# ends on BYPASS or TRST#; EXTEST, CLAMP and HIGHZ are BYPASS in a
running device. Codes of these standards are the model's (log entry 26). -/
def Obligations.Management : Prop :=
  Claims.ManagementCommands ∧ Claims.ImageUpdate ∧ Claims.SpdmResponder ∧ Claims.BoardTestPort
end

