-- ==== Sys2Proof/Laws/Store.lean ====
section
/-!
SUPPORT. Sparse tables and byte stores: what a read gives after a change, and that every change keeps the canonical form.
-/
namespace Sys2Proof.Machine

/-! ### Tables -/

@[simp] theorem tabFind?_nil {α : Type} (k : Nat) : tabFind? ([] : Tab α) k = none := rfl

theorem tabFind?_put {α : Type} (t : Tab α) (k j : Nat) (v : α) :
    tabFind? (tabPut t k v) j = if j = k then some v else tabFind? t j := by
  induction t with
  | nil =>
    by_cases h : j = k
    · simp [tabPut, tabFind?, h]
    · simp [tabPut, tabFind?, h, Ne.symm h]
  | cons x r ih =>
    obtain ⟨i, w⟩ := x
    by_cases h1 : k < i
    · by_cases h : j = k
      · simp [tabPut, tabFind?, h1, h]
      · simp [tabPut, tabFind?, h1, h, Ne.symm h]
    · by_cases h2 : i = k
      · subst h2
        by_cases h : j = i
        · simp [tabPut, tabFind?, h]
        · simp [tabPut, tabFind?, h, Ne.symm h]
      · by_cases h3 : i = j
        · subst h3
          simp [tabPut, tabFind?, h1, h2]
        · simp [tabPut, tabFind?, h1, h2, h3, ih]

@[simp] theorem tabFind?_put_same {α : Type} (t : Tab α) (k : Nat) (v : α) : tabFind? (tabPut t k v) k = some v := by
  simp [tabFind?_put]

theorem tabFind?_put_other {α : Type} (t : Tab α) {k j : Nat} (v : α) (h : j ≠ k) :
    tabFind? (tabPut t k v) j = tabFind? t j := by simp [tabFind?_put, h]

theorem tabFind?_del {α : Type} (t : Tab α) (k j : Nat) :
    tabFind? (tabDel t k) j = if j = k then none else tabFind? t j := by
  unfold tabDel
  induction t with
  | nil => simp
  | cons x r ih =>
    obtain ⟨i, w⟩ := x
    by_cases h2 : i = k
    · subst h2
      by_cases h : j = i
      · simpa [tabFind?, h] using ih
      · simpa [tabFind?, h, Ne.symm h] using ih
    · by_cases h3 : i = j
      · subst h3
        simp [tabFind?, h2]
      · simpa [tabFind?, h2, h3] using ih

theorem tabFind?_mod {α : Type} (t : Tab α) (k j : Nat) (f : α → α) :
    tabFind? (tabMod t k f) j = if j = k then (tabFind? t k).map f else tabFind? t j := by
  unfold tabMod
  induction t with
  | nil => simp
  | cons x r ih =>
    obtain ⟨i, w⟩ := x
    by_cases h2 : i = k
    · subst h2
      by_cases h : j = i
      · simp [tabFind?, h]
      · simpa [tabFind?, h, Ne.symm h] using ih
    · by_cases h3 : i = j
      · subst h3
        simp [tabFind?, h2]
      · simpa [tabFind?, h2, h3] using ih

theorem tabGet_put {α : Type} (t : Tab α) (k j : Nat) (v d : α) :
    tabGet (tabPut t k v) j d = if j = k then v else tabGet t j d := by
  unfold tabGet
  rw [tabFind?_put]
  split <;> rfl

@[simp] theorem tabGet_put_same {α : Type} (t : Tab α) (k : Nat) (v d : α) : tabGet (tabPut t k v) k d = v := by
  simp [tabGet_put]

theorem tabGet_upd {α : Type} (t : Tab α) (k j : Nat) (d : α) (f : α → α) :
    tabGet (tabUpd t k d f) j d = if j = k then f (tabGet t k d) else tabGet t j d := tabGet_put t k j _ d

/-- Reading an entry after one was changed where it stands. -/
theorem tabGet_mod {α : Type} (t : Tab α) (k j : Nat) (d : α) (f : α → α) :
    tabGet (tabMod t k f) j d = if j = k then ((tabFind? t k).map f).getD d else tabGet t j d := by
  unfold tabGet
  rw [tabFind?_mod]
  split <;> rfl

theorem tabWf_del {α : Type} (t : Tab α) (k : Nat) (h : tabWf t) : tabWf (tabDel t k) := h.filter _

theorem tabWf_map {α : Type} (t : Tab α) (f : Nat × α → Nat × α) (hf : ∀ p, (f p).1 = p.1) (h : tabWf t) :
    tabWf (t.map f) :=
  List.pairwise_map.2 (h.imp (fun {x y} hxy => by rw [hf, hf]; exact hxy))

theorem tabWf_mod {α : Type} (t : Tab α) (k : Nat) (f : α → α) (h : tabWf t) : tabWf (tabMod t k f) :=
  tabWf_map t _ (fun p => by split <;> rfl) h

/-- What stands in a table after an entry is set: that entry, or one that stood there. -/
theorem tabPut_mem {α : Type} {t : Tab α} {k : Nat} {v : α} {c : Nat × α} (h : c ∈ tabPut t k v) : c = (k, v) ∨ c ∈ t := by
  induction t with
  | nil => simpa [tabPut] using h
  | cons x r ih =>
    unfold tabPut at h
    split at h
    · simpa using h
    · split at h
      · rcases List.mem_cons.1 h with h | h
        · exact .inl h
        · exact .inr (List.mem_cons_of_mem _ h)
      · rcases List.mem_cons.1 h with h | h
        · exact .inr (by simp [h])
        · rcases ih h with h | h
          · exact .inl h
          · exact .inr (List.mem_cons_of_mem _ h)

theorem tabWf_put {α : Type} (t : Tab α) (k : Nat) (v : α) (h : tabWf t) : tabWf (tabPut t k v) := by
  induction t with
  | nil => simp [tabPut]
  | cons x r ih =>
    rw [tabWf, List.pairwise_cons] at h
    unfold tabPut
    split
    · rename_i hlt
      refine List.pairwise_cons.2 ⟨fun y hy => ?_, List.pairwise_cons.2 h⟩
      rcases List.mem_cons.1 hy with rfl | hy
      · exact hlt
      · exact Nat.lt_trans hlt (h.1 y hy)
    · split
      · rename_i he
        exact List.pairwise_cons.2 ⟨fun y hy => he ▸ h.1 y hy, h.2⟩
      · refine List.pairwise_cons.2 ⟨fun y hy => ?_, ih h.2⟩
        rcases tabPut_mem hy with rfl | hy
        · show x.1 < k; omega
        · exact h.1 y hy

/-! ### Byte stores: reads after a change -/

@[simp] theorem memRead_nil (x : Nat) : memRead {} x = 0 := rfl

/-- The byte a list of cells gives for an address, `d` where it lists none. -/
def cellGet (l : List Host.Cell) (d : Byte) (x : Nat) : Byte := (l.find? (fun c => c.1 == x)).elim d (fun c => c.2)

theorem memRead_eq (m : Memory) (x : Nat) : memRead m x = cellGet m.cells (bareByte m.holes x) x := rfl

theorem cellGet_cons (c : Nat × Byte) (r : List Host.Cell) (d : Byte) (x : Nat) :
    cellGet (c :: r) d x = if c.1 = x then c.2 else cellGet r d x := by
  unfold cellGet
  by_cases h : c.1 = x <;> simp [h]

theorem cellGet_insert (m : List Host.Cell) (a x : Nat) (b d : Byte) :
    cellGet (cellInsert m a b) d x = if x = a then b else cellGet m d x := by
  induction m with
  | nil => simp [cellInsert, cellGet_cons, eq_comm]
  | cons c r ih =>
    obtain ⟨i, w⟩ := c
    unfold cellInsert
    split
    · rw [cellGet_cons]
      by_cases h : x = a
      · simp [h]
      · simp [h, Ne.symm h]
    · split
      · rename_i he
        subst he
        by_cases h : x = i
        · simp [cellGet_cons, h]
        · simp [cellGet_cons, h, Ne.symm h]
      · rename_i hn
        by_cases h : i = x
        · subst h
          simp [cellGet_cons, hn]
        · simp [cellGet_cons, h, ih]

theorem cellGet_filter (m : List Host.Cell) (p : Nat → Bool) (d : Byte) (x : Nat) :
    cellGet (m.filter (fun c => p c.1)) d x = if p x then cellGet m d x else d := by
  induction m with
  | nil => simp [cellGet]
  | cons c r ih =>
    by_cases hp : p c.1
    · rw [List.filter_cons_of_pos (by simpa using hp), cellGet_cons, ih, cellGet_cons]
      by_cases h : c.1 = x
      · subst h; simp [hp]
      · simp [h]
    · rw [List.filter_cons_of_neg (by simpa using hp), ih, cellGet_cons]
      by_cases h : c.1 = x
      · subst h; simp [hp]
      · simp [h]

/-- A byte read after a write is the byte written at its address, and as before elsewhere. -/
theorem memRead_write (m : Memory) (a x : Nat) (b : Byte) :
    memRead (memWrite m a b) x = if x = a then b else memRead m x := by
  unfold memWrite
  split
  · rename_i hb
    obtain ⟨rfl, hh⟩ : b = 0 ∧ holeAt m.holes a = none := by simpa using hb
    have := cellGet_filter m.cells (fun y => y != a) (bareByte m.holes x) x
    rw [memRead_eq, memRead_eq, this]
    by_cases h : x = a
    · subst h; simp [bareByte, hh]
    · simp [h]
  · exact cellGet_insert m.cells a x b _

/-- What an undefined range says of an address in it. -/
def holeVal (x : Nat) (h : Hole) : Nat × Nat := (h.seed, h.ofs + (x - h.base))

theorem bareByte_eq (l : List Hole) (x : Nat) :
    bareByte l x = ((holeAt l x).map (holeVal x)).elim 0 (fun p => Config.freeByte p.1 p.2) := by
  unfold bareByte
  cases holeAt l x <;> rfl

theorem holeAt_cons (h : Hole) (r : List Hole) (x : Nat) :
    holeAt (h :: r) x = if h.base ≤ x ∧ x < h.base + h.len then some h else holeAt r x := by
  unfold holeAt
  rw [List.find?_cons]
  by_cases h1 : h.base ≤ x
  · by_cases h2 : x < h.base + h.len <;> simp [h1, h2]
  · simp [h1]

/-- Undefined ranges cut out of [a, a + n) say nothing there and the same elsewhere. -/
theorem holeAt_cut (a n : Nat) (l : List Hole) (x : Nat) :
    (holeAt (l.flatMap (holeCut a n)) x).map (holeVal x)
      = if a ≤ x ∧ x < a + n then none else (holeAt l x).map (holeVal x) := by
  induction l with
  | nil => simp [holeAt]
  | cons h r ih =>
    rw [List.flatMap_cons, holeAt_cons]
    generalize List.flatMap (holeCut a n) r = q at ih ⊢
    unfold holeCut
    by_cases hx : a ≤ x ∧ x < a + n
    · rw [if_pos hx] at ih ⊢
      have e1 : ¬ (h.base ≤ x ∧ x < h.base + min h.len (a - h.base)) := by omega
      have e2 : ¬ (max h.base (a + n) ≤ x
        ∧ x < max h.base (a + n) + (h.base + h.len - max h.base (a + n))) := by omega
      by_cases c1 : h.base < a <;> by_cases c2 : a + n < h.base + h.len <;> simp only [c1, c2, if_true, if_false,
        List.nil_append, List.cons_append, List.append_nil, holeAt_cons, if_neg e1, if_neg e2, ih]
    · rw [if_neg hx] at ih ⊢
      by_cases hin : h.base ≤ x ∧ x < h.base + h.len
      · rw [if_pos hin]
        by_cases hlow : x < a
        · have c1 : h.base < a := by omega
          have e1 : h.base ≤ x ∧ x < h.base + min h.len (a - h.base) := by omega
          rw [if_pos c1, List.cons_append, List.cons_append, holeAt_cons, if_pos e1]
          rfl
        · have e1 : ¬ (h.base ≤ x ∧ x < h.base + min h.len (a - h.base)) := by omega
          have c2 : a + n < h.base + h.len := by omega
          have e2 : max h.base (a + n) ≤ x
            ∧ x < max h.base (a + n) + (h.base + h.len - max h.base (a + n)) := by omega
          have e3 : h.ofs + (max h.base (a + n) - h.base) + (x - max h.base (a + n)) = h.ofs + (x - h.base) := by omega
          by_cases c1 : h.base < a <;> simp only [c1, c2, if_true, if_false, List.nil_append, List.cons_append,
            holeAt_cons, if_neg e1, if_pos e2, Option.map_some, holeVal, e3]
      · rw [if_neg hin]
        have e1 : ¬ (h.base ≤ x ∧ x < h.base + min h.len (a - h.base)) := by omega
        have e2 : ¬ (max h.base (a + n) ≤ x
          ∧ x < max h.base (a + n) + (h.base + h.len - max h.base (a + n))) := by omega
        by_cases c1 : h.base < a <;> by_cases c2 : a + n < h.base + h.len <;> simp only [c1, c2, if_true, if_false,
          List.nil_append, List.cons_append, List.append_nil, holeAt_cons, if_neg e1, if_neg e2, ih]

theorem bareByte_cut (a n : Nat) (l : List Hole) (x : Nat) :
    bareByte (l.flatMap (holeCut a n)) x = if a ≤ x ∧ x < a + n then 0 else bareByte l x := by
  rw [bareByte_eq, holeAt_cut, bareByte_eq]
  split <;> rfl

theorem memRead_zero (m : Memory) (a n x : Nat) :
    memRead (memZero m a n) x = if a ≤ x ∧ x < a + n then 0 else memRead m x := by
  have := cellGet_filter m.cells (fun y => decide (y < a) || decide (a + n ≤ y))
    (bareByte (m.holes.flatMap (holeCut a n)) x) x
  rw [memRead_eq, memRead_eq, memZero, this, bareByte_cut]
  by_cases h1 : x < a
  · have h2 : ¬ (a ≤ x ∧ x < a + n) := by omega
    simp [h1, h2]
  · by_cases h3 : a + n ≤ x
    · have h2 : ¬ (a ≤ x ∧ x < a + n) := by omega
      simp [h3, h2]
    · have h2 : a ≤ x ∧ x < a + n := by omega
      simp [h1, h3, h2]

/-- A range left undefined reads as its free value, and every other byte as before. -/
theorem memRead_forget (m : Memory) (a n seed x : Nat) :
    memRead (memForget m a n seed) x = if a ≤ x ∧ x < a + n then Config.freeByte seed (x - a) else memRead m x := by
  have h := memRead_zero m a n x
  rw [memRead_eq] at h
  rw [memRead_eq, memForget]
  by_cases hx : a ≤ x ∧ x < a + n
  · have e := cellGet_filter m.cells (fun y => decide (y < a) || decide (a + n ≤ y)) (Config.freeByte seed (x - a)) x
    have hb : bareByte ({ base := a, len := n, seed := seed, ofs := 0 } :: (memZero m a n).holes) x
        = Config.freeByte seed (x - a) := by
      rw [bareByte_eq, holeAt_cons, if_pos hx]
      simp [holeVal]
    have h1 : ¬ x < a := by omega
    have h2 : ¬ a + n ≤ x := by omega
    simp only [hb, if_pos hx]
    simpa [memZero, h1, h2] using e
  · rw [if_neg hx] at h ⊢
    rw [← h, bareByte_eq, holeAt_cons, if_neg (by simpa using hx), ← bareByte_eq]

/-- After a write of bytes each of them reads as written, and every other byte as before. -/
theorem memRead_writeBytes (m : Memory) (a x : Nat) (l : List Byte) :
    memRead (memWriteBytes m a l) x = if a ≤ x ∧ x < a + l.length then l.getD (x - a) 0 else memRead m x := by
  induction l generalizing m a with
  | nil =>
    have h2 : ¬ (a ≤ x ∧ x < a + 0) := by omega
    exact (if_neg h2).symm
  | cons b r ih =>
    rw [memWriteBytes, ih, memRead_write, List.length_cons]
    by_cases h1 : x = a
    · subst h1
      have h2 : ¬ (x + 1 ≤ x ∧ x < x + 1 + r.length) := by omega
      have h3 : x ≤ x ∧ x < x + (r.length + 1) := by omega
      rw [if_neg h2, if_pos rfl, if_pos h3]
      simp
    · by_cases h2 : a + 1 ≤ x ∧ x < a + 1 + r.length
      · have h3 : a ≤ x ∧ x < a + (r.length + 1) := by omega
        have h4 : x - a = (x - (a + 1)) + 1 := by omega
        rw [if_pos h2, if_pos h3, h4, List.getD_cons_succ]
      · have h3 : ¬ (a ≤ x ∧ x < a + (r.length + 1)) := by omega
        rw [if_neg h2, if_neg h1, if_neg h3]

theorem memRead_writeBytes_other (m : Memory) {a x : Nat} (l : List Byte) (h : x < a ∨ a + l.length ≤ x) :
    memRead (memWriteBytes m a l) x = memRead m x := by
  rw [memRead_writeBytes, if_neg (by omega)]

@[simp] theorem memReadBytes_length (m : Memory) (a n : Nat) : (memReadBytes m a n).length = n := by simp [memReadBytes]

/-- What was written is read. -/
theorem memReadBytes_writeBytes (m : Memory) (a : Nat) (l : List Byte) :
    memReadBytes (memWriteBytes m a l) a l.length = l := by
  apply List.ext_getElem (by simp)
  intro i h1 h2
  have h3 : a ≤ a + i ∧ a + i < a + l.length := by
    have : i < l.length := h2
    omega
  simp [memReadBytes, memRead_writeBytes, h2]

/-! ### Byte stores: the canonical form -/

theorem memWf_nil : memWf {} := ⟨List.Pairwise.nil, fun _ h => nomatch h⟩

theorem cellInsert_mem {m : List Host.Cell} {a : Nat} {b : Byte} {c : Nat × Byte} (h : c ∈ cellInsert m a b) :
    c = (a, b) ∨ c ∈ m := by
  induction m with
  | nil => simpa [cellInsert] using h
  | cons x r ih =>
    unfold cellInsert at h
    split at h
    · simpa using h
    · split at h
      · rcases List.mem_cons.1 h with h | h
        · exact .inl h
        · exact .inr (List.mem_cons_of_mem _ h)
      · rcases List.mem_cons.1 h with h | h
        · exact .inr (by simp [h])
        · rcases ih h with h | h
          · exact .inl h
          · exact .inr (List.mem_cons_of_mem _ h)

theorem cellInsert_sorted {m : List Host.Cell} (a : Nat) (b : Byte) (h1 : m.Pairwise (fun x y => x.1 < y.1)) :
    (cellInsert m a b).Pairwise (fun x y => x.1 < y.1) := by
  induction m with
  | nil => simp [cellInsert]
  | cons x r ih =>
    rw [List.pairwise_cons] at h1
    unfold cellInsert
    split
    · rename_i hlt
      refine List.pairwise_cons.2 ⟨fun y hy => ?_, List.pairwise_cons.2 h1⟩
      rcases List.mem_cons.1 hy with rfl | hy
      · exact hlt
      · exact Nat.lt_trans hlt (h1.1 y hy)
    · split
      · rename_i he
        exact List.pairwise_cons.2 ⟨fun y hy => he ▸ h1.1 y hy, h1.2⟩
      · refine List.pairwise_cons.2 ⟨fun y hy => ?_, ih h1.2⟩
        rcases cellInsert_mem hy with rfl | hy
        · show x.1 < a; omega
        · exact h1.1 y hy

/-- A write keeps the canonical form. -/
theorem memWf_write (m : Memory) (a : Nat) (b : Byte) (h : memWf m) : memWf (memWrite m a b) := by
  unfold memWrite
  split
  · exact ⟨h.1.filter _, fun c hc => h.2 c (List.mem_filter.1 hc).1⟩
  · rename_i hb
    refine ⟨cellInsert_sorted a b h.1, fun c hc => ?_⟩
    rcases cellInsert_mem hc with rfl | hc
    · by_cases h0 : b = 0
      · right
        cases e : holeAt m.holes a with
        | none => simp [h0, e] at hb
        | some v => rfl
      · exact .inl h0
    · exact h.2 c hc

theorem memWf_writeBytes (m : Memory) (a : Nat) (l : List Byte) (h : memWf m) : memWf (memWriteBytes m a l) := by
  induction l generalizing m a with
  | nil => exact h
  | cons b r ih => exact ih _ _ (memWf_write m a b h)

theorem memWf_zero (m : Memory) (a n : Nat) (h : memWf m) : memWf (memZero m a n) := by
  refine ⟨h.1.filter _, fun c hc => ?_⟩
  obtain ⟨hc, hp⟩ := List.mem_filter.1 hc
  rcases h.2 c hc with h0 | h0
  · exact .inl h0
  · have e := holeAt_cut a n m.holes c.1
    rw [if_neg (by simp at hp; omega)] at e
    have := congrArg Option.isSome e
    exact .inr (by simpa [h0, memZero] using this)

theorem memWf_forget (m : Memory) (a n seed : Nat) (h : memWf m) : memWf (memForget m a n seed) := by
  have w := memWf_zero m a n h
  refine ⟨w.1, fun c hc => (w.2 c hc).imp_right (fun hs => ?_)⟩
  show (holeAt (_ :: _) _).isSome = true
  rw [holeAt_cons]
  split
  · rfl
  · exact hs

theorem memWf_foldl {α : Type} (f : Memory → α → Memory) (hf : ∀ m x, memWf m → memWf (f m x)) :
    ∀ (l : List α) (m : Memory), memWf m → memWf (l.foldl f m)
  | [], _, h => h
  | x :: l, m, h => memWf_foldl f hf l (f m x) (hf m x h)

theorem memWf_moveRegion (c d r : Nat) {m : Memory} (h : memWf m) : memWf (moveRegion c d r m) :=
  memWf_foldl _ (fun _ _ w => memWf_write _ _ _ w) _ _ (memWf_zero _ _ _ h)

end Sys2Proof.Machine
end

