-- ==== Sys2Proof/Laws/Access.lean ====
section
/-!
SUPPORT. What reading one entry of a table of the state gives after an entry of that table was changed.
-/

namespace Sys2Proof.Machine

theorem sbKey_inj {u v p q : Nat} (hp : p < 256) (hq : q < 256) : sbKey v q = sbKey u p ↔ v = u ∧ q = p := by
  unfold sbKey
  omega

theorem cellKey_inj {u v p q : Nat} (hp : p < 64) (hq : q < 64) : cellKey v q = cellKey u p ↔ v = u ∧ q = p := by
  unfold cellKey
  omega

theorem tagKey_inj {u v p q : Nat} (hp : p < 4294967296) (hq : q < 4294967296) : tagKey v q = tagKey u p ↔ v = u ∧ q = p := by
  unfold tagKey
  omega

@[simp] theorem mbxOf_setMbx (m n : Nat) (b : Mailbox) (s : State) :
    mbxOf (setMbx m b s) n = if n = m then b else mbxOf s n := tabGet_put ..

@[simp] theorem evRing_setEvRing (m n : Nat) (r : EventRing) (s : State) :
    evRing (setEvRing m r s) n = if n = m then r else evRing s n := tabGet_put ..

@[simp] theorem opOf_setOps_put (s : State) (h k : Nat) (o : LongOp) :
    opOf (s.setOps (tabPut s.ops h o)) k = if k = h then some o else opOf s k := tabFind?_put ..

theorem partOf_updPart (p q : Nat) (f : Partition → Partition) (s : State) :
    partOf (updPart p f s) q = if q = p then f (partOf s p) else partOf s q := tabGet_upd ..

theorem unitRun_updUnit (p q : Nat) (f : UnitRun → UnitRun) (s : State) :
    unitRun (updUnit p f s) q = if q = p then f (unitRun s p) else unitRun s q := tabGet_upd ..

theorem tableOf_updTable (p q : Nat) (f : FrameTable → FrameTable) (s : State) :
    tableOf (updTable p f s) q = if q = p then f (tableOf s p) else tableOf s q := tabGet_upd ..

theorem portOf_updPort (p q : Nat) (f : FabPort → FabPort) (s : State) :
    portOf (updPort p f s) q = if q = p then f (portOf s p) else portOf s q := tabGet_upd ..

theorem macOf_updMac (p q : Nat) (f : FhMac → FhMac) (s : State) :
    macOf (updMac p f s) q = if q = p then f (macOf s p) else macOf s q := tabGet_upd ..

theorem engOf_updEng (p q : Nat) (f : CodeEngine → CodeEngine) (s : State) :
    engOf (updEng p f s) q = if q = p then f (engOf s p) else engOf s q := tabGet_upd ..

theorem tileOf_updTile (p q : Nat) (f : Tile → Tile) (s : State) :
    tileOf (updTile p f s) q = if q = p then f (tileOf s p) else tileOf s q := tabGet_upd ..

theorem sbOf_updSb (u v p q : Nat) (f : SbEntry → SbEntry) (s : State) :
    sbOf (updSb u p f s) v q = if sbKey v q = sbKey u p then f (sbOf s u p) else sbOf s v q := tabGet_upd ..

theorem ctxOf_updCtx (p q : Nat) (f : Context → Context) (s : State) (x : Context) (h : tabFind? s.srv.ctxs p = some x) :
    ctxOf (updCtx p f s) q = if q = p then f x else ctxOf s q := by
  refine (tabGet_mod _ _ _ _ _).trans ?_
  rw [h]
  rfl

theorem ctxOf_updCtx_absent (p q : Nat) (f : Context → Context) (s : State) (h : tabFind? s.srv.ctxs p = none) :
    ctxOf (updCtx p f s) q = ctxOf s q := by
  refine (tabGet_mod _ _ _ _ _).trans ?_
  rw [h]
  split
  · rename_i e
    simp [ctxOf, tabGet, h, e]
  · rfl

theorem objOf_updObj (p q : Nat) (f : SyncObj → SyncObj) (s : State) (x : SyncObj) (h : tabFind? s.syn.objs p = some x) :
    objOf (updObj p f s) q = if q = p then f x else objOf s q := by
  refine (tabGet_mod _ _ _ _ _).trans ?_
  rw [h]
  rfl

theorem objOf_updObj_absent (p q : Nat) (f : SyncObj → SyncObj) (s : State) (h : tabFind? s.syn.objs p = none) :
    objOf (updObj p f s) q = objOf s q := by
  refine (tabGet_mod _ _ _ _ _).trans ?_
  rw [h]
  split
  · rename_i e
    simp [objOf, tabGet, h, e]
  · rfl

theorem cellOf_updCell (u v p q : Nat) (f : Cell → Cell) (s : State) (x : Cell) (h : tabFind? s.cells (cellKey u p) = some x) :
    cellOf (updCell u p f s) v q = if cellKey v q = cellKey u p then f x else cellOf s v q := by
  refine (tabGet_mod _ _ _ _ _).trans ?_
  rw [h]
  rfl

theorem cellOf_updCell_absent (u v p q : Nat) (f : Cell → Cell) (s : State) (h : tabFind? s.cells (cellKey u p) = none) :
    cellOf (updCell u p f s) v q = cellOf s v q := by
  refine (tabGet_mod _ _ _ _ _).trans ?_
  rw [h]
  split
  · rename_i e
    simp [cellOf, tabGet, h, e]
  · rfl

theorem ringOf_updRing (p q : Nat) (f : Ring → Ring) (s : State) :
    ringOf (updRing p f s) q = if q = p then (ringOf s p).map f else ringOf s q := tabFind?_mod ..

theorem chanOf_updChan (p q : Nat) (f : SweepChan → SweepChan) (s : State) :
    chanOf (updChan p f s) q = if q = p then (chanOf s p).map f else chanOf s q := tabFind?_mod ..

theorem tagOf_updTag (u v p q : Nat) (f : TagRec → TagRec) (s : State) :
    tagOf (updTag u p f s) v q = if tagKey v q = tagKey u p then (tagOf s u p).map f else tagOf s v q := tabFind?_mod ..

end Sys2Proof.Machine
end

