-- ==== Sys2Proof/Laws/Keeps.lean ====
section
/-!
SUPPORT. What it is for a state to follow from another by changing marked pieces only, with the canonical forms kept; this of
each named update and of the ways the operations put updates together.
-/

namespace Sys2Proof.Machine

/-- `t` differs from `a` in the pieces marked by `m` at most, and is canonical where `a` is. -/
def Keeps (m : Part) (a t : State) : Prop := t.erase m = a.erase m ∧ (a.Canonical → t.Canonical)

/-- Each next state of the outcome does. -/
def KeepsO (m : Part) (a : State) (o : Host.Outcome State Fault Refusal) : Prop := ∀ t, o = .next t → Keeps m a t

theorem keepsO_refused {m : Part} {a : State} {r : Refusal} : KeepsO m a (.refused r) := fun _ h => nomatch h

theorem keepsO_fault {m : Part} {a : State} {f : Fault} : KeepsO m a (.fault f) := fun _ h => nomatch h

theorem keeps_of_some {m : Part} {a t : State} {o : Option State} (h : ∀ t, o = some t → Keeps m a t) (e : o = some t) :
    Keeps m a t :=
  h t e

theorem keeps_of_ok {ε : Type} {m : Part} {a t : State} {o : Except ε State} (h : ∀ t, o = .ok t → Keeps m a t) (e : o = .ok
    t) :
    Keeps m a t := h t e

theorem Keeps.refl (m : Part) (a : State) : Keeps m a a := ⟨rfl, id⟩

theorem keeps_foldl {α : Type} {m : Part} {a : State} (f : State → α → State) (h : ∀ s x, Keeps m a s → Keeps m a (f s x)) :
    ∀ (l : List α) (s : State), Keeps m a s → Keeps m a (l.foldl f s)
  | [], _, hs => hs
  | x :: l, s, hs => keeps_foldl f h l (f s x) (h s x hs)

theorem keeps_ite {m : Part} {a : State} {c : Prop} [Decidable c] {x y : State} (hx : c → Keeps m a x) (hy : ¬c → Keeps m a y) :
    Keeps m a (if c then x else y) := by split <;> simp_all

theorem keeps_ite_fst {α : Type} {m : Part} {a : State} {c : Prop} [Decidable c] {x y : State × α} (hx : c → Keeps m a x.1)
    (hy : ¬c → Keeps m a y.1) : Keeps m a (if c then x else y).1 := by split <;> simp_all

theorem keeps_ite_snd {α : Type} {m : Part} {a : State} {c : Prop} [Decidable c] {x y : α × State} (hx : c → Keeps m a x.2)
    (hy : ¬c → Keeps m a y.2) : Keeps m a (if c then x else y).2 := by split <;> simp_all

theorem keeps_foldl_snd {α β : Type} {m : Part} {a : State} (f : β × State → α → β × State)
    (h : ∀ s x, Keeps m a s.2 → Keeps m a (f s x).2) : ∀ (l : List α) (s : β × State), Keeps m a s.2 → Keeps m a (l.foldl f s).2
  | [], _, hs => hs
  | x :: l, s, hs => keeps_foldl_snd f h l (f s x) (h s x hs)

theorem State.setGrade_keeps {m : Part} {a : State} (s : State) (v : Grade) (hm : m.grade = true) (h : Keeps m a s) : Keeps m a
    (s.setGrade v) :=
  ⟨by simpa [State.setGrade, State.erase, hm] using h.1, h.2⟩

theorem State.setDev_keeps {m : Part} {a : State} (s : State) (v : Dev) (hm : m.dev = true) (h : Keeps m a s) : Keeps m a
    (s.setDev v) :=
  ⟨by simpa [State.setDev, State.erase, hm] using h.1, h.2⟩

theorem State.setMbx_keeps {m : Part} {a : State} (s : State) (v : Tab Mailbox) (hm : m.mbx = true) (h : Keeps m a s) :
    Keeps m a (s.setMbx v) :=
  ⟨by simpa [State.setMbx, State.erase, hm] using h.1, h.2⟩

theorem State.setOps_keeps {m : Part} {a : State} (s : State) (v : Tab LongOp) (hm : m.ops = true) (h : Keeps m a s) : Keeps m a
    (s.setOps v) :=
  ⟨by simpa [State.setOps, State.erase, hm] using h.1, h.2⟩

theorem State.setEvr_keeps {m : Part} {a : State} (s : State) (v : Tab EventRing) (hm : m.evr = true) (h : Keeps m a s) :
    Keeps m a (s.setEvr v) :=
  ⟨by simpa [State.setEvr, State.erase, hm] using h.1, h.2⟩

theorem State.setRings_keeps {m : Part} {a : State} (s : State) (v : Tab Ring) (hm : m.rings = true) (h : Keeps m a s) :
    Keeps m a (s.setRings v) :=
  ⟨by simpa [State.setRings, State.erase, hm] using h.1, h.2⟩

theorem State.setTel_keeps {m : Part} {a : State} (s : State) (v : Telemetry) (hm : m.tel = true) (h : Keeps m a s) : Keeps m a
    (s.setTel v) :=
  ⟨by simpa [State.setTel, State.erase, hm] using h.1, h.2⟩

theorem State.setMem_keeps {m : Part} {a : State} (s : State) (v : Memory) (hv : memWf s.mem → memWf v) (hm : m.mem = true) (h :
    Keeps m a s) : Keeps m a (s.setMem v) :=
  ⟨by simpa [State.setMem, State.erase, hm] using h.1, fun ha => let c := h.2 ha; ⟨hv c.1, c.2.1, c.2.2⟩⟩

theorem State.setTmb_keeps {m : Part} {a : State} (s : State) (v : Timebase) (hm : m.tmb = true) (h : Keeps m a s) : Keeps m a
    (s.setTmb v) :=
  ⟨by simpa [State.setTmb, State.erase, hm] using h.1, h.2⟩

theorem State.setWin_keeps {m : Part} {a : State} (s : State) (v : TimeWindow) (hm : m.win = true) (h : Keeps m a s) : Keeps m a
    (s.setWin v) :=
  ⟨by simpa [State.setWin, State.erase, hm] using h.1, h.2⟩

theorem State.setPps_keeps {m : Part} {a : State} (s : State) (v : Pps) (hm : m.pps = true) (h : Keeps m a s) : Keeps m a
    (s.setPps v) :=
  ⟨by simpa [State.setPps, State.erase, hm] using h.1, h.2⟩

theorem State.setNoon_keeps {m : Part} {a : State} (s : State) (v : Tab Noon) (hm : m.noon = true) (h : Keeps m a s) : Keeps m a
    (s.setNoon v) :=
  ⟨by simpa [State.setNoon, State.erase, hm] using h.1, h.2⟩

theorem State.setGrd_keeps {m : Part} {a : State} (s : State) (v : Grid) (hm : m.grd = true) (h : Keeps m a s) : Keeps m a
    (s.setGrd v) :=
  ⟨by simpa [State.setGrd, State.erase, hm] using h.1, h.2⟩

theorem State.setTts_keeps {m : Part} {a : State} (s : State) (v : Tts) (hm : m.tts = true) (h : Keeps m a s) : Keeps m a
    (s.setTts v) :=
  ⟨by simpa [State.setTts, State.erase, hm] using h.1, h.2⟩

theorem State.setFh_keeps {m : Part} {a : State} (s : State) (v : Fronthaul) (hm : m.fh = true) (h : Keeps m a s) : Keeps m a
    (s.setFh v) :=
  ⟨by simpa [State.setFh, State.erase, hm] using h.1, h.2⟩

theorem State.setSrv_keeps {m : Part} {a : State} (s : State) (v : Serving) (hv : tabWf s.srv.ctxs → tabWf v.ctxs) (hm : m.srv =
    true) (h : Keeps m a s) : Keeps m a (s.setSrv v) :=
  ⟨by simpa [State.setSrv, State.erase, hm] using h.1, fun ha => let c := h.2 ha; ⟨c.1, c.2.1, hv c.2.2⟩⟩

theorem State.setFab_keeps {m : Part} {a : State} (s : State) (v : Fabric) (hm : m.fab = true) (h : Keeps m a s) : Keeps m a
    (s.setFab v) :=
  ⟨by simpa [State.setFab, State.erase, hm] using h.1, h.2⟩

theorem State.setSyn_keeps {m : Part} {a : State} (s : State) (v : Sync) (hm : m.syn = true) (h : Keeps m a s) : Keeps m a
    (s.setSyn v) :=
  ⟨by simpa [State.setSyn, State.erase, hm] using h.1, h.2⟩

theorem State.setParts_keeps {m : Part} {a : State} (s : State) (v : Tab Partition) (hm : m.parts = true) (h : Keeps m a s) :
    Keeps m a (s.setParts v) :=
  ⟨by simpa [State.setParts, State.erase, hm] using h.1, h.2⟩

theorem State.setQuarantine_keeps {m : Part} {a : State} (s : State) (v : Tab Nat) (hm : m.quarantine = true) (h : Keeps m a
    s) : Keeps m a (s.setQuarantine v) :=
  ⟨by simpa [State.setQuarantine, State.erase, hm] using h.1, h.2⟩

theorem State.setHlt_keeps {m : Part} {a : State} (s : State) (v : Health) (hm : m.hlt = true) (h : Keeps m a s) : Keeps m a
    (s.setHlt v) :=
  ⟨by simpa [State.setHlt, State.erase, hm] using h.1, h.2⟩

theorem State.setTiles_keeps {m : Part} {a : State} (s : State) (v : Tab Tile) (hm : m.tiles = true) (h : Keeps m a s) :
    Keeps m a (s.setTiles v) :=
  ⟨by simpa [State.setTiles, State.erase, hm] using h.1, h.2⟩

theorem State.setCde_keeps {m : Part} {a : State} (s : State) (v : Coding) (hm : m.cde = true) (h : Keeps m a s) : Keeps m a
    (s.setCde v) :=
  ⟨by simpa [State.setCde, State.erase, hm] using h.1, h.2⟩

theorem State.setCells_keeps {m : Part} {a : State} (s : State) (v : Tab Cell) (hm : m.cells = true) (h : Keeps m a s) :
    Keeps m a (s.setCells v) :=
  ⟨by simpa [State.setCells, State.erase, hm] using h.1, h.2⟩

theorem State.setSweep_keeps {m : Part} {a : State} (s : State) (v : Tab SweepChan) (hm : m.sweep = true) (h : Keeps m a s) :
    Keeps m a (s.setSweep v) :=
  ⟨by simpa [State.setSweep, State.erase, hm] using h.1, h.2⟩

theorem State.setMbr_keeps {m : Part} {a : State} (s : State) (v : Membership) (hm : m.mbr = true) (h : Keeps m a s) : Keeps m a
    (s.setMbr v) :=
  ⟨by simpa [State.setMbr, State.erase, hm] using h.1, h.2⟩

theorem State.setPwr_keeps {m : Part} {a : State} (s : State) (v : Power) (hm : m.pwr = true) (h : Keeps m a s) : Keeps m a
    (s.setPwr v) :=
  ⟨by simpa [State.setPwr, State.erase, hm] using h.1, h.2⟩

theorem State.setBg_keeps {m : Part} {a : State} (s : State) (v : Background) (hm : m.bg = true) (h : Keeps m a s) : Keeps m a
    (s.setBg v) :=
  ⟨by simpa [State.setBg, State.erase, hm] using h.1, h.2⟩

theorem State.setMgt_keeps {m : Part} {a : State} (s : State) (v : Mgmt) (hv : memWf s.mgt.flash → memWf v.flash) (hm : m.mgt =
    true) (h : Keeps m a s) : Keeps m a (s.setMgt v) :=
  ⟨by simpa [State.setMgt, State.erase, hm] using h.1, fun ha => let c := h.2 ha; ⟨c.1, hv c.2.1, c.2.2⟩⟩

theorem State.setTap_keeps {m : Part} {a : State} (s : State) (v : TestPort) (hm : m.tap = true) (h : Keeps m a s) : Keeps m a
    (s.setTap v) :=
  ⟨by simpa [State.setTap, State.erase, hm] using h.1, h.2⟩

theorem State.setOut_keeps {m : Part} {a : State} (s : State) (v : List Out) (hm : m.out = true) (h : Keeps m a s) : Keeps m a
    (s.setOut v) :=
  ⟨by simpa [State.setOut, State.erase, hm] using h.1, h.2⟩

theorem State.setFresh_keeps {m : Part} {a : State} (s : State) (v : Nat) (hm : m.fresh = true) (h : Keeps m a s) : Keeps m a
    (s.setFresh v) :=
  ⟨by simpa [State.setFresh, State.erase, hm] using h.1, h.2⟩

theorem updSrv_keeps {m : Part} {a : State} (f : Serving → Serving) (s : State) (hf : ∀ v, tabWf v.ctxs → tabWf (f v).ctxs)
    (hm : m.srv = true) (h : Keeps m a s) : Keeps m a (updSrv f s) := State.setSrv_keeps s _ (hf _) hm h

theorem updMgt_keeps {m : Part} {a : State} (f : Mgmt → Mgmt) (s : State) (hf : ∀ g, memWf g.flash → memWf (f g).flash)
    (hm : m.mgt = true) (h : Keeps m a s) : Keeps m a (updMgt f s) := State.setMgt_keeps s _ (hf _) hm h

/-! Reading a piece that is not marked. -/

theorem Keeps.grade {m : Part} {a t : State} (h : Keeps m a t) (hm : m.grade = false := by rfl) : t.grade = a.grade := by
  simpa [State.erase, hm] using congrArg State.grade h.1

theorem Keeps.dev {m : Part} {a t : State} (h : Keeps m a t) (hm : m.dev = false := by rfl) : t.dev = a.dev := by
  simpa [State.erase, hm] using congrArg State.dev h.1

theorem Keeps.mbx {m : Part} {a t : State} (h : Keeps m a t) (hm : m.mbx = false := by rfl) : t.mbx = a.mbx := by
  simpa [State.erase, hm] using congrArg State.mbx h.1

theorem Keeps.ops {m : Part} {a t : State} (h : Keeps m a t) (hm : m.ops = false := by rfl) : t.ops = a.ops := by
  simpa [State.erase, hm] using congrArg State.ops h.1

theorem Keeps.evr {m : Part} {a t : State} (h : Keeps m a t) (hm : m.evr = false := by rfl) : t.evr = a.evr := by
  simpa [State.erase, hm] using congrArg State.evr h.1

theorem Keeps.rings {m : Part} {a t : State} (h : Keeps m a t) (hm : m.rings = false := by rfl) : t.rings = a.rings := by
  simpa [State.erase, hm] using congrArg State.rings h.1

theorem Keeps.tel {m : Part} {a t : State} (h : Keeps m a t) (hm : m.tel = false := by rfl) : t.tel = a.tel := by
  simpa [State.erase, hm] using congrArg State.tel h.1

theorem Keeps.mem {m : Part} {a t : State} (h : Keeps m a t) (hm : m.mem = false := by rfl) : t.mem = a.mem := by
  simpa [State.erase, hm] using congrArg State.mem h.1

theorem Keeps.tmb {m : Part} {a t : State} (h : Keeps m a t) (hm : m.tmb = false := by rfl) : t.tmb = a.tmb := by
  simpa [State.erase, hm] using congrArg State.tmb h.1

theorem Keeps.win {m : Part} {a t : State} (h : Keeps m a t) (hm : m.win = false := by rfl) : t.win = a.win := by
  simpa [State.erase, hm] using congrArg State.win h.1

theorem Keeps.pps {m : Part} {a t : State} (h : Keeps m a t) (hm : m.pps = false := by rfl) : t.pps = a.pps := by
  simpa [State.erase, hm] using congrArg State.pps h.1

theorem Keeps.noon {m : Part} {a t : State} (h : Keeps m a t) (hm : m.noon = false := by rfl) : t.noon = a.noon := by
  simpa [State.erase, hm] using congrArg State.noon h.1

theorem Keeps.grd {m : Part} {a t : State} (h : Keeps m a t) (hm : m.grd = false := by rfl) : t.grd = a.grd := by
  simpa [State.erase, hm] using congrArg State.grd h.1

theorem Keeps.tts {m : Part} {a t : State} (h : Keeps m a t) (hm : m.tts = false := by rfl) : t.tts = a.tts := by
  simpa [State.erase, hm] using congrArg State.tts h.1

theorem Keeps.fh {m : Part} {a t : State} (h : Keeps m a t) (hm : m.fh = false := by rfl) : t.fh = a.fh := by
  simpa [State.erase, hm] using congrArg State.fh h.1

theorem Keeps.srv {m : Part} {a t : State} (h : Keeps m a t) (hm : m.srv = false := by rfl) : t.srv = a.srv := by
  simpa [State.erase, hm] using congrArg State.srv h.1

theorem Keeps.fab {m : Part} {a t : State} (h : Keeps m a t) (hm : m.fab = false := by rfl) : t.fab = a.fab := by
  simpa [State.erase, hm] using congrArg State.fab h.1

theorem Keeps.syn {m : Part} {a t : State} (h : Keeps m a t) (hm : m.syn = false := by rfl) : t.syn = a.syn := by
  simpa [State.erase, hm] using congrArg State.syn h.1

theorem Keeps.parts {m : Part} {a t : State} (h : Keeps m a t) (hm : m.parts = false := by rfl) : t.parts = a.parts := by
  simpa [State.erase, hm] using congrArg State.parts h.1

theorem Keeps.quarantine {m : Part} {a t : State} (h : Keeps m a t) (hm : m.quarantine = false := by rfl) : t.quarantine =
    a.quarantine := by
  simpa [State.erase, hm] using congrArg State.quarantine h.1

theorem Keeps.hlt {m : Part} {a t : State} (h : Keeps m a t) (hm : m.hlt = false := by rfl) : t.hlt = a.hlt := by
  simpa [State.erase, hm] using congrArg State.hlt h.1

theorem Keeps.tiles {m : Part} {a t : State} (h : Keeps m a t) (hm : m.tiles = false := by rfl) : t.tiles = a.tiles := by
  simpa [State.erase, hm] using congrArg State.tiles h.1

theorem Keeps.cde {m : Part} {a t : State} (h : Keeps m a t) (hm : m.cde = false := by rfl) : t.cde = a.cde := by
  simpa [State.erase, hm] using congrArg State.cde h.1

theorem Keeps.cells {m : Part} {a t : State} (h : Keeps m a t) (hm : m.cells = false := by rfl) : t.cells = a.cells := by
  simpa [State.erase, hm] using congrArg State.cells h.1

theorem Keeps.sweep {m : Part} {a t : State} (h : Keeps m a t) (hm : m.sweep = false := by rfl) : t.sweep = a.sweep := by
  simpa [State.erase, hm] using congrArg State.sweep h.1

theorem Keeps.mbr {m : Part} {a t : State} (h : Keeps m a t) (hm : m.mbr = false := by rfl) : t.mbr = a.mbr := by
  simpa [State.erase, hm] using congrArg State.mbr h.1

theorem Keeps.pwr {m : Part} {a t : State} (h : Keeps m a t) (hm : m.pwr = false := by rfl) : t.pwr = a.pwr := by
  simpa [State.erase, hm] using congrArg State.pwr h.1

theorem Keeps.bg {m : Part} {a t : State} (h : Keeps m a t) (hm : m.bg = false := by rfl) : t.bg = a.bg := by
  simpa [State.erase, hm] using congrArg State.bg h.1

theorem Keeps.mgt {m : Part} {a t : State} (h : Keeps m a t) (hm : m.mgt = false := by rfl) : t.mgt = a.mgt := by
  simpa [State.erase, hm] using congrArg State.mgt h.1

theorem Keeps.tap {m : Part} {a t : State} (h : Keeps m a t) (hm : m.tap = false := by rfl) : t.tap = a.tap := by
  simpa [State.erase, hm] using congrArg State.tap h.1

theorem Keeps.out {m : Part} {a t : State} (h : Keeps m a t) (hm : m.out = false := by rfl) : t.out = a.out := by
  simpa [State.erase, hm] using congrArg State.out h.1

theorem Keeps.fresh {m : Part} {a t : State} (h : Keeps m a t) (hm : m.fresh = false := by rfl) : t.fresh = a.fresh := by
  simpa [State.erase, hm] using congrArg State.fresh h.1

theorem Keeps.pending {m : Part} {a t : State} (h : Keeps m a t) (hm : m.pending = false := by rfl) : t.pending = a.pending :=
    by
  simpa [State.erase, hm] using congrArg State.pending h.1

theorem KeepsO.next {m : Part} {a t : State} {o : Host.Outcome State Fault Refusal} (h : KeepsO m a o) (e : o = .next t) :
    Keeps m a t := h t e

end Sys2Proof.Machine
end

