-- ==== Sys2Proof/Laws/KeepsShared.lean ====
section
/-!
SUPPORT. The pieces of state each operation of these files of Machine/ may change: Ops, Mailbox, Rings, GridOps, CtxOps,
    SyncOps, Time, TableOps, FaultOps, StepOps.
-/

namespace Sys2Proof.Machine

/-! Machine/Ops.lean -/

theorem run_keeps {m : Part} {a : State} (a0 : Bool) (a1 : String) (s : State) (h : Keeps m a s) :
    KeepsO m a (run a0 a1 s) := by
  intro t ht
  unfold run at ht
  split at ht
  · cases ht; exact h
  · cases ht

theorem emit_keeps {m : Part} {a : State} (a0 : Out) (s : State) (h0 : m.out = true) (h : Keeps m a s) :
    Keeps m a (emit a0 s) := by
  unfold emit
  repeat' with_reducible first | assumption | apply State.setOut_keeps

theorem vfVector_keeps {m : Part} {a : State} (a0 : Nat) (a1 : Nat) (s : State) (h0 : m.out = true) (h : Keeps m a s) :
    Keeps m a (vfVector a0 a1 s) := by
  unfold vfVector
  repeat' with_reducible first | assumption | apply emit_keeps

theorem setEvRing_keeps {m : Part} {a : State} (a0 : Nat) (a1 : EventRing) (s : State) (h0 : m.evr = true) (h : Keeps m a s) :
    Keeps m a (setEvRing a0 a1 s) := by
  unfold setEvRing
  repeat' with_reducible first | assumption | apply State.setEvr_keeps

theorem postTo_keeps {m : Part} {a : State} (a0 : Nat) (a1 : Event) (s : State) (h0 : m.evr = true) (h1 : m.out = true) (h :
    Keeps m a s) :
    Keeps m a (postTo a0 a1 s) := by
  unfold postTo
  repeat' first
      | with_reducible first | assumption | apply setEvRing_keeps | apply emit_keeps
      | split
      | (dsimp only)

theorem post_keeps {m : Part} {a : State} (a0 : Event) (s : State) (h0 : m.evr = true) (h1 : m.out = true) (h : Keeps m a s) :
    Keeps m a (post a0 s) := by
  unfold post
  repeat' first
      | with_reducible first | assumption | apply postTo_keeps | apply setEvRing_keeps
      | split

theorem hdmWrite_keeps {m : Part} {a : State} (a0 : Nat) (a1 : List Byte) (s : State) (h0 : m.mem = true) (h : Keeps m a s) :
    Keeps m a (hdmWrite a0 a1 s) := by
  unfold hdmWrite
  repeat' first
      | with_reducible first | assumption | apply State.setMem_keeps | exact memWf_writeBytes _ _ _ ‹_›
      | intro _

theorem drawStatus_keeps {m : Part} {a : State} (s : State) (h0 : m.fresh = true) (h : Keeps m a s) :
    Keeps m a (drawStatus s).2 := by
  unfold drawStatus
  repeat' with_reducible first | assumption | apply State.setFresh_keeps

theorem healthReport_keeps {m : Part} {a : State} (s : State) (h0 : m.evr = true) (h1 : m.hlt = true) (h2 : m.out = true) (h :
    Keeps m a s) :
    Keeps m a (healthReport s) := by
  unfold healthReport
  repeat' first
      | with_reducible first | assumption | apply State.setHlt_keeps | apply post_keeps
      | split
      | (dsimp only)

theorem healthAdd_keeps {m : Part} {a : State} (a0 : Nat) (s : State) (h0 : m.evr = true) (h1 : m.hlt = true) (h2 : m.out =
    true) (h : Keeps m a s) :
    Keeps m a (healthAdd a0 s) := by
  unfold healthAdd
  repeat' with_reducible first | assumption | apply healthReport_keeps | apply State.setHlt_keeps

theorem fault_keeps {m : Part} {a : State} (a0 : FaultRec) (s : State) (h0 : m.evr = true) (h1 : m.hlt = true) (h2 : m.out =
    true) (h : Keeps m a s) :
    Keeps m a (fault a0 s) := by
  unfold fault
  repeat' first
      | with_reducible first
          | assumption | apply vfVector_keeps | apply State.setHlt_keeps | apply post_keeps | apply healthAdd_keeps
      | split

theorem drawFree_keeps {m : Part} {a : State} (s : State) (h0 : m.fresh = true) (h : Keeps m a s) :
    Keeps m a (drawFree s).2 := by
  unfold drawFree
  repeat' with_reducible first | assumption | apply State.setFresh_keeps

theorem pickFree_keeps {m : Part} {a : State} (a0 : Nat) (a1 : Nat → Bool) (s : State) (h0 : m.fresh = true) (h : Keeps m a s) :
    Keeps m a (pickFree a0 a1 s).2 := by
  unfold pickFree
  repeat' first
      | with_reducible first | assumption | apply State.setFresh_keeps
      | split
      | (dsimp only)

theorem runOn_keeps {m : Part} {a : State} (a0 : Bool) (a1 : String) (a2 : Nat) (a3 : Host.Outcome State Fault Refusal) (hk4 :
    KeepsO m a a3) :
    KeepsO m a (runOn a0 a1 a2 a3) := by
  intro t ht
  unfold runOn at ht
  split at ht
  · exact hk4 t ht
  · cases ht

theorem updPart_keeps {m : Part} {a : State} (a0 : Nat) (a1 : Partition → Partition) (s : State) (h0 : m.parts = true) (h :
    Keeps m a s) :
    Keeps m a (updPart a0 a1 s) := by
  unfold updPart
  repeat' with_reducible first | assumption | apply State.setParts_keeps

theorem drawEntropy_keeps {m : Part} {a : State} (s : State) (h0 : m.fresh = true) (h : Keeps m a s) :
    Keeps m a (drawEntropy s).2 := by
  unfold drawEntropy
  repeat' with_reducible first | assumption | apply State.setFresh_keeps

theorem ctlRead_keeps {m : Part} {a : State} (a0 : List (CtlMem × Nat)) (a1 : List (CtlMem × Nat)) (s : State) (h0 : m.evr =
    true) (h1 : m.hlt = true) (h2 : m.out = true) (h : Keeps m a s) :
    Keeps m a (ctlRead a0 a1 s).2 := by
  unfold ctlRead
  repeat' first
      | with_reducible first
          | assumption | apply State.setHlt_keeps | apply fault_keeps | apply keeps_foldl | apply keeps_ite
          | apply keeps_ite_fst | apply keeps_ite_snd | exact fun _ h => h | exact fun h => h
      | intro _
      | split
      | (dsimp only)
      | (rename (_ = (_, (_ : State))) => hp; have e := congrArg Prod.snd hp; clear hp; dsimp only at e; subst e)
      | (rename (_ = ((_ : State), _)) => hp; have e := congrArg Prod.fst hp; clear hp; dsimp only at e; subst e)

/-! Machine/Mailbox.lean -/

theorem setMbx_keeps {m : Part} {a : State} (a0 : Nat) (a1 : Mailbox) (s : State) (h0 : m.mbx = true) (h : Keeps m a s) :
    Keeps m a (setMbx a0 a1 s) := by
  unfold setMbx
  repeat' with_reducible first | assumption | apply State.setMbx_keeps

theorem completionNotice_keeps {m : Part} {a : State} (a0 : Nat) (a1 : Cmd) (a2 : Reply) (s : State) (h0 : m.evr = true) (h1 :
    m.out = true) (h : Keeps m a s) :
    Keeps m a (completionNotice a0 a1 a2 s) := by
  unfold completionNotice
  repeat' first
      | with_reducible first | assumption | apply vfVector_keeps | apply postTo_keeps | apply post_keeps
      | split
      | (dsimp only)

theorem complete_keeps {m : Part} {a : State} (a0 : Nat) (a1 : Cmd) (a2 : Reply) (s : State) (h0 : m.mbx = true) (h1 : m.evr =
    true) (h2 : m.out = true) (h : Keeps m a s) :
    Keeps m a (complete a0 a1 a2 s) := by
  unfold complete
  repeat' with_reducible first | assumption | apply setMbx_keeps | apply completionNotice_keeps

theorem respond_keeps {m : Part} {a : State} (a0 : Nat) (a1 : Cmd) (a2 : Reply) (s : State) (h0 : m.mbx = true) (h1 : m.evr =
    true) (h2 : m.out = true) (h : Keeps m a s) :
    Keeps m a (respond a0 a1 a2 s) := by
  unfold respond
  repeat' first
      | with_reducible first | assumption | apply setMbx_keeps | apply complete_keeps
      | split
      | (dsimp only)

theorem runCommand_keeps {m : Part} {a : State} (a0 : Nat) (a1 : Nat) (a2 : Req → State → State × Reply) (s : State) (h0 : m.mbx
    = true) (h1 : m.evr = true) (h2 : m.out = true) (hk3 : ∀ q s, Keeps m a s → Keeps m a (a2 q s).1) (h : Keeps m a s) :
    Keeps m a (runCommand a0 a1 a2 s) := by
  unfold runCommand
  repeat' first
      | with_reducible first | assumption | apply respond_keeps | apply hk3
      | split

theorem failed_keeps {m : Part} {a : State} (a0 : Status) (s : State) (h : Keeps m a s) :
    Keeps m a (failed a0 s).1 := by
  unfold failed
  repeat' with_reducible assumption

theorem finishOp_keeps {m : Part} {a : State} (a0 : Nat) (a1 : Status) (a2 : List Byte) (s : State) (h0 : m.ops = true) (h1 :
    m.evr = true) (h2 : m.out = true) (h : Keeps m a s) :
    Keeps m a (finishOp a0 a1 a2 s) := by
  unfold finishOp
  repeat' first
      | with_reducible first | assumption | apply State.setOps_keeps | apply post_keeps
      | split

theorem finishOpsOn_keeps {m : Part} {a : State} (a0 : Nat) (a1 : Nat) (a2 : Status) (a3 : List Byte) (s : State) (h0 : m.ops =
    true) (h1 : m.evr = true) (h2 : m.out = true) (h : Keeps m a s) :
    Keeps m a (finishOpsOn a0 a1 a2 a3 s) := by
  unfold finishOpsOn
  repeat' first
      | with_reducible first | assumption | apply finishOp_keeps | apply keeps_foldl
      | intro _

theorem startOp_keeps {m : Part} {a : State} (a0 : Req) (a1 : Nat) (a2 : List Nat) (s : State) (h0 : m.ops = true) (h1 : m.fresh
    = true) (h : Keeps m a s) :
    Keeps m a (startOp a0 a1 a2 s).2 := by
  unfold startOp
  repeat' first
      | with_reducible first | assumption | apply pickFree_keeps | apply State.setOps_keeps
      | split
      | (rename (_ = (_, (_ : State))) => hp; have e := congrArg Prod.snd hp; clear hp; dsimp only at e; subst e)

theorem longOp_keeps {m : Part} {a : State} (a0 : Req) (a1 : Nat) (a2 : List Nat) (a3 : Nat → State → State) (s : State) (h0 :
    m.ops = true) (h1 : m.fresh = true) (hk4 : ∀ x s, Keeps m a s → Keeps m a (a3 x s)) (h : Keeps m a s) :
    Keeps m a (longOp a0 a1 a2 a3 s).1 := by
  unfold longOp
  repeat' first
      | with_reducible first | assumption | apply failed_keeps | apply startOp_keeps | apply hk4
      | split
      | (rename (_ = (_, (_ : State))) => hp; have e := congrArg Prod.snd hp; clear hp; dsimp only at e; subst e)

/-! Machine/Rings.lean -/

theorem ringVector_keeps {m : Part} {a : State} (a0 : Ring) (s : State) (h0 : m.out = true) (h : Keeps m a s) :
    Keeps m a (ringVector a0 s) := by
  unfold ringVector
  repeat' first
      | with_reducible first | assumption | apply emit_keeps
      | split

theorem writeEntries_keeps {m : Part} {a : State} (a0 : Ring) (a1 : Nat) (a2 : Nat) (a3 : Nat) (a4 : Nat) (a5 : List Byte) (s :
    State) (h0 : m.mem = true) (h : Keeps m a s) :
    Keeps m a (writeEntries a0 a1 a2 a3 a4 a5 s) := by
  induction a3 generalizing a4 a5 s with
  | zero =>
    unfold writeEntries
    repeat' first
      | with_reducible first
          | assumption | apply hdmWrite_keeps | apply keeps_foldl | apply keeps_ite | apply keeps_ite_fst
          | apply keeps_ite_snd | exact memWf_writeBytes _ _ _ ‹_› | exact memWf_zero _ _ _ ‹_› | exact memWf_nil
          | exact memWf_forget _ _ _ _ ‹_› | exact fun _ h => h | exact fun h => h
      | intro _
      | split
      | (dsimp only)
      | (rename (_ = (_, (_ : State))) => hp; have e := congrArg Prod.snd hp; clear hp; dsimp only at e; subst e)
      | (rename (_ = ((_ : State), _)) => hp; have e := congrArg Prod.fst hp; clear hp; dsimp only at e; subst e)
  | succ _ ih =>
    unfold writeEntries
    repeat' first
      | with_reducible first
          | assumption | apply ih | apply hdmWrite_keeps | apply keeps_foldl | apply keeps_ite | apply keeps_ite_fst
          | apply keeps_ite_snd | exact memWf_writeBytes _ _ _ ‹_› | exact memWf_zero _ _ _ ‹_› | exact memWf_nil
          | exact memWf_forget _ _ _ _ ‹_› | exact fun _ h => h | exact fun h => h
      | intro _
      | split
      | (dsimp only)
      | (rename (_ = (_, (_ : State))) => hp; have e := congrArg Prod.snd hp; clear hp; dsimp only at e; subst e)
      | (rename (_ = ((_ : State), _)) => hp; have e := congrArg Prod.fst hp; clear hp; dsimp only at e; subst e)

theorem updRing_keeps {m : Part} {a : State} (a0 : Nat) (a1 : Ring → Ring) (s : State) (h0 : m.rings = true) (h : Keeps m a s) :
    Keeps m a (updRing a0 a1 s) := by
  unfold updRing
  repeat' with_reducible first | assumption | apply State.setRings_keeps

theorem ringPut_keeps {m : Part} {a : State} (a0 : Nat) (a1 : Nat) (a2 : Nat) (a3 : List Byte) (s : State) (h0 : m.rings = true)
    (h1 : m.mem = true) (h2 : m.out = true) (h : Keeps m a s) :
    Keeps m a (ringPut a0 a1 a2 a3 s) := by
  unfold ringPut
  repeat' first
      | with_reducible first
          | assumption | apply ringVector_keeps | apply writeEntries_keeps | apply hdmWrite_keeps | apply updRing_keeps
      | split

theorem advance_keeps {m : Part} {a : State} (a0 : Nat) (a1 : Nat) (s : State) (h0 : m.rings = true) (h1 : m.mem = true) (h :
    Keeps m a s) :
    Keeps m a (advance a0 a1 s) := by
  unfold advance
  repeat' first
      | with_reducible first | assumption | apply hdmWrite_keeps | apply updRing_keeps
      | split

theorem ringFault_keeps {m : Part} {a : State} (a0 : Nat) (a1 : Nat) (a2 : Nat) (s : State) (h0 : m.evr = true) (h1 : m.rings =
    true) (h2 : m.hlt = true) (h3 : m.out = true) (h : Keeps m a s) :
    Keeps m a (ringFault a0 a1 a2 s) := by
  unfold ringFault
  repeat' first
      | with_reducible first | assumption | apply fault_keeps | apply post_keeps | apply updRing_keeps
      | split

theorem settleOne_keeps {m : Part} {a : State} (a0 : Nat) (s : State) (h0 : m.evr = true) (h1 : m.rings = true) (h2 : m.mem =
    true) (h3 : m.hlt = true) (h4 : m.out = true) (h : Keeps m a s) :
    Keeps m a (settleOne a0 s).2 := by
  unfold settleOne
  repeat' first
      | with_reducible first | assumption | apply advance_keeps | apply ringFault_keeps
      | split

theorem settle_keeps {m : Part} {a : State} (a0 : Nat) (a1 : Nat) (s : State) (h0 : m.evr = true) (h1 : m.rings = true) (h2 :
    m.mem = true) (h3 : m.hlt = true) (h4 : m.out = true) (h : Keeps m a s) :
    Keeps m a (settle a0 a1 s) := by
  induction a1 generalizing  s with
  | zero =>
    unfold settle
    repeat' first
      | with_reducible first
          | assumption | apply settleOne_keeps | apply keeps_foldl | apply keeps_ite | apply keeps_ite_fst
          | apply keeps_ite_snd | exact memWf_writeBytes _ _ _ ‹_› | exact memWf_zero _ _ _ ‹_› | exact memWf_nil
          | exact memWf_forget _ _ _ _ ‹_› | exact fun _ h => h | exact fun h => h
      | intro _
      | split
      | (dsimp only)
      | (rename (_ = (_, (_ : State))) => hp; have e := congrArg Prod.snd hp; clear hp; dsimp only at e; subst e)
      | (rename (_ = ((_ : State), _)) => hp; have e := congrArg Prod.fst hp; clear hp; dsimp only at e; subst e)
  | succ _ ih =>
    unfold settle
    repeat' first
      | with_reducible first
          | assumption | apply ih | apply settleOne_keeps | apply keeps_foldl | apply keeps_ite | apply keeps_ite_fst
          | apply keeps_ite_snd | exact memWf_writeBytes _ _ _ ‹_› | exact memWf_zero _ _ _ ‹_› | exact memWf_nil
          | exact memWf_forget _ _ _ _ ‹_› | exact fun _ h => h | exact fun h => h
      | intro _
      | split
      | (dsimp only)
      | (rename (_ = (_, (_ : State))) => hp; have e := congrArg Prod.snd hp; clear hp; dsimp only at e; subst e)
      | (rename (_ = ((_ : State), _)) => hp; have e := congrArg Prod.fst hp; clear hp; dsimp only at e; subst e)

theorem takeHead_keeps {m : Part} {a : State} (a0 : Nat) (a1 : Nat) (s : State) (h0 : m.evr = true) (h1 : m.rings = true) (h2 :
    m.mem = true) (h3 : m.hlt = true) (h4 : m.out = true) (h : Keeps m a s) :
    Keeps m a (takeHead a0 a1 s) := by
  unfold takeHead
  repeat' with_reducible first | assumption | apply settle_keeps | apply advance_keeps

theorem doorbell_keeps {m : Part} {a : State} (a0 : Nat) (a1 : Nat) (s : State) (h0 : m.evr = true) (h1 : m.rings = true) (h2 :
    m.mem = true) (h3 : m.hlt = true) (h4 : m.out = true) (h : Keeps m a s) :
    Keeps m a (doorbell a0 a1 s) := by
  unfold doorbell
  repeat' first
      | with_reducible first | assumption | apply settle_keeps | apply ringFault_keeps | apply updRing_keeps
      | split
      | (dsimp only)

theorem strayDoorbell_keeps {m : Part} {a : State} (s : State) (h0 : m.tel = true) (h : Keeps m a s) :
    Keeps m a (strayDoorbell s) := by
  unfold strayDoorbell
  repeat' with_reducible first | assumption | apply State.setTel_keeps

/-! Machine/GridOps.lean -/

theorem updGrd_keeps {m : Part} {a : State} (a0 : Grid → Grid) (s : State) (h0 : m.grd = true) (h : Keeps m a s) :
    Keeps m a (updGrd a0 s) := by
  unfold updGrd
  repeat' with_reducible first | assumption | apply State.setGrd_keeps

theorem updUnit_keeps {m : Part} {a : State} (a0 : Nat) (a1 : UnitRun → UnitRun) (s : State) (h0 : m.grd = true) (h : Keeps m a
    s) :
    Keeps m a (updUnit a0 a1 s) := by
  unfold updUnit
  repeat' with_reducible first | assumption | apply updGrd_keeps

theorem updUnits_keeps {m : Part} {a : State} (a0 : List Nat) (a1 : UnitRun → UnitRun) (s : State) (h0 : m.grd = true) (h :
    Keeps m a s) :
    Keeps m a (updUnits a0 a1 s) := by
  unfold updUnits
  repeat' first
      | with_reducible first | assumption | apply updUnit_keeps | apply keeps_foldl
      | intro _

theorem sbRestore_keeps {m : Part} {a : State} (a0 : List (Nat × Nat × Nat)) (s : State) (h0 : m.grd = true) (h : Keeps m a s) :
    Keeps m a (sbRestore a0 s) := by
  unfold sbRestore
  repeat' with_reducible first | assumption | apply updGrd_keeps

theorem freeWindows_keeps {m : Part} {a : State} (a0 : Nat) (s : State) (h0 : m.grd = true) (h : Keeps m a s) :
    Keeps m a (freeWindows a0 s) := by
  unfold freeWindows
  repeat' first
      | with_reducible first
          | assumption | apply updGrd_keeps | apply keeps_foldl | apply keeps_ite | apply keeps_ite_fst | apply keeps_ite_snd
          | exact fun _ h => h | exact fun h => h
      | intro _
      | split
      | (dsimp only)
      | (rename (_ = (_, (_ : State))) => hp; have e := congrArg Prod.snd hp; clear hp; dsimp only at e; subst e)
      | (rename (_ = ((_ : State), _)) => hp; have e := congrArg Prod.fst hp; clear hp; dsimp only at e; subst e)

theorem freeShares_keeps {m : Part} {a : State} (a0 : Nat) (s : State) (h0 : m.grd = true) (h : Keeps m a s) :
    Keeps m a (freeShares a0 s) := by
  unfold freeShares
  repeat' with_reducible first | assumption | apply freeWindows_keeps | apply updGrd_keeps

theorem updSb_keeps {m : Part} {a : State} (a0 : Nat) (a1 : Nat) (a2 : SbEntry → SbEntry) (s : State) (h0 : m.grd = true) (h :
    Keeps m a s) :
    Keeps m a (updSb a0 a1 a2 s) := by
  unfold updSb
  repeat' with_reducible first | assumption | apply updGrd_keeps

theorem setShare_keeps {m : Part} {a : State} (a0 : Nat) (a1 : Nat) (a2 : Nat) (a3 : Nat) (s : State) (h0 : m.grd = true) (h :
    Keeps m a s) :
    Keeps m a (setShare a0 a1 a2 a3 s) := by
  unfold setShare
  repeat' with_reducible first | assumption | apply updGrd_keeps

theorem sbClearOwner_keeps {m : Part} {a : State} (a0 : Nat) (s : State) (h0 : m.grd = true) (h : Keeps m a s) :
    Keeps m a (sbClearOwner a0 s) := by
  unfold sbClearOwner
  repeat' with_reducible first | assumption | apply updGrd_keeps

theorem storeBytes_keeps {m : Part} {a : State} (a0 : Nat) (a1 : List Byte) (s : State) (h0 : m.mem = true) (h1 : m.hlt = true)
    (h : Keeps m a s) :
    Keeps m a (storeBytes a0 a1 s) := by
  unfold storeBytes
  repeat' first
      | with_reducible first
          | assumption | apply State.setHlt_keeps | apply State.setMem_keeps | exact memWf_writeBytes _ _ _ ‹_›
      | intro _

theorem progress_keeps {m : Part} {a : State} (a0 : Nat) (s : State) (h0 : m.hlt = true) (h : Keeps m a s) :
    Keeps m a (progress a0 s) := by
  unfold progress
  repeat' with_reducible first | assumption | apply State.setHlt_keeps

theorem sbFreeOwner_keeps {m : Part} {a : State} (a0 : Nat) (s : State) (h0 : m.grd = true) (h : Keeps m a s) :
    Keeps m a (sbFreeOwner a0 s) := by
  unfold sbFreeOwner
  repeat' with_reducible first | assumption | apply updGrd_keeps

theorem sbRelease_keeps {m : Part} {a : State} (a0 : Nat) (a1 : Nat) (s : State) (h0 : m.grd = true) (h : Keeps m a s) :
    Keeps m a (sbRelease a0 a1 s) := by
  unfold sbRelease
  repeat' with_reducible first | assumption | apply updSb_keeps

theorem updSide_keeps {m : Part} {a : State} (a0 : Nat) (a1 : Nat) (a2 : SbSide → SbSide) (s : State) (h0 : m.grd = true) (h1 :
    m.tiles = true) (h : Keeps m a s) :
    Keeps m a (updSide a0 a1 a2 s) := by
  unfold updSide
  repeat' first
      | with_reducible first
          | assumption | apply State.setTiles_keeps | apply updUnit_keeps | apply keeps_foldl | apply keeps_ite
          | apply keeps_ite_fst | apply keeps_ite_snd | exact fun _ h => h | exact fun h => h
      | intro _
      | split
      | (dsimp only)
      | (rename (_ = (_, (_ : State))) => hp; have e := congrArg Prod.snd hp; clear hp; dsimp only at e; subst e)
      | (rename (_ = ((_ : State), _)) => hp; have e := congrArg Prod.fst hp; clear hp; dsimp only at e; subst e)

theorem sbProduce_keeps {m : Part} {a : State} (a0 : Nat) (a1 : Nat) (a2 : Nat) (a3 : PostRec) (s : State) (h0 : m.grd = true)
    (h : Keeps m a s) :
    Keeps m a (sbProduce a0 a1 a2 a3 s) := by
  unfold sbProduce
  repeat' with_reducible first | assumption | apply updSb_keeps

theorem sbReturn_keeps {m : Part} {a : State} (a0 : Nat) (a1 : Nat) (s : State) (h0 : m.grd = true) (h : Keeps m a s) :
    Keeps m a (sbReturn a0 a1 s) := by
  unfold sbReturn
  repeat' with_reducible first | assumption | apply updSb_keeps

/-! Machine/CtxOps.lean -/

theorem updCtx_keeps {m : Part} {a : State} (a0 : Nat) (a1 : Context → Context) (s : State) (h0 : m.srv = true) (h : Keeps m a
    s) :
    Keeps m a (updCtx a0 a1 s) := by
  unfold updCtx
  repeat' first
      | with_reducible first | assumption | apply updSrv_keeps | exact tabWf_mod _ _ _ ‹_›
      | intro _

theorem updStep_keeps {m : Part} {a : State} (a0 : Nat) (a1 : StepRun → StepRun) (s : State) (h0 : m.srv = true) (h : Keeps m a
    s) :
    Keeps m a (updStep a0 a1 s) := by
  unfold updStep
  repeat' with_reducible first | assumption | apply updCtx_keeps

theorem updMicro_keeps {m : Part} {a : State} (a0 : Nat) (a1 : Nat) (a2 : MicroRun → MicroRun) (s : State) (h0 : m.srv = true)
    (h : Keeps m a s) :
    Keeps m a (updMicro a0 a1 a2 s) := by
  unfold updMicro
  repeat' with_reducible first | assumption | apply updStep_keeps

theorem clearUnits_keeps {m : Part} {a : State} (a0 : List Nat) (s : State) (h0 : m.grd = true) (h1 : m.tiles = true) (h :
    Keeps m a s) :
    Keeps m a (clearUnits a0 s) := by
  unfold clearUnits
  repeat' with_reducible first | assumption | apply State.setTiles_keeps | apply updUnits_keeps

theorem updTts_keeps {m : Part} {a : State} (a0 : Tts → Tts) (s : State) (h0 : m.tts = true) (h : Keeps m a s) :
    Keeps m a (updTts a0 s) := by
  unfold updTts
  repeat' with_reducible first | assumption | apply State.setTts_keeps

theorem stopMicro_keeps {m : Part} {a : State} (a0 : Nat) (a1 : Nat) (s : State) (h0 : m.grd = true) (h1 : m.tts = true) (h2 :
    m.srv = true) (h3 : m.fab = true) (h4 : m.tiles = true) (h : Keeps m a s) :
    Keeps m a (stopMicro a0 a1 s) := by
  unfold stopMicro
  repeat' first
      | with_reducible first
          | assumption | apply updMicro_keeps | apply State.setFab_keeps | apply sbRestore_keeps | apply clearUnits_keeps
          | apply updTts_keeps
      | split

theorem countSquash_keeps {m : Part} {a : State} (a0 : Nat) (a1 : Nat) (s : State) (h0 : m.srv = true) (h : Keeps m a s) :
    Keeps m a (countSquash a0 a1 s) := by
  unfold countSquash
  repeat' with_reducible first | assumption | apply updCtx_keeps | apply updMicro_keeps | apply updStep_keeps

theorem squashAll_keeps {m : Part} {a : State} (a0 : Nat) (a1 : Bool) (s : State) (h0 : m.evr = true) (h1 : m.grd = true) (h2 :
    m.tts = true) (h3 : m.srv = true) (h4 : m.fab = true) (h5 : m.hlt = true) (h6 : m.tiles = true) (h7 : m.out = true) (h :
    Keeps m a s) :
    Keeps m a (squashAll a0 a1 s) := by
  unfold squashAll
  repeat' first
      | with_reducible first
          | assumption | apply stopMicro_keeps | apply countSquash_keeps | apply fault_keeps | apply updTts_keeps
          | apply keeps_foldl
      | intro _
      | split

theorem ctxTo_keeps {m : Part} {a : State} (a0 : Nat) (a1 : CtxState) (a2 : Nat) (s : State) (h0 : m.evr = true) (h1 : m.grd =
    true) (h2 : m.srv = true) (h3 : m.out = true) (h : Keeps m a s) :
    Keeps m a (ctxTo a0 a1 a2 s) := by
  unfold ctxTo
  repeat' first
      | with_reducible first
          | assumption | apply freeShares_keeps | apply updSrv_keeps | apply updCtx_keeps | apply post_keeps
          | apply updGrd_keeps | exact tabWf_map _ _ (fun _ => rfl) ‹_›
      | intro _
      | split
      | (dsimp only)

theorem enterResiding_keeps {m : Part} {a : State} (a0 : Nat) (a1 : Nat) (s : State) (h0 : m.evr = true) (h1 : m.grd = true)
    (h2 : m.srv = true) (h3 : m.out = true) (h : Keeps m a s) :
    Keeps m a (enterResiding a0 a1 s) := by
  unfold enterResiding
  repeat' first
      | with_reducible first | assumption | apply updCtx_keeps | apply ctxTo_keeps
      | split

theorem evictNow_keeps {m : Part} {a : State} (a0 : Nat) (a1 : Nat) (s : State) (h0 : m.evr = true) (h1 : m.grd = true) (h2 :
    m.srv = true) (h3 : m.out = true) (h : Keeps m a s) :
    Keeps m a (evictNow a0 a1 s) := by
  unfold evictNow
  repeat' first
      | with_reducible first | assumption | apply updCtx_keeps | apply ctxTo_keeps | apply enterResiding_keeps
      | split
      | (dsimp only)

theorem stampHead_keeps {m : Part} {a : State} (a0 : Nat) (s : State) (h0 : m.srv = true) (h : Keeps m a s) :
    Keeps m a (stampHead a0 s) := by
  unfold stampHead
  repeat' with_reducible first | assumption | apply updCtx_keeps

theorem emitDone_keeps {m : Part} {a : State} (a0 : Nat) (a1 : DoneInfo) (s : State) (h0 : m.rings = true) (h1 : m.mem = true)
    (h2 : m.srv = true) (h3 : m.out = true) (h : Keeps m a s) :
    Keeps m a (emitDone a0 a1 s) := by
  unfold emitDone
  repeat' first
      | with_reducible first | assumption | apply updSrv_keeps | apply ringPut_keeps
      | intro _
      | split

theorem clearArith_keeps {m : Part} {a : State} (a0 : Nat) (s : State) (h0 : m.grd = true) (h : Keeps m a s) :
    Keeps m a (clearArith a0 s) := by
  unfold clearArith
  repeat' with_reducible first | assumption | apply updGrd_keeps

theorem takeVictim_keeps {m : Part} {a : State} (a0 : Nat) (s : State) (a1 : Nat) (h0 : m.evr = true) (h1 : m.grd = true) (h2 :
    m.srv = true) (h3 : m.out = true) (h : Keeps m a s) :
    Keeps m a (takeVictim a0 s a1) := by
  unfold takeVictim
  repeat' first
      | with_reducible first | assumption | apply updCtx_keeps | apply evictNow_keeps
      | split

theorem writePrograms_keeps {m : Part} {a : State} (a0 : Nat) (a1 : Binding) (a2 : Placement) (s : State) (h0 : m.grd = true)
    (h : Keeps m a s) :
    Keeps m a (writePrograms a0 a1 a2 s) := by
  unfold writePrograms
  repeat' first
      | with_reducible first
          | assumption | apply updGrd_keeps | apply keeps_foldl | apply keeps_ite | apply keeps_ite_fst | apply keeps_ite_snd
          | exact fun _ h => h | exact fun h => h
      | intro _
      | split
      | (dsimp only)
      | (rename (_ = (_, (_ : State))) => hp; have e := congrArg Prod.snd hp; clear hp; dsimp only at e; subst e)
      | (rename (_ = ((_ : State), _)) => hp; have e := congrArg Prod.fst hp; clear hp; dsimp only at e; subst e)

theorem writeBufs_keeps {m : Part} {a : State} (a0 : Nat) (a1 : Binding) (a2 : Placement) (s : State) (h0 : m.grd = true) (h :
    Keeps m a s) :
    Keeps m a (writeBufs a0 a1 a2 s) := by
  unfold writeBufs
  repeat' first
      | with_reducible first | assumption | apply updSb_keeps | apply keeps_foldl
      | intro _

theorem moveBufs_keeps {m : Part} {a : State} (a0 : Nat) (a1 : Nat) (a2 : Int) (s : State) (h0 : m.grd = true) (h : Keeps m a
    s) :
    Keeps m a (moveBufs a0 a1 a2 s) := by
  unfold moveBufs
  repeat' first
      | with_reducible first
          | assumption | apply updGrd_keeps | apply keeps_foldl | apply keeps_ite | apply keeps_ite_fst | apply keeps_ite_snd
          | exact fun _ h => h | exact fun h => h
      | intro _
      | split
      | (dsimp only)
      | (rename (_ = (_, (_ : State))) => hp; have e := congrArg Prod.snd hp; clear hp; dsimp only at e; subst e)
      | (rename (_ = ((_ : State), _)) => hp; have e := congrArg Prod.fst hp; clear hp; dsimp only at e; subst e)

theorem writeShare_keeps {m : Part} {a : State} (a0 : Nat) (s : State) (a1 : Nat × Nat × Nat) (h0 : m.grd = true) (h : Keeps m a
    s) :
    Keeps m a (writeShare a0 s a1) := by
  unfold writeShare
  repeat' first
      | with_reducible first
          | assumption | apply setShare_keeps | apply moveBufs_keeps | apply keeps_foldl | apply keeps_ite
          | apply keeps_ite_fst | apply keeps_ite_snd | exact fun _ h => h | exact fun h => h
      | intro _
      | split
      | (dsimp only)
      | (rename (_ = (_, (_ : State))) => hp; have e := congrArg Prod.snd hp; clear hp; dsimp only at e; subst e)
      | (rename (_ = ((_ : State), _)) => hp; have e := congrArg Prod.fst hp; clear hp; dsimp only at e; subst e)

theorem writeShares_keeps {m : Part} {a : State} (a0 : Nat) (a1 : List (Nat × List (Nat × Nat × Nat))) (s : State) (h0 : m.grd =
    true) (h : Keeps m a s) :
    Keeps m a (writeShares a0 a1 s) := by
  unfold writeShares
  repeat' first
      | with_reducible first
          | assumption | apply writePrograms_keeps | apply writeBufs_keeps | apply freeWindows_keeps | apply writeShare_keeps
          | apply keeps_foldl
      | intro _

theorem grantResidency_keeps {m : Part} {a : State} (a0 : Nat) (a1 : List (Nat × List (Nat × Nat × Nat))) (s : State) (h0 :
    m.grd = true) (h1 : m.srv = true) (h : Keeps m a s) :
    Keeps m a (grantResidency a0 a1 s) := by
  unfold grantResidency
  repeat' with_reducible first | assumption | apply updCtx_keeps | apply writeShares_keeps

theorem doneUnstarted_keeps {m : Part} {a : State} (a0 : Nat) (a1 : Submission) (a2 : Status) (s : State) (h0 : m.rings = true)
    (h1 : m.mem = true) (h2 : m.srv = true) (h3 : m.out = true) (h : Keeps m a s) :
    Keeps m a (doneUnstarted a0 a1 a2 s) := by
  unfold doneUnstarted
  repeat' first
      | with_reducible first | assumption | apply updCtx_keeps | apply emitDone_keeps
      | split

theorem endReside_keeps {m : Part} {a : State} (a0 : Nat) (a1 : Status) (s : State) (h0 : m.ops = true) (h1 : m.evr = true)
    (h2 : m.out = true) (h : Keeps m a s) :
    Keeps m a (endReside a0 a1 s) := by
  unfold endReside
  repeat' with_reducible first | assumption | apply finishOpsOn_keeps

theorem refuseResidency_keeps {m : Part} {a : State} (a0 : Nat) (s : State) (h0 : m.ops = true) (h1 : m.evr = true) (h2 :
    m.rings = true) (h3 : m.mem = true) (h4 : m.grd = true) (h5 : m.srv = true) (h6 : m.out = true) (h : Keeps m a s) :
    Keeps m a (refuseResidency a0 s) := by
  unfold refuseResidency
  repeat' first
      | with_reducible first
          | assumption | apply updCtx_keeps | apply doneUnstarted_keeps | apply ctxTo_keeps | apply enterResiding_keeps
          | apply stampHead_keeps | apply endReside_keeps
      | split
      | (dsimp only)

theorem serveResiding_keeps {m : Part} {a : State} (a0 : Nat) (s : State) (h0 : m.ops = true) (h1 : m.evr = true) (h2 : m.rings
    = true) (h3 : m.mem = true) (h4 : m.grd = true) (h5 : m.srv = true) (h6 : m.out = true) (h : Keeps m a s) :
    Keeps m a (serveResiding a0 s) := by
  induction a0 generalizing  s with
  | zero =>
    unfold serveResiding
    repeat' first
      | with_reducible first
          | assumption | apply updCtx_keeps | apply takeVictim_keeps | apply grantResidency_keeps
          | apply refuseResidency_keeps | apply keeps_foldl | apply keeps_ite | apply keeps_ite_fst | apply keeps_ite_snd
          | exact memWf_writeBytes _ _ _ ‹_› | exact memWf_zero _ _ _ ‹_› | exact memWf_nil | exact memWf_forget _ _ _ _ ‹_›
          | exact tabWf_mod _ _ _ ‹_› | exact tabWf_put _ _ _ ‹_› | exact tabWf_del _ _ ‹_›
          | exact tabWf_map _ _ (fun _ => rfl) ‹_› | exact fun _ h => h | exact fun h => h
      | intro _
      | split
      | (dsimp only)
      | (rename (_ = (_, (_ : State))) => hp; have e := congrArg Prod.snd hp; clear hp; dsimp only at e; subst e)
      | (rename (_ = ((_ : State), _)) => hp; have e := congrArg Prod.fst hp; clear hp; dsimp only at e; subst e)
  | succ _ ih =>
    unfold serveResiding
    repeat' first
      | with_reducible first
          | assumption | apply ih | apply updCtx_keeps | apply takeVictim_keeps | apply grantResidency_keeps
          | apply refuseResidency_keeps | apply keeps_foldl | apply keeps_ite | apply keeps_ite_fst | apply keeps_ite_snd
          | exact memWf_writeBytes _ _ _ ‹_› | exact memWf_zero _ _ _ ‹_› | exact memWf_nil | exact memWf_forget _ _ _ _ ‹_›
          | exact tabWf_mod _ _ _ ‹_› | exact tabWf_put _ _ _ ‹_› | exact tabWf_del _ _ ‹_›
          | exact tabWf_map _ _ (fun _ => rfl) ‹_› | exact fun _ h => h | exact fun h => h
      | intro _
      | split
      | (dsimp only)
      | (rename (_ = (_, (_ : State))) => hp; have e := congrArg Prod.snd hp; clear hp; dsimp only at e; subst e)
      | (rename (_ = ((_ : State), _)) => hp; have e := congrArg Prod.fst hp; clear hp; dsimp only at e; subst e)

theorem serve_keeps {m : Part} {a : State} (s : State) (h0 : m.ops = true) (h1 : m.evr = true) (h2 : m.rings = true) (h3 : m.mem
    = true) (h4 : m.grd = true) (h5 : m.srv = true) (h6 : m.out = true) (h : Keeps m a s) :
    Keeps m a (serve s) := by
  unfold serve
  repeat' with_reducible first | assumption | apply serveResiding_keeps

theorem dropQueued_keeps {m : Part} {a : State} (a0 : Nat) (a1 : Submission → Bool) (a2 : Status) (s : State) (h0 : m.rings =
    true) (h1 : m.mem = true) (h2 : m.srv = true) (h3 : m.out = true) (h : Keeps m a s) :
    Keeps m a (dropQueued a0 a1 a2 s) := by
  unfold dropQueued
  repeat' first
      | with_reducible first
          | assumption | apply updCtx_keeps | apply doneUnstarted_keeps | apply stampHead_keeps | apply keeps_foldl
      | intro _
      | split
      | (dsimp only)

theorem flushDone_keeps {m : Part} {a : State} (a0 : Nat) (a1 : List (Nat × List Byte)) (s : State) (h0 : m.rings = true) (h1 :
    m.mem = true) (h2 : m.srv = true) (h3 : m.out = true) (h : Keeps m a s) :
    Keeps m a (flushDone a0 a1 s) := by
  induction a1 generalizing  s with
  | nil =>
    unfold flushDone
    repeat' first
      | with_reducible first
          | assumption | apply updSrv_keeps | apply ringPut_keeps | apply keeps_foldl | apply keeps_ite | apply keeps_ite_fst
          | apply keeps_ite_snd | exact memWf_writeBytes _ _ _ ‹_› | exact memWf_zero _ _ _ ‹_› | exact memWf_nil
          | exact memWf_forget _ _ _ _ ‹_› | exact tabWf_mod _ _ _ ‹_› | exact tabWf_put _ _ _ ‹_› | exact tabWf_del _ _ ‹_›
          | exact tabWf_map _ _ (fun _ => rfl) ‹_› | exact fun _ h => h | exact fun h => h
      | intro _
      | split
      | (dsimp only)
      | (rename (_ = (_, (_ : State))) => hp; have e := congrArg Prod.snd hp; clear hp; dsimp only at e; subst e)
      | (rename (_ = ((_ : State), _)) => hp; have e := congrArg Prod.fst hp; clear hp; dsimp only at e; subst e)
  | cons _ _ ih =>
    unfold flushDone
    repeat' first
      | with_reducible first
          | assumption | apply ih | apply updSrv_keeps | apply ringPut_keeps | apply keeps_foldl | apply keeps_ite
          | apply keeps_ite_fst | apply keeps_ite_snd | exact memWf_writeBytes _ _ _ ‹_› | exact memWf_zero _ _ _ ‹_›
          | exact memWf_nil | exact memWf_forget _ _ _ _ ‹_› | exact tabWf_mod _ _ _ ‹_› | exact tabWf_put _ _ _ ‹_›
          | exact tabWf_del _ _ ‹_› | exact tabWf_map _ _ (fun _ => rfl) ‹_› | exact fun _ h => h | exact fun h => h
      | intro _
      | split
      | (dsimp only)
      | (rename (_ = (_, (_ : State))) => hp; have e := congrArg Prod.snd hp; clear hp; dsimp only at e; subst e)
      | (rename (_ = ((_ : State), _)) => hp; have e := congrArg Prod.fst hp; clear hp; dsimp only at e; subst e)

/-! Machine/SyncOps.lean -/

theorem updSyn_keeps {m : Part} {a : State} (a0 : Sync → Sync) (s : State) (h0 : m.syn = true) (h : Keeps m a s) :
    Keeps m a (updSyn a0 s) := by
  unfold updSyn
  repeat' with_reducible first | assumption | apply State.setSyn_keeps

theorem updObj_keeps {m : Part} {a : State} (a0 : Nat) (a1 : SyncObj → SyncObj) (s : State) (h0 : m.syn = true) (h : Keeps m a
    s) :
    Keeps m a (updObj a0 a1 s) := by
  unfold updObj
  repeat' with_reducible first | assumption | apply updSyn_keeps

theorem failStep_keeps {m : Part} {a : State} (a0 : Nat) (a1 : Status) (s : State) (h0 : m.srv = true) (h : Keeps m a s) :
    Keeps m a (failStep a0 a1 s) := by
  unfold failStep
  repeat' with_reducible first | assumption | apply updStep_keeps

theorem orphan_keeps {m : Part} {a : State} (a0 : Nat) (a1 : Nat) (a2 : Nat) (s : State) (h0 : m.evr = true) (h1 : m.srv = true)
    (h2 : m.syn = true) (h3 : m.out = true) (h : Keeps m a s) :
    Keeps m a (orphan a0 a1 a2 s) := by
  unfold orphan
  repeat' first
      | with_reducible first
          | assumption | apply updObj_keeps | apply updSrv_keeps | apply failStep_keeps | apply post_keeps | apply keeps_foldl
          | exact tabWf_map _ _ (fun _ => rfl) ‹_›
      | intro _
      | split
      | (dsimp only)

theorem orphanHoldings_keeps {m : Part} {a : State} (a0 : Nat) (a1 : Nat) (s : State) (h0 : m.evr = true) (h1 : m.srv = true)
    (h2 : m.syn = true) (h3 : m.out = true) (h : Keeps m a s) :
    Keeps m a (orphanHoldings a0 a1 s) := by
  unfold orphanHoldings
  repeat' first
      | with_reducible first | assumption | apply updCtx_keeps | apply orphan_keeps | apply keeps_foldl
      | intro _

theorem timingChoice_keeps {m : Part} {a : State} (a0 : Nat) (s : State) (h0 : m.srv = true) (h : Keeps m a s) :
    Keeps m a (timingChoice a0 s) := by
  unfold timingChoice
  repeat' first
      | with_reducible first | assumption | apply updCtx_keeps
      | split

theorem setHolding_keeps {m : Part} {a : State} (a0 : Nat) (a1 : Nat) (a2 : Option Nat) (s : State) (h0 : m.srv = true) (h :
    Keeps m a s) :
    Keeps m a (setHolding a0 a1 a2 s) := by
  unfold setHolding
  repeat' with_reducible first | assumption | apply updCtx_keeps

theorem takeGrant_keeps {m : Part} {a : State} (a0 : Nat) (a1 : Waiter) (s : State) (h0 : m.srv = true) (h1 : m.syn = true) (h :
    Keeps m a s) :
    Keeps m a (takeGrant a0 a1 s) := by
  unfold takeGrant
  repeat' first
      | with_reducible first | assumption | apply updObj_keeps | apply failStep_keeps | apply setHolding_keeps
      | split

theorem waitOver_keeps {m : Part} {a : State} (a0 : Nat) (a1 : Nat) (s : State) (h0 : m.srv = true) (h : Keeps m a s) :
    Keeps m a (waitOver a0 a1 s) := by
  unfold waitOver
  repeat' with_reducible first | assumption | apply updMicro_keeps

theorem grantLoop_keeps {m : Part} {a : State} (a0 : Nat) (a1 : Nat) (s : State) (h0 : m.srv = true) (h1 : m.syn = true) (h :
    Keeps m a s) :
    Keeps m a (grantLoop a0 a1 s) := by
  induction a1 generalizing  s with
  | zero =>
    unfold grantLoop
    repeat' first
      | with_reducible first
          | assumption | apply timingChoice_keeps | apply updObj_keeps | apply takeGrant_keeps | apply waitOver_keeps
          | apply keeps_foldl | apply keeps_ite | apply keeps_ite_fst | apply keeps_ite_snd | exact tabWf_mod _ _ _ ‹_›
          | exact tabWf_put _ _ _ ‹_› | exact tabWf_del _ _ ‹_› | exact tabWf_map _ _ (fun _ => rfl) ‹_› | exact fun _ h => h
          | exact fun h => h
      | intro _
      | split
      | (dsimp only)
      | (rename (_ = (_, (_ : State))) => hp; have e := congrArg Prod.snd hp; clear hp; dsimp only at e; subst e)
      | (rename (_ = ((_ : State), _)) => hp; have e := congrArg Prod.fst hp; clear hp; dsimp only at e; subst e)
  | succ _ ih =>
    unfold grantLoop
    repeat' first
      | with_reducible first
          | assumption | apply ih | apply timingChoice_keeps | apply updObj_keeps | apply takeGrant_keeps
          | apply waitOver_keeps | apply keeps_foldl | apply keeps_ite | apply keeps_ite_fst | apply keeps_ite_snd
          | exact tabWf_mod _ _ _ ‹_› | exact tabWf_put _ _ _ ‹_› | exact tabWf_del _ _ ‹_›
          | exact tabWf_map _ _ (fun _ => rfl) ‹_› | exact fun _ h => h | exact fun h => h
      | intro _
      | split
      | (dsimp only)
      | (rename (_ = (_, (_ : State))) => hp; have e := congrArg Prod.snd hp; clear hp; dsimp only at e; subst e)
      | (rename (_ = ((_ : State), _)) => hp; have e := congrArg Prod.fst hp; clear hp; dsimp only at e; subst e)

theorem grant_keeps {m : Part} {a : State} (a0 : Nat) (s : State) (h0 : m.srv = true) (h1 : m.syn = true) (h : Keeps m a s) :
    Keeps m a (grant a0 s) := by
  unfold grant
  repeat' with_reducible first | assumption | apply grantLoop_keeps

theorem leaveLists_keeps {m : Part} {a : State} (a0 : Nat) (s : State) (h0 : m.srv = true) (h1 : m.syn = true) (h : Keeps m a
    s) :
    Keeps m a (leaveLists a0 s) := by
  unfold leaveLists
  repeat' first
      | with_reducible first | assumption | apply updSyn_keeps | apply grant_keeps | apply keeps_foldl
      | intro _

theorem boundary_keeps {m : Part} {a : State} (a0 : Nat) (s : State) (h0 : m.evr = true) (h1 : m.grd = true) (h2 : m.srv = true)
    (h3 : m.out = true) (h : Keeps m a s) :
    Keeps m a (boundary a0 s) := by
  unfold boundary
  repeat' first
      | with_reducible first | assumption | apply updCtx_keeps | apply ctxTo_keeps | apply evictNow_keeps
      | split
      | (dsimp only)

theorem freeContention_keeps {m : Part} {a : State} (a0 : Nat) (s : State) (h0 : m.syn = true) (h : Keeps m a s) :
    Keeps m a (freeContention a0 s) := by
  unfold freeContention
  repeat' with_reducible first | assumption | apply updSyn_keeps

theorem closeStep_keeps {m : Part} {a : State} (a0 : Nat) (a1 : Status) (a2 : Nat) (s : State) (h0 : m.evr = true) (h1 : m.rings
    = true) (h2 : m.mem = true) (h3 : m.grd = true) (h4 : m.srv = true) (h5 : m.syn = true) (h6 : m.out = true) (h : Keeps m a
    s) :
    Keeps m a (closeStep a0 a1 a2 s) := by
  unfold closeStep
  repeat' first
      | with_reducible first
          | assumption | apply updCtx_keeps | apply boundary_keeps | apply stampHead_keeps | apply emitDone_keeps
          | apply freeContention_keeps | apply clearArith_keeps
      | split
      | (dsimp only)

theorem forget_keeps {m : Part} {a : State} (a0 : Nat) (a1 : Nat) (s : State) (h0 : m.mem = true) (h1 : m.fresh = true) (h :
    Keeps m a s) :
    Keeps m a (forget a0 a1 s) := by
  unfold forget
  repeat' first
      | with_reducible first
          | assumption | apply State.setFresh_keeps | apply State.setMem_keeps | apply keeps_foldl | apply keeps_ite
          | apply keeps_ite_fst | apply keeps_ite_snd | exact memWf_writeBytes _ _ _ ‹_› | exact memWf_zero _ _ _ ‹_›
          | exact memWf_nil | exact memWf_forget _ _ _ _ ‹_› | exact fun _ h => h | exact fun h => h
      | intro _
      | split
      | (dsimp only)
      | (rename (_ = (_, (_ : State))) => hp; have e := congrArg Prod.snd hp; clear hp; dsimp only at e; subst e)
      | (rename (_ = ((_ : State), _)) => hp; have e := congrArg Prod.fst hp; clear hp; dsimp only at e; subst e)

theorem loseWork_keeps {m : Part} {a : State} (a0 : Nat) (s : State) (h0 : m.mem = true) (h1 : m.fresh = true) (h : Keeps m a
    s) :
    Keeps m a (loseWork a0 s) := by
  unfold loseWork
  repeat' first
      | with_reducible first
          | assumption | apply forget_keeps | apply keeps_foldl | apply keeps_ite | apply keeps_ite_fst | apply keeps_ite_snd
          | exact memWf_writeBytes _ _ _ ‹_› | exact memWf_zero _ _ _ ‹_› | exact memWf_nil | exact memWf_forget _ _ _ _ ‹_›
          | exact fun _ h => h | exact fun h => h
      | intro _
      | split
      | (dsimp only)
      | (rename (_ = (_, (_ : State))) => hp; have e := congrArg Prod.snd hp; clear hp; dsimp only at e; subst e)
      | (rename (_ = ((_ : State), _)) => hp; have e := congrArg Prod.fst hp; clear hp; dsimp only at e; subst e)

theorem endOne_keeps {m : Part} {a : State} (a0 : Nat) (a1 : Status) (a2 : Nat) (a3 : Bool) (s : State) (h0 : m.evr = true)
    (h1 : m.rings = true) (h2 : m.mem = true) (h3 : m.grd = true) (h4 : m.tts = true) (h5 : m.srv = true) (h6 : m.fab = true)
    (h7 : m.syn = true) (h8 : m.hlt = true) (h9 : m.tiles = true) (h10 : m.out = true) (h11 : m.fresh = true) (h : Keeps m a
    s) :
    Keeps m a (endOne a0 a1 a2 a3 s) := by
  unfold endOne
  repeat' first
      | with_reducible first
          | assumption | apply squashAll_keeps | apply orphanHoldings_keeps | apply leaveLists_keeps | apply updCtx_keeps
          | apply closeStep_keeps | apply loseWork_keeps | apply keeps_foldl | apply keeps_ite | apply keeps_ite_fst
          | apply keeps_ite_snd | exact memWf_writeBytes _ _ _ ‹_› | exact memWf_zero _ _ _ ‹_› | exact memWf_nil
          | exact memWf_forget _ _ _ _ ‹_› | exact tabWf_mod _ _ _ ‹_› | exact tabWf_put _ _ _ ‹_› | exact tabWf_del _ _ ‹_›
          | exact tabWf_map _ _ (fun _ => rfl) ‹_› | exact fun _ h => h | exact fun h => h
      | intro _
      | split
      | (dsimp only)
      | (rename (_ = (_, (_ : State))) => hp; have e := congrArg Prod.snd hp; clear hp; dsimp only at e; subst e)
      | (rename (_ = ((_ : State), _)) => hp; have e := congrArg Prod.fst hp; clear hp; dsimp only at e; subst e)

theorem drainEnding_keeps {m : Part} {a : State} (a0 : Nat) (s : State) (h0 : m.evr = true) (h1 : m.rings = true) (h2 : m.mem =
    true) (h3 : m.grd = true) (h4 : m.tts = true) (h5 : m.srv = true) (h6 : m.fab = true) (h7 : m.syn = true) (h8 : m.hlt =
    true) (h9 : m.tiles = true) (h10 : m.out = true) (h11 : m.fresh = true) (h : Keeps m a s) :
    Keeps m a (drainEnding a0 s) := by
  induction a0 generalizing  s with
  | zero =>
    unfold drainEnding
    repeat' first
      | with_reducible first
          | assumption | apply endOne_keeps | apply keeps_foldl | apply keeps_ite | apply keeps_ite_fst | apply keeps_ite_snd
          | exact memWf_writeBytes _ _ _ ‹_› | exact memWf_zero _ _ _ ‹_› | exact memWf_nil | exact memWf_forget _ _ _ _ ‹_›
          | exact tabWf_mod _ _ _ ‹_› | exact tabWf_put _ _ _ ‹_› | exact tabWf_del _ _ ‹_›
          | exact tabWf_map _ _ (fun _ => rfl) ‹_› | exact fun _ h => h | exact fun h => h
      | intro _
      | split
      | (dsimp only)
      | (rename (_ = (_, (_ : State))) => hp; have e := congrArg Prod.snd hp; clear hp; dsimp only at e; subst e)
      | (rename (_ = ((_ : State), _)) => hp; have e := congrArg Prod.fst hp; clear hp; dsimp only at e; subst e)
  | succ _ ih =>
    unfold drainEnding
    repeat' first
      | with_reducible first
          | assumption | apply ih | apply endOne_keeps | apply keeps_foldl | apply keeps_ite | apply keeps_ite_fst
          | apply keeps_ite_snd | exact memWf_writeBytes _ _ _ ‹_› | exact memWf_zero _ _ _ ‹_› | exact memWf_nil
          | exact memWf_forget _ _ _ _ ‹_› | exact tabWf_mod _ _ _ ‹_› | exact tabWf_put _ _ _ ‹_› | exact tabWf_del _ _ ‹_›
          | exact tabWf_map _ _ (fun _ => rfl) ‹_› | exact fun _ h => h | exact fun h => h
      | intro _
      | split
      | (dsimp only)
      | (rename (_ = (_, (_ : State))) => hp; have e := congrArg Prod.snd hp; clear hp; dsimp only at e; subst e)
      | (rename (_ = ((_ : State), _)) => hp; have e := congrArg Prod.fst hp; clear hp; dsimp only at e; subst e)

theorem settleSteps_keeps {m : Part} {a : State} (s : State) (h0 : m.ops = true) (h1 : m.evr = true) (h2 : m.rings = true) (h3 :
    m.mem = true) (h4 : m.grd = true) (h5 : m.tts = true) (h6 : m.srv = true) (h7 : m.fab = true) (h8 : m.syn = true) (h9 :
    m.hlt = true) (h10 : m.tiles = true) (h11 : m.out = true) (h12 : m.fresh = true) (h : Keeps m a s) :
    Keeps m a (settleSteps s) := by
  unfold settleSteps
  repeat' with_reducible first | assumption | apply drainEnding_keeps | apply serve_keeps

theorem orphanOwner_keeps {m : Part} {a : State} (a0 : Nat) (s : State) (h0 : m.ops = true) (h1 : m.evr = true) (h2 : m.rings =
    true) (h3 : m.mem = true) (h4 : m.grd = true) (h5 : m.tts = true) (h6 : m.srv = true) (h7 : m.fab = true) (h8 : m.syn =
    true) (h9 : m.hlt = true) (h10 : m.tiles = true) (h11 : m.out = true) (h12 : m.fresh = true) (h : Keeps m a s) :
    Keeps m a (orphanOwner a0 s) := by
  unfold orphanOwner
  repeat' with_reducible first | assumption | apply orphanHoldings_keeps | apply leaveLists_keeps | apply settleSteps_keeps

theorem endStep_keeps {m : Part} {a : State} (a0 : Nat) (a1 : Status) (a2 : Bool) (s : State) (h0 : m.ops = true) (h1 : m.evr =
    true) (h2 : m.rings = true) (h3 : m.mem = true) (h4 : m.grd = true) (h5 : m.tts = true) (h6 : m.srv = true) (h7 : m.fab =
    true) (h8 : m.syn = true) (h9 : m.hlt = true) (h10 : m.tiles = true) (h11 : m.out = true) (h12 : m.fresh = true) (h :
    Keeps m a s) :
    Keeps m a (endStep a0 a1 a2 s) := by
  unfold endStep
  repeat' with_reducible first | assumption | apply endOne_keeps | apply settleSteps_keeps

theorem arriveAt_keeps {m : Part} {a : State} (a0 : Nat) (s : State) (h0 : m.srv = true) (h1 : m.syn = true) (h : Keeps m a s) :
    Keeps m a (arriveAt a0 s).1 := by
  unfold arriveAt
  repeat' first
      | with_reducible first | assumption | apply updObj_keeps | apply grant_keeps
      | split
      | (dsimp only)

theorem applyNow_keeps {m : Part} {a : State} (a0 : Nat) (a1 : Nat) (a2 : Nat) (a3 : Nat) (s : State) (h0 : m.srv = true) (h1 :
    m.syn = true) (h : Keeps m a s) :
    Keeps m a (applyNow a0 a1 a2 a3 s).1 := by
  unfold applyNow
  repeat' first
      | with_reducible first
          | assumption | apply updObj_keeps | apply arriveAt_keeps | apply setHolding_keeps | apply grant_keeps
          | apply keeps_ite_fst
      | intro _

theorem contend_keeps {m : Part} {a : State} (a0 : Nat) (a1 : Nat) (a2 : Nat) (s : State) (h0 : m.srv = true) (h1 : m.syn =
    true) (h : Keeps m a s) :
    Keeps m a (contend a0 a1 a2 s) := by
  unfold contend
  repeat' first
      | with_reducible first | assumption | apply timingChoice_keeps | apply updSyn_keeps
      | split
      | (dsimp only)

theorem enqueueWait_keeps {m : Part} {a : State} (a0 : Nat) (a1 : Waiter) (s : State) (h0 : m.srv = true) (h1 : m.syn = true)
    (h : Keeps m a s) :
    Keeps m a (enqueueWait a0 a1 s).1 := by
  unfold enqueueWait
  repeat' first
      | with_reducible first | assumption | apply updObj_keeps | apply takeGrant_keeps | apply updMicro_keeps
      | split
      | (dsimp only)

theorem applyDesc_keeps {m : Part} {a : State} (a0 : Nat) (a1 : Nat) (a2 : SyncDesc) (s : State) (h0 : m.srv = true) (h1 : m.syn
    = true) (h : Keeps m a s) :
    Keeps m a (applyDesc a0 a1 a2 s).1 := by
  unfold applyDesc
  repeat' first
      | with_reducible first | assumption | apply enqueueWait_keeps | apply applyNow_keeps | apply keeps_ite_fst
      | intro _
      | split

theorem applyList_keeps {m : Part} {a : State} (a0 : Nat) (a1 : Nat) (a2 : List SyncDesc) (s : State) (h0 : m.srv = true) (h1 :
    m.syn = true) (h : Keeps m a s) :
    Keeps m a (applyList a0 a1 a2 s).1 := by
  induction a2 generalizing  s with
  | nil =>
    unfold applyList
    repeat' first
      | with_reducible first
          | assumption | apply applyDesc_keeps | apply keeps_foldl | apply keeps_ite | apply keeps_ite_fst
          | apply keeps_ite_snd | exact tabWf_mod _ _ _ ‹_› | exact tabWf_put _ _ _ ‹_› | exact tabWf_del _ _ ‹_›
          | exact tabWf_map _ _ (fun _ => rfl) ‹_› | exact fun _ h => h | exact fun h => h
      | intro _
      | split
      | (dsimp only)
      | (rename (_ = (_, (_ : State))) => hp; have e := congrArg Prod.snd hp; clear hp; dsimp only at e; subst e)
      | (rename (_ = ((_ : State), _)) => hp; have e := congrArg Prod.fst hp; clear hp; dsimp only at e; subst e)
  | cons _ _ ih =>
    unfold applyList
    repeat' first
      | with_reducible first
          | assumption | apply ih | apply applyDesc_keeps | apply keeps_foldl | apply keeps_ite | apply keeps_ite_fst
          | apply keeps_ite_snd | exact tabWf_mod _ _ _ ‹_› | exact tabWf_put _ _ _ ‹_› | exact tabWf_del _ _ ‹_›
          | exact tabWf_map _ _ (fun _ => rfl) ‹_› | exact fun _ h => h | exact fun h => h
      | intro _
      | split
      | (dsimp only)
      | (rename (_ = (_, (_ : State))) => hp; have e := congrArg Prod.snd hp; clear hp; dsimp only at e; subst e)
      | (rename (_ = ((_ : State), _)) => hp; have e := congrArg Prod.fst hp; clear hp; dsimp only at e; subst e)

/-! Machine/Time.lean -/

theorem updPps_keeps {m : Part} {a : State} (a0 : Pps → Pps) (s : State) (h0 : m.pps = true) (h : Keeps m a s) :
    Keeps m a (updPps a0 s) := by
  unfold updPps
  repeat' with_reducible first | assumption | apply State.setPps_keeps

theorem snapshot_keeps {m : Part} {a : State} (s : State) (h0 : m.win = true) (h : Keeps m a s) :
    Keeps m a (snapshot s) := by
  unfold snapshot
  repeat' with_reducible first | assumption | apply State.setWin_keeps

theorem freeRead_keeps {m : Part} {a : State} (a0 : Bool) (s : State) (h0 : m.win = true) (h : Keeps m a s) :
    Keeps m a (freeRead a0 s) := by
  unfold freeRead
  repeat' first
      | with_reducible first | assumption | apply State.setWin_keeps | apply snapshot_keeps
      | split

theorem lowHalfRead_keeps {m : Part} {a : State} (a0 : Nat) (s : State) (h0 : m.win = true) (h : Keeps m a s) :
    Keeps m a (lowHalfRead a0 s) := by
  unfold lowHalfRead
  repeat' first
      | with_reducible first | assumption | apply State.setWin_keeps | apply freeRead_keeps
      | split

theorem updTmb_keeps {m : Part} {a : State} (a0 : Timebase → Timebase) (s : State) (h0 : m.tmb = true) (h : Keeps m a s) :
    Keeps m a (updTmb a0 s) := by
  unfold updTmb
  repeat' with_reducible first | assumption | apply State.setTmb_keeps

theorem ppsOutFall_keeps {m : Part} {a : State} (s : State) (h0 : m.pps = true) (h1 : m.out = true) (h : Keeps m a s) :
    Keeps m a (ppsOutFall s) := by
  unfold ppsOutFall
  repeat' first
      | with_reducible first | assumption | apply emit_keeps | apply updPps_keeps
      | split

theorem execPpsOutFall_keeps {m : Part} {a : State} (s : State) (h0 : m.pps = true) (h1 : m.out = true) (h : Keeps m a s) :
    KeepsO m a (execPpsOutFall s) := by
  unfold execPpsOutFall
  repeat' with_reducible first | assumption | apply ppsOutFall_keeps | apply run_keeps

theorem servoTo_keeps {m : Part} {a : State} (a0 : ServoState) (s : State) (h0 : m.evr = true) (h1 : m.tmb = true) (h2 : m.fab =
    true) (h3 : m.out = true) (h : Keeps m a s) :
    Keeps m a (servoTo a0 s) := by
  unfold servoTo
  repeat' first
      | with_reducible first | assumption | apply updTmb_keeps | apply State.setFab_keeps | apply post_keeps
      | split
      | (dsimp only)

theorem servoTransition_keeps {m : Part} {a : State} (a0 : Int) (s : State) (h0 : m.evr = true) (h1 : m.tmb = true) (h2 : m.fab
    = true) (h3 : m.out = true) (h : Keeps m a s) :
    Keeps m a (servoTransition a0 s) := by
  unfold servoTransition
  repeat' first
      | with_reducible first | assumption | apply updTmb_keeps | apply servoTo_keeps
      | split
      | (dsimp only)

theorem servoInput_keeps {m : Part} {a : State} (a0 : Int) (a1 : Tick) (s : State) (h0 : m.evr = true) (h1 : m.tmb = true) (h2 :
    m.pps = true) (h3 : m.fab = true) (h4 : m.out = true) (h : Keeps m a s) :
    Keeps m a (servoInput a0 a1 s) := by
  unfold servoInput
  repeat' first
      | with_reducible first | assumption | apply servoTransition_keeps | apply updTmb_keeps | apply updPps_keeps
      | split
      | (dsimp only)

theorem ppsInEdge_keeps {m : Part} {a : State} (s : State) (h0 : m.evr = true) (h1 : m.tmb = true) (h2 : m.pps = true) (h3 :
    m.fab = true) (h4 : m.out = true) (h : Keeps m a s) :
    Keeps m a (ppsInEdge s) := by
  unfold ppsInEdge
  repeat' first
      | with_reducible first | assumption | apply servoInput_keeps | apply updPps_keeps
      | split
      | (dsimp only)

theorem execPpsInEdge_keeps {m : Part} {a : State} (s : State) (h0 : m.evr = true) (h1 : m.tmb = true) (h2 : m.pps = true) (h3 :
    m.fab = true) (h4 : m.out = true) (h : Keeps m a s) :
    KeepsO m a (execPpsInEdge s) := by
  unfold execPpsInEdge
  repeat' with_reducible first | assumption | apply ppsInEdge_keeps | apply run_keeps

theorem ppsConfigBody_keeps {m : Part} {a : State} (a0 : Req) (s : State) (h0 : m.pps = true) (h : Keeps m a s) :
    Keeps m a (ppsConfigBody a0 s).1 := by
  unfold ppsConfigBody
  repeat' first
      | with_reducible first | assumption | apply failed_keeps | apply updPps_keeps
      | split
      | (dsimp only)

theorem execPpsConfig_keeps {m : Part} {a : State} (a0 : Nat) (s : State) (h0 : m.mbx = true) (h1 : m.evr = true) (h2 : m.pps =
    true) (h3 : m.out = true) (h : Keeps m a s) :
    KeepsO m a (execPpsConfig a0 s) := by
  unfold execPpsConfig
  repeat' first
      | with_reducible first | assumption | apply runCommand_keeps | apply run_keeps | apply ppsConfigBody_keeps
      | intro _

theorem execServoInput_keeps {m : Part} {a : State} (a0 : Int) (a1 : Tick) (s : State) (h0 : m.evr = true) (h1 : m.tmb = true)
    (h2 : m.pps = true) (h3 : m.fab = true) (h4 : m.out = true) (h : Keeps m a s) :
    KeepsO m a (execServoInput a0 a1 s) := by
  unfold execServoInput
  repeat' with_reducible first | assumption | apply servoInput_keeps | apply run_keeps

theorem ppsMissed_keeps {m : Part} {a : State} (s : State) (h0 : m.pps = true) (h : Keeps m a s) :
    Keeps m a (ppsMissed s) := by
  unfold ppsMissed
  repeat' first
      | with_reducible first | assumption | apply updPps_keeps
      | split

theorem ppsOutRise_keeps {m : Part} {a : State} (s : State) (h0 : m.pps = true) (h1 : m.out = true) (h : Keeps m a s) :
    Keeps m a (ppsOutRise s) := by
  unfold ppsOutRise
  repeat' first
      | with_reducible first | assumption | apply emit_keeps | apply updPps_keeps
      | split

theorem execPpsOutRise_keeps {m : Part} {a : State} (s : State) (h0 : m.pps = true) (h1 : m.out = true) (h : Keeps m a s) :
    KeepsO m a (execPpsOutRise s) := by
  unfold execPpsOutRise
  repeat' with_reducible first | assumption | apply ppsOutRise_keeps | apply run_keeps

theorem noonListBody_keeps {m : Part} {a : State} (a0 : Req) (s : State) (h : Keeps m a s) :
    Keeps m a (noonListBody a0 s).1 := by
  unfold noonListBody
  repeat' with_reducible assumption

theorem timeStepBody_keeps {m : Part} {a : State} (a0 : Req) (s : State) (h0 : m.tmb = true) (h : Keeps m a s) :
    Keeps m a (timeStepBody a0 s).1 := by
  unfold timeStepBody
  repeat' first
      | with_reducible first | assumption | apply failed_keeps | apply updTmb_keeps
      | split

theorem refLost_keeps {m : Part} {a : State} (s : State) (h0 : m.evr = true) (h1 : m.tmb = true) (h2 : m.hlt = true) (h3 : m.out
    = true) (h : Keeps m a s) :
    Keeps m a (refLost s) := by
  unfold refLost
  repeat' first
      | with_reducible first | assumption | apply updTmb_keeps | apply post_keeps | apply healthAdd_keeps
      | split

theorem timeReadBody_keeps {m : Part} {a : State} (a0 : Req) (s : State) (h0 : m.win = true) (h : Keeps m a s) :
    Keeps m a (timeReadBody a0 s).1 := by
  unfold timeReadBody
  repeat' with_reducible first | assumption | apply snapshot_keeps

theorem execNoonList_keeps {m : Part} {a : State} (a0 : Nat) (s : State) (h0 : m.mbx = true) (h1 : m.evr = true) (h2 : m.out =
    true) (h : Keeps m a s) :
    KeepsO m a (execNoonList a0 s) := by
  unfold execNoonList
  repeat' with_reducible first | assumption | apply runCommand_keeps | apply noonListBody_keeps | apply run_keeps

theorem timeSourceBody_keeps {m : Part} {a : State} (a0 : Req) (s : State) (h0 : m.evr = true) (h1 : m.tmb = true) (h2 : m.pps =
    true) (h3 : m.fab = true) (h4 : m.out = true) (h : Keeps m a s) :
    Keeps m a (timeSourceBody a0 s).1 := by
  unfold timeSourceBody
  repeat' first
      | with_reducible first
          | assumption | apply failed_keeps | apply updTmb_keeps | apply servoTo_keeps | apply updPps_keeps
      | split
      | (dsimp only)

theorem execTimeSource_keeps {m : Part} {a : State} (a0 : Nat) (s : State) (h0 : m.mbx = true) (h1 : m.evr = true) (h2 : m.tmb =
    true) (h3 : m.pps = true) (h4 : m.fab = true) (h5 : m.out = true) (h : Keeps m a s) :
    KeepsO m a (execTimeSource a0 s) := by
  unfold execTimeSource
  repeat' first
      | with_reducible first | assumption | apply timeSourceBody_keeps | apply runCommand_keeps | apply run_keeps
      | intro _

theorem servoConfigBody_keeps {m : Part} {a : State} (a0 : Req) (s : State) (h0 : m.tmb = true) (h : Keeps m a s) :
    Keeps m a (servoConfigBody a0 s).1 := by
  unfold servoConfigBody
  repeat' first
      | with_reducible first | assumption | apply failed_keeps | apply updTmb_keeps
      | split
      | (dsimp only)

theorem holdoverStart_keeps {m : Part} {a : State} (s : State) (h0 : m.evr = true) (h1 : m.tmb = true) (h2 : m.fab = true) (h3 :
    m.out = true) (h : Keeps m a s) :
    Keeps m a (holdoverStart s) := by
  unfold holdoverStart
  repeat' first
      | with_reducible first | assumption | apply servoTo_keeps
      | split

theorem frameConfigBody_keeps {m : Part} {a : State} (a0 : Req) (s : State) (h0 : m.win = true) (h : Keeps m a s) :
    Keeps m a (frameConfigBody a0 s).1 := by
  unfold frameConfigBody
  repeat' first
      | with_reducible first | assumption | apply failed_keeps | apply State.setWin_keeps
      | split
      | (dsimp only)

theorem execFrameConfig_keeps {m : Part} {a : State} (a0 : Nat) (s : State) (h0 : m.mbx = true) (h1 : m.evr = true) (h2 : m.win
    = true) (h3 : m.out = true) (h : Keeps m a s) :
    KeepsO m a (execFrameConfig a0 s) := by
  unfold execFrameConfig
  repeat' first
      | with_reducible first | assumption | apply runCommand_keeps | apply frameConfigBody_keeps | apply run_keeps
      | intro _

theorem holdoverLimit_keeps {m : Part} {a : State} (s : State) (h0 : m.evr = true) (h1 : m.tmb = true) (h2 : m.fab = true) (h3 :
    m.out = true) (h : Keeps m a s) :
    Keeps m a (holdoverLimit s) := by
  unfold holdoverLimit
  repeat' first
      | with_reducible first | assumption | apply servoTo_keeps
      | split

theorem execPpsMissed_keeps {m : Part} {a : State} (s : State) (h0 : m.pps = true) (h : Keeps m a s) :
    KeepsO m a (execPpsMissed s) := by
  unfold execPpsMissed
  repeat' with_reducible first | assumption | apply ppsMissed_keeps | apply run_keeps

theorem execTimeServoConfig_keeps {m : Part} {a : State} (a0 : Nat) (s : State) (h0 : m.mbx = true) (h1 : m.evr = true) (h2 :
    m.tmb = true) (h3 : m.out = true) (h : Keeps m a s) :
    KeepsO m a (execTimeServoConfig a0 s) := by
  unfold execTimeServoConfig
  repeat' first
      | with_reducible first | assumption | apply runCommand_keeps | apply servoConfigBody_keeps | apply run_keeps
      | intro _

theorem execHoldoverStart_keeps {m : Part} {a : State} (s : State) (h0 : m.evr = true) (h1 : m.tmb = true) (h2 : m.fab = true)
    (h3 : m.out = true) (h : Keeps m a s) :
    KeepsO m a (execHoldoverStart s) := by
  unfold execHoldoverStart
  repeat' with_reducible first | assumption | apply holdoverStart_keeps | apply run_keeps

theorem execTimeStep_keeps {m : Part} {a : State} (a0 : Nat) (s : State) (h0 : m.mbx = true) (h1 : m.evr = true) (h2 : m.tmb =
    true) (h3 : m.out = true) (h : Keeps m a s) :
    KeepsO m a (execTimeStep a0 s) := by
  unfold execTimeStep
  repeat' first
      | with_reducible first | assumption | apply runCommand_keeps | apply timeStepBody_keeps | apply run_keeps
      | intro _

theorem execHoldoverLimit_keeps {m : Part} {a : State} (s : State) (h0 : m.evr = true) (h1 : m.tmb = true) (h2 : m.fab = true)
    (h3 : m.out = true) (h : Keeps m a s) :
    KeepsO m a (execHoldoverLimit s) := by
  unfold execHoldoverLimit
  repeat' with_reducible first | assumption | apply run_keeps | apply holdoverLimit_keeps

theorem execFreeRead_keeps {m : Part} {a : State} (a0 : Bool) (s : State) (h0 : m.win = true) (h : Keeps m a s) :
    KeepsO m a (execFreeRead a0 s) := by
  unfold execFreeRead
  repeat' with_reducible first | assumption | apply freeRead_keeps | apply run_keeps

theorem execTimeRead_keeps {m : Part} {a : State} (a0 : Nat) (s : State) (h0 : m.mbx = true) (h1 : m.evr = true) (h2 : m.win =
    true) (h3 : m.out = true) (h : Keeps m a s) :
    KeepsO m a (execTimeRead a0 s) := by
  unfold execTimeRead
  repeat' first
      | with_reducible first | assumption | apply runCommand_keeps | apply timeReadBody_keeps | apply run_keeps
      | intro _

theorem execRefLost_keeps {m : Part} {a : State} (s : State) (h0 : m.evr = true) (h1 : m.tmb = true) (h2 : m.hlt = true) (h3 :
    m.out = true) (h : Keeps m a s) :
    KeepsO m a (execRefLost s) := by
  unfold execRefLost
  repeat' with_reducible first | assumption | apply refLost_keeps | apply run_keeps

theorem execLowHalfRead_keeps {m : Part} {a : State} (a0 : Nat) (s : State) (h0 : m.win = true) (h : Keeps m a s) :
    KeepsO m a (execLowHalfRead a0 s) := by
  unfold execLowHalfRead
  repeat' with_reducible first | assumption | apply lowHalfRead_keeps | apply run_keeps

/-! Machine/TableOps.lean -/

theorem updResv_keeps {m : Part} {a : State} (a0 : Nat) (a1 : Nat) (a2 : Nat) (a3 : Reservation → Reservation) (s : State) (h0 :
    m.tts = true) (h : Keeps m a s) :
    Keeps m a (updResv a0 a1 a2 a3 s) := by
  unfold updResv
  repeat' with_reducible first | assumption | apply updTts_keeps

theorem markFailed_keeps {m : Part} {a : State} (a0 : Nat) (a1 : Nat) (a2 : Nat) (s : State) (h0 : m.cde = true) (h1 : m.fresh =
    true) (h : Keeps m a s) :
    Keeps m a (markFailed a0 a1 a2 s) := by
  unfold markFailed
  repeat' with_reducible first | assumption | apply State.setCde_keeps | apply drawFree_keeps

theorem failStage_keeps {m : Part} {a : State} (a0 : Nat) (a1 : Nat) (a2 : Nat) (a3 : Nat) (a4 : Nat) (s : State) (h0 : m.grd =
    true) (h1 : m.tts = true) (h2 : m.tiles = true) (h3 : m.cde = true) (h4 : m.fresh = true) (h : Keeps m a s) :
    Keeps m a (failStage a0 a1 a2 a3 a4 s) := by
  unfold failStage
  repeat' first
      | with_reducible first | assumption | apply updResv_keeps | apply clearUnits_keeps | apply markFailed_keeps
      | split

theorem updTable_keeps {m : Part} {a : State} (a0 : Nat) (a1 : FrameTable → FrameTable) (s : State) (h0 : m.tts = true) (h :
    Keeps m a s) :
    Keeps m a (updTable a0 a1 s) := by
  unfold updTable
  repeat' with_reducible first | assumption | apply updTts_keeps

theorem updPwr_keeps {m : Part} {a : State} (a0 : Power → Power) (s : State) (h0 : m.pwr = true) (h : Keeps m a s) :
    Keeps m a (updPwr a0 s) := by
  unfold updPwr
  repeat' with_reducible first | assumption | apply State.setPwr_keeps

theorem tableTo_keeps {m : Part} {a : State} (a0 : Nat) (a1 : TableState) (a2 : Nat) (s : State) (h0 : m.evr = true) (h1 : m.tts
    = true) (h2 : m.out = true) (h : Keeps m a s) :
    Keeps m a (tableTo a0 a1 a2 s) := by
  unfold tableTo
  repeat' first
      | with_reducible first | assumption | apply updTable_keeps | apply post_keeps
      | split
      | (dsimp only)

theorem stopItem_keeps {m : Part} {a : State} (a0 : Nat) (s : State) (h0 : m.grd = true) (h1 : m.tiles = true) (h2 : m.pwr =
    true) (h : Keeps m a s) :
    Keeps m a (stopItem a0 s) := by
  unfold stopItem
  repeat' with_reducible first | assumption | apply clearUnits_keeps | apply updPwr_keeps

theorem radioPut_keeps {m : Part} {a : State} (a0 : Option Nat) (a1 : Nat) (a2 : List Byte) (s : State) (h0 : m.rings = true)
    (h1 : m.mem = true) (h2 : m.out = true) (h : Keeps m a s) :
    Keeps m a (radioPut a0 a1 a2 s) := by
  unfold radioPut
  repeat' first
      | with_reducible first | assumption | apply ringPut_keeps
      | split

theorem updInst_keeps {m : Part} {a : State} (a0 : Nat) (a1 : Nat) (a2 : Inst → Inst) (s : State) (h0 : m.tts = true) (h :
    Keeps m a s) :
    Keeps m a (updInst a0 a1 a2 s) := by
  unfold updInst
  repeat' with_reducible first | assumption | apply updTable_keeps

theorem slotReport_keeps {m : Part} {a : State} (a0 : Nat) (a1 : Nat) (s : State) (h0 : m.rings = true) (h1 : m.mem = true)
    (h2 : m.grd = true) (h3 : m.tts = true) (h4 : m.cde = true) (h5 : m.out = true) (h : Keeps m a s) :
    Keeps m a (slotReport a0 a1 s) := by
  unfold slotReport
  repeat' first
      | with_reducible first
          | assumption | apply radioPut_keeps | apply updInst_keeps | apply updTable_keeps | apply State.setCde_keeps
          | apply clearArith_keeps | apply keeps_foldl | apply keeps_ite | apply keeps_ite_fst | apply keeps_ite_snd
          | exact memWf_writeBytes _ _ _ ‹_› | exact memWf_zero _ _ _ ‹_› | exact memWf_nil | exact memWf_forget _ _ _ _ ‹_›
          | exact fun _ h => h | exact fun h => h
      | intro _
      | split
      | (dsimp only)
      | (rename (_ = (_, (_ : State))) => hp; have e := congrArg Prod.snd hp; clear hp; dsimp only at e; subst e)
      | (rename (_ = ((_ : State), _)) => hp; have e := congrArg Prod.fst hp; clear hp; dsimp only at e; subst e)

theorem addStage_keeps {m : Part} {a : State} (a0 : StageRec) (s : State) (h0 : m.tts = true) (h : Keeps m a s) :
    Keeps m a (addStage a0 s) := by
  unfold addStage
  repeat' with_reducible first | assumption | apply updTts_keeps

theorem refillReady_keeps {m : Part} {a : State} (a0 : List ReadyMicro) (s : State) (h0 : m.tts = true) (h : Keeps m a s) :
    Keeps m a (refillReady a0 s) := by
  induction a0 generalizing  s with
  | nil =>
    unfold refillReady
    repeat' first
      | with_reducible first
          | assumption | apply updTts_keeps | apply keeps_foldl | apply keeps_ite | apply keeps_ite_fst | apply keeps_ite_snd
          | exact fun _ h => h | exact fun h => h
      | intro _
      | split
      | (dsimp only)
      | (rename (_ = (_, (_ : State))) => hp; have e := congrArg Prod.snd hp; clear hp; dsimp only at e; subst e)
      | (rename (_ = ((_ : State), _)) => hp; have e := congrArg Prod.fst hp; clear hp; dsimp only at e; subst e)
  | cons _ _ ih =>
    unfold refillReady
    repeat' first
      | with_reducible first
          | assumption | apply ih | apply updTts_keeps | apply keeps_foldl | apply keeps_ite | apply keeps_ite_fst
          | apply keeps_ite_snd | exact fun _ h => h | exact fun h => h
      | intro _
      | split
      | (dsimp only)
      | (rename (_ = (_, (_ : State))) => hp; have e := congrArg Prod.snd hp; clear hp; dsimp only at e; subst e)
      | (rename (_ = ((_ : State), _)) => hp; have e := congrArg Prod.fst hp; clear hp; dsimp only at e; subst e)

theorem refill_keeps {m : Part} {a : State} (s : State) (h0 : m.tts = true) (h : Keeps m a s) :
    Keeps m a (refill s) := by
  unfold refill
  repeat' with_reducible first | assumption | apply refillReady_keeps

theorem addReady_keeps {m : Part} {a : State} (a0 : ReadyMicro) (s : State) (h0 : m.tts = true) (h1 : m.srv = true) (h :
    Keeps m a s) :
    Keeps m a (addReady a0 s) := by
  unfold addReady
  repeat' with_reducible first | assumption | apply refill_keeps | apply updMicro_keeps | apply updTts_keeps

theorem launchTile_keeps {m : Part} {a : State} (a0 : Nat) (a1 : TileHead) (s : State) (h0 : m.tiles = true) (h : Keeps m a s) :
    Keeps m a (launchTile a0 a1 s) := by
  unfold launchTile
  repeat' with_reducible first | assumption | apply State.setTiles_keeps

theorem startUnit_keeps {m : Part} {a : State} (a0 : Holder) (a1 : Nat) (a2 : Nat) (a3 : Nat) (a4 : Nat) (s : State) (a5 : Nat)
    (h0 : m.grd = true) (h1 : m.hlt = true) (h2 : m.tiles = true) (h : Keeps m a s) :
    Keeps m a (startUnit a0 a1 a2 a3 a4 s a5) := by
  unfold startUnit
  repeat' first
      | with_reducible first | assumption | apply launchTile_keeps | apply updUnit_keeps | apply progress_keeps
      | split

theorem launchLent_keeps {m : Part} {a : State} (a0 : ReadyMicro) (s : State) (h0 : m.grd = true) (h1 : m.tts = true) (h2 :
    m.srv = true) (h3 : m.hlt = true) (h4 : m.tiles = true) (h : Keeps m a s) :
    Keeps m a (launchLent a0 s) := by
  unfold launchLent
  repeat' first
      | with_reducible first
          | assumption | apply startUnit_keeps | apply updMicro_keeps | apply updStep_keeps | apply updTts_keeps
          | apply keeps_foldl
      | intro _

theorem slotUnfilled_keeps {m : Part} {a : State} (a0 : Nat) (a1 : Nat) (a2 : Nat) (s : State) (h0 : m.evr = true) (h1 : m.out =
    true) (h : Keeps m a s) :
    Keeps m a (slotUnfilled a0 a1 a2 s) := by
  unfold slotUnfilled
  repeat' with_reducible first | assumption | apply post_keeps

theorem fillIdle_keeps {m : Part} {a : State} (a0 : Nat) (a1 : Nat) (a2 : Nat) (s : State) (h0 : m.evr = true) (h1 : m.tts =
    true) (h2 : m.out = true) (h : Keeps m a s) :
    Keeps m a (fillIdle a0 a1 a2 s) := by
  unfold fillIdle
  repeat' with_reducible first | assumption | apply updTable_keeps | apply slotUnfilled_keeps

theorem lendLoop_keeps {m : Part} {a : State} (a0 : Nat) (s : State) (h0 : m.grd = true) (h1 : m.tts = true) (h2 : m.srv = true)
    (h3 : m.hlt = true) (h4 : m.tiles = true) (h : Keeps m a s) :
    Keeps m a (lendLoop a0 s) := by
  induction a0 generalizing  s with
  | zero =>
    unfold lendLoop
    repeat' first
      | with_reducible first
          | assumption | apply refill_keeps | apply launchLent_keeps | apply keeps_foldl | apply keeps_ite
          | apply keeps_ite_fst | apply keeps_ite_snd | exact tabWf_mod _ _ _ ‹_› | exact tabWf_put _ _ _ ‹_›
          | exact tabWf_del _ _ ‹_› | exact tabWf_map _ _ (fun _ => rfl) ‹_› | exact fun _ h => h | exact fun h => h
      | intro _
      | split
      | (dsimp only)
      | (rename (_ = (_, (_ : State))) => hp; have e := congrArg Prod.snd hp; clear hp; dsimp only at e; subst e)
      | (rename (_ = ((_ : State), _)) => hp; have e := congrArg Prod.fst hp; clear hp; dsimp only at e; subst e)
  | succ _ ih =>
    unfold lendLoop
    repeat' first
      | with_reducible first
          | assumption | apply ih | apply refill_keeps | apply launchLent_keeps | apply keeps_foldl | apply keeps_ite
          | apply keeps_ite_fst | apply keeps_ite_snd | exact tabWf_mod _ _ _ ‹_› | exact tabWf_put _ _ _ ‹_›
          | exact tabWf_del _ _ ‹_› | exact tabWf_map _ _ (fun _ => rfl) ‹_› | exact fun _ h => h | exact fun h => h
      | intro _
      | split
      | (dsimp only)
      | (rename (_ = (_, (_ : State))) => hp; have e := congrArg Prod.snd hp; clear hp; dsimp only at e; subst e)
      | (rename (_ = ((_ : State), _)) => hp; have e := congrArg Prod.fst hp; clear hp; dsimp only at e; subst e)

theorem lendAll_keeps {m : Part} {a : State} (s : State) (h0 : m.grd = true) (h1 : m.tts = true) (h2 : m.srv = true) (h3 : m.hlt
    = true) (h4 : m.tiles = true) (h : Keeps m a s) :
    Keeps m a (lendAll s) := by
  unfold lendAll
  repeat' with_reducible first | assumption | apply refill_keeps | apply lendLoop_keeps

theorem retryMicro_keeps {m : Part} {a : State} (a0 : Nat) (a1 : Nat) (s : State) (h0 : m.ops = true) (h1 : m.evr = true) (h2 :
    m.rings = true) (h3 : m.mem = true) (h4 : m.grd = true) (h5 : m.tts = true) (h6 : m.srv = true) (h7 : m.fab = true) (h8 :
    m.syn = true) (h9 : m.hlt = true) (h10 : m.tiles = true) (h11 : m.out = true) (h12 : m.fresh = true) (h : Keeps m a s) :
    Keeps m a (retryMicro a0 a1 s) := by
  unfold retryMicro
  repeat' first
      | with_reducible first | assumption | apply addReady_keeps | apply endStep_keeps
      | split
      | (dsimp only)

theorem squashMicro_keeps {m : Part} {a : State} (a0 : Nat) (a1 : Nat) (a2 : FaultRec) (s : State) (h0 : m.ops = true) (h1 :
    m.evr = true) (h2 : m.rings = true) (h3 : m.mem = true) (h4 : m.grd = true) (h5 : m.tts = true) (h6 : m.srv = true) (h7 :
    m.fab = true) (h8 : m.syn = true) (h9 : m.hlt = true) (h10 : m.tiles = true) (h11 : m.out = true) (h12 : m.fresh = true)
    (h : Keeps m a s) :
    Keeps m a (squashMicro a0 a1 a2 s) := by
  unfold squashMicro
  repeat' first
      | with_reducible first
          | assumption | apply stopMicro_keeps | apply retryMicro_keeps | apply countSquash_keeps | apply fault_keeps
      | split

theorem fenceUnit_keeps {m : Part} {a : State} (a0 : Nat) (a1 : Nat) (a2 : Nat) (a3 : TEntry) (s : State) (a4 : Nat) (h0 : m.ops
    = true) (h1 : m.evr = true) (h2 : m.rings = true) (h3 : m.mem = true) (h4 : m.grd = true) (h5 : m.tts = true) (h6 : m.srv =
    true) (h7 : m.fab = true) (h8 : m.syn = true) (h9 : m.hlt = true) (h10 : m.tiles = true) (h11 : m.pwr = true) (h12 : m.out =
    true) (h13 : m.fresh = true) (h : Keeps m a s) :
    Keeps m a (fenceUnit a0 a1 a2 a3 s a4) := by
  unfold fenceUnit
  repeat' first
      | with_reducible first | assumption | apply squashMicro_keeps | apply stopItem_keeps
      | split

/-! Machine/FaultOps.lean -/

theorem updFab_keeps {m : Part} {a : State} (a0 : Fabric → Fabric) (s : State) (h0 : m.fab = true) (h : Keeps m a s) :
    Keeps m a (updFab a0 s) := by
  unfold updFab
  repeat' with_reducible first | assumption | apply State.setFab_keeps

theorem detachTags_keeps {m : Part} {a : State} (a0 : Nat) (s : State) (h0 : m.fab = true) (h : Keeps m a s) :
    Keeps m a (detachTags a0 s) := by
  unfold detachTags
  repeat' with_reducible first | assumption | apply updFab_keeps

theorem fenceRecord_keeps {m : Part} {a : State} (a0 : Nat) (s : State) (a1 : RunningMicro) (h0 : m.evr = true) (h1 : m.hlt =
    true) (h2 : m.out = true) (h : Keeps m a s) :
    Keeps m a (fenceRecord a0 s a1) := by
  unfold fenceRecord
  repeat' first
      | with_reducible first
          | assumption | apply fault_keeps | apply keeps_foldl | apply keeps_ite | apply keeps_ite_fst | apply keeps_ite_snd
          | exact fun _ h => h | exact fun h => h
      | intro _
      | split
      | (dsimp only)
      | (rename (_ = (_, (_ : State))) => hp; have e := congrArg Prod.snd hp; clear hp; dsimp only at e; subst e)
      | (rename (_ = ((_ : State), _)) => hp; have e := congrArg Prod.fst hp; clear hp; dsimp only at e; subst e)

theorem stopContext_keeps {m : Part} {a : State} (a0 : Nat) (s : State) (h0 : m.evr = true) (h1 : m.grd = true) (h2 : m.tts =
    true) (h3 : m.srv = true) (h4 : m.fab = true) (h5 : m.hlt = true) (h6 : m.tiles = true) (h7 : m.out = true) (h : Keeps m a
    s) :
    Keeps m a (stopContext a0 s) := by
  unfold stopContext
  repeat' first
      | with_reducible first
          | assumption | apply stopMicro_keeps | apply updTts_keeps | apply fenceRecord_keeps | apply keeps_foldl
      | intro _

theorem updHlt_keeps {m : Part} {a : State} (a0 : Health → Health) (s : State) (h0 : m.hlt = true) (h : Keeps m a s) :
    Keeps m a (updHlt a0 s) := by
  unfold updHlt
  repeat' with_reducible first | assumption | apply State.setHlt_keeps

theorem resetContext_keeps {m : Part} {a : State} (a0 : Nat) (a1 : Status) (a2 : Option Nat) (s : State) (h0 : m.ops = true)
    (h1 : m.evr = true) (h2 : m.rings = true) (h3 : m.mem = true) (h4 : m.grd = true) (h5 : m.tts = true) (h6 : m.srv = true)
    (h7 : m.fab = true) (h8 : m.syn = true) (h9 : m.hlt = true) (h10 : m.tiles = true) (h11 : m.out = true) (h12 : m.fresh =
    true) (h : Keeps m a s) :
    Keeps m a (resetContext a0 a1 a2 s) := by
  unfold resetContext
  repeat' first
      | with_reducible first
          | assumption | apply detachTags_keeps | apply stopContext_keeps | apply updCtx_keeps | apply updHlt_keeps
          | apply orphanOwner_keeps | apply sbClearOwner_keeps
      | split

theorem contain_keeps {m : Part} {a : State} (a0 : Nat) (a1 : Nat) (a2 : Nat) (a3 : Status) (s : State) (h0 : m.ops = true)
    (h1 : m.evr = true) (h2 : m.rings = true) (h3 : m.mem = true) (h4 : m.grd = true) (h5 : m.tts = true) (h6 : m.srv = true)
    (h7 : m.fab = true) (h8 : m.syn = true) (h9 : m.hlt = true) (h10 : m.tiles = true) (h11 : m.cde = true) (h12 : m.out = true)
    (h13 : m.fresh = true) (h : Keeps m a s) :
    Keeps m a (contain a0 a1 a2 a3 s) := by
  unfold contain
  repeat' first
      | with_reducible first | assumption | apply resetContext_keeps | apply failStage_keeps
      | split

theorem shareFault_keeps {m : Part} {a : State} (a0 : Nat) (a1 : Nat) (s : State) (h0 : m.ops = true) (h1 : m.evr = true) (h2 :
    m.rings = true) (h3 : m.mem = true) (h4 : m.grd = true) (h5 : m.tts = true) (h6 : m.srv = true) (h7 : m.fab = true) (h8 :
    m.syn = true) (h9 : m.hlt = true) (h10 : m.tiles = true) (h11 : m.cde = true) (h12 : m.out = true) (h13 : m.fresh = true)
    (h : Keeps m a s) :
    Keeps m a (shareFault a0 a1 s) := by
  unfold shareFault
  repeat' with_reducible first | assumption | apply contain_keeps | apply updUnit_keeps | apply fault_keeps

theorem badRead_keeps {m : Part} {a : State} (a0 : Nat) (a1 : Nat) (s : State) (h0 : m.ops = true) (h1 : m.evr = true) (h2 :
    m.rings = true) (h3 : m.mem = true) (h4 : m.grd = true) (h5 : m.tts = true) (h6 : m.srv = true) (h7 : m.fab = true) (h8 :
    m.syn = true) (h9 : m.hlt = true) (h10 : m.tiles = true) (h11 : m.cde = true) (h12 : m.out = true) (h13 : m.fresh = true)
    (h : Keeps m a s) :
    Keeps m a (badRead a0 a1 s) := by
  unfold badRead
  repeat' with_reducible first | assumption | apply contain_keeps | apply updUnit_keeps | apply fault_keeps

theorem issued_keeps {m : Part} {a : State} (a0 : Nat) (s : State) (h0 : m.grd = true) (h1 : m.hlt = true) (h : Keeps m a s) :
    Keeps m a (issued a0 s) := by
  unfold issued
  repeat' with_reducible first | assumption | apply updUnit_keeps | apply progress_keeps

theorem unitFault_keeps {m : Part} {a : State} (a0 : Nat) (s : State) (h0 : m.evr = true) (h1 : m.hlt = true) (h2 : m.out =
    true) (h : Keeps m a s) :
    Keeps m a (unitFault a0 s) := by
  unfold unitFault
  repeat' first
      | with_reducible first | assumption | apply fault_keeps | apply updHlt_keeps
      | split

/-! Machine/StepOps.lean -/

theorem dropNotStarted_keeps {m : Part} {a : State} (a0 : Nat) (a1 : Status) (s : State) (h0 : m.rings = true) (h1 : m.mem =
    true) (h2 : m.srv = true) (h3 : m.out = true) (h : Keeps m a s) :
    Keeps m a (dropNotStarted a0 a1 s) := by
  unfold dropNotStarted
  repeat' first
      | with_reducible first
          | assumption | apply updCtx_keeps | apply doneUnstarted_keeps | apply dropQueued_keeps | apply keeps_foldl
      | intro _
      | split

theorem tablesChanged_keeps {m : Part} {a : State} (s : State) (h0 : m.ops = true) (h1 : m.evr = true) (h2 : m.rings = true)
    (h3 : m.mem = true) (h4 : m.grd = true) (h5 : m.tts = true) (h6 : m.srv = true) (h7 : m.fab = true) (h8 : m.syn = true)
    (h9 : m.hlt = true) (h10 : m.tiles = true) (h11 : m.out = true) (h12 : m.fresh = true) (h : Keeps m a s) :
    Keeps m a (tablesChanged s) := by
  unfold tablesChanged
  repeat' first
      | with_reducible first | assumption | apply endStep_keeps | apply dropQueued_keeps | apply keeps_foldl
      | intro _
      | split
      | (dsimp only)

theorem makeReady_keeps {m : Part} {a : State} (a0 : Nat) (a1 : List Nat) (s : State) (h0 : m.ops = true) (h1 : m.evr = true)
    (h2 : m.rings = true) (h3 : m.mem = true) (h4 : m.grd = true) (h5 : m.tts = true) (h6 : m.srv = true) (h7 : m.fab = true)
    (h8 : m.syn = true) (h9 : m.hlt = true) (h10 : m.tiles = true) (h11 : m.out = true) (h12 : m.fresh = true) (h : Keeps m a
    s) :
    Keeps m a (makeReady a0 a1 s) := by
  induction a1 generalizing  s with
  | nil =>
    unfold makeReady
    repeat' first
      | with_reducible first
          | assumption | apply addReady_keeps | apply endStep_keeps | apply keeps_foldl | apply keeps_ite
          | apply keeps_ite_fst | apply keeps_ite_snd | exact memWf_writeBytes _ _ _ ‹_› | exact memWf_zero _ _ _ ‹_›
          | exact memWf_nil | exact memWf_forget _ _ _ _ ‹_› | exact tabWf_mod _ _ _ ‹_› | exact tabWf_put _ _ _ ‹_›
          | exact tabWf_del _ _ ‹_› | exact tabWf_map _ _ (fun _ => rfl) ‹_› | exact fun _ h => h | exact fun h => h
      | intro _
      | split
      | (dsimp only)
      | (rename (_ = (_, (_ : State))) => hp; have e := congrArg Prod.snd hp; clear hp; dsimp only at e; subst e)
      | (rename (_ = ((_ : State), _)) => hp; have e := congrArg Prod.fst hp; clear hp; dsimp only at e; subst e)
  | cons _ _ ih =>
    unfold makeReady
    repeat' first
      | with_reducible first
          | assumption | apply ih | apply addReady_keeps | apply endStep_keeps | apply keeps_foldl | apply keeps_ite
          | apply keeps_ite_fst | apply keeps_ite_snd | exact memWf_writeBytes _ _ _ ‹_› | exact memWf_zero _ _ _ ‹_›
          | exact memWf_nil | exact memWf_forget _ _ _ _ ‹_› | exact tabWf_mod _ _ _ ‹_› | exact tabWf_put _ _ _ ‹_›
          | exact tabWf_del _ _ ‹_› | exact tabWf_map _ _ (fun _ => rfl) ‹_› | exact fun _ h => h | exact fun h => h
      | intro _
      | split
      | (dsimp only)
      | (rename (_ = (_, (_ : State))) => hp; have e := congrArg Prod.snd hp; clear hp; dsimp only at e; subst e)
      | (rename (_ = ((_ : State), _)) => hp; have e := congrArg Prod.fst hp; clear hp; dsimp only at e; subst e)

theorem microDone_keeps {m : Part} {a : State} (a0 : Nat) (a1 : Nat) (s : State) (h0 : m.ops = true) (h1 : m.evr = true) (h2 :
    m.rings = true) (h3 : m.mem = true) (h4 : m.grd = true) (h5 : m.tts = true) (h6 : m.srv = true) (h7 : m.fab = true) (h8 :
    m.syn = true) (h9 : m.hlt = true) (h10 : m.tiles = true) (h11 : m.out = true) (h12 : m.fresh = true) (h : Keeps m a s) :
    Keeps m a (microDone a0 a1 s) := by
  unfold microDone
  repeat' with_reducible first | assumption | apply updMicro_keeps | apply makeReady_keeps

theorem settleGrants_keeps {m : Part} {a : State} (a0 : Nat) (s : State) (h0 : m.ops = true) (h1 : m.evr = true) (h2 : m.rings =
    true) (h3 : m.mem = true) (h4 : m.grd = true) (h5 : m.tts = true) (h6 : m.srv = true) (h7 : m.fab = true) (h8 : m.syn =
    true) (h9 : m.hlt = true) (h10 : m.tiles = true) (h11 : m.out = true) (h12 : m.fresh = true) (h : Keeps m a s) :
    Keeps m a (settleGrants a0 s) := by
  induction a0 generalizing  s with
  | zero =>
    unfold settleGrants
    repeat' first
      | with_reducible first
          | assumption | apply microDone_keeps | apply keeps_foldl | apply keeps_ite | apply keeps_ite_fst
          | apply keeps_ite_snd | exact memWf_writeBytes _ _ _ ‹_› | exact memWf_zero _ _ _ ‹_› | exact memWf_nil
          | exact memWf_forget _ _ _ _ ‹_› | exact tabWf_mod _ _ _ ‹_› | exact tabWf_put _ _ _ ‹_› | exact tabWf_del _ _ ‹_›
          | exact tabWf_map _ _ (fun _ => rfl) ‹_› | exact fun _ h => h | exact fun h => h
      | intro _
      | split
      | (dsimp only)
      | (rename (_ = (_, (_ : State))) => hp; have e := congrArg Prod.snd hp; clear hp; dsimp only at e; subst e)
      | (rename (_ = ((_ : State), _)) => hp; have e := congrArg Prod.fst hp; clear hp; dsimp only at e; subst e)
  | succ _ ih =>
    unfold settleGrants
    repeat' first
      | with_reducible first
          | assumption | apply ih | apply microDone_keeps | apply keeps_foldl | apply keeps_ite | apply keeps_ite_fst
          | apply keeps_ite_snd | exact memWf_writeBytes _ _ _ ‹_› | exact memWf_zero _ _ _ ‹_› | exact memWf_nil
          | exact memWf_forget _ _ _ _ ‹_› | exact tabWf_mod _ _ _ ‹_› | exact tabWf_put _ _ _ ‹_› | exact tabWf_del _ _ ‹_›
          | exact tabWf_map _ _ (fun _ => rfl) ‹_› | exact fun _ h => h | exact fun h => h
      | intro _
      | split
      | (dsimp only)
      | (rename (_ = (_, (_ : State))) => hp; have e := congrArg Prod.snd hp; clear hp; dsimp only at e; subst e)
      | (rename (_ = ((_ : State), _)) => hp; have e := congrArg Prod.fst hp; clear hp; dsimp only at e; subst e)

theorem settleSync_keeps {m : Part} {a : State} (s : State) (h0 : m.ops = true) (h1 : m.evr = true) (h2 : m.rings = true) (h3 :
    m.mem = true) (h4 : m.grd = true) (h5 : m.tts = true) (h6 : m.srv = true) (h7 : m.fab = true) (h8 : m.syn = true) (h9 :
    m.hlt = true) (h10 : m.tiles = true) (h11 : m.out = true) (h12 : m.fresh = true) (h : Keeps m a s) :
    Keeps m a (settleSync s) := by
  unfold settleSync
  repeat' with_reducible first | assumption | apply settleGrants_keeps | apply settleSteps_keeps

theorem microEnd_keeps {m : Part} {a : State} (a0 : Nat) (a1 : Nat) (s : State) (h0 : m.ops = true) (h1 : m.evr = true) (h2 :
    m.rings = true) (h3 : m.mem = true) (h4 : m.grd = true) (h5 : m.tts = true) (h6 : m.srv = true) (h7 : m.fab = true) (h8 :
    m.syn = true) (h9 : m.hlt = true) (h10 : m.tiles = true) (h11 : m.pwr = true) (h12 : m.out = true) (h13 : m.fresh = true)
    (h : Keeps m a s) :
    Keeps m a (microEnd a0 a1 s) := by
  unfold microEnd
  repeat' first
      | with_reducible first
          | assumption | apply updMicro_keeps | apply microDone_keeps | apply endStep_keeps | apply clearUnits_keeps
          | apply updSyn_keeps | apply updTts_keeps | apply updPwr_keeps
      | split
      | (dsimp only)

end Sys2Proof.Machine
end

