-- ==== Sys2Proof/Laws/KeepsGrid.lean ====
section
/-!
SUPPORT. The pieces of state each operation of these files of Machine/ may change: Flags, Operands, Grid, Fronthaul, CellOps,
    FabricOps, Fabric, Tile, Random.
-/

namespace Sys2Proof.Machine

/-! Machine/Flags.lean -/

theorem setFlags_keeps {m : Part} {a : State} (a0 : Nat) (a1 : ArithFlags) (s : State) (h0 : m.grd = true) (h : Keeps m a s) :
    Keeps m a (setFlags a0 a1 s) := by
  unfold setFlags
  repeat' first
      | with_reducible first | assumption | apply State.setGrd_keeps
      | split

/-! Machine/Operands.lean -/

theorem updTile_keeps {m : Part} {a : State} (a0 : Nat) (a1 : Tile → Tile) (s : State) (h0 : m.tiles = true) (h : Keeps m a s) :
    Keeps m a (updTile a0 a1 s) := by
  unfold updTile
  repeat' with_reducible first | assumption | apply State.setTiles_keeps

theorem pastIssue_keeps {m : Part} {a : State} (a0 : Nat) (a1 : Nat) (s : State) (h0 : m.tiles = true) (h : Keeps m a s) :
    Keeps m a (pastIssue a0 a1 s) := by
  unfold pastIssue
  repeat' first
      | with_reducible first | assumption | apply updTile_keeps
      | split

theorem markIssue_keeps {m : Part} {a : State} (a0 : Nat) (a1 : Nat) (s : State) (h0 : m.grd = true) (h1 : m.hlt = true) (h :
    Keeps m a s) :
    Keeps m a (markIssue a0 a1 s) := by
  unfold markIssue
  repeat' with_reducible first | assumption | apply updUnit_keeps | apply progress_keeps

/-! Machine/Grid.lean -/

theorem contendRange_keeps {m : Part} {a : State} (a0 : Nat) (a1 : Nat) (a2 : Nat) (a3 : Nat) (s : State) (h0 : m.srv = true)
    (h1 : m.syn = true) (h : Keeps m a s) :
    Keeps m a (contendRange a0 a1 a2 a3 s) := by
  unfold contendRange
  repeat' first
      | with_reducible first | assumption | apply contend_keeps | apply keeps_foldl
      | intro _

theorem halt_keeps {m : Part} {a : State} (a0 : Nat) (a1 : Option Nat) (s : State) (h0 : m.grd = true) (h : Keeps m a s) :
    Keeps m a (halt a0 a1 s) := by
  unfold halt
  repeat' first
      | with_reducible first
          | assumption | apply updUnit_keeps | apply keeps_foldl | apply keeps_ite | apply keeps_ite_fst | apply keeps_ite_snd
          | exact fun _ h => h | exact fun h => h
      | intro _
      | split
      | (dsimp only)
      | (rename (_ = (_, (_ : State))) => hp; have e := congrArg Prod.snd hp; clear hp; dsimp only at e; subst e)
      | (rename (_ = ((_ : State), _)) => hp; have e := congrArg Prod.fst hp; clear hp; dsimp only at e; subst e)

theorem sbIssued_keeps {m : Part} {a : State} (a0 : Nat) (a1 : Nat) (s : State) (h0 : m.grd = true) (h1 : m.hlt = true) (h2 :
    m.tiles = true) (h : Keeps m a s) :
    Keeps m a (sbIssued a0 a1 s) := by
  unfold sbIssued
  repeat' first
      | with_reducible first
          | assumption | apply pastIssue_keeps | apply issued_keeps | apply markIssue_keeps | apply keeps_foldl
          | apply keeps_ite | apply keeps_ite_fst | apply keeps_ite_snd | exact fun _ h => h | exact fun h => h
      | intro _
      | split
      | (dsimp only)
      | (rename (_ = (_, (_ : State))) => hp; have e := congrArg Prod.snd hp; clear hp; dsimp only at e; subst e)
      | (rename (_ = ((_ : State), _)) => hp; have e := congrArg Prod.fst hp; clear hp; dsimp only at e; subst e)

theorem takeSlot_keeps {m : Part} {a : State} (a0 : Nat) (a1 : Nat) (a2 : Nat) (s : State) (h0 : m.grd = true) (h1 : m.hlt =
    true) (h2 : m.tiles = true) (h : Keeps m a s) :
    Keeps m a (takeSlot a0 a1 a2 s) := by
  unfold takeSlot
  repeat' with_reducible first | assumption | apply updSide_keeps | apply sbIssued_keeps

theorem waitFull_keeps {m : Part} {a : State} (a0 : Nat) (a1 : Nat) (a2 : Nat) (s : State) (h0 : m.grd = true) (h1 : m.hlt =
    true) (h2 : m.tiles = true) (h : Keeps m a s) :
    Keeps m a (waitFull a0 a1 a2 s) := by
  unfold waitFull
  repeat' first
      | with_reducible first | assumption | apply updSide_keeps | apply takeSlot_keeps
      | split
      | (dsimp only)

theorem execWaitFull_keeps {m : Part} {a : State} (a0 : Nat) (a1 : Nat) (a2 : Nat) (s : State) (h0 : m.grd = true) (h1 : m.hlt =
    true) (h2 : m.tiles = true) (h : Keeps m a s) :
    KeepsO m a (execWaitFull a0 a1 a2 s) := by
  unfold execWaitFull
  repeat' with_reducible first | assumption | apply waitFull_keeps | apply run_keeps | apply runOn_keeps

theorem access_keeps {m : Part} {a : State} (a0 : Nat) (a1 : List (Place × Bool × Nat × Nat)) (a2 : State → State) (s : State)
    (h0 : m.ops = true) (h1 : m.evr = true) (h2 : m.rings = true) (h3 : m.mem = true) (h4 : m.grd = true) (h5 : m.tts = true)
    (h6 : m.srv = true) (h7 : m.fab = true) (h8 : m.syn = true) (h9 : m.hlt = true) (h10 : m.tiles = true) (h11 : m.cde = true)
    (h12 : m.out = true) (h13 : m.fresh = true) (hk3 : ∀ s, Keeps m a s → Keeps m a (a2 s)) (h : Keeps m a s) :
    Keeps m a (access a0 a1 a2 s) := by
  unfold access
  repeat' first
      | with_reducible first | assumption | apply issued_keeps | apply shareFault_keeps | apply badRead_keeps | apply hk3
      | split
      | (dsimp only)

theorem matRows_keeps {m : Part} {a : State} (a0 : MatDesc) (a1 : Nat) (s : State) (h0 : m.mem = true) (h1 : m.grd = true) (h2 :
    m.hlt = true) (h : Keeps m a s) :
    Keeps m a (matRows a0 a1 s) := by
  unfold matRows
  repeat' first
      | with_reducible first
          | assumption | apply setFlags_keeps | apply storeBytes_keeps | apply keeps_foldl | apply keeps_ite
          | apply keeps_ite_fst | apply keeps_ite_snd | exact memWf_writeBytes _ _ _ ‹_› | exact memWf_zero _ _ _ ‹_›
          | exact memWf_nil | exact memWf_forget _ _ _ _ ‹_› | exact fun _ h => h | exact fun h => h
      | intro _
      | split
      | (dsimp only)
      | (rename (_ = (_, (_ : State))) => hp; have e := congrArg Prod.snd hp; clear hp; dsimp only at e; subst e)
      | (rename (_ = ((_ : State), _)) => hp; have e := congrArg Prod.fst hp; clear hp; dsimp only at e; subst e)

theorem matOnce_keeps {m : Part} {a : State} (a0 : MatDesc) (s : State) (h0 : m.mem = true) (h1 : m.grd = true) (h2 : m.hlt =
    true) (h : Keeps m a s) :
    Keeps m a (matOnce a0 s) := by
  unfold matOnce
  repeat' with_reducible first | assumption | apply matRows_keeps

theorem releaseSlot_keeps {m : Part} {a : State} (a0 : Nat) (a1 : Nat) (a2 : Nat) (s : State) (h0 : m.grd = true) (h1 : m.hlt =
    true) (h2 : m.tiles = true) (h : Keeps m a s) :
    Keeps m a (releaseSlot a0 a1 a2 s) := by
  unfold releaseSlot
  repeat' first
      | with_reducible first | assumption | apply updSide_keeps | apply sbRelease_keeps | apply sbIssued_keeps
      | split
      | (dsimp only)

theorem waitFullResume_keeps {m : Part} {a : State} (a0 : Nat) (a1 : Nat) (a2 : Nat) (s : State) (h0 : m.grd = true) (h1 : m.hlt
    = true) (h2 : m.tiles = true) (h : Keeps m a s) :
    Keeps m a (waitFullResume a0 a1 a2 s) := by
  unfold waitFullResume
  repeat' first
      | with_reducible first | assumption | apply takeSlot_keeps
      | split

theorem postBare_keeps {m : Part} {a : State} (a0 : Nat) (a1 : Nat) (a2 : Nat) (a3 : Nat) (s : State) (h0 : m.ops = true) (h1 :
    m.evr = true) (h2 : m.rings = true) (h3 : m.mem = true) (h4 : m.grd = true) (h5 : m.tts = true) (h6 : m.srv = true) (h7 :
    m.fab = true) (h8 : m.syn = true) (h9 : m.hlt = true) (h10 : m.tiles = true) (h11 : m.cde = true) (h12 : m.out = true)
    (h13 : m.fresh = true) (h : Keeps m a s) :
    Keeps m a (postBare a0 a1 a2 a3 s) := by
  unfold postBare
  repeat' first
      | with_reducible first
          | assumption | apply sbProduce_keeps | apply contain_keeps | apply updUnit_keeps | apply fault_keeps
      | split
      | (dsimp only)

theorem takePort_keeps {m : Part} {a : State} (a0 : Nat) (a1 : Nat) (a2 : Nat) (s : State) (h0 : m.tiles = true) (h : Keeps m a
    s) :
    Keeps m a (takePort a0 a1 a2 s) := by
  unfold takePort
  repeat' first
      | with_reducible first
          | assumption | apply updTile_keeps | apply keeps_foldl | apply keeps_ite | apply keeps_ite_fst | apply keeps_ite_snd
          | exact fun _ h => h | exact fun h => h
      | intro _
      | split
      | (dsimp only)
      | (rename (_ = (_, (_ : State))) => hp; have e := congrArg Prod.snd hp; clear hp; dsimp only at e; subst e)
      | (rename (_ = ((_ : State), _)) => hp; have e := congrArg Prod.fst hp; clear hp; dsimp only at e; subst e)

theorem matStopped_keeps {m : Part} {a : State} (a0 : MatDesc) (a1 : Nat) (s : State) (h0 : m.mem = true) (h1 : m.grd = true)
    (h2 : m.hlt = true) (h3 : m.fresh = true) (h : Keeps m a s) :
    Keeps m a (matStopped a0 a1 s) := by
  unfold matStopped
  repeat' first
      | with_reducible first
          | assumption | apply matRows_keeps | apply State.setFresh_keeps | apply State.setMem_keeps | apply keeps_foldl
          | apply keeps_ite | apply keeps_ite_fst | apply keeps_ite_snd | exact memWf_writeBytes _ _ _ ‹_›
          | exact memWf_zero _ _ _ ‹_› | exact memWf_nil | exact memWf_forget _ _ _ _ ‹_› | exact fun _ h => h
          | exact fun h => h
      | intro _
      | split
      | (dsimp only)
      | (rename (_ = (_, (_ : State))) => hp; have e := congrArg Prod.snd hp; clear hp; dsimp only at e; subst e)
      | (rename (_ = ((_ : State), _)) => hp; have e := congrArg Prod.fst hp; clear hp; dsimp only at e; subst e)

theorem postBy_keeps {m : Part} {a : State} (a0 : Nat) (a1 : Nat) (a2 : Nat) (a3 : Nat) (a4 : Nat) (s : State) (h0 : m.ops =
    true) (h1 : m.evr = true) (h2 : m.rings = true) (h3 : m.mem = true) (h4 : m.grd = true) (h5 : m.tts = true) (h6 : m.srv =
    true) (h7 : m.fab = true) (h8 : m.syn = true) (h9 : m.hlt = true) (h10 : m.tiles = true) (h11 : m.cde = true) (h12 : m.out =
    true) (h13 : m.fresh = true) (h : Keeps m a s) :
    Keeps m a (postBy a0 a1 a2 a3 a4 s) := by
  unfold postBy
  repeat' first
      | with_reducible first | assumption | apply postBare_keeps | apply sbIssued_keeps
      | split
      | (dsimp only)

theorem execPost_keeps {m : Part} {a : State} (a0 : Nat) (a1 : Nat) (a2 : Nat) (a3 : Nat) (a4 : Nat) (s : State) (h0 : m.ops =
    true) (h1 : m.evr = true) (h2 : m.rings = true) (h3 : m.mem = true) (h4 : m.grd = true) (h5 : m.tts = true) (h6 : m.srv =
    true) (h7 : m.fab = true) (h8 : m.syn = true) (h9 : m.hlt = true) (h10 : m.tiles = true) (h11 : m.cde = true) (h12 : m.out =
    true) (h13 : m.fresh = true) (h : Keeps m a s) :
    KeepsO m a (execPost a0 a1 a2 a3 a4 s) := by
  unfold execPost
  repeat' first
      | with_reducible first | assumption | apply postBy_keeps | apply run_keeps | apply runOn_keeps
      | split

theorem execRelease_keeps {m : Part} {a : State} (a0 : Nat) (a1 : Nat) (a2 : Nat) (s : State) (h0 : m.grd = true) (h1 : m.hlt =
    true) (h2 : m.tiles = true) (h : Keeps m a s) :
    KeepsO m a (execRelease a0 a1 a2 s) := by
  unfold execRelease
  repeat' with_reducible first | assumption | apply run_keeps | apply releaseSlot_keeps | apply runOn_keeps

theorem matTimes_keeps {m : Part} {a : State} (a0 : MatDesc) (a1 : Nat) (s : State) (h0 : m.mem = true) (h1 : m.grd = true)
    (h2 : m.hlt = true) (h : Keeps m a s) :
    Keeps m a (matTimes a0 a1 s) := by
  induction a1 generalizing  s with
  | zero =>
    unfold matTimes
    repeat' first
      | with_reducible first
          | assumption | apply matOnce_keeps | apply keeps_foldl | apply keeps_ite | apply keeps_ite_fst | apply keeps_ite_snd
          | exact memWf_writeBytes _ _ _ ‹_› | exact memWf_zero _ _ _ ‹_› | exact memWf_nil | exact memWf_forget _ _ _ _ ‹_›
          | exact fun _ h => h | exact fun h => h
      | intro _
      | split
      | (dsimp only)
      | (rename (_ = (_, (_ : State))) => hp; have e := congrArg Prod.snd hp; clear hp; dsimp only at e; subst e)
      | (rename (_ = ((_ : State), _)) => hp; have e := congrArg Prod.fst hp; clear hp; dsimp only at e; subst e)
  | succ _ ih =>
    unfold matTimes
    repeat' first
      | with_reducible first
          | assumption | apply ih | apply matOnce_keeps | apply keeps_foldl | apply keeps_ite | apply keeps_ite_fst
          | apply keeps_ite_snd | exact memWf_writeBytes _ _ _ ‹_› | exact memWf_zero _ _ _ ‹_› | exact memWf_nil
          | exact memWf_forget _ _ _ _ ‹_› | exact fun _ h => h | exact fun h => h
      | intro _
      | split
      | (dsimp only)
      | (rename (_ = (_, (_ : State))) => hp; have e := congrArg Prod.snd hp; clear hp; dsimp only at e; subst e)
      | (rename (_ = ((_ : State), _)) => hp; have e := congrArg Prod.fst hp; clear hp; dsimp only at e; subst e)

theorem mma_keeps {m : Part} {a : State} (a0 : MatDesc) (a1 : Option Nat) (s : State) (h0 : m.ops = true) (h1 : m.evr = true)
    (h2 : m.rings = true) (h3 : m.mem = true) (h4 : m.grd = true) (h5 : m.tts = true) (h6 : m.srv = true) (h7 : m.fab = true)
    (h8 : m.syn = true) (h9 : m.hlt = true) (h10 : m.tiles = true) (h11 : m.cde = true) (h12 : m.out = true) (h13 : m.fresh =
    true) (h : Keeps m a s) :
    Keeps m a (mma a0 a1 s) := by
  unfold mma
  cases a1
  all_goals
    dsimp only [Option.elim]
    repeat' first
      | with_reducible first
          | assumption | apply issued_keeps | apply matTimes_keeps | apply access_keeps | apply matStopped_keeps
          | apply halt_keeps | apply keeps_foldl | apply keeps_ite | apply keeps_ite_fst | apply keeps_ite_snd
          | exact memWf_writeBytes _ _ _ ‹_› | exact memWf_zero _ _ _ ‹_› | exact memWf_nil | exact memWf_forget _ _ _ _ ‹_›
          | exact tabWf_mod _ _ _ ‹_› | exact tabWf_put _ _ _ ‹_› | exact tabWf_del _ _ ‹_›
          | exact tabWf_map _ _ (fun _ => rfl) ‹_› | exact fun _ h => h | exact fun h => h
      | intro _
      | split
      | (dsimp only)
      | (rename (_ = (_, (_ : State))) => hp; have e := congrArg Prod.snd hp; clear hp; dsimp only at e; subst e)
      | (rename (_ = ((_ : State), _)) => hp; have e := congrArg Prod.fst hp; clear hp; dsimp only at e; subst e)

theorem meshWrite_keeps {m : Part} {a : State} (a0 : Place) (a1 : Nat) (s : State) (h0 : m.tiles = true) (h : Keeps m a s) :
    Keeps m a (meshWrite a0 a1 s) := by
  unfold meshWrite
  repeat' first
      | with_reducible first
          | assumption | apply takePort_keeps | apply keeps_foldl | apply keeps_ite | apply keeps_ite_fst
          | apply keeps_ite_snd | exact fun _ h => h | exact fun h => h
      | intro _
      | split
      | (dsimp only)
      | (rename (_ = (_, (_ : State))) => hp; have e := congrArg Prod.snd hp; clear hp; dsimp only at e; subst e)
      | (rename (_ = ((_ : State), _)) => hp; have e := congrArg Prod.fst hp; clear hp; dsimp only at e; subst e)

theorem moverCopy_keeps {m : Part} {a : State} (a0 : CopyDesc) (a1 : Option Nat) (s : State) (h0 : m.ops = true) (h1 : m.evr =
    true) (h2 : m.rings = true) (h3 : m.mem = true) (h4 : m.grd = true) (h5 : m.tts = true) (h6 : m.srv = true) (h7 : m.fab =
    true) (h8 : m.syn = true) (h9 : m.hlt = true) (h10 : m.tiles = true) (h11 : m.cde = true) (h12 : m.out = true) (h13 :
    m.fresh = true) (h : Keeps m a s) :
    Keeps m a (moverCopy a0 a1 s) := by
  unfold moverCopy
  repeat' first
      | with_reducible first
          | assumption | apply access_keeps | apply postBare_keeps | apply meshWrite_keeps | apply setFlags_keeps
          | apply storeBytes_keeps | apply contendRange_keeps | apply halt_keeps
      | intro _
      | split
      | (dsimp only)

theorem execMoverCopy_keeps {m : Part} {a : State} (a0 : CopyDesc) (a1 : Option Nat) (s : State) (h0 : m.ops = true) (h1 : m.evr
    = true) (h2 : m.rings = true) (h3 : m.mem = true) (h4 : m.grd = true) (h5 : m.tts = true) (h6 : m.srv = true) (h7 : m.fab =
    true) (h8 : m.syn = true) (h9 : m.hlt = true) (h10 : m.tiles = true) (h11 : m.cde = true) (h12 : m.out = true) (h13 :
    m.fresh = true) (h : Keeps m a s) :
    KeepsO m a (execMoverCopy a0 a1 s) := by
  unfold execMoverCopy
  repeat' with_reducible first | assumption | apply moverCopy_keeps | apply run_keeps | apply runOn_keeps

theorem waitFreeResume_keeps {m : Part} {a : State} (a0 : Nat) (a1 : Nat) (a2 : Nat) (a3 : Nat) (s : State) (h0 : m.grd = true)
    (h1 : m.hlt = true) (h2 : m.tiles = true) (h : Keeps m a s) :
    Keeps m a (waitFreeResume a0 a1 a2 a3 s) := by
  unfold waitFreeResume
  repeat' first
      | with_reducible first | assumption | apply updSide_keeps | apply sbIssued_keeps
      | split
      | (dsimp only)

theorem execWaitFreeResume_keeps {m : Part} {a : State} (a0 : Nat) (a1 : Nat) (a2 : Nat) (a3 : Nat) (s : State) (h0 : m.grd =
    true) (h1 : m.hlt = true) (h2 : m.tiles = true) (h : Keeps m a s) :
    KeepsO m a (execWaitFreeResume a0 a1 a2 a3 s) := by
  unfold execWaitFreeResume
  repeat' with_reducible first | assumption | apply waitFreeResume_keeps | apply run_keeps | apply runOn_keeps

theorem waitFree_keeps {m : Part} {a : State} (a0 : Nat) (a1 : Nat) (a2 : Nat) (a3 : Nat) (s : State) (h0 : m.grd = true) (h1 :
    m.hlt = true) (h2 : m.tiles = true) (h : Keeps m a s) :
    Keeps m a (waitFree a0 a1 a2 a3 s) := by
  unfold waitFree
  repeat' first
      | with_reducible first | assumption | apply updSide_keeps | apply sbIssued_keeps
      | split
      | (dsimp only)

theorem execWaitFree_keeps {m : Part} {a : State} (a0 : Nat) (a1 : Nat) (a2 : Nat) (a3 : Nat) (s : State) (h0 : m.grd = true)
    (h1 : m.hlt = true) (h2 : m.tiles = true) (h : Keeps m a s) :
    KeepsO m a (execWaitFree a0 a1 a2 a3 s) := by
  unfold execWaitFree
  repeat' with_reducible first | assumption | apply waitFree_keeps | apply run_keeps | apply runOn_keeps

theorem execMma_keeps {m : Part} {a : State} (a0 : MatDesc) (a1 : Option Nat) (s : State) (h0 : m.ops = true) (h1 : m.evr =
    true) (h2 : m.rings = true) (h3 : m.mem = true) (h4 : m.grd = true) (h5 : m.tts = true) (h6 : m.srv = true) (h7 : m.fab =
    true) (h8 : m.syn = true) (h9 : m.hlt = true) (h10 : m.tiles = true) (h11 : m.cde = true) (h12 : m.out = true) (h13 :
    m.fresh = true) (h : Keeps m a s) :
    KeepsO m a (execMma a0 a1 s) := by
  unfold execMma
  repeat' with_reducible first | assumption | apply run_keeps | apply mma_keeps | apply runOn_keeps

theorem execWaitFullResume_keeps {m : Part} {a : State} (a0 : Nat) (a1 : Nat) (a2 : Nat) (s : State) (h0 : m.grd = true) (h1 :
    m.hlt = true) (h2 : m.tiles = true) (h : Keeps m a s) :
    KeepsO m a (execWaitFullResume a0 a1 a2 s) := by
  unfold execWaitFullResume
  repeat' with_reducible first | assumption | apply waitFullResume_keeps | apply run_keeps | apply runOn_keeps

theorem execReleaseReturn_keeps {m : Part} {a : State} (a0 : Nat) (a1 : Nat) (s : State) (h0 : m.grd = true) (h : Keeps m a s) :
    KeepsO m a (execReleaseReturn a0 a1 s) := by
  unfold execReleaseReturn
  repeat' with_reducible first | assumption | apply run_keeps | apply sbReturn_keeps | apply runOn_keeps

/-! Machine/Fronthaul.lean -/

theorem updPtp_keeps {m : Part} {a : State} (a0 : Nat) (a1 : PtpPort → PtpPort) (s : State) (h0 : m.pps = true) (h : Keeps m a
    s) :
    Keeps m a (updPtp a0 a1 s) := by
  unfold updPtp
  repeat' first
      | with_reducible first
          | assumption | apply updPps_keeps | apply keeps_foldl | apply keeps_ite | apply keeps_ite_fst | apply keeps_ite_snd
          | exact fun _ h => h | exact fun h => h
      | intro _
      | split
      | (dsimp only)
      | (rename (_ = (_, (_ : State))) => hp; have e := congrArg Prod.snd hp; clear hp; dsimp only at e; subst e)
      | (rename (_ = ((_ : State), _)) => hp; have e := congrArg Prod.fst hp; clear hp; dsimp only at e; subst e)

theorem updFh_keeps {m : Part} {a : State} (a0 : Fronthaul → Fronthaul) (s : State) (h0 : m.fh = true) (h : Keeps m a s) :
    Keeps m a (updFh a0 s) := by
  unfold updFh
  repeat' with_reducible first | assumption | apply State.setFh_keeps

theorem updMac_keeps {m : Part} {a : State} (a0 : Nat) (a1 : FhMac → FhMac) (s : State) (h0 : m.fh = true) (h : Keeps m a s) :
    Keeps m a (updMac a0 a1 s) := by
  unfold updMac
  repeat' with_reducible first | assumption | apply updFh_keeps

theorem macCount_keeps {m : Part} {a : State} (a0 : Nat) (a1 : FhCounters → FhCounters) (s : State) (h0 : m.fh = true) (h :
    Keeps m a s) :
    Keeps m a (macCount a0 a1 s) := by
  unfold macCount
  repeat' with_reducible first | assumption | apply updMac_keeps

theorem enqueue_keeps {m : Part} {a : State} (a0 : Nat) (a1 : Nat) (a2 : TxPkt) (s : State) (h0 : m.fh = true) (h : Keeps m a
    s) :
    Keeps m a (enqueue a0 a1 a2 s) := by
  unfold enqueue
  repeat' first
      | with_reducible first | assumption | apply macCount_keeps | apply updMac_keeps
      | split
      | (dsimp only)

theorem sendPtp_keeps {m : Part} {a : State} (a0 : Nat) (a1 : PtpKind) (a2 : Nat) (a3 : Bool) (a4 : Int) (a5 : List Byte) (s :
    State) (h0 : m.fh = true) (h : Keeps m a s) :
    Keeps m a (sendPtp a0 a1 a2 a3 a4 a5 s) := by
  unfold sendPtp
  repeat' first
      | with_reducible first
          | assumption | apply enqueue_keeps | apply keeps_foldl | apply keeps_ite | apply keeps_ite_fst | apply keeps_ite_snd
          | exact fun _ h => h | exact fun h => h
      | intro _
      | split
      | (dsimp only)
      | (rename (_ = (_, (_ : State))) => hp; have e := congrArg Prod.snd hp; clear hp; dsimp only at e; subst e)
      | (rename (_ = ((_ : State), _)) => hp; have e := congrArg Prod.fst hp; clear hp; dsimp only at e; subst e)

theorem ptpTransmit_keeps {m : Part} {a : State} (a0 : Nat) (a1 : PtpKind) (s : State) (h0 : m.pps = true) (h1 : m.fh = true)
    (h : Keeps m a s) :
    Keeps m a (ptpTransmit a0 a1 s) := by
  unfold ptpTransmit
  repeat' first
      | with_reducible first | assumption | apply updPtp_keeps | apply sendPtp_keeps
      | split
      | (dsimp only)

theorem execPtpTransmit_keeps {m : Part} {a : State} (a0 : Nat) (a1 : PtpKind) (s : State) (h0 : m.pps = true) (h1 : m.fh =
    true) (h : Keeps m a s) :
    KeepsO m a (execPtpTransmit a0 a1 s) := by
  unfold execPtpTransmit
  repeat' with_reducible first | assumption | apply ptpTransmit_keeps | apply run_keeps

theorem releasePackets_keeps {m : Part} {a : State} (a0 : Nat) (a1 : Nat) (a2 : Nat) (a3 : List (List Byte)) (a4 : Nat) (a5 :
    Nat) (s : State) (h0 : m.fh = true) (h : Keeps m a s) :
    Keeps m a (releasePackets a0 a1 a2 a3 a4 a5 s) := by
  induction a4 generalizing a5 s with
  | zero =>
    unfold releasePackets
    repeat' first
      | with_reducible first
          | assumption | apply enqueue_keeps | apply updFh_keeps | apply keeps_foldl | apply keeps_ite | apply keeps_ite_fst
          | apply keeps_ite_snd | exact fun _ h => h | exact fun h => h
      | intro _
      | split
      | (dsimp only)
      | (rename (_ = (_, (_ : State))) => hp; have e := congrArg Prod.snd hp; clear hp; dsimp only at e; subst e)
      | (rename (_ = ((_ : State), _)) => hp; have e := congrArg Prod.fst hp; clear hp; dsimp only at e; subst e)
  | succ _ ih =>
    unfold releasePackets
    repeat' first
      | with_reducible first
          | assumption | apply ih | apply enqueue_keeps | apply updFh_keeps | apply keeps_foldl | apply keeps_ite
          | apply keeps_ite_fst | apply keeps_ite_snd | exact fun _ h => h | exact fun h => h
      | intro _
      | split
      | (dsimp only)
      | (rename (_ = (_, (_ : State))) => hp; have e := congrArg Prod.snd hp; clear hp; dsimp only at e; subst e)
      | (rename (_ = ((_ : State), _)) => hp; have e := congrArg Prod.fst hp; clear hp; dsimp only at e; subst e)

theorem preemptCheck_keeps {m : Part} {a : State} (a0 : Nat) (s : State) (h0 : m.fh = true) (h : Keeps m a s) :
    Keeps m a (preemptCheck a0 s) := by
  unfold preemptCheck
  repeat' first
      | with_reducible first | assumption | apply updMac_keeps
      | split
      | (dsimp only)

theorem uplaneRelease_keeps {m : Part} {a : State} (a0 : Nat) (a1 : Nat) (a2 : Nat) (s : State) (h0 : m.grd = true) (h1 : m.fh =
    true) (h : Keeps m a s) :
    Keeps m a (uplaneRelease a0 a1 a2 s) := by
  unfold uplaneRelease
  repeat' first
      | with_reducible first
          | assumption | apply releasePackets_keeps | apply updFh_keeps | apply preemptCheck_keeps | apply setFlags_keeps
      | split

theorem policerSetBody_keeps {m : Part} {a : State} (a0 : Req) (s : State) (h0 : m.fh = true) (h : Keeps m a s) :
    Keeps m a (policerSetBody a0 s).1 := by
  unfold policerSetBody
  repeat' first
      | with_reducible first | assumption | apply failed_keeps | apply updMac_keeps
      | split
      | (dsimp only)

theorem execFhPolicerSet_keeps {m : Part} {a : State} (a0 : Nat) (s : State) (h0 : m.mbx = true) (h1 : m.evr = true) (h2 : m.fh
    = true) (h3 : m.out = true) (h : Keeps m a s) :
    KeepsO m a (execFhPolicerSet a0 s) := by
  unfold execFhPolicerSet
  repeat' first
      | with_reducible first | assumption | apply runCommand_keeps | apply run_keeps | apply policerSetBody_keeps
      | intro _

theorem setPresent_keeps {m : Part} {a : State} (a0 : FhBinding) (a1 : Nat) (a2 : Nat) (a3 : Nat) (s : State) (h0 : m.mem =
    true) (h1 : m.hlt = true) (h : Keeps m a s) :
    Keeps m a (setPresent a0 a1 a2 a3 s) := by
  unfold setPresent
  repeat' with_reducible first | assumption | apply storeBytes_keeps

theorem shaperRefill_keeps {m : Part} {a : State} (a0 : Nat) (a1 : Nat) (s : State) (h0 : m.fh = true) (h : Keeps m a s) :
    Keeps m a (shaperRefill a0 a1 s) := by
  unfold shaperRefill
  repeat' first
      | with_reducible first | assumption | apply updMac_keeps
      | split
      | (dsimp only)

theorem fhLink_keeps {m : Part} {a : State} (a0 : Nat) (a1 : Bool) (s : State) (h0 : m.evr = true) (h1 : m.fh = true) (h2 :
    m.out = true) (h : Keeps m a s) :
    Keeps m a (fhLink a0 a1 s) := by
  unfold fhLink
  repeat' first
      | with_reducible first | assumption | apply post_keeps | apply updMac_keeps
      | split

theorem portModeBody_keeps {m : Part} {a : State} (a0 : Req) (s : State) (h0 : m.evr = true) (h1 : m.fh = true) (h2 : m.out =
    true) (h : Keeps m a s) :
    Keeps m a (portModeBody a0 s).1 := by
  unfold portModeBody
  repeat' first
      | with_reducible first
          | assumption | apply fhLink_keeps | apply failed_keeps | apply updFh_keeps | apply updMac_keeps | apply keeps_foldl
      | intro _
      | split
      | (dsimp only)

theorem execFhLink_keeps {m : Part} {a : State} (a0 : Nat) (a1 : Bool) (s : State) (h0 : m.evr = true) (h1 : m.fh = true) (h2 :
    m.out = true) (h : Keeps m a s) :
    KeepsO m a (execFhLink a0 a1 s) := by
  unfold execFhLink
  repeat' with_reducible first | assumption | apply fhLink_keeps | apply run_keeps

theorem ethRx_keeps {m : Part} {a : State} (a0 : Nat) (a1 : RxFrame) (s : State) (h0 : m.rings = true) (h1 : m.mem = true) (h2 :
    m.fh = true) (h3 : m.out = true) (h : Keeps m a s) :
    Keeps m a (ethRx a0 a1 s) := by
  unfold ethRx
  repeat' first
      | with_reducible first | assumption | apply macCount_keeps | apply ringPut_keeps
      | split
      | (dsimp only)

theorem updPolicer_keeps {m : Part} {a : State} (a0 : Nat) (a1 : Nat) (a2 : Policer → Policer) (s : State) (h0 : m.fh = true)
    (h : Keeps m a s) :
    Keeps m a (updPolicer a0 a1 a2 s) := by
  unfold updPolicer
  repeat' with_reducible first | assumption | apply updMac_keeps

theorem writePrb_keeps {m : Part} {a : State} (a0 : Nat) (a1 : FhBinding) (a2 : Nat) (a3 : Nat) (a4 : Nat) (a5 : List Byte) (s :
    State) (h0 : m.mem = true) (h1 : m.fh = true) (h2 : m.hlt = true) (h : Keeps m a s) :
    Keeps m a (writePrb a0 a1 a2 a3 a4 a5 s) := by
  unfold writePrb
  repeat' first
      | with_reducible first | assumption | apply macCount_keeps | apply storeBytes_keeps | apply setPresent_keeps
      | split

theorem writePrbs_keeps {m : Part} {a : State} (a0 : Nat) (a1 : FhBinding) (a2 : Nat) (a3 : Nat) (a4 : Nat) (a5 : List (List
    Byte)) (s : State) (h0 : m.mem = true) (h1 : m.fh = true) (h2 : m.hlt = true) (h : Keeps m a s) :
    Keeps m a (writePrbs a0 a1 a2 a3 a4 a5 s) := by
  induction a5 generalizing a4 s with
  | nil =>
    unfold writePrbs
    repeat' first
      | with_reducible first
          | assumption | apply writePrb_keeps | apply keeps_foldl | apply keeps_ite | apply keeps_ite_fst
          | apply keeps_ite_snd | exact memWf_writeBytes _ _ _ ‹_› | exact memWf_zero _ _ _ ‹_› | exact memWf_nil
          | exact memWf_forget _ _ _ _ ‹_› | exact fun _ h => h | exact fun h => h
      | intro _
      | split
      | (dsimp only)
      | (rename (_ = (_, (_ : State))) => hp; have e := congrArg Prod.snd hp; clear hp; dsimp only at e; subst e)
      | (rename (_ = ((_ : State), _)) => hp; have e := congrArg Prod.fst hp; clear hp; dsimp only at e; subst e)
  | cons _ _ ih =>
    unfold writePrbs
    repeat' first
      | with_reducible first
          | assumption | apply ih | apply writePrb_keeps | apply keeps_foldl | apply keeps_ite | apply keeps_ite_fst
          | apply keeps_ite_snd | exact memWf_writeBytes _ _ _ ‹_› | exact memWf_zero _ _ _ ‹_› | exact memWf_nil
          | exact memWf_forget _ _ _ _ ‹_› | exact fun _ h => h | exact fun h => h
      | intro _
      | split
      | (dsimp only)
      | (rename (_ = (_, (_ : State))) => hp; have e := congrArg Prod.snd hp; clear hp; dsimp only at e; subst e)
      | (rename (_ = ((_ : State), _)) => hp; have e := congrArg Prod.fst hp; clear hp; dsimp only at e; subst e)

theorem receiveU_keeps {m : Part} {a : State} (a0 : Nat) (a1 : UPacket) (a2 : Tick) (s : State) (h0 : m.mem = true) (h1 : m.fh =
    true) (h2 : m.hlt = true) (h : Keeps m a s) :
    Keeps m a (receiveU a0 a1 a2 s) := by
  unfold receiveU
  repeat' first
      | with_reducible first
          | assumption | apply writePrbs_keeps | apply updFh_keeps | apply macCount_keeps | apply keeps_foldl
      | intro _
      | split
      | (dsimp only)

theorem checkFrame_keeps {m : Part} {a : State} (a0 : Nat) (a1 : RxFrame) (s : State) (h0 : m.rings = true) (h1 : m.mem = true)
    (h2 : m.fh = true) (h3 : m.hlt = true) (h4 : m.out = true) (h : Keeps m a s) :
    Keeps m a (checkFrame a0 a1 s) := by
  unfold checkFrame
  repeat' first
      | with_reducible first
          | assumption | apply ethRx_keeps | apply updPolicer_keeps | apply macCount_keeps | apply receiveU_keeps
          | apply keeps_foldl | apply keeps_ite | apply keeps_ite_fst | apply keeps_ite_snd | exact memWf_writeBytes _ _ _ ‹_›
          | exact memWf_zero _ _ _ ‹_› | exact memWf_nil | exact memWf_forget _ _ _ _ ‹_› | exact fun _ h => h
          | exact fun h => h
      | intro _
      | split
      | (dsimp only)
      | (rename (_ = (_, (_ : State))) => hp; have e := congrArg Prod.snd hp; clear hp; dsimp only at e; subst e)
      | (rename (_ = ((_ : State), _)) => hp; have e := congrArg Prod.fst hp; clear hp; dsimp only at e; subst e)

theorem frameReceive_keeps {m : Part} {a : State} (a0 : Nat) (a1 : RxFrame) (s : State) (h0 : m.rings = true) (h1 : m.mem =
    true) (h2 : m.fh = true) (h3 : m.hlt = true) (h4 : m.out = true) (h : Keeps m a s) :
    Keeps m a (frameReceive a0 a1 s) := by
  unfold frameReceive
  repeat' first
      | with_reducible first | assumption | apply checkFrame_keeps | apply updFh_keeps | apply macCount_keeps
      | split
      | (dsimp only)

theorem fhStatusBody_keeps {m : Part} {a : State} (a0 : Req) (s : State) (h0 : m.fh = true) (h : Keeps m a s) :
    Keeps m a (fhStatusBody a0 s).1 := by
  unfold fhStatusBody
  repeat' first
      | with_reducible first | assumption | apply failed_keeps | apply updMac_keeps
      | split
      | (dsimp only)

theorem execFhStatus_keeps {m : Part} {a : State} (a0 : Nat) (s : State) (h0 : m.mbx = true) (h1 : m.evr = true) (h2 : m.fh =
    true) (h3 : m.out = true) (h : Keeps m a s) :
    KeepsO m a (execFhStatus a0 s) := by
  unfold execFhStatus
  repeat' first
      | with_reducible first | assumption | apply runCommand_keeps | apply fhStatusBody_keeps | apply run_keeps
      | intro _

theorem gclSwitched_keeps {m : Part} {a : State} (a0 : Nat) (s : State) (h0 : m.evr = true) (h1 : m.fh = true) (h2 : m.out =
    true) (h : Keeps m a s) :
    Keeps m a (gclSwitched a0 s) := by
  unfold gclSwitched
  repeat' first
      | with_reducible first | assumption | apply post_keeps | apply updMac_keeps
      | split

theorem sweepTake_keeps {m : Part} {a : State} (a0 : Nat) (a1 : FhBinding) (a2 : Nat) (a3 : Nat) (s : State) (h0 : m.grd = true)
    (h1 : m.sweep = true) (h : Keeps m a s) :
    Keeps m a (sweepTake a0 a1 a2 a3 s) := by
  unfold sweepTake
  repeat' first
      | with_reducible first
          | assumption | apply State.setSweep_keeps | apply setFlags_keeps | apply keeps_foldl | apply keeps_ite
          | apply keeps_ite_fst | apply keeps_ite_snd | exact fun _ h => h | exact fun h => h
      | intro _
      | split
      | (dsimp only)
      | (rename (_ = (_, (_ : State))) => hp; have e := congrArg Prod.snd hp; clear hp; dsimp only at e; subst e)
      | (rename (_ = ((_ : State), _)) => hp; have e := congrArg Prod.fst hp; clear hp; dsimp only at e; subst e)

theorem unpackSymbol_keeps {m : Part} {a : State} (a0 : Nat) (a1 : FhBinding) (a2 : Nat) (a3 : Nat) (s : State) (h0 : m.mem =
    true) (h1 : m.grd = true) (h2 : m.hlt = true) (h : Keeps m a s) :
    Keeps m a (unpackSymbol a0 a1 a2 a3 s) := by
  unfold unpackSymbol
  repeat' first
      | with_reducible first
          | assumption | apply setFlags_keeps | apply storeBytes_keeps | apply keeps_foldl | apply keeps_ite
          | apply keeps_ite_fst | apply keeps_ite_snd | exact memWf_writeBytes _ _ _ ‹_› | exact memWf_zero _ _ _ ‹_›
          | exact memWf_nil | exact memWf_forget _ _ _ _ ‹_› | exact fun _ h => h | exact fun h => h
      | intro _
      | split
      | (dsimp only)
      | (rename (_ = (_, (_ : State))) => hp; have e := congrArg Prod.snd hp; clear hp; dsimp only at e; subst e)
      | (rename (_ = ((_ : State), _)) => hp; have e := congrArg Prod.fst hp; clear hp; dsimp only at e; subst e)

theorem endpointPost_keeps {m : Part} {a : State} (a0 : FhBinding) (s : State) (h0 : m.evr = true) (h1 : m.grd = true) (h2 :
    m.hlt = true) (h3 : m.out = true) (h : Keeps m a s) :
    Keeps m a (endpointPost a0 s) := by
  unfold endpointPost
  repeat' first
      | with_reducible first
          | assumption | apply sbProduce_keeps | apply fault_keeps | apply progress_keeps | apply keeps_foldl
          | apply keeps_ite | apply keeps_ite_fst | apply keeps_ite_snd | exact fun _ h => h | exact fun h => h
      | intro _
      | split
      | (dsimp only)
      | (rename (_ = (_, (_ : State))) => hp; have e := congrArg Prod.snd hp; clear hp; dsimp only at e; subst e)
      | (rename (_ = ((_ : State), _)) => hp; have e := congrArg Prod.fst hp; clear hp; dsimp only at e; subst e)

theorem symbolPost_keeps {m : Part} {a : State} (a0 : Nat) (a1 : Nat) (a2 : Nat) (s : State) (h0 : m.evr = true) (h1 : m.mem =
    true) (h2 : m.grd = true) (h3 : m.fh = true) (h4 : m.hlt = true) (h5 : m.sweep = true) (h6 : m.out = true) (h : Keeps m a
    s) :
    Keeps m a (symbolPost a0 a1 a2 s) := by
  unfold symbolPost
  repeat' first
      | with_reducible first
          | assumption | apply sweepTake_keeps | apply unpackSymbol_keeps | apply updFh_keeps | apply macCount_keeps
          | apply endpointPost_keeps
      | split
      | (dsimp only)

theorem execSymbolPost_keeps {m : Part} {a : State} (a0 : Nat) (a1 : Nat) (a2 : Nat) (s : State) (h0 : m.evr = true) (h1 : m.mem
    = true) (h2 : m.grd = true) (h3 : m.fh = true) (h4 : m.hlt = true) (h5 : m.sweep = true) (h6 : m.out = true) (h : Keeps m a
    s) :
    KeepsO m a (execSymbolPost a0 a1 a2 s) := by
  unfold execSymbolPost
  repeat' with_reducible first | assumption | apply symbolPost_keeps | apply run_keeps

theorem syncDone_keeps {m : Part} {a : State} (a0 : Nat) (a1 : Int) (a2 : Int) (a3 : Int) (a4 : Nat) (s : State) (h0 : m.evr =
    true) (h1 : m.tmb = true) (h2 : m.pps = true) (h3 : m.fab = true) (h4 : m.out = true) (h : Keeps m a s) :
    Keeps m a (syncDone a0 a1 a2 a3 a4 s) := by
  unfold syncDone
  repeat' first
      | with_reducible first
          | assumption | apply servoInput_keeps | apply keeps_foldl | apply keeps_ite | apply keeps_ite_fst
          | apply keeps_ite_snd | exact fun _ h => h | exact fun h => h
      | intro _
      | split
      | (dsimp only)
      | (rename (_ = (_, (_ : State))) => hp; have e := congrArg Prod.snd hp; clear hp; dsimp only at e; subst e)
      | (rename (_ = ((_ : State), _)) => hp; have e := congrArg Prod.fst hp; clear hp; dsimp only at e; subst e)

theorem electPorts_keeps {m : Part} {a : State} (s : State) (h0 : m.pps = true) (h : Keeps m a s) :
    Keeps m a (electPorts s) := by
  unfold electPorts
  repeat' first
      | with_reducible first
          | assumption | apply updPps_keeps | apply keeps_foldl | apply keeps_ite | apply keeps_ite_fst | apply keeps_ite_snd
          | exact fun _ h => h | exact fun h => h
      | intro _
      | split
      | (dsimp only)
      | (rename (_ = (_, (_ : State))) => hp; have e := congrArg Prod.snd hp; clear hp; dsimp only at e; subst e)
      | (rename (_ = ((_ : State), _)) => hp; have e := congrArg Prod.fst hp; clear hp; dsimp only at e; subst e)

theorem ptpAccept_keeps {m : Part} {a : State} (a0 : Nat) (a1 : PtpMsg) (s : State) (h0 : m.evr = true) (h1 : m.tmb = true)
    (h2 : m.pps = true) (h3 : m.fh = true) (h4 : m.fab = true) (h5 : m.out = true) (h : Keeps m a s) :
    Keeps m a (ptpAccept a0 a1 s) := by
  unfold ptpAccept
  repeat' first
      | with_reducible first
          | assumption | apply syncDone_keeps | apply updPtp_keeps | apply electPorts_keeps | apply sendPtp_keeps
          | apply keeps_foldl | apply keeps_ite | apply keeps_ite_fst | apply keeps_ite_snd | exact fun _ h => h
          | exact fun h => h
      | intro _
      | split
      | (dsimp only)
      | (rename (_ = (_, (_ : State))) => hp; have e := congrArg Prod.snd hp; clear hp; dsimp only at e; subst e)
      | (rename (_ = ((_ : State), _)) => hp; have e := congrArg Prod.fst hp; clear hp; dsimp only at e; subst e)

theorem ptpFrame_keeps {m : Part} {a : State} (a0 : Nat) (a1 : PtpMsg) (s : State) (h0 : m.evr = true) (h1 : m.tmb = true) (h2 :
    m.pps = true) (h3 : m.fh = true) (h4 : m.fab = true) (h5 : m.out = true) (h : Keeps m a s) :
    Keeps m a (ptpFrame a0 a1 s) := by
  unfold ptpFrame
  repeat' first
      | with_reducible first | assumption | apply updPtp_keeps | apply ptpAccept_keeps
      | split
      | (dsimp only)

theorem asymSetBody_keeps {m : Part} {a : State} (a0 : Req) (s : State) (h0 : m.fh = true) (h : Keeps m a s) :
    Keeps m a (asymSetBody a0 s).1 := by
  unfold asymSetBody
  repeat' first
      | with_reducible first | assumption | apply failed_keeps | apply updMac_keeps
      | split

theorem gclSetBody_keeps {m : Part} {a : State} (a0 : Req) (s : State) (h0 : m.fh = true) (h : Keeps m a s) :
    Keeps m a (gclSetBody a0 s).1 := by
  unfold gclSetBody
  repeat' first
      | with_reducible first | assumption | apply failed_keeps | apply updMac_keeps
      | split
      | (dsimp only)

theorem execFhGclSet_keeps {m : Part} {a : State} (a0 : Nat) (s : State) (h0 : m.mbx = true) (h1 : m.evr = true) (h2 : m.fh =
    true) (h3 : m.out = true) (h : Keeps m a s) :
    KeepsO m a (execFhGclSet a0 s) := by
  unfold execFhGclSet
  repeat' first
      | with_reducible first | assumption | apply runCommand_keeps | apply gclSetBody_keeps | apply run_keeps
      | intro _

theorem policerRefill_keeps {m : Part} {a : State} (a0 : Nat) (a1 : Nat) (s : State) (h0 : m.fh = true) (h : Keeps m a s) :
    Keeps m a (policerRefill a0 a1 s) := by
  unfold policerRefill
  repeat' first
      | with_reducible first | assumption | apply updPolicer_keeps
      | split
      | (dsimp only)

theorem execPolicerRefill_keeps {m : Part} {a : State} (a0 : Nat) (a1 : Nat) (s : State) (h0 : m.fh = true) (h : Keeps m a s) :
    KeepsO m a (execPolicerRefill a0 a1 s) := by
  unfold execPolicerRefill
  repeat' with_reducible first | assumption | apply policerRefill_keeps | apply run_keeps

theorem execFhPortMode_keeps {m : Part} {a : State} (a0 : Nat) (s : State) (h0 : m.mbx = true) (h1 : m.evr = true) (h2 : m.fh =
    true) (h3 : m.out = true) (h : Keeps m a s) :
    KeepsO m a (execFhPortMode a0 s) := by
  unfold execFhPortMode
  repeat' first
      | with_reducible first | assumption | apply runCommand_keeps | apply portModeBody_keeps | apply run_keeps
      | intro _

theorem macConfigBody_keeps {m : Part} {a : State} (a0 : Req) (s : State) (h0 : m.fh = true) (h : Keeps m a s) :
    Keeps m a (macConfigBody a0 s).1 := by
  unfold macConfigBody
  repeat' first
      | with_reducible first | assumption | apply failed_keeps | apply updMac_keeps
      | split
      | (dsimp only)

theorem gateEdge_keeps {m : Part} {a : State} (a0 : Nat) (s : State) (h0 : m.fh = true) (h : Keeps m a s) :
    Keeps m a (gateEdge a0 s) := by
  unfold gateEdge
  repeat' with_reducible first | assumption | apply preemptCheck_keeps | apply updMac_keeps

theorem execGateEdge_keeps {m : Part} {a : State} (a0 : Nat) (s : State) (h0 : m.fh = true) (h : Keeps m a s) :
    KeepsO m a (execGateEdge a0 s) := by
  unfold execGateEdge
  repeat' with_reducible first | assumption | apply gateEdge_keeps | apply run_keeps

theorem windowOpen_keeps {m : Part} {a : State} (a0 : Nat) (a1 : Nat) (a2 : Nat) (s : State) (h0 : m.mem = true) (h1 : m.hlt =
    true) (h : Keeps m a s) :
    Keeps m a (windowOpen a0 a1 a2 s) := by
  unfold windowOpen
  repeat' first
      | with_reducible first | assumption | apply storeBytes_keeps
      | split

theorem queueConfigBody_keeps {m : Part} {a : State} (a0 : Req) (s : State) (h0 : m.fh = true) (h : Keeps m a s) :
    Keeps m a (queueConfigBody a0 s).1 := by
  unfold queueConfigBody
  repeat' first
      | with_reducible first | assumption | apply failed_keeps | apply updMac_keeps
      | split
      | (dsimp only)

theorem execFhQueueConfig_keeps {m : Part} {a : State} (a0 : Nat) (s : State) (h0 : m.mbx = true) (h1 : m.evr = true) (h2 : m.fh
    = true) (h3 : m.out = true) (h : Keeps m a s) :
    KeepsO m a (execFhQueueConfig a0 s) := by
  unfold execFhQueueConfig
  repeat' first
      | with_reducible first | assumption | apply runCommand_keeps | apply run_keeps | apply queueConfigBody_keeps
      | intro _

theorem esmcReceive_keeps {m : Part} {a : State} (a0 : Nat) (a1 : Nat) (s : State) (h0 : m.pps = true) (h1 : m.out = true) (h2 :
    m.fresh = true) (h : Keeps m a s) :
    Keeps m a (esmcReceive a0 a1 s) := by
  unfold esmcReceive
  repeat' with_reducible first | assumption | apply emit_keeps | apply updPps_keeps | apply drawFree_keeps

theorem execEsmcReceive_keeps {m : Part} {a : State} (a0 : Nat) (a1 : Nat) (s : State) (h0 : m.pps = true) (h1 : m.out = true)
    (h2 : m.fresh = true) (h : Keeps m a s) :
    KeepsO m a (execEsmcReceive a0 a1 s) := by
  unfold execEsmcReceive
  repeat' with_reducible first | assumption | apply run_keeps | apply esmcReceive_keeps

theorem execFhMacConfig_keeps {m : Part} {a : State} (a0 : Nat) (s : State) (h0 : m.mbx = true) (h1 : m.evr = true) (h2 : m.fh =
    true) (h3 : m.out = true) (h : Keeps m a s) :
    KeepsO m a (execFhMacConfig a0 s) := by
  unfold execFhMacConfig
  repeat' first
      | with_reducible first | assumption | apply runCommand_keeps | apply macConfigBody_keeps | apply run_keeps
      | intro _

theorem execUplaneRelease_keeps {m : Part} {a : State} (a0 : Nat) (a1 : Nat) (a2 : Nat) (s : State) (h0 : m.grd = true) (h1 :
    m.fh = true) (h : Keeps m a s) :
    KeepsO m a (execUplaneRelease a0 a1 a2 s) := by
  unfold execUplaneRelease
  repeat' with_reducible first | assumption | apply run_keeps | apply uplaneRelease_keeps

theorem ethTx_keeps {m : Part} {a : State} (a0 : Nat) (s : State) (h0 : m.evr = true) (h1 : m.rings = true) (h2 : m.mem = true)
    (h3 : m.fh = true) (h4 : m.hlt = true) (h5 : m.out = true) (h : Keeps m a s) :
    Keeps m a (ethTx a0 s) := by
  unfold ethTx
  repeat' first
      | with_reducible first
          | assumption | apply enqueue_keeps | apply takeHead_keeps | apply emit_keeps | apply macCount_keeps
      | split

theorem execFhAsymSet_keeps {m : Part} {a : State} (a0 : Nat) (s : State) (h0 : m.mbx = true) (h1 : m.evr = true) (h2 : m.fh =
    true) (h3 : m.out = true) (h : Keeps m a s) :
    KeepsO m a (execFhAsymSet a0 s) := by
  unfold execFhAsymSet
  repeat' first
      | with_reducible first | assumption | apply runCommand_keeps | apply run_keeps | apply asymSetBody_keeps
      | intro _

theorem execPtpFrame_keeps {m : Part} {a : State} (a0 : Nat) (a1 : PtpMsg) (s : State) (h0 : m.evr = true) (h1 : m.tmb = true)
    (h2 : m.pps = true) (h3 : m.fh = true) (h4 : m.fab = true) (h5 : m.out = true) (h : Keeps m a s) :
    KeepsO m a (execPtpFrame a0 a1 s) := by
  unfold execPtpFrame
  repeat' with_reducible first | assumption | apply ptpFrame_keeps | apply run_keeps

theorem ptpSent_keeps {m : Part} {a : State} (a0 : Nat) (a1 : TxPkt) (a2 : Nat) (s : State) (h0 : m.pps = true) (h : Keeps m a
    s) :
    Keeps m a (ptpSent a0 a1 a2 s) := by
  unfold ptpSent
  repeat' first
      | with_reducible first
          | assumption | apply updPps_keeps | apply keeps_foldl | apply keeps_ite | apply keeps_ite_fst | apply keeps_ite_snd
          | exact fun _ h => h | exact fun h => h
      | intro _
      | split
      | (dsimp only)
      | (rename (_ = (_, (_ : State))) => hp; have e := congrArg Prod.snd hp; clear hp; dsimp only at e; subst e)
      | (rename (_ = ((_ : State), _)) => hp; have e := congrArg Prod.fst hp; clear hp; dsimp only at e; subst e)

theorem startFrame_keeps {m : Part} {a : State} (a0 : Nat) (a1 : Nat) (s : State) (h0 : m.pps = true) (h1 : m.fh = true) (h2 :
    m.out = true) (h : Keeps m a s) :
    Keeps m a (startFrame a0 a1 s) := by
  unfold startFrame
  repeat' first
      | with_reducible first
          | assumption | apply ptpSent_keeps | apply emit_keeps | apply macCount_keeps | apply updMac_keeps
      | split
      | (dsimp only)

theorem transmitSelect_keeps {m : Part} {a : State} (a0 : Nat) (s : State) (h0 : m.pps = true) (h1 : m.fh = true) (h2 : m.out =
    true) (h : Keeps m a s) :
    Keeps m a (transmitSelect a0 s) := by
  unfold transmitSelect
  repeat' first
      | with_reducible first | assumption | apply preemptCheck_keeps | apply updMac_keeps | apply startFrame_keeps
      | split
      | (dsimp only)

theorem esmcTransmit_keeps {m : Part} {a : State} (a0 : Nat) (a1 : Nat) (s : State) (h0 : m.fh = true) (h : Keeps m a s) :
    Keeps m a (esmcTransmit a0 a1 s) := by
  unfold esmcTransmit
  repeat' with_reducible first | assumption | apply enqueue_keeps

theorem execEsmcTransmit_keeps {m : Part} {a : State} (a0 : Nat) (a1 : Nat) (s : State) (h0 : m.fh = true) (h : Keeps m a s) :
    KeepsO m a (execEsmcTransmit a0 a1 s) := by
  unfold execEsmcTransmit
  repeat' with_reducible first | assumption | apply run_keeps | apply esmcTransmit_keeps

theorem execFrameReceive_keeps {m : Part} {a : State} (a0 : Nat) (a1 : RxFrame) (s : State) (h0 : m.rings = true) (h1 : m.mem =
    true) (h2 : m.fh = true) (h3 : m.hlt = true) (h4 : m.out = true) (h : Keeps m a s) :
    KeepsO m a (execFrameReceive a0 a1 s) := by
  unfold execFrameReceive
  repeat' first
      | with_reducible first | assumption | apply frameReceive_keeps | apply run_keeps
      | split

theorem execTransmitSelect_keeps {m : Part} {a : State} (a0 : Nat) (s : State) (h0 : m.pps = true) (h1 : m.fh = true) (h2 :
    m.out = true) (h : Keeps m a s) :
    KeepsO m a (execTransmitSelect a0 s) := by
  unfold execTransmitSelect
  repeat' with_reducible first | assumption | apply run_keeps | apply transmitSelect_keeps

theorem execGclSwitched_keeps {m : Part} {a : State} (a0 : Nat) (s : State) (h0 : m.evr = true) (h1 : m.fh = true) (h2 : m.out =
    true) (h : Keeps m a s) :
    KeepsO m a (execGclSwitched a0 s) := by
  unfold execGclSwitched
  repeat' with_reducible first | assumption | apply gclSwitched_keeps | apply run_keeps

theorem execEthTx_keeps {m : Part} {a : State} (a0 : Nat) (s : State) (h0 : m.evr = true) (h1 : m.rings = true) (h2 : m.mem =
    true) (h3 : m.fh = true) (h4 : m.hlt = true) (h5 : m.out = true) (h : Keeps m a s) :
    KeepsO m a (execEthTx a0 s) := by
  unfold execEthTx
  repeat' with_reducible first | assumption | apply ethTx_keeps | apply run_keeps

theorem execShaperRefill_keeps {m : Part} {a : State} (a0 : Nat) (a1 : Nat) (s : State) (h0 : m.fh = true) (h : Keeps m a s) :
    KeepsO m a (execShaperRefill a0 a1 s) := by
  unfold execShaperRefill
  repeat' with_reducible first | assumption | apply shaperRefill_keeps | apply run_keeps

theorem cplaneRelease_keeps {m : Part} {a : State} (a0 : Nat) (a1 : Nat) (a2 : Nat) (a3 : CPlane) (s : State) (h0 : m.fh = true)
    (h : Keeps m a s) :
    Keeps m a (cplaneRelease a0 a1 a2 a3 s) := by
  unfold cplaneRelease
  repeat' first
      | with_reducible first | assumption | apply enqueue_keeps | apply updFh_keeps | apply preemptCheck_keeps
      | split

theorem execCplaneRelease_keeps {m : Part} {a : State} (a0 : Nat) (a1 : Nat) (a2 : Nat) (a3 : CPlane) (s : State) (h0 : m.fh =
    true) (h : Keeps m a s) :
    KeepsO m a (execCplaneRelease a0 a1 a2 a3 s) := by
  unfold execCplaneRelease
  repeat' with_reducible first | assumption | apply cplaneRelease_keeps | apply run_keeps

theorem execWindowOpen_keeps {m : Part} {a : State} (a0 : Nat) (a1 : Nat) (a2 : Nat) (s : State) (h0 : m.mem = true) (h1 : m.hlt
    = true) (h : Keeps m a s) :
    KeepsO m a (execWindowOpen a0 a1 a2 s) := by
  unfold execWindowOpen
  repeat' with_reducible first | assumption | apply windowOpen_keeps | apply run_keeps

/-! Machine/CellOps.lean -/

theorem twinState_keeps {m : Part} {a : State} (a0 : Nat) (a1 : Nat) (s : State) (h0 : m.evr = true) (h1 : m.out = true) (h :
    Keeps m a s) :
    Keeps m a (twinState a0 a1 s) := by
  unfold twinState
  repeat' with_reducible first | assumption | apply post_keeps

theorem updCell_keeps {m : Part} {a : State} (a0 : Nat) (a1 : Nat) (a2 : Cell → Cell) (s : State) (h0 : m.cells = true) (h :
    Keeps m a s) :
    Keeps m a (updCell a0 a1 a2 s) := by
  unfold updCell
  repeat' with_reducible first | assumption | apply State.setCells_keeps

theorem fapi_keeps {m : Part} {a : State} (a0 : Nat) (a1 : Nat) (a2 : Nat) (a3 : List Byte) (s : State) (h0 : m.rings = true)
    (h1 : m.mem = true) (h2 : m.cells = true) (h3 : m.out = true) (h : Keeps m a s) :
    Keeps m a (fapi a0 a1 a2 a3 s) := by
  unfold fapi
  repeat' first
      | with_reducible first | assumption | apply hdmWrite_keeps | apply updCell_keeps | apply ringPut_keeps
      | split
      | (dsimp only)

theorem quietSweep_keeps {m : Part} {a : State} (a0 : Nat) (a1 : Nat) (s : State) (h0 : m.sweep = true) (h : Keeps m a s) :
    Keeps m a (quietSweep a0 a1 s) := by
  unfold quietSweep
  repeat' with_reducible first | assumption | apply State.setSweep_keeps

theorem cellTo_keeps {m : Part} {a : State} (a0 : Nat) (a1 : Nat) (a2 : CellState) (a3 : Nat) (s : State) (h0 : m.evr = true)
    (h1 : m.cells = true) (h2 : m.sweep = true) (h3 : m.out = true) (h : Keeps m a s) :
    Keeps m a (cellTo a0 a1 a2 a3 s) := by
  unfold cellTo
  repeat' first
      | with_reducible first | assumption | apply post_keeps | apply updCell_keeps | apply quietSweep_keeps
      | split
      | (dsimp only)

theorem cellsEnd_keeps {m : Part} {a : State} (a0 : Nat) (s : State) (h0 : m.evr = true) (h1 : m.rings = true) (h2 : m.mem =
    true) (h3 : m.cells = true) (h4 : m.sweep = true) (h5 : m.out = true) (h : Keeps m a s) :
    Keeps m a (cellsEnd a0 s) := by
  unfold cellsEnd
  repeat' first
      | with_reducible first
          | assumption | apply emit_keeps | apply twinState_keeps | apply fapi_keeps | apply cellTo_keeps
          | apply updCell_keeps | apply keeps_foldl
      | intro _
      | split
      | (dsimp only)

theorem stopCell_keeps {m : Part} {a : State} (a0 : Nat) (a1 : Nat) (s : State) (h0 : m.evr = true) (h1 : m.rings = true) (h2 :
    m.mem = true) (h3 : m.cells = true) (h4 : m.sweep = true) (h5 : m.out = true) (h : Keeps m a s) :
    Keeps m a (stopCell a0 a1 s) := by
  unfold stopCell
  repeat' with_reducible first | assumption | apply cellsEnd_keeps | apply cellTo_keeps | apply updCell_keeps

theorem kReject_keeps {m : Part} {a : State} (a0 : Nat) (a1 : Nat) (a2 : Nat) (a3 : List (Bool × Nat × Nat × Nat)) (s : State)
    (h0 : m.rings = true) (h1 : m.mem = true) (h2 : m.cells = true) (h3 : m.out = true) (h : Keeps m a s) :
    Keeps m a (kReject a0 a1 a2 a3 s) := by
  unfold kReject
  repeat' first
      | with_reducible first | assumption | apply fapi_keeps | apply updCell_keeps
      | split

theorem errorInd_keeps {m : Part} {a : State} (a0 : Nat) (a1 : Nat) (a2 : Nat) (a3 : Nat) (a4 : Nat) (a5 : Nat) (s : State)
    (h0 : m.rings = true) (h1 : m.mem = true) (h2 : m.cells = true) (h3 : m.out = true) (h : Keeps m a s) :
    Keeps m a (errorInd a0 a1 a2 a3 a4 a5 s) := by
  unfold errorInd
  repeat' with_reducible first | assumption | apply fapi_keeps

theorem dropBindings_keeps {m : Part} {a : State} (a0 : Nat) (a1 : Nat) (s : State) (h0 : m.fh = true) (h : Keeps m a s) :
    Keeps m a (dropBindings a0 a1 s) := by
  unfold dropBindings
  repeat' with_reducible first | assumption | apply updFh_keeps

theorem destroyCell_keeps {m : Part} {a : State} (a0 : Nat) (a1 : Nat) (s : State) (h0 : m.evr = true) (h1 : m.fh = true) (h2 :
    m.cells = true) (h3 : m.sweep = true) (h4 : m.out = true) (h : Keeps m a s) :
    Keeps m a (destroyCell a0 a1 s) := by
  unfold destroyCell
  repeat' with_reducible first | assumption | apply dropBindings_keeps | apply cellTo_keeps | apply State.setCells_keeps

theorem kTwin_keeps {m : Part} {a : State} (a0 : Nat) (a1 : Nat) (a2 : Nat) (a3 : Nat) (a4 : Nat) (s : State) (h0 : m.rings =
    true) (h1 : m.mem = true) (h2 : m.cells = true) (h3 : m.out = true) (h : Keeps m a s) :
    Keeps m a (kTwin a0 a1 a2 a3 a4 s) := by
  unfold kTwin
  repeat' with_reducible first | assumption | apply fapi_keeps

theorem takeOver_keeps {m : Part} {a : State} (a0 : Nat) (a1 : Nat) (a2 : Nat) (s : State) (h0 : m.evr = true) (h1 : m.rings =
    true) (h2 : m.mem = true) (h3 : m.fh = true) (h4 : m.cells = true) (h5 : m.sweep = true) (h6 : m.out = true) (h : Keeps m a
    s) :
    Keeps m a (takeOver a0 a1 a2 s) := by
  unfold takeOver
  repeat' first
      | with_reducible first
          | assumption | apply kTwin_keeps | apply updFh_keeps | apply cellTo_keeps | apply updCell_keeps
      | split

theorem buildJobs_keeps {m : Part} {a : State} (a0 : Nat) (a1 : Nat) (a2 : Nat) (a3 : List TEntry) (s : State) (h0 : m.cde =
    true) (h1 : m.cells = true) (h : Keeps m a s) :
    Keeps m a (buildJobs a0 a1 a2 a3 s) := by
  unfold buildJobs
  repeat' first
      | with_reducible first
          | assumption | apply State.setCde_keeps | apply updCell_keeps | apply keeps_foldl | apply keeps_ite
          | apply keeps_ite_fst | apply keeps_ite_snd | exact fun _ h => h | exact fun h => h
      | intro _
      | split
      | (dsimp only)
      | (rename (_ = (_, (_ : State))) => hp; have e := congrArg Prod.snd hp; clear hp; dsimp only at e; subst e)
      | (rename (_ = ((_ : State), _)) => hp; have e := congrArg Prod.fst hp; clear hp; dsimp only at e; subst e)

theorem sendSnapshot_keeps {m : Part} {a : State} (a0 : Nat) (a1 : Nat) (s : State) (h0 : m.out = true) (h : Keeps m a s) :
    Keeps m a (sendSnapshot a0 a1 s) := by
  unfold sendSnapshot
  repeat' with_reducible first | assumption | apply emit_keeps

theorem fapiIf_keeps {m : Part} {a : State} (a0 : Bool) (a1 : Nat) (a2 : Nat) (a3 : Nat) (a4 : List Byte) (s : State) (h0 :
    m.rings = true) (h1 : m.mem = true) (h2 : m.cells = true) (h3 : m.out = true) (h : Keeps m a s) :
    Keeps m a (fapiIf a0 a1 a2 a3 a4 s) := by
  unfold fapiIf
  repeat' first
      | with_reducible first | assumption | apply fapi_keeps
      | split

theorem deliverRach_keeps {m : Part} {a : State} (a0 : Nat) (a1 : Nat) (a2 : Nat) (a3 : Cell) (a4 : Config.UlInputs) (a5 : Bool)
    (a6 : List (Nat × Nat)) (s : State) (h0 : m.rings = true) (h1 : m.mem = true) (h2 : m.cells = true) (h3 : m.out = true) (h :
    Keeps m a s) :
    Keeps m a (deliverRach a0 a1 a2 a3 a4 a5 a6 s) := by
  unfold deliverRach
  repeat' first
      | with_reducible first | assumption | apply fapiIf_keeps
      | split

theorem deliverHarq_keeps {m : Part} {a : State} (a0 : Nat) (a1 : Nat) (a2 : Bool) (s : State) (a3 : (Nat × Pdu) × Bool) (h0 :
    m.cells = true) (h : Keeps m a s) :
    Keeps m a (deliverHarq a0 a1 a2 s a3) := by
  unfold deliverHarq
  repeat' first
      | with_reducible first | assumption | apply updCell_keeps
      | split
      | (dsimp only)

theorem deliverInd_keeps {m : Part} {a : State} (a0 : Nat) (a1 : Nat) (a2 : Nat) (a3 : Cell) (a4 : Config.UlInputs) (a5 : List
    ((Nat × Pdu) × Bool)) (s : State) (h0 : m.rings = true) (h1 : m.mem = true) (h2 : m.cells = true) (h3 : m.out = true) (h :
    Keeps m a s) :
    Keeps m a (deliverInd a0 a1 a2 a3 a4 a5 s) := by
  unfold deliverInd
  repeat' with_reducible first | assumption | apply fapiIf_keeps

theorem deliver_keeps {m : Part} {a : State} (a0 : Nat) (a1 : Nat) (a2 : Nat) (a3 : Bool) (s : State) (h0 : m.rings = true)
    (h1 : m.mem = true) (h2 : m.cells = true) (h3 : m.out = true) (h : Keeps m a s) :
    Keeps m a (deliver a0 a1 a2 a3 s) := by
  unfold deliver
  repeat' first
      | with_reducible first
          | assumption | apply deliverRach_keeps | apply deliverHarq_keeps | apply deliverInd_keeps | apply emit_keeps
          | apply updCell_keeps | apply keeps_foldl
      | intro _
      | split
      | (dsimp only)

theorem unsync_keeps {m : Part} {a : State} (a0 : Nat) (a1 : Nat) (s : State) (h0 : m.evr = true) (h1 : m.cells = true) (h2 :
    m.out = true) (h : Keeps m a s) :
    Keeps m a (unsync a0 a1 s) := by
  unfold unsync
  repeat' first
      | with_reducible first | assumption | apply twinState_keeps | apply updCell_keeps
      | split
      | (dsimp only)

/-! Machine/FabricOps.lean -/

theorem makeEntry_keeps {m : Part} {a : State} (a0 : FabReq) (a1 : Served) (s : State) (h0 : m.fab = true) (h : Keeps m a s) :
    Keeps m a (makeEntry a0 a1 s) := by
  unfold makeEntry
  repeat' with_reducible first | assumption | apply updFab_keeps

theorem releaseEntries_keeps {m : Part} {a : State} (a0 : Nat) (a1 : Nat) (s : State) (h0 : m.fab = true) (h : Keeps m a s) :
    Keeps m a (releaseEntries a0 a1 s) := by
  unfold releaseEntries
  repeat' with_reducible first | assumption | apply updFab_keeps

theorem updPort_keeps {m : Part} {a : State} (a0 : Nat) (a1 : FabPort → FabPort) (s : State) (h0 : m.fab = true) (h : Keeps m a
    s) :
    Keeps m a (updPort a0 a1 s) := by
  unfold updPort
  repeat' with_reducible first | assumption | apply updFab_keeps

theorem choosePort_keeps {m : Part} {a : State} (a0 : Option Nat) (a1 : Bool) (a2 : Nat) (a3 : Nat) (s : State) (h0 : m.fresh =
    true) (h : Keeps m a s) :
    Keeps m a (choosePort a0 a1 a2 a3 s).2 := by
  unfold choosePort
  repeat' first
      | with_reducible first | assumption | apply drawFree_keeps | apply keeps_ite_snd
      | intro _

theorem countRx_keeps {m : Part} {a : State} (a0 : Nat) (s : State) (h0 : m.fab = true) (h1 : m.fresh = true) (h : Keeps m a
    s) :
    Keeps m a (countRx a0 s) := by
  unfold countRx
  repeat' first
      | with_reducible first | assumption | apply updPort_keeps | apply choosePort_keeps
      | split
      | (rename (_ = (_, (_ : State))) => hp; have e := congrArg Prod.snd hp; clear hp; dsimp only at e; subst e)

theorem heardFrom_keeps {m : Part} {a : State} (a0 : Nat) (s : State) (h0 : m.fab = true) (h : Keeps m a s) :
    Keeps m a (heardFrom a0 s) := by
  unfold heardFrom
  repeat' with_reducible first | assumption | apply updFab_keeps

theorem countTx_keeps {m : Part} {a : State} (a0 : Nat) (a1 : Nat) (s : State) (h0 : m.fab = true) (h1 : m.fresh = true) (h :
    Keeps m a s) :
    Keeps m a (countTx a0 a1 s) := by
  unfold countTx
  repeat' with_reducible first | assumption | apply updPort_keeps | apply drawFree_keeps

theorem updFabCtr_keeps {m : Part} {a : State} (a0 : FabCounters → FabCounters) (s : State) (h0 : m.fab = true) (h : Keeps m a
    s) :
    Keeps m a (updFabCtr a0 s) := by
  unfold updFabCtr
  repeat' with_reducible first | assumption | apply updFab_keeps

theorem sendReply_keeps {m : Part} {a : State} (a0 : FabOp) (a1 : FabReq) (a2 : Bool) (a3 : Served) (s : State) (h0 : m.fab =
    true) (h1 : m.out = true) (h2 : m.fresh = true) (h : Keeps m a s) :
    Keeps m a (sendReply a0 a1 a2 a3 s) := by
  unfold sendReply
  repeat' first
      | with_reducible first
          | assumption | apply countTx_keeps | apply emit_keeps | apply choosePort_keeps | apply updFabCtr_keeps
      | split
      | (rename (_ = (_, (_ : State))) => hp; have e := congrArg Prod.snd hp; clear hp; dsimp only at e; subst e)

theorem descFailed_keeps {m : Part} {a : State} (a0 : Nat) (a1 : Nat) (a2 : Nat) (a3 : Status) (a4 : FabReq) (s : State) (h0 :
    m.evr = true) (h1 : m.srv = true) (h2 : m.hlt = true) (h3 : m.out = true) (h : Keeps m a s) :
    Keeps m a (descFailed a0 a1 a2 a3 a4 s) := by
  unfold descFailed
  repeat' with_reducible first | assumption | apply updMicro_keeps | apply fault_keeps

theorem issueEnds_keeps {m : Part} {a : State} (a0 : FabOrigin) (a1 : FabDesc) (a2 : Status) (s : State) (h0 : m.evr = true)
    (h1 : m.srv = true) (h2 : m.hlt = true) (h3 : m.out = true) (h : Keeps m a s) :
    Keeps m a (issueEnds a0 a1 a2 s) := by
  unfold issueEnds
  repeat' first
      | with_reducible first | assumption | apply descFailed_keeps
      | split

theorem updTag_keeps {m : Part} {a : State} (a0 : Nat) (a1 : Nat) (a2 : TagRec → TagRec) (s : State) (h0 : m.fab = true) (h :
    Keeps m a s) :
    Keeps m a (updTag a0 a1 a2 s) := by
  unfold updTag
  repeat' with_reducible first | assumption | apply updFab_keeps

theorem transmit_keeps {m : Part} {a : State} (a0 : Nat) (a1 : Nat) (s : State) (h0 : m.fab = true) (h1 : m.out = true) (h2 :
    m.fresh = true) (h : Keeps m a s) :
    Keeps m a (transmit a0 a1 s) := by
  unfold transmit
  repeat' first
      | with_reducible first
          | assumption | apply countTx_keeps | apply emit_keeps | apply choosePort_keeps | apply updTag_keeps
      | split
      | (dsimp only)
      | (rename (_ = (_, (_ : State))) => hp; have e := congrArg Prod.snd hp; clear hp; dsimp only at e; subst e)

theorem sendTagged_keeps {m : Part} {a : State} (a0 : FabOrigin) (a1 : FabOp) (a2 : FabReq) (a3 : Bool) (a4 : Place) (a5 : Nat)
    (s : State) (h0 : m.fab = true) (h1 : m.out = true) (h2 : m.fresh = true) (h : Keeps m a s) :
    Keeps m a (sendTagged a0 a1 a2 a3 a4 a5 s).2 := by
  unfold sendTagged
  repeat' with_reducible first | assumption | apply updFab_keeps | apply transmit_keeps

theorem countAcc_keeps {m : Part} {a : State} (a0 : Nat) (a1 : Nat) (a2 : Nat) (s : State) (h0 : m.srv = true) (h : Keeps m a
    s) :
    Keeps m a (countAcc a0 a1 a2 s) := by
  unfold countAcc
  repeat' with_reducible first | assumption | apply updMicro_keeps

theorem landData_keeps {m : Part} {a : State} (a0 : TagRec) (a1 : List Byte) (s : State) (h0 : m.mem = true) (h1 : m.hlt = true)
    (h : Keeps m a s) :
    Keeps m a (landData a0 a1 s) := by
  unfold landData
  repeat' first
      | with_reducible first | assumption | apply storeBytes_keeps
      | split

theorem tagEnded_keeps {m : Part} {a : State} (a0 : TagRec) (a1 : Status) (a2 : List Byte) (s : State) (h0 : m.ops = true) (h1 :
    m.evr = true) (h2 : m.rings = true) (h3 : m.mem = true) (h4 : m.grd = true) (h5 : m.tts = true) (h6 : m.srv = true) (h7 :
    m.fab = true) (h8 : m.syn = true) (h9 : m.hlt = true) (h10 : m.tiles = true) (h11 : m.out = true) (h12 : m.fresh = true)
    (h : Keeps m a s) :
    Keeps m a (tagEnded a0 a1 a2 s) := by
  unfold tagEnded
  repeat' first
      | with_reducible first
          | assumption | apply descFailed_keeps | apply landData_keeps | apply orphan_keeps | apply settleSync_keeps
      | split

theorem sendDesc_keeps {m : Part} {a : State} (a0 : FabOrigin) (a1 : FabDesc) (s : State) (h0 : m.ops = true) (h1 : m.evr =
    true) (h2 : m.rings = true) (h3 : m.mem = true) (h4 : m.grd = true) (h5 : m.tts = true) (h6 : m.srv = true) (h7 : m.fab =
    true) (h8 : m.syn = true) (h9 : m.hlt = true) (h10 : m.tiles = true) (h11 : m.out = true) (h12 : m.fresh = true) (h :
    Keeps m a s) :
    Keeps m a (sendDesc a0 a1 s) := by
  unfold sendDesc
  repeat' first
      | with_reducible first
          | assumption | apply sendTagged_keeps | apply countAcc_keeps | apply updCtx_keeps | apply updTag_keeps
          | apply tagEnded_keeps
      | split
      | (dsimp only)

theorem issueReq_keeps {m : Part} {a : State} (a0 : FabOrigin) (a1 : FabDesc) (s : State) (h0 : m.ops = true) (h1 : m.evr =
    true) (h2 : m.rings = true) (h3 : m.mem = true) (h4 : m.grd = true) (h5 : m.tts = true) (h6 : m.srv = true) (h7 : m.fab =
    true) (h8 : m.syn = true) (h9 : m.hlt = true) (h10 : m.tiles = true) (h11 : m.out = true) (h12 : m.fresh = true) (h :
    Keeps m a s) :
    Keeps m a (issueReq a0 a1 s) := by
  unfold issueReq
  repeat' first
      | with_reducible first | assumption | apply updFab_keeps | apply issueEnds_keeps | apply sendDesc_keeps
      | split

theorem sendBarrier_keeps {m : Part} {a : State} (a0 : BarrierSend) (s : State) (h0 : m.ops = true) (h1 : m.evr = true) (h2 :
    m.rings = true) (h3 : m.mem = true) (h4 : m.grd = true) (h5 : m.tts = true) (h6 : m.srv = true) (h7 : m.fab = true) (h8 :
    m.syn = true) (h9 : m.hlt = true) (h10 : m.tiles = true) (h11 : m.out = true) (h12 : m.fresh = true) (h : Keeps m a s) :
    Keeps m a (sendBarrier a0 s) := by
  unfold sendBarrier
  repeat' first
      | with_reducible first | assumption | apply orphan_keeps | apply settleSync_keeps | apply issueReq_keeps
      | split
      | (dsimp only)

theorem sendBarriers_keeps {m : Part} {a : State} (a0 : List BarrierSend) (s : State) (h0 : m.ops = true) (h1 : m.evr = true)
    (h2 : m.rings = true) (h3 : m.mem = true) (h4 : m.grd = true) (h5 : m.tts = true) (h6 : m.srv = true) (h7 : m.fab = true)
    (h8 : m.syn = true) (h9 : m.hlt = true) (h10 : m.tiles = true) (h11 : m.out = true) (h12 : m.fresh = true) (h : Keeps m a
    s) :
    Keeps m a (sendBarriers a0 s) := by
  unfold sendBarriers
  repeat' first
      | with_reducible first | assumption | apply sendBarrier_keeps | apply keeps_foldl
      | intro _

theorem objectApply_keeps {m : Part} {a : State} (a0 : Nat) (a1 : Nat) (a2 : FabReq) (s : State) (h0 : m.ops = true) (h1 : m.evr
    = true) (h2 : m.rings = true) (h3 : m.mem = true) (h4 : m.grd = true) (h5 : m.tts = true) (h6 : m.srv = true) (h7 : m.fab =
    true) (h8 : m.syn = true) (h9 : m.hlt = true) (h10 : m.tiles = true) (h11 : m.out = true) (h12 : m.fresh = true) (h :
    Keeps m a s) :
    Keeps m a (objectApply a0 a1 a2 s).1 := by
  unfold objectApply
  repeat' first
      | (dsimp only)
      | with_reducible first
          | assumption | apply updObj_keeps | apply applyNow_keeps | apply settleSync_keeps | apply sendBarriers_keeps
          | apply arriveAt_keeps | apply grant_keeps | apply keeps_ite_fst
      | intro _
      | (dsimp only)

theorem serveObject_keeps {m : Part} {a : State} (a0 : FabWindow) (a1 : FabOp) (a2 : FabReq) (s : State) (h0 : m.ops = true)
    (h1 : m.evr = true) (h2 : m.rings = true) (h3 : m.mem = true) (h4 : m.grd = true) (h5 : m.tts = true) (h6 : m.srv = true)
    (h7 : m.fab = true) (h8 : m.syn = true) (h9 : m.hlt = true) (h10 : m.tiles = true) (h11 : m.out = true) (h12 : m.fresh =
    true) (h : Keeps m a s) :
    Keeps m a (serveObject a0 a1 a2 s).1 := by
  unfold serveObject
  repeat' first
      | with_reducible first | assumption | apply objectApply_keeps
      | split
      | (dsimp only)

theorem contendFab_keeps {m : Part} {a : State} (a0 : Nat) (a1 : Nat) (a2 : Nat) (a3 : FabReq) (s : State) (h0 : m.srv = true)
    (h1 : m.syn = true) (h : Keeps m a s) :
    Keeps m a (contendFab a0 a1 a2 a3 s) := by
  unfold contendFab
  repeat' first
      | with_reducible first | assumption | apply contendRange_keeps
      | split

theorem serveMemory_keeps {m : Part} {a : State} (a0 : FabWindow) (a1 : FabOp) (a2 : FabReq) (s : State) (h0 : m.evr = true)
    (h1 : m.mem = true) (h2 : m.srv = true) (h3 : m.syn = true) (h4 : m.hlt = true) (h5 : m.out = true) (h : Keeps m a s) :
    Keeps m a (serveMemory a0 a1 a2 s).1 := by
  unfold serveMemory
  repeat' first
      | with_reducible first | assumption | apply contendFab_keeps | apply fault_keeps | apply storeBytes_keeps
      | split
      | (dsimp only)

theorem serveWindow_keeps {m : Part} {a : State} (a0 : FabWindow) (a1 : FabOp) (a2 : FabReq) (s : State) (h0 : m.ops = true)
    (h1 : m.evr = true) (h2 : m.rings = true) (h3 : m.mem = true) (h4 : m.grd = true) (h5 : m.tts = true) (h6 : m.srv = true)
    (h7 : m.fab = true) (h8 : m.syn = true) (h9 : m.hlt = true) (h10 : m.tiles = true) (h11 : m.out = true) (h12 : m.fresh =
    true) (h : Keeps m a s) :
    Keeps m a (serveWindow a0 a1 a2 s).1 := by
  unfold serveWindow
  repeat' first
      | with_reducible first | assumption | apply serveObject_keeps | apply serveMemory_keeps
      | split

theorem serveFresh_keeps {m : Part} {a : State} (a0 : FabOp) (a1 : FabReq) (s : State) (h0 : m.ops = true) (h1 : m.evr = true)
    (h2 : m.rings = true) (h3 : m.mem = true) (h4 : m.grd = true) (h5 : m.tts = true) (h6 : m.srv = true) (h7 : m.fab = true)
    (h8 : m.syn = true) (h9 : m.hlt = true) (h10 : m.tiles = true) (h11 : m.out = true) (h12 : m.fresh = true) (h : Keeps m a
    s) :
    Keeps m a (serveFresh a0 a1 s).1 := by
  unfold serveFresh
  repeat' first
      | with_reducible first | assumption | apply serveWindow_keeps
      | split

theorem serveAgain_keeps {m : Part} {a : State} (a0 : FabOp) (a1 : FabReq) (s : State) (h0 : m.ops = true) (h1 : m.evr = true)
    (h2 : m.rings = true) (h3 : m.mem = true) (h4 : m.grd = true) (h5 : m.tts = true) (h6 : m.srv = true) (h7 : m.fab = true)
    (h8 : m.syn = true) (h9 : m.hlt = true) (h10 : m.tiles = true) (h11 : m.out = true) (h12 : m.fresh = true) (h : Keeps m a
    s) :
    Keeps m a (serveAgain a0 a1 s).1 := by
  unfold serveAgain
  repeat' with_reducible first | assumption | apply serveFresh_keeps

theorem markApplied_keeps {m : Part} {a : State} (a0 : Nat) (a1 : Nat) (s : State) (h0 : m.fab = true) (h : Keeps m a s) :
    Keeps m a (markApplied a0 a1 s) := by
  unfold markApplied
  repeat' with_reducible first | assumption | apply updFab_keeps

theorem receiveReq_keeps {m : Part} {a : State} (a0 : FabOp) (a1 : FabReq) (s : State) (h0 : m.ops = true) (h1 : m.evr = true)
    (h2 : m.rings = true) (h3 : m.mem = true) (h4 : m.grd = true) (h5 : m.tts = true) (h6 : m.srv = true) (h7 : m.fab = true)
    (h8 : m.syn = true) (h9 : m.hlt = true) (h10 : m.tiles = true) (h11 : m.out = true) (h12 : m.fresh = true) (h : Keeps m a
    s) :
    Keeps m a (receiveReq a0 a1 s) := by
  unfold receiveReq
  repeat' first
      | with_reducible first
          | assumption | apply makeEntry_keeps | apply releaseEntries_keeps | apply countRx_keeps | apply heardFrom_keeps
          | apply sendReply_keeps | apply serveAgain_keeps | apply updFabCtr_keeps | apply markApplied_keeps
          | apply serveFresh_keeps
      | split
      | (dsimp only)

theorem pruneTags_keeps {m : Part} {a : State} (s : State) (h0 : m.fab = true) (h : Keeps m a s) :
    Keeps m a (pruneTags s) := by
  unfold pruneTags
  repeat' with_reducible first | assumption | apply updFab_keeps

theorem resolveTag_keeps {m : Part} {a : State} (a0 : Nat) (a1 : Nat) (a2 : Status) (a3 : Nat) (a4 : List Byte) (s : State)
    (h0 : m.ops = true) (h1 : m.evr = true) (h2 : m.rings = true) (h3 : m.mem = true) (h4 : m.grd = true) (h5 : m.tts = true)
    (h6 : m.srv = true) (h7 : m.fab = true) (h8 : m.syn = true) (h9 : m.hlt = true) (h10 : m.tiles = true) (h11 : m.out = true)
    (h12 : m.fresh = true) (h : Keeps m a s) :
    Keeps m a (resolveTag a0 a1 a2 a3 a4 s) := by
  unfold resolveTag
  repeat' first
      | with_reducible first | assumption | apply pruneTags_keeps | apply updTag_keeps | apply tagEnded_keeps
      | split

/-! Machine/Fabric.lean -/

theorem fabDeviceConfigBody_keeps {m : Part} {a : State} (a0 : Req) (s : State) (h0 : m.fab = true) (h : Keeps m a s) :
    Keeps m a (fabDeviceConfigBody a0 s).1 := by
  unfold fabDeviceConfigBody
  repeat' first
      | with_reducible first | assumption | apply failed_keeps | apply updFab_keeps
      | split
      | (dsimp only)

theorem execFadd_keeps {m : Part} {a : State} (a0 : FabReq) (a1 : Bool) (s : State) (h0 : m.ops = true) (h1 : m.evr = true)
    (h2 : m.rings = true) (h3 : m.mem = true) (h4 : m.grd = true) (h5 : m.tts = true) (h6 : m.srv = true) (h7 : m.fab = true)
    (h8 : m.syn = true) (h9 : m.hlt = true) (h10 : m.tiles = true) (h11 : m.out = true) (h12 : m.fresh = true) (h : Keeps m a
    s) :
    KeepsO m a (execFadd a0 a1 s) := by
  unfold execFadd
  repeat' with_reducible first | assumption | apply receiveReq_keeps | apply run_keeps

theorem execXchg_keeps {m : Part} {a : State} (a0 : FabReq) (s : State) (h0 : m.ops = true) (h1 : m.evr = true) (h2 : m.rings =
    true) (h3 : m.mem = true) (h4 : m.grd = true) (h5 : m.tts = true) (h6 : m.srv = true) (h7 : m.fab = true) (h8 : m.syn =
    true) (h9 : m.hlt = true) (h10 : m.tiles = true) (h11 : m.out = true) (h12 : m.fresh = true) (h : Keeps m a s) :
    KeepsO m a (execXchg a0 s) := by
  unfold execXchg
  repeat' with_reducible first | assumption | apply receiveReq_keeps | apply run_keeps

theorem execOrR_keeps {m : Part} {a : State} (a0 : FabReq) (s : State) (h0 : m.ops = true) (h1 : m.evr = true) (h2 : m.rings =
    true) (h3 : m.mem = true) (h4 : m.grd = true) (h5 : m.tts = true) (h6 : m.srv = true) (h7 : m.fab = true) (h8 : m.syn =
    true) (h9 : m.hlt = true) (h10 : m.tiles = true) (h11 : m.out = true) (h12 : m.fresh = true) (h : Keeps m a s) :
    KeepsO m a (execOrR a0 s) := by
  unfold execOrR
  repeat' with_reducible first | assumption | apply receiveReq_keeps | apply run_keeps

theorem requestIssue_keeps {m : Part} {a : State} (a0 : FabDesc) (s : State) (h0 : m.ops = true) (h1 : m.evr = true) (h2 :
    m.rings = true) (h3 : m.mem = true) (h4 : m.grd = true) (h5 : m.tts = true) (h6 : m.srv = true) (h7 : m.fab = true) (h8 :
    m.syn = true) (h9 : m.hlt = true) (h10 : m.tiles = true) (h11 : m.cde = true) (h12 : m.out = true) (h13 : m.fresh = true)
    (h : Keeps m a s) :
    Keeps m a (requestIssue a0 s) := by
  unfold requestIssue
  repeat' first
      | with_reducible first | assumption | apply issued_keeps | apply shareFault_keeps | apply issueReq_keeps
      | split
      | (dsimp only)

theorem issueResume_keeps {m : Part} {a : State} (a0 : Nat) (s : State) (h0 : m.ops = true) (h1 : m.evr = true) (h2 : m.rings =
    true) (h3 : m.mem = true) (h4 : m.grd = true) (h5 : m.tts = true) (h6 : m.srv = true) (h7 : m.fab = true) (h8 : m.syn =
    true) (h9 : m.hlt = true) (h10 : m.tiles = true) (h11 : m.out = true) (h12 : m.fresh = true) (h : Keeps m a s) :
    Keeps m a (issueResume a0 s) := by
  unfold issueResume
  repeat' first
      | with_reducible first | assumption | apply updFab_keeps | apply sendDesc_keeps
      | split
      | (dsimp only)

theorem execCas_keeps {m : Part} {a : State} (a0 : FabReq) (s : State) (h0 : m.ops = true) (h1 : m.evr = true) (h2 : m.rings =
    true) (h3 : m.mem = true) (h4 : m.grd = true) (h5 : m.tts = true) (h6 : m.srv = true) (h7 : m.fab = true) (h8 : m.syn =
    true) (h9 : m.hlt = true) (h10 : m.tiles = true) (h11 : m.out = true) (h12 : m.fresh = true) (h : Keeps m a s) :
    KeepsO m a (execCas a0 s) := by
  unfold execCas
  repeat' with_reducible first | assumption | apply receiveReq_keeps | apply run_keeps

theorem execFaddR_keeps {m : Part} {a : State} (a0 : FabReq) (a1 : Bool) (s : State) (h0 : m.ops = true) (h1 : m.evr = true)
    (h2 : m.rings = true) (h3 : m.mem = true) (h4 : m.grd = true) (h5 : m.tts = true) (h6 : m.srv = true) (h7 : m.fab = true)
    (h8 : m.syn = true) (h9 : m.hlt = true) (h10 : m.tiles = true) (h11 : m.out = true) (h12 : m.fresh = true) (h : Keeps m a
    s) :
    KeepsO m a (execFaddR a0 a1 s) := by
  unfold execFaddR
  repeat' with_reducible first | assumption | apply receiveReq_keeps | apply run_keeps

theorem fenceEnd_keeps {m : Part} {a : State} (a0 : Nat) (a1 : Nat) (a2 : Nat) (a3 : List Nat) (s : State) (h0 : m.evr = true)
    (h1 : m.srv = true) (h2 : m.hlt = true) (h3 : m.out = true) (h : Keeps m a s) :
    Keeps m a (fenceEnd a0 a1 a2 a3 s) := by
  unfold fenceEnd
  repeat' first
      | with_reducible first | assumption | apply descFailed_keeps
      | split

theorem ffence_keeps {m : Part} {a : State} (a0 : Nat) (a1 : Nat) (a2 : Nat) (a3 : Option Nat) (s : State) (h0 : m.evr = true)
    (h1 : m.grd = true) (h2 : m.srv = true) (h3 : m.fab = true) (h4 : m.hlt = true) (h5 : m.out = true) (h : Keeps m a s) :
    Keeps m a (ffence a0 a1 a2 a3 s) := by
  unfold ffence
  repeat' first
      | with_reducible first | assumption | apply fenceEnd_keeps | apply issued_keeps | apply updFab_keeps
      | split
      | (dsimp only)

theorem retireJob_keeps {m : Part} {a : State} (a0 : Nat) (s : State) (h0 : m.fab = true) (h1 : m.parts = true) (h2 :
    m.quarantine = true) (h : Keeps m a s) :
    Keeps m a (retireJob a0 s) := by
  unfold retireJob
  repeat'
      with_reducible first
        | assumption | apply State.setParts_keeps | apply updFab_keeps | apply State.setQuarantine_keeps

theorem abandonTag_keeps {m : Part} {a : State} (a0 : Nat) (a1 : Nat) (s : State) (h0 : m.ops = true) (h1 : m.evr = true) (h2 :
    m.rings = true) (h3 : m.mem = true) (h4 : m.grd = true) (h5 : m.tts = true) (h6 : m.srv = true) (h7 : m.fab = true) (h8 :
    m.syn = true) (h9 : m.hlt = true) (h10 : m.tiles = true) (h11 : m.out = true) (h12 : m.fresh = true) (h : Keeps m a s) :
    Keeps m a (abandonTag a0 a1 s) := by
  unfold abandonTag
  repeat' first
      | with_reducible first | assumption | apply updTag_keeps | apply updFabCtr_keeps | apply tagEnded_keeps
      | split

theorem replyTimeout_keeps {m : Part} {a : State} (a0 : Nat) (a1 : Nat) (s : State) (h0 : m.ops = true) (h1 : m.evr = true)
    (h2 : m.rings = true) (h3 : m.mem = true) (h4 : m.grd = true) (h5 : m.tts = true) (h6 : m.srv = true) (h7 : m.fab = true)
    (h8 : m.syn = true) (h9 : m.hlt = true) (h10 : m.tiles = true) (h11 : m.out = true) (h12 : m.fresh = true) (h : Keeps m a
    s) :
    Keeps m a (replyTimeout a0 a1 s) := by
  unfold replyTimeout
  repeat' first
      | with_reducible first
          | assumption | apply abandonTag_keeps | apply updTag_keeps | apply transmit_keeps | apply updFabCtr_keeps
      | split

theorem execReplyTimeout_keeps {m : Part} {a : State} (a0 : Nat) (a1 : Nat) (s : State) (h0 : m.ops = true) (h1 : m.evr = true)
    (h2 : m.rings = true) (h3 : m.mem = true) (h4 : m.grd = true) (h5 : m.tts = true) (h6 : m.srv = true) (h7 : m.fab = true)
    (h8 : m.syn = true) (h9 : m.hlt = true) (h10 : m.tiles = true) (h11 : m.out = true) (h12 : m.fresh = true) (h : Keeps m a
    s) :
    KeepsO m a (execReplyTimeout a0 a1 s) := by
  unfold execReplyTimeout
  repeat' with_reducible first | assumption | apply replyTimeout_keeps | apply run_keeps

theorem execStore_keeps {m : Part} {a : State} (a0 : FabReq) (s : State) (h0 : m.ops = true) (h1 : m.evr = true) (h2 : m.rings =
    true) (h3 : m.mem = true) (h4 : m.grd = true) (h5 : m.tts = true) (h6 : m.srv = true) (h7 : m.fab = true) (h8 : m.syn =
    true) (h9 : m.hlt = true) (h10 : m.tiles = true) (h11 : m.out = true) (h12 : m.fresh = true) (h : Keeps m a s) :
    KeepsO m a (execStore a0 s) := by
  unfold execStore
  repeat' with_reducible first | assumption | apply receiveReq_keeps | apply run_keeps

theorem ffenceComplete_keeps {m : Part} {a : State} (a0 : Nat) (s : State) (h0 : m.evr = true) (h1 : m.srv = true) (h2 : m.fab =
    true) (h3 : m.hlt = true) (h4 : m.out = true) (h : Keeps m a s) :
    Keeps m a (ffenceComplete a0 s) := by
  unfold ffenceComplete
  repeat' first
      | with_reducible first | assumption | apply fenceEnd_keeps | apply updFab_keeps
      | split

theorem fabJobTakeBody_keeps {m : Part} {a : State} (a0 : Req) (s : State) (h0 : m.parts = true) (h : Keeps m a s) :
    Keeps m a (fabJobTakeBody a0 s).1 := by
  unfold fabJobTakeBody
  repeat' first
      | with_reducible first | assumption | apply failed_keeps | apply updPart_keeps
      | split
      | (dsimp only)

theorem execFabJobTake_keeps {m : Part} {a : State} (a0 : Nat) (s : State) (h0 : m.mbx = true) (h1 : m.evr = true) (h2 : m.parts
    = true) (h3 : m.out = true) (h : Keeps m a s) :
    KeepsO m a (execFabJobTake a0 s) := by
  unfold execFabJobTake
  repeat' first
      | with_reducible first | assumption | apply runCommand_keeps | apply run_keeps | apply fabJobTakeBody_keeps
      | intro _

theorem execFfence_keeps {m : Part} {a : State} (a0 : Nat) (a1 : Nat) (a2 : Nat) (a3 : Option Nat) (s : State) (h0 : m.evr =
    true) (h1 : m.grd = true) (h2 : m.srv = true) (h3 : m.fab = true) (h4 : m.hlt = true) (h5 : m.out = true) (h : Keeps m a
    s) :
    KeepsO m a (execFfence a0 a1 a2 a3 s) := by
  unfold execFfence
  repeat' with_reducible first | assumption | apply ffence_keeps | apply run_keeps

theorem fabPortEvent_keeps {m : Part} {a : State} (a0 : Nat) (a1 : Bool) (a2 : Nat) (s : State) (h0 : m.evr = true) (h1 : m.out
    = true) (h : Keeps m a s) :
    Keeps m a (fabPortEvent a0 a1 a2 s) := by
  unfold fabPortEvent
  repeat' with_reducible first | assumption | apply post_keeps

theorem fabPort_keeps {m : Part} {a : State} (a0 : Nat) (a1 : Bool) (s : State) (h0 : m.evr = true) (h1 : m.fab = true) (h2 :
    m.hlt = true) (h3 : m.out = true) (h : Keeps m a s) :
    Keeps m a (fabPort a0 a1 s) := by
  unfold fabPort
  repeat' first
      | with_reducible first | assumption | apply fabPortEvent_keeps | apply updPort_keeps | apply healthAdd_keeps
      | split
      | (dsimp only)

theorem execFabricRequestIssue_keeps {m : Part} {a : State} (a0 : FabDesc) (s : State) (h0 : m.ops = true) (h1 : m.evr = true)
    (h2 : m.rings = true) (h3 : m.mem = true) (h4 : m.grd = true) (h5 : m.tts = true) (h6 : m.srv = true) (h7 : m.fab = true)
    (h8 : m.syn = true) (h9 : m.hlt = true) (h10 : m.tiles = true) (h11 : m.cde = true) (h12 : m.out = true) (h13 : m.fresh =
    true) (h : Keeps m a s) :
    KeepsO m a (execFabricRequestIssue a0 s) := by
  unfold execFabricRequestIssue
  repeat' with_reducible first | assumption | apply requestIssue_keeps | apply run_keeps

theorem entryExpiry_keeps {m : Part} {a : State} (a0 : Nat) (a1 : Nat) (s : State) (h0 : m.fab = true) (h : Keeps m a s) :
    Keeps m a (entryExpiry a0 a1 s) := by
  unfold entryExpiry
  repeat' first
      | with_reducible first | assumption | apply updFab_keeps
      | split

theorem execLedgerEntryExpiry_keeps {m : Part} {a : State} (a0 : Nat) (a1 : Nat) (s : State) (h0 : m.fab = true) (h : Keeps m a
    s) :
    KeepsO m a (execLedgerEntryExpiry a0 a1 s) := by
  unfold execLedgerEntryExpiry
  repeat' with_reducible first | assumption | apply run_keeps | apply entryExpiry_keeps

theorem execLoad_keeps {m : Part} {a : State} (a0 : FabReq) (s : State) (h0 : m.ops = true) (h1 : m.evr = true) (h2 : m.rings =
    true) (h3 : m.mem = true) (h4 : m.grd = true) (h5 : m.tts = true) (h6 : m.srv = true) (h7 : m.fab = true) (h8 : m.syn =
    true) (h9 : m.hlt = true) (h10 : m.tiles = true) (h11 : m.out = true) (h12 : m.fresh = true) (h : Keeps m a s) :
    KeepsO m a (execLoad a0 s) := by
  unfold execLoad
  repeat' with_reducible first | assumption | apply receiveReq_keeps | apply run_keeps

theorem sourceExpiry_keeps {m : Part} {a : State} (a0 : Nat) (s : State) (h0 : m.fab = true) (h : Keeps m a s) :
    Keeps m a (sourceExpiry a0 s) := by
  unfold sourceExpiry
  repeat' first
      | with_reducible first | assumption | apply updFab_keeps
      | split

theorem execSourceRecordExpiry_keeps {m : Part} {a : State} (a0 : Nat) (s : State) (h0 : m.fab = true) (h : Keeps m a s) :
    KeepsO m a (execSourceRecordExpiry a0 s) := by
  unfold execSourceRecordExpiry
  repeat' with_reducible first | assumption | apply sourceExpiry_keeps | apply run_keeps

theorem execFabDeviceConfig_keeps {m : Part} {a : State} (a0 : Nat) (s : State) (h0 : m.mbx = true) (h1 : m.evr = true) (h2 :
    m.fab = true) (h3 : m.out = true) (h : Keeps m a s) :
    KeepsO m a (execFabDeviceConfig a0 s) := by
  unfold execFabDeviceConfig
  repeat' first
      | with_reducible first | assumption | apply runCommand_keeps | apply run_keeps | apply fabDeviceConfigBody_keeps
      | intro _

theorem fabStatusBody_keeps {m : Part} {a : State} (a0 : Req) (s : State) (h0 : m.fab = true) (h : Keeps m a s) :
    Keeps m a (fabStatusBody a0 s).1 := by
  unfold fabStatusBody
  repeat' first
      | with_reducible first | assumption | apply failed_keeps | apply updPort_keeps | apply updFabCtr_keeps
      | split
      | (dsimp only)

theorem execAtomicAnd_keeps {m : Part} {a : State} (a0 : FabReq) (s : State) (h0 : m.ops = true) (h1 : m.evr = true) (h2 :
    m.rings = true) (h3 : m.mem = true) (h4 : m.grd = true) (h5 : m.tts = true) (h6 : m.srv = true) (h7 : m.fab = true) (h8 :
    m.syn = true) (h9 : m.hlt = true) (h10 : m.tiles = true) (h11 : m.out = true) (h12 : m.fresh = true) (h : Keeps m a s) :
    KeepsO m a (execAtomicAnd a0 s) := by
  unfold execAtomicAnd
  repeat' with_reducible first | assumption | apply receiveReq_keeps | apply run_keeps

theorem execFabricIssueResume_keeps {m : Part} {a : State} (a0 : Nat) (s : State) (h0 : m.ops = true) (h1 : m.evr = true) (h2 :
    m.rings = true) (h3 : m.mem = true) (h4 : m.grd = true) (h5 : m.tts = true) (h6 : m.srv = true) (h7 : m.fab = true) (h8 :
    m.syn = true) (h9 : m.hlt = true) (h10 : m.tiles = true) (h11 : m.out = true) (h12 : m.fresh = true) (h : Keeps m a s) :
    KeepsO m a (execFabricIssueResume a0 s) := by
  unfold execFabricIssueResume
  repeat' with_reducible first | assumption | apply issueResume_keeps | apply run_keeps

theorem lifetimeExpiry_keeps {m : Part} {a : State} (a0 : Nat) (a1 : Nat) (s : State) (h0 : m.fab = true) (h : Keeps m a s) :
    Keeps m a (lifetimeExpiry a0 a1 s) := by
  unfold lifetimeExpiry
  repeat' first
      | with_reducible first | assumption | apply pruneTags_keeps | apply updTag_keeps
      | split

theorem execLifetimeExpiry_keeps {m : Part} {a : State} (a0 : Nat) (a1 : Nat) (s : State) (h0 : m.fab = true) (h : Keeps m a
    s) :
    KeepsO m a (execLifetimeExpiry a0 a1 s) := by
  unfold execLifetimeExpiry
  repeat' with_reducible first | assumption | apply lifetimeExpiry_keeps | apply run_keeps

theorem fabWindowSetBody_keeps {m : Part} {a : State} (a0 : Req) (s : State) (h0 : m.fab = true) (h1 : m.fresh = true) (h :
    Keeps m a s) :
    Keeps m a (fabWindowSetBody a0 s).1 := by
  unfold fabWindowSetBody
  repeat' first
      | with_reducible first | assumption | apply failed_keeps | apply pickFree_keeps | apply updFab_keeps
      | split
      | (dsimp only)
      | (rename (_ = (_, (_ : State))) => hp; have e := congrArg Prod.snd hp; clear hp; dsimp only at e; subst e)

theorem execFabWindowSet_keeps {m : Part} {a : State} (a0 : Nat) (s : State) (h0 : m.mbx = true) (h1 : m.evr = true) (h2 : m.fab
    = true) (h3 : m.out = true) (h4 : m.fresh = true) (h : Keeps m a s) :
    KeepsO m a (execFabWindowSet a0 s) := by
  unfold execFabWindowSet
  repeat' first
      | with_reducible first | assumption | apply runCommand_keeps | apply fabWindowSetBody_keeps | apply run_keeps
      | intro _

theorem execPut_keeps {m : Part} {a : State} (a0 : FabReq) (s : State) (h0 : m.ops = true) (h1 : m.evr = true) (h2 : m.rings =
    true) (h3 : m.mem = true) (h4 : m.grd = true) (h5 : m.tts = true) (h6 : m.srv = true) (h7 : m.fab = true) (h8 : m.syn =
    true) (h9 : m.hlt = true) (h10 : m.tiles = true) (h11 : m.out = true) (h12 : m.fresh = true) (h : Keeps m a s) :
    KeepsO m a (execPut a0 s) := by
  unfold execPut
  repeat' with_reducible first | assumption | apply receiveReq_keeps | apply run_keeps

theorem execAtomicXor_keeps {m : Part} {a : State} (a0 : FabReq) (s : State) (h0 : m.ops = true) (h1 : m.evr = true) (h2 :
    m.rings = true) (h3 : m.mem = true) (h4 : m.grd = true) (h5 : m.tts = true) (h6 : m.srv = true) (h7 : m.fab = true) (h8 :
    m.syn = true) (h9 : m.hlt = true) (h10 : m.tiles = true) (h11 : m.out = true) (h12 : m.fresh = true) (h : Keeps m a s) :
    KeepsO m a (execAtomicXor a0 s) := by
  unfold execAtomicXor
  repeat' with_reducible first | assumption | apply receiveReq_keeps | apply run_keeps

theorem execAtomicOr_keeps {m : Part} {a : State} (a0 : FabReq) (s : State) (h0 : m.ops = true) (h1 : m.evr = true) (h2 :
    m.rings = true) (h3 : m.mem = true) (h4 : m.grd = true) (h5 : m.tts = true) (h6 : m.srv = true) (h7 : m.fab = true) (h8 :
    m.syn = true) (h9 : m.hlt = true) (h10 : m.tiles = true) (h11 : m.out = true) (h12 : m.fresh = true) (h : Keeps m a s) :
    KeepsO m a (execAtomicOr a0 s) := by
  unfold execAtomicOr
  repeat' with_reducible first | assumption | apply receiveReq_keeps | apply run_keeps

theorem fabPortConfigBody_keeps {m : Part} {a : State} (a0 : Req) (s : State) (h0 : m.evr = true) (h1 : m.fab = true) (h2 :
    m.out = true) (h : Keeps m a s) :
    Keeps m a (fabPortConfigBody a0 s).1 := by
  unfold fabPortConfigBody
  repeat' first
      | with_reducible first | assumption | apply failed_keeps | apply fabPortEvent_keeps | apply updPort_keeps
      | split
      | (dsimp only)

theorem execFabPortConfig_keeps {m : Part} {a : State} (a0 : Nat) (s : State) (h0 : m.mbx = true) (h1 : m.evr = true) (h2 :
    m.fab = true) (h3 : m.out = true) (h : Keeps m a s) :
    KeepsO m a (execFabPortConfig a0 s) := by
  unfold execFabPortConfig
  repeat' first
      | with_reducible first | assumption | apply runCommand_keeps | apply fabPortConfigBody_keeps | apply run_keeps
      | intro _

theorem execReduceAdd_keeps {m : Part} {a : State} (a0 : FabReq) (s : State) (h0 : m.ops = true) (h1 : m.evr = true) (h2 :
    m.rings = true) (h3 : m.mem = true) (h4 : m.grd = true) (h5 : m.tts = true) (h6 : m.srv = true) (h7 : m.fab = true) (h8 :
    m.syn = true) (h9 : m.hlt = true) (h10 : m.tiles = true) (h11 : m.out = true) (h12 : m.fresh = true) (h : Keeps m a s) :
    KeepsO m a (execReduceAdd a0 s) := by
  unfold execReduceAdd
  repeat' with_reducible first | assumption | apply receiveReq_keeps | apply run_keeps

theorem fabWindowClearBody_keeps {m : Part} {a : State} (a0 : Req) (s : State) (h0 : m.fab = true) (h : Keeps m a s) :
    Keeps m a (fabWindowClearBody a0 s).1 := by
  unfold fabWindowClearBody
  repeat' first
      | with_reducible first | assumption | apply failed_keeps | apply updFab_keeps
      | split

theorem execFabWindowClear_keeps {m : Part} {a : State} (a0 : Nat) (s : State) (h0 : m.mbx = true) (h1 : m.evr = true) (h2 :
    m.fab = true) (h3 : m.out = true) (h : Keeps m a s) :
    KeepsO m a (execFabWindowClear a0 s) := by
  unfold execFabWindowClear
  repeat' first
      | with_reducible first | assumption | apply runCommand_keeps | apply fabWindowClearBody_keeps | apply run_keeps
      | intro _

theorem execXorR_keeps {m : Part} {a : State} (a0 : FabReq) (s : State) (h0 : m.ops = true) (h1 : m.evr = true) (h2 : m.rings =
    true) (h3 : m.mem = true) (h4 : m.grd = true) (h5 : m.tts = true) (h6 : m.srv = true) (h7 : m.fab = true) (h8 : m.syn =
    true) (h9 : m.hlt = true) (h10 : m.tiles = true) (h11 : m.out = true) (h12 : m.fresh = true) (h : Keeps m a s) :
    KeepsO m a (execXorR a0 s) := by
  unfold execXorR
  repeat' with_reducible first | assumption | apply receiveReq_keeps | apply run_keeps

theorem execAtomicAdd_keeps {m : Part} {a : State} (a0 : FabReq) (s : State) (h0 : m.ops = true) (h1 : m.evr = true) (h2 :
    m.rings = true) (h3 : m.mem = true) (h4 : m.grd = true) (h5 : m.tts = true) (h6 : m.srv = true) (h7 : m.fab = true) (h8 :
    m.syn = true) (h9 : m.hlt = true) (h10 : m.tiles = true) (h11 : m.out = true) (h12 : m.fresh = true) (h : Keeps m a s) :
    KeepsO m a (execAtomicAdd a0 s) := by
  unfold execAtomicAdd
  repeat' with_reducible first | assumption | apply receiveReq_keeps | apply run_keeps

theorem execFabStatus_keeps {m : Part} {a : State} (a0 : Nat) (s : State) (h0 : m.mbx = true) (h1 : m.evr = true) (h2 : m.fab =
    true) (h3 : m.out = true) (h : Keeps m a s) :
    KeepsO m a (execFabStatus a0 s) := by
  unfold execFabStatus
  repeat' first
      | with_reducible first | assumption | apply fabStatusBody_keeps | apply runCommand_keeps | apply run_keeps
      | intro _

theorem fabricReply_keeps {m : Part} {a : State} (a0 : FabReply) (s : State) (h0 : m.ops = true) (h1 : m.evr = true) (h2 :
    m.rings = true) (h3 : m.mem = true) (h4 : m.grd = true) (h5 : m.tts = true) (h6 : m.srv = true) (h7 : m.fab = true) (h8 :
    m.syn = true) (h9 : m.hlt = true) (h10 : m.tiles = true) (h11 : m.out = true) (h12 : m.fresh = true) (h : Keeps m a s) :
    Keeps m a (fabricReply a0 s) := by
  unfold fabricReply
  repeat' first
      | with_reducible first | assumption | apply resolveTag_keeps | apply countRx_keeps
      | split
      | (dsimp only)

theorem execFabricReply_keeps {m : Part} {a : State} (a0 : FabReply) (s : State) (h0 : m.ops = true) (h1 : m.evr = true) (h2 :
    m.rings = true) (h3 : m.mem = true) (h4 : m.grd = true) (h5 : m.tts = true) (h6 : m.srv = true) (h7 : m.fab = true) (h8 :
    m.syn = true) (h9 : m.hlt = true) (h10 : m.tiles = true) (h11 : m.out = true) (h12 : m.fresh = true) (h : Keeps m a s) :
    KeepsO m a (execFabricReply a0 s) := by
  unfold execFabricReply
  repeat' with_reducible first | assumption | apply fabricReply_keeps | apply run_keeps

theorem fabJobReleaseBody_keeps {m : Part} {a : State} (a0 : Req) (s : State) (h0 : m.fab = true) (h1 : m.parts = true) (h2 :
    m.quarantine = true) (h : Keeps m a s) :
    Keeps m a (fabJobReleaseBody a0 s).1 := by
  unfold fabJobReleaseBody
  repeat' first
      | with_reducible first | assumption | apply failed_keeps | apply retireJob_keeps
      | split
      | (dsimp only)

theorem execFabJobRelease_keeps {m : Part} {a : State} (a0 : Nat) (s : State) (h0 : m.mbx = true) (h1 : m.evr = true) (h2 :
    m.fab = true) (h3 : m.parts = true) (h4 : m.quarantine = true) (h5 : m.out = true) (h : Keeps m a s) :
    KeepsO m a (execFabJobRelease a0 s) := by
  unfold execFabJobRelease
  repeat' first
      | with_reducible first | assumption | apply runCommand_keeps | apply fabJobReleaseBody_keeps | apply run_keeps
      | intro _

theorem execAndR_keeps {m : Part} {a : State} (a0 : FabReq) (s : State) (h0 : m.ops = true) (h1 : m.evr = true) (h2 : m.rings =
    true) (h3 : m.mem = true) (h4 : m.grd = true) (h5 : m.tts = true) (h6 : m.srv = true) (h7 : m.fab = true) (h8 : m.syn =
    true) (h9 : m.hlt = true) (h10 : m.tiles = true) (h11 : m.out = true) (h12 : m.fresh = true) (h : Keeps m a s) :
    KeepsO m a (execAndR a0 s) := by
  unfold execAndR
  repeat' with_reducible first | assumption | apply receiveReq_keeps | apply run_keeps

theorem execAddR_keeps {m : Part} {a : State} (a0 : FabReq) (s : State) (h0 : m.ops = true) (h1 : m.evr = true) (h2 : m.rings =
    true) (h3 : m.mem = true) (h4 : m.grd = true) (h5 : m.tts = true) (h6 : m.srv = true) (h7 : m.fab = true) (h8 : m.syn =
    true) (h9 : m.hlt = true) (h10 : m.tiles = true) (h11 : m.out = true) (h12 : m.fresh = true) (h : Keeps m a s) :
    KeepsO m a (execAddR a0 s) := by
  unfold execAddR
  repeat' with_reducible first | assumption | apply receiveReq_keeps | apply run_keeps

theorem execGet_keeps {m : Part} {a : State} (a0 : FabReq) (s : State) (h0 : m.ops = true) (h1 : m.evr = true) (h2 : m.rings =
    true) (h3 : m.mem = true) (h4 : m.grd = true) (h5 : m.tts = true) (h6 : m.srv = true) (h7 : m.fab = true) (h8 : m.syn =
    true) (h9 : m.hlt = true) (h10 : m.tiles = true) (h11 : m.out = true) (h12 : m.fresh = true) (h : Keeps m a s) :
    KeepsO m a (execGet a0 s) := by
  unfold execGet
  repeat' with_reducible first | assumption | apply receiveReq_keeps | apply run_keeps

theorem execFabPort_keeps {m : Part} {a : State} (a0 : Nat) (a1 : Bool) (s : State) (h0 : m.evr = true) (h1 : m.fab = true)
    (h2 : m.hlt = true) (h3 : m.out = true) (h : Keeps m a s) :
    KeepsO m a (execFabPort a0 a1 s) := by
  unfold execFabPort
  repeat' with_reducible first | assumption | apply run_keeps | apply runOn_keeps | apply fabPort_keeps

theorem execFfenceComplete_keeps {m : Part} {a : State} (a0 : Nat) (s : State) (h0 : m.evr = true) (h1 : m.srv = true) (h2 :
    m.fab = true) (h3 : m.hlt = true) (h4 : m.out = true) (h : Keeps m a s) :
    KeepsO m a (execFfenceComplete a0 s) := by
  unfold execFfenceComplete
  repeat' with_reducible first | assumption | apply ffenceComplete_keeps | apply run_keeps

/-! Machine/Tile.lean -/

theorem storeVec_keeps {m : Part} {a : State} (a0 : Nat) (a1 : Nat) (a2 : Nat) (a3 : Nat) (s : State) (h0 : m.ops = true) (h1 :
    m.evr = true) (h2 : m.rings = true) (h3 : m.mem = true) (h4 : m.grd = true) (h5 : m.tts = true) (h6 : m.srv = true) (h7 :
    m.fab = true) (h8 : m.syn = true) (h9 : m.hlt = true) (h10 : m.tiles = true) (h11 : m.cde = true) (h12 : m.out = true)
    (h13 : m.fresh = true) (h : Keeps m a s) :
    Keeps m a (storeVec a0 a1 a2 a3 s) := by
  unfold storeVec
  repeat' first
      | with_reducible first | assumption | apply shareFault_keeps | apply updTile_keeps | apply storeBytes_keeps
      | split
      | (dsimp only)

theorem regEff_keeps {m : Part} {a : State} (a0 : Nat) (a1 : Nat) (a2 : Tile → Tile × ArithFlags) (s : State) (h0 : m.grd =
    true) (h1 : m.tiles = true) (h : Keeps m a s) :
    Keeps m a (regEff a0 a1 a2 s) := by
  unfold regEff
  repeat' first
      | with_reducible first | assumption | apply updTile_keeps | apply setFlags_keeps
      | split

theorem loadVec_keeps {m : Part} {a : State} (a0 : Nat) (a1 : Nat) (a2 : Nat) (a3 : Nat) (a4 : Nat) (a5 : Bool) (s : State)
    (h0 : m.ops = true) (h1 : m.evr = true) (h2 : m.rings = true) (h3 : m.mem = true) (h4 : m.grd = true) (h5 : m.tts = true)
    (h6 : m.srv = true) (h7 : m.fab = true) (h8 : m.syn = true) (h9 : m.hlt = true) (h10 : m.tiles = true) (h11 : m.cde = true)
    (h12 : m.out = true) (h13 : m.fresh = true) (h : Keeps m a s) :
    Keeps m a (loadVec a0 a1 a2 a3 a4 a5 s) := by
  unfold loadVec
  repeat' first
      | with_reducible first | assumption | apply shareFault_keeps | apply updTile_keeps | apply badRead_keeps
      | split
      | (dsimp only)

theorem opEff_keeps {m : Part} {a : State} (a0 : Nat) (a1 : TileOp) (s : State) (h0 : m.ops = true) (h1 : m.evr = true) (h2 :
    m.rings = true) (h3 : m.mem = true) (h4 : m.grd = true) (h5 : m.tts = true) (h6 : m.srv = true) (h7 : m.fab = true) (h8 :
    m.syn = true) (h9 : m.hlt = true) (h10 : m.tiles = true) (h11 : m.cde = true) (h12 : m.out = true) (h13 : m.fresh = true)
    (h : Keeps m a s) :
    Keeps m a (opEff a0 a1 s) := by
  unfold opEff
  repeat' first
      | with_reducible first | assumption | apply storeVec_keeps | apply regEff_keeps | apply loadVec_keeps
      | split

theorem repLoop_keeps {m : Part} {a : State} (a0 : Nat) (a1 : TileOp) (a2 : Nat) (s : State) (h0 : m.ops = true) (h1 : m.evr =
    true) (h2 : m.rings = true) (h3 : m.mem = true) (h4 : m.grd = true) (h5 : m.tts = true) (h6 : m.srv = true) (h7 : m.fab =
    true) (h8 : m.syn = true) (h9 : m.hlt = true) (h10 : m.tiles = true) (h11 : m.cde = true) (h12 : m.out = true) (h13 :
    m.fresh = true) (h : Keeps m a s) :
    Keeps m a (repLoop a0 a1 a2 s) := by
  induction a2 generalizing  s with
  | zero =>
    unfold repLoop
    repeat' first
      | with_reducible first
          | assumption | apply opEff_keeps | apply keeps_foldl | apply keeps_ite | apply keeps_ite_fst | apply keeps_ite_snd
          | exact memWf_writeBytes _ _ _ ‹_› | exact memWf_zero _ _ _ ‹_› | exact memWf_nil | exact memWf_forget _ _ _ _ ‹_›
          | exact tabWf_mod _ _ _ ‹_› | exact tabWf_put _ _ _ ‹_› | exact tabWf_del _ _ ‹_›
          | exact tabWf_map _ _ (fun _ => rfl) ‹_› | exact fun _ h => h | exact fun h => h
      | intro _
      | split
      | (dsimp only)
      | (rename (_ = (_, (_ : State))) => hp; have e := congrArg Prod.snd hp; clear hp; dsimp only at e; subst e)
      | (rename (_ = ((_ : State), _)) => hp; have e := congrArg Prod.fst hp; clear hp; dsimp only at e; subst e)
  | succ _ ih =>
    unfold repLoop
    repeat' first
      | with_reducible first
          | assumption | apply ih | apply opEff_keeps | apply keeps_foldl | apply keeps_ite | apply keeps_ite_fst
          | apply keeps_ite_snd | exact memWf_writeBytes _ _ _ ‹_› | exact memWf_zero _ _ _ ‹_› | exact memWf_nil
          | exact memWf_forget _ _ _ _ ‹_› | exact tabWf_mod _ _ _ ‹_› | exact tabWf_put _ _ _ ‹_› | exact tabWf_del _ _ ‹_›
          | exact tabWf_map _ _ (fun _ => rfl) ‹_› | exact fun _ h => h | exact fun h => h
      | intro _
      | split
      | (dsimp only)
      | (rename (_ = (_, (_ : State))) => hp; have e := congrArg Prod.snd hp; clear hp; dsimp only at e; subst e)
      | (rename (_ = ((_ : State), _)) => hp; have e := congrArg Prod.fst hp; clear hp; dsimp only at e; subst e)

theorem onSlice_keeps {m : Part} {a : State} (a0 : Nat) (a1 : Nat) (a2 : State → State) (s : State) (h0 : m.grd = true) (h1 :
    m.hlt = true) (h2 : m.tiles = true) (hk3 : ∀ s, Keeps m a s → Keeps m a (a2 s)) (h : Keeps m a s) :
    Keeps m a (onSlice a0 a1 a2 s) := by
  unfold onSlice
  repeat' first
      | with_reducible first | assumption | apply pastIssue_keeps | apply markIssue_keeps | apply hk3
      | split

theorem tileRun_keeps {m : Part} {a : State} (a0 : Nat) (a1 : Nat) (a2 : Bool) (a3 : State → State) (s : State) (h0 : m.grd =
    true) (h1 : m.hlt = true) (h2 : m.tiles = true) (hk4 : ∀ s, Keeps m a s → Keeps m a (a3 s)) (h : Keeps m a s) :
    KeepsO m a (tileRun a0 a1 a2 a3 s) := by
  unfold tileRun
  repeat' with_reducible first | assumption | apply onSlice_keeps | apply run_keeps | apply runOn_keeps | apply hk4

theorem execVtanh_keeps {m : Part} {a : State} (a0 : Nat) (a1 : Nat) (a2 : Fmt) (a3 : Nat) (a4 : Nat) (s : State) (h0 : m.grd =
    true) (h1 : m.hlt = true) (h2 : m.tiles = true) (h : Keeps m a s) :
    KeepsO m a (execVtanh a0 a1 a2 a3 a4 s) := by
  unfold execVtanh
  repeat' first
      | with_reducible first | assumption | apply regEff_keeps | apply tileRun_keeps
      | intro _

theorem execSub_keeps {m : Part} {a : State} (a0 : Nat) (a1 : Nat) (a2 : Nat) (a3 : Nat) (a4 : Nat) (s : State) (h0 : m.grd =
    true) (h1 : m.hlt = true) (h2 : m.tiles = true) (h : Keeps m a s) :
    KeepsO m a (execSub a0 a1 a2 a3 a4 s) := by
  unfold execSub
  repeat' first
      | with_reducible first | assumption | apply regEff_keeps | apply tileRun_keeps
      | intro _

theorem execVst_keeps {m : Part} {a : State} (a0 : Nat) (a1 : Nat) (a2 : Nat) (a3 : Nat) (s : State) (h0 : m.ops = true) (h1 :
    m.evr = true) (h2 : m.rings = true) (h3 : m.mem = true) (h4 : m.grd = true) (h5 : m.tts = true) (h6 : m.srv = true) (h7 :
    m.fab = true) (h8 : m.syn = true) (h9 : m.hlt = true) (h10 : m.tiles = true) (h11 : m.cde = true) (h12 : m.out = true)
    (h13 : m.fresh = true) (h : Keeps m a s) :
    KeepsO m a (execVst a0 a1 a2 a3 s) := by
  unfold execVst
  repeat' first
      | with_reducible first | assumption | apply storeVec_keeps | apply tileRun_keeps
      | intro _

theorem execBfly4_keeps {m : Part} {a : State} (a0 : Nat) (a1 : Nat) (a2 : Nat) (a3 : Nat) (a4 : Nat) (s : State) (h0 : m.grd =
    true) (h1 : m.hlt = true) (h2 : m.tiles = true) (h : Keeps m a s) :
    KeepsO m a (execBfly4 a0 a1 a2 a3 a4 s) := by
  unfold execBfly4
  repeat' first
      | with_reducible first | assumption | apply regEff_keeps | apply tileRun_keeps
      | intro _

theorem onQuad_keeps {m : Part} {a : State} (a0 : Option QuadCvt) (a1 : QuadCvt → Bool) (a2 : QuadCvt → State → State) (a3 :
    Host.Outcome State Fault Refusal) (s : State) (hk3 : ∀ x s, Keeps m a s → Keeps m a (a2 x s)) (hk4 : KeepsO m a a3) (h :
    Keeps m a s) :
    KeepsO m a (onQuad a0 a1 a2 a3 s) := by
  unfold onQuad
  repeat' first
      | with_reducible first | assumption | apply run_keeps | apply runOn_keeps | apply hk3 | apply hk4
      | split

theorem quadRun_keeps {m : Part} {a : State} (a0 : QuadCvt) (a1 : List (Nat × Nat)) (a2 : List (Nat × Nat)) (a3 : State → State)
    (s : State) (h0 : m.ops = true) (h1 : m.evr = true) (h2 : m.rings = true) (h3 : m.mem = true) (h4 : m.grd = true) (h5 :
    m.tts = true) (h6 : m.srv = true) (h7 : m.fab = true) (h8 : m.syn = true) (h9 : m.hlt = true) (h10 : m.tiles = true) (h11 :
    m.cde = true) (h12 : m.out = true) (h13 : m.fresh = true) (hk4 : ∀ s, Keeps m a s → Keeps m a (a3 s)) (h : Keeps m a s) :
    Keeps m a (quadRun a0 a1 a2 a3 s) := by
  unfold quadRun
  repeat' first
      | with_reducible first | assumption | apply access_keeps | apply hk4
      | split

theorem quadCvt_keeps {m : Part} {a : State} (a0 : QuadCvt) (s : State) (h0 : m.ops = true) (h1 : m.evr = true) (h2 : m.rings =
    true) (h3 : m.mem = true) (h4 : m.grd = true) (h5 : m.tts = true) (h6 : m.srv = true) (h7 : m.fab = true) (h8 : m.syn =
    true) (h9 : m.hlt = true) (h10 : m.tiles = true) (h11 : m.cde = true) (h12 : m.out = true) (h13 : m.fresh = true) (h :
    Keeps m a s) :
    Keeps m a (quadCvt a0 s) := by
  unfold quadCvt
  repeat' first
      | with_reducible first | assumption | apply setFlags_keeps | apply storeBytes_keeps | apply quadRun_keeps
      | intro _

theorem execCvt_keeps {m : Part} {a : State} (a0 : Nat) (a1 : Nat) (a2 : Fmt) (a3 : Fmt) (a4 : Nat) (a5 : Nat) (a6 : Rounding)
    (a7 : Option QuadCvt) (s : State) (h0 : m.ops = true) (h1 : m.evr = true) (h2 : m.rings = true) (h3 : m.mem = true) (h4 :
    m.grd = true) (h5 : m.tts = true) (h6 : m.srv = true) (h7 : m.fab = true) (h8 : m.syn = true) (h9 : m.hlt = true) (h10 :
    m.tiles = true) (h11 : m.cde = true) (h12 : m.out = true) (h13 : m.fresh = true) (h : Keeps m a s) :
    KeepsO m a (execCvt a0 a1 a2 a3 a4 a5 a6 a7 s) := by
  unfold execCvt
  repeat' first
      | with_reducible first
          | assumption | apply onQuad_keeps | apply quadCvt_keeps | apply regEff_keeps | apply tileRun_keeps
      | intro _

theorem redTile_keeps {m : Part} {a : State} (a0 : Nat) (a1 : Nat) (a2 : Fmt) (a3 : Nat) (a4 : Nat) (a5 : Nat) (s : State) (h0 :
    m.ops = true) (h1 : m.evr = true) (h2 : m.rings = true) (h3 : m.mem = true) (h4 : m.grd = true) (h5 : m.tts = true) (h6 :
    m.srv = true) (h7 : m.fab = true) (h8 : m.syn = true) (h9 : m.hlt = true) (h10 : m.tiles = true) (h11 : m.cde = true) (h12 :
    m.out = true) (h13 : m.fresh = true) (h : Keeps m a s) :
    Keeps m a (redTile a0 a1 a2 a3 a4 a5 s) := by
  unfold redTile
  repeat' first
      | with_reducible first
          | assumption | apply shareFault_keeps | apply updTile_keeps | apply badRead_keeps | apply setFlags_keeps
      | split
      | (dsimp only)

theorem redQuad_keeps {m : Part} {a : State} (a0 : Nat) (a1 : Fmt) (a2 : Nat) (a3 : Nat) (a4 : Nat) (s : State) (h0 : m.ops =
    true) (h1 : m.evr = true) (h2 : m.rings = true) (h3 : m.mem = true) (h4 : m.grd = true) (h5 : m.tts = true) (h6 : m.srv =
    true) (h7 : m.fab = true) (h8 : m.syn = true) (h9 : m.hlt = true) (h10 : m.tiles = true) (h11 : m.cde = true) (h12 : m.out =
    true) (h13 : m.fresh = true) (h : Keeps m a s) :
    Keeps m a (redQuad a0 a1 a2 a3 a4 s) := by
  unfold redQuad
  repeat' first
      | with_reducible first | assumption | apply access_keeps | apply setFlags_keeps | apply storeBytes_keeps
      | intro _
      | split

theorem execRedSum_keeps {m : Part} {a : State} (a0 : Nat) (a1 : Nat) (a2 : Fmt) (a3 : Nat) (a4 : Nat) (a5 : Nat) (s : State)
    (h0 : m.ops = true) (h1 : m.evr = true) (h2 : m.rings = true) (h3 : m.mem = true) (h4 : m.grd = true) (h5 : m.tts = true)
    (h6 : m.srv = true) (h7 : m.fab = true) (h8 : m.syn = true) (h9 : m.hlt = true) (h10 : m.tiles = true) (h11 : m.cde = true)
    (h12 : m.out = true) (h13 : m.fresh = true) (h : Keeps m a s) :
    KeepsO m a (execRedSum a0 a1 a2 a3 a4 a5 s) := by
  unfold execRedSum
  repeat' first
      | with_reducible first
          | assumption | apply redTile_keeps | apply redQuad_keeps | apply onSlice_keeps | apply run_keeps | apply runOn_keeps
      | split
      | intro _

theorem execAccst_keeps {m : Part} {a : State} (a0 : Nat) (a1 : Nat) (a2 : Fmt) (a3 : Nat) (a4 : ShiftSrc) (s : State) (h0 :
    m.grd = true) (h1 : m.hlt = true) (h2 : m.tiles = true) (h : Keeps m a s) :
    KeepsO m a (execAccst a0 a1 a2 a3 a4 s) := by
  unfold execAccst
  repeat' first
      | with_reducible first | assumption | apply regEff_keeps | apply tileRun_keeps
      | intro _

theorem gather__keeps {m : Part} {a : State} (a0 : Nat) (a1 : Nat) (a2 : Nat) (a3 : Nat) (a4 : Nat) (s : State) (h0 : m.ops =
    true) (h1 : m.evr = true) (h2 : m.rings = true) (h3 : m.mem = true) (h4 : m.grd = true) (h5 : m.tts = true) (h6 : m.srv =
    true) (h7 : m.fab = true) (h8 : m.syn = true) (h9 : m.hlt = true) (h10 : m.tiles = true) (h11 : m.cde = true) (h12 : m.out =
    true) (h13 : m.fresh = true) (h : Keeps m a s) :
    Keeps m a (gather_ a0 a1 a2 a3 a4 s) := by
  unfold gather_
  repeat' first
      | with_reducible first | assumption | apply shareFault_keeps | apply updTile_keeps | apply badRead_keeps
      | split
      | (dsimp only)

theorem execVexp_keeps {m : Part} {a : State} (a0 : Nat) (a1 : Nat) (a2 : Fmt) (a3 : Nat) (a4 : Nat) (s : State) (h0 : m.grd =
    true) (h1 : m.hlt = true) (h2 : m.tiles = true) (h : Keeps m a s) :
    KeepsO m a (execVexp a0 a1 a2 a3 a4 s) := by
  unfold execVexp
  repeat' first
      | with_reducible first | assumption | apply regEff_keeps | apply tileRun_keeps
      | intro _

theorem execCmac_keeps {m : Part} {a : State} (a0 : Nat) (a1 : Nat) (a2 : Nat) (a3 : Nat) (s : State) (h0 : m.grd = true) (h1 :
    m.hlt = true) (h2 : m.tiles = true) (h : Keeps m a s) :
    KeepsO m a (execCmac a0 a1 a2 a3 s) := by
  unfold execCmac
  repeat' first
      | with_reducible first | assumption | apply regEff_keeps | apply tileRun_keeps
      | intro _

theorem execMul_keeps {m : Part} {a : State} (a0 : Nat) (a1 : Nat) (a2 : Nat) (a3 : Nat) (a4 : Nat) (a5 : ShiftSrc) (s : State)
    (h0 : m.grd = true) (h1 : m.hlt = true) (h2 : m.tiles = true) (h : Keeps m a s) :
    KeepsO m a (execMul a0 a1 a2 a3 a4 a5 s) := by
  unfold execMul
  repeat' first
      | with_reducible first | assumption | apply regEff_keeps | apply tileRun_keeps
      | intro _

theorem execVmax_keeps {m : Part} {a : State} (a0 : Nat) (a1 : Nat) (a2 : Fmt) (a3 : Nat) (a4 : Nat) (a5 : Nat) (s : State)
    (h0 : m.grd = true) (h1 : m.hlt = true) (h2 : m.tiles = true) (h : Keeps m a s) :
    KeepsO m a (execVmax a0 a1 a2 a3 a4 a5 s) := by
  unfold execVmax
  repeat' first
      | with_reducible first | assumption | apply regEff_keeps | apply tileRun_keeps
      | intro _

theorem quadMxq_keeps {m : Part} {a : State} (a0 : QuadCvt) (s : State) (h0 : m.ops = true) (h1 : m.evr = true) (h2 : m.rings =
    true) (h3 : m.mem = true) (h4 : m.grd = true) (h5 : m.tts = true) (h6 : m.srv = true) (h7 : m.fab = true) (h8 : m.syn =
    true) (h9 : m.hlt = true) (h10 : m.tiles = true) (h11 : m.cde = true) (h12 : m.out = true) (h13 : m.fresh = true) (h :
    Keeps m a s) :
    Keeps m a (quadMxq a0 s) := by
  unfold quadMxq
  repeat' first
      | with_reducible first | assumption | apply setFlags_keeps | apply storeBytes_keeps | apply quadRun_keeps
      | intro _

theorem execMxq_keeps {m : Part} {a : State} (a0 : Nat) (a1 : Nat) (a2 : Fmt) (a3 : Nat) (a4 : Nat) (a5 : Nat) (a6 : Rounding)
    (a7 : Option QuadCvt) (s : State) (h0 : m.ops = true) (h1 : m.evr = true) (h2 : m.rings = true) (h3 : m.mem = true) (h4 :
    m.grd = true) (h5 : m.tts = true) (h6 : m.srv = true) (h7 : m.fab = true) (h8 : m.syn = true) (h9 : m.hlt = true) (h10 :
    m.tiles = true) (h11 : m.cde = true) (h12 : m.out = true) (h13 : m.fresh = true) (h : Keeps m a s) :
    KeepsO m a (execMxq a0 a1 a2 a3 a4 a5 a6 a7 s) := by
  unfold execMxq
  repeat' first
      | with_reducible first
          | assumption | apply onQuad_keeps | apply quadMxq_keeps | apply regEff_keeps | apply tileRun_keeps
      | intro _

theorem loop__keeps {m : Part} {a : State} (a0 : Nat) (a1 : Nat) (a2 : Nat) (a3 : Nat) (s : State) (h0 : m.grd = true) (h1 :
    m.hlt = true) (h2 : m.tiles = true) (h : Keeps m a s) :
    Keeps m a (loop_ a0 a1 a2 a3 s) := by
  unfold loop_
  repeat' first
      | with_reducible first
          | assumption | apply updTile_keeps | apply markIssue_keeps | apply keeps_foldl | apply keeps_ite
          | apply keeps_ite_fst | apply keeps_ite_snd | exact fun _ h => h | exact fun h => h
      | intro _
      | split
      | (dsimp only)
      | (rename (_ = (_, (_ : State))) => hp; have e := congrArg Prod.snd hp; clear hp; dsimp only at e; subst e)
      | (rename (_ = ((_ : State), _)) => hp; have e := congrArg Prod.fst hp; clear hp; dsimp only at e; subst e)

theorem execLoop_keeps {m : Part} {a : State} (a0 : Nat) (a1 : Nat) (a2 : Nat) (a3 : Nat) (s : State) (h0 : m.grd = true) (h1 :
    m.hlt = true) (h2 : m.tiles = true) (h : Keeps m a s) :
    KeepsO m a (execLoop a0 a1 a2 a3 s) := by
  unfold execLoop
  repeat' with_reducible first | assumption | apply loop__keeps | apply run_keeps | apply runOn_keeps

theorem execBfly2_keeps {m : Part} {a : State} (a0 : Nat) (a1 : Nat) (a2 : Nat) (a3 : Nat) (a4 : Nat) (s : State) (h0 : m.grd =
    true) (h1 : m.hlt = true) (h2 : m.tiles = true) (h : Keeps m a s) :
    KeepsO m a (execBfly2 a0 a1 a2 a3 a4 s) := by
  unfold execBfly2
  repeat' first
      | with_reducible first | assumption | apply regEff_keeps | apply tileRun_keeps
      | intro _

theorem rep__keeps {m : Part} {a : State} (a0 : Nat) (a1 : Nat) (a2 : TileOp) (s : State) (h0 : m.ops = true) (h1 : m.evr =
    true) (h2 : m.rings = true) (h3 : m.mem = true) (h4 : m.grd = true) (h5 : m.tts = true) (h6 : m.srv = true) (h7 : m.fab =
    true) (h8 : m.syn = true) (h9 : m.hlt = true) (h10 : m.tiles = true) (h11 : m.cde = true) (h12 : m.out = true) (h13 :
    m.fresh = true) (h : Keeps m a s) :
    Keeps m a (rep_ a0 a1 a2 s) := by
  unfold rep_
  repeat' first
      | with_reducible first
          | assumption | apply repLoop_keeps | apply squashMicro_keeps | apply updUnit_keeps | apply onSlice_keeps
      | intro _
      | split
      | (dsimp only)

theorem execRep_keeps {m : Part} {a : State} (a0 : Nat) (a1 : Nat) (a2 : TileOp) (s : State) (h0 : m.ops = true) (h1 : m.evr =
    true) (h2 : m.rings = true) (h3 : m.mem = true) (h4 : m.grd = true) (h5 : m.tts = true) (h6 : m.srv = true) (h7 : m.fab =
    true) (h8 : m.syn = true) (h9 : m.hlt = true) (h10 : m.tiles = true) (h11 : m.cde = true) (h12 : m.out = true) (h13 :
    m.fresh = true) (h : Keeps m a s) :
    KeepsO m a (execRep a0 a1 a2 s) := by
  unfold execRep
  repeat' with_reducible first | assumption | apply rep__keeps | apply run_keeps | apply runOn_keeps

theorem sbarGo_keeps {m : Part} {a : State} (a0 : Nat) (s : State) (h0 : m.grd = true) (h1 : m.hlt = true) (h2 : m.tiles = true)
    (h : Keeps m a s) :
    Keeps m a (sbarGo a0 s) := by
  unfold sbarGo
  repeat' first
      | with_reducible first
          | assumption | apply pastIssue_keeps | apply updTile_keeps | apply markIssue_keeps | apply keeps_foldl
      | intro _

theorem sbar__keeps {m : Part} {a : State} (a0 : Nat) (a1 : Nat) (a2 : Nat) (s : State) (h0 : m.grd = true) (h1 : m.hlt = true)
    (h2 : m.tiles = true) (h : Keeps m a s) :
    Keeps m a (sbar_ a0 a1 a2 s) := by
  unfold sbar_
  repeat' first
      | with_reducible first | assumption | apply updTile_keeps | apply sbarGo_keeps
      | split

theorem xsendDo_keeps {m : Part} {a : State} (a0 : Nat) (a1 : Nat) (a2 : XSend) (s : State) (h0 : m.ops = true) (h1 : m.evr =
    true) (h2 : m.rings = true) (h3 : m.mem = true) (h4 : m.grd = true) (h5 : m.tts = true) (h6 : m.srv = true) (h7 : m.fab =
    true) (h8 : m.syn = true) (h9 : m.hlt = true) (h10 : m.tiles = true) (h11 : m.cde = true) (h12 : m.out = true) (h13 :
    m.fresh = true) (h : Keeps m a s) :
    Keeps m a (xsendDo a0 a1 a2 s) := by
  unfold xsendDo
  repeat' first
      | with_reducible first
          | assumption | apply pastIssue_keeps | apply shareFault_keeps | apply postBare_keeps | apply takePort_keeps
          | apply badRead_keeps | apply storeBytes_keeps | apply markIssue_keeps | apply halt_keeps
      | split

theorem xsendEnd_keeps {m : Part} {a : State} (a0 : Nat) (a1 : Nat) (s : State) (h0 : m.ops = true) (h1 : m.evr = true) (h2 :
    m.rings = true) (h3 : m.mem = true) (h4 : m.grd = true) (h5 : m.tts = true) (h6 : m.srv = true) (h7 : m.fab = true) (h8 :
    m.syn = true) (h9 : m.hlt = true) (h10 : m.tiles = true) (h11 : m.cde = true) (h12 : m.out = true) (h13 : m.fresh = true)
    (h : Keeps m a s) :
    Keeps m a (xsendEnd a0 a1 s) := by
  unfold xsendEnd
  repeat' first
      | with_reducible first | assumption | apply updTile_keeps | apply xsendDo_keeps
      | split

theorem quadMxd_keeps {m : Part} {a : State} (a0 : QuadCvt) (s : State) (h0 : m.ops = true) (h1 : m.evr = true) (h2 : m.rings =
    true) (h3 : m.mem = true) (h4 : m.grd = true) (h5 : m.tts = true) (h6 : m.srv = true) (h7 : m.fab = true) (h8 : m.syn =
    true) (h9 : m.hlt = true) (h10 : m.tiles = true) (h11 : m.cde = true) (h12 : m.out = true) (h13 : m.fresh = true) (h :
    Keeps m a s) :
    Keeps m a (quadMxd a0 s) := by
  unfold quadMxd
  repeat' first
      | with_reducible first | assumption | apply setFlags_keeps | apply storeBytes_keeps | apply quadRun_keeps
      | intro _

theorem execVlog_keeps {m : Part} {a : State} (a0 : Nat) (a1 : Nat) (a2 : Fmt) (a3 : Nat) (a4 : Nat) (s : State) (h0 : m.grd =
    true) (h1 : m.hlt = true) (h2 : m.tiles = true) (h : Keeps m a s) :
    KeepsO m a (execVlog a0 a1 a2 a3 a4 s) := by
  unfold execVlog
  repeat' first
      | with_reducible first | assumption | apply regEff_keeps | apply tileRun_keeps
      | intro _

theorem execVmul_keeps {m : Part} {a : State} (a0 : Nat) (a1 : Nat) (a2 : Fmt) (a3 : Nat) (a4 : Nat) (a5 : Nat) (s : State)
    (h0 : m.grd = true) (h1 : m.hlt = true) (h2 : m.tiles = true) (h : Keeps m a s) :
    KeepsO m a (execVmul a0 a1 a2 a3 a4 a5 s) := by
  unfold execVmul
  repeat' first
      | with_reducible first | assumption | apply regEff_keeps | apply tileRun_keeps
      | intro _

theorem scatter__keeps {m : Part} {a : State} (a0 : Nat) (a1 : Nat) (a2 : Nat) (a3 : Nat) (a4 : Nat) (s : State) (h0 : m.ops =
    true) (h1 : m.evr = true) (h2 : m.rings = true) (h3 : m.mem = true) (h4 : m.grd = true) (h5 : m.tts = true) (h6 : m.srv =
    true) (h7 : m.fab = true) (h8 : m.syn = true) (h9 : m.hlt = true) (h10 : m.tiles = true) (h11 : m.cde = true) (h12 : m.out =
    true) (h13 : m.fresh = true) (h : Keeps m a s) :
    Keeps m a (scatter_ a0 a1 a2 a3 a4 s) := by
  unfold scatter_
  repeat' first
      | with_reducible first
          | assumption | apply shareFault_keeps | apply updTile_keeps | apply storeBytes_keeps | apply keeps_foldl
      | intro _
      | split
      | (dsimp only)

theorem execVscat_keeps {m : Part} {a : State} (a0 : Nat) (a1 : Nat) (a2 : Nat) (a3 : Nat) (a4 : Nat) (s : State) (h0 : m.ops =
    true) (h1 : m.evr = true) (h2 : m.rings = true) (h3 : m.mem = true) (h4 : m.grd = true) (h5 : m.tts = true) (h6 : m.srv =
    true) (h7 : m.fab = true) (h8 : m.syn = true) (h9 : m.hlt = true) (h10 : m.tiles = true) (h11 : m.cde = true) (h12 : m.out =
    true) (h13 : m.fresh = true) (h : Keeps m a s) :
    KeepsO m a (execVscat a0 a1 a2 a3 a4 s) := by
  unfold execVscat
  repeat' first
      | with_reducible first | assumption | apply scatter__keeps | apply tileRun_keeps
      | intro _

theorem execCmacj_keeps {m : Part} {a : State} (a0 : Nat) (a1 : Nat) (a2 : Nat) (a3 : Nat) (s : State) (h0 : m.grd = true) (h1 :
    m.hlt = true) (h2 : m.tiles = true) (h : Keeps m a s) :
    KeepsO m a (execCmacj a0 a1 a2 a3 s) := by
  unfold execCmacj
  repeat' first
      | with_reducible first | assumption | apply regEff_keeps | apply tileRun_keeps
      | intro _

theorem execVmin_keeps {m : Part} {a : State} (a0 : Nat) (a1 : Nat) (a2 : Fmt) (a3 : Nat) (a4 : Nat) (a5 : Nat) (s : State)
    (h0 : m.grd = true) (h1 : m.hlt = true) (h2 : m.tiles = true) (h : Keeps m a s) :
    KeepsO m a (execVmin a0 a1 a2 a3 a4 a5 s) := by
  unfold execVmin
  repeat' first
      | with_reducible first | assumption | apply regEff_keeps | apply tileRun_keeps
      | intro _

theorem xsend__keeps {m : Part} {a : State} (a0 : Nat) (a1 : Nat) (a2 : XSend) (s : State) (h0 : m.ops = true) (h1 : m.evr =
    true) (h2 : m.rings = true) (h3 : m.mem = true) (h4 : m.grd = true) (h5 : m.tts = true) (h6 : m.srv = true) (h7 : m.fab =
    true) (h8 : m.syn = true) (h9 : m.hlt = true) (h10 : m.tiles = true) (h11 : m.cde = true) (h12 : m.out = true) (h13 :
    m.fresh = true) (h : Keeps m a s) :
    Keeps m a (xsend_ a0 a1 a2 s) := by
  unfold xsend_
  repeat' first
      | with_reducible first | assumption | apply updTile_keeps | apply xsendDo_keeps
      | split

theorem execVgath_keeps {m : Part} {a : State} (a0 : Nat) (a1 : Nat) (a2 : Nat) (a3 : Nat) (a4 : Nat) (s : State) (h0 : m.ops =
    true) (h1 : m.evr = true) (h2 : m.rings = true) (h3 : m.mem = true) (h4 : m.grd = true) (h5 : m.tts = true) (h6 : m.srv =
    true) (h7 : m.fab = true) (h8 : m.syn = true) (h9 : m.hlt = true) (h10 : m.tiles = true) (h11 : m.cde = true) (h12 : m.out =
    true) (h13 : m.fresh = true) (h : Keeps m a s) :
    KeepsO m a (execVgath a0 a1 a2 a3 a4 s) := by
  unfold execVgath
  repeat' first
      | with_reducible first | assumption | apply gather__keeps | apply tileRun_keeps
      | intro _

theorem execXsend_keeps {m : Part} {a : State} (a0 : Nat) (a1 : Nat) (a2 : Int) (a3 : Nat) (a4 : Nat) (a5 : Nat) (a6 : Nat)
    (a7 : Option Nat) (s : State) (h0 : m.ops = true) (h1 : m.evr = true) (h2 : m.rings = true) (h3 : m.mem = true) (h4 : m.grd
    = true) (h5 : m.tts = true) (h6 : m.srv = true) (h7 : m.fab = true) (h8 : m.syn = true) (h9 : m.hlt = true) (h10 : m.tiles =
    true) (h11 : m.cde = true) (h12 : m.out = true) (h13 : m.fresh = true) (h : Keeps m a s) :
    KeepsO m a (execXsend a0 a1 a2 a3 a4 a5 a6 a7 s) := by
  unfold execXsend
  repeat' first
      | with_reducible first | assumption | apply xsend__keeps | apply run_keeps | apply runOn_keeps | exact keepsO_refused
      | split

theorem execXsendStallEnd_keeps {m : Part} {a : State} (a0 : Nat) (a1 : Nat) (s : State) (h0 : m.ops = true) (h1 : m.evr = true)
    (h2 : m.rings = true) (h3 : m.mem = true) (h4 : m.grd = true) (h5 : m.tts = true) (h6 : m.srv = true) (h7 : m.fab = true)
    (h8 : m.syn = true) (h9 : m.hlt = true) (h10 : m.tiles = true) (h11 : m.cde = true) (h12 : m.out = true) (h13 : m.fresh =
    true) (h : Keeps m a s) :
    KeepsO m a (execXsendStallEnd a0 a1 s) := by
  unfold execXsendStallEnd
  repeat' with_reducible first | assumption | apply xsendEnd_keeps | apply run_keeps | apply runOn_keeps

theorem execSelect_keeps {m : Part} {a : State} (a0 : Nat) (a1 : Nat) (a2 : Nat) (a3 : Nat) (a4 : Nat) (a5 : Nat) (s : State)
    (h0 : m.grd = true) (h1 : m.hlt = true) (h2 : m.tiles = true) (h : Keeps m a s) :
    KeepsO m a (execSelect a0 a1 a2 a3 a4 a5 s) := by
  unfold execSelect
  repeat' first
      | with_reducible first | assumption | apply regEff_keeps | apply tileRun_keeps
      | intro _

theorem execMac_keeps {m : Part} {a : State} (a0 : Nat) (a1 : Nat) (a2 : Nat) (a3 : Nat) (s : State) (h0 : m.grd = true) (h1 :
    m.hlt = true) (h2 : m.tiles = true) (h : Keeps m a s) :
    KeepsO m a (execMac a0 a1 a2 a3 s) := by
  unfold execMac
  repeat' first
      | with_reducible first | assumption | apply regEff_keeps | apply tileRun_keeps
      | intro _

theorem execVfma_keeps {m : Part} {a : State} (a0 : Nat) (a1 : Nat) (a2 : Fmt) (a3 : Nat) (a4 : Nat) (a5 : Nat) (a6 : Nat) (s :
    State) (h0 : m.grd = true) (h1 : m.hlt = true) (h2 : m.tiles = true) (h : Keeps m a s) :
    KeepsO m a (execVfma a0 a1 a2 a3 a4 a5 a6 s) := by
  unfold execVfma
  repeat' first
      | with_reducible first | assumption | apply regEff_keeps | apply tileRun_keeps
      | intro _

theorem execCmul_keeps {m : Part} {a : State} (a0 : Nat) (a1 : Nat) (a2 : Nat) (a3 : Nat) (s : State) (h0 : m.grd = true) (h1 :
    m.hlt = true) (h2 : m.tiles = true) (h : Keeps m a s) :
    KeepsO m a (execCmul a0 a1 a2 a3 s) := by
  unfold execCmul
  repeat' first
      | with_reducible first | assumption | apply regEff_keeps | apply tileRun_keeps
      | intro _

theorem execSbarResume_keeps {m : Part} {a : State} (a0 : Nat) (s : State) (h0 : m.grd = true) (h1 : m.hlt = true) (h2 : m.tiles
    = true) (h : Keeps m a s) :
    KeepsO m a (execSbarResume a0 s) := by
  unfold execSbarResume
  repeat' first
      | with_reducible first | assumption | apply sbarGo_keeps | apply run_keeps | apply runOn_keeps
      | split

theorem execAdd_keeps {m : Part} {a : State} (a0 : Nat) (a1 : Nat) (a2 : Nat) (a3 : Nat) (a4 : Nat) (s : State) (h0 : m.grd =
    true) (h1 : m.hlt = true) (h2 : m.tiles = true) (h : Keeps m a s) :
    KeepsO m a (execAdd a0 a1 a2 a3 a4 s) := by
  unfold execAdd
  repeat' first
      | with_reducible first | assumption | apply regEff_keeps | apply tileRun_keeps
      | intro _

theorem execVsub_keeps {m : Part} {a : State} (a0 : Nat) (a1 : Nat) (a2 : Fmt) (a3 : Nat) (a4 : Nat) (a5 : Nat) (s : State)
    (h0 : m.grd = true) (h1 : m.hlt = true) (h2 : m.tiles = true) (h : Keeps m a s) :
    KeepsO m a (execVsub a0 a1 a2 a3 a4 a5 s) := by
  unfold execVsub
  repeat' first
      | with_reducible first | assumption | apply regEff_keeps | apply tileRun_keeps
      | intro _

theorem execVsigm_keeps {m : Part} {a : State} (a0 : Nat) (a1 : Nat) (a2 : Fmt) (a3 : Nat) (a4 : Nat) (s : State) (h0 : m.grd =
    true) (h1 : m.hlt = true) (h2 : m.tiles = true) (h : Keeps m a s) :
    KeepsO m a (execVsigm a0 a1 a2 a3 a4 s) := by
  unfold execVsigm
  repeat' first
      | with_reducible first | assumption | apply regEff_keeps | apply tileRun_keeps
      | intro _

theorem execShift_keeps {m : Part} {a : State} (a0 : Nat) (a1 : Nat) (a2 : Nat) (a3 : Nat) (a4 : ShiftSrc) (s : State) (h0 :
    m.grd = true) (h1 : m.hlt = true) (h2 : m.tiles = true) (h : Keeps m a s) :
    KeepsO m a (execShift a0 a1 a2 a3 a4 s) := by
  unfold execShift
  repeat' first
      | with_reducible first | assumption | apply regEff_keeps | apply tileRun_keeps
      | intro _

theorem execVrcp_keeps {m : Part} {a : State} (a0 : Nat) (a1 : Nat) (a2 : Fmt) (a3 : Nat) (a4 : Nat) (s : State) (h0 : m.grd =
    true) (h1 : m.hlt = true) (h2 : m.tiles = true) (h : Keeps m a s) :
    KeepsO m a (execVrcp a0 a1 a2 a3 a4 s) := by
  unfold execVrcp
  repeat' first
      | with_reducible first | assumption | apply regEff_keeps | apply tileRun_keeps
      | intro _

theorem execMxd_keeps {m : Part} {a : State} (a0 : Nat) (a1 : Nat) (a2 : Fmt) (a3 : Fmt) (a4 : Nat) (a5 : Nat) (a6 : Nat) (a7 :
    Option QuadCvt) (s : State) (h0 : m.ops = true) (h1 : m.evr = true) (h2 : m.rings = true) (h3 : m.mem = true) (h4 : m.grd =
    true) (h5 : m.tts = true) (h6 : m.srv = true) (h7 : m.fab = true) (h8 : m.syn = true) (h9 : m.hlt = true) (h10 : m.tiles =
    true) (h11 : m.cde = true) (h12 : m.out = true) (h13 : m.fresh = true) (h : Keeps m a s) :
    KeepsO m a (execMxd a0 a1 a2 a3 a4 a5 a6 a7 s) := by
  unfold execMxd
  repeat' first
      | with_reducible first
          | assumption | apply onQuad_keeps | apply regEff_keeps | apply tileRun_keeps | apply quadMxd_keeps
      | intro _

theorem execVadd_keeps {m : Part} {a : State} (a0 : Nat) (a1 : Nat) (a2 : Fmt) (a3 : Nat) (a4 : Nat) (a5 : Nat) (s : State)
    (h0 : m.grd = true) (h1 : m.hlt = true) (h2 : m.tiles = true) (h : Keeps m a s) :
    KeepsO m a (execVadd a0 a1 a2 a3 a4 a5 s) := by
  unfold execVadd
  repeat' first
      | with_reducible first | assumption | apply regEff_keeps | apply tileRun_keeps
      | intro _

theorem execVrsqrt_keeps {m : Part} {a : State} (a0 : Nat) (a1 : Nat) (a2 : Fmt) (a3 : Nat) (a4 : Nat) (s : State) (h0 : m.grd =
    true) (h1 : m.hlt = true) (h2 : m.tiles = true) (h : Keeps m a s) :
    KeepsO m a (execVrsqrt a0 a1 a2 a3 a4 s) := by
  unfold execVrsqrt
  repeat' first
      | with_reducible first | assumption | apply regEff_keeps | apply tileRun_keeps
      | intro _

theorem execSbar_keeps {m : Part} {a : State} (a0 : Nat) (a1 : Nat) (a2 : Nat) (s : State) (h0 : m.grd = true) (h1 : m.hlt =
    true) (h2 : m.tiles = true) (h : Keeps m a s) :
    KeepsO m a (execSbar a0 a1 a2 s) := by
  unfold execSbar
  repeat' with_reducible first | assumption | apply sbar__keeps | apply run_keeps | apply runOn_keeps

theorem execVld2_keeps {m : Part} {a : State} (a0 : Nat) (a1 : Nat) (a2 : Nat) (a3 : Nat) (a4 : Bool) (s : State) (h0 : m.ops =
    true) (h1 : m.evr = true) (h2 : m.rings = true) (h3 : m.mem = true) (h4 : m.grd = true) (h5 : m.tts = true) (h6 : m.srv =
    true) (h7 : m.fab = true) (h8 : m.syn = true) (h9 : m.hlt = true) (h10 : m.tiles = true) (h11 : m.cde = true) (h12 : m.out =
    true) (h13 : m.fresh = true) (h : Keeps m a s) :
    KeepsO m a (execVld2 a0 a1 a2 a3 a4 s) := by
  unfold execVld2
  repeat' first
      | with_reducible first | assumption | apply loadVec_keeps | apply tileRun_keeps
      | intro _

theorem execBfly8_keeps {m : Part} {a : State} (a0 : Nat) (a1 : Nat) (a2 : Nat) (a3 : Nat) (a4 : Nat) (s : State) (h0 : m.grd =
    true) (h1 : m.hlt = true) (h2 : m.tiles = true) (h : Keeps m a s) :
    KeepsO m a (execBfly8 a0 a1 a2 a3 a4 s) := by
  unfold execBfly8
  repeat' first
      | with_reducible first | assumption | apply regEff_keeps | apply tileRun_keeps
      | intro _

theorem execVld_keeps {m : Part} {a : State} (a0 : Nat) (a1 : Nat) (a2 : Nat) (a3 : Nat) (a4 : Bool) (s : State) (h0 : m.ops =
    true) (h1 : m.evr = true) (h2 : m.rings = true) (h3 : m.mem = true) (h4 : m.grd = true) (h5 : m.tts = true) (h6 : m.srv =
    true) (h7 : m.fab = true) (h8 : m.syn = true) (h9 : m.hlt = true) (h10 : m.tiles = true) (h11 : m.cde = true) (h12 : m.out =
    true) (h13 : m.fresh = true) (h : Keeps m a s) :
    KeepsO m a (execVld a0 a1 a2 a3 a4 s) := by
  unfold execVld
  repeat' first
      | with_reducible first | assumption | apply loadVec_keeps | apply tileRun_keeps
      | intro _

/-! Machine/Random.lean -/

theorem rngSeedBody_keeps {m : Part} {a : State} (a0 : Req) (s : State) (h0 : m.srv = true) (h : Keeps m a s) :
    Keeps m a (rngSeedBody a0 s).1 := by
  unfold rngSeedBody
  repeat' first
      | with_reducible first | assumption | apply failed_keeps | apply updCtx_keeps
      | split
      | (dsimp only)

theorem execRngSeed_keeps {m : Part} {a : State} (a0 : Nat) (s : State) (h0 : m.mbx = true) (h1 : m.evr = true) (h2 : m.srv =
    true) (h3 : m.out = true) (h : Keeps m a s) :
    KeepsO m a (execRngSeed a0 s) := by
  unfold execRngSeed
  repeat' first
      | with_reducible first | assumption | apply runCommand_keeps | apply run_keeps | apply rngSeedBody_keeps
      | intro _

theorem sampleRead_keeps {m : Part} {a : State} (a0 : Nat) (a1 : Nat) (a2 : Nat) (a3 : State → State) (s : State) (h0 : m.ops =
    true) (h1 : m.evr = true) (h2 : m.rings = true) (h3 : m.mem = true) (h4 : m.grd = true) (h5 : m.tts = true) (h6 : m.srv =
    true) (h7 : m.fab = true) (h8 : m.syn = true) (h9 : m.hlt = true) (h10 : m.tiles = true) (h11 : m.cde = true) (h12 : m.out =
    true) (h13 : m.fresh = true) (hk4 : ∀ s, Keeps m a s → Keeps m a (a3 s)) (h : Keeps m a s) :
    Keeps m a (sampleRead a0 a1 a2 a3 s) := by
  unfold sampleRead
  repeat' first
      | with_reducible first | assumption | apply shareFault_keeps | apply badRead_keeps | apply hk4
      | split
      | (dsimp only)

theorem gmax__keeps {m : Part} {a : State} (a0 : Nat) (a1 : Nat) (a2 : Nat) (a3 : Nat) (a4 : Nat) (a5 : Nat) (a6 : Option Nat)
    (s : State) (h0 : m.ops = true) (h1 : m.evr = true) (h2 : m.rings = true) (h3 : m.mem = true) (h4 : m.grd = true) (h5 :
    m.tts = true) (h6 : m.srv = true) (h7 : m.fab = true) (h8 : m.syn = true) (h9 : m.hlt = true) (h10 : m.tiles = true) (h11 :
    m.cde = true) (h12 : m.out = true) (h13 : m.fresh = true) (h : Keeps m a s) :
    Keeps m a (gmax_ a0 a1 a2 a3 a4 a5 a6 s) := by
  unfold gmax_
  repeat' first
      | with_reducible first
          | assumption | apply updTile_keeps | apply onSlice_keeps | apply setFlags_keeps | apply sampleRead_keeps
      | intro _
      | split

theorem rngQueryBody_keeps {m : Part} {a : State} (a0 : Req) (s : State) (h : Keeps m a s) :
    Keeps m a (rngQueryBody a0 s).1 := by
  unfold rngQueryBody
  repeat' first
      | with_reducible first | assumption | apply failed_keeps
      | split

theorem execRngQuery_keeps {m : Part} {a : State} (a0 : Nat) (s : State) (h0 : m.mbx = true) (h1 : m.evr = true) (h2 : m.out =
    true) (h : Keeps m a s) :
    KeepsO m a (execRngQuery a0 s) := by
  unfold execRngQuery
  repeat' with_reducible first | assumption | apply runCommand_keeps | apply rngQueryBody_keeps | apply run_keeps

theorem drawRun_keeps {m : Part} {a : State} (a0 : Nat) (a1 : Nat) (a2 : Nat) (a3 : Nat) (a4 : Nat) (a5 : Option Nat) (a6 : Nat
    × Nat × Nat × Nat → Nat) (s : State) (h0 : m.grd = true) (h1 : m.hlt = true) (h2 : m.tiles = true) (h : Keeps m a s) :
    KeepsO m a (drawRun a0 a1 a2 a3 a4 a5 a6 s) := by
  unfold drawRun
  repeat' first
      | with_reducible first | assumption | apply regEff_keeps | apply tileRun_keeps
      | intro _

theorem execRdraw_keeps {m : Part} {a : State} (a0 : Nat) (a1 : Nat) (a2 : Nat) (a3 : Nat) (a4 : Nat) (a5 : Option Nat) (s :
    State) (h0 : m.grd = true) (h1 : m.hlt = true) (h2 : m.tiles = true) (h : Keeps m a s) :
    KeepsO m a (execRdraw a0 a1 a2 a3 a4 a5 s) := by
  unfold execRdraw
  repeat' with_reducible first | assumption | apply drawRun_keeps

theorem execGmax_keeps {m : Part} {a : State} (a0 : Nat) (a1 : Nat) (a2 : Nat) (a3 : Nat) (a4 : Nat) (a5 : Nat) (a6 : Option
    Nat) (s : State) (h0 : m.ops = true) (h1 : m.evr = true) (h2 : m.rings = true) (h3 : m.mem = true) (h4 : m.grd = true) (h5 :
    m.tts = true) (h6 : m.srv = true) (h7 : m.fab = true) (h8 : m.syn = true) (h9 : m.hlt = true) (h10 : m.tiles = true) (h11 :
    m.cde = true) (h12 : m.out = true) (h13 : m.fresh = true) (h : Keeps m a s) :
    KeepsO m a (execGmax a0 a1 a2 a3 a4 a5 a6 s) := by
  unfold execGmax
  repeat' with_reducible first | assumption | apply gmax__keeps | apply run_keeps | apply runOn_keeps

theorem topk__keeps {m : Part} {a : State} (a0 : Nat) (a1 : Nat) (a2 : Nat) (a3 : Nat) (a4 : Nat) (a5 : Nat) (a6 : Nat) (a7 :
    Option Nat) (s : State) (h0 : m.ops = true) (h1 : m.evr = true) (h2 : m.rings = true) (h3 : m.mem = true) (h4 : m.grd =
    true) (h5 : m.tts = true) (h6 : m.srv = true) (h7 : m.fab = true) (h8 : m.syn = true) (h9 : m.hlt = true) (h10 : m.tiles =
    true) (h11 : m.cde = true) (h12 : m.out = true) (h13 : m.fresh = true) (h : Keeps m a s) :
    Keeps m a (topk_ a0 a1 a2 a3 a4 a5 a6 a7 s) := by
  unfold topk_
  repeat' first
      | with_reducible first
          | assumption | apply shareFault_keeps | apply onSlice_keeps | apply setFlags_keeps | apply sampleRead_keeps
          | apply storeBytes_keeps
      | intro _
      | split
      | (dsimp only)

theorem execRuni_keeps {m : Part} {a : State} (a0 : Nat) (a1 : Nat) (a2 : Nat) (a3 : Nat) (a4 : Nat) (a5 : Option Nat) (s :
    State) (h0 : m.grd = true) (h1 : m.hlt = true) (h2 : m.tiles = true) (h : Keeps m a s) :
    KeepsO m a (execRuni a0 a1 a2 a3 a4 a5 s) := by
  unfold execRuni
  repeat' with_reducible first | assumption | apply drawRun_keeps

theorem rngEvalBody_keeps {m : Part} {a : State} (a0 : Req) (s : State) (h : Keeps m a s) :
    Keeps m a (rngEvalBody a0 s).1 := by
  unfold rngEvalBody
  repeat' first
      | with_reducible first | assumption | apply failed_keeps
      | split
      | (dsimp only)

theorem execRngEval_keeps {m : Part} {a : State} (a0 : Nat) (s : State) (h0 : m.mbx = true) (h1 : m.evr = true) (h2 : m.out =
    true) (h : Keeps m a s) :
    KeepsO m a (execRngEval a0 s) := by
  unfold execRngEval
  repeat' with_reducible first | assumption | apply runCommand_keeps | apply run_keeps | apply rngEvalBody_keeps

theorem execTopk_keeps {m : Part} {a : State} (a0 : Nat) (a1 : Nat) (a2 : Nat) (a3 : Nat) (a4 : Nat) (a5 : Nat) (a6 : Nat) (a7 :
    Option Nat) (s : State) (h0 : m.ops = true) (h1 : m.evr = true) (h2 : m.rings = true) (h3 : m.mem = true) (h4 : m.grd =
    true) (h5 : m.tts = true) (h6 : m.srv = true) (h7 : m.fab = true) (h8 : m.syn = true) (h9 : m.hlt = true) (h10 : m.tiles =
    true) (h11 : m.cde = true) (h12 : m.out = true) (h13 : m.fresh = true) (h : Keeps m a s) :
    KeepsO m a (execTopk a0 a1 a2 a3 a4 a5 a6 a7 s) := by
  unfold execTopk
  repeat' with_reducible first | assumption | apply topk__keeps | apply run_keeps | apply runOn_keeps

theorem execRnormTab_keeps {m : Part} {a : State} (a0 : Nat) (a1 : Nat) (a2 : Nat) (a3 : Nat) (a4 : Nat) (a5 : Option Nat) (s :
    State) (h0 : m.grd = true) (h1 : m.hlt = true) (h2 : m.tiles = true) (h : Keeps m a s) :
    KeepsO m a (execRnormTab a0 a1 a2 a3 a4 a5 s) := by
  unfold execRnormTab
  repeat' with_reducible first | assumption | apply drawRun_keeps

theorem execRnormBm_keeps {m : Part} {a : State} (a0 : Nat) (a1 : Nat) (a2 : Nat) (a3 : Nat) (a4 : Nat) (a5 : Option Nat) (s :
    State) (h0 : m.grd = true) (h1 : m.hlt = true) (h2 : m.tiles = true) (h : Keeps m a s) :
    KeepsO m a (execRnormBm a0 a1 a2 a3 a4 a5 s) := by
  unfold execRnormBm
  repeat' with_reducible first | assumption | apply drawRun_keeps

end Sys2Proof.Machine
end

