-- ==== Sys2Proof/Laws/KeepsServing.lean ====
section
/-!
SUPPORT. The pieces of state each operation of these files of Machine/ may change: Serving, Radio, SweepOps, Cells, Table, Noon,
    Sync, HostAttach.
-/

namespace Sys2Proof.Machine

/-! Machine/Serving.lean -/

theorem ctxFlushBody_keeps {m : Part} {a : State} (a0 : Req) (s : State) (h0 : m.rings = true) (h1 : m.mem = true) (h2 : m.srv =
    true) (h3 : m.out = true) (h : Keeps m a s) :
    Keeps m a (ctxFlushBody a0 s).1 := by
  unfold ctxFlushBody
  repeat' first
      | with_reducible first | assumption | apply failed_keeps | apply dropNotStarted_keeps
      | split
      | (dsimp only)

theorem zeroRegions_keeps {m : Part} {a : State} (a0 : Nat) (a1 : Context) (s : State) (h0 : m.mem = true) (h : Keeps m a s) :
    Keeps m a (zeroRegions a0 a1 s) := by
  exact State.setMem_keeps _ _ (fun w => memWf_foldl _ (fun _ _ w => memWf_zero _ _ _ w) _ _ w) h0 h

theorem queueUp_keeps {m : Part} {a : State} (a0 : Nat) (a1 : Submission) (s : State) (h0 : m.ops = true) (h1 : m.evr = true)
    (h2 : m.rings = true) (h3 : m.mem = true) (h4 : m.grd = true) (h5 : m.srv = true) (h6 : m.out = true) (h : Keeps m a s) :
    Keeps m a (queueUp a0 a1 s) := by
  unfold queueUp
  repeat' first
      | with_reducible first
          | assumption | apply updCtx_keeps | apply enterResiding_keeps | apply stampHead_keeps | apply serve_keeps
      | split
      | (dsimp only)

theorem commitStep_keeps {m : Part} {a : State} (a0 : Nat) (s : State) (h0 : m.ops = true) (h1 : m.evr = true) (h2 : m.rings =
    true) (h3 : m.mem = true) (h4 : m.grd = true) (h5 : m.srv = true) (h6 : m.fab = true) (h7 : m.syn = true) (h8 : m.out =
    true) (h : Keeps m a s) :
    Keeps m a (commitStep a0 s) := by
  unfold commitStep
  repeat'
      with_reducible first
        | assumption | apply updCtx_keeps | apply pruneTags_keeps | apply closeStep_keeps | apply serve_keeps

theorem sendCas_keeps {m : Part} {a : State} (a0 : Nat) (a1 : LedgerBind) (s : State) (h0 : m.ops = true) (h1 : m.evr = true)
    (h2 : m.rings = true) (h3 : m.mem = true) (h4 : m.grd = true) (h5 : m.tts = true) (h6 : m.srv = true) (h7 : m.fab = true)
    (h8 : m.syn = true) (h9 : m.hlt = true) (h10 : m.tiles = true) (h11 : m.out = true) (h12 : m.fresh = true) (h : Keeps m a
    s) :
    Keeps m a (sendCas a0 a1 s) := by
  unfold sendCas
  repeat' first
      | with_reducible first | assumption | apply sendTagged_keeps | apply updStep_keeps | apply endStep_keeps
      | split

theorem batchStepCommit_keeps {m : Part} {a : State} (a0 : Nat) (s : State) (h0 : m.ops = true) (h1 : m.evr = true) (h2 :
    m.rings = true) (h3 : m.mem = true) (h4 : m.grd = true) (h5 : m.tts = true) (h6 : m.srv = true) (h7 : m.fab = true) (h8 :
    m.syn = true) (h9 : m.hlt = true) (h10 : m.tiles = true) (h11 : m.out = true) (h12 : m.fresh = true) (h : Keeps m a s) :
    Keeps m a (batchStepCommit a0 s) := by
  unfold batchStepCommit
  repeat' first
      | with_reducible first
          | assumption | apply commitStep_keeps | apply endOne_keeps | apply sendCas_keeps | apply settleSteps_keeps
      | split

theorem copyPages_keeps {m : Part} {a : State} (a0 : Nat) (a1 : List Nat) (s : State) (h0 : m.mem = true) (h1 : m.hlt = true)
    (h : Keeps m a s) :
    Keeps m a (copyPages a0 a1 s) := by
  unfold copyPages
  repeat' first
      | with_reducible first | assumption | apply storeBytes_keeps | apply keeps_foldl
      | intro _

theorem startStep_keeps {m : Part} {a : State} (a0 : Nat) (s : State) (h0 : m.ops = true) (h1 : m.evr = true) (h2 : m.rings =
    true) (h3 : m.mem = true) (h4 : m.grd = true) (h5 : m.tts = true) (h6 : m.srv = true) (h7 : m.fab = true) (h8 : m.syn =
    true) (h9 : m.hlt = true) (h10 : m.tiles = true) (h11 : m.out = true) (h12 : m.fresh = true) (h : Keeps m a s) :
    Keeps m a (startStep a0 s) := by
  unfold startStep
  repeat' first
      | with_reducible first
          | assumption | apply updCtx_keeps | apply ctxTo_keeps | apply endStep_keeps | apply batchStepCommit_keeps
          | apply makeReady_keeps | apply copyPages_keeps | apply keeps_foldl | apply keeps_ite | apply keeps_ite_fst
          | apply keeps_ite_snd | exact memWf_writeBytes _ _ _ ‹_› | exact memWf_zero _ _ _ ‹_› | exact memWf_nil
          | exact memWf_forget _ _ _ _ ‹_› | exact tabWf_mod _ _ _ ‹_› | exact tabWf_put _ _ _ ‹_› | exact tabWf_del _ _ ‹_›
          | exact tabWf_map _ _ (fun _ => rfl) ‹_› | exact fun _ h => h | exact fun h => h
      | intro _
      | split
      | (dsimp only)
      | (rename (_ = (_, (_ : State))) => hp; have e := congrArg Prod.snd hp; clear hp; dsimp only at e; subst e)
      | (rename (_ = ((_ : State), _)) => hp; have e := congrArg Prod.fst hp; clear hp; dsimp only at e; subst e)

theorem batchStepStart_keeps {m : Part} {a : State} (a0 : Nat) (s : State) (h0 : m.ops = true) (h1 : m.evr = true) (h2 : m.rings
    = true) (h3 : m.mem = true) (h4 : m.grd = true) (h5 : m.tts = true) (h6 : m.srv = true) (h7 : m.fab = true) (h8 : m.syn =
    true) (h9 : m.hlt = true) (h10 : m.tiles = true) (h11 : m.out = true) (h12 : m.fresh = true) (h : Keeps m a s) :
    Keeps m a (batchStepStart a0 s) := by
  unfold batchStepStart
  repeat' first
      | with_reducible first | assumption | apply startStep_keeps
      | split

theorem ctxWriteDone_keeps {m : Part} {a : State} (a0 : Nat) (s : State) (h0 : m.ops = true) (h1 : m.evr = true) (h2 : m.mem =
    true) (h3 : m.hlt = true) (h4 : m.out = true) (h : Keeps m a s) :
    Keeps m a (ctxWriteDone a0 s) := by
  unfold ctxWriteDone
  repeat' first
      | with_reducible first | assumption | apply finishOp_keeps | apply storeBytes_keeps
      | split

theorem execCtxWriteDone_keeps {m : Part} {a : State} (a0 : Nat) (s : State) (h0 : m.ops = true) (h1 : m.evr = true) (h2 : m.mem
    = true) (h3 : m.hlt = true) (h4 : m.out = true) (h : Keeps m a s) :
    KeepsO m a (execCtxWriteDone a0 s) := by
  unfold execCtxWriteDone
  repeat' with_reducible first | assumption | apply ctxWriteDone_keeps | apply run_keeps

theorem execBatchStepCommit_keeps {m : Part} {a : State} (a0 : Nat) (s : State) (h0 : m.ops = true) (h1 : m.evr = true) (h2 :
    m.rings = true) (h3 : m.mem = true) (h4 : m.grd = true) (h5 : m.tts = true) (h6 : m.srv = true) (h7 : m.fab = true) (h8 :
    m.syn = true) (h9 : m.hlt = true) (h10 : m.tiles = true) (h11 : m.out = true) (h12 : m.fresh = true) (h : Keeps m a s) :
    KeepsO m a (execBatchStepCommit a0 s) := by
  unfold execBatchStepCommit
  repeat' with_reducible first | assumption | apply run_keeps | apply batchStepCommit_keeps

theorem cancelWrite_keeps {m : Part} {a : State} (a0 : Nat) (s : State) (h0 : m.ops = true) (h1 : m.evr = true) (h2 : m.mem =
    true) (h3 : m.hlt = true) (h4 : m.out = true) (h5 : m.fresh = true) (h : Keeps m a s) :
    Keeps m a (cancelWrite a0 s) := by
  unfold cancelWrite
  repeat' first
      | with_reducible first | assumption | apply finishOp_keeps | apply storeBytes_keeps | apply drawFree_keeps
      | split

theorem ctxQueryBody_keeps {m : Part} {a : State} (a0 : Req) (s : State) (h0 : m.srv = true) (h : Keeps m a s) :
    Keeps m a (ctxQueryBody a0 s).1 := by
  unfold ctxQueryBody
  repeat' first
      | with_reducible first | assumption | apply failed_keeps | apply updCtx_keeps
      | split
      | (dsimp only)

theorem execCtxQuery_keeps {m : Part} {a : State} (a0 : Nat) (s : State) (h0 : m.mbx = true) (h1 : m.evr = true) (h2 : m.srv =
    true) (h3 : m.out = true) (h : Keeps m a s) :
    KeepsO m a (execCtxQuery a0 s) := by
  unfold execCtxQuery
  repeat' first
      | with_reducible first | assumption | apply runCommand_keeps | apply ctxQueryBody_keeps | apply run_keeps
      | intro _

theorem stepDone_keeps {m : Part} {a : State} (a0 : Nat) (s : State) (h0 : m.rings = true) (h1 : m.mem = true) (h2 : m.srv =
    true) (h3 : m.out = true) (h : Keeps m a s) :
    Keeps m a (stepDone a0 s) := by
  unfold stepDone
  repeat' with_reducible first | assumption | apply flushDone_keeps

theorem stepBoundExpiry_keeps {m : Part} {a : State} (a0 : Nat) (s : State) (h0 : m.ops = true) (h1 : m.evr = true) (h2 :
    m.rings = true) (h3 : m.mem = true) (h4 : m.grd = true) (h5 : m.tts = true) (h6 : m.srv = true) (h7 : m.fab = true) (h8 :
    m.syn = true) (h9 : m.hlt = true) (h10 : m.tiles = true) (h11 : m.out = true) (h12 : m.fresh = true) (h : Keeps m a s) :
    Keeps m a (stepBoundExpiry a0 s) := by
  unfold stepBoundExpiry
  repeat' first
      | with_reducible first | assumption | apply endStep_keeps
      | split

theorem execStepBoundExpiry_keeps {m : Part} {a : State} (a0 : Nat) (s : State) (h0 : m.ops = true) (h1 : m.evr = true) (h2 :
    m.rings = true) (h3 : m.mem = true) (h4 : m.grd = true) (h5 : m.tts = true) (h6 : m.srv = true) (h7 : m.fab = true) (h8 :
    m.syn = true) (h9 : m.hlt = true) (h10 : m.tiles = true) (h11 : m.out = true) (h12 : m.fresh = true) (h : Keeps m a s) :
    KeepsO m a (execStepBoundExpiry a0 s) := by
  unfold execStepBoundExpiry
  repeat' with_reducible first | assumption | apply run_keeps | apply stepBoundExpiry_keeps

theorem destroyBegins_keeps {m : Part} {a : State} (a0 : Nat) (s : State) (h0 : m.ops = true) (h1 : m.evr = true) (h2 : m.rings
    = true) (h3 : m.mem = true) (h4 : m.grd = true) (h5 : m.tts = true) (h6 : m.srv = true) (h7 : m.fab = true) (h8 : m.syn =
    true) (h9 : m.hlt = true) (h10 : m.tiles = true) (h11 : m.out = true) (h12 : m.fresh = true) (h : Keeps m a s) :
    Keeps m a (destroyBegins a0 s) := by
  unfold destroyBegins
  repeat' first
      | with_reducible first
          | assumption | apply endStep_keeps | apply dropNotStarted_keeps | apply endReside_keeps | apply cancelWrite_keeps
          | apply keeps_foldl
      | intro _

theorem ctxCreateBody_keeps {m : Part} {a : State} (a0 : List Placement) (a1 : Req) (s : State) (h0 : m.ops = true) (h1 : m.srv
    = true) (h2 : m.fresh = true) (h : Keeps m a s) :
    Keeps m a (ctxCreateBody a0 a1 s).1 := by
  unfold ctxCreateBody
  repeat' first
      | with_reducible first | assumption | apply failed_keeps | apply updSrv_keeps | apply longOp_keeps
      | intro _
      | split
      | (dsimp only)

theorem ctxEvictBody_keeps {m : Part} {a : State} (a0 : Req) (s : State) (h0 : m.evr = true) (h1 : m.grd = true) (h2 : m.srv =
    true) (h3 : m.out = true) (h : Keeps m a s) :
    Keeps m a (ctxEvictBody a0 s).1 := by
  unfold ctxEvictBody
  repeat' first
      | with_reducible first | assumption | apply failed_keeps | apply updCtx_keeps | apply evictNow_keeps
      | split
      | (dsimp only)

theorem noonHoldTimeout_keeps {m : Part} {a : State} (a0 : Nat) (s : State) (h0 : m.rings = true) (h1 : m.mem = true) (h2 :
    m.srv = true) (h3 : m.out = true) (h : Keeps m a s) :
    Keeps m a (noonHoldTimeout a0 s) := by
  unfold noonHoldTimeout
  repeat' first
      | with_reducible first | assumption | apply updCtx_keeps | apply doneUnstarted_keeps | apply stampHead_keeps
      | split

theorem execCtxFlush_keeps {m : Part} {a : State} (a0 : Nat) (s : State) (h0 : m.mbx = true) (h1 : m.evr = true) (h2 : m.rings =
    true) (h3 : m.mem = true) (h4 : m.srv = true) (h5 : m.out = true) (h : Keeps m a s) :
    KeepsO m a (execCtxFlush a0 s) := by
  unfold execCtxFlush
  repeat' first
      | with_reducible first | assumption | apply ctxFlushBody_keeps | apply runCommand_keeps | apply run_keeps
      | intro _

theorem execStepDone_keeps {m : Part} {a : State} (a0 : Nat) (s : State) (h0 : m.rings = true) (h1 : m.mem = true) (h2 : m.srv =
    true) (h3 : m.out = true) (h : Keeps m a s) :
    KeepsO m a (execStepDone a0 s) := by
  unfold execStepDone
  repeat' first
      | with_reducible first | assumption | apply stepDone_keeps | apply run_keeps
      | split

theorem handWeights_keeps {m : Part} {a : State} (a0 : Nat) (s : State) (h0 : m.mem = true) (h1 : m.srv = true) (h : Keeps m a
    s) :
    Keeps m a (handWeights a0 s) := by
  unfold handWeights
  split
  · exact h
  · split
    · exact h
    · exact State.setMem_keeps _ _ (fun w => memWf_foldl _ (fun _ _ w => memWf_moveRegion _ _ _ w) _ _ w) h0
        (updSrv_keeps _ _ (fun v w => tabWf_map _ _ (fun p => by split <;> (try split) <;> rfl) w) h1 h)

theorem removeCtx_keeps {m : Part} {a : State} (a0 : Nat) (a1 : Nat) (s : State) (h0 : m.ops = true) (h1 : m.evr = true) (h2 :
    m.rings = true) (h3 : m.mem = true) (h4 : m.grd = true) (h5 : m.tts = true) (h6 : m.srv = true) (h7 : m.fab = true) (h8 :
    m.syn = true) (h9 : m.hlt = true) (h10 : m.tiles = true) (h11 : m.out = true) (h12 : m.fresh = true) (h : Keeps m a s) :
    Keeps m a (removeCtx a0 a1 s) := by
  unfold removeCtx
  repeat' first
      | with_reducible first
          | assumption | apply handWeights_keeps | apply freeShares_keeps | apply sbFreeOwner_keeps | apply updSrv_keeps
          | apply detachTags_keeps | apply stopContext_keeps | apply ctxTo_keeps | apply updFab_keeps | apply updHlt_keeps
          | apply pruneTags_keeps | apply orphanOwner_keeps | apply freeContention_keeps | apply clearArith_keeps
          | exact tabWf_del _ _ ‹_›
      | intro _
      | split

theorem residencyDone_keeps {m : Part} {a : State} (a0 : Nat) (s : State) (h0 : m.ops = true) (h1 : m.evr = true) (h2 : m.rings
    = true) (h3 : m.mem = true) (h4 : m.grd = true) (h5 : m.srv = true) (h6 : m.out = true) (h : Keeps m a s) :
    Keeps m a (residencyDone a0 s) := by
  unfold residencyDone
  repeat' first
      | with_reducible first
          | assumption | apply updCtx_keeps | apply ctxTo_keeps | apply endReside_keeps | apply serve_keeps
      | split
      | (dsimp only)

theorem execBatchStepStart_keeps {m : Part} {a : State} (a0 : Nat) (s : State) (h0 : m.ops = true) (h1 : m.evr = true) (h2 :
    m.rings = true) (h3 : m.mem = true) (h4 : m.grd = true) (h5 : m.tts = true) (h6 : m.srv = true) (h7 : m.fab = true) (h8 :
    m.syn = true) (h9 : m.hlt = true) (h10 : m.tiles = true) (h11 : m.out = true) (h12 : m.fresh = true) (h : Keeps m a s) :
    KeepsO m a (execBatchStepStart a0 s) := by
  unfold execBatchStepStart
  repeat' with_reducible first | assumption | apply batchStepStart_keeps | apply run_keeps

theorem ctxAppears_keeps {m : Part} {a : State} (a0 : Nat) (a1 : Context) (a2 : Nat) (s : State) (h0 : m.evr = true) (h1 :
    m.rings = true) (h2 : m.mem = true) (h3 : m.grd = true) (h4 : m.srv = true) (h5 : m.hlt = true) (h6 : m.out = true) (h :
    Keeps m a s) :
    Keeps m a (ctxAppears a0 a1 a2 s) := by
  unfold ctxAppears
  repeat' first
      | with_reducible first
          | assumption | apply zeroRegions_keeps | apply updSrv_keeps | apply settle_keeps | apply ctxTo_keeps
          | exact tabWf_put _ _ _ ‹_›
      | intro _

theorem ctxCreateDone_keeps {m : Part} {a : State} (a0 : Nat) (s : State) (h0 : m.ops = true) (h1 : m.evr = true) (h2 : m.rings
    = true) (h3 : m.mem = true) (h4 : m.grd = true) (h5 : m.srv = true) (h6 : m.hlt = true) (h7 : m.out = true) (h : Keeps m a
    s) :
    Keeps m a (ctxCreateDone a0 s) := by
  unfold ctxCreateDone
  repeat' first
      | with_reducible first | assumption | apply updSrv_keeps | apply finishOp_keeps | apply ctxAppears_keeps
      | intro _
      | split

theorem execCtxCreateDone_keeps {m : Part} {a : State} (a0 : Nat) (s : State) (h0 : m.ops = true) (h1 : m.evr = true) (h2 :
    m.rings = true) (h3 : m.mem = true) (h4 : m.grd = true) (h5 : m.srv = true) (h6 : m.hlt = true) (h7 : m.out = true) (h :
    Keeps m a s) :
    KeepsO m a (execCtxCreateDone a0 s) := by
  unfold execCtxCreateDone
  repeat' with_reducible first | assumption | apply ctxCreateDone_keeps | apply run_keeps

theorem execResidencyDone_keeps {m : Part} {a : State} (a0 : Nat) (s : State) (h0 : m.ops = true) (h1 : m.evr = true) (h2 :
    m.rings = true) (h3 : m.mem = true) (h4 : m.grd = true) (h5 : m.srv = true) (h6 : m.out = true) (h : Keeps m a s) :
    KeepsO m a (execResidencyDone a0 s) := by
  unfold execResidencyDone
  repeat' with_reducible first | assumption | apply residencyDone_keeps | apply run_keeps

theorem refuseEntry_keeps {m : Part} {a : State} (a0 : Nat) (a1 : Nat) (a2 : Nat) (a3 : Status) (a4 : Nat) (a5 : Nat) (s :
    State) (h0 : m.rings = true) (h1 : m.mem = true) (h2 : m.srv = true) (h3 : m.out = true) (h : Keeps m a s) :
    Keeps m a (refuseEntry a0 a1 a2 a3 a4 a5 s) := by
  unfold refuseEntry
  repeat' first
      | with_reducible first | assumption | apply updCtx_keeps | apply emitDone_keeps
      | split

theorem ctxWriteBody_keeps {m : Part} {a : State} (a0 : Req) (s : State) (h0 : m.ops = true) (h1 : m.fresh = true) (h :
    Keeps m a s) :
    Keeps m a (ctxWriteBody a0 s).1 := by
  unfold ctxWriteBody
  repeat' first
      | with_reducible first | assumption | apply failed_keeps | apply longOp_keeps
      | intro _
      | split
      | (dsimp only)

theorem execCtxWrite_keeps {m : Part} {a : State} (a0 : Nat) (s : State) (h0 : m.mbx = true) (h1 : m.ops = true) (h2 : m.evr =
    true) (h3 : m.out = true) (h4 : m.fresh = true) (h : Keeps m a s) :
    KeepsO m a (execCtxWrite a0 s) := by
  unfold execCtxWrite
  repeat' first
      | with_reducible first | assumption | apply runCommand_keeps | apply ctxWriteBody_keeps | apply run_keeps
      | intro _

theorem execCtxEvict_keeps {m : Part} {a : State} (a0 : Nat) (s : State) (h0 : m.mbx = true) (h1 : m.ops = true) (h2 : m.evr =
    true) (h3 : m.rings = true) (h4 : m.mem = true) (h5 : m.grd = true) (h6 : m.srv = true) (h7 : m.out = true) (h : Keeps m a
    s) :
    KeepsO m a (execCtxEvict a0 s) := by
  unfold execCtxEvict
  repeat' first
      | with_reducible first
          | assumption | apply ctxEvictBody_keeps | apply runCommand_keeps | apply serve_keeps | apply run_keeps
      | intro _

theorem ctxDestroyDone_keeps {m : Part} {a : State} (a0 : Nat) (s : State) (h0 : m.ops = true) (h1 : m.evr = true) (h2 : m.rings
    = true) (h3 : m.mem = true) (h4 : m.grd = true) (h5 : m.tts = true) (h6 : m.srv = true) (h7 : m.fab = true) (h8 : m.syn =
    true) (h9 : m.hlt = true) (h10 : m.tiles = true) (h11 : m.out = true) (h12 : m.fresh = true) (h : Keeps m a s) :
    Keeps m a (ctxDestroyDone a0 s) := by
  unfold ctxDestroyDone
  repeat' first
      | with_reducible first
          | assumption | apply drawStatus_keeps | apply finishOp_keeps | apply removeCtx_keeps | apply serve_keeps
          | apply finishOpsOn_keeps
      | split

theorem execNoonHoldTimeout_keeps {m : Part} {a : State} (a0 : Nat) (s : State) (h0 : m.rings = true) (h1 : m.mem = true) (h2 :
    m.srv = true) (h3 : m.out = true) (h : Keeps m a s) :
    KeepsO m a (execNoonHoldTimeout a0 s) := by
  unfold execNoonHoldTimeout
  repeat' with_reducible first | assumption | apply noonHoldTimeout_keeps | apply run_keeps

theorem ctxResideBody_keeps {m : Part} {a : State} (a0 : Req) (s : State) (h0 : m.ops = true) (h1 : m.evr = true) (h2 : m.grd =
    true) (h3 : m.srv = true) (h4 : m.out = true) (h5 : m.fresh = true) (h : Keeps m a s) :
    Keeps m a (ctxResideBody a0 s).1 := by
  unfold ctxResideBody
  repeat' first
      | with_reducible first | assumption | apply failed_keeps | apply enterResiding_keeps | apply longOp_keeps
      | intro _
      | split
      | (dsimp only)

theorem execCtxReside_keeps {m : Part} {a : State} (a0 : Nat) (s : State) (h0 : m.mbx = true) (h1 : m.ops = true) (h2 : m.evr =
    true) (h3 : m.rings = true) (h4 : m.mem = true) (h5 : m.grd = true) (h6 : m.srv = true) (h7 : m.out = true) (h8 : m.fresh =
    true) (h : Keeps m a s) :
    KeepsO m a (execCtxReside a0 s) := by
  unfold execCtxReside
  repeat' first
      | with_reducible first
          | assumption | apply runCommand_keeps | apply serve_keeps | apply run_keeps | apply ctxResideBody_keeps
      | intro _

theorem stepSubmit_keeps {m : Part} {a : State} (a0 : Nat) (s : State) (h0 : m.ops = true) (h1 : m.evr = true) (h2 : m.rings =
    true) (h3 : m.mem = true) (h4 : m.grd = true) (h5 : m.srv = true) (h6 : m.hlt = true) (h7 : m.out = true) (h : Keeps m a
    s) :
    Keeps m a (stepSubmit a0 s) := by
  unfold stepSubmit
  repeat' first
      | with_reducible first | assumption | apply refuseEntry_keeps | apply queueUp_keeps | apply takeHead_keeps
      | split
      | (dsimp only)

theorem execStepSubmit_keeps {m : Part} {a : State} (a0 : Nat) (s : State) (h0 : m.ops = true) (h1 : m.evr = true) (h2 : m.rings
    = true) (h3 : m.mem = true) (h4 : m.grd = true) (h5 : m.srv = true) (h6 : m.hlt = true) (h7 : m.out = true) (h : Keeps m a
    s) :
    KeepsO m a (execStepSubmit a0 s) := by
  unfold execStepSubmit
  repeat' with_reducible first | assumption | apply stepSubmit_keeps | apply run_keeps

theorem execCtxCreate_keeps {m : Part} {a : State} (a0 : Nat) (a1 : List Placement) (s : State) (h0 : m.mbx = true) (h1 : m.ops
    = true) (h2 : m.evr = true) (h3 : m.srv = true) (h4 : m.out = true) (h5 : m.fresh = true) (h : Keeps m a s) :
    KeepsO m a (execCtxCreate a0 a1 s) := by
  unfold execCtxCreate
  repeat' first
      | with_reducible first | assumption | apply runCommand_keeps | apply ctxCreateBody_keeps | apply run_keeps
      | intro _

theorem execCtxDestroyDone_keeps {m : Part} {a : State} (a0 : Nat) (s : State) (h0 : m.ops = true) (h1 : m.evr = true) (h2 :
    m.rings = true) (h3 : m.mem = true) (h4 : m.grd = true) (h5 : m.tts = true) (h6 : m.srv = true) (h7 : m.fab = true) (h8 :
    m.syn = true) (h9 : m.hlt = true) (h10 : m.tiles = true) (h11 : m.out = true) (h12 : m.fresh = true) (h : Keeps m a s) :
    KeepsO m a (execCtxDestroyDone a0 s) := by
  unfold execCtxDestroyDone
  repeat' with_reducible first | assumption | apply ctxDestroyDone_keeps | apply run_keeps

theorem ctxDestroyBody_keeps {m : Part} {a : State} (a0 : Req) (s : State) (h0 : m.ops = true) (h1 : m.evr = true) (h2 : m.rings
    = true) (h3 : m.mem = true) (h4 : m.grd = true) (h5 : m.tts = true) (h6 : m.srv = true) (h7 : m.fab = true) (h8 : m.syn =
    true) (h9 : m.hlt = true) (h10 : m.tiles = true) (h11 : m.out = true) (h12 : m.fresh = true) (h : Keeps m a s) :
    Keeps m a (ctxDestroyBody a0 s).1 := by
  unfold ctxDestroyBody
  repeat' first
      | with_reducible first | assumption | apply failed_keeps | apply longOp_keeps | apply destroyBegins_keeps
      | intro _
      | split
      | (dsimp only)

theorem execCtxDestroy_keeps {m : Part} {a : State} (a0 : Nat) (s : State) (h0 : m.mbx = true) (h1 : m.ops = true) (h2 : m.evr =
    true) (h3 : m.rings = true) (h4 : m.mem = true) (h5 : m.grd = true) (h6 : m.tts = true) (h7 : m.srv = true) (h8 : m.fab =
    true) (h9 : m.syn = true) (h10 : m.hlt = true) (h11 : m.tiles = true) (h12 : m.out = true) (h13 : m.fresh = true) (h :
    Keeps m a s) :
    KeepsO m a (execCtxDestroy a0 s) := by
  unfold execCtxDestroy
  repeat' first
      | with_reducible first | assumption | apply runCommand_keeps | apply ctxDestroyBody_keeps | apply run_keeps
      | intro _

/-! Machine/Radio.lean -/

theorem updCde_keeps {m : Part} {a : State} (a0 : Coding → Coding) (s : State) (h0 : m.cde = true) (h : Keeps m a s) :
    Keeps m a (updCde a0 s) := by
  unfold updCde
  repeat' with_reducible first | assumption | apply State.setCde_keeps

theorem updEng_keeps {m : Part} {a : State} (a0 : Nat) (a1 : CodeEngine → CodeEngine) (s : State) (h0 : m.cde = true) (h :
    Keeps m a s) :
    Keeps m a (updEng a0 a1 s) := by
  unfold updEng
  repeat' with_reducible first | assumption | apply updCde_keeps

theorem codeResult_keeps {m : Part} {a : State} (a0 : Nat) (a1 : PostRec) (a2 : CodeResult) (s : State) (h0 : m.cde = true) (h :
    Keeps m a s) :
    Keeps m a (codeResult a0 a1 a2 s) := by
  unfold codeResult
  repeat' first
      | with_reducible first | assumption | apply updCde_keeps | apply updEng_keeps
      | split

theorem codeJob_keeps {m : Part} {a : State} (a0 : Nat) (a1 : Nat → Nat → Option (Nat × CodeResult)) (s : State) (h0 : m.grd =
    true) (h1 : m.cde = true) (h : Keeps m a s) :
    Keeps m a (codeJob a0 a1 s) := by
  unfold codeJob
  repeat' first
      | with_reducible first
          | assumption | apply codeResult_keeps | apply updEng_keeps | apply sbRelease_keeps | apply keeps_foldl
          | apply keeps_ite | apply keeps_ite_fst | apply keeps_ite_snd | exact fun _ h => h | exact fun h => h
      | intro _
      | split
      | (dsimp only)
      | (rename (_ = (_, (_ : State))) => hp; have e := congrArg Prod.snd hp; clear hp; dsimp only at e; subst e)
      | (rename (_ = ((_ : State), _)) => hp; have e := congrArg Prod.fst hp; clear hp; dsimp only at e; subst e)

theorem leRun_keeps {m : Part} {a : State} (a0 : Nat) (s : State) (h0 : m.grd = true) (h1 : m.cde = true) (h : Keeps m a s) :
    Keeps m a (leRun a0 s) := by
  unfold leRun
  repeat' first
      | with_reducible first | assumption | apply codeJob_keeps
      | split

theorem ldInput_keeps {m : Part} {a : State} (a0 : Nat) (s : State) (h0 : m.grd = true) (h1 : m.cde = true) (h : Keeps m a s) :
    Keeps m a (ldInput a0 s) := by
  unfold ldInput
  repeat' first
      | with_reducible first
          | assumption | apply codeResult_keeps | apply updEng_keeps | apply sbRelease_keeps | apply keeps_foldl
          | apply keeps_ite | apply keeps_ite_fst | apply keeps_ite_snd | exact fun _ h => h | exact fun h => h
      | intro _
      | split
      | (dsimp only)
      | (rename (_ = (_, (_ : State))) => hp; have e := congrArg Prod.snd hp; clear hp; dsimp only at e; subst e)
      | (rename (_ = ((_ : State), _)) => hp; have e := congrArg Prod.fst hp; clear hp; dsimp only at e; subst e)

theorem execLdInputPhase_keeps {m : Part} {a : State} (a0 : Nat) (s : State) (h0 : m.grd = true) (h1 : m.cde = true) (h :
    Keeps m a s) :
    KeepsO m a (execLdInputPhase a0 s) := by
  unfold execLdInputPhase
  repeat' with_reducible first | assumption | apply ldInput_keeps | apply run_keeps

theorem gainSetBody_keeps {m : Part} {a : State} (a0 : Req) (s : State) (h0 : m.cells = true) (h : Keeps m a s) :
    Keeps m a (gainSetBody a0 s).1 := by
  unfold gainSetBody
  repeat' first
      | with_reducible first | assumption | apply failed_keeps | apply updCell_keeps
      | split
      | (dsimp only)

theorem peRun_keeps {m : Part} {a : State} (a0 : Nat) (a1 : CodeJob) (s : State) (h0 : m.grd = true) (h1 : m.cde = true) (h :
    Keeps m a s) :
    Keeps m a (peRun a0 a1 s) := by
  unfold peRun
  repeat' first
      | with_reducible first | assumption | apply codeJob_keeps
      | split

theorem execPeJob_keeps {m : Part} {a : State} (a0 : Nat) (a1 : CodeJob) (s : State) (h0 : m.grd = true) (h1 : m.cde = true)
    (h : Keeps m a s) :
    KeepsO m a (execPeJob a0 a1 s) := by
  unfold execPeJob
  repeat' with_reducible first | assumption | apply peRun_keeps | apply run_keeps

theorem ldDecode_keeps {m : Part} {a : State} (a0 : Nat) (s : State) (h0 : m.cde = true) (h : Keeps m a s) :
    Keeps m a (ldDecode a0 s) := by
  unfold ldDecode
  repeat' first
      | with_reducible first
          | assumption | apply updEng_keeps | apply keeps_foldl | apply keeps_ite | apply keeps_ite_fst | apply keeps_ite_snd
          | exact fun _ h => h | exact fun h => h
      | intro _
      | split
      | (dsimp only)
      | (rename (_ = (_, (_ : State))) => hp; have e := congrArg Prod.snd hp; clear hp; dsimp only at e; subst e)
      | (rename (_ = ((_ : State), _)) => hp; have e := congrArg Prod.fst hp; clear hp; dsimp only at e; subst e)

theorem execLdDecodePhase_keeps {m : Part} {a : State} (a0 : Nat) (s : State) (h0 : m.cde = true) (h : Keeps m a s) :
    KeepsO m a (execLdDecodePhase a0 s) := by
  unfold execLdDecodePhase
  repeat' with_reducible first | assumption | apply ldDecode_keeps | apply run_keeps

theorem execLeJob_keeps {m : Part} {a : State} (a0 : Nat) (s : State) (h0 : m.grd = true) (h1 : m.cde = true) (h : Keeps m a
    s) :
    KeepsO m a (execLeJob a0 s) := by
  unfold execLeJob
  repeat' with_reducible first | assumption | apply run_keeps | apply leRun_keeps

theorem stageRecordsBody_keeps {m : Part} {a : State} (a0 : Req) (s : State) (h : Keeps m a s) :
    Keeps m a (stageRecordsBody a0 s).1 := by
  unfold stageRecordsBody
  repeat' first
      | with_reducible first | assumption | apply failed_keeps
      | split

theorem pdRun_keeps {m : Part} {a : State} (a0 : Nat) (a1 : CodeJob) (s : State) (h0 : m.grd = true) (h1 : m.cde = true) (h :
    Keeps m a s) :
    Keeps m a (pdRun a0 a1 s) := by
  unfold pdRun
  repeat' first
      | with_reducible first | assumption | apply codeJob_keeps
      | split

theorem execPdJob_keeps {m : Part} {a : State} (a0 : Nat) (a1 : CodeJob) (s : State) (h0 : m.grd = true) (h1 : m.cde = true)
    (h : Keeps m a s) :
    KeepsO m a (execPdJob a0 a1 s) := by
  unfold execPdJob
  repeat' with_reducible first | assumption | apply pdRun_keeps | apply run_keeps

theorem ldOutput_keeps {m : Part} {a : State} (a0 : Nat) (s : State) (h0 : m.mem = true) (h1 : m.hlt = true) (h2 : m.cde = true)
    (h : Keeps m a s) :
    Keeps m a (ldOutput a0 s) := by
  unfold ldOutput
  repeat' first
      | with_reducible first
          | assumption | apply codeResult_keeps | apply updEng_keeps | apply storeBytes_keeps | apply keeps_foldl
          | apply keeps_ite | apply keeps_ite_fst | apply keeps_ite_snd | exact memWf_writeBytes _ _ _ ‹_›
          | exact memWf_zero _ _ _ ‹_› | exact memWf_nil | exact memWf_forget _ _ _ _ ‹_› | exact fun _ h => h
          | exact fun h => h
      | intro _
      | split
      | (dsimp only)
      | (rename (_ = (_, (_ : State))) => hp; have e := congrArg Prod.snd hp; clear hp; dsimp only at e; subst e)
      | (rename (_ = ((_ : State), _)) => hp; have e := congrArg Prod.fst hp; clear hp; dsimp only at e; subst e)

theorem execLdOutputPhase_keeps {m : Part} {a : State} (a0 : Nat) (s : State) (h0 : m.mem = true) (h1 : m.hlt = true) (h2 :
    m.cde = true) (h : Keeps m a s) :
    KeepsO m a (execLdOutputPhase a0 s) := by
  unfold execLdOutputPhase
  repeat' with_reducible first | assumption | apply ldOutput_keeps | apply run_keeps

theorem execStageRecords_keeps {m : Part} {a : State} (a0 : Nat) (s : State) (h0 : m.mbx = true) (h1 : m.evr = true) (h2 : m.out
    = true) (h : Keeps m a s) :
    KeepsO m a (execStageRecords a0 s) := by
  unfold execStageRecords
  repeat' with_reducible first | assumption | apply runCommand_keeps | apply stageRecordsBody_keeps | apply run_keeps

theorem execGainSet_keeps {m : Part} {a : State} (a0 : Nat) (s : State) (h0 : m.mbx = true) (h1 : m.evr = true) (h2 : m.cells =
    true) (h3 : m.out = true) (h : Keeps m a s) :
    KeepsO m a (execGainSet a0 s) := by
  unfold execGainSet
  repeat' first
      | with_reducible first | assumption | apply runCommand_keeps | apply gainSetBody_keeps | apply run_keeps
      | intro _

/-! Machine/SweepOps.lean -/

theorem updChan_keeps {m : Part} {a : State} (a0 : Nat) (a1 : SweepChan → SweepChan) (s : State) (h0 : m.sweep = true) (h :
    Keeps m a s) :
    Keeps m a (updChan a0 a1 s) := by
  unfold updChan
  repeat' with_reducible first | assumption | apply State.setSweep_keeps

theorem sweepAnswer_keeps {m : Part} {a : State} (a0 : Nat) (a1 : Nat) (a2 : Status) (a3 : Nat) (s : State) (h0 : m.rings =
    true) (h1 : m.mem = true) (h2 : m.out = true) (h : Keeps m a s) :
    Keeps m a (sweepAnswer a0 a1 a2 a3 s) := by
  unfold sweepAnswer
  repeat' with_reducible first | assumption | apply radioPut_keeps

theorem sweepDrop_keeps {m : Part} {a : State} (a0 : Nat) (a1 : Status) (a2 : SweepFrame → Bool) (s : State) (h0 : m.rings =
    true) (h1 : m.mem = true) (h2 : m.sweep = true) (h3 : m.out = true) (h : Keeps m a s) :
    Keeps m a (sweepDrop a0 a1 a2 s) := by
  unfold sweepDrop
  repeat' first
      | with_reducible first | assumption | apply updChan_keeps | apply sweepAnswer_keeps | apply keeps_foldl
      | intro _
      | split

theorem sweepCell_keeps {m : Part} {a : State} (a0 : Nat) (a1 : Nat) (a2 : SweepFrame → Bool) (s : State) (h0 : m.rings = true)
    (h1 : m.mem = true) (h2 : m.sweep = true) (h3 : m.out = true) (h : Keeps m a s) :
    Keeps m a (sweepCell a0 a1 a2 s) := by
  unfold sweepCell
  repeat' first
      | with_reducible first | assumption | apply sweepDrop_keeps | apply keeps_foldl
      | intro _

theorem sweepIdle_keeps {m : Part} {a : State} (a0 : Nat) (a1 : Nat) (s : State) (h0 : m.rings = true) (h1 : m.mem = true) (h2 :
    m.sweep = true) (h3 : m.out = true) (h : Keeps m a s) :
    Keeps m a (sweepIdle a0 a1 s) := by
  unfold sweepIdle
  repeat' first
      | with_reducible first | assumption | apply sweepCell_keeps | apply keeps_foldl
      | intro _

theorem sweepEnd_keeps {m : Part} {a : State} (s : State) (h0 : m.rings = true) (h1 : m.mem = true) (h2 : m.sweep = true) (h3 :
    m.out = true) (h : Keeps m a s) :
    Keeps m a (sweepEnd s) := by
  unfold sweepEnd
  repeat' first
      | with_reducible first | assumption | apply State.setSweep_keeps | apply sweepDrop_keeps | apply keeps_foldl
      | intro _

theorem sweepMove_keeps {m : Part} {a : State} (a0 : Nat) (a1 : Nat) (a2 : Nat) (s : State) (h0 : m.rings = true) (h1 : m.mem =
    true) (h2 : m.sweep = true) (h3 : m.out = true) (h : Keeps m a s) :
    Keeps m a (sweepMove a0 a1 a2 s) := by
  unfold sweepMove
  repeat' with_reducible first | assumption | apply sweepCell_keeps

/-! Machine/Cells.lean -/

theorem fapiTake_keeps {m : Part} {a : State} (a0 : Nat) (a1 : Nat → Bool) (a2 : FapiIn → State → State) (s : State) (h0 : m.evr
    = true) (h1 : m.rings = true) (h2 : m.mem = true) (h3 : m.hlt = true) (h4 : m.out = true) (h5 : m.fresh = true) (hk3 : ∀ x
    s, Keeps m a s → Keeps m a (a2 x s)) (h : Keeps m a s) :
    Keeps m a (fapiTake a0 a1 a2 s) := by
  unfold fapiTake
  repeat' first
      | with_reducible first | assumption | apply drawStatus_keeps | apply takeHead_keeps | apply emit_keeps | apply hk3
      | split
      | (dsimp only)

theorem slotAct_keeps {m : Part} {a : State} (a0 : Nat) (a1 : Nat) (a2 : Nat) (a3 : SlotHold → List (Bool × Nat)) (a4 : SlotHold
    → Bool) (a5 : SlotHold → SlotHold) (a6 : FapiIn) (s : State) (h0 : m.rings = true) (h1 : m.mem = true) (h2 : m.cells = true)
    (h3 : m.out = true) (h : Keeps m a s) :
    Keeps m a (slotAct a0 a1 a2 a3 a4 a5 a6 s) := by
  unfold slotAct
  repeat' first
      | with_reducible first | assumption | apply kReject_keeps | apply errorInd_keeps | apply updCell_keeps
      | split
      | (dsimp only)

theorem execUlTtiRequest_keeps {m : Part} {a : State} (a0 : Nat) (a1 : SlotMsg) (s : State) (h0 : m.evr = true) (h1 : m.rings =
    true) (h2 : m.mem = true) (h3 : m.hlt = true) (h4 : m.cells = true) (h5 : m.out = true) (h6 : m.fresh = true) (h : Keeps m a
    s) :
    KeepsO m a (execUlTtiRequest a0 a1 s) := by
  unfold execUlTtiRequest
  repeat' first
      | with_reducible first | assumption | apply fapiTake_keeps | apply slotAct_keeps | apply run_keeps
      | intro _

theorem execDlTtiRequest_keeps {m : Part} {a : State} (a0 : Nat) (a1 : SlotMsg) (s : State) (h0 : m.evr = true) (h1 : m.rings =
    true) (h2 : m.mem = true) (h3 : m.hlt = true) (h4 : m.cells = true) (h5 : m.out = true) (h6 : m.fresh = true) (h : Keeps m a
    s) :
    KeepsO m a (execDlTtiRequest a0 a1 s) := by
  unfold execDlTtiRequest
  repeat' first
      | with_reducible first | assumption | apply fapiTake_keeps | apply slotAct_keeps | apply run_keeps
      | intro _

theorem commitResult_keeps {m : Part} {a : State} (a0 : Nat) (a1 : Nat) (a2 : CommitOutcome) (s : State) (h0 : m.evr = true)
    (h1 : m.rings = true) (h2 : m.mem = true) (h3 : m.cells = true) (h4 : m.sweep = true) (h5 : m.out = true) (h : Keeps m a
    s) :
    Keeps m a (commitResult a0 a1 a2 s) := by
  unfold commitResult
  repeat' first
      | with_reducible first
          | assumption | apply kTwin_keeps | apply stopCell_keeps | apply kReject_keeps | apply cellTo_keeps
          | apply updCell_keeps | apply keeps_foldl
      | intro _
      | split
      | (dsimp only)

theorem makeBinding_keeps {m : Part} {a : State} (a0 : Nat) (a1 : Nat) (a2 : CellConfig) (a3 : List Byte) (s : State) (h0 : m.fh
    = true) (h1 : m.fresh = true) (h : Keeps m a s) :
    ∀ t, makeBinding a0 a1 a2 a3 s = .ok t → Keeps m a t := by
  intro t ht
  unfold makeBinding at ht
  repeat' first
      | split at ht
      | (dsimp only at ht)
      | (simp only [reduceCtorEq] at ht; done)
      | (have e := Option.some.inj ht; clear ht; subst e)
      | (have e := Except.ok.inj ht; clear ht; subst e)
      | with_reducible first
          | assumption | apply pickFree_keeps | apply updFh_keeps | apply drawFree_keeps | apply keeps_foldl | apply keeps_ite
          | apply keeps_ite_fst | apply keeps_ite_snd | exact fun _ h => h | exact fun h => h
      | intro _
      | split
      | (dsimp only)
      | (rename (_ = (_, (_ : State))) => hp; have e := congrArg Prod.snd hp; clear hp; dsimp only at e; subst e)
      | (rename (_ = ((_ : State), _)) => hp; have e := congrArg Prod.fst hp; clear hp; dsimp only at e; subst e)

theorem makeBindings_keeps {m : Part} {a : State} (a0 : Nat) (a1 : Nat) (a2 : CellConfig) (a3 : List (List Byte)) (s : State)
    (h0 : m.fh = true) (h1 : m.fresh = true) (h : Keeps m a s) :
    ∀ t, makeBindings a0 a1 a2 a3 s = .ok t → Keeps m a t := by
  induction a3 generalizing s with
  | nil => intro t ht; exact Except.ok.inj ht ▸ h
  | cons b r ih =>
    intro t ht
    unfold makeBindings at ht
    split at ht
    · cases ht
    · rename_i u hu
      exact ih u (makeBinding_keeps _ _ _ _ _ h0 h1 h u hu) t ht

theorem errorNow_keeps {m : Part} {a : State} (a0 : FapiIn) (a1 : Nat) (a2 : Nat) (s : State) (h0 : m.rings = true) (h1 : m.mem
    = true) (h2 : m.cells = true) (h3 : m.out = true) (h : Keeps m a s) :
    Keeps m a (errorNow a0 a1 a2 s) := by
  unfold errorNow
  repeat' with_reducible first | assumption | apply errorInd_keeps

theorem intakeLine_keeps {m : Part} {a : State} (a0 : Nat) (a1 : Nat) (a2 : Nat) (s : State) (h0 : m.rings = true) (h1 : m.mem =
    true) (h2 : m.cells = true) (h3 : m.out = true) (h : Keeps m a s) :
    Keeps m a (intakeLine a0 a1 a2 s) := by
  unfold intakeLine
  repeat' first
      | with_reducible first | assumption | apply kReject_keeps | apply updCell_keeps
      | split
      | (dsimp only)

theorem cellQueryBody_keeps {m : Part} {a : State} (a0 : Req) (s : State) (h0 : m.cells = true) (h : Keeps m a s) :
    Keeps m a (cellQueryBody a0 s).1 := by
  unfold cellQueryBody
  repeat' first
      | with_reducible first | assumption | apply failed_keeps | apply updCell_keeps
      | split
      | (dsimp only)

theorem slotIndication_keeps {m : Part} {a : State} (a0 : Nat) (a1 : Nat) (a2 : Nat) (s : State) (h0 : m.rings = true) (h1 :
    m.mem = true) (h2 : m.cells = true) (h3 : m.out = true) (h : Keeps m a s) :
    Keeps m a (slotIndication a0 a1 a2 s) := by
  unfold slotIndication
  repeat' first
      | with_reducible first | assumption | apply fapi_keeps
      | split
      | (dsimp only)

theorem execSlotIndication_keeps {m : Part} {a : State} (a0 : Nat) (a1 : Nat) (a2 : Nat) (s : State) (h0 : m.rings = true) (h1 :
    m.mem = true) (h2 : m.cells = true) (h3 : m.out = true) (h : Keeps m a s) :
    KeepsO m a (execSlotIndication a0 a1 a2 s) := by
  unfold execSlotIndication
  repeat' with_reducible first | assumption | apply slotIndication_keeps | apply run_keeps

theorem paramAct_keeps {m : Part} {a : State} (a0 : FapiIn) (s : State) (h0 : m.rings = true) (h1 : m.mem = true) (h2 : m.cells
    = true) (h3 : m.out = true) (h : Keeps m a s) :
    Keeps m a (paramAct a0 s) := by
  unfold paramAct
  repeat' first
      | with_reducible first | assumption | apply fapi_keeps | apply errorNow_keeps
      | split

theorem startAct_keeps {m : Part} {a : State} (a0 : FapiIn) (s : State) (h0 : m.evr = true) (h1 : m.rings = true) (h2 : m.mem =
    true) (h3 : m.cells = true) (h4 : m.sweep = true) (h5 : m.out = true) (h : Keeps m a s) :
    Keeps m a (startAct a0 s) := by
  unfold startAct
  repeat' first
      | with_reducible first | assumption | apply cellTo_keeps | apply updCell_keeps | apply errorNow_keeps
      | split
      | (dsimp only)

theorem execKPrioRequest_keeps {m : Part} {a : State} (a0 : Nat) (a1 : PrioMsg) (s : State) (h0 : m.evr = true) (h1 : m.rings =
    true) (h2 : m.mem = true) (h3 : m.hlt = true) (h4 : m.cells = true) (h5 : m.out = true) (h6 : m.fresh = true) (h : Keeps m a
    s) :
    KeepsO m a (execKPrioRequest a0 a1 s) := by
  unfold execKPrioRequest
  repeat' first
      | with_reducible first | assumption | apply fapiTake_keeps | apply slotAct_keeps | apply run_keeps
      | intro _

theorem execUlDciRequest_keeps {m : Part} {a : State} (a0 : Nat) (a1 : SlotMsg) (s : State) (h0 : m.evr = true) (h1 : m.rings =
    true) (h2 : m.mem = true) (h3 : m.hlt = true) (h4 : m.cells = true) (h5 : m.out = true) (h6 : m.fresh = true) (h : Keeps m a
    s) :
    KeepsO m a (execUlDciRequest a0 a1 s) := by
  unfold execUlDciRequest
  repeat' first
      | with_reducible first | assumption | apply fapiTake_keeps | apply slotAct_keeps | apply run_keeps
      | intro _

theorem configAct_keeps {m : Part} {a : State} (a0 : List ConfigItem) (a1 : FapiIn) (s : State) (h0 : m.rings = true) (h1 :
    m.mem = true) (h2 : m.cells = true) (h3 : m.out = true) (h : Keeps m a s) :
    Keeps m a (configAct a0 a1 s) := by
  unfold configAct
  repeat' first
      | with_reducible first | assumption | apply fapi_keeps | apply updCell_keeps | apply errorNow_keeps
      | split

theorem cellCreateBody_keeps {m : Part} {a : State} (a0 : Req) (s : State) (h0 : m.evr = true) (h1 : m.fh = true) (h2 : m.cells
    = true) (h3 : m.sweep = true) (h4 : m.out = true) (h5 : m.fresh = true) (h : Keeps m a s) :
    Keeps m a (cellCreateBody a0 s).1 := by
  unfold cellCreateBody
  repeat' first
      | with_reducible first
          | (refine keeps_of_ok ?_ ‹makeBindings _ _ _ _ _ = _›; apply makeBindings_keeps) | assumption | apply failed_keeps
          | apply cellTo_keeps | apply State.setCells_keeps
      | split
      | (dsimp only)

theorem execCellQuery_keeps {m : Part} {a : State} (a0 : Nat) (s : State) (h0 : m.mbx = true) (h1 : m.evr = true) (h2 : m.cells
    = true) (h3 : m.out = true) (h : Keeps m a s) :
    KeepsO m a (execCellQuery a0 s) := by
  unfold execCellQuery
  repeat' first
      | with_reducible first | assumption | apply runCommand_keeps | apply cellQueryBody_keeps | apply run_keeps
      | intro _

theorem execParamRequest_keeps {m : Part} {a : State} (a0 : Nat) (s : State) (h0 : m.evr = true) (h1 : m.rings = true) (h2 :
    m.mem = true) (h3 : m.hlt = true) (h4 : m.cells = true) (h5 : m.out = true) (h6 : m.fresh = true) (h : Keeps m a s) :
    KeepsO m a (execParamRequest a0 s) := by
  unfold execParamRequest
  repeat' first
      | with_reducible first | assumption | apply fapiTake_keeps | apply paramAct_keeps | apply run_keeps
      | intro _

theorem roleTo_keeps {m : Part} {a : State} (a0 : Nat) (a1 : Nat) (a2 : CellRole) (a3 : Cell → Cell) (s : State) (h0 : m.evr =
    true) (h1 : m.cells = true) (h2 : m.out = true) (h : Keeps m a s) :
    Keeps m a (roleTo a0 a1 a2 a3 s) := by
  unfold roleTo
  repeat' with_reducible first | assumption | apply twinState_keeps | apply updCell_keeps

theorem twinCommit_keeps {m : Part} {a : State} (a0 : Nat) (a1 : Nat) (a2 : Nat) (s : State) (h0 : m.evr = true) (h1 : m.rings =
    true) (h2 : m.mem = true) (h3 : m.cells = true) (h4 : m.sweep = true) (h5 : m.out = true) (h : Keeps m a s) :
    Keeps m a (twinCommit a0 a1 a2 s) := by
  unfold twinCommit
  repeat' first
      | with_reducible first | assumption | apply roleTo_keeps | apply kTwin_keeps | apply emit_keeps | apply cellTo_keeps
      | split
      | (dsimp only)

theorem execTwinCommit_keeps {m : Part} {a : State} (a0 : Nat) (a1 : Nat) (a2 : Nat) (s : State) (h0 : m.evr = true) (h1 :
    m.rings = true) (h2 : m.mem = true) (h3 : m.cells = true) (h4 : m.sweep = true) (h5 : m.out = true) (h : Keeps m a s) :
    KeepsO m a (execTwinCommit a0 a1 a2 s) := by
  unfold execTwinCommit
  repeat' with_reducible first | assumption | apply twinCommit_keeps | apply run_keeps

theorem twinUnpairBody_keeps {m : Part} {a : State} (a0 : Req) (s : State) (h0 : m.evr = true) (h1 : m.cells = true) (h2 : m.out
    = true) (h : Keeps m a s) :
    Keeps m a (twinUnpairBody a0 s).1 := by
  unfold twinUnpairBody
  repeat' first
      | with_reducible first | assumption | apply failed_keeps | apply roleTo_keeps
      | split
      | (dsimp only)

theorem execTwinUnpair_keeps {m : Part} {a : State} (a0 : Nat) (s : State) (h0 : m.mbx = true) (h1 : m.evr = true) (h2 : m.cells
    = true) (h3 : m.out = true) (h : Keeps m a s) :
    KeepsO m a (execTwinUnpair a0 s) := by
  unfold execTwinUnpair
  repeat' first
      | with_reducible first | assumption | apply runCommand_keeps | apply twinUnpairBody_keeps | apply run_keeps
      | intro _

theorem cellDestroyBody_keeps {m : Part} {a : State} (a0 : Req) (s : State) (h0 : m.evr = true) (h1 : m.fh = true) (h2 : m.cells
    = true) (h3 : m.sweep = true) (h4 : m.out = true) (h : Keeps m a s) :
    Keeps m a (cellDestroyBody a0 s).1 := by
  unfold cellDestroyBody
  repeat' first
      | with_reducible first | assumption | apply failed_keeps | apply destroyCell_keeps
      | split
      | (dsimp only)

theorem stopAct_keeps {m : Part} {a : State} (a0 : FapiIn) (s : State) (h0 : m.evr = true) (h1 : m.rings = true) (h2 : m.mem =
    true) (h3 : m.cells = true) (h4 : m.sweep = true) (h5 : m.out = true) (h : Keeps m a s) :
    Keeps m a (stopAct a0 s) := by
  unfold stopAct
  repeat' first
      | with_reducible first | assumption | apply stopCell_keeps | apply errorNow_keeps
      | split

theorem execStopRequest_keeps {m : Part} {a : State} (a0 : Nat) (s : State) (h0 : m.evr = true) (h1 : m.rings = true) (h2 :
    m.mem = true) (h3 : m.hlt = true) (h4 : m.cells = true) (h5 : m.sweep = true) (h6 : m.out = true) (h7 : m.fresh = true) (h :
    Keeps m a s) :
    KeepsO m a (execStopRequest a0 s) := by
  unfold execStopRequest
  repeat' first
      | with_reducible first | assumption | apply fapiTake_keeps | apply stopAct_keeps | apply run_keeps
      | intro _

theorem execCellCreate_keeps {m : Part} {a : State} (a0 : Nat) (s : State) (h0 : m.mbx = true) (h1 : m.evr = true) (h2 : m.fh =
    true) (h3 : m.cells = true) (h4 : m.sweep = true) (h5 : m.out = true) (h6 : m.fresh = true) (h : Keeps m a s) :
    KeepsO m a (execCellCreate a0 s) := by
  unfold execCellCreate
  repeat' first
      | with_reducible first | assumption | apply runCommand_keeps | apply run_keeps | apply cellCreateBody_keeps
      | intro _

theorem twinPairBody_keeps {m : Part} {a : State} (a0 : Bool) (a1 : Req) (s : State) (h0 : m.evr = true) (h1 : m.cells = true)
    (h2 : m.out = true) (h : Keeps m a s) :
    Keeps m a (twinPairBody a0 a1 s).1 := by
  unfold twinPairBody
  repeat' first
      | with_reducible first | assumption | apply failed_keeps | apply roleTo_keeps | apply sendSnapshot_keeps
      | split
      | (dsimp only)

theorem execTwinPair_keeps {m : Part} {a : State} (a0 : Nat) (a1 : Bool) (s : State) (h0 : m.mbx = true) (h1 : m.evr = true)
    (h2 : m.cells = true) (h3 : m.out = true) (h : Keeps m a s) :
    KeepsO m a (execTwinPair a0 a1 s) := by
  unfold execTwinPair
  repeat' first
      | with_reducible first | assumption | apply runCommand_keeps | apply twinPairBody_keeps | apply run_keeps
      | intro _

theorem execTxDataRequest_keeps {m : Part} {a : State} (a0 : Nat) (a1 : TxMsg) (s : State) (h0 : m.evr = true) (h1 : m.rings =
    true) (h2 : m.mem = true) (h3 : m.hlt = true) (h4 : m.cells = true) (h5 : m.out = true) (h6 : m.fresh = true) (h : Keeps m a
    s) :
    KeepsO m a (execTxDataRequest a0 a1 s) := by
  unfold execTxDataRequest
  repeat' first
      | with_reducible first | assumption | apply fapiTake_keeps | apply slotAct_keeps | apply run_keeps
      | intro _

theorem execConfigRequest_keeps {m : Part} {a : State} (a0 : Nat) (a1 : List ConfigItem) (s : State) (h0 : m.evr = true) (h1 :
    m.rings = true) (h2 : m.mem = true) (h3 : m.hlt = true) (h4 : m.cells = true) (h5 : m.out = true) (h6 : m.fresh = true) (h :
    Keeps m a s) :
    KeepsO m a (execConfigRequest a0 a1 s) := by
  unfold execConfigRequest
  repeat' first
      | with_reducible first | assumption | apply fapiTake_keeps | apply configAct_keeps | apply run_keeps
      | intro _

theorem execStartRequest_keeps {m : Part} {a : State} (a0 : Nat) (s : State) (h0 : m.evr = true) (h1 : m.rings = true) (h2 :
    m.mem = true) (h3 : m.hlt = true) (h4 : m.cells = true) (h5 : m.sweep = true) (h6 : m.out = true) (h7 : m.fresh = true) (h :
    Keeps m a s) :
    KeepsO m a (execStartRequest a0 s) := by
  unfold execStartRequest
  repeat' first
      | with_reducible first | assumption | apply fapiTake_keeps | apply startAct_keeps | apply run_keeps
      | intro _

theorem execUnsupportedMessage_keeps {m : Part} {a : State} (a0 : Nat) (a1 : Nat) (s : State) (h0 : m.evr = true) (h1 : m.rings
    = true) (h2 : m.mem = true) (h3 : m.hlt = true) (h4 : m.cells = true) (h5 : m.out = true) (h6 : m.fresh = true) (h :
    Keeps m a s) :
    KeepsO m a (execUnsupportedMessage a0 a1 s) := by
  unfold execUnsupportedMessage
  repeat' first
      | with_reducible first | assumption | apply fapiTake_keeps | apply run_keeps | apply errorNow_keeps
      | intro _

theorem execIntakeLine_keeps {m : Part} {a : State} (a0 : Nat) (a1 : Nat) (a2 : Nat) (s : State) (h0 : m.rings = true) (h1 :
    m.mem = true) (h2 : m.cells = true) (h3 : m.out = true) (h : Keeps m a s) :
    KeepsO m a (execIntakeLine a0 a1 a2 s) := by
  unfold execIntakeLine
  repeat' with_reducible first | assumption | apply intakeLine_keeps | apply run_keeps

theorem execCommitResult_keeps {m : Part} {a : State} (a0 : Nat) (a1 : Nat) (a2 : CommitOutcome) (s : State) (h0 : m.evr = true)
    (h1 : m.rings = true) (h2 : m.mem = true) (h3 : m.cells = true) (h4 : m.sweep = true) (h5 : m.out = true) (h : Keeps m a
    s) :
    KeepsO m a (execCommitResult a0 a1 a2 s) := by
  unfold execCommitResult
  repeat' with_reducible first | assumption | apply commitResult_keeps | apply run_keeps

theorem execCellDestroy_keeps {m : Part} {a : State} (a0 : Nat) (s : State) (h0 : m.mbx = true) (h1 : m.evr = true) (h2 : m.fh =
    true) (h3 : m.cells = true) (h4 : m.sweep = true) (h5 : m.out = true) (h : Keeps m a s) :
    KeepsO m a (execCellDestroy a0 s) := by
  unfold execCellDestroy
  repeat' first
      | with_reducible first | assumption | apply cellDestroyBody_keeps | apply runCommand_keeps | apply run_keeps
      | intro _

theorem takeSeqs_keeps {m : Part} {a : State} (a0 : Nat) (a1 : Nat) (a2 : List (Nat × Nat)) (s : State) (h0 : m.fh = true) (h :
    Keeps m a s) :
    Keeps m a (takeSeqs a0 a1 a2 s) := by
  unfold takeSeqs
  repeat' with_reducible first | assumption | apply updFh_keeps

theorem mirrorRecord_keeps {m : Part} {a : State} (a0 : Nat) (a1 : Nat) (a2 : MirrorRec) (s : State) (h0 : m.evr = true) (h1 :
    m.fh = true) (h2 : m.cells = true) (h3 : m.out = true) (h : Keeps m a s) :
    Keeps m a (mirrorRecord a0 a1 a2 s) := by
  unfold mirrorRecord
  repeat' first
      | with_reducible first
          | assumption | apply roleTo_keeps | apply takeSeqs_keeps | apply sendSnapshot_keeps | apply unsync_keeps
          | apply updCell_keeps
      | split
      | (dsimp only)

theorem execTwinMirrorRecord_keeps {m : Part} {a : State} (a0 : Nat) (a1 : Nat) (a2 : MirrorRec) (s : State) (h0 : m.evr = true)
    (h1 : m.fh = true) (h2 : m.cells = true) (h3 : m.out = true) (h : Keeps m a s) :
    KeepsO m a (execTwinMirrorRecord a0 a1 a2 s) := by
  unfold execTwinMirrorRecord
  repeat' with_reducible first | assumption | apply run_keeps | apply mirrorRecord_keeps

/-! Machine/Table.lean -/

theorem endPartOps_keeps {m : Part} {a : State} (a0 : Nat) (s : State) (h0 : m.ops = true) (h1 : m.evr = true) (h2 : m.tts =
    true) (h3 : m.srv = true) (h4 : m.out = true) (h5 : m.fresh = true) (h : Keeps m a s) :
    Keeps m a (endPartOps a0 s) := by
  unfold endPartOps
  repeat' first
      | with_reducible first
          | assumption | apply drawStatus_keeps | apply updSrv_keeps | apply finishOp_keeps | apply updTts_keeps
          | apply keeps_foldl
      | intro _

theorem resetStep3_keeps {m : Part} {a : State} (a0 : Nat) (s : State) (h0 : m.ops = true) (h1 : m.evr = true) (h2 : m.rings =
    true) (h3 : m.mem = true) (h4 : m.grd = true) (h5 : m.tts = true) (h6 : m.srv = true) (h7 : m.fab = true) (h8 : m.syn =
    true) (h9 : m.parts = true) (h10 : m.hlt = true) (h11 : m.tiles = true) (h12 : m.out = true) (h13 : m.fresh = true) (h :
    Keeps m a s) :
    Keeps m a (resetStep3 a0 s) := by
  unfold resetStep3
  repeat' first
      | with_reducible first
          | assumption | apply endOne_keeps | apply endPartOps_keeps | apply updPart_keeps | apply dropNotStarted_keeps
          | apply settleSteps_keeps | apply keeps_foldl
      | intro _

theorem unloadTable_keeps {m : Part} {a : State} (a0 : Nat) (s : State) (h0 : m.ops = true) (h1 : m.evr = true) (h2 : m.rings =
    true) (h3 : m.mem = true) (h4 : m.grd = true) (h5 : m.tts = true) (h6 : m.srv = true) (h7 : m.fab = true) (h8 : m.syn =
    true) (h9 : m.hlt = true) (h10 : m.tiles = true) (h11 : m.out = true) (h12 : m.fresh = true) (h : Keeps m a s) :
    Keeps m a (unloadTable a0 s) := by
  unfold unloadTable
  repeat'
      with_reducible first
        | assumption | apply freeShares_keeps | apply sbFreeOwner_keeps | apply tablesChanged_keeps | apply tableTo_keeps
        | apply updTts_keeps

theorem resetStep2_keeps {m : Part} {a : State} (a0 : Nat) (s : State) (h0 : m.ops = true) (h1 : m.evr = true) (h2 : m.rings =
    true) (h3 : m.mem = true) (h4 : m.grd = true) (h5 : m.tts = true) (h6 : m.fh = true) (h7 : m.srv = true) (h8 : m.fab = true)
    (h9 : m.syn = true) (h10 : m.parts = true) (h11 : m.hlt = true) (h12 : m.tiles = true) (h13 : m.cells = true) (h14 : m.sweep
    = true) (h15 : m.out = true) (h16 : m.fresh = true) (h : Keeps m a s) :
    Keeps m a (resetStep2 a0 s) := by
  unfold resetStep2
  repeat' first
      | with_reducible first
          | assumption | apply resetStep3_keeps | apply unloadTable_keeps | apply destroyCell_keeps | apply keeps_foldl
      | intro _
      | split
      | (dsimp only)

theorem tableEnd_keeps {m : Part} {a : State} (a0 : Nat) (s : State) (h0 : m.evr = true) (h1 : m.tts = true) (h2 : m.out = true)
    (h : Keeps m a s) :
    Keeps m a (tableEnd a0 s) := by
  unfold tableEnd
  repeat' first
      | with_reducible first | assumption | apply updTable_keeps | apply tableTo_keeps
      | split
      | (dsimp only)

theorem stopTable_keeps {m : Part} {a : State} (a0 : Nat) (a1 : Nat) (s : State) (h0 : m.evr = true) (h1 : m.tts = true) (h2 :
    m.out = true) (h : Keeps m a s) :
    Keeps m a (stopTable a0 a1 s) := by
  unfold stopTable
  repeat' with_reducible first | assumption | apply updTable_keeps | apply tableEnd_keeps | apply tableTo_keeps

theorem stageOverrun_keeps {m : Part} {a : State} (a0 : Nat) (a1 : Nat) (a2 : Nat) (a3 : TEntry) (s : State) (h0 : m.evr = true)
    (h1 : m.grd = true) (h2 : m.tts = true) (h3 : m.hlt = true) (h4 : m.tiles = true) (h5 : m.cde = true) (h6 : m.out = true)
    (h7 : m.fresh = true) (h : Keeps m a s) :
    Keeps m a (stageOverrun a0 a1 a2 a3 s) := by
  unfold stageOverrun
  repeat'
      with_reducible first
        | assumption | apply updTable_keeps | apply fault_keeps | apply post_keeps | apply failStage_keeps

theorem reservationEnd_keeps {m : Part} {a : State} (a0 : Nat) (a1 : Nat) (a2 : Nat) (s : State) (h0 : m.ops = true) (h1 : m.evr
    = true) (h2 : m.rings = true) (h3 : m.mem = true) (h4 : m.grd = true) (h5 : m.tts = true) (h6 : m.fh = true) (h7 : m.srv =
    true) (h8 : m.fab = true) (h9 : m.syn = true) (h10 : m.parts = true) (h11 : m.hlt = true) (h12 : m.tiles = true) (h13 :
    m.cde = true) (h14 : m.cells = true) (h15 : m.sweep = true) (h16 : m.out = true) (h17 : m.fresh = true) (h : Keeps m a s) :
    Keeps m a (reservationEnd a0 a1 a2 s) := by
  unfold reservationEnd
  repeat' first
      | with_reducible first
          | assumption | apply slotReport_keeps | apply resetStep2_keeps | apply tableEnd_keeps | apply stageOverrun_keeps
          | apply cellsEnd_keeps | apply updTts_keeps | apply addStage_keeps
      | split

theorem tableUnloadBody_keeps {m : Part} {a : State} (a0 : Req) (s : State) (h0 : m.ops = true) (h1 : m.evr = true) (h2 :
    m.rings = true) (h3 : m.mem = true) (h4 : m.grd = true) (h5 : m.tts = true) (h6 : m.srv = true) (h7 : m.fab = true) (h8 :
    m.syn = true) (h9 : m.hlt = true) (h10 : m.tiles = true) (h11 : m.out = true) (h12 : m.fresh = true) (h : Keeps m a s) :
    Keeps m a (tableUnloadBody a0 s).1 := by
  unfold tableUnloadBody
  repeat' first
      | with_reducible first | assumption | apply failed_keeps | apply unloadTable_keeps
      | split

theorem sealCells_keeps {m : Part} {a : State} (a0 : Nat) (a1 : Nat) (a2 : List TEntry) (s : State) (h0 : m.cde = true) (h1 :
    m.cells = true) (h2 : m.out = true) (h : Keeps m a s) :
    Keeps m a (sealCells a0 a1 a2 s) := by
  unfold sealCells
  repeat' first
      | with_reducible first
          | assumption | apply buildJobs_keeps | apply emit_keeps | apply updCell_keeps | apply keeps_foldl
      | intro _
      | split
      | (dsimp only)

theorem sealParams_keeps {m : Part} {a : State} (a0 : InstSpec) (s : State) (h0 : m.mem = true) (h : Keeps m a s) :
    Keeps m a (sealParams a0 s) := by
  unfold sealParams
  repeat' first
      | with_reducible first
          | assumption | apply State.setMem_keeps | apply keeps_foldl | apply keeps_ite | apply keeps_ite_fst
          | apply keeps_ite_snd | exact memWf_writeBytes _ _ _ ‹_› | exact memWf_zero _ _ _ ‹_› | exact memWf_nil
          | exact memWf_forget _ _ _ _ ‹_› | exact fun _ h => h | exact fun h => h
      | intro _
      | split
      | (dsimp only)
      | (rename (_ = (_, (_ : State))) => hp; have e := congrArg Prod.snd hp; clear hp; dsimp only at e; subst e)
      | (rename (_ = ((_ : State), _)) => hp; have e := congrArg Prod.fst hp; clear hp; dsimp only at e; subst e)

theorem unfilledCells_keeps {m : Part} {a : State} (a0 : Nat) (a1 : Nat) (s : State) (h0 : m.rings = true) (h1 : m.mem = true)
    (h2 : m.cells = true) (h3 : m.sweep = true) (h4 : m.out = true) (h : Keeps m a s) :
    Keeps m a (unfilledCells a0 a1 s) := by
  unfold unfilledCells
  repeat' first
      | with_reducible first
          | assumption | apply sweepIdle_keeps | apply kReject_keeps | apply updCell_keeps | apply keeps_foldl
      | intro _

theorem sealInst_keeps {m : Part} {a : State} (a0 : Nat) (a1 : InstSpec) (s : State) (h0 : m.evr = true) (h1 : m.rings = true)
    (h2 : m.mem = true) (h3 : m.tts = true) (h4 : m.cde = true) (h5 : m.cells = true) (h6 : m.sweep = true) (h7 : m.out = true)
    (h : Keeps m a s) :
    Keeps m a (sealInst a0 a1 s) := by
  unfold sealInst
  repeat' first
      | with_reducible first
          | assumption | apply unfilledCells_keeps | apply updTable_keeps | apply sealParams_keeps | apply fillIdle_keeps
          | apply sealCells_keeps
      | split
      | (dsimp only)

theorem execSeal_keeps {m : Part} {a : State} (a0 : Nat) (a1 : InstSpec) (s : State) (h0 : m.evr = true) (h1 : m.rings = true)
    (h2 : m.mem = true) (h3 : m.tts = true) (h4 : m.cde = true) (h5 : m.cells = true) (h6 : m.sweep = true) (h7 : m.out = true)
    (h : Keeps m a s) :
    KeepsO m a (execSeal a0 a1 s) := by
  unfold execSeal
  repeat' with_reducible first | assumption | apply sealInst_keeps | apply run_keeps

theorem execLendDecision_keeps {m : Part} {a : State} (s : State) (h0 : m.grd = true) (h1 : m.tts = true) (h2 : m.srv = true)
    (h3 : m.hlt = true) (h4 : m.tiles = true) (h : Keeps m a s) :
    KeepsO m a (execLendDecision s) := by
  unfold execLendDecision
  repeat' with_reducible first | assumption | apply lendAll_keeps | apply run_keeps

theorem stageEnd_keeps {m : Part} {a : State} (a0 : Nat) (a1 : Nat) (a2 : Nat) (s : State) (h0 : m.rings = true) (h1 : m.mem =
    true) (h2 : m.grd = true) (h3 : m.tts = true) (h4 : m.tiles = true) (h5 : m.cells = true) (h6 : m.out = true) (h : Keeps m a
    s) :
    Keeps m a (stageEnd a0 a1 a2 s) := by
  unfold stageEnd
  repeat' first
      | with_reducible first | assumption | apply updResv_keeps | apply clearUnits_keeps | apply deliver_keeps
      | split
      | (dsimp only)

theorem execReservationEnd_keeps {m : Part} {a : State} (a0 : Nat) (a1 : Nat) (a2 : Nat) (s : State) (h0 : m.ops = true) (h1 :
    m.evr = true) (h2 : m.rings = true) (h3 : m.mem = true) (h4 : m.grd = true) (h5 : m.tts = true) (h6 : m.fh = true) (h7 :
    m.srv = true) (h8 : m.fab = true) (h9 : m.syn = true) (h10 : m.parts = true) (h11 : m.hlt = true) (h12 : m.tiles = true)
    (h13 : m.cde = true) (h14 : m.cells = true) (h15 : m.sweep = true) (h16 : m.out = true) (h17 : m.fresh = true) (h :
    Keeps m a s) :
    KeepsO m a (execReservationEnd a0 a1 a2 s) := by
  unfold execReservationEnd
  repeat' with_reducible first | assumption | apply reservationEnd_keeps | apply run_keeps

theorem entryOverlap_keeps {m : Part} {a : State} (a0 : Nat) (a1 : Nat) (a2 : Nat) (a3 : TEntry) (a4 : Nat) (a5 : Reservation)
    (s : State) (h0 : m.evr = true) (h1 : m.tts = true) (h2 : m.hlt = true) (h3 : m.cde = true) (h4 : m.out = true) (h5 :
    m.fresh = true) (h : Keeps m a s) :
    Keeps m a (entryOverlap a0 a1 a2 a3 a4 a5 s) := by
  unfold entryOverlap
  repeat' first
      | with_reducible first | assumption | apply fault_keeps | apply markFailed_keeps | apply addStage_keeps
      | split

theorem execTableUnload_keeps {m : Part} {a : State} (a0 : Nat) (s : State) (h0 : m.mbx = true) (h1 : m.ops = true) (h2 : m.evr
    = true) (h3 : m.rings = true) (h4 : m.mem = true) (h5 : m.grd = true) (h6 : m.tts = true) (h7 : m.srv = true) (h8 : m.fab =
    true) (h9 : m.syn = true) (h10 : m.hlt = true) (h11 : m.tiles = true) (h12 : m.out = true) (h13 : m.fresh = true) (h :
    Keeps m a s) :
    KeepsO m a (execTableUnload a0 s) := by
  unfold execTableUnload
  repeat' first
      | with_reducible first | assumption | apply runCommand_keeps | apply tableUnloadBody_keeps | apply run_keeps
      | intro _

theorem microBlocking_keeps {m : Part} {a : State} (a0 : Nat) (a1 : Nat) (s : State) (h0 : m.tts = true) (h : Keeps m a s) :
    Keeps m a (microBlocking a0 a1 s) := by
  unfold microBlocking
  repeat' with_reducible first | assumption | apply updTts_keeps

theorem execMicroStepBlocking_keeps {m : Part} {a : State} (a0 : Nat) (a1 : Nat) (s : State) (h0 : m.tts = true) (h : Keeps m a
    s) :
    KeepsO m a (execMicroStepBlocking a0 a1 s) := by
  unfold execMicroStepBlocking
  repeat' with_reducible first | assumption | apply microBlocking_keeps | apply run_keeps

theorem tableStopBody_keeps {m : Part} {a : State} (a0 : Req) (s : State) (h0 : m.evr = true) (h1 : m.tts = true) (h2 : m.out =
    true) (h : Keeps m a s) :
    Keeps m a (tableStopBody a0 s).1 := by
  unfold tableStopBody
  repeat' first
      | with_reducible first | assumption | apply failed_keeps | apply stopTable_keeps
      | split

theorem tableLoadBody_keeps {m : Part} {a : State} (a0 : Option Template) (a1 : Req) (s : State) (h0 : m.ops = true) (h1 : m.tts
    = true) (h2 : m.fresh = true) (h : Keeps m a s) :
    Keeps m a (tableLoadBody a0 a1 s).1 := by
  unfold tableLoadBody
  repeat' first
      | with_reducible first | assumption | apply failed_keeps | apply longOp_keeps | apply updTts_keeps
      | intro _
      | split
      | (dsimp only)

theorem execTableLoad_keeps {m : Part} {a : State} (a0 : Nat) (a1 : Option Template) (s : State) (h0 : m.mbx = true) (h1 : m.ops
    = true) (h2 : m.evr = true) (h3 : m.tts = true) (h4 : m.out = true) (h5 : m.fresh = true) (h : Keeps m a s) :
    KeepsO m a (execTableLoad a0 a1 s) := by
  unfold execTableLoad
  repeat' first
      | with_reducible first | assumption | apply runCommand_keeps | apply tableLoadBody_keeps | apply run_keeps
      | intro _

theorem entryLaunch_keeps {m : Part} {a : State} (a0 : Nat) (a1 : Nat) (a2 : Nat) (a3 : List (CtlMem × Nat)) (s : State) (h0 :
    m.ops = true) (h1 : m.evr = true) (h2 : m.rings = true) (h3 : m.mem = true) (h4 : m.grd = true) (h5 : m.tts = true) (h6 :
    m.srv = true) (h7 : m.fab = true) (h8 : m.syn = true) (h9 : m.hlt = true) (h10 : m.tiles = true) (h11 : m.cde = true) (h12 :
    m.pwr = true) (h13 : m.out = true) (h14 : m.fresh = true) (h : Keeps m a s) :
    Keeps m a (entryLaunch a0 a1 a2 a3 s) := by
  unfold entryLaunch
  repeat' first
      | with_reducible first
          | assumption | apply ctlRead_keeps | apply fenceUnit_keeps | apply updInst_keeps | apply startUnit_keeps
          | apply entryOverlap_keeps | apply updTts_keeps | apply keeps_foldl
      | intro _
      | split
      | (dsimp only)

theorem execEntryLaunch_keeps {m : Part} {a : State} (a0 : Nat) (a1 : Nat) (a2 : Nat) (a3 : List (CtlMem × Nat)) (s : State)
    (h0 : m.ops = true) (h1 : m.evr = true) (h2 : m.rings = true) (h3 : m.mem = true) (h4 : m.grd = true) (h5 : m.tts = true)
    (h6 : m.srv = true) (h7 : m.fab = true) (h8 : m.syn = true) (h9 : m.hlt = true) (h10 : m.tiles = true) (h11 : m.cde = true)
    (h12 : m.pwr = true) (h13 : m.out = true) (h14 : m.fresh = true) (h : Keeps m a s) :
    KeepsO m a (execEntryLaunch a0 a1 a2 a3 s) := by
  unfold execEntryLaunch
  repeat' with_reducible first | assumption | apply entryLaunch_keeps | apply run_keeps

theorem tableLoadDone_keeps {m : Part} {a : State} (a0 : Nat) (s : State) (h0 : m.ops = true) (h1 : m.evr = true) (h2 : m.rings
    = true) (h3 : m.mem = true) (h4 : m.grd = true) (h5 : m.tts = true) (h6 : m.srv = true) (h7 : m.fab = true) (h8 : m.syn =
    true) (h9 : m.hlt = true) (h10 : m.tiles = true) (h11 : m.out = true) (h12 : m.fresh = true) (h : Keeps m a s) :
    Keeps m a (tableLoadDone a0 s) := by
  unfold tableLoadDone
  repeat' first
      | with_reducible first
          | assumption | apply writePrograms_keeps | apply updTable_keeps | apply finishOp_keeps | apply writeBufs_keeps
          | apply setShare_keeps | apply tablesChanged_keeps | apply tableTo_keeps | apply updTts_keeps | apply keeps_foldl
      | intro _
      | split
      | (dsimp only)

theorem execTableLoadDone_keeps {m : Part} {a : State} (a0 : Nat) (s : State) (h0 : m.ops = true) (h1 : m.evr = true) (h2 :
    m.rings = true) (h3 : m.mem = true) (h4 : m.grd = true) (h5 : m.tts = true) (h6 : m.srv = true) (h7 : m.fab = true) (h8 :
    m.syn = true) (h9 : m.hlt = true) (h10 : m.tiles = true) (h11 : m.out = true) (h12 : m.fresh = true) (h : Keeps m a s) :
    KeepsO m a (execTableLoadDone a0 s) := by
  unfold execTableLoadDone
  repeat' with_reducible first | assumption | apply tableLoadDone_keeps | apply run_keeps

theorem execTableStop_keeps {m : Part} {a : State} (a0 : Nat) (s : State) (h0 : m.mbx = true) (h1 : m.evr = true) (h2 : m.tts =
    true) (h3 : m.out = true) (h : Keeps m a s) :
    KeepsO m a (execTableStop a0 s) := by
  unfold execTableStop
  repeat' first
      | with_reducible first | assumption | apply tableStopBody_keeps | apply runCommand_keeps | apply run_keeps
      | intro _

theorem tableStatusBody_keeps {m : Part} {a : State} (a0 : Req) (s : State) (h : Keeps m a s) :
    Keeps m a (tableStatusBody a0 s).1 := by
  unfold tableStatusBody
  repeat' first
      | with_reducible first | assumption | apply failed_keeps
      | split

theorem execTableStatus_keeps {m : Part} {a : State} (a0 : Nat) (s : State) (h0 : m.mbx = true) (h1 : m.evr = true) (h2 : m.out
    = true) (h : Keeps m a s) :
    KeepsO m a (execTableStatus a0 s) := by
  unfold execTableStatus
  repeat' with_reducible first | assumption | apply runCommand_keeps | apply tableStatusBody_keeps | apply run_keeps

theorem lendConfigBody_keeps {m : Part} {a : State} (a0 : Req) (s : State) (h0 : m.ops = true) (h1 : m.evr = true) (h2 : m.rings
    = true) (h3 : m.mem = true) (h4 : m.grd = true) (h5 : m.tts = true) (h6 : m.srv = true) (h7 : m.fab = true) (h8 : m.syn =
    true) (h9 : m.hlt = true) (h10 : m.tiles = true) (h11 : m.out = true) (h12 : m.fresh = true) (h : Keeps m a s) :
    Keeps m a (lendConfigBody a0 s).1 := by
  unfold lendConfigBody
  repeat' first
      | with_reducible first | assumption | apply failed_keeps | apply tablesChanged_keeps | apply updTts_keeps
      | split
      | (dsimp only)

theorem execLendConfig_keeps {m : Part} {a : State} (a0 : Nat) (s : State) (h0 : m.mbx = true) (h1 : m.ops = true) (h2 : m.evr =
    true) (h3 : m.rings = true) (h4 : m.mem = true) (h5 : m.grd = true) (h6 : m.tts = true) (h7 : m.srv = true) (h8 : m.fab =
    true) (h9 : m.syn = true) (h10 : m.hlt = true) (h11 : m.tiles = true) (h12 : m.out = true) (h13 : m.fresh = true) (h :
    Keeps m a s) :
    KeepsO m a (execLendConfig a0 s) := by
  unfold execLendConfig
  repeat' first
      | with_reducible first | assumption | apply runCommand_keeps | apply lendConfigBody_keeps | apply run_keeps
      | intro _

theorem execStageEnd_keeps {m : Part} {a : State} (a0 : Nat) (a1 : Nat) (a2 : Nat) (s : State) (h0 : m.rings = true) (h1 : m.mem
    = true) (h2 : m.grd = true) (h3 : m.tts = true) (h4 : m.tiles = true) (h5 : m.cells = true) (h6 : m.out = true) (h :
    Keeps m a s) :
    KeepsO m a (execStageEnd a0 a1 a2 s) := by
  unfold execStageEnd
  repeat' with_reducible first | assumption | apply stageEnd_keeps | apply run_keeps

theorem reportEmpty_keeps {m : Part} {a : State} (a0 : Nat) (a1 : Nat) (s : State) (h0 : m.rings = true) (h1 : m.mem = true)
    (h2 : m.grd = true) (h3 : m.tts = true) (h4 : m.cde = true) (h5 : m.out = true) (h : Keeps m a s) :
    Keeps m a (reportEmpty a0 a1 s) := by
  unfold reportEmpty
  repeat' first
      | with_reducible first | assumption | apply slotReport_keeps | apply keeps_foldl
      | intro _

theorem sealLine_keeps {m : Part} {a : State} (a0 : Nat) (a1 : Nat) (s : State) (h0 : m.ops = true) (h1 : m.evr = true) (h2 :
    m.rings = true) (h3 : m.mem = true) (h4 : m.grd = true) (h5 : m.tts = true) (h6 : m.fh = true) (h7 : m.srv = true) (h8 :
    m.fab = true) (h9 : m.syn = true) (h10 : m.parts = true) (h11 : m.hlt = true) (h12 : m.tiles = true) (h13 : m.cde = true)
    (h14 : m.cells = true) (h15 : m.sweep = true) (h16 : m.out = true) (h17 : m.fresh = true) (h : Keeps m a s) :
    Keeps m a (sealLine a0 a1 s) := by
  unfold sealLine
  repeat' first
      | with_reducible first
          | assumption | apply resetStep2_keeps | apply unfilledCells_keeps | apply reportEmpty_keeps | apply tableEnd_keeps
          | apply fillIdle_keeps
      | split
      | (dsimp only)

theorem execSealLine_keeps {m : Part} {a : State} (a0 : Nat) (a1 : Nat) (s : State) (h0 : m.ops = true) (h1 : m.evr = true)
    (h2 : m.rings = true) (h3 : m.mem = true) (h4 : m.grd = true) (h5 : m.tts = true) (h6 : m.fh = true) (h7 : m.srv = true)
    (h8 : m.fab = true) (h9 : m.syn = true) (h10 : m.parts = true) (h11 : m.hlt = true) (h12 : m.tiles = true) (h13 : m.cde =
    true) (h14 : m.cells = true) (h15 : m.sweep = true) (h16 : m.out = true) (h17 : m.fresh = true) (h : Keeps m a s) :
    KeepsO m a (execSealLine a0 a1 s) := by
  unfold execSealLine
  repeat' with_reducible first | assumption | apply run_keeps | apply sealLine_keeps

theorem execMicroStepEnd_keeps {m : Part} {a : State} (a0 : Nat) (a1 : Nat) (s : State) (h0 : m.ops = true) (h1 : m.evr = true)
    (h2 : m.rings = true) (h3 : m.mem = true) (h4 : m.grd = true) (h5 : m.tts = true) (h6 : m.srv = true) (h7 : m.fab = true)
    (h8 : m.syn = true) (h9 : m.hlt = true) (h10 : m.tiles = true) (h11 : m.pwr = true) (h12 : m.out = true) (h13 : m.fresh =
    true) (h : Keeps m a s) :
    KeepsO m a (execMicroStepEnd a0 a1 s) := by
  unfold execMicroStepEnd
  repeat' with_reducible first | assumption | apply run_keeps | apply microEnd_keeps

/-! Machine/Noon.lean -/

theorem setNoon_keeps {m : Part} {a : State} (a0 : Nat) (a1 : Noon) (s : State) (h0 : m.noon = true) (h : Keeps m a s) :
    Keeps m a (setNoon a0 a1 s) := by
  unfold setNoon
  repeat' with_reducible first | assumption | apply State.setNoon_keeps

theorem lapse_keeps {m : Part} {a : State} (a0 : Nat) (s : State) (h0 : m.tts = true) (h : Keeps m a s) :
    Keeps m a (lapse a0 s) := by
  unfold lapse
  repeat' first
      | with_reducible first
          | assumption | apply updTable_keeps | apply keeps_foldl | apply keeps_ite | apply keeps_ite_fst
          | apply keeps_ite_snd | exact fun _ h => h | exact fun h => h
      | intro _
      | split
      | (dsimp only)
      | (rename (_ = (_, (_ : State))) => hp; have e := congrArg Prod.snd hp; clear hp; dsimp only at e; subst e)
      | (rename (_ = ((_ : State), _)) => hp; have e := congrArg Prod.fst hp; clear hp; dsimp only at e; subst e)

theorem disarmTable_keeps {m : Part} {a : State} (a0 : Nat) (a1 : Nat) (s : State) (h0 : m.evr = true) (h1 : m.tts = true) (h2 :
    m.out = true) (h : Keeps m a s) :
    Keeps m a (disarmTable a0 a1 s) := by
  unfold disarmTable
  repeat' first
      | with_reducible first | assumption | apply tableTo_keeps | apply lapse_keeps
      | split

theorem dropArmings_keeps {m : Part} {a : State} (a0 : Nat) (a1 : Status) (s : State) (h0 : m.evr = true) (h1 : m.noon = true)
    (h2 : m.tts = true) (h3 : m.out = true) (h : Keeps m a s) :
    Keeps m a (dropArmings a0 a1 s) := by
  unfold dropArmings
  repeat' first
      | with_reducible first
          | assumption | apply setNoon_keeps | apply post_keeps | apply disarmTable_keeps | apply keeps_foldl
      | intro _
      | split

theorem lateNoon_keeps {m : Part} {a : State} (a0 : Nat) (a1 : Nat) (s : State) (h0 : m.rings = true) (h1 : m.mem = true) (h2 :
    m.srv = true) (h3 : m.out = true) (h : Keeps m a s) :
    Keeps m a (lateNoon a0 a1 s) := by
  unfold lateNoon
  repeat' first
      | with_reducible first
          | assumption | apply updCtx_keeps | apply doneUnstarted_keeps | apply stampHead_keeps | apply keeps_foldl
      | intro _
      | split
      | (dsimp only)

theorem stepLaunch_keeps {m : Part} {a : State} (a0 : Nat) (a1 : Nat) (a2 : Nat) (s : State) (h0 : m.ops = true) (h1 : m.evr =
    true) (h2 : m.rings = true) (h3 : m.mem = true) (h4 : m.grd = true) (h5 : m.tts = true) (h6 : m.srv = true) (h7 : m.fab =
    true) (h8 : m.syn = true) (h9 : m.hlt = true) (h10 : m.tiles = true) (h11 : m.out = true) (h12 : m.fresh = true) (h :
    Keeps m a s) :
    Keeps m a (stepLaunch a0 a1 a2 s).1 := by
  unfold stepLaunch
  repeat' first
      | with_reducible first | assumption | apply updCtx_keeps | apply batchStepStart_keeps | apply lateNoon_keeps
      | split
      | (dsimp only)

theorem tableStart_keeps {m : Part} {a : State} (a0 : Nat) (a1 : Nat) (s : State) (h0 : m.evr = true) (h1 : m.tts = true) (h2 :
    m.out = true) (h3 : m.fresh = true) (h : Keeps m a s) :
    Keeps m a (tableStart a0 a1 s).1 := by
  unfold tableStart
  repeat' first
      | with_reducible first
          | assumption | apply drawStatus_keeps | apply updTable_keeps | apply tableTo_keeps | apply lapse_keeps
          | apply keeps_ite_fst
      | intro _
      | split

theorem armTable_keeps {m : Part} {a : State} (a0 : Nat) (a1 : Nat) (s : State) (h0 : m.evr = true) (h1 : m.tts = true) (h2 :
    m.out = true) (h : Keeps m a s) :
    Keeps m a (armTable a0 a1 s) := by
  unfold armTable
  repeat' first
      | with_reducible first | assumption | apply updTable_keeps | apply tableTo_keeps
      | split

theorem beginMove_keeps {m : Part} {a : State} (a0 : Nat) (a1 : Nat) (a2 : Nat) (s : State) (h0 : m.evr = true) (h1 : m.rings =
    true) (h2 : m.mem = true) (h3 : m.cells = true) (h4 : m.sweep = true) (h5 : m.out = true) (h : Keeps m a s) :
    Keeps m a (beginMove a0 a1 a2 s) := by
  unfold beginMove
  repeat'
      with_reducible first
        | assumption | apply emit_keeps | apply cellTo_keeps | apply sweepMove_keeps | apply updCell_keeps

theorem twinMove_keeps {m : Part} {a : State} (a0 : Nat) (a1 : Nat) (a2 : Nat) (a3 : Nat) (s : State) (h0 : m.evr = true) (h1 :
    m.rings = true) (h2 : m.mem = true) (h3 : m.cells = true) (h4 : m.sweep = true) (h5 : m.out = true) (h : Keeps m a s) :
    Keeps m a (twinMove a0 a1 a2 a3 s).1 := by
  unfold twinMove
  repeat' first
      | with_reducible first | assumption | apply beginMove_keeps | apply stopCell_keeps | apply updCell_keeps
      | split
      | (dsimp only)

theorem noonFired_keeps {m : Part} {a : State} (a0 : Nat) (s : State) (h0 : m.ops = true) (h1 : m.evr = true) (h2 : m.rings =
    true) (h3 : m.mem = true) (h4 : m.noon = true) (h5 : m.grd = true) (h6 : m.tts = true) (h7 : m.srv = true) (h8 : m.fab =
    true) (h9 : m.syn = true) (h10 : m.hlt = true) (h11 : m.tiles = true) (h12 : m.cells = true) (h13 : m.sweep = true) (h14 :
    m.out = true) (h15 : m.fresh = true) (h : Keeps m a s) :
    Keeps m a (noonFired a0 s) := by
  unfold noonFired
  repeat' first
      | with_reducible first
          | assumption | apply setNoon_keeps | apply stepLaunch_keeps | apply tableStart_keeps | apply twinMove_keeps
          | apply post_keeps
      | split
      | (dsimp only)

theorem execNoonFired_keeps {m : Part} {a : State} (a0 : Nat) (s : State) (h0 : m.ops = true) (h1 : m.evr = true) (h2 : m.rings
    = true) (h3 : m.mem = true) (h4 : m.noon = true) (h5 : m.grd = true) (h6 : m.tts = true) (h7 : m.srv = true) (h8 : m.fab =
    true) (h9 : m.syn = true) (h10 : m.hlt = true) (h11 : m.tiles = true) (h12 : m.cells = true) (h13 : m.sweep = true) (h14 :
    m.out = true) (h15 : m.fresh = true) (h : Keeps m a s) :
    KeepsO m a (execNoonFired a0 s) := by
  unfold execNoonFired
  repeat' with_reducible first | assumption | apply run_keeps | apply noonFired_keeps

theorem noonDisarmBody_keeps {m : Part} {a : State} (a0 : Req) (s : State) (h0 : m.evr = true) (h1 : m.noon = true) (h2 : m.tts
    = true) (h3 : m.out = true) (h : Keeps m a s) :
    Keeps m a (noonDisarmBody a0 s).1 := by
  unfold noonDisarmBody
  repeat' first
      | with_reducible first | assumption | apply failed_keeps | apply setNoon_keeps | apply disarmTable_keeps
      | split
      | (dsimp only)

theorem execNoonDisarm_keeps {m : Part} {a : State} (a0 : Nat) (s : State) (h0 : m.mbx = true) (h1 : m.evr = true) (h2 : m.noon
    = true) (h3 : m.tts = true) (h4 : m.out = true) (h : Keeps m a s) :
    KeepsO m a (execNoonDisarm a0 s) := by
  unfold execNoonDisarm
  repeat' first
      | with_reducible first | assumption | apply runCommand_keeps | apply run_keeps | apply noonDisarmBody_keeps
      | intro _

theorem noonArmBody_keeps {m : Part} {a : State} (a0 : Req) (s : State) (h0 : m.evr = true) (h1 : m.noon = true) (h2 : m.tts =
    true) (h3 : m.out = true) (h4 : m.fresh = true) (h : Keeps m a s) :
    Keeps m a (noonArmBody a0 s).1 := by
  unfold noonArmBody
  repeat' first
      | with_reducible first
          | assumption | apply failed_keeps | apply pickFree_keeps | apply setNoon_keeps | apply armTable_keeps
          | apply State.setNoon_keeps
      | split
      | (dsimp only)
      | (rename (_ = (_, (_ : State))) => hp; have e := congrArg Prod.snd hp; clear hp; dsimp only at e; subst e)

theorem execNoonArm_keeps {m : Part} {a : State} (a0 : Nat) (s : State) (h0 : m.mbx = true) (h1 : m.evr = true) (h2 : m.noon =
    true) (h3 : m.tts = true) (h4 : m.out = true) (h5 : m.fresh = true) (h : Keeps m a s) :
    KeepsO m a (execNoonArm a0 s) := by
  unfold execNoonArm
  repeat' first
      | with_reducible first | assumption | apply noonArmBody_keeps | apply runCommand_keeps | apply run_keeps
      | intro _

/-! Machine/Sync.lean -/

theorem syncCreateBody_keeps {m : Part} {a : State} (a0 : Req) (s : State) (h0 : m.syn = true) (h : Keeps m a s) :
    Keeps m a (syncCreateBody a0 s).1 := by
  unfold syncCreateBody
  repeat' first
      | with_reducible first | assumption | apply failed_keeps | apply updSyn_keeps
      | split
      | (dsimp only)

theorem execSyncCreate_keeps {m : Part} {a : State} (a0 : Nat) (s : State) (h0 : m.mbx = true) (h1 : m.evr = true) (h2 : m.syn =
    true) (h3 : m.out = true) (h : Keeps m a s) :
    KeepsO m a (execSyncCreate a0 s) := by
  unfold execSyncCreate
  repeat' first
      | with_reducible first | assumption | apply runCommand_keeps | apply syncCreateBody_keeps | apply run_keeps
      | intro _

theorem releaseObject_keeps {m : Part} {a : State} (a0 : Nat) (s : State) (h0 : m.srv = true) (h1 : m.syn = true) (h : Keeps m a
    s) :
    Keeps m a (releaseObject a0 s) := by
  unfold releaseObject
  repeat' first
      | with_reducible first
          | assumption | apply updObj_keeps | apply updSrv_keeps | apply failStep_keeps | apply keeps_foldl
          | exact tabWf_map _ _ (fun _ => rfl) ‹_›
      | intro _

theorem syncDestroyBody_keeps {m : Part} {a : State} (a0 : Req) (s : State) (h0 : m.ops = true) (h1 : m.evr = true) (h2 :
    m.rings = true) (h3 : m.mem = true) (h4 : m.grd = true) (h5 : m.tts = true) (h6 : m.srv = true) (h7 : m.fab = true) (h8 :
    m.syn = true) (h9 : m.hlt = true) (h10 : m.tiles = true) (h11 : m.out = true) (h12 : m.fresh = true) (h : Keeps m a s) :
    Keeps m a (syncDestroyBody a0 s).1 := by
  unfold syncDestroyBody
  repeat' first
      | with_reducible first
          | assumption | apply failed_keeps | apply releaseObject_keeps | apply settleSync_keeps | apply updSyn_keeps
      | split
      | (dsimp only)

theorem execSyncDestroy_keeps {m : Part} {a : State} (a0 : Nat) (s : State) (h0 : m.mbx = true) (h1 : m.ops = true) (h2 : m.evr
    = true) (h3 : m.rings = true) (h4 : m.mem = true) (h5 : m.grd = true) (h6 : m.tts = true) (h7 : m.srv = true) (h8 : m.fab =
    true) (h9 : m.syn = true) (h10 : m.hlt = true) (h11 : m.tiles = true) (h12 : m.out = true) (h13 : m.fresh = true) (h :
    Keeps m a s) :
    KeepsO m a (execSyncDestroy a0 s) := by
  unfold execSyncDestroy
  repeat' first
      | with_reducible first | assumption | apply runCommand_keeps | apply syncDestroyBody_keeps | apply run_keeps
      | intro _

theorem detModeBody_keeps {m : Part} {a : State} (a0 : Req) (s : State) (h0 : m.parts = true) (h : Keeps m a s) :
    Keeps m a (detModeBody a0 s).1 := by
  unfold detModeBody
  repeat' first
      | with_reducible first | assumption | apply failed_keeps | apply updPart_keeps
      | split

theorem execDetMode_keeps {m : Part} {a : State} (a0 : Nat) (s : State) (h0 : m.mbx = true) (h1 : m.evr = true) (h2 : m.parts =
    true) (h3 : m.out = true) (h : Keeps m a s) :
    KeepsO m a (execDetMode a0 s) := by
  unfold execDetMode
  repeat' first
      | with_reducible first | assumption | apply runCommand_keeps | apply detModeBody_keeps | apply run_keeps
      | intro _

theorem detQueryBody_keeps {m : Part} {a : State} (a0 : Req) (s : State) (h0 : m.srv = true) (h : Keeps m a s) :
    Keeps m a (detQueryBody a0 s).1 := by
  unfold detQueryBody
  repeat' first
      | with_reducible first | assumption | apply failed_keeps | apply updCtx_keeps
      | split
      | (dsimp only)

theorem execDetQuery_keeps {m : Part} {a : State} (a0 : Nat) (s : State) (h0 : m.mbx = true) (h1 : m.evr = true) (h2 : m.srv =
    true) (h3 : m.out = true) (h : Keeps m a s) :
    KeepsO m a (execDetQuery a0 s) := by
  unfold execDetQuery
  repeat' first
      | with_reducible first | assumption | apply runCommand_keeps | apply detQueryBody_keeps | apply run_keeps
      | intro _

theorem syncDescriptor_keeps {m : Part} {a : State} (a0 : Nat) (a1 : Nat) (a2 : SyncDesc) (s : State) (h0 : m.grd = true) (h1 :
    m.srv = true) (h2 : m.hlt = true) (h : Keeps m a s) :
    Keeps m a (syncDescriptor a0 a1 a2 s) := by
  unfold syncDescriptor
  repeat' first
      | with_reducible first | assumption | apply issued_keeps | apply updMicro_keeps
      | split
      | (dsimp only)

theorem execSyncDescriptor_keeps {m : Part} {a : State} (a0 : Nat) (a1 : Nat) (a2 : SyncDesc) (s : State) (h0 : m.grd = true)
    (h1 : m.srv = true) (h2 : m.hlt = true) (h : Keeps m a s) :
    KeepsO m a (execSyncDescriptor a0 a1 a2 s) := by
  unfold execSyncDescriptor
  repeat' with_reducible first | assumption | apply syncDescriptor_keeps | apply run_keeps

theorem syncListApply_keeps {m : Part} {a : State} (a0 : Nat) (a1 : Nat) (s : State) (h0 : m.ops = true) (h1 : m.evr = true)
    (h2 : m.rings = true) (h3 : m.mem = true) (h4 : m.grd = true) (h5 : m.tts = true) (h6 : m.srv = true) (h7 : m.fab = true)
    (h8 : m.syn = true) (h9 : m.hlt = true) (h10 : m.tiles = true) (h11 : m.out = true) (h12 : m.fresh = true) (h : Keeps m a
    s) :
    Keeps m a (syncListApply a0 a1 s) := by
  unfold syncListApply
  repeat' first
      | with_reducible first
          | assumption | apply updCtx_keeps | apply applyList_keeps | apply updMicro_keeps | apply settleSync_keeps
          | apply failStep_keeps | apply sendBarriers_keeps | apply updSyn_keeps
      | split

theorem execSyncListApply_keeps {m : Part} {a : State} (a0 : Nat) (a1 : Nat) (s : State) (h0 : m.ops = true) (h1 : m.evr = true)
    (h2 : m.rings = true) (h3 : m.mem = true) (h4 : m.grd = true) (h5 : m.tts = true) (h6 : m.srv = true) (h7 : m.fab = true)
    (h8 : m.syn = true) (h9 : m.hlt = true) (h10 : m.tiles = true) (h11 : m.out = true) (h12 : m.fresh = true) (h : Keeps m a
    s) :
    KeepsO m a (execSyncListApply a0 a1 s) := by
  unfold execSyncListApply
  repeat' with_reducible first | assumption | apply syncListApply_keeps | apply run_keeps

theorem syncQueryBody_keeps {m : Part} {a : State} (a0 : Req) (s : State) (h : Keeps m a s) :
    Keeps m a (syncQueryBody a0 s).1 := by
  unfold syncQueryBody
  repeat' first
      | with_reducible first | assumption | apply failed_keeps
      | split
      | (dsimp only)

theorem syncResetBody_keeps {m : Part} {a : State} (a0 : Req) (s : State) (h0 : m.syn = true) (h : Keeps m a s) :
    Keeps m a (syncResetBody a0 s).1 := by
  unfold syncResetBody
  repeat' first
      | with_reducible first | assumption | apply failed_keeps | apply updObj_keeps
      | split
      | (dsimp only)

theorem execSyncReset_keeps {m : Part} {a : State} (a0 : Nat) (s : State) (h0 : m.mbx = true) (h1 : m.evr = true) (h2 : m.syn =
    true) (h3 : m.out = true) (h : Keeps m a s) :
    KeepsO m a (execSyncReset a0 s) := by
  unfold execSyncReset
  repeat' first
      | with_reducible first | assumption | apply runCommand_keeps | apply syncResetBody_keeps | apply run_keeps
      | intro _

theorem syncOpBody_keeps {m : Part} {a : State} (a0 : Req) (s : State) (h0 : m.ops = true) (h1 : m.evr = true) (h2 : m.rings =
    true) (h3 : m.mem = true) (h4 : m.grd = true) (h5 : m.tts = true) (h6 : m.srv = true) (h7 : m.fab = true) (h8 : m.syn =
    true) (h9 : m.hlt = true) (h10 : m.tiles = true) (h11 : m.out = true) (h12 : m.fresh = true) (h : Keeps m a s) :
    Keeps m a (syncOpBody a0 s).1 := by
  unfold syncOpBody
  repeat' first
      | with_reducible first
          | assumption | apply failed_keeps | apply applyNow_keeps | apply settleSync_keeps | apply keeps_ite_fst
      | intro _

theorem execSyncOp_keeps {m : Part} {a : State} (a0 : Nat) (s : State) (h0 : m.mbx = true) (h1 : m.ops = true) (h2 : m.evr =
    true) (h3 : m.rings = true) (h4 : m.mem = true) (h5 : m.grd = true) (h6 : m.tts = true) (h7 : m.srv = true) (h8 : m.fab =
    true) (h9 : m.syn = true) (h10 : m.hlt = true) (h11 : m.tiles = true) (h12 : m.out = true) (h13 : m.fresh = true) (h :
    Keeps m a s) :
    KeepsO m a (execSyncOp a0 s) := by
  unfold execSyncOp
  repeat' first
      | with_reducible first | assumption | apply syncOpBody_keeps | apply runCommand_keeps | apply run_keeps
      | intro _

theorem execSyncQuery_keeps {m : Part} {a : State} (a0 : Nat) (s : State) (h0 : m.mbx = true) (h1 : m.evr = true) (h2 : m.out =
    true) (h : Keeps m a s) :
    KeepsO m a (execSyncQuery a0 s) := by
  unfold execSyncQuery
  repeat' with_reducible first | assumption | apply runCommand_keeps | apply syncQueryBody_keeps | apply run_keeps

theorem syncDumpBody_keeps {m : Part} {a : State} (a0 : Req) (s : State) (h0 : m.mem = true) (h1 : m.fresh = true) (h :
    Keeps m a s) :
    Keeps m a (syncDumpBody a0 s).1 := by
  unfold syncDumpBody
  repeat' first
      | with_reducible first
          | assumption | apply failed_keeps | apply hdmWrite_keeps | apply drawFree_keeps | apply keeps_ite_fst
      | intro _

theorem execSyncDump_keeps {m : Part} {a : State} (a0 : Nat) (s : State) (h0 : m.mbx = true) (h1 : m.evr = true) (h2 : m.mem =
    true) (h3 : m.out = true) (h4 : m.fresh = true) (h : Keeps m a s) :
    KeepsO m a (execSyncDump a0 s) := by
  unfold execSyncDump
  repeat' first
      | with_reducible first | assumption | apply runCommand_keeps | apply syncDumpBody_keeps | apply run_keeps
      | intro _

/-! Machine/HostAttach.lean -/

theorem doorbellWrite_keeps {m : Part} {a : State} (a0 : Doorbell) (a1 : Nat) (s : State) (h0 : m.evr = true) (h1 : m.rings =
    true) (h2 : m.tel = true) (h3 : m.mem = true) (h4 : m.hlt = true) (h5 : m.out = true) (h : Keeps m a s) :
    Keeps m a (doorbellWrite a0 a1 s) := by
  unfold doorbellWrite
  repeat' first
      | with_reducible first | assumption | apply doorbell_keeps | apply strayDoorbell_keeps
      | split
      | (dsimp only)

theorem goCopy_keeps {m : Part} {a : State} (a0 : Nat) (a1 : Bool) (s : State) (h0 : m.mbx = true) (h1 : m.evr = true) (h2 :
    m.out = true) (h : Keeps m a s) :
    Keeps m a (goCopy a0 a1 s) := by
  unfold goCopy
  repeat' first
      | with_reducible first | assumption | apply setMbx_keeps | apply complete_keeps
      | split
      | (dsimp only)

theorem abortCmd_keeps {m : Part} {a : State} (a0 : Nat) (s : State) (h0 : m.mbx = true) (h1 : m.evr = true) (h2 : m.out = true)
    (h : Keeps m a s) :
    Keeps m a (abortCmd a0 s) := by
  unfold abortCmd
  repeat' first
      | with_reducible first | assumption | apply complete_keeps
      | split

theorem ctrlWrite_keeps {m : Part} {a : State} (a0 : Nat) (a1 : Bool) (a2 : Bool) (a3 : Bool) (a4 : Bool) (a5 : Nat) (s : State)
    (h0 : m.mbx = true) (h1 : m.evr = true) (h2 : m.out = true) (h : Keeps m a s) :
    Keeps m a (ctrlWrite a0 a1 a2 a3 a4 a5 s) := by
  unfold ctrlWrite
  repeat' first
      | with_reducible first | assumption | apply setMbx_keeps | apply goCopy_keeps | apply abortCmd_keeps
      | split
      | (dsimp only)

theorem mailboxPageWrite_keeps {m : Part} {a : State} (a0 : Nat) (a1 : Nat) (a2 : Nat) (a3 : Nat) (s : State) (h0 : m.mbx =
    true) (h1 : m.evr = true) (h2 : m.out = true) (h : Keeps m a s) :
    Keeps m a (mailboxPageWrite a0 a1 a2 a3 s) := by
  unfold mailboxPageWrite
  repeat' first
      | with_reducible first | assumption | apply setMbx_keeps | apply ctrlWrite_keeps
      | split

theorem eventCons_keeps {m : Part} {a : State} (a0 : Nat) (a1 : Nat) (s : State) (h0 : m.ops = true) (h1 : m.evr = true) (h :
    Keeps m a s) :
    Keeps m a (eventCons a0 a1 s) := by
  unfold eventCons
  repeat' first
      | with_reducible first | assumption | apply setEvRing_keeps | apply State.setOps_keeps
      | split
      | (dsimp only)

theorem eventCtlWrite_keeps {m : Part} {a : State} (a0 : Nat) (a1 : Nat) (a2 : Nat) (a3 : Nat) (s : State) (h0 : m.ops = true)
    (h1 : m.evr = true) (h : Keeps m a s) :
    Keeps m a (eventCtlWrite a0 a1 a2 a3 s) := by
  unfold eventCtlWrite
  repeat' first
      | with_reducible first | assumption | apply eventCons_keeps | apply setEvRing_keeps
      | split

theorem vfFaultWrite_keeps {m : Part} {a : State} (a0 : Nat) (a1 : Nat) (a2 : Nat) (a3 : Nat) (s : State) (h0 : m.hlt = true)
    (h : Keeps m a s) :
    Keeps m a (vfFaultWrite a0 a1 a2 a3 s) := by
  unfold vfFaultWrite
  repeat' first
      | with_reducible first | assumption | apply State.setHlt_keeps
      | split

theorem faultCtlWrite_keeps {m : Part} {a : State} (a0 : Nat) (a1 : Nat) (a2 : Nat) (s : State) (h0 : m.hlt = true) (h :
    Keeps m a s) :
    Keeps m a (faultCtlWrite a0 a1 a2 s) := by
  unfold faultCtlWrite
  repeat' first
      | with_reducible first | assumption | apply State.setHlt_keeps
      | split
      | (dsimp only)

theorem registerWrite_keeps {m : Part} {a : State} (a0 : RegWindow) (a1 : Nat) (a2 : Nat) (a3 : Nat) (s : State) (h0 : m.mbx =
    true) (h1 : m.ops = true) (h2 : m.evr = true) (h3 : m.rings = true) (h4 : m.tel = true) (h5 : m.mem = true) (h6 : m.hlt =
    true) (h7 : m.out = true) (h : Keeps m a s) :
    Keeps m a (registerWrite a0 a1 a2 a3 s) := by
  unfold registerWrite
  repeat' first
      | with_reducible first
          | assumption | apply doorbellWrite_keeps | apply mailboxPageWrite_keeps | apply eventCtlWrite_keeps
          | apply vfFaultWrite_keeps | apply faultCtlWrite_keeps
      | split

theorem telemetrySnapshot_keeps {m : Part} {a : State} (s : State) (h0 : m.mbx = true) (h1 : m.evr = true) (h2 : m.tel = true)
    (h3 : m.out = true) (h : Keeps m a s) :
    Keeps m a (telemetrySnapshot s) := by
  unfold telemetrySnapshot
  repeat' first
      | with_reducible first | assumption | apply respond_keeps | apply State.setTel_keeps | apply keeps_foldl
      | intro _
      | split

theorem execTelemetrySnapshot_keeps {m : Part} {a : State} (s : State) (h0 : m.mbx = true) (h1 : m.evr = true) (h2 : m.tel =
    true) (h3 : m.out = true) (h : Keeps m a s) :
    KeepsO m a (execTelemetrySnapshot s) := by
  unfold execTelemetrySnapshot
  repeat' with_reducible first | assumption | apply telemetrySnapshot_keeps | apply run_keeps

theorem ringDestroyBody_keeps {m : Part} {a : State} (a0 : Req) (s : State) (h0 : m.rings = true) (h : Keeps m a s) :
    Keeps m a (ringDestroyBody a0 s).1 := by
  unfold ringDestroyBody
  repeat' first
      | with_reducible first | assumption | apply failed_keeps | apply State.setRings_keeps
      | split

theorem execRingDestroy_keeps {m : Part} {a : State} (a0 : Nat) (s : State) (h0 : m.mbx = true) (h1 : m.evr = true) (h2 :
    m.rings = true) (h3 : m.out = true) (h : Keeps m a s) :
    KeepsO m a (execRingDestroy a0 s) := by
  unfold execRingDestroy
  repeat' first
      | with_reducible first | assumption | apply runCommand_keeps | apply run_keeps | apply ringDestroyBody_keeps
      | intro _

theorem ringCreateBody_keeps {m : Part} {a : State} (a0 : Req) (s : State) (h0 : m.rings = true) (h1 : m.fresh = true) (h :
    Keeps m a s) :
    Keeps m a (ringCreateBody a0 s).1 := by
  unfold ringCreateBody
  repeat' first
      | with_reducible first | assumption | apply failed_keeps | apply pickFree_keeps | apply State.setRings_keeps
      | split
      | (dsimp only)
      | (rename (_ = (_, (_ : State))) => hp; have e := congrArg Prod.snd hp; clear hp; dsimp only at e; subst e)

theorem linkTraining_keeps {m : Part} {a : State} (a0 : Nat) (a1 : Nat) (s : State) (h0 : m.dev = true) (h1 : m.evr = true)
    (h2 : m.out = true) (h : Keeps m a s) :
    Keeps m a (linkTraining a0 a1 s) := by
  unfold linkTraining
  repeat' first
      | with_reducible first | assumption | apply post_keeps | apply State.setDev_keeps
      | split
      | (dsimp only)

theorem queryOperationBody_keeps {m : Part} {a : State} (a0 : Req) (s : State) (h0 : m.ops = true) (h : Keeps m a s) :
    Keeps m a (queryOperationBody a0 s).1 := by
  unfold queryOperationBody
  repeat' first
      | with_reducible first | assumption | apply failed_keeps | apply State.setOps_keeps
      | split
      | (dsimp only)

theorem faultLogCons_keeps {m : Part} {a : State} (a0 : Option Nat) (a1 : Nat) (s : State) (h0 : m.hlt = true) (h : Keeps m a
    s) :
    Keeps m a (faultLogCons a0 a1 s) := by
  unfold faultLogCons
  repeat' first
      | with_reducible first | assumption | apply State.setHlt_keeps
      | split

theorem execFaultLogConsWrite_keeps {m : Part} {a : State} (a0 : Option Nat) (a1 : Nat) (s : State) (h0 : m.hlt = true) (h :
    Keeps m a s) :
    KeepsO m a (execFaultLogConsWrite a0 a1 s) := by
  unfold execFaultLogConsWrite
  repeat' with_reducible first | assumption | apply faultLogCons_keeps | apply run_keeps

theorem telemetryClear_keeps {m : Part} {a : State} (a0 : Nat) (s : State) (h0 : m.mbx = true) (h1 : m.evr = true) (h2 : m.tel =
    true) (h3 : m.out = true) (h : Keeps m a s) :
    Keeps m a (telemetryClear a0 s) := by
  unfold telemetryClear
  repeat' first
      | with_reducible first | assumption | apply respond_keeps | apply State.setTel_keeps
      | split

theorem execTelemetryClear_keeps {m : Part} {a : State} (a0 : Nat) (s : State) (h0 : m.mbx = true) (h1 : m.evr = true) (h2 :
    m.tel = true) (h3 : m.out = true) (h : Keeps m a s) :
    KeepsO m a (execTelemetryClear a0 s) := by
  unfold execTelemetryClear
  repeat' with_reducible first | assumption | apply telemetryClear_keeps | apply run_keeps

theorem mbxTimeout_keeps {m : Part} {a : State} (a0 : Nat) (s : State) (h0 : m.mbx = true) (h1 : m.evr = true) (h2 : m.hlt =
    true) (h3 : m.out = true) (h : Keeps m a s) :
    Keeps m a (mbxTimeout a0 s) := by
  unfold mbxTimeout
  repeat' first
      | with_reducible first | assumption | apply fault_keeps | apply setMbx_keeps | apply complete_keeps
      | split
      | (dsimp only)

theorem execMbxTimeout_keeps {m : Part} {a : State} (a0 : Nat) (s : State) (h0 : m.mbx = true) (h1 : m.evr = true) (h2 : m.hlt =
    true) (h3 : m.out = true) (h : Keeps m a s) :
    KeepsO m a (execMbxTimeout a0 s) := by
  unfold execMbxTimeout
  repeat' with_reducible first | assumption | apply mbxTimeout_keeps | apply run_keeps

theorem execQueryOperation_keeps {m : Part} {a : State} (a0 : Nat) (s : State) (h0 : m.mbx = true) (h1 : m.ops = true) (h2 :
    m.evr = true) (h3 : m.out = true) (h : Keeps m a s) :
    KeepsO m a (execQueryOperation a0 s) := by
  unfold execQueryOperation
  repeat' first
      | with_reducible first | assumption | apply queryOperationBody_keeps | apply runCommand_keeps | apply run_keeps
      | intro _

theorem execMbxAbort_keeps {m : Part} {a : State} (a0 : Nat) (a1 : Bool) (a2 : Bool) (a3 : Nat) (s : State) (h0 : m.mbx = true)
    (h1 : m.evr = true) (h2 : m.out = true) (h : Keeps m a s) :
    KeepsO m a (execMbxAbort a0 a1 a2 a3 s) := by
  unfold execMbxAbort
  repeat' with_reducible first | assumption | apply run_keeps | apply ctrlWrite_keeps

theorem nopBody_keeps {m : Part} {a : State} (a0 : Req) (s : State) (h : Keeps m a s) :
    Keeps m a (nopBody a0 s).1 := by
  unfold nopBody
  repeat' with_reducible assumption

theorem commandTaken_keeps {m : Part} {a : State} (a0 : Nat) (a1 : List (CtlMem × Nat)) (s : State) (h0 : m.mbx = true) (h1 :
    m.evr = true) (h2 : m.hlt = true) (h3 : m.out = true) (h : Keeps m a s) :
    Keeps m a (commandTaken a0 a1 s) := by
  unfold commandTaken
  repeat' first
      | with_reducible first
          | assumption | apply ctlRead_keeps | apply setMbx_keeps | apply complete_keeps | apply keeps_foldl | apply keeps_ite
          | apply keeps_ite_fst | apply keeps_ite_snd | exact fun _ h => h | exact fun h => h
      | intro _
      | split
      | (dsimp only)
      | (rename (_ = (_, (_ : State))) => hp; have e := congrArg Prod.snd hp; clear hp; dsimp only at e; subst e)
      | (rename (_ = ((_ : State), _)) => hp; have e := congrArg Prod.fst hp; clear hp; dsimp only at e; subst e)

theorem execCommandTaken_keeps {m : Part} {a : State} (a0 : Nat) (a1 : List (CtlMem × Nat)) (s : State) (h0 : m.mbx = true)
    (h1 : m.evr = true) (h2 : m.hlt = true) (h3 : m.out = true) (h : Keeps m a s) :
    KeepsO m a (execCommandTaken a0 a1 s) := by
  unfold execCommandTaken
  repeat' with_reducible first | assumption | apply commandTaken_keeps | apply run_keeps

theorem execMbxAck_keeps {m : Part} {a : State} (a0 : Nat) (a1 : Bool) (a2 : Nat) (s : State) (h0 : m.mbx = true) (h1 : m.evr =
    true) (h2 : m.out = true) (h : Keeps m a s) :
    KeepsO m a (execMbxAck a0 a1 a2 s) := by
  unfold execMbxAck
  repeat' with_reducible first | assumption | apply run_keeps | apply ctrlWrite_keeps

theorem execEventRingConsWrite_keeps {m : Part} {a : State} (a0 : Nat) (a1 : Nat) (s : State) (h0 : m.ops = true) (h1 : m.evr =
    true) (h : Keeps m a s) :
    KeepsO m a (execEventRingConsWrite a0 a1 s) := by
  unfold execEventRingConsWrite
  repeat' with_reducible first | assumption | apply eventCons_keeps | apply run_keeps

theorem execNop_keeps {m : Part} {a : State} (a0 : Nat) (s : State) (h0 : m.mbx = true) (h1 : m.evr = true) (h2 : m.out = true)
    (h : Keeps m a s) :
    KeepsO m a (execNop a0 s) := by
  unfold execNop
  repeat' with_reducible first | assumption | apply nopBody_keeps | apply runCommand_keeps | apply run_keeps

theorem eventRingConfigBody_keeps {m : Part} {a : State} (a0 : Req) (s : State) (h0 : m.evr = true) (h : Keeps m a s) :
    Keeps m a (eventRingConfigBody a0 s).1 := by
  unfold eventRingConfigBody
  repeat' first
      | with_reducible first | assumption | apply failed_keeps | apply setEvRing_keeps
      | split
      | (dsimp only)

theorem execEventRingConfig_keeps {m : Part} {a : State} (a0 : Nat) (s : State) (h0 : m.mbx = true) (h1 : m.evr = true) (h2 :
    m.out = true) (h : Keeps m a s) :
    KeepsO m a (execEventRingConfig a0 s) := by
  unfold execEventRingConfig
  repeat' first
      | with_reducible first | assumption | apply runCommand_keeps | apply eventRingConfigBody_keeps | apply run_keeps
      | intro _

theorem execDoorbellWrite_keeps {m : Part} {a : State} (a0 : Doorbell) (a1 : Nat) (s : State) (h0 : m.evr = true) (h1 : m.rings
    = true) (h2 : m.tel = true) (h3 : m.mem = true) (h4 : m.hlt = true) (h5 : m.out = true) (h : Keeps m a s) :
    KeepsO m a (execDoorbellWrite a0 a1 s) := by
  unfold execDoorbellWrite
  repeat' with_reducible first | assumption | apply doorbellWrite_keeps | apply run_keeps

theorem execMbxGo_keeps {m : Part} {a : State} (a0 : Nat) (a1 : Bool) (a2 : Bool) (a3 : Bool) (a4 : Nat) (s : State) (h0 : m.mbx
    = true) (h1 : m.evr = true) (h2 : m.out = true) (h : Keeps m a s) :
    KeepsO m a (execMbxGo a0 a1 a2 a3 a4 s) := by
  unfold execMbxGo
  repeat' with_reducible first | assumption | apply run_keeps | apply ctrlWrite_keeps

theorem execLinkTraining_keeps {m : Part} {a : State} (a0 : Nat) (a1 : Nat) (s : State) (h0 : m.dev = true) (h1 : m.evr = true)
    (h2 : m.out = true) (h : Keeps m a s) :
    KeepsO m a (execLinkTraining a0 a1 s) := by
  unfold execLinkTraining
  repeat' with_reducible first | assumption | apply linkTraining_keeps | apply run_keeps

theorem execRegisterWrite_keeps {m : Part} {a : State} (a0 : RegWindow) (a1 : Nat) (a2 : Nat) (a3 : Nat) (s : State) (h0 : m.mbx
    = true) (h1 : m.ops = true) (h2 : m.evr = true) (h3 : m.rings = true) (h4 : m.tel = true) (h5 : m.mem = true) (h6 : m.hlt =
    true) (h7 : m.out = true) (h : Keeps m a s) :
    KeepsO m a (execRegisterWrite a0 a1 a2 a3 s) := by
  unfold execRegisterWrite
  repeat' with_reducible first | assumption | apply registerWrite_keeps | apply run_keeps

theorem execRingCreate_keeps {m : Part} {a : State} (a0 : Nat) (s : State) (h0 : m.mbx = true) (h1 : m.evr = true) (h2 : m.rings
    = true) (h3 : m.out = true) (h4 : m.fresh = true) (h : Keeps m a s) :
    KeepsO m a (execRingCreate a0 s) := by
  unfold execRingCreate
  repeat' first
      | with_reducible first | assumption | apply ringCreateBody_keeps | apply runCommand_keeps | apply run_keeps
      | intro _

end Sys2Proof.Machine
end

