-- ==== Sys2Proof/Laws/KeepsPartition.lean ====
section
/-!
SUPPORT. The pieces of state each operation of these files of Machine/ may change: Partition, Migration, Cancel, Health, Power,
    Dawn, Member, Mgmt, Sweep, TestPort, Tick.
-/

namespace Sys2Proof.Machine

/-! Machine/Partition.lean -/

theorem partTo_keeps {m : Part} {a : State} (a0 : Nat) (a1 : PartState) (a2 : Nat) (s : State) (h0 : m.evr = true) (h1 : m.parts
    = true) (h2 : m.out = true) (h : Keeps m a s) :
    Keeps m a (partTo a0 a1 a2 s) := by
  unfold partTo
  repeat' first
      | with_reducible first | assumption | apply updPart_keeps | apply post_keeps
      | split
      | (dsimp only)

theorem endPartOp_keeps {m : Part} {a : State} (a0 : Nat) (a1 : Nat) (a2 : Status) (s : State) (h0 : m.ops = true) (h1 : m.evr =
    true) (h2 : m.out = true) (h : Keeps m a s) :
    Keeps m a (endPartOp a0 a1 a2 s) := by
  unfold endPartOp
  repeat' with_reducible first | assumption | apply finishOpsOn_keeps

theorem beginReset_keeps {m : Part} {a : State} (a0 : Nat) (a1 : Bool) (a2 : Nat) (s : State) (h0 : m.ops = true) (h1 : m.evr =
    true) (h2 : m.rings = true) (h3 : m.mem = true) (h4 : m.noon = true) (h5 : m.grd = true) (h6 : m.tts = true) (h7 : m.fh =
    true) (h8 : m.srv = true) (h9 : m.fab = true) (h10 : m.syn = true) (h11 : m.parts = true) (h12 : m.hlt = true) (h13 :
    m.tiles = true) (h14 : m.cells = true) (h15 : m.sweep = true) (h16 : m.out = true) (h17 : m.fresh = true) (h : Keeps m a
    s) :
    Keeps m a (beginReset a0 a1 a2 s) := by
  unfold beginReset
  repeat' first
      | with_reducible first
          | assumption | apply partTo_keeps | apply resetStep2_keeps | apply stopTable_keeps | apply endPartOp_keeps
          | apply updPart_keeps | apply dropArmings_keeps
      | split

theorem partCreateBody_keeps {m : Part} {a : State} (a0 : Req) (s : State) (h0 : m.ops = true) (h1 : m.parts = true) (h2 :
    m.fresh = true) (h : Keeps m a s) :
    Keeps m a (partCreateBody a0 s).1 := by
  unfold partCreateBody
  repeat' first
      | with_reducible first | assumption | apply failed_keeps | apply longOp_keeps | apply updPart_keeps
      | intro _
      | split
      | (dsimp only)

theorem execPartCreate_keeps {m : Part} {a : State} (a0 : Nat) (s : State) (h0 : m.mbx = true) (h1 : m.ops = true) (h2 : m.evr =
    true) (h3 : m.parts = true) (h4 : m.out = true) (h5 : m.fresh = true) (h : Keeps m a s) :
    KeepsO m a (execPartCreate a0 s) := by
  unfold execPartCreate
  repeat' first
      | with_reducible first | assumption | apply runCommand_keeps | apply partCreateBody_keeps | apply run_keeps
      | intro _

theorem squashStep_keeps {m : Part} {a : State} (a0 : Nat) (s : State) (h0 : m.evr = true) (h1 : m.grd = true) (h2 : m.tts =
    true) (h3 : m.srv = true) (h4 : m.fab = true) (h5 : m.syn = true) (h6 : m.hlt = true) (h7 : m.tiles = true) (h8 : m.out =
    true) (h : Keeps m a s) :
    Keeps m a (squashStep a0 s) := by
  unfold squashStep
  repeat' first
      | with_reducible first
          | assumption | apply squashAll_keeps | apply detachTags_keeps | apply leaveLists_keeps | apply updCtx_keeps
          | apply boundary_keeps | apply freeContention_keeps
      | split

theorem latchFreeze_keeps {m : Part} {a : State} (a0 : Nat) (a1 : Bool) (s : State) (h0 : m.ops = true) (h1 : m.evr = true)
    (h2 : m.rings = true) (h3 : m.mem = true) (h4 : m.grd = true) (h5 : m.tts = true) (h6 : m.srv = true) (h7 : m.fab = true)
    (h8 : m.syn = true) (h9 : m.parts = true) (h10 : m.hlt = true) (h11 : m.tiles = true) (h12 : m.out = true) (h13 : m.fresh =
    true) (h : Keeps m a s) :
    Keeps m a (latchFreeze a0 a1 s) := by
  unfold latchFreeze
  repeat' first
      | with_reducible first
          | assumption | apply partTo_keeps | apply ctxTo_keeps | apply squashStep_keeps | apply settleSteps_keeps
          | apply keeps_foldl
      | intro _
      | split

theorem partRemoveBody_keeps {m : Part} {a : State} (a0 : Req) (s : State) (h0 : m.ops = true) (h1 : m.evr = true) (h2 : m.rings
    = true) (h3 : m.mem = true) (h4 : m.noon = true) (h5 : m.grd = true) (h6 : m.tts = true) (h7 : m.fh = true) (h8 : m.srv =
    true) (h9 : m.fab = true) (h10 : m.syn = true) (h11 : m.parts = true) (h12 : m.hlt = true) (h13 : m.tiles = true) (h14 :
    m.cells = true) (h15 : m.sweep = true) (h16 : m.out = true) (h17 : m.fresh = true) (h : Keeps m a s) :
    Keeps m a (partRemoveBody a0 s).1 := by
  unfold partRemoveBody
  repeat' first
      | with_reducible first
          | assumption | apply partTo_keeps | apply failed_keeps | apply endPartOp_keeps | apply longOp_keeps
          | apply beginReset_keeps | apply dropArmings_keeps
      | intro _
      | split
      | (dsimp only)

theorem partQueryBody_keeps {m : Part} {a : State} (a0 : Req) (s : State) (h0 : m.parts = true) (h : Keeps m a s) :
    Keeps m a (partQueryBody a0 s).1 := by
  unfold partQueryBody
  repeat' first
      | with_reducible first | assumption | apply failed_keeps | apply updPart_keeps
      | split

theorem resetFabricDrain_keeps {m : Part} {a : State} (a0 : Nat) (s : State) (h0 : m.fab = true) (h1 : m.parts = true) (h :
    Keeps m a s) :
    Keeps m a (resetFabricDrain a0 s) := by
  unfold resetFabricDrain
  repeat' first
      | with_reducible first | assumption | apply updFab_keeps | apply updPart_keeps
      | split
      | (dsimp only)

theorem execResetFabricDrain_keeps {m : Part} {a : State} (a0 : Nat) (s : State) (h0 : m.fab = true) (h1 : m.parts = true) (h :
    Keeps m a s) :
    KeepsO m a (execResetFabricDrain a0 s) := by
  unfold execResetFabricDrain
  repeat' with_reducible first | assumption | apply resetFabricDrain_keeps | apply run_keeps

theorem resumePart_keeps {m : Part} {a : State} (a0 : Nat) (s : State) (h0 : m.ops = true) (h1 : m.evr = true) (h2 : m.rings =
    true) (h3 : m.mem = true) (h4 : m.grd = true) (h5 : m.srv = true) (h6 : m.hlt = true) (h7 : m.out = true) (h : Keeps m a
    s) :
    Keeps m a (resumePart a0 s) := by
  unfold resumePart
  repeat' first
      | with_reducible first
          | assumption | apply settle_keeps | apply enterResiding_keeps | apply serve_keeps | apply keeps_foldl
      | intro _
      | split

theorem partQuotaBody_keeps {m : Part} {a : State} (a0 : Req) (s : State) (h0 : m.ops = true) (h1 : m.parts = true) (h2 :
    m.fresh = true) (h : Keeps m a s) :
    Keeps m a (partQuotaBody a0 s).1 := by
  unfold partQuotaBody
  repeat' first
      | with_reducible first | assumption | apply failed_keeps | apply longOp_keeps | apply updPart_keeps
      | intro _
      | split
      | (dsimp only)

theorem execPartQuota_keeps {m : Part} {a : State} (a0 : Nat) (s : State) (h0 : m.mbx = true) (h1 : m.ops = true) (h2 : m.evr =
    true) (h3 : m.parts = true) (h4 : m.out = true) (h5 : m.fresh = true) (h : Keeps m a s) :
    KeepsO m a (execPartQuota a0 s) := by
  unfold execPartQuota
  repeat' first
      | with_reducible first
          | assumption | apply finishOp_keeps | apply runCommand_keeps | apply partQuotaBody_keeps | apply run_keeps
          | apply keeps_foldl
      | intro _

theorem quarantineEnd_keeps {m : Part} {a : State} (a0 : Nat) (s : State) (h0 : m.quarantine = true) (h : Keeps m a s) :
    Keeps m a (quarantineEnd a0 s) := by
  unfold quarantineEnd
  repeat' first
      | with_reducible first | assumption | apply State.setQuarantine_keeps
      | split

theorem execPartQuery_keeps {m : Part} {a : State} (a0 : Nat) (s : State) (h0 : m.mbx = true) (h1 : m.evr = true) (h2 : m.parts
    = true) (h3 : m.out = true) (h : Keeps m a s) :
    KeepsO m a (execPartQuery a0 s) := by
  unfold execPartQuery
  repeat' first
      | with_reducible first | assumption | apply runCommand_keeps | apply partQueryBody_keeps | apply run_keeps
      | intro _

theorem freezeComplete_keeps {m : Part} {a : State} (a0 : Nat) (s : State) (h0 : m.ops = true) (h1 : m.evr = true) (h2 : m.grd =
    true) (h3 : m.srv = true) (h4 : m.parts = true) (h5 : m.out = true) (h : Keeps m a s) :
    Keeps m a (freezeComplete a0 s) := by
  unfold freezeComplete
  repeat' first
      | with_reducible first
          | assumption | apply partTo_keeps | apply ctxTo_keeps | apply endPartOp_keeps | apply keeps_foldl
      | intro _
      | split

theorem execFreezeComplete_keeps {m : Part} {a : State} (a0 : Nat) (s : State) (h0 : m.ops = true) (h1 : m.evr = true) (h2 :
    m.grd = true) (h3 : m.srv = true) (h4 : m.parts = true) (h5 : m.out = true) (h : Keeps m a s) :
    KeepsO m a (execFreezeComplete a0 s) := by
  unfold execFreezeComplete
  repeat' with_reducible first | assumption | apply run_keeps | apply freezeComplete_keeps

theorem execPartRemove_keeps {m : Part} {a : State} (a0 : Nat) (s : State) (h0 : m.mbx = true) (h1 : m.ops = true) (h2 : m.evr =
    true) (h3 : m.rings = true) (h4 : m.mem = true) (h5 : m.noon = true) (h6 : m.grd = true) (h7 : m.tts = true) (h8 : m.fh =
    true) (h9 : m.srv = true) (h10 : m.fab = true) (h11 : m.syn = true) (h12 : m.parts = true) (h13 : m.hlt = true) (h14 :
    m.tiles = true) (h15 : m.cells = true) (h16 : m.sweep = true) (h17 : m.out = true) (h18 : m.fresh = true) (h : Keeps m a
    s) :
    KeepsO m a (execPartRemove a0 s) := by
  unfold execPartRemove
  repeat' first
      | with_reducible first | assumption | apply runCommand_keeps | apply run_keeps | apply partRemoveBody_keeps
      | intro _

theorem newKeys_keeps {m : Part} {a : State} (a0 : Nat) (s : State) (h0 : m.mem = true) (h1 : m.parts = true) (h2 : m.fresh =
    true) (h : Keeps m a s) :
    Keeps m a (newKeys a0 s) := by
  unfold newKeys
  repeat' first
      | with_reducible first
          | assumption | apply updPart_keeps | apply State.setMem_keeps | apply drawEntropy_keeps | exact memWf_zero _ _ _ ‹_›
      | intro _

theorem orphanPart_keeps {m : Part} {a : State} (a0 : Nat) (s : State) (h0 : m.evr = true) (h1 : m.srv = true) (h2 : m.syn =
    true) (h3 : m.out = true) (h4 : m.fresh = true) (h : Keeps m a s) :
    Keeps m a (orphanPart a0 s) := by
  unfold orphanPart
  repeat' first
      | with_reducible first | assumption | apply orphan_keeps | apply drawFree_keeps | apply keeps_foldl
      | intro _
      | split

theorem resetStep7_keeps {m : Part} {a : State} (a0 : Nat) (s : State) (h0 : m.ops = true) (h1 : m.evr = true) (h2 : m.rings =
    true) (h3 : m.mem = true) (h4 : m.grd = true) (h5 : m.tts = true) (h6 : m.srv = true) (h7 : m.fab = true) (h8 : m.syn =
    true) (h9 : m.parts = true) (h10 : m.quarantine = true) (h11 : m.hlt = true) (h12 : m.tiles = true) (h13 : m.out = true)
    (h14 : m.fresh = true) (h : Keeps m a s) :
    Keeps m a (resetStep7 a0 s) := by
  unfold resetStep7
  repeat' first
      | with_reducible first
          | assumption | apply orphanPart_keeps | apply removeCtx_keeps | apply updFab_keeps | apply updPart_keeps
          | apply State.setRings_keeps | apply retireJob_keeps | apply updSyn_keeps | apply serve_keeps
          | apply settleSteps_keeps | apply keeps_foldl
      | intro _

theorem resetHostDrain_keeps {m : Part} {a : State} (a0 : Nat) (a1 : Nat) (s : State) (h0 : m.ops = true) (h1 : m.evr = true)
    (h2 : m.rings = true) (h3 : m.mem = true) (h4 : m.grd = true) (h5 : m.tts = true) (h6 : m.srv = true) (h7 : m.fab = true)
    (h8 : m.syn = true) (h9 : m.parts = true) (h10 : m.quarantine = true) (h11 : m.hlt = true) (h12 : m.tiles = true) (h13 :
    m.out = true) (h14 : m.fresh = true) (h : Keeps m a s) :
    Keeps m a (resetHostDrain a0 a1 s) := by
  unfold resetHostDrain
  repeat' first
      | with_reducible first | assumption | apply updPart_keeps | apply resetStep7_keeps
      | split
      | (dsimp only)

theorem execResetHostDrain_keeps {m : Part} {a : State} (a0 : Nat) (a1 : Nat) (s : State) (h0 : m.ops = true) (h1 : m.evr =
    true) (h2 : m.rings = true) (h3 : m.mem = true) (h4 : m.grd = true) (h5 : m.tts = true) (h6 : m.srv = true) (h7 : m.fab =
    true) (h8 : m.syn = true) (h9 : m.parts = true) (h10 : m.quarantine = true) (h11 : m.hlt = true) (h12 : m.tiles = true)
    (h13 : m.out = true) (h14 : m.fresh = true) (h : Keeps m a s) :
    KeepsO m a (execResetHostDrain a0 a1 s) := by
  unfold execResetHostDrain
  repeat' with_reducible first | assumption | apply resetHostDrain_keeps | apply run_keeps

theorem partFreezeBody_keeps {m : Part} {a : State} (a0 : Req) (s : State) (h0 : m.ops = true) (h1 : m.evr = true) (h2 : m.rings
    = true) (h3 : m.mem = true) (h4 : m.grd = true) (h5 : m.tts = true) (h6 : m.srv = true) (h7 : m.fab = true) (h8 : m.syn =
    true) (h9 : m.parts = true) (h10 : m.hlt = true) (h11 : m.tiles = true) (h12 : m.out = true) (h13 : m.fresh = true) (h :
    Keeps m a s) :
    Keeps m a (partFreezeBody a0 s).1 := by
  unfold partFreezeBody
  repeat' first
      | with_reducible first | assumption | apply failed_keeps | apply latchFreeze_keeps | apply longOp_keeps
      | intro _
      | split
      | (dsimp only)

theorem partCreateDone_keeps {m : Part} {a : State} (a0 : Nat) (s : State) (h0 : m.mbx = true) (h1 : m.ops = true) (h2 : m.evr =
    true) (h3 : m.mem = true) (h4 : m.parts = true) (h5 : m.hlt = true) (h6 : m.out = true) (h7 : m.fresh = true) (h : Keeps m a
    s) :
    Keeps m a (partCreateDone a0 s) := by
  unfold partCreateDone
  repeat' first
      | with_reducible first
          | assumption | apply partTo_keeps | apply State.setMbx_keeps | apply finishOp_keeps | apply State.setHlt_keeps
          | apply updPart_keeps | apply newKeys_keeps
      | split

theorem partResetBody_keeps {m : Part} {a : State} (a0 : Req) (s : State) (h0 : m.ops = true) (h1 : m.evr = true) (h2 : m.rings
    = true) (h3 : m.mem = true) (h4 : m.noon = true) (h5 : m.grd = true) (h6 : m.tts = true) (h7 : m.fh = true) (h8 : m.srv =
    true) (h9 : m.fab = true) (h10 : m.syn = true) (h11 : m.parts = true) (h12 : m.hlt = true) (h13 : m.tiles = true) (h14 :
    m.cells = true) (h15 : m.sweep = true) (h16 : m.out = true) (h17 : m.fresh = true) (h : Keeps m a s) :
    Keeps m a (partResetBody a0 s).1 := by
  unfold partResetBody
  repeat' first
      | with_reducible first | assumption | apply failed_keeps | apply longOp_keeps | apply beginReset_keeps
      | intro _
      | split
      | (dsimp only)

theorem execPartReset_keeps {m : Part} {a : State} (a0 : Nat) (s : State) (h0 : m.mbx = true) (h1 : m.ops = true) (h2 : m.evr =
    true) (h3 : m.rings = true) (h4 : m.mem = true) (h5 : m.noon = true) (h6 : m.grd = true) (h7 : m.tts = true) (h8 : m.fh =
    true) (h9 : m.srv = true) (h10 : m.fab = true) (h11 : m.syn = true) (h12 : m.parts = true) (h13 : m.hlt = true) (h14 :
    m.tiles = true) (h15 : m.cells = true) (h16 : m.sweep = true) (h17 : m.out = true) (h18 : m.fresh = true) (h : Keeps m a
    s) :
    KeepsO m a (execPartReset a0 s) := by
  unfold execPartReset
  repeat' first
      | with_reducible first | assumption | apply runCommand_keeps | apply partResetBody_keeps | apply run_keeps
      | intro _

theorem execPartFreeze_keeps {m : Part} {a : State} (a0 : Nat) (s : State) (h0 : m.mbx = true) (h1 : m.ops = true) (h2 : m.evr =
    true) (h3 : m.rings = true) (h4 : m.mem = true) (h5 : m.grd = true) (h6 : m.tts = true) (h7 : m.srv = true) (h8 : m.fab =
    true) (h9 : m.syn = true) (h10 : m.parts = true) (h11 : m.hlt = true) (h12 : m.tiles = true) (h13 : m.out = true) (h14 :
    m.fresh = true) (h : Keeps m a s) :
    KeepsO m a (execPartFreeze a0 s) := by
  unfold execPartFreeze
  repeat' first
      | with_reducible first | assumption | apply partFreezeBody_keeps | apply runCommand_keeps | apply run_keeps
      | intro _

theorem execPartCreateDone_keeps {m : Part} {a : State} (a0 : Nat) (s : State) (h0 : m.mbx = true) (h1 : m.ops = true) (h2 :
    m.evr = true) (h3 : m.mem = true) (h4 : m.parts = true) (h5 : m.hlt = true) (h6 : m.out = true) (h7 : m.fresh = true) (h :
    Keeps m a s) :
    KeepsO m a (execPartCreateDone a0 s) := by
  unfold execPartCreateDone
  repeat' with_reducible first | assumption | apply partCreateDone_keeps | apply run_keeps

theorem execQuarantineEnd_keeps {m : Part} {a : State} (a0 : Nat) (s : State) (h0 : m.quarantine = true) (h : Keeps m a s) :
    KeepsO m a (execQuarantineEnd a0 s) := by
  unfold execQuarantineEnd
  repeat' with_reducible first | assumption | apply quarantineEnd_keeps | apply run_keeps

theorem partThawBody_keeps {m : Part} {a : State} (a0 : Req) (s : State) (h0 : m.evr = true) (h1 : m.grd = true) (h2 : m.srv =
    true) (h3 : m.parts = true) (h4 : m.out = true) (h : Keeps m a s) :
    Keeps m a (partThawBody a0 s).1 := by
  unfold partThawBody
  repeat' first
      | with_reducible first
          | assumption | apply partTo_keeps | apply failed_keeps | apply ctxTo_keeps | apply updPart_keeps | apply keeps_foldl
      | intro _
      | split
      | (dsimp only)

theorem execPartThaw_keeps {m : Part} {a : State} (a0 : Nat) (s : State) (h0 : m.mbx = true) (h1 : m.ops = true) (h2 : m.evr =
    true) (h3 : m.rings = true) (h4 : m.mem = true) (h5 : m.grd = true) (h6 : m.srv = true) (h7 : m.parts = true) (h8 : m.hlt =
    true) (h9 : m.out = true) (h : Keeps m a s) :
    KeepsO m a (execPartThaw a0 s) := by
  unfold execPartThaw
  repeat' first
      | with_reducible first
          | assumption | apply partThawBody_keeps | apply runCommand_keeps | apply resumePart_keeps | apply run_keeps
          | apply keeps_foldl
      | intro _

theorem partResetDone_keeps {m : Part} {a : State} (a0 : Nat) (s : State) (h0 : m.mbx = true) (h1 : m.ops = true) (h2 : m.evr =
    true) (h3 : m.mem = true) (h4 : m.parts = true) (h5 : m.hlt = true) (h6 : m.out = true) (h7 : m.fresh = true) (h : Keeps m a
    s) :
    Keeps m a (partResetDone a0 s) := by
  unfold partResetDone
  repeat' first
      | with_reducible first
          | assumption | apply partTo_keeps | apply State.setMbx_keeps | apply State.setHlt_keeps | apply State.setParts_keeps
          | apply endPartOp_keeps | apply updPart_keeps | apply fault_keeps | apply newKeys_keeps
      | split
      | (dsimp only)

theorem execPartResetDone_keeps {m : Part} {a : State} (a0 : Nat) (s : State) (h0 : m.mbx = true) (h1 : m.ops = true) (h2 :
    m.evr = true) (h3 : m.mem = true) (h4 : m.parts = true) (h5 : m.hlt = true) (h6 : m.out = true) (h7 : m.fresh = true) (h :
    Keeps m a s) :
    KeepsO m a (execPartResetDone a0 s) := by
  unfold execPartResetDone
  repeat' with_reducible first | assumption | apply partResetDone_keeps | apply run_keeps

theorem functionLevelReset_keeps {m : Part} {a : State} (a0 : Nat) (s : State) (h0 : m.ops = true) (h1 : m.evr = true) (h2 :
    m.rings = true) (h3 : m.mem = true) (h4 : m.noon = true) (h5 : m.grd = true) (h6 : m.tts = true) (h7 : m.fh = true) (h8 :
    m.srv = true) (h9 : m.fab = true) (h10 : m.syn = true) (h11 : m.parts = true) (h12 : m.hlt = true) (h13 : m.tiles = true)
    (h14 : m.cells = true) (h15 : m.sweep = true) (h16 : m.out = true) (h17 : m.fresh = true) (h : Keeps m a s) :
    Keeps m a (functionLevelReset a0 s) := by
  unfold functionLevelReset
  repeat' first
      | with_reducible first | assumption | apply beginReset_keeps
      | split
      | (dsimp only)

theorem execFunctionLevelReset_keeps {m : Part} {a : State} (a0 : Nat) (s : State) (h0 : m.ops = true) (h1 : m.evr = true) (h2 :
    m.rings = true) (h3 : m.mem = true) (h4 : m.noon = true) (h5 : m.grd = true) (h6 : m.tts = true) (h7 : m.fh = true) (h8 :
    m.srv = true) (h9 : m.fab = true) (h10 : m.syn = true) (h11 : m.parts = true) (h12 : m.hlt = true) (h13 : m.tiles = true)
    (h14 : m.cells = true) (h15 : m.sweep = true) (h16 : m.out = true) (h17 : m.fresh = true) (h : Keeps m a s) :
    KeepsO m a (execFunctionLevelReset a0 s) := by
  unfold execFunctionLevelReset
  repeat' with_reducible first | assumption | apply run_keeps | apply functionLevelReset_keeps

/-! Machine/Migration.lean -/

theorem restoreRing_keeps {m : Part} {a : State} (p : Nat) (r : SavedRing) (x : Option Nat × State) (h0 : m.rings = true)
    (h : Keeps m a x.2) : Keeps m a (restoreRing p r x).2 := by
  unfold restoreRing
  split
  · exact h
  · exact State.setRings_keeps _ _ h0 h

theorem restoreRings_keeps {m : Part} {a : State} (a0 : Nat) (a1 : List SavedRing) (s : State) (h0 : m.rings = true) (h1 :
    m.fresh = true) (h : Keeps m a s) :
    Keeps m a (restoreRings a0 a1 s).2 := by
  induction a1 generalizing s with
  | nil => exact h
  | cons r rest ih =>
    unfold restoreRings
    dsimp only
    with_reducible apply ih
    with_reducible apply restoreRing_keeps
    · exact h0
    · with_reducible apply pickFree_keeps <;> assumption

theorem restoreRefused_keeps {m : Part} {a : State} (a0 : Nat) (a1 : Nat) (a2 : Status) (a3 : List Byte) (s : State) (h0 : m.ops
    = true) (h1 : m.evr = true) (h2 : m.parts = true) (h3 : m.out = true) (h : Keeps m a s) :
    Keeps m a (restoreRefused a0 a1 a2 a3 s) := by
  unfold restoreRefused
  repeat' with_reducible first | assumption | apply partTo_keeps | apply finishOp_keeps | apply updPart_keeps

theorem bindCtx_keeps {m : Part} {a : State} (a0 : Nat) (a1 : SavedCtx) (a2 : List Byte) (a3 : List Placement) (a4 : List (Nat ×
    Nat)) (s : State) (h0 : m.mem = true) (h1 : m.srv = true) (h : Keeps m a s) :
    ∀ t, bindCtx a0 a1 a2 a3 a4 s = some t → Keeps m a t := by
  intro t ht
  unfold bindCtx at ht
  dsimp only at ht
  split at ht
  · cases ht
  · split at ht
    · cases ht
    · have e := Option.some.inj ht
      subst e
      exact zeroRegions_keeps _ _ _ h0 (updSrv_keeps _ _ (fun _ w => tabWf_put _ _ _ w) h1 h)

theorem bindCtxs_keeps {m : Part} {a : State} (a0 : Nat) (a1 : List (Nat × Nat)) (a2 : List (SavedCtx × List Byte × List
    Placement)) (s : State) (h0 : m.mem = true) (h1 : m.srv = true) (h : Keeps m a s) :
    ∀ t, bindCtxs a0 a1 a2 s = some t → Keeps m a t := by
  induction a2 generalizing s with
  | nil => intro t ht; exact Option.some.inj ht ▸ h
  | cons x r ih =>
    intro t ht
    obtain ⟨u, hu, ht⟩ := Option.bind_eq_some_iff.1 ht
    exact ih u (bindCtx_keeps _ _ _ _ _ _ h0 h1 h u hu) t ht

theorem holdMutexes_keeps {m : Part} {a : State} (a0 : List SavedObj) (s : State) (h0 : m.srv = true) (h : Keeps m a s) :
    Keeps m a (holdMutexes a0 s) := by
  unfold holdMutexes
  repeat' first
      | with_reducible first | assumption | apply setHolding_keeps | apply keeps_foldl
      | intro _
      | split

theorem bindRestore_keeps {m : Part} {a : State} (a0 : Nat) (a1 : RestoreRun) (s : State) (h0 : m.rings = true) (h1 : m.mem =
    true) (h2 : m.srv = true) (h3 : m.syn = true) (h4 : m.parts = true) (h5 : m.fresh = true) (h : Keeps m a s) :
    ∀ t, bindRestore a0 a1 s = some t → Keeps m a t := by
  intro t ht
  unfold bindRestore at ht
  obtain ⟨u, hu, e⟩ := Option.map_eq_some_iff.1 ht
  subst e
  exact holdMutexes_keeps _ _ h2 (bindCtxs_keeps _ _ _ _ h1 h2 (updPart_keeps _ _ _ h4 (updSyn_keeps _ _ h3 (restoreRings_keeps
      _ _ _ h0 h5 h))) _ hu)

theorem copyRegion_keeps {m : Part} {a : State} (a0 : RestoreRun) (a1 : Nat) (s : State) (a2 : Nat × Nat × Nat × Nat × Nat)
    (h0 : m.mem = true) (h1 : m.hlt = true) (h : Keeps m a s) :
    Keeps m a (copyRegion a0 a1 s a2) := by
  unfold copyRegion
  repeat' first
      | with_reducible first | assumption | apply storeBytes_keeps | apply keeps_foldl
      | intro _
      | split
      | (dsimp only)

theorem copyStream_keeps {m : Part} {a : State} (a0 : Nat) (a1 : RestoreRun) (s : State) (h0 : m.mem = true) (h1 : m.hlt = true)
    (h : Keeps m a s) :
    Keeps m a (copyStream a0 a1 s) := by
  unfold copyStream
  repeat' first
      | with_reducible first | assumption | apply copyRegion_keeps | apply hdmWrite_keeps | apply keeps_foldl
      | intro _
      | split
      | (dsimp only)

theorem restoreLast_keeps {m : Part} {a : State} (a0 : Nat) (a1 : Nat) (a2 : RestoreRun) (s : State) (h0 : m.ops = true) (h1 :
    m.evr = true) (h2 : m.rings = true) (h3 : m.mem = true) (h4 : m.noon = true) (h5 : m.grd = true) (h6 : m.tts = true) (h7 :
    m.fh = true) (h8 : m.srv = true) (h9 : m.fab = true) (h10 : m.syn = true) (h11 : m.parts = true) (h12 : m.hlt = true) (h13 :
    m.tiles = true) (h14 : m.cells = true) (h15 : m.sweep = true) (h16 : m.out = true) (h17 : m.fresh = true) (h : Keeps m a
    s) :
    Keeps m a (restoreLast a0 a1 a2 s) := by
  unfold restoreLast
  repeat' first
      | with_reducible first
          | assumption | apply partTo_keeps | apply finishOp_keeps | apply updPart_keeps | apply beginReset_keeps
          | apply copyStream_keeps
      | split

theorem restoreChunkDone_keeps {m : Part} {a : State} (a0 : Nat) (a1 : List (List Placement)) (s : State) (h0 : m.ops = true)
    (h1 : m.evr = true) (h2 : m.rings = true) (h3 : m.mem = true) (h4 : m.noon = true) (h5 : m.grd = true) (h6 : m.tts = true)
    (h7 : m.fh = true) (h8 : m.srv = true) (h9 : m.fab = true) (h10 : m.syn = true) (h11 : m.parts = true) (h12 : m.hlt = true)
    (h13 : m.tiles = true) (h14 : m.cells = true) (h15 : m.sweep = true) (h16 : m.out = true) (h17 : m.fresh = true) (h :
    Keeps m a s) :
    Keeps m a (restoreChunkDone a0 a1 s) := by
  unfold restoreChunkDone
  repeat' first
      | with_reducible first
          | (refine keeps_of_some ?_ ‹bindRestore _ _ _ = _›; apply bindRestore_keeps) | assumption
          | apply restoreRefused_keeps | apply finishOp_keeps | apply updPart_keeps | apply restoreLast_keeps
      | split
      | (dsimp only)

theorem execRestoreChunkDone_keeps {m : Part} {a : State} (a0 : Nat) (a1 : List (List Placement)) (s : State) (h0 : m.ops =
    true) (h1 : m.evr = true) (h2 : m.rings = true) (h3 : m.mem = true) (h4 : m.noon = true) (h5 : m.grd = true) (h6 : m.tts =
    true) (h7 : m.fh = true) (h8 : m.srv = true) (h9 : m.fab = true) (h10 : m.syn = true) (h11 : m.parts = true) (h12 : m.hlt =
    true) (h13 : m.tiles = true) (h14 : m.cells = true) (h15 : m.sweep = true) (h16 : m.out = true) (h17 : m.fresh = true) (h :
    Keeps m a s) :
    KeepsO m a (execRestoreChunkDone a0 a1 s) := by
  unfold execRestoreChunkDone
  repeat' with_reducible first | assumption | apply restoreChunkDone_keeps | apply run_keeps

theorem newStream_keeps {m : Part} {a : State} (a0 : Nat) (a1 : List Byte) (a2 : Bool) (s : State) (h0 : m.fresh = true) (h :
    Keeps m a s) :
    Keeps m a (newStream a0 a1 a2 s).2 := by
  unfold newStream
  repeat' with_reducible first | assumption | apply drawFree_keeps

theorem partSaveBody_keeps {m : Part} {a : State} (a0 : Req) (s : State) (h0 : m.ops = true) (h1 : m.parts = true) (h2 : m.fresh
    = true) (h : Keeps m a s) :
    Keeps m a (partSaveBody a0 s).1 := by
  unfold partSaveBody
  repeat' first
      | with_reducible first
          | assumption | apply drawStatus_keeps | apply failed_keeps | apply longOp_keeps | apply updPart_keeps
          | apply newStream_keeps | apply keeps_ite_fst
      | intro _

theorem execPartSave_keeps {m : Part} {a : State} (a0 : Nat) (s : State) (h0 : m.mbx = true) (h1 : m.ops = true) (h2 : m.evr =
    true) (h3 : m.parts = true) (h4 : m.out = true) (h5 : m.fresh = true) (h : Keeps m a s) :
    KeepsO m a (execPartSave a0 s) := by
  unfold execPartSave
  repeat' first
      | with_reducible first | assumption | apply partSaveBody_keeps | apply runCommand_keeps | apply run_keeps
      | intro _

theorem saveChunkDone_keeps {m : Part} {a : State} (a0 : Nat) (s : State) (h0 : m.ops = true) (h1 : m.evr = true) (h2 : m.mem =
    true) (h3 : m.out = true) (h4 : m.fresh = true) (h : Keeps m a s) :
    Keeps m a (saveChunkDone a0 s) := by
  unfold saveChunkDone
  repeat' first
      | with_reducible first | assumption | apply drawStatus_keeps | apply finishOp_keeps | apply hdmWrite_keeps
      | split

theorem execSaveChunkDone_keeps {m : Part} {a : State} (a0 : Nat) (s : State) (h0 : m.ops = true) (h1 : m.evr = true) (h2 :
    m.mem = true) (h3 : m.out = true) (h4 : m.fresh = true) (h : Keeps m a s) :
    KeepsO m a (execSaveChunkDone a0 s) := by
  unfold execSaveChunkDone
  repeat' with_reducible first | assumption | apply saveChunkDone_keeps | apply run_keeps

theorem partRestoreBody_keeps {m : Part} {a : State} (a0 : StreamHead) (a1 : Req) (s : State) (h0 : m.ops = true) (h1 : m.evr =
    true) (h2 : m.parts = true) (h3 : m.out = true) (h4 : m.fresh = true) (h : Keeps m a s) :
    Keeps m a (partRestoreBody a0 a1 s).1 := by
  unfold partRestoreBody
  repeat' first
      | with_reducible first
          | assumption | apply partTo_keeps | apply failed_keeps | apply longOp_keeps | apply updPart_keeps
      | intro _
      | split
      | (dsimp only)

theorem execPartRestore_keeps {m : Part} {a : State} (a0 : Nat) (a1 : StreamHead) (s : State) (h0 : m.mbx = true) (h1 : m.ops =
    true) (h2 : m.evr = true) (h3 : m.parts = true) (h4 : m.out = true) (h5 : m.fresh = true) (h : Keeps m a s) :
    KeepsO m a (execPartRestore a0 a1 s) := by
  unfold execPartRestore
  repeat' first
      | with_reducible first | assumption | apply partRestoreBody_keeps | apply runCommand_keeps | apply run_keeps
      | intro _

/-! Machine/Cancel.lean -/

theorem cancelSave_keeps {m : Part} {a : State} (a0 : Nat) (a1 : LongOp) (s : State) (h0 : m.ops = true) (h1 : m.evr = true)
    (h2 : m.mem = true) (h3 : m.out = true) (h4 : m.fresh = true) (h : Keeps m a s) :
    Keeps m a (cancelSave a0 a1 s) := by
  unfold cancelSave
  repeat' first
      | with_reducible first | assumption | apply finishOp_keeps | apply hdmWrite_keeps | apply drawFree_keeps
      | split

theorem cancelReside_keeps {m : Part} {a : State} (a0 : Nat) (a1 : Nat) (s : State) (h0 : m.ops = true) (h1 : m.evr = true)
    (h2 : m.rings = true) (h3 : m.mem = true) (h4 : m.grd = true) (h5 : m.srv = true) (h6 : m.out = true) (h : Keeps m a s) :
    Keeps m a (cancelReside a0 a1 s) := by
  unfold cancelReside
  repeat' first
      | with_reducible first | assumption | apply finishOp_keeps | apply ctxTo_keeps | apply serve_keeps
      | split
      | (dsimp only)

theorem cancelOp_keeps {m : Part} {a : State} (a0 : Nat) (a1 : LongOp) (s : State) (h0 : m.ops = true) (h1 : m.evr = true) (h2 :
    m.rings = true) (h3 : m.mem = true) (h4 : m.noon = true) (h5 : m.grd = true) (h6 : m.tts = true) (h7 : m.fh = true) (h8 :
    m.srv = true) (h9 : m.fab = true) (h10 : m.syn = true) (h11 : m.parts = true) (h12 : m.hlt = true) (h13 : m.tiles = true)
    (h14 : m.cells = true) (h15 : m.sweep = true) (h16 : m.out = true) (h17 : m.fresh = true) (h : Keeps m a s) :
    ∀ t, cancelOp a0 a1 s = some t → Keeps m a t := by
  intro t ht
  unfold cancelOp at ht
  repeat' first
      | split at ht
      | (dsimp only at ht)
      | (simp only [reduceCtorEq] at ht; done)
      | (have e := Option.some.inj ht; clear ht; subst e)
      | (have e := Except.ok.inj ht; clear ht; subst e)
      | with_reducible first
          | assumption | apply cancelSave_keeps | apply partTo_keeps | apply updSrv_keeps | apply finishOp_keeps
          | apply cancelReside_keeps | apply beginReset_keeps | apply resumePart_keeps | apply cancelWrite_keeps
          | apply updTts_keeps | apply keeps_foldl | apply keeps_ite | apply keeps_ite_fst | apply keeps_ite_snd
          | exact memWf_writeBytes _ _ _ ‹_› | exact memWf_zero _ _ _ ‹_› | exact memWf_nil | exact memWf_forget _ _ _ _ ‹_›
          | exact tabWf_mod _ _ _ ‹_› | exact tabWf_put _ _ _ ‹_› | exact tabWf_del _ _ ‹_›
          | exact tabWf_map _ _ (fun _ => rfl) ‹_› | exact fun _ h => h | exact fun h => h
      | intro _
      | split
      | (dsimp only)
      | (rename (_ = (_, (_ : State))) => hp; have e := congrArg Prod.snd hp; clear hp; dsimp only at e; subst e)
      | (rename (_ = ((_ : State), _)) => hp; have e := congrArg Prod.fst hp; clear hp; dsimp only at e; subst e)

theorem cancelBody_keeps {m : Part} {a : State} (a0 : Req) (s : State) (h0 : m.ops = true) (h1 : m.evr = true) (h2 : m.rings =
    true) (h3 : m.mem = true) (h4 : m.noon = true) (h5 : m.grd = true) (h6 : m.tts = true) (h7 : m.fh = true) (h8 : m.srv =
    true) (h9 : m.fab = true) (h10 : m.syn = true) (h11 : m.parts = true) (h12 : m.hlt = true) (h13 : m.tiles = true) (h14 :
    m.cells = true) (h15 : m.sweep = true) (h16 : m.out = true) (h17 : m.fresh = true) (h : Keeps m a s) :
    Keeps m a (cancelBody a0 s).1 := by
  unfold cancelBody
  repeat' first
      | with_reducible first
          | (refine keeps_of_some ?_ ‹cancelOp _ _ _ = _›; apply cancelOp_keeps) | assumption | apply failed_keeps
      | split

theorem execCancel_keeps {m : Part} {a : State} (a0 : Nat) (s : State) (h0 : m.mbx = true) (h1 : m.ops = true) (h2 : m.evr =
    true) (h3 : m.rings = true) (h4 : m.mem = true) (h5 : m.noon = true) (h6 : m.grd = true) (h7 : m.tts = true) (h8 : m.fh =
    true) (h9 : m.srv = true) (h10 : m.fab = true) (h11 : m.syn = true) (h12 : m.parts = true) (h13 : m.hlt = true) (h14 :
    m.tiles = true) (h15 : m.cells = true) (h16 : m.sweep = true) (h17 : m.out = true) (h18 : m.fresh = true) (h : Keeps m a
    s) :
    KeepsO m a (execCancel a0 s) := by
  unfold execCancel
  repeat' first
      | with_reducible first | assumption | apply runCommand_keeps | apply cancelBody_keeps | apply run_keeps
      | intro _

/-! Machine/Health.lean -/

theorem beginDeviceReset_keeps {m : Part} {a : State} (s : State) (h0 : m.dev = true) (h1 : m.noon = true) (h2 : m.fh = true)
    (h3 : m.fab = true) (h4 : m.hlt = true) (h5 : m.mgt = true) (h : Keeps m a s) :
    Keeps m a (beginDeviceReset s) := by
  unfold beginDeviceReset
  repeat' first
      | with_reducible first
          | assumption | apply updFab_keeps | apply updFh_keeps | apply updHlt_keeps | apply State.setDev_keeps
          | apply State.setNoon_keeps | apply State.setMgt_keeps
      | intro _

theorem stepLedgerBody_keeps {m : Part} {a : State} (a0 : Req) (s : State) (h0 : m.srv = true) (h : Keeps m a s) :
    Keeps m a (stepLedgerBody a0 s).1 := by
  unfold stepLedgerBody
  repeat' first
      | with_reducible first | assumption | apply failed_keeps | apply updCtx_keeps
      | split
      | (dsimp only)

theorem healthDecay_keeps {m : Part} {a : State} (s : State) (h0 : m.evr = true) (h1 : m.hlt = true) (h2 : m.out = true) (h :
    Keeps m a s) :
    Keeps m a (healthDecay s) := by
  unfold healthDecay
  repeat' first
      | with_reducible first | assumption | apply healthReport_keeps | apply updHlt_keeps
      | split

theorem contextResetDone_keeps {m : Part} {a : State} (a0 : Nat) (s : State) (h0 : m.ops = true) (h1 : m.evr = true) (h2 :
    m.rings = true) (h3 : m.mem = true) (h4 : m.grd = true) (h5 : m.tts = true) (h6 : m.srv = true) (h7 : m.fab = true) (h8 :
    m.syn = true) (h9 : m.hlt = true) (h10 : m.tiles = true) (h11 : m.out = true) (h12 : m.fresh = true) (h : Keeps m a s) :
    Keeps m a (contextResetDone a0 s) := by
  unfold contextResetDone
  repeat' first
      | with_reducible first
          | assumption | apply endOne_keeps | apply updCtx_keeps | apply updHlt_keeps | apply post_keeps
          | apply finishOpsOn_keeps | apply settleSteps_keeps
      | split

theorem armMove_keeps {m : Part} {a : State} (a0 : Nat) (a1 : Nat) (a2 : Nat) (s : State) (h0 : m.evr = true) (h1 : m.rings =
    true) (h2 : m.mem = true) (h3 : m.noon = true) (h4 : m.cells = true) (h5 : m.sweep = true) (h6 : m.out = true) (h7 : m.fresh
    = true) (h : Keeps m a s) :
    Keeps m a (armMove a0 a1 a2 s) := by
  unfold armMove
  repeat' first
      | with_reducible first
          | assumption | apply pickFree_keeps | apply setNoon_keeps | apply stopCell_keeps | apply emit_keeps
          | apply drawFree_keeps
      | split
      | (rename (_ = (_, (_ : State))) => hp; have e := congrArg Prod.snd hp; clear hp; dsimp only at e; subst e)

theorem zeroStores_keeps {m : Part} {a : State} (s : State) (h0 : m.mem = true) (h1 : m.hlt = true) (h : Keeps m a s) :
    Keeps m a (zeroStores s) := by
  unfold zeroStores
  repeat' first
      | with_reducible first | assumption | apply updHlt_keeps | apply State.setMem_keeps | exact memWf_zero _ _ _ ‹_›
      | intro _

theorem execContextResetDone_keeps {m : Part} {a : State} (a0 : Nat) (s : State) (h0 : m.ops = true) (h1 : m.evr = true) (h2 :
    m.rings = true) (h3 : m.mem = true) (h4 : m.grd = true) (h5 : m.tts = true) (h6 : m.srv = true) (h7 : m.fab = true) (h8 :
    m.syn = true) (h9 : m.hlt = true) (h10 : m.tiles = true) (h11 : m.out = true) (h12 : m.fresh = true) (h : Keeps m a s) :
    KeepsO m a (execContextResetDone a0 s) := by
  unfold execContextResetDone
  repeat' first
      | with_reducible first | assumption | apply contextResetDone_keeps | apply run_keeps
      | split

theorem execHealthDecay_keeps {m : Part} {a : State} (s : State) (h0 : m.evr = true) (h1 : m.hlt = true) (h2 : m.out = true)
    (h : Keeps m a s) :
    KeepsO m a (execHealthDecay s) := by
  unfold execHealthDecay
  repeat' with_reducible first | assumption | apply run_keeps | apply healthDecay_keeps

theorem phaseA_keeps {m : Part} {a : State} (s : State) (h0 : m.evr = true) (h1 : m.rings = true) (h2 : m.mem = true) (h3 :
    m.noon = true) (h4 : m.tts = true) (h5 : m.cells = true) (h6 : m.sweep = true) (h7 : m.out = true) (h8 : m.fresh = true)
    (h : Keeps m a s) :
    Keeps m a (phaseA s) := by
  unfold phaseA
  repeat' first
      | with_reducible first
          | assumption | apply armMove_keeps | apply stopTable_keeps | apply stopCell_keeps | apply keeps_foldl
      | intro _
      | split
      | (dsimp only)

theorem beginGridReset_keeps {m : Part} {a : State} (a0 : Option Nat) (s : State) (h0 : m.evr = true) (h1 : m.rings = true)
    (h2 : m.mem = true) (h3 : m.noon = true) (h4 : m.tts = true) (h5 : m.hlt = true) (h6 : m.cells = true) (h7 : m.sweep = true)
    (h8 : m.out = true) (h9 : m.fresh = true) (h : Keeps m a s) :
    Keeps m a (beginGridReset a0 s) := by
  unfold beginGridReset
  repeat' first
      | with_reducible first | assumption | apply phaseA_keeps | apply updHlt_keeps
      | split

theorem hltWindowsBody_keeps {m : Part} {a : State} (a0 : Req) (s : State) (h0 : m.hlt = true) (h : Keeps m a s) :
    Keeps m a (hltWindowsBody a0 s).1 := by
  unfold hltWindowsBody
  repeat' first
      | with_reducible first | assumption | apply failed_keeps | apply updHlt_keeps
      | split
      | (dsimp only)

theorem execHltWindows_keeps {m : Part} {a : State} (a0 : Nat) (s : State) (h0 : m.mbx = true) (h1 : m.evr = true) (h2 : m.hlt =
    true) (h3 : m.out = true) (h : Keeps m a s) :
    KeepsO m a (execHltWindows a0 s) := by
  unfold execHltWindows
  repeat' first
      | with_reducible first | assumption | apply runCommand_keeps | apply run_keeps | apply hltWindowsBody_keeps
      | intro _

theorem clearGrid_keeps {m : Part} {a : State} (s : State) (h0 : m.grd = true) (h1 : m.tts = true) (h2 : m.tiles = true) (h3 :
    m.cde = true) (h : Keeps m a s) :
    Keeps m a (clearGrid s) := by
  unfold clearGrid
  repeat'
      with_reducible first
        | assumption | apply State.setTiles_keeps | apply State.setCde_keeps | apply State.setTts_keeps | apply updGrd_keeps

theorem gridResetPhaseB_keeps {m : Part} {a : State} (s : State) (h0 : m.ops = true) (h1 : m.evr = true) (h2 : m.rings = true)
    (h3 : m.mem = true) (h4 : m.grd = true) (h5 : m.tts = true) (h6 : m.srv = true) (h7 : m.fab = true) (h8 : m.syn = true)
    (h9 : m.hlt = true) (h10 : m.tiles = true) (h11 : m.cde = true) (h12 : m.out = true) (h13 : m.fresh = true) (h : Keeps m a
    s) :
    Keeps m a (gridResetPhaseB s) := by
  unfold gridResetPhaseB
  repeat' first
      | with_reducible first
          | assumption | apply contextResetDone_keeps | apply zeroStores_keeps | apply updHlt_keeps | apply resetContext_keeps
          | apply clearGrid_keeps | apply keeps_foldl
      | intro _
      | split

theorem radioHang_keeps {m : Part} {a : State} (a0 : Nat) (s : State) (h0 : m.evr = true) (h1 : m.grd = true) (h2 : m.tts =
    true) (h3 : m.hlt = true) (h4 : m.tiles = true) (h5 : m.cde = true) (h6 : m.out = true) (h7 : m.fresh = true) (h : Keeps m a
    s) :
    Keeps m a (radioHang a0 s) := by
  unfold radioHang
  repeat' first
      | with_reducible first | assumption | apply fault_keeps | apply failStage_keeps
      | split
      | (dsimp only)

theorem execRadioHang_keeps {m : Part} {a : State} (a0 : Nat) (s : State) (h0 : m.evr = true) (h1 : m.grd = true) (h2 : m.tts =
    true) (h3 : m.hlt = true) (h4 : m.tiles = true) (h5 : m.cde = true) (h6 : m.out = true) (h7 : m.fresh = true) (h : Keeps m a
    s) :
    KeepsO m a (execRadioHang a0 s) := by
  unfold execRadioHang
  repeat' with_reducible first | assumption | apply radioHang_keeps | apply run_keeps | apply runOn_keeps

theorem stepSlow_keeps {m : Part} {a : State} (a0 : Nat) (s : State) (h0 : m.evr = true) (h1 : m.srv = true) (h2 : m.out = true)
    (h : Keeps m a s) :
    Keeps m a (stepSlow a0 s) := by
  unfold stepSlow
  repeat' first
      | with_reducible first | assumption | apply updStep_keeps | apply post_keeps
      | split

theorem execGridResetPhaseB_keeps {m : Part} {a : State} (s : State) (h0 : m.ops = true) (h1 : m.evr = true) (h2 : m.rings =
    true) (h3 : m.mem = true) (h4 : m.grd = true) (h5 : m.tts = true) (h6 : m.srv = true) (h7 : m.fab = true) (h8 : m.syn =
    true) (h9 : m.hlt = true) (h10 : m.tiles = true) (h11 : m.cde = true) (h12 : m.out = true) (h13 : m.fresh = true) (h :
    Keeps m a s) :
    KeepsO m a (execGridResetPhaseB s) := by
  unfold execGridResetPhaseB
  repeat' with_reducible first | assumption | apply run_keeps | apply gridResetPhaseB_keeps

theorem gridResetDone_keeps {m : Part} {a : State} (a0 : List Nat) (s : State) (h0 : m.ops = true) (h1 : m.evr = true) (h2 :
    m.rings = true) (h3 : m.mem = true) (h4 : m.grd = true) (h5 : m.tts = true) (h6 : m.srv = true) (h7 : m.fab = true) (h8 :
    m.syn = true) (h9 : m.hlt = true) (h10 : m.tiles = true) (h11 : m.out = true) (h12 : m.fresh = true) (h : Keeps m a s) :
    Keeps m a (gridResetDone a0 s) := by
  unfold gridResetDone
  repeat' first
      | with_reducible first
          | assumption | apply contextResetDone_keeps | apply updHlt_keeps | apply post_keeps | apply finishOpsOn_keeps
          | apply unitFault_keeps | apply keeps_foldl
      | intro _
      | split

theorem ledgerCasResult_keeps {m : Part} {a : State} (a0 : Nat) (a1 : Nat) (a2 : Nat) (s : State) (h0 : m.ops = true) (h1 :
    m.evr = true) (h2 : m.rings = true) (h3 : m.mem = true) (h4 : m.grd = true) (h5 : m.tts = true) (h6 : m.srv = true) (h7 :
    m.fab = true) (h8 : m.syn = true) (h9 : m.hlt = true) (h10 : m.tiles = true) (h11 : m.out = true) (h12 : m.fresh = true)
    (h : Keeps m a s) :
    Keeps m a (ledgerCasResult a0 a1 a2 s) := by
  unfold ledgerCasResult
  repeat' first
      | with_reducible first
          | assumption | apply commitStep_keeps | apply endOne_keeps | apply updCtx_keeps | apply updFab_keeps
          | apply endStep_keeps | apply settleSteps_keeps
      | split
      | (dsimp only)

theorem execLedgerCasResult_keeps {m : Part} {a : State} (a0 : Nat) (a1 : Nat) (a2 : Nat) (s : State) (h0 : m.ops = true) (h1 :
    m.evr = true) (h2 : m.rings = true) (h3 : m.mem = true) (h4 : m.grd = true) (h5 : m.tts = true) (h6 : m.srv = true) (h7 :
    m.fab = true) (h8 : m.syn = true) (h9 : m.hlt = true) (h10 : m.tiles = true) (h11 : m.out = true) (h12 : m.fresh = true)
    (h : Keeps m a s) :
    KeepsO m a (execLedgerCasResult a0 a1 a2 s) := by
  unfold execLedgerCasResult
  repeat' with_reducible first | assumption | apply ledgerCasResult_keeps | apply run_keeps

theorem resetOverrun_keeps {m : Part} {a : State} (a0 : Option Nat) (s : State) (h0 : m.evr = true) (h1 : m.rings = true) (h2 :
    m.mem = true) (h3 : m.noon = true) (h4 : m.tts = true) (h5 : m.hlt = true) (h6 : m.cells = true) (h7 : m.sweep = true) (h8 :
    m.out = true) (h9 : m.fresh = true) (h : Keeps m a s) :
    Keeps m a (resetOverrun a0 s) := by
  unfold resetOverrun
  repeat' first
      | with_reducible first | assumption | apply beginGridReset_keeps | apply fault_keeps | apply updHlt_keeps
      | split

theorem execResetOverrun_keeps {m : Part} {a : State} (a0 : Option Nat) (s : State) (h0 : m.evr = true) (h1 : m.rings = true)
    (h2 : m.mem = true) (h3 : m.noon = true) (h4 : m.tts = true) (h5 : m.hlt = true) (h6 : m.cells = true) (h7 : m.sweep = true)
    (h8 : m.out = true) (h9 : m.fresh = true) (h : Keeps m a s) :
    KeepsO m a (execResetOverrun a0 s) := by
  unfold execResetOverrun
  repeat' with_reducible first | assumption | apply run_keeps | apply resetOverrun_keeps

theorem execGridResetDone_keeps {m : Part} {a : State} (a0 : List Nat) (s : State) (h0 : m.ops = true) (h1 : m.evr = true) (h2 :
    m.rings = true) (h3 : m.mem = true) (h4 : m.grd = true) (h5 : m.tts = true) (h6 : m.srv = true) (h7 : m.fab = true) (h8 :
    m.syn = true) (h9 : m.hlt = true) (h10 : m.tiles = true) (h11 : m.out = true) (h12 : m.fresh = true) (h : Keeps m a s) :
    KeepsO m a (execGridResetDone a0 s) := by
  unfold execGridResetDone
  repeat' with_reducible first | assumption | apply gridResetDone_keeps | apply run_keeps

theorem execStepSlow_keeps {m : Part} {a : State} (a0 : Nat) (s : State) (h0 : m.evr = true) (h1 : m.srv = true) (h2 : m.out =
    true) (h : Keeps m a s) :
    KeepsO m a (execStepSlow a0 s) := by
  unfold execStepSlow
  repeat' with_reducible first | assumption | apply run_keeps | apply stepSlow_keeps

theorem inferenceHang_keeps {m : Part} {a : State} (a0 : Nat) (s : State) (h0 : m.ops = true) (h1 : m.evr = true) (h2 : m.rings
    = true) (h3 : m.mem = true) (h4 : m.grd = true) (h5 : m.tts = true) (h6 : m.srv = true) (h7 : m.fab = true) (h8 : m.syn =
    true) (h9 : m.hlt = true) (h10 : m.tiles = true) (h11 : m.out = true) (h12 : m.fresh = true) (h : Keeps m a s) :
    Keeps m a (inferenceHang a0 s) := by
  unfold inferenceHang
  repeat' first
      | with_reducible first | assumption | apply fault_keeps | apply resetContext_keeps
      | split

theorem execInferenceHang_keeps {m : Part} {a : State} (a0 : Nat) (s : State) (h0 : m.ops = true) (h1 : m.evr = true) (h2 :
    m.rings = true) (h3 : m.mem = true) (h4 : m.grd = true) (h5 : m.tts = true) (h6 : m.srv = true) (h7 : m.fab = true) (h8 :
    m.syn = true) (h9 : m.hlt = true) (h10 : m.tiles = true) (h11 : m.out = true) (h12 : m.fresh = true) (h : Keeps m a s) :
    KeepsO m a (execInferenceHang a0 s) := by
  unfold execInferenceHang
  repeat' with_reducible first | assumption | apply inferenceHang_keeps | apply run_keeps

theorem execStepLedgerBind_keeps {m : Part} {a : State} (a0 : Nat) (s : State) (h0 : m.mbx = true) (h1 : m.evr = true) (h2 :
    m.srv = true) (h3 : m.out = true) (h : Keeps m a s) :
    KeepsO m a (execStepLedgerBind a0 s) := by
  unfold execStepLedgerBind
  repeat' first
      | with_reducible first | assumption | apply runCommand_keeps | apply run_keeps | apply stepLedgerBody_keeps
      | intro _

theorem hltResetBody_keeps {m : Part} {a : State} (a0 : Req) (s : State) (h0 : m.ops = true) (h1 : m.evr = true) (h2 : m.rings =
    true) (h3 : m.mem = true) (h4 : m.noon = true) (h5 : m.grd = true) (h6 : m.tts = true) (h7 : m.srv = true) (h8 : m.fab =
    true) (h9 : m.syn = true) (h10 : m.hlt = true) (h11 : m.tiles = true) (h12 : m.cells = true) (h13 : m.sweep = true) (h14 :
    m.out = true) (h15 : m.fresh = true) (h : Keeps m a s) :
    Keeps m a (hltResetBody a0 s).1 := by
  unfold hltResetBody
  repeat' first
      | with_reducible first
          | assumption | apply failed_keeps | apply longOp_keeps | apply beginGridReset_keeps | apply resetContext_keeps
      | intro _
      | split
      | (dsimp only)

theorem execHltReset_keeps {m : Part} {a : State} (a0 : Nat) (s : State) (h0 : m.dev = true) (h1 : m.mbx = true) (h2 : m.ops =
    true) (h3 : m.evr = true) (h4 : m.rings = true) (h5 : m.mem = true) (h6 : m.noon = true) (h7 : m.grd = true) (h8 : m.tts =
    true) (h9 : m.fh = true) (h10 : m.srv = true) (h11 : m.fab = true) (h12 : m.syn = true) (h13 : m.hlt = true) (h14 : m.tiles
    = true) (h15 : m.cells = true) (h16 : m.sweep = true) (h17 : m.mgt = true) (h18 : m.out = true) (h19 : m.fresh = true) (h :
    Keeps m a s) :
    KeepsO m a (execHltReset a0 s) := by
  unfold execHltReset
  repeat' first
      | with_reducible first
          | assumption | apply runCommand_keeps | apply hltResetBody_keeps | apply run_keeps | apply beginDeviceReset_keeps
      | split
      | intro _

/-! Machine/Power.lean -/

theorem setVcore_keeps {m : Part} {a : State} (a0 : Nat) (s : State) (h0 : m.pwr = true) (h : Keeps m a s) :
    Keeps m a (setVcore a0 s) := by
  unfold setVcore
  repeat' first
      | with_reducible first
          | assumption | apply updPwr_keeps | apply keeps_foldl | apply keeps_ite | apply keeps_ite_fst | apply keeps_ite_snd
          | exact fun _ h => h | exact fun h => h
      | intro _
      | split
      | (dsimp only)
      | (rename (_ = (_, (_ : State))) => hp; have e := congrArg Prod.snd hp; clear hp; dsimp only at e; subst e)
      | (rename (_ = ((_ : State), _)) => hp; have e := congrArg Prod.fst hp; clear hp; dsimp only at e; subst e)

theorem moveClock_keeps {m : Part} {a : State} (a0 : Nat) (s : State) (h0 : m.grd = true) (h1 : m.pwr = true) (h : Keeps m a
    s) :
    Keeps m a (moveClock a0 s) := by
  unfold moveClock
  repeat' first
      | with_reducible first | assumption | apply setVcore_keeps | apply updGrd_keeps | apply updPwr_keeps
      | split
      | (dsimp only)

theorem logPower_keeps {m : Part} {a : State} (a0 : Nat) (a1 : Int) (s : State) (h0 : m.mgt = true) (h1 : m.out = true) (h :
    Keeps m a s) :
    Keeps m a (logPower a0 a1 s) := by
  unfold logPower
  repeat' first
      | with_reducible first | assumption | apply emit_keeps | apply State.setMgt_keeps
      | intro _

theorem powerLimit_keeps {m : Part} {a : State} (a0 : Nat) (a1 : Nat) (a2 : Int) (s : State) (h0 : m.evr = true) (h1 : m.mgt =
    true) (h2 : m.out = true) (h : Keeps m a s) :
    Keeps m a (powerLimit a0 a1 a2 s) := by
  unfold powerLimit
  repeat' with_reducible first | assumption | apply logPower_keeps | apply post_keeps

theorem trip_keeps {m : Part} {a : State} (a0 : Nat) (a1 : Int) (s : State) (h0 : m.dev = true) (h1 : m.mem = true) (h2 : m.noon
    = true) (h3 : m.fh = true) (h4 : m.fab = true) (h5 : m.hlt = true) (h6 : m.pwr = true) (h7 : m.mgt = true) (h8 : m.out =
    true) (h : Keeps m a s) :
    Keeps m a (trip a0 a1 s) := by
  unfold trip
  repeat' first
      | with_reducible first
          | assumption | apply logPower_keeps | apply State.setMem_keeps | apply beginDeviceReset_keeps
          | apply State.setMgt_keeps | apply updPwr_keeps | exact memWf_nil
      | intro _
      | split

theorem controlPeriod_keeps {m : Part} {a : State} (a0 : Sensors) (s : State) (h0 : m.dev = true) (h1 : m.evr = true) (h2 :
    m.mem = true) (h3 : m.noon = true) (h4 : m.grd = true) (h5 : m.fh = true) (h6 : m.fab = true) (h7 : m.hlt = true) (h8 :
    m.pwr = true) (h9 : m.mgt = true) (h10 : m.out = true) (h : Keeps m a s) :
    Keeps m a (controlPeriod a0 s) := by
  unfold controlPeriod
  repeat' first
      | with_reducible first
          | assumption | apply moveClock_keeps | apply powerLimit_keeps | apply trip_keeps | apply updPwr_keeps
      | split
      | (dsimp only)

theorem execControlPeriod_keeps {m : Part} {a : State} (a0 : Sensors) (s : State) (h0 : m.dev = true) (h1 : m.evr = true) (h2 :
    m.mem = true) (h3 : m.noon = true) (h4 : m.grd = true) (h5 : m.fh = true) (h6 : m.fab = true) (h7 : m.hlt = true) (h8 :
    m.pwr = true) (h9 : m.mgt = true) (h10 : m.out = true) (h : Keeps m a s) :
    KeepsO m a (execControlPeriod a0 s) := by
  unfold execControlPeriod
  repeat' with_reducible first | assumption | apply run_keeps | apply controlPeriod_keeps

theorem inputUndervoltage_keeps {m : Part} {a : State} (a0 : Nat) (s : State) (h0 : m.evr = true) (h1 : m.pwr = true) (h2 :
    m.mgt = true) (h3 : m.out = true) (h : Keeps m a s) :
    Keeps m a (inputUndervoltage a0 s) := by
  unfold inputUndervoltage
  repeat' first
      | with_reducible first | assumption | apply powerLimit_keeps | apply updPwr_keeps
      | split
      | (dsimp only)

theorem clockStepUp_keeps {m : Part} {a : State} (s : State) (h0 : m.grd = true) (h1 : m.pwr = true) (h : Keeps m a s) :
    Keeps m a (clockStepUp s) := by
  unfold clockStepUp
  repeat' first
      | with_reducible first | assumption | apply updGrd_keeps | apply updPwr_keeps
      | split

theorem execClockStepUp_keeps {m : Part} {a : State} (s : State) (h0 : m.grd = true) (h1 : m.pwr = true) (h : Keeps m a s) :
    KeepsO m a (execClockStepUp s) := by
  unfold execClockStepUp
  repeat' with_reducible first | assumption | apply clockStepUp_keeps | apply run_keeps

theorem backgroundItemStart_keeps {m : Part} {a : State} (a0 : Nat) (a1 : BgItem) (s : State) (h0 : m.grd = true) (h : Keeps m a
    s) :
    Keeps m a (backgroundItemStart a0 a1 s) := by
  unfold backgroundItemStart
  repeat' first
      | with_reducible first | assumption | apply updUnit_keeps
      | split

theorem scrubBad_keeps {m : Part} {a : State} (a0 : Nat) (s : State) (a1 : Nat) (h0 : m.evr = true) (h1 : m.hlt = true) (h2 :
    m.out = true) (h : Keeps m a s) :
    Keeps m a (scrubBad a0 s a1) := by
  unfold scrubBad
  repeat' with_reducible first | assumption | apply fault_keeps | apply updHlt_keeps

theorem updBg_keeps {m : Part} {a : State} (a0 : Background → Background) (s : State) (h0 : m.bg = true) (h : Keeps m a s) :
    Keeps m a (updBg a0 s) := by
  unfold updBg
  repeat' with_reducible first | assumption | apply State.setBg_keeps

theorem bgDone_keeps {m : Part} {a : State} (a0 : Nat) (a1 : BgItem) (s : State) (h0 : m.bg = true) (h : Keeps m a s) :
    Keeps m a (bgDone a0 a1 s) := by
  unfold bgDone
  repeat' first
      | with_reducible first | assumption | apply updBg_keeps
      | split
      | (dsimp only)

theorem correctedErrors_keeps {m : Part} {a : State} (a0 : Nat) (s : State) (h0 : m.evr = true) (h1 : m.hlt = true) (h2 : m.out
    = true) (h : Keeps m a s) :
    Keeps m a (correctedErrors a0 s) := by
  unfold correctedErrors
  repeat' first
      | with_reducible first | assumption | apply updHlt_keeps | apply healthAdd_keeps
      | split
      | (dsimp only)

theorem ageing_keeps {m : Part} {a : State} (a0 : Nat) (a1 : Nat) (s : State) (h0 : m.evr = true) (h1 : m.out = true) (h :
    Keeps m a s) :
    Keeps m a (ageing a0 a1 s) := by
  unfold ageing
  repeat' with_reducible first | assumption | apply post_keeps

theorem regionOut_keeps {m : Part} {a : State} (s : State) (a0 : Nat) (h0 : m.evr = true) (h1 : m.hlt = true) (h2 : m.pwr =
    true) (h3 : m.out = true) (h : Keeps m a s) :
    Keeps m a (regionOut s a0) := by
  unfold regionOut
  repeat' first
      | with_reducible first
          | assumption | apply ageing_keeps | apply fault_keeps | apply updHlt_keeps | apply unitFault_keeps
          | apply updPwr_keeps | apply keeps_foldl
      | intro _
      | split

theorem measured_keeps {m : Part} {a : State} (a0 : List (Nat × Nat)) (s : State) (h0 : m.evr = true) (h1 : m.hlt = true) (h2 :
    m.pwr = true) (h3 : m.out = true) (h : Keeps m a s) :
    Keeps m a (measured a0 s) := by
  unfold measured
  repeat' first
      | with_reducible first
          | assumption | apply setVcore_keeps | apply regionOut_keeps | apply ageing_keeps | apply updPwr_keeps
          | apply keeps_foldl
      | intro _
      | split
      | (dsimp only)

theorem backgroundItemEnd_keeps {m : Part} {a : State} (a0 : Nat) (a1 : BgResult) (s : State) (h0 : m.evr = true) (h1 : m.grd =
    true) (h2 : m.hlt = true) (h3 : m.tiles = true) (h4 : m.pwr = true) (h5 : m.bg = true) (h6 : m.out = true) (h : Keeps m a
    s) :
    Keeps m a (backgroundItemEnd a0 a1 s) := by
  unfold backgroundItemEnd
  repeat' first
      | with_reducible first
          | assumption | apply bgDone_keeps | apply correctedErrors_keeps | apply clearUnits_keeps | apply measured_keeps
          | apply unitFault_keeps | apply scrubBad_keeps | apply keeps_foldl
      | intro _
      | split

theorem powerFault_keeps {m : Part} {a : State} (a0 : Nat) (s : State) (h0 : m.dev = true) (h1 : m.mem = true) (h2 : m.noon =
    true) (h3 : m.fh = true) (h4 : m.fab = true) (h5 : m.hlt = true) (h6 : m.pwr = true) (h7 : m.mgt = true) (h8 : m.out = true)
    (h : Keeps m a s) :
    Keeps m a (powerFault a0 s) := by
  unfold powerFault
  repeat' first
      | with_reducible first | assumption | apply trip_keeps
      | split

theorem pwrCapBody_keeps {m : Part} {a : State} (a0 : Req) (s : State) (h0 : m.pwr = true) (h : Keeps m a s) :
    Keeps m a (pwrCapBody a0 s).1 := by
  unfold pwrCapBody
  repeat' first
      | with_reducible first | assumption | apply failed_keeps | apply updPwr_keeps
      | split
      | (dsimp only)

theorem execBackgroundItemStart_keeps {m : Part} {a : State} (a0 : Nat) (a1 : BgItem) (s : State) (h0 : m.grd = true) (h :
    Keeps m a s) :
    KeepsO m a (execBackgroundItemStart a0 a1 s) := by
  unfold execBackgroundItemStart
  repeat' with_reducible first | assumption | apply backgroundItemStart_keeps | apply run_keeps | apply runOn_keeps

theorem execPwrCap_keeps {m : Part} {a : State} (a0 : Nat) (s : State) (h0 : m.mbx = true) (h1 : m.evr = true) (h2 : m.pwr =
    true) (h3 : m.out = true) (h : Keeps m a s) :
    KeepsO m a (execPwrCap a0 s) := by
  unfold execPwrCap
  repeat' first
      | with_reducible first | assumption | apply runCommand_keeps | apply pwrCapBody_keeps | apply run_keeps
      | intro _

theorem strideStart_keeps {m : Part} {a : State} (s : State) (h0 : m.bg = true) (h : Keeps m a s) :
    Keeps m a (strideStart s) := by
  unfold strideStart
  repeat' first
      | with_reducible first | assumption | apply updBg_keeps
      | split
      | (dsimp only)

theorem execStrideStart_keeps {m : Part} {a : State} (s : State) (h0 : m.bg = true) (h : Keeps m a s) :
    KeepsO m a (execStrideStart s) := by
  unfold execStrideStart
  repeat' with_reducible first | assumption | apply strideStart_keeps | apply run_keeps

theorem inputRestored_keeps {m : Part} {a : State} (a0 : Nat) (s : State) (h0 : m.evr = true) (h1 : m.pwr = true) (h2 : m.mgt =
    true) (h3 : m.out = true) (h : Keeps m a s) :
    Keeps m a (inputRestored a0 s) := by
  unfold inputRestored
  repeat' first
      | with_reducible first | assumption | apply powerLimit_keeps | apply updPwr_keeps
      | split

theorem execInputRestored_keeps {m : Part} {a : State} (a0 : Nat) (s : State) (h0 : m.evr = true) (h1 : m.pwr = true) (h2 :
    m.mgt = true) (h3 : m.out = true) (h : Keeps m a s) :
    KeepsO m a (execInputRestored a0 s) := by
  unfold execInputRestored
  repeat' with_reducible first | assumption | apply inputRestored_keeps | apply run_keeps

theorem execBackgroundItemEnd_keeps {m : Part} {a : State} (a0 : Nat) (a1 : BgResult) (s : State) (h0 : m.evr = true) (h1 :
    m.grd = true) (h2 : m.hlt = true) (h3 : m.tiles = true) (h4 : m.pwr = true) (h5 : m.bg = true) (h6 : m.out = true) (h :
    Keeps m a s) :
    KeepsO m a (execBackgroundItemEnd a0 a1 s) := by
  unfold execBackgroundItemEnd
  repeat' with_reducible first | assumption | apply run_keeps | apply backgroundItemEnd_keeps | apply runOn_keeps

theorem execInputUndervoltage_keeps {m : Part} {a : State} (a0 : Nat) (s : State) (h0 : m.evr = true) (h1 : m.pwr = true) (h2 :
    m.mgt = true) (h3 : m.out = true) (h : Keeps m a s) :
    KeepsO m a (execInputUndervoltage a0 s) := by
  unfold execInputUndervoltage
  repeat' with_reducible first | assumption | apply inputUndervoltage_keeps | apply run_keeps

theorem bgConfigBody_keeps {m : Part} {a : State} (a0 : Req) (s : State) (h0 : m.ops = true) (h1 : m.evr = true) (h2 : m.rings =
    true) (h3 : m.mem = true) (h4 : m.grd = true) (h5 : m.tts = true) (h6 : m.srv = true) (h7 : m.fab = true) (h8 : m.syn =
    true) (h9 : m.hlt = true) (h10 : m.tiles = true) (h11 : m.bg = true) (h12 : m.out = true) (h13 : m.fresh = true) (h :
    Keeps m a s) :
    Keeps m a (bgConfigBody a0 s).1 := by
  unfold bgConfigBody
  repeat' first
      | with_reducible first | assumption | apply failed_keeps | apply updBg_keeps | apply tablesChanged_keeps
      | split
      | (dsimp only)

theorem execBgConfig_keeps {m : Part} {a : State} (a0 : Nat) (s : State) (h0 : m.mbx = true) (h1 : m.ops = true) (h2 : m.evr =
    true) (h3 : m.rings = true) (h4 : m.mem = true) (h5 : m.grd = true) (h6 : m.tts = true) (h7 : m.srv = true) (h8 : m.fab =
    true) (h9 : m.syn = true) (h10 : m.hlt = true) (h11 : m.tiles = true) (h12 : m.bg = true) (h13 : m.out = true) (h14 :
    m.fresh = true) (h : Keeps m a s) :
    KeepsO m a (execBgConfig a0 s) := by
  unfold execBgConfig
  repeat' first
      | with_reducible first | assumption | apply bgConfigBody_keeps | apply runCommand_keeps | apply run_keeps
      | intro _

theorem execPowerFault_keeps {m : Part} {a : State} (a0 : Nat) (s : State) (h0 : m.dev = true) (h1 : m.mem = true) (h2 : m.noon
    = true) (h3 : m.fh = true) (h4 : m.fab = true) (h5 : m.hlt = true) (h6 : m.pwr = true) (h7 : m.mgt = true) (h8 : m.out =
    true) (h : Keeps m a s) :
    KeepsO m a (execPowerFault a0 s) := by
  unfold execPowerFault
  repeat' with_reducible first | assumption | apply powerFault_keeps | apply run_keeps

/-! Machine/Dawn.lean -/

theorem execEntropyTestsPass_keeps {m : Part} {a : State} (s : State) (h0 : m.mgt = true) (h : Keeps m a s) :
    KeepsO m a (execEntropyTestsPass s) := by
  unfold execEntropyTestsPass
  repeat' first
      | with_reducible first | assumption | apply updMgt_keeps | apply run_keeps
      | intro _

theorem dawnService_keeps {m : Part} {a : State} (a0 : DawnEnv) (a1 : List Byte) (a2 : List Byte) (a3 : List Byte) (s : State)
    (h0 : m.dev = true) (h1 : m.evr = true) (h2 : m.tel = true) (h3 : m.grd = true) (h4 : m.tts = true) (h5 : m.fh = true) (h6 :
    m.syn = true) (h7 : m.hlt = true) (h8 : m.pwr = true) (h9 : m.mgt = true) (h10 : m.out = true) (h11 : m.fresh = true) (h :
    Keeps m a s) :
    Keeps m a (dawnService a0 a1 a2 a3 s) := by
  unfold dawnService
  repeat' first
      | with_reducible first
          | assumption | apply State.setSyn_keeps | apply linkTraining_keeps | apply updMgt_keeps | apply updFh_keeps
          | apply State.setTel_keeps | apply State.setDev_keeps | apply measured_keeps | apply unitFault_keeps
          | apply updTts_keeps | apply drawEntropy_keeps | apply updGrd_keeps | apply updPwr_keeps | apply keeps_foldl
      | intro _

theorem coldState_keeps {m : Part} {a : State} (s : State) (h0 : m.dev = true) (h1 : m.mbx = true) (h2 : m.ops = true) (h3 :
    m.evr = true) (h4 : m.rings = true) (h5 : m.tel = true) (h6 : m.mem = true) (h7 : m.tmb = true) (h8 : m.win = true) (h9 :
    m.pps = true) (h10 : m.noon = true) (h11 : m.grd = true) (h12 : m.tts = true) (h13 : m.fh = true) (h14 : m.srv = true)
    (h15 : m.fab = true) (h16 : m.syn = true) (h17 : m.parts = true) (h18 : m.quarantine = true) (h19 : m.hlt = true) (h20 :
    m.tiles = true) (h21 : m.cde = true) (h22 : m.cells = true) (h23 : m.sweep = true) (h24 : m.mbr = true) (h25 : m.pwr = true)
    (h26 : m.bg = true) (h27 : m.mgt = true) (h : Keeps m a s) :
    Keeps m a (coldState s) := by
  exact ⟨by simpa [coldState, State.erase, State.reset, *] using h.1, fun ha => ⟨memWf_nil, (h.2 ha).2.1, List.Pairwise.nil⟩⟩

theorem dawnStop_keeps {m : Part} {a : State} (a0 : DawnMode) (a1 : Nat) (a2 : Nat) (s : State) (h0 : m.dev = true) (h1 : m.mbx
    = true) (h2 : m.ops = true) (h3 : m.evr = true) (h4 : m.rings = true) (h5 : m.tel = true) (h6 : m.mem = true) (h7 : m.tmb =
    true) (h8 : m.win = true) (h9 : m.pps = true) (h10 : m.noon = true) (h11 : m.grd = true) (h12 : m.tts = true) (h13 : m.fh =
    true) (h14 : m.srv = true) (h15 : m.fab = true) (h16 : m.syn = true) (h17 : m.parts = true) (h18 : m.quarantine = true)
    (h19 : m.hlt = true) (h20 : m.tiles = true) (h21 : m.cde = true) (h22 : m.cells = true) (h23 : m.sweep = true) (h24 : m.mbr
    = true) (h25 : m.pwr = true) (h26 : m.bg = true) (h27 : m.mgt = true) (h : Keeps m a s) :
    Keeps m a (dawnStop a0 a1 a2 s) := by
  unfold dawnStop
  repeat' first
      | with_reducible first | assumption | apply updMgt_keeps | apply coldState_keeps
      | intro _

theorem dawnFrom3_keeps {m : Part} {a : State} (a0 : DawnEnv) (s : State) (h0 : m.dev = true) (h1 : m.mbx = true) (h2 : m.ops =
    true) (h3 : m.evr = true) (h4 : m.rings = true) (h5 : m.tel = true) (h6 : m.mem = true) (h7 : m.tmb = true) (h8 : m.win =
    true) (h9 : m.pps = true) (h10 : m.noon = true) (h11 : m.grd = true) (h12 : m.tts = true) (h13 : m.fh = true) (h14 : m.srv =
    true) (h15 : m.fab = true) (h16 : m.syn = true) (h17 : m.parts = true) (h18 : m.quarantine = true) (h19 : m.hlt = true)
    (h20 : m.tiles = true) (h21 : m.cde = true) (h22 : m.cells = true) (h23 : m.sweep = true) (h24 : m.mbr = true) (h25 : m.pwr
    = true) (h26 : m.bg = true) (h27 : m.mgt = true) (h28 : m.out = true) (h29 : m.fresh = true) (h : Keeps m a s) :
    Keeps m a (dawnFrom3 a0 s) := by
  unfold dawnFrom3
  repeat' first
      | with_reducible first
          | assumption | apply updMgt_keeps | apply dawnService_keeps | apply State.setTmb_keeps | apply dawnStop_keeps
      | intro _
      | split
      | (dsimp only)

theorem dawnRun_keeps {m : Part} {a : State} (a0 : DawnEnv) (s : State) (h0 : m.dev = true) (h1 : m.mbx = true) (h2 : m.ops =
    true) (h3 : m.evr = true) (h4 : m.rings = true) (h5 : m.tel = true) (h6 : m.mem = true) (h7 : m.tmb = true) (h8 : m.win =
    true) (h9 : m.pps = true) (h10 : m.noon = true) (h11 : m.grd = true) (h12 : m.tts = true) (h13 : m.fh = true) (h14 : m.srv =
    true) (h15 : m.fab = true) (h16 : m.syn = true) (h17 : m.parts = true) (h18 : m.quarantine = true) (h19 : m.hlt = true)
    (h20 : m.tiles = true) (h21 : m.cde = true) (h22 : m.cells = true) (h23 : m.sweep = true) (h24 : m.mbr = true) (h25 : m.pwr
    = true) (h26 : m.bg = true) (h27 : m.mgt = true) (h28 : m.out = true) (h29 : m.fresh = true) (h : Keeps m a s) :
    Keeps m a (dawnRun a0 s) := by
  unfold dawnRun
  repeat' first
      | with_reducible first
          | assumption | apply dawnFrom3_keeps | apply updMgt_keeps | apply dawnStop_keeps | apply coldState_keeps
      | intro _
      | split

theorem dawn_keeps {m : Part} {a : State} (a0 : DawnEnv) (s : State) (h0 : m.dev = true) (h1 : m.mbx = true) (h2 : m.ops = true)
    (h3 : m.evr = true) (h4 : m.rings = true) (h5 : m.tel = true) (h6 : m.mem = true) (h7 : m.tmb = true) (h8 : m.win = true)
    (h9 : m.pps = true) (h10 : m.noon = true) (h11 : m.grd = true) (h12 : m.tts = true) (h13 : m.fh = true) (h14 : m.srv = true)
    (h15 : m.fab = true) (h16 : m.syn = true) (h17 : m.parts = true) (h18 : m.quarantine = true) (h19 : m.hlt = true) (h20 :
    m.tiles = true) (h21 : m.cde = true) (h22 : m.cells = true) (h23 : m.sweep = true) (h24 : m.mbr = true) (h25 : m.pwr = true)
    (h26 : m.bg = true) (h27 : m.mgt = true) (h28 : m.out = true) (h29 : m.fresh = true) (h : Keeps m a s) :
    Keeps m a (dawn a0 s) := by
  unfold dawn
  repeat' first
      | with_reducible first | assumption | apply dawnRun_keeps
      | split

theorem execDawn_keeps {m : Part} {a : State} (a0 : DawnEnv) (s : State) (h0 : m.dev = true) (h1 : m.mbx = true) (h2 : m.ops =
    true) (h3 : m.evr = true) (h4 : m.rings = true) (h5 : m.tel = true) (h6 : m.mem = true) (h7 : m.tmb = true) (h8 : m.win =
    true) (h9 : m.pps = true) (h10 : m.noon = true) (h11 : m.grd = true) (h12 : m.tts = true) (h13 : m.fh = true) (h14 : m.srv =
    true) (h15 : m.fab = true) (h16 : m.syn = true) (h17 : m.parts = true) (h18 : m.quarantine = true) (h19 : m.hlt = true)
    (h20 : m.tiles = true) (h21 : m.cde = true) (h22 : m.cells = true) (h23 : m.sweep = true) (h24 : m.mbr = true) (h25 : m.pwr
    = true) (h26 : m.bg = true) (h27 : m.mgt = true) (h28 : m.out = true) (h29 : m.fresh = true) (h : Keeps m a s) :
    KeepsO m a (execDawn a0 s) := by
  unfold execDawn
  repeat' with_reducible first | assumption | apply dawn_keeps | apply run_keeps

theorem vstbyLoss_keeps {m : Part} {a : State} (s : State) (h0 : m.dev = true) (h1 : m.mbx = true) (h2 : m.ops = true) (h3 :
    m.evr = true) (h4 : m.rings = true) (h5 : m.tel = true) (h6 : m.mem = true) (h7 : m.tmb = true) (h8 : m.win = true) (h9 :
    m.pps = true) (h10 : m.noon = true) (h11 : m.grd = true) (h12 : m.tts = true) (h13 : m.fh = true) (h14 : m.srv = true)
    (h15 : m.fab = true) (h16 : m.syn = true) (h17 : m.parts = true) (h18 : m.quarantine = true) (h19 : m.hlt = true) (h20 :
    m.tiles = true) (h21 : m.cde = true) (h22 : m.cells = true) (h23 : m.sweep = true) (h24 : m.mbr = true) (h25 : m.pwr = true)
    (h26 : m.bg = true) (h27 : m.mgt = true) (h28 : m.tap = true) (h : Keeps m a s) :
    Keeps m a (vstbyLoss s) := by
  refine State.setMgt_keeps _ _ (fun w => w) ‹_› (State.setTap_keeps _ _ ‹_› ?_)
  apply coldState_keeps <;> assumption

theorem execVstbyLoss_keeps {m : Part} {a : State} (s : State) (h0 : m.dev = true) (h1 : m.mbx = true) (h2 : m.ops = true) (h3 :
    m.evr = true) (h4 : m.rings = true) (h5 : m.tel = true) (h6 : m.mem = true) (h7 : m.tmb = true) (h8 : m.win = true) (h9 :
    m.pps = true) (h10 : m.noon = true) (h11 : m.grd = true) (h12 : m.tts = true) (h13 : m.fh = true) (h14 : m.srv = true)
    (h15 : m.fab = true) (h16 : m.syn = true) (h17 : m.parts = true) (h18 : m.quarantine = true) (h19 : m.hlt = true) (h20 :
    m.tiles = true) (h21 : m.cde = true) (h22 : m.cells = true) (h23 : m.sweep = true) (h24 : m.mbr = true) (h25 : m.pwr = true)
    (h26 : m.bg = true) (h27 : m.mgt = true) (h28 : m.tap = true) (h : Keeps m a s) :
    KeepsO m a (execVstbyLoss s) := by
  unfold execVstbyLoss
  repeat' with_reducible first | assumption | apply vstbyLoss_keeps | apply run_keeps

theorem perstAssert_keeps {m : Part} {a : State} (s : State) (h0 : m.dev = true) (h1 : m.noon = true) (h2 : m.fh = true) (h3 :
    m.fab = true) (h4 : m.hlt = true) (h5 : m.mgt = true) (h6 : m.tap = true) (h : Keeps m a s) :
    Keeps m a (perstAssert s) := by
  unfold perstAssert
  repeat' first
      | with_reducible first | assumption | apply State.setTap_keeps | apply updMgt_keeps | apply beginDeviceReset_keeps
      | intro _
      | split
      | (dsimp only)

theorem execCxlPerstAssert_keeps {m : Part} {a : State} (s : State) (h0 : m.dev = true) (h1 : m.noon = true) (h2 : m.fh = true)
    (h3 : m.fab = true) (h4 : m.hlt = true) (h5 : m.mgt = true) (h6 : m.tap = true) (h : Keeps m a s) :
    KeepsO m a (execCxlPerstAssert s) := by
  unfold execCxlPerstAssert
  repeat' with_reducible first | assumption | apply perstAssert_keeps | apply run_keeps

theorem execEntropyTestFailure_keeps {m : Part} {a : State} (s : State) (h0 : m.mgt = true) (h : Keeps m a s) :
    KeepsO m a (execEntropyTestFailure s) := by
  unfold execEntropyTestFailure
  repeat' first
      | with_reducible first | assumption | apply updMgt_keeps | apply run_keeps
      | intro _

theorem refReturn_keeps {m : Part} {a : State} (s : State) (h0 : m.dev = true) (h1 : m.mbx = true) (h2 : m.ops = true) (h3 :
    m.evr = true) (h4 : m.rings = true) (h5 : m.tel = true) (h6 : m.mem = true) (h7 : m.tmb = true) (h8 : m.win = true) (h9 :
    m.pps = true) (h10 : m.noon = true) (h11 : m.grd = true) (h12 : m.tts = true) (h13 : m.fh = true) (h14 : m.srv = true)
    (h15 : m.fab = true) (h16 : m.syn = true) (h17 : m.parts = true) (h18 : m.quarantine = true) (h19 : m.hlt = true) (h20 :
    m.tiles = true) (h21 : m.cde = true) (h22 : m.cells = true) (h23 : m.sweep = true) (h24 : m.mbr = true) (h25 : m.pwr = true)
    (h26 : m.bg = true) (h27 : m.mgt = true) (h28 : m.out = true) (h29 : m.fresh = true) (h : Keeps m a s) :
    Keeps m a (refReturn s) := by
  unfold refReturn
  repeat' first
      | with_reducible first | assumption | apply dawnFrom3_keeps | apply updTmb_keeps | apply post_keeps
      | split

theorem execRefReturn_keeps {m : Part} {a : State} (s : State) (h0 : m.dev = true) (h1 : m.mbx = true) (h2 : m.ops = true) (h3 :
    m.evr = true) (h4 : m.rings = true) (h5 : m.tel = true) (h6 : m.mem = true) (h7 : m.tmb = true) (h8 : m.win = true) (h9 :
    m.pps = true) (h10 : m.noon = true) (h11 : m.grd = true) (h12 : m.tts = true) (h13 : m.fh = true) (h14 : m.srv = true)
    (h15 : m.fab = true) (h16 : m.syn = true) (h17 : m.parts = true) (h18 : m.quarantine = true) (h19 : m.hlt = true) (h20 :
    m.tiles = true) (h21 : m.cde = true) (h22 : m.cells = true) (h23 : m.sweep = true) (h24 : m.mbr = true) (h25 : m.pwr = true)
    (h26 : m.bg = true) (h27 : m.mgt = true) (h28 : m.out = true) (h29 : m.fresh = true) (h : Keeps m a s) :
    KeepsO m a (execRefReturn s) := by
  unfold execRefReturn
  repeat' with_reducible first | assumption | apply refReturn_keeps | apply run_keeps

theorem perstDeassert_keeps {m : Part} {a : State} (s : State) (h0 : m.mgt = true) (h1 : m.tap = true) (h : Keeps m a s) :
    Keeps m a (perstDeassert s) := by
  unfold perstDeassert
  repeat' first
      | with_reducible first | assumption | apply State.setTap_keeps | apply updMgt_keeps
      | intro _
      | split

theorem execCxlPerstDeassert_keeps {m : Part} {a : State} (s : State) (h0 : m.mgt = true) (h1 : m.tap = true) (h : Keeps m a
    s) :
    KeepsO m a (execCxlPerstDeassert s) := by
  unfold execCxlPerstDeassert
  repeat' with_reducible first | assumption | apply run_keeps | apply perstDeassert_keeps

/-! Machine/Member.lean -/

theorem updMbr_keeps {m : Part} {a : State} (a0 : Membership → Membership) (s : State) (h0 : m.mbr = true) (h : Keeps m a s) :
    Keeps m a (updMbr a0 s) := by
  unfold updMbr
  repeat' with_reducible first | assumption | apply State.setMbr_keeps

theorem exclude_keeps {m : Part} {a : State} (s : State) (h0 : m.evr = true) (h1 : m.fh = true) (h2 : m.hlt = true) (h3 :
    m.cells = true) (h4 : m.sweep = true) (h5 : m.mbr = true) (h6 : m.out = true) (h : Keeps m a s) :
    Keeps m a (exclude s) := by
  unfold exclude
  repeat' first
      | with_reducible first
          | assumption | apply fault_keeps | apply destroyCell_keeps | apply updMbr_keeps | apply keeps_foldl
      | intro _
      | split

theorem takeOvers_keeps {m : Part} {a : State} (a0 : List Nat) (a1 : Nat) (s : State) (h0 : m.evr = true) (h1 : m.rings = true)
    (h2 : m.mem = true) (h3 : m.fh = true) (h4 : m.cells = true) (h5 : m.sweep = true) (h6 : m.out = true) (h : Keeps m a s) :
    Keeps m a (takeOvers a0 a1 s) := by
  unfold takeOvers
  repeat' first
      | with_reducible first | assumption | apply takeOver_keeps | apply keeps_foldl
      | intro _

theorem enterTwilight_keeps {m : Part} {a : State} (s : State) (h0 : m.dev = true) (h1 : m.ops = true) (h2 : m.evr = true) (h3 :
    m.rings = true) (h4 : m.mem = true) (h5 : m.grd = true) (h6 : m.tts = true) (h7 : m.srv = true) (h8 : m.fab = true) (h9 :
    m.syn = true) (h10 : m.hlt = true) (h11 : m.tiles = true) (h12 : m.out = true) (h13 : m.fresh = true) (h : Keeps m a s) :
    Keeps m a (enterTwilight s) := by
  unfold enterTwilight
  repeat' first
      | with_reducible first
          | assumption | apply endOne_keeps | apply dropNotStarted_keeps | apply State.setDev_keeps | apply settleSteps_keeps
          | apply keeps_foldl
      | intro _
      | split

theorem adopt_keeps {m : Part} {a : State} (a0 : Proposal) (a1 : Nat) (s : State) (h0 : m.dev = true) (h1 : m.ops = true) (h2 :
    m.evr = true) (h3 : m.rings = true) (h4 : m.mem = true) (h5 : m.grd = true) (h6 : m.tts = true) (h7 : m.fh = true) (h8 :
    m.srv = true) (h9 : m.fab = true) (h10 : m.syn = true) (h11 : m.hlt = true) (h12 : m.tiles = true) (h13 : m.cells = true)
    (h14 : m.sweep = true) (h15 : m.mbr = true) (h16 : m.out = true) (h17 : m.fresh = true) (h : Keeps m a s) :
    Keeps m a (adopt a0 a1 s) := by
  unfold adopt
  repeat' first
      | with_reducible first
          | assumption | apply finishOp_keeps | apply exclude_keeps | apply updHlt_keeps | apply updMbr_keeps
          | apply post_keeps | apply State.setDev_keeps | apply takeOvers_keeps | apply enterTwilight_keeps
          | apply keeps_foldl
      | intro _
      | split
      | (dsimp only)

theorem sendAll_keeps {m : Part} {a : State} (a0 : List Nat) (a1 : Nat → Out) (s : State) (h0 : m.out = true) (h : Keeps m a
    s) :
    Keeps m a (sendAll a0 a1 s) := by
  unfold sendAll
  repeat' with_reducible first | assumption | apply State.setOut_keeps

theorem tryCommit_keeps {m : Part} {a : State} (s : State) (h0 : m.dev = true) (h1 : m.ops = true) (h2 : m.evr = true) (h3 :
    m.rings = true) (h4 : m.mem = true) (h5 : m.grd = true) (h6 : m.tts = true) (h7 : m.fh = true) (h8 : m.srv = true) (h9 :
    m.fab = true) (h10 : m.syn = true) (h11 : m.hlt = true) (h12 : m.tiles = true) (h13 : m.cells = true) (h14 : m.sweep = true)
    (h15 : m.mbr = true) (h16 : m.out = true) (h17 : m.fresh = true) (h : Keeps m a s) :
    Keeps m a (tryCommit s) := by
  unfold tryCommit
  repeat' first
      | with_reducible first | assumption | apply adopt_keeps | apply sendAll_keeps
      | split

theorem tryPropose_keeps {m : Part} {a : State} (s : State) (h0 : m.dev = true) (h1 : m.ops = true) (h2 : m.evr = true) (h3 :
    m.rings = true) (h4 : m.mem = true) (h5 : m.grd = true) (h6 : m.tts = true) (h7 : m.fh = true) (h8 : m.srv = true) (h9 :
    m.fab = true) (h10 : m.syn = true) (h11 : m.hlt = true) (h12 : m.tiles = true) (h13 : m.cells = true) (h14 : m.sweep = true)
    (h15 : m.mbr = true) (h16 : m.out = true) (h17 : m.fresh = true) (h : Keeps m a s) :
    Keeps m a (tryPropose s) := by
  unfold tryPropose
  repeat' first
      | with_reducible first | assumption | apply updMbr_keeps | apply sendAll_keeps | apply tryCommit_keeps
      | split

theorem promise_keeps {m : Part} {a : State} (a0 : Nat) (a1 : Nat) (a2 : Nat) (a3 : Option Proposal) (s : State) (h0 : m.dev =
    true) (h1 : m.ops = true) (h2 : m.evr = true) (h3 : m.rings = true) (h4 : m.mem = true) (h5 : m.grd = true) (h6 : m.tts =
    true) (h7 : m.fh = true) (h8 : m.srv = true) (h9 : m.fab = true) (h10 : m.syn = true) (h11 : m.hlt = true) (h12 : m.tiles =
    true) (h13 : m.cells = true) (h14 : m.sweep = true) (h15 : m.mbr = true) (h16 : m.out = true) (h17 : m.fresh = true) (h :
    Keeps m a s) :
    Keeps m a (promise a0 a1 a2 a3 s) := by
  unfold promise
  repeat' first
      | with_reducible first | assumption | apply updMbr_keeps | apply tryPropose_keeps
      | split

theorem startRound_keeps {m : Part} {a : State} (a0 : Proposal) (s : State) (h0 : m.dev = true) (h1 : m.ops = true) (h2 : m.evr
    = true) (h3 : m.rings = true) (h4 : m.mem = true) (h5 : m.grd = true) (h6 : m.tts = true) (h7 : m.fh = true) (h8 : m.srv =
    true) (h9 : m.fab = true) (h10 : m.syn = true) (h11 : m.hlt = true) (h12 : m.tiles = true) (h13 : m.cells = true) (h14 :
    m.sweep = true) (h15 : m.mbr = true) (h16 : m.out = true) (h17 : m.fresh = true) (h : Keeps m a s) :
    Keeps m a (startRound a0 s) := by
  unfold startRound
  repeat' with_reducible first | assumption | apply updMbr_keeps | apply sendAll_keeps | apply tryPropose_keeps

theorem consider_keeps {m : Part} {a : State} (s : State) (h0 : m.dev = true) (h1 : m.ops = true) (h2 : m.evr = true) (h3 :
    m.rings = true) (h4 : m.mem = true) (h5 : m.grd = true) (h6 : m.tts = true) (h7 : m.fh = true) (h8 : m.srv = true) (h9 :
    m.fab = true) (h10 : m.syn = true) (h11 : m.hlt = true) (h12 : m.tiles = true) (h13 : m.cells = true) (h14 : m.sweep = true)
    (h15 : m.mbr = true) (h16 : m.out = true) (h17 : m.fresh = true) (h : Keeps m a s) :
    Keeps m a (consider s) := by
  unfold consider
  repeat' first
      | with_reducible first | assumption | apply startRound_keeps
      | split

theorem memberSuspectBody_keeps {m : Part} {a : State} (a0 : Req) (s : State) (h0 : m.mbr = true) (h : Keeps m a s) :
    Keeps m a (memberSuspectBody a0 s).1 := by
  unfold memberSuspectBody
  repeat' first
      | with_reducible first | assumption | apply failed_keeps | apply updMbr_keeps
      | split
      | (dsimp only)

theorem execMemberSuspect_keeps {m : Part} {a : State} (a0 : Nat) (s : State) (h0 : m.dev = true) (h1 : m.mbx = true) (h2 :
    m.ops = true) (h3 : m.evr = true) (h4 : m.rings = true) (h5 : m.mem = true) (h6 : m.grd = true) (h7 : m.tts = true) (h8 :
    m.fh = true) (h9 : m.srv = true) (h10 : m.fab = true) (h11 : m.syn = true) (h12 : m.hlt = true) (h13 : m.tiles = true)
    (h14 : m.cells = true) (h15 : m.sweep = true) (h16 : m.mbr = true) (h17 : m.out = true) (h18 : m.fresh = true) (h :
    Keeps m a s) :
    KeepsO m a (execMemberSuspect a0 s) := by
  unfold execMemberSuspect
  repeat' first
      | with_reducible first
          | assumption | apply runCommand_keeps | apply consider_keeps | apply memberSuspectBody_keeps | apply run_keeps
      | intro _

theorem memberConfigBody_keeps {m : Part} {a : State} (a0 : Req) (s : State) (h0 : m.mbr = true) (h : Keeps m a s) :
    Keeps m a (memberConfigBody a0 s).1 := by
  unfold memberConfigBody
  repeat' first
      | with_reducible first | assumption | apply failed_keeps | apply updMbr_keeps
      | split
      | (dsimp only)

theorem prepare_keeps {m : Part} {a : State} (a0 : Nat) (a1 : Nat) (a2 : Nat) (s : State) (h0 : m.mbr = true) (h1 : m.out =
    true) (h : Keeps m a s) :
    Keeps m a (prepare a0 a1 a2 s) := by
  unfold prepare
  repeat' first
      | with_reducible first | assumption | apply emit_keeps | apply updMbr_keeps
      | split

theorem memberQueryBody_keeps {m : Part} {a : State} (a0 : Req) (s : State) (h : Keeps m a s) :
    Keeps m a (memberQueryBody a0 s).1 := by
  unfold memberQueryBody
  repeat' with_reducible assumption

theorem execMemberQuery_keeps {m : Part} {a : State} (a0 : Nat) (s : State) (h0 : m.mbx = true) (h1 : m.evr = true) (h2 : m.out
    = true) (h : Keeps m a s) :
    KeepsO m a (execMemberQuery a0 s) := by
  unfold execMemberQuery
  repeat' with_reducible first | assumption | apply runCommand_keeps | apply memberQueryBody_keeps | apply run_keeps

theorem execPromise_keeps {m : Part} {a : State} (a0 : Nat) (a1 : Nat) (a2 : Nat) (a3 : Option Proposal) (s : State) (h0 : m.dev
    = true) (h1 : m.ops = true) (h2 : m.evr = true) (h3 : m.rings = true) (h4 : m.mem = true) (h5 : m.grd = true) (h6 : m.tts =
    true) (h7 : m.fh = true) (h8 : m.srv = true) (h9 : m.fab = true) (h10 : m.syn = true) (h11 : m.hlt = true) (h12 : m.tiles =
    true) (h13 : m.cells = true) (h14 : m.sweep = true) (h15 : m.mbr = true) (h16 : m.out = true) (h17 : m.fresh = true) (h :
    Keeps m a s) :
    KeepsO m a (execPromise a0 a1 a2 a3 s) := by
  unfold execPromise
  repeat' with_reducible first | assumption | apply promise_keeps | apply run_keeps

theorem proposal_keeps {m : Part} {a : State} (a0 : Nat) (a1 : Proposal) (s : State) (h0 : m.mbr = true) (h1 : m.out = true)
    (h : Keeps m a s) :
    Keeps m a (proposal a0 a1 s) := by
  unfold proposal
  repeat' first
      | with_reducible first | assumption | apply emit_keeps | apply updMbr_keeps
      | split

theorem heartbeatSend_keeps {m : Part} {a : State} (s : State) (h0 : m.dev = true) (h1 : m.ops = true) (h2 : m.evr = true) (h3 :
    m.rings = true) (h4 : m.mem = true) (h5 : m.grd = true) (h6 : m.tts = true) (h7 : m.fh = true) (h8 : m.srv = true) (h9 :
    m.fab = true) (h10 : m.syn = true) (h11 : m.hlt = true) (h12 : m.tiles = true) (h13 : m.cells = true) (h14 : m.sweep = true)
    (h15 : m.mbr = true) (h16 : m.out = true) (h17 : m.fresh = true) (h : Keeps m a s) :
    Keeps m a (heartbeatSend s) := by
  unfold heartbeatSend
  repeat' first
      | with_reducible first
          | assumption | apply exclude_keeps | apply consider_keeps | apply updMbr_keeps | apply sendAll_keeps
      | split
      | (dsimp only)

theorem acceptance_keeps {m : Part} {a : State} (a0 : Nat) (a1 : Nat) (a2 : Nat) (s : State) (h0 : m.dev = true) (h1 : m.ops =
    true) (h2 : m.evr = true) (h3 : m.rings = true) (h4 : m.mem = true) (h5 : m.grd = true) (h6 : m.tts = true) (h7 : m.fh =
    true) (h8 : m.srv = true) (h9 : m.fab = true) (h10 : m.syn = true) (h11 : m.hlt = true) (h12 : m.tiles = true) (h13 :
    m.cells = true) (h14 : m.sweep = true) (h15 : m.mbr = true) (h16 : m.out = true) (h17 : m.fresh = true) (h : Keeps m a s) :
    Keeps m a (acceptance a0 a1 a2 s) := by
  unfold acceptance
  repeat' first
      | with_reducible first | assumption | apply updMbr_keeps | apply tryCommit_keeps
      | split

theorem memberJoinBody_keeps {m : Part} {a : State} (a0 : Req) (s : State) (h0 : m.ops = true) (h1 : m.mbr = true) (h2 : m.fresh
    = true) (h : Keeps m a s) :
    Keeps m a (memberJoinBody a0 s).1 := by
  unfold memberJoinBody
  repeat' first
      | with_reducible first
          | assumption | apply drawStatus_keeps | apply failed_keeps | apply longOp_keeps | apply updMbr_keeps
          | apply keeps_ite_fst
      | intro _

theorem execMemberJoin_keeps {m : Part} {a : State} (a0 : Nat) (s : State) (h0 : m.dev = true) (h1 : m.mbx = true) (h2 : m.ops =
    true) (h3 : m.evr = true) (h4 : m.rings = true) (h5 : m.mem = true) (h6 : m.grd = true) (h7 : m.tts = true) (h8 : m.fh =
    true) (h9 : m.srv = true) (h10 : m.fab = true) (h11 : m.syn = true) (h12 : m.hlt = true) (h13 : m.tiles = true) (h14 :
    m.cells = true) (h15 : m.sweep = true) (h16 : m.mbr = true) (h17 : m.out = true) (h18 : m.fresh = true) (h : Keeps m a s) :
    KeepsO m a (execMemberJoin a0 s) := by
  unfold execMemberJoin
  repeat' first
      | with_reducible first
          | assumption | apply runCommand_keeps | apply consider_keeps | apply run_keeps | apply memberJoinBody_keeps
      | intro _

theorem execPrepare_keeps {m : Part} {a : State} (a0 : Nat) (a1 : Nat) (a2 : Nat) (s : State) (h0 : m.mbr = true) (h1 : m.out =
    true) (h : Keeps m a s) :
    KeepsO m a (execPrepare a0 a1 a2 s) := by
  unfold execPrepare
  repeat' with_reducible first | assumption | apply run_keeps | apply prepare_keeps

theorem execProposal_keeps {m : Part} {a : State} (a0 : Nat) (a1 : Proposal) (s : State) (h0 : m.mbr = true) (h1 : m.out = true)
    (h : Keeps m a s) :
    KeepsO m a (execProposal a0 a1 s) := by
  unfold execProposal
  repeat' with_reducible first | assumption | apply proposal_keeps | apply run_keeps

theorem roundTimeout_keeps {m : Part} {a : State} (s : State) (h0 : m.dev = true) (h1 : m.ops = true) (h2 : m.evr = true) (h3 :
    m.rings = true) (h4 : m.mem = true) (h5 : m.grd = true) (h6 : m.tts = true) (h7 : m.fh = true) (h8 : m.srv = true) (h9 :
    m.fab = true) (h10 : m.syn = true) (h11 : m.hlt = true) (h12 : m.tiles = true) (h13 : m.cells = true) (h14 : m.sweep = true)
    (h15 : m.mbr = true) (h16 : m.out = true) (h17 : m.fresh = true) (h : Keeps m a s) :
    Keeps m a (roundTimeout s) := by
  unfold roundTimeout
  repeat' first
      | with_reducible first | assumption | apply consider_keeps | apply updMbr_keeps
      | split

theorem execRoundTimeout_keeps {m : Part} {a : State} (s : State) (h0 : m.dev = true) (h1 : m.ops = true) (h2 : m.evr = true)
    (h3 : m.rings = true) (h4 : m.mem = true) (h5 : m.grd = true) (h6 : m.tts = true) (h7 : m.fh = true) (h8 : m.srv = true)
    (h9 : m.fab = true) (h10 : m.syn = true) (h11 : m.hlt = true) (h12 : m.tiles = true) (h13 : m.cells = true) (h14 : m.sweep =
    true) (h15 : m.mbr = true) (h16 : m.out = true) (h17 : m.fresh = true) (h : Keeps m a s) :
    KeepsO m a (execRoundTimeout s) := by
  unfold execRoundTimeout
  repeat' with_reducible first | assumption | apply roundTimeout_keeps | apply run_keeps

theorem execAcceptance_keeps {m : Part} {a : State} (a0 : Nat) (a1 : Nat) (a2 : Nat) (s : State) (h0 : m.dev = true) (h1 : m.ops
    = true) (h2 : m.evr = true) (h3 : m.rings = true) (h4 : m.mem = true) (h5 : m.grd = true) (h6 : m.tts = true) (h7 : m.fh =
    true) (h8 : m.srv = true) (h9 : m.fab = true) (h10 : m.syn = true) (h11 : m.hlt = true) (h12 : m.tiles = true) (h13 :
    m.cells = true) (h14 : m.sweep = true) (h15 : m.mbr = true) (h16 : m.out = true) (h17 : m.fresh = true) (h : Keeps m a s) :
    KeepsO m a (execAcceptance a0 a1 a2 s) := by
  unfold execAcceptance
  repeat' with_reducible first | assumption | apply acceptance_keeps | apply run_keeps

theorem execMemberConfig_keeps {m : Part} {a : State} (a0 : Nat) (s : State) (h0 : m.mbx = true) (h1 : m.evr = true) (h2 : m.mbr
    = true) (h3 : m.out = true) (h : Keeps m a s) :
    KeepsO m a (execMemberConfig a0 s) := by
  unfold execMemberConfig
  repeat' first
      | with_reducible first | assumption | apply memberConfigBody_keeps | apply runCommand_keeps | apply run_keeps
      | intro _

theorem execHeartbeatSend_keeps {m : Part} {a : State} (s : State) (h0 : m.dev = true) (h1 : m.ops = true) (h2 : m.evr = true)
    (h3 : m.rings = true) (h4 : m.mem = true) (h5 : m.grd = true) (h6 : m.tts = true) (h7 : m.fh = true) (h8 : m.srv = true)
    (h9 : m.fab = true) (h10 : m.syn = true) (h11 : m.hlt = true) (h12 : m.tiles = true) (h13 : m.cells = true) (h14 : m.sweep =
    true) (h15 : m.mbr = true) (h16 : m.out = true) (h17 : m.fresh = true) (h : Keeps m a s) :
    KeepsO m a (execHeartbeatSend s) := by
  unfold execHeartbeatSend
  repeat' with_reducible first | assumption | apply heartbeatSend_keeps | apply run_keeps

theorem commit_keeps {m : Part} {a : State} (a0 : Proposal) (a1 : Nat) (s : State) (h0 : m.dev = true) (h1 : m.ops = true) (h2 :
    m.evr = true) (h3 : m.rings = true) (h4 : m.mem = true) (h5 : m.grd = true) (h6 : m.tts = true) (h7 : m.fh = true) (h8 :
    m.srv = true) (h9 : m.fab = true) (h10 : m.syn = true) (h11 : m.hlt = true) (h12 : m.tiles = true) (h13 : m.cells = true)
    (h14 : m.sweep = true) (h15 : m.mbr = true) (h16 : m.out = true) (h17 : m.fresh = true) (h : Keeps m a s) :
    Keeps m a (commit a0 a1 s) := by
  unfold commit
  repeat' first
      | with_reducible first | assumption | apply consider_keeps | apply adopt_keeps
      | split

theorem execCommit_keeps {m : Part} {a : State} (a0 : Proposal) (a1 : Tick) (s : State) (h0 : m.dev = true) (h1 : m.ops = true)
    (h2 : m.evr = true) (h3 : m.rings = true) (h4 : m.mem = true) (h5 : m.grd = true) (h6 : m.tts = true) (h7 : m.fh = true)
    (h8 : m.srv = true) (h9 : m.fab = true) (h10 : m.syn = true) (h11 : m.hlt = true) (h12 : m.tiles = true) (h13 : m.cells =
    true) (h14 : m.sweep = true) (h15 : m.mbr = true) (h16 : m.out = true) (h17 : m.fresh = true) (h : Keeps m a s) :
    KeepsO m a (execCommit a0 a1 s) := by
  unfold execCommit
  repeat' with_reducible first | assumption | apply commit_keeps | apply run_keeps

theorem heartbeat_keeps {m : Part} {a : State} (a0 : Beat) (s : State) (h0 : m.dev = true) (h1 : m.ops = true) (h2 : m.evr =
    true) (h3 : m.rings = true) (h4 : m.mem = true) (h5 : m.grd = true) (h6 : m.tts = true) (h7 : m.fh = true) (h8 : m.srv =
    true) (h9 : m.fab = true) (h10 : m.syn = true) (h11 : m.hlt = true) (h12 : m.tiles = true) (h13 : m.cells = true) (h14 :
    m.sweep = true) (h15 : m.mbr = true) (h16 : m.out = true) (h17 : m.fresh = true) (h : Keeps m a s) :
    Keeps m a (heartbeat a0 s) := by
  unfold heartbeat
  repeat' with_reducible first | assumption | apply consider_keeps | apply updMbr_keeps

theorem execHeartbeat_keeps {m : Part} {a : State} (a0 : Beat) (s : State) (h0 : m.dev = true) (h1 : m.ops = true) (h2 : m.evr =
    true) (h3 : m.rings = true) (h4 : m.mem = true) (h5 : m.grd = true) (h6 : m.tts = true) (h7 : m.fh = true) (h8 : m.srv =
    true) (h9 : m.fab = true) (h10 : m.syn = true) (h11 : m.hlt = true) (h12 : m.tiles = true) (h13 : m.cells = true) (h14 :
    m.sweep = true) (h15 : m.mbr = true) (h16 : m.out = true) (h17 : m.fresh = true) (h : Keeps m a s) :
    KeepsO m a (execHeartbeat a0 s) := by
  unfold execHeartbeat
  repeat' with_reducible first | assumption | apply run_keeps | apply heartbeat_keeps

/-! Machine/Mgmt.lean -/

theorem spdmSay_keeps {m : Part} {a : State} (a0 : Transport) (a1 : Nat) (a2 : List Byte) (s : State) (h0 : m.out = true) (h :
    Keeps m a s) :
    Keeps m a (spdmSay a0 a1 a2 s) := by
  unfold spdmSay
  repeat' with_reducible first | assumption | apply emit_keeps

theorem spdmError_keeps {m : Part} {a : State} (a0 : Transport) (a1 : Nat) (s : State) (h0 : m.out = true) (h : Keeps m a s) :
    Keeps m a (spdmError a0 a1 s) := by
  unfold spdmError
  repeat' with_reducible first | assumption | apply spdmSay_keeps

theorem updSpdm_keeps {m : Part} {a : State} (a0 : Transport) (a1 : Spdm → Spdm) (s : State) (h0 : m.mgt = true) (h : Keeps m a
    s) :
    Keeps m a (updSpdm a0 a1 s) := by
  unfold updSpdm
  repeat' first
      | with_reducible first | assumption | apply updMgt_keeps
      | intro _

theorem respondIfReady_keeps {m : Part} {a : State} (a0 : Transport) (s : State) (h0 : m.mgt = true) (h1 : m.out = true) (h :
    Keeps m a s) :
    Keeps m a (respondIfReady a0 s) := by
  unfold respondIfReady
  repeat' first
      | with_reducible first | assumption | apply spdmSay_keeps | apply spdmError_keeps | apply updSpdm_keeps
      | split

theorem signatureDone_keeps {m : Part} {a : State} (s : State) (h0 : m.mgt = true) (h : Keeps m a s) :
    Keeps m a (signatureDone s) := by
  unfold signatureDone
  repeat' first
      | with_reducible first | assumption | apply updMgt_keeps | apply updSpdm_keeps
      | intro _
      | split

theorem execSignatureDone_keeps {m : Part} {a : State} (s : State) (h0 : m.mgt = true) (h : Keeps m a s) :
    KeepsO m a (execSignatureDone s) := by
  unfold execSignatureDone
  repeat' with_reducible first | assumption | apply signatureDone_keeps | apply run_keeps

theorem spdmRun_keeps {m : Part} {a : State} (a0 : Bool) (a1 : Transport) (a2 : State → State) (s : State) (h0 : m.out = true)
    (hk3 : ∀ s, Keeps m a s → Keeps m a (a2 s)) (h : Keeps m a s) :
    Keeps m a (spdmRun a0 a1 a2 s) := by
  unfold spdmRun
  repeat' first
      | with_reducible first | assumption | apply spdmError_keeps | apply hk3
      | split

theorem answer_keeps {m : Part} {a : State} (a0 : Nat) (a1 : List Byte) (s : State) (h0 : m.out = true) (h : Keeps m a s) :
    Keeps m a (answer a0 a1 s) := by
  unfold answer
  repeat' with_reducible first | assumption | apply emit_keeps

theorem execSetEndpointId_keeps {m : Part} {a : State} (a0 : Nat) (s : State) (h0 : m.mgt = true) (h1 : m.out = true) (h :
    Keeps m a s) :
    KeepsO m a (execSetEndpointId a0 s) := by
  unfold execSetEndpointId
  repeat' first
      | with_reducible first | assumption | apply updMgt_keeps | apply answer_keeps | apply run_keeps
      | intro _

theorem pldmRead_keeps {m : Part} {a : State} (a0 : Sensor) (s : State) (h0 : m.out = true) (h1 : m.fresh = true) (h : Keeps m a
    s) :
    Keeps m a (pldmRead a0 s) := by
  unfold pldmRead
  repeat' first
      | with_reducible first | assumption | apply answer_keeps | apply drawFree_keeps
      | split

theorem leaveRecovery_keeps {m : Part} {a : State} (s : State) (h0 : m.mgt = true) (h : Keeps m a s) :
    Keeps m a (leaveRecovery s) := by
  unfold leaveRecovery
  repeat' first
      | with_reducible first | assumption | apply updMgt_keeps
      | intro _
      | split

theorem updateVerify_keeps {m : Part} {a : State} (a0 : Bool) (s : State) (h0 : m.mgt = true) (h1 : m.out = true) (h : Keeps m a
    s) :
    Keeps m a (updateVerify a0 s) := by
  unfold updateVerify
  repeat' first
      | with_reducible first | assumption | apply leaveRecovery_keeps | apply updMgt_keeps | apply answer_keeps
      | intro _
      | split

theorem updateHead_keeps {m : Part} {a : State} (a0 : List Byte) (s : State) (h0 : m.mgt = true) (h1 : m.out = true) (h :
    Keeps m a s) :
    Keeps m a (updateHead a0 s) := by
  unfold updateHead
  split
  · exact answer_keeps _ _ _ h1 (updMgt_keeps _ _ (fun _ w => w) h0 h)
  · exact updMgt_keeps _ _ (fun _ w => memWf_writeBytes _ _ _ (memWf_zero _ _ _ w)) h0 h

theorem firmwareData_keeps {m : Part} {a : State} (a0 : List Byte) (a1 : Bool) (s : State) (h0 : m.mgt = true) (h1 : m.out =
    true) (h : Keeps m a s) :
    Keeps m a (firmwareData a0 a1 s) := by
  unfold firmwareData
  repeat' first
      | with_reducible first
          | assumption | apply updateVerify_keeps | apply updMgt_keeps | apply updateHead_keeps
          | exact memWf_writeBytes _ _ _ ‹_›
      | intro _
      | split
      | (dsimp only)

theorem execRequestFirmwareData_keeps {m : Part} {a : State} (a0 : List Byte) (a1 : Bool) (s : State) (h0 : m.mgt = true) (h1 :
    m.out = true) (h : Keeps m a s) :
    KeepsO m a (execRequestFirmwareData a0 a1 s) := by
  unfold execRequestFirmwareData
  repeat' with_reducible first | assumption | apply firmwareData_keeps | apply run_keeps

theorem execPldmSensorRead_keeps {m : Part} {a : State} (a0 : Sensor) (s : State) (h0 : m.out = true) (h1 : m.fresh = true) (h :
    Keeps m a s) :
    KeepsO m a (execPldmSensorRead a0 s) := by
  unfold execPldmSensorRead
  repeat' with_reducible first | assumption | apply pldmRead_keeps | apply run_keeps

theorem startSign_keeps {m : Part} {a : State} (a0 : Transport) (a1 : Nat) (a2 : List Byte) (s : State) (h0 : m.mgt = true)
    (h1 : m.out = true) (h : Keeps m a s) :
    Keeps m a (startSign a0 a1 a2 s) := by
  unfold startSign
  repeat' first
      | with_reducible first | assumption | apply spdmError_keeps | apply updMgt_keeps | apply updSpdm_keeps
      | intro _
      | split

theorem execChallenge_keeps {m : Part} {a : State} (a0 : Transport) (a1 : Nat) (a2 : List Byte) (s : State) (h0 : m.mgt = true)
    (h1 : m.out = true) (h : Keeps m a s) :
    KeepsO m a (execChallenge a0 a1 a2 s) := by
  unfold execChallenge
  repeat' first
      | with_reducible first
          | assumption | apply spdmRun_keeps | apply spdmError_keeps | apply startSign_keeps | apply run_keeps
      | split
      | intro _

theorem eventLogRead_keeps {m : Part} {a : State} (a0 : Nat) (s : State) (h0 : m.out = true) (h : Keeps m a s) :
    Keeps m a (eventLogRead a0 s) := by
  unfold eventLogRead
  repeat' with_reducible first | assumption | apply answer_keeps

theorem blobWrite_keeps {m : Part} {a : State} (a0 : Nat) (a1 : List Byte) (a2 : Bool) (s : State) (h0 : m.mgt = true) (h1 :
    m.out = true) (h2 : m.fresh = true) (h : Keeps m a s) :
    Keeps m a (blobWrite a0 a1 a2 s) := by
  unfold blobWrite
  repeat' first
      | with_reducible first
          | assumption | apply leaveRecovery_keeps | apply drawStatus_keeps | apply updMgt_keeps | apply answer_keeps
          | apply keeps_ite | exact memWf_writeBytes _ _ _ ‹_›
      | intro _

theorem updateTimeout_keeps {m : Part} {a : State} (s : State) (h0 : m.mgt = true) (h : Keeps m a s) :
    Keeps m a (updateTimeout s) := by
  unfold updateTimeout
  repeat' first
      | with_reducible first | assumption | apply updMgt_keeps
      | intro _
      | split

theorem execUpdateIdleTimeout_keeps {m : Part} {a : State} (s : State) (h0 : m.mgt = true) (h : Keeps m a s) :
    KeepsO m a (execUpdateIdleTimeout s) := by
  unfold execUpdateIdleTimeout
  repeat' with_reducible first | assumption | apply updateTimeout_keeps | apply run_keeps

theorem execActivateFirmware_keeps {m : Part} {a : State} (s : State) (h0 : m.out = true) (h : Keeps m a s) :
    KeepsO m a (execActivateFirmware s) := by
  unfold execActivateFirmware
  repeat' with_reducible first | assumption | apply answer_keeps | apply run_keeps

theorem execGetDigests_keeps {m : Part} {a : State} (a0 : Transport) (a1 : Nat) (s : State) (h0 : m.out = true) (h : Keeps m a
    s) :
    KeepsO m a (execGetDigests a0 a1 s) := by
  unfold execGetDigests
  repeat' first
      | with_reducible first
          | assumption | apply spdmSay_keeps | apply spdmRun_keeps | apply spdmError_keeps | apply run_keeps
      | split
      | intro _

theorem ownerEnrol_keeps {m : Part} {a : State} (a0 : List Byte) (s : State) (h0 : m.mgt = true) (h1 : m.out = true) (h :
    Keeps m a s) :
    Keeps m a (ownerEnrol a0 s) := by
  unfold ownerEnrol
  repeat' first
      | with_reducible first | assumption | apply updMgt_keeps | apply answer_keeps
      | intro _
      | split

theorem execOwnerEnrol_keeps {m : Part} {a : State} (a0 : List Byte) (s : State) (h0 : m.mgt = true) (h1 : m.out = true) (h :
    Keeps m a s) :
    KeepsO m a (execOwnerEnrol a0 s) := by
  unfold execOwnerEnrol
  repeat' with_reducible first | assumption | apply ownerEnrol_keeps | apply run_keeps

theorem execGetCertificate_keeps {m : Part} {a : State} (a0 : Transport) (a1 : Nat) (a2 : Nat) (a3 : Nat) (s : State) (h0 :
    m.out = true) (h : Keeps m a s) :
    KeepsO m a (execGetCertificate a0 a1 a2 a3 s) := by
  unfold execGetCertificate
  repeat' first
      | with_reducible first
          | assumption | apply spdmSay_keeps | apply spdmRun_keeps | apply spdmError_keeps | apply run_keeps
      | split
      | intro _

theorem execEventLogRead_keeps {m : Part} {a : State} (a0 : Nat) (s : State) (h0 : m.out = true) (h : Keeps m a s) :
    KeepsO m a (execEventLogRead a0 s) := by
  unfold execEventLogRead
  repeat' with_reducible first | assumption | apply eventLogRead_keeps | apply run_keeps

theorem requestUpdate_keeps {m : Part} {a : State} (s : State) (h0 : m.mgt = true) (h1 : m.out = true) (h : Keeps m a s) :
    Keeps m a (requestUpdate s) := by
  unfold requestUpdate
  repeat' first
      | with_reducible first | assumption | apply updMgt_keeps | apply answer_keeps
      | intro _
      | split

theorem execRequestUpdate_keeps {m : Part} {a : State} (s : State) (h0 : m.mgt = true) (h1 : m.out = true) (h : Keeps m a s) :
    KeepsO m a (execRequestUpdate s) := by
  unfold execRequestUpdate
  repeat' with_reducible first | assumption | apply requestUpdate_keeps | apply run_keeps

theorem execNegotiateAlgorithms_keeps {m : Part} {a : State} (a0 : Transport) (a1 : Bool) (a2 : Bool) (s : State) (h0 : m.mgt =
    true) (h1 : m.out = true) (h : Keeps m a s) :
    KeepsO m a (execNegotiateAlgorithms a0 a1 a2 s) := by
  unfold execNegotiateAlgorithms
  repeat' first
      | with_reducible first
          | assumption | apply spdmSay_keeps | apply spdmRun_keeps | apply spdmError_keeps | apply updSpdm_keeps
          | apply run_keeps
      | split
      | intro _

theorem execRespondIfReady_keeps {m : Part} {a : State} (a0 : Transport) (s : State) (h0 : m.mgt = true) (h1 : m.out = true)
    (h : Keeps m a s) :
    KeepsO m a (execRespondIfReady a0 s) := by
  unfold execRespondIfReady
  repeat' first
      | with_reducible first | assumption | apply spdmRun_keeps | apply respondIfReady_keeps | apply run_keeps
      | intro _

theorem execGetMeasurements_keeps {m : Part} {a : State} (a0 : Transport) (a1 : Nat) (a2 : Bool) (a3 : List Byte) (s : State)
    (h0 : m.mgt = true) (h1 : m.out = true) (h : Keeps m a s) :
    KeepsO m a (execGetMeasurements a0 a1 a2 a3 s) := by
  unfold execGetMeasurements
  repeat' first
      | with_reducible first
          | assumption | apply spdmSay_keeps | apply spdmRun_keeps | apply spdmError_keeps | apply startSign_keeps
          | apply run_keeps
      | split
      | intro _
      | (dsimp only)

theorem dawnState_keeps {m : Part} {a : State} (s : State) (h0 : m.out = true) (h : Keeps m a s) :
    Keeps m a (dawnState s) := by
  unfold dawnState
  repeat' with_reducible first | assumption | apply answer_keeps

theorem execDawnState_keeps {m : Part} {a : State} (s : State) (h0 : m.out = true) (h : Keeps m a s) :
    KeepsO m a (execDawnState s) := by
  unfold execDawnState
  repeat' with_reducible first | assumption | apply run_keeps | apply dawnState_keeps

theorem execGetVersion_keeps {m : Part} {a : State} (a0 : Transport) (s : State) (h0 : m.mgt = true) (h1 : m.out = true) (h :
    Keeps m a s) :
    KeepsO m a (execGetVersion a0 s) := by
  unfold execGetVersion
  repeat' first
      | with_reducible first
          | assumption | apply spdmSay_keeps | apply spdmRun_keeps | apply updSpdm_keeps | apply run_keeps
      | intro _

theorem deviceReset_keeps {m : Part} {a : State} (s : State) (h0 : m.dev = true) (h1 : m.noon = true) (h2 : m.fh = true) (h3 :
    m.fab = true) (h4 : m.hlt = true) (h5 : m.pwr = true) (h6 : m.mgt = true) (h7 : m.out = true) (h : Keeps m a s) :
    Keeps m a (deviceReset s) := by
  unfold deviceReset
  repeat' first
      | with_reducible first
          | assumption | apply updMgt_keeps | apply answer_keeps | apply beginDeviceReset_keeps | apply updPwr_keeps
      | intro _
      | split

theorem execDeviceReset_keeps {m : Part} {a : State} (s : State) (h0 : m.dev = true) (h1 : m.noon = true) (h2 : m.fh = true)
    (h3 : m.fab = true) (h4 : m.hlt = true) (h5 : m.pwr = true) (h6 : m.mgt = true) (h7 : m.out = true) (h : Keeps m a s) :
    KeepsO m a (execDeviceReset s) := by
  unfold execDeviceReset
  repeat' with_reducible first | assumption | apply run_keeps | apply deviceReset_keeps

theorem execGetCapabilities_keeps {m : Part} {a : State} (a0 : Transport) (s : State) (h0 : m.mgt = true) (h1 : m.out = true)
    (h : Keeps m a s) :
    KeepsO m a (execGetCapabilities a0 s) := by
  unfold execGetCapabilities
  repeat' first
      | with_reducible first
          | assumption | apply spdmSay_keeps | apply spdmRun_keeps | apply updSpdm_keeps | apply run_keeps
      | intro _

theorem execBlobWrite_keeps {m : Part} {a : State} (a0 : Nat) (a1 : List Byte) (a2 : Bool) (s : State) (h0 : m.mgt = true) (h1 :
    m.out = true) (h2 : m.fresh = true) (h : Keeps m a s) :
    KeepsO m a (execBlobWrite a0 a1 a2 s) := by
  unfold execBlobWrite
  repeat' with_reducible first | assumption | apply run_keeps | apply blobWrite_keeps

/-! Machine/Sweep.lean -/

theorem sweepTxDone_keeps {m : Part} {a : State} (a0 : Nat) (s : State) (h0 : m.rings = true) (h1 : m.mem = true) (h2 : m.sweep
    = true) (h3 : m.out = true) (h : Keeps m a s) :
    Keeps m a (sweepTxDone a0 s) := by
  unfold sweepTxDone
  repeat' first
      | with_reducible first | assumption | apply updChan_keeps | apply sweepAnswer_keeps | apply sweepDrop_keeps
      | split

theorem sweepStatusBody_keeps {m : Part} {a : State} (a0 : Req) (s : State) (h0 : m.sweep = true) (h1 : m.fresh = true) (h :
    Keeps m a s) :
    Keeps m a (sweepStatusBody a0 s).1 := by
  unfold sweepStatusBody
  repeat' first
      | with_reducible first
          | assumption | apply drawStatus_keeps | apply failed_keeps | apply updChan_keeps | apply keeps_ite_fst
      | intro _
      | split

theorem execSweepStatus_keeps {m : Part} {a : State} (a0 : Nat) (s : State) (h0 : m.mbx = true) (h1 : m.evr = true) (h2 :
    m.sweep = true) (h3 : m.out = true) (h4 : m.fresh = true) (h : Keeps m a s) :
    KeepsO m a (execSweepStatus a0 s) := by
  unfold execSweepStatus
  repeat' first
      | with_reducible first | assumption | apply runCommand_keeps | apply run_keeps | apply sweepStatusBody_keeps
      | intro _

theorem sweepTx_keeps {m : Part} {a : State} (a0 : Nat) (s : State) (h0 : m.evr = true) (h1 : m.rings = true) (h2 : m.mem =
    true) (h3 : m.hlt = true) (h4 : m.sweep = true) (h5 : m.out = true) (h : Keeps m a s) :
    Keeps m a (sweepTx a0 s) := by
  unfold sweepTx
  repeat' first
      | with_reducible first | assumption | apply updChan_keeps | apply sweepAnswer_keeps | apply takeHead_keeps
      | split

theorem sweepOver_keeps {m : Part} {a : State} (a0 : Nat) (a1 : Demod) (a2 : SweepChan → SweepChan) (s : State) (h0 : m.sweep =
    true) (h : Keeps m a s) :
    Keeps m a (sweepOver a0 a1 a2 s) := by
  unfold sweepOver
  repeat' with_reducible first | assumption | apply updChan_keeps

theorem sweepHeader_keeps {m : Part} {a : State} (a0 : Nat) (a1 : Demod) (s : State) (h0 : m.sweep = true) (h : Keeps m a s) :
    Keeps m a (sweepHeader a0 a1 s) := by
  unfold sweepHeader
  repeat' first
      | with_reducible first | assumption | apply updChan_keeps | apply sweepOver_keeps
      | split
      | (dsimp only)

theorem sweepFinish_keeps {m : Part} {a : State} (a0 : Nat) (a1 : Demod) (a2 : Nat) (s : State) (h0 : m.rings = true) (h1 :
    m.mem = true) (h2 : m.sweep = true) (h3 : m.out = true) (h : Keeps m a s) :
    Keeps m a (sweepFinish a0 a1 a2 s) := by
  unfold sweepFinish
  repeat' first
      | with_reducible first | assumption | apply sweepOver_keeps | apply ringPut_keeps
      | split
      | (dsimp only)

theorem sweepSymbol_keeps {m : Part} {a : State} (a0 : Nat) (a1 : Nat) (a2 : Nat) (a3 : Int) (s : State) (h0 : m.rings = true)
    (h1 : m.mem = true) (h2 : m.sweep = true) (h3 : m.out = true) (h : Keeps m a s) :
    Keeps m a (sweepSymbol a0 a1 a2 a3 s) := by
  unfold sweepSymbol
  repeat' first
      | with_reducible first | assumption | apply sweepFinish_keeps | apply updChan_keeps | apply sweepHeader_keeps
      | split
      | (dsimp only)

theorem execSweepTxDone_keeps {m : Part} {a : State} (a0 : Nat) (s : State) (h0 : m.rings = true) (h1 : m.mem = true) (h2 :
    m.sweep = true) (h3 : m.out = true) (h : Keeps m a s) :
    KeepsO m a (execSweepTxDone a0 s) := by
  unfold execSweepTxDone
  repeat' with_reducible first | assumption | apply run_keeps | apply sweepTxDone_keeps

theorem sweepWindow_keeps {m : Part} {a : State} (a0 : Nat) (a1 : Nat) (s : State) (h0 : m.sweep = true) (h : Keeps m a s) :
    Keeps m a (sweepWindow a0 a1 s) := by
  unfold sweepWindow
  repeat' first
      | with_reducible first | assumption | apply updChan_keeps
      | split

theorem sweepSetBody_keeps {m : Part} {a : State} (a0 : Req) (s : State) (h0 : m.sweep = true) (h : Keeps m a s) :
    Keeps m a (sweepSetBody a0 s).1 := by
  unfold sweepSetBody
  repeat' first
      | with_reducible first | assumption | apply failed_keeps | apply State.setSweep_keeps
      | split
      | (dsimp only)

theorem execSweepSymbol_keeps {m : Part} {a : State} (a0 : Nat) (a1 : Nat) (a2 : Nat) (a3 : Int) (s : State) (h0 : m.rings =
    true) (h1 : m.mem = true) (h2 : m.sweep = true) (h3 : m.out = true) (h : Keeps m a s) :
    KeepsO m a (execSweepSymbol a0 a1 a2 a3 s) := by
  unfold execSweepSymbol
  repeat' with_reducible first | assumption | apply sweepSymbol_keeps | apply run_keeps

theorem sweepClearBody_keeps {m : Part} {a : State} (a0 : Req) (s : State) (h0 : m.sweep = true) (h1 : m.fresh = true) (h :
    Keeps m a s) :
    Keeps m a (sweepClearBody a0 s).1 := by
  unfold sweepClearBody
  repeat' first
      | with_reducible first | assumption | apply drawStatus_keeps | apply failed_keeps | apply updChan_keeps
      | split
      | (dsimp only)
      | (rename (_ = (_, (_ : State))) => hp; have e := congrArg Prod.snd hp; clear hp; dsimp only at e; subst e)

theorem execSweepChannelClear_keeps {m : Part} {a : State} (a0 : Nat) (s : State) (h0 : m.mbx = true) (h1 : m.evr = true) (h2 :
    m.sweep = true) (h3 : m.out = true) (h4 : m.fresh = true) (h : Keeps m a s) :
    KeepsO m a (execSweepChannelClear a0 s) := by
  unfold execSweepChannelClear
  repeat' first
      | with_reducible first | assumption | apply runCommand_keeps | apply sweepClearBody_keeps | apply run_keeps
      | intro _

theorem execSweepDetectionWindow_keeps {m : Part} {a : State} (a0 : Nat) (a1 : Nat) (s : State) (h0 : m.sweep = true) (h :
    Keeps m a s) :
    KeepsO m a (execSweepDetectionWindow a0 a1 s) := by
  unfold execSweepDetectionWindow
  repeat' with_reducible first | assumption | apply run_keeps | apply sweepWindow_keeps

theorem execSweepChannelSet_keeps {m : Part} {a : State} (a0 : Nat) (s : State) (h0 : m.mbx = true) (h1 : m.evr = true) (h2 :
    m.sweep = true) (h3 : m.out = true) (h : Keeps m a s) :
    KeepsO m a (execSweepChannelSet a0 s) := by
  unfold execSweepChannelSet
  repeat' first
      | with_reducible first | assumption | apply sweepSetBody_keeps | apply runCommand_keeps | apply run_keeps
      | intro _

theorem execSweepTx_keeps {m : Part} {a : State} (a0 : Nat) (s : State) (h0 : m.evr = true) (h1 : m.rings = true) (h2 : m.mem =
    true) (h3 : m.hlt = true) (h4 : m.sweep = true) (h5 : m.out = true) (h : Keeps m a s) :
    KeepsO m a (execSweepTx a0 s) := by
  unfold execSweepTx
  repeat' with_reducible first | assumption | apply sweepTx_keeps | apply run_keeps

/-! Machine/TestPort.lean -/

theorem tapRelease_keeps {m : Part} {a : State} (s : State) (h0 : m.mgt = true) (h1 : m.tap = true) (h : Keeps m a s) :
    Keeps m a (tapRelease s) := by
  unfold tapRelease
  repeat' first
      | with_reducible first | assumption | apply State.setTap_keeps | apply updMgt_keeps
      | intro _
      | split

theorem tapLoad_keeps {m : Part} {a : State} (a0 : TapInstr) (s : State) (h0 : m.mgt = true) (h1 : m.tap = true) (h : Keeps m a
    s) :
    Keeps m a (tapLoad a0 s) := by
  unfold tapLoad
  repeat' first
      | with_reducible first | assumption | apply State.setTap_keeps | apply tapRelease_keeps
      | split

theorem samplePreload_keeps {m : Part} {a : State} (a0 : List Bool) (s : State) (h0 : m.mgt = true) (h1 : m.tap = true) (h2 :
    m.out = true) (h3 : m.fresh = true) (h : Keeps m a s) :
    Keeps m a (samplePreload a0 s) := by
  unfold samplePreload
  repeat'
      with_reducible first
        | assumption | apply State.setTap_keeps | apply tapLoad_keeps | apply emit_keeps | apply drawFree_keeps

theorem execSamplePreload_keeps {m : Part} {a : State} (a0 : List Bool) (s : State) (h0 : m.mgt = true) (h1 : m.tap = true)
    (h2 : m.out = true) (h3 : m.fresh = true) (h : Keeps m a s) :
    KeepsO m a (execSamplePreload a0 s) := by
  unfold execSamplePreload
  repeat' with_reducible first | assumption | apply samplePreload_keeps | apply run_keeps

theorem tapDrive_keeps {m : Part} {a : State} (a0 : TapInstr) (s : State) (h0 : m.mgt = true) (h1 : m.tap = true) (h : Keeps m a
    s) :
    Keeps m a (tapDrive a0 s) := by
  unfold tapDrive
  repeat' with_reducible first | assumption | apply tapLoad_keeps

theorem execExtest_keeps {m : Part} {a : State} (s : State) (h0 : m.mgt = true) (h1 : m.tap = true) (h : Keeps m a s) :
    KeepsO m a (execExtest s) := by
  unfold execExtest
  repeat' with_reducible first | assumption | apply tapDrive_keeps | apply run_keeps

theorem execIdcode_keeps {m : Part} {a : State} (s : State) (h0 : m.mgt = true) (h1 : m.tap = true) (h2 : m.out = true) (h :
    Keeps m a s) :
    KeepsO m a (execIdcode s) := by
  unfold execIdcode
  repeat' with_reducible first | assumption | apply tapLoad_keeps | apply emit_keeps | apply run_keeps

theorem execBypass_keeps {m : Part} {a : State} (s : State) (h0 : m.mgt = true) (h1 : m.tap = true) (h : Keeps m a s) :
    KeepsO m a (execBypass s) := by
  unfold execBypass
  repeat' with_reducible first | assumption | apply tapLoad_keeps | apply run_keeps

theorem execClamp_keeps {m : Part} {a : State} (s : State) (h0 : m.mgt = true) (h1 : m.tap = true) (h : Keeps m a s) :
    KeepsO m a (execClamp s) := by
  unfold execClamp
  repeat' with_reducible first | assumption | apply tapDrive_keeps | apply run_keeps

theorem execHighz_keeps {m : Part} {a : State} (s : State) (h0 : m.mgt = true) (h1 : m.tap = true) (h : Keeps m a s) :
    KeepsO m a (execHighz s) := by
  unfold execHighz
  repeat' with_reducible first | assumption | apply tapDrive_keeps | apply run_keeps

theorem execTrstAssert_keeps {m : Part} {a : State} (s : State) (h0 : m.mgt = true) (h1 : m.tap = true) (h : Keeps m a s) :
    KeepsO m a (execTrstAssert s) := by
  unfold execTrstAssert
  repeat' with_reducible first | assumption | apply tapRelease_keeps | apply tapLoad_keeps | apply run_keeps

/-! Machine/Tick.lean -/

theorem shaperTick_keeps {m : Part} {a : State} (s : State) (h0 : m.fh = true) (h : Keeps m a s) :
    Keeps m a (shaperTick s) := by
  unfold shaperTick
  repeat' with_reducible first | assumption | apply State.setFh_keeps

theorem lendTick_keeps {m : Part} {a : State} (s : State) (h0 : m.tel = true) (h : Keeps m a s) :
    Keeps m a (lendTick s) := by
  unfold lendTick
  repeat' with_reducible first | assumption | apply State.setTel_keeps

theorem heldTick_keeps {m : Part} {a : State} (s : State) (h0 : m.pwr = true) (h : Keeps m a s) :
    Keeps m a (heldTick s) := by
  unfold heldTick
  repeat' first
      | with_reducible first | assumption | apply State.setPwr_keeps
      | split

theorem airTick_keeps {m : Part} {a : State} (s : State) (h0 : m.rings = true) (h1 : m.tel = true) (h2 : m.mem = true) (h3 :
    m.tmb = true) (h4 : m.fh = true) (h5 : m.sweep = true) (h6 : m.pwr = true) (h7 : m.out = true) (h : Keeps m a s) :
    Keeps m a (airTick s) := by
  unfold airTick
  repeat' first
      | with_reducible first
          | assumption | apply sweepEnd_keeps | apply shaperTick_keeps | apply lendTick_keeps | apply heldTick_keeps
          | apply State.setTmb_keeps
      | split

end Sys2Proof.Machine
end

