-- ==== Sys2Proof/Laws/Mailbox.lean ====
section
/-!
SUPPORT. What the shared operations on mailboxes, long operations and event rings do, said once.
-/

namespace Sys2Proof.Machine

/-! ### Outcomes -/

@[simp] theorem run_true (what : String) (t : State) : run true what t = .next t := rfl

theorem run_next {ok : Bool} {what : String} {t : State} (h : ok = true) : run ok what t = .next t := by rw [h]; rfl

theorem run_eq_next {ok : Bool} {what : String} {t u : State} : run ok what t = .next u ↔ ok = true ∧ t = u := by
  unfold run
  cases ok <;> simp

theorem runOn_next {present : Bool} {what : String} {n : Nat} {o : Host.Outcome State Fault Refusal} (h : present = true) :
    runOn present what n o = o := by rw [h]; rfl

/-! ### Free choices -/

/-- A free choice is made among the numbers not taken, and only the counter moves. -/
theorem pickFree_spec (n : Nat) (taken : Nat → Bool) (s : State) :
    (pickFree n taken s = (none, s) ∧ ∀ k < n, taken k = true)
      ∨ ∃ k, pickFree n taken s = (some k, s.setFresh (s.fresh + 1)) ∧ k < n ∧ taken k = false := by
  unfold pickFree
  dsimp only
  split
  · rename_i h
    refine .inl ⟨rfl, fun k hk => ?_⟩
    by_contra hn
    have hm : k ∈ (List.range n).filter (fun k => !taken k) :=
      List.mem_filter.2 ⟨List.mem_range.2 hk, by simpa using hn⟩
    rw [List.isEmpty_iff.1 h] at hm
    cases hm
  · rename_i h
    have hl : 0 < ((List.range n).filter (fun k => !taken k)).length := by
      rw [List.length_pos_iff]
      exact fun e => h (by simp [e])
    have hi := Nat.mod_lt (Config.freeNat s.fresh) hl
    refine .inr ⟨_, by rw [List.getElem?_eq_getElem hi], ?_⟩
    have hm := List.mem_filter.1 (List.getElem_mem hi)
    exact ⟨List.mem_range.1 hm.1, by simpa using hm.2⟩

/-! ### Event rings -/

/-- Posting changes event rings and what is put out, nothing else. -/
theorem post_frame (e : Event) (s : State) : Keeps { evr := true, out := true } s (post e s) :=
  post_keeps _ _ rfl rfl (Keeps.refl _ _)

/-- An event that a ring takes stands in it at the old producer index. -/
theorem post_taken (e : Event) (s : State) (n : Nat) (hr : routeClass s (e.code / 256) = some n) (hf : evOcc (evRing s n) ≠ 512) :
    evRing (post e s) n = { evRing s n with
      entries := tabPut (evRing s n).entries ((evRing s n).prod % 512)
        { e with tick := s.tmb.free, seq := (evRing s n).prod, detail := e.detail.take 36 }
      prod := ((evRing s n).prod + 1) % 4294967296 } := by
  unfold post
  rw [hr]
  simp only [postTo, hf, if_false]
  exact (evRing_setEvRing n n _ s).trans (by simp)

/-! ### Mailboxes -/

theorem mbxOf_congr {s t : State} (h : t.mbx = s.mbx) (m : Nat) : mbxOf t m = mbxOf s m := by
  unfold mbxOf
  rw [h]

/-- The notice of a completed command leaves every mailbox alone. -/
@[simp] theorem mbxOf_completionNotice (m n : Nat) (c : Cmd) (r : Reply) (s : State) :
    mbxOf (completionNotice m c r s) n = mbxOf s n :=
  mbxOf_congr (Keeps.mbx (completionNotice_keeps (m := { evr := true, out := true }) m c r s rfl rfl (Keeps.refl _ _))) n

/-- The mailbox of a completed command (R26, R27). -/
theorem mbxOf_complete (m : Nat) (c : Cmd) (r : Reply) (s : State) :
    mbxOf (complete m c r s) m = { mbxOf s m with
      phase := .done
      resp := ⟨r.status, c.opcode, c.tag, r.retry, r.handle, r.payload.take 1968⟩ } := by
  simp [complete]

/-- The mailbox after the firmware's response, where the hardware has not answered before (R31). -/
theorem mbxOf_respond {m : Nat} {s : State} (c : Cmd) (r : Reply) (h : (mbxOf s m).discard = false) :
    mbxOf (respond m c r s) m = { mbxOf s m with
      taken := none
      discard := false
      phase := .done
      resp := ⟨r.status, c.opcode, c.tag, r.retry, r.handle, r.payload.take 1968⟩ } := by
  simp [respond, h, mbxOf_complete]

/-- A response changes mailboxes, event rings and what is put out, nothing else. -/
theorem respond_frame (m : Nat) (c : Cmd) (r : Reply) (s : State) :
    Keeps { mbx := true, evr := true, out := true } s (respond m c r s) :=
  respond_keeps _ _ _ _ rfl rfl rfl (Keeps.refl _ _)

/-- A command with nothing amiss runs its meaning and answers (R539). -/
theorem runCommand_passed {s : State} {m op : Nat} {c : Cmd} (f : Req → State → State × Reply)
    (ht : (mbxOf s m).taken = some c) (ho : c.opcode = op) (hg : generalCheck m c s = none) :
    runCommand op m f s = respond m c (f ⟨m, targetOf m c, c⟩ s).2 (f ⟨m, targetOf m c, c⟩ s).1 := by
  simp only [runCommand, ht, ho, hg, ne_eq, not_true_eq_false, if_false]

/-- A command that a general check stops answers for it and has no effect (R539). -/
theorem runCommand_stopped {s : State} {m op : Nat} {c : Cmd} (f : Req → State → State × Reply) {r : Reply}
    (ht : (mbxOf s m).taken = some c) (ho : c.opcode = op) (hg : generalCheck m c s = some r) :
    runCommand op m f s = respond m c r s := by
  simp only [runCommand, ht, ho, hg, ne_eq, not_true_eq_false, if_false]

/-- A mailbox with no command taken has nothing due. -/
theorem runCommand_idle {s : State} {m : Nat} (op : Nat) (f : Req → State → State × Reply) (ht : (mbxOf s m).taken = none) :
    runCommand op m f s = s := by
  simp only [runCommand, ht]

/-- A due command answers a next state: its meaning's, with the response. -/
theorem run_due {s : State} {m op : Nat} {c : Cmd} (f : Req → State → State × Reply) (h : Due s m op c) :
    run (decide (m < 80)) "mailbox" (runCommand op m f s)
      = .next (respond m c (f ⟨m, targetOf m c, c⟩ s).2 (f ⟨m, targetOf m c, c⟩ s).1) := by
  rw [runCommand_passed f h.2.1 h.2.2.2.1 h.2.2.2.2]
  exact run_next (decide_eq_true h.1)

/-- A response with a status and a payload is an answer. -/
theorem respond_answered {s : State} {m : Nat} (c : Cmd) (st : Status) {body : List Byte} (h : (mbxOf s m).discard = false)
    (hl : body.length ≤ 1968) : Answered (respond m c { status := st, payload := body } s) m c st body := by
  rw [Answered, mbxOf_respond c _ h]
  exact ⟨rfl, rfl, by simp [List.take_of_length_le hl]⟩

/-- A failed command answers its status. -/
theorem failed_answered {s : State} {m : Nat} (c : Cmd) (st : Status) (h : (mbxOf s m).discard = false) :
    Answered (respond m c (failed st s).2 (failed st s).1) m c st [] := respond_answered c st h (by simp)

/-! ### Long operations (R30) -/

theorem opOf_congr {s t : State} (h : t.ops = s.ops) (k : Nat) : opOf t k = opOf s k := by
  unfold opOf
  rw [h]

/-- A response leaves the long operations alone. -/
@[simp] theorem opOf_respond (m k : Nat) (c : Cmd) (r : Reply) (s : State) : opOf (respond m c r s) k = opOf s k :=
  opOf_congr (Keeps.ops (respond_frame m c r s)) k

/-- An operation that ends is kept with its status and result; the others stay. -/
theorem opOf_finishOp {s : State} {h : Nat} {o : LongOp} (st : Status) (result : List Byte) (k : Nat) (ho : opOf s h = some o)
    (hf : o.finished = false) :
    opOf (finishOp h st result s) k
      = if k = h then some { o with finished := true, status := st, result := result, posted := nextPost s } else opOf s k := by
  simp only [finishOp, ho, hf, if_false, Bool.false_eq_true]
  rw [opOf_congr (Keeps.ops (post_frame _ _))]
  exact opOf_setOps_put ..

/-- An operation that ends is ended. -/
theorem finishOp_ended {s : State} {h : Nat} {o : LongOp} (st : Status) (result : List Byte) (ho : opOf s h = some o)
    (hf : o.finished = false) : Ended (finishOp h st result s) h st result :=
  ⟨_, (opOf_finishOp st result h ho hf).trans (if_pos rfl), rfl, rfl, rfl⟩

/-- A long operation starts under a handle nobody holds, or not at all where all 64 are held. -/
theorem startOp_spec (q : Req) (obj : Nat) (args : List Nat) (s : State) :
    (startOp q obj args s = (none, s) ∧ ∀ h < 64, tabHas s.ops h = true)
      ∨ ∃ h, h < 64 ∧ opOf s h = none
        ∧ startOp q obj args s = (some h, (s.setFresh (s.fresh + 1)).setOps (tabPut s.ops h
            { mbx := q.m, tag := q.cmd.tag, opcode := q.cmd.opcode, part := q.target, obj := obj, args := args })) := by
  unfold startOp
  rcases pickFree_spec 64 (fun h => tabHas s.ops h) s with ⟨e, h⟩ | ⟨k, e, h1, h2⟩
  · exact .inl ⟨by rw [e], h⟩
  · refine .inr ⟨k, h1, ?_, by rw [e]; rfl⟩
    simpa [tabHas, opOf] using h2

end Sys2Proof.Machine
end

