-- ==== Sys2Proof/Laws/Numbers.lean ====
section
/-!
SUPPORT. Byte order, counters and least numbers.
-/

namespace Sys2Proof.Machine

@[simp] theorem leBytes_length (n v : Nat) : (leBytes n v).length = n := by
  induction n generalizing v with
  | zero => rfl
  | succ n ih => simp [leBytes, ih]

/-- Little-endian bytes read back as the number, modulo their width (R10). -/
theorem leNat_leBytes (n v : Nat) : leNat (leBytes n v) = v % 256 ^ n := by
  induction n generalizing v with
  | zero => simp [leBytes, leNat, Nat.mod_one]
  | succ n ih =>
    have h : v % (256 * 256 ^ n) = v % 256 + 256 * (v / 256 % 256 ^ n) := Nat.mod_mul
    rw [leBytes, leNat, ih, Nat.pow_succ, Nat.mul_comm (256 ^ n), h]
    simp [BitVec.toNat_ofNat]

theorem leNat_lt (l : List Byte) : leNat l < 256 ^ l.length := by
  induction l with
  | nil => simp [leNat]
  | cons b r ih =>
    have h : b.toNat < 256 := b.isLt
    rw [leNat, List.length_cons, Nat.pow_succ]
    omega

theorem field_lt (p : List Byte) (i n : Nat) : field p i n < 256 ^ n :=
  Nat.lt_of_lt_of_le (leNat_lt _) (Nat.pow_le_pow_right (by decide) (List.length_take_le ..))

/-- The first field of a payload that begins with it. -/
theorem field_first (n v : Nat) (r : List Byte) : field (leBytes n v ++ r) 0 n = v % 256 ^ n := by
  unfold field
  rw [List.drop_zero, List.take_left' (leBytes_length n v), leNat_leBytes]

/-- A field behind a head of known length. -/
theorem field_append (h r : List Byte) (i n : Nat) : field (h ++ r) (h.length + i) n = field r i n := by
  unfold field
  rw [List.drop_append, List.drop_of_length_le (Nat.le_add_right _ _)]
  simp

/-- A counter never passes its maximum (R14). -/
theorem ctrAdd_val_le (c : Ctr) (n : Nat) : (ctrAdd c n).val ≤ ctrMax := by
  unfold ctrAdd
  split
  · rename_i h
    exact Nat.le_of_lt h
  · exact Nat.le_refl _

/-- A counter below its maximum counts exactly (R14). -/
theorem ctrAdd_exact {c : Ctr} {n : Nat} (h : c.val + n < ctrMax) : ctrAdd c n = { c with val := c.val + n } := if_pos h

/-- The least number with a property is below the bound, has it, and none below it has. -/
theorem firstBelow_some {n k : Nat} {p : Nat → Bool} (h : firstBelow n p = some k) : k < n ∧ p k = true ∧ ∀ j < k, p j = false := by
  obtain ⟨hp, as, bs, e, hb⟩ := List.find?_eq_some_iff_append.1 h
  have hl : as.length < (List.range n).length := by rw [e]; simp
  have hk : k = as.length := by
    have h1 : (List.range n)[as.length]? = some k := by rw [e]; simp
    rw [List.getElem?_range (by simpa using hl)] at h1
    simpa using h1.symm
  subst hk
  refine ⟨by simpa using hl, hp, fun j hj => ?_⟩
  have hm : j ∈ as := by
    have h1 : (List.range n)[j]? = as[j]? := by rw [e, List.getElem?_append_left hj]
    rw [List.getElem?_range (Nat.lt_trans hj (by simpa using hl)), List.getElem?_eq_getElem hj] at h1
    exact (Option.some.inj h1) ▸ List.getElem_mem hj
  simpa using hb j hm

end Sys2Proof.Machine
end

