-- ==== Sys2Proof/Laws/PerInstr.lean ====
section
/-!
SUPPORT. Per command: what a device of the smaller grade can carry out, one of the larger can too (R1, R3).
-/

namespace Sys2Proof.Laws

open Sys2Proof Sys2Proof.Machine

/-- A command that exists on the T72 exists on the T96. -/
def Grades.Statement (i : Instr) : Prop := wellFormed .t72 i = true → wellFormed .t96 i = true

theorem and_mono {a b c d : Bool} (h1 : a = true → c = true) (h2 : b = true → d = true) (h : (a && b) = true) : (c && d) = true := by
  rw [Bool.and_eq_true] at h ⊢
  exact ⟨h1 h.1, h2 h.2⟩

theorem or_mono {a b c d : Bool} (h1 : a = true → c = true) (h2 : b = true → d = true) (h : (a || b) = true) : (c || d) = true := by
  rw [Bool.or_eq_true] at h ⊢
  exact h.imp h1 h2

theorem lt_mono {k a b : Nat} (hab : a ≤ b) (h : decide (k < a) = true) : decide (k < b) = true :=
  decide_eq_true (Nat.lt_of_lt_of_le (of_decide_eq_true h) hab)

theorem all_mono {α : Type} {l : List α} {p q : α → Bool} (hpq : ∀ x, p x = true → q x = true) (h : l.all p = true) :
    l.all q = true := List.all_eq_true.2 fun x hx => hpq x (List.all_eq_true.1 h x hx)

theorem unit_mono {u : Nat} : unitExists .t72 u = true → unitExists .t96 u = true :=
  or_mono (or_mono (or_mono (or_mono (lt_mono (by decide)) (and_mono id (lt_mono (by decide)))) id) (and_mono id (lt_mono (by decide)))) id

theorem place_mono {p : Place} : placeExists .t72 p = true → placeExists .t96 p = true :=
  match p with
  | .array _ => lt_mono (by decide)
  | .tile _ => lt_mono (by decide)
  | .coding => id
  | .dram => id
  | .hdm => id
  | .capture => id
  | .staging => id
  | .region .. => id

theorem Grades.linkTraining (lanes rate : Nat) : Grades.Statement (.linkTraining lanes rate) := fun h => h

theorem Grades.mbxGo (m : Nat) (abort ack irqEn : Bool) (ring : Nat) :
    Grades.Statement (.mbxGo m abort ack irqEn ring) := fun h => h

theorem Grades.mbxAbort (m : Nat) (ack irqEn : Bool) (ring : Nat) : Grades.Statement (.mbxAbort m ack irqEn ring) := fun h => h

theorem Grades.mbxAck (m : Nat) (irqEn : Bool) (ring : Nat) : Grades.Statement (.mbxAck m irqEn ring) := fun h => h

theorem Grades.commandTaken (m : Nat) (errs : List (CtlMem × Nat)) : Grades.Statement (.commandTaken m errs) := fun h => h

theorem Grades.mbxTimeout (m : Nat) : Grades.Statement (.mbxTimeout m) := fun h => h

theorem Grades.registerWrite (w : RegWindow) (offset size value : Nat) :
    Grades.Statement (.registerWrite w offset size value) := fun h => h

theorem Grades.nop (m : Nat) : Grades.Statement (.nop m) := fun h => h

theorem Grades.eventRingConfig (m : Nat) : Grades.Statement (.eventRingConfig m) := fun h => h

theorem Grades.cancel (m : Nat) : Grades.Statement (.cancel m) := fun h => h

theorem Grades.queryOperation (m : Nat) : Grades.Statement (.queryOperation m) := fun h => h

theorem Grades.ringCreate (m : Nat) : Grades.Statement (.ringCreate m) := fun h => h

theorem Grades.ringDestroy (m : Nat) : Grades.Statement (.ringDestroy m) := fun h => h

theorem Grades.telemetryClear (m : Nat) : Grades.Statement (.telemetryClear m) := fun h => h

theorem Grades.eventRingConsWrite (ring value : Nat) : Grades.Statement (.eventRingConsWrite ring value) := fun h => h

theorem Grades.doorbellWrite (d : Doorbell) (value : Nat) : Grades.Statement (.doorbellWrite d value) := fun h => h

theorem Grades.telemetrySnapshot : Grades.Statement (.telemetrySnapshot) := fun h => h

theorem Grades.refLost : Grades.Statement (.refLost) := fun h => h

theorem Grades.refReturn : Grades.Statement (.refReturn) := fun h => h

theorem Grades.servoInput (e : Int) (m : Tick) : Grades.Statement (.servoInput e m) := fun h => h

theorem Grades.holdoverStart : Grades.Statement (.holdoverStart) := fun h => h

theorem Grades.holdoverLimit : Grades.Statement (.holdoverLimit) := fun h => h

theorem Grades.ptpFrame (mac : Nat) (msg : PtpMsg) : Grades.Statement (.ptpFrame mac msg) := fun h => h

theorem Grades.ptpTransmit (mac : Nat) (kind : PtpKind) : Grades.Statement (.ptpTransmit mac kind) := fun h => h

theorem Grades.esmcReceive (mac ql : Nat) : Grades.Statement (.esmcReceive mac ql) := fun h => h

theorem Grades.esmcTransmit (mac ql : Nat) : Grades.Statement (.esmcTransmit mac ql) := fun h => h

theorem Grades.ppsInEdge : Grades.Statement (.ppsInEdge) := fun h => h

theorem Grades.ppsMissed : Grades.Statement (.ppsMissed) := fun h => h

theorem Grades.ppsOutRise : Grades.Statement (.ppsOutRise) := fun h => h

theorem Grades.ppsOutFall : Grades.Statement (.ppsOutFall) := fun h => h

theorem Grades.freeRead (low : Bool) : Grades.Statement (.freeRead low) := fun h => h

theorem Grades.lowHalfRead (offset : Nat) : Grades.Statement (.lowHalfRead offset) := fun h => h

theorem Grades.timeRead (m : Nat) : Grades.Statement (.timeRead m) := fun h => h

theorem Grades.timeServoConfig (m : Nat) : Grades.Statement (.timeServoConfig m) := fun h => h

theorem Grades.timeSource (m : Nat) : Grades.Statement (.timeSource m) := fun h => h

theorem Grades.timeStep (m : Nat) : Grades.Statement (.timeStep m) := fun h => h

theorem Grades.frameConfig (m : Nat) : Grades.Statement (.frameConfig m) := fun h => h

theorem Grades.noonArm (m : Nat) : Grades.Statement (.noonArm m) := fun h => h

theorem Grades.noonDisarm (m : Nat) : Grades.Statement (.noonDisarm m) := fun h => h

theorem Grades.ppsConfig (m : Nat) : Grades.Statement (.ppsConfig m) := fun h => h

theorem Grades.noonList (m : Nat) : Grades.Statement (.noonList m) := fun h => h

theorem Grades.noonFired (k : Nat) : Grades.Statement (.noonFired k) := fun h => h

theorem Grades.mma (d : MatDesc) (stop : Option Nat) : Grades.Statement (.mma d stop) := by
  repeat' first
    | exact fun h => h | exact unit_mono | exact place_mono | exact lt_mono (by decide) | apply and_mono | apply all_mono | intro _

theorem Grades.moverCopy (d : CopyDesc) (stop : Option Nat) : Grades.Statement (.moverCopy d stop) := by
  repeat' first
    | exact fun h => h | exact unit_mono | exact place_mono | exact lt_mono (by decide) | apply and_mono | apply all_mono | intro _

theorem Grades.waitFree (producer sl unit entry : Nat) : Grades.Statement (.waitFree producer sl unit entry) := by
  repeat' first
    | exact fun h => h | exact unit_mono | exact place_mono | exact lt_mono (by decide) | apply and_mono | apply all_mono | intro _

theorem Grades.waitFreeResume (producer sl unit entry : Nat) : Grades.Statement (.waitFreeResume producer sl unit entry) := by
  repeat' first
    | exact fun h => h | exact unit_mono | exact place_mono | exact lt_mono (by decide) | apply and_mono | apply all_mono | intro _

theorem Grades.post (poster sl unit entry len : Nat) : Grades.Statement (.post poster sl unit entry len) := by
  repeat' first
    | exact fun h => h | exact unit_mono | exact place_mono | exact lt_mono (by decide) | apply and_mono | apply all_mono | intro _

theorem Grades.waitFull (unit sl entry : Nat) : Grades.Statement (.waitFull unit sl entry) := by
  repeat' first
    | exact fun h => h | exact unit_mono | exact place_mono | exact lt_mono (by decide) | apply and_mono | apply all_mono | intro _

theorem Grades.waitFullResume (unit sl entry : Nat) : Grades.Statement (.waitFullResume unit sl entry) := by
  repeat' first
    | exact fun h => h | exact unit_mono | exact place_mono | exact lt_mono (by decide) | apply and_mono | apply all_mono | intro _

theorem Grades.release (unit sl entry : Nat) : Grades.Statement (.release unit sl entry) := by
  repeat' first
    | exact fun h => h | exact unit_mono | exact place_mono | exact lt_mono (by decide) | apply and_mono | apply all_mono | intro _

theorem Grades.releaseReturn (unit entry : Nat) : Grades.Statement (.releaseReturn unit entry) := by
  repeat' first
    | exact fun h => h | exact unit_mono | exact place_mono | exact lt_mono (by decide) | apply and_mono | apply all_mono | intro _

theorem Grades.vld (t sl vd a : Nat) (c8 : Bool) : Grades.Statement (.vld t sl vd a c8) := by
  repeat' first
    | exact fun h => h | exact unit_mono | exact place_mono | exact lt_mono (by decide) | apply and_mono | apply all_mono | intro _

theorem Grades.vld2 (t sl vd a : Nat) (c8 : Bool) : Grades.Statement (.vld2 t sl vd a c8) := by
  repeat' first
    | exact fun h => h | exact unit_mono | exact place_mono | exact lt_mono (by decide) | apply and_mono | apply all_mono | intro _

theorem Grades.vst (t sl vs a : Nat) : Grades.Statement (.vst t sl vs a) := by
  repeat' first
    | exact fun h => h | exact unit_mono | exact place_mono | exact lt_mono (by decide) | apply and_mono | apply all_mono | intro _

theorem Grades.vgath (t sl vd va a : Nat) : Grades.Statement (.vgath t sl vd va a) := by
  repeat' first
    | exact fun h => h | exact unit_mono | exact place_mono | exact lt_mono (by decide) | apply and_mono | apply all_mono | intro _

theorem Grades.vscat (t sl vs va a : Nat) : Grades.Statement (.vscat t sl vs va a) := by
  repeat' first
    | exact fun h => h | exact unit_mono | exact place_mono | exact lt_mono (by decide) | apply and_mono | apply all_mono | intro _

theorem Grades.mac (t sl va vb : Nat) : Grades.Statement (.mac t sl va vb) := by
  repeat' first
    | exact fun h => h | exact unit_mono | exact place_mono | exact lt_mono (by decide) | apply and_mono | apply all_mono | intro _

theorem Grades.mul (t sl vd va vb : Nat) (sh : ShiftSrc) : Grades.Statement (.mul t sl vd va vb sh) := by
  repeat' first
    | exact fun h => h | exact unit_mono | exact place_mono | exact lt_mono (by decide) | apply and_mono | apply all_mono | intro _

theorem Grades.add (t sl vd va vb : Nat) : Grades.Statement (.add t sl vd va vb) := by
  repeat' first
    | exact fun h => h | exact unit_mono | exact place_mono | exact lt_mono (by decide) | apply and_mono | apply all_mono | intro _

theorem Grades.sub (t sl vd va vb : Nat) : Grades.Statement (.sub t sl vd va vb) := by
  repeat' first
    | exact fun h => h | exact unit_mono | exact place_mono | exact lt_mono (by decide) | apply and_mono | apply all_mono | intro _

theorem Grades.shift (t sl vd va : Nat) (sh : ShiftSrc) : Grades.Statement (.shift t sl vd va sh) := by
  repeat' first
    | exact fun h => h | exact unit_mono | exact place_mono | exact lt_mono (by decide) | apply and_mono | apply all_mono | intro _

theorem Grades.select (t sl vd vp va vb : Nat) : Grades.Statement (.select t sl vd vp va vb) := by
  repeat' first
    | exact fun h => h | exact unit_mono | exact place_mono | exact lt_mono (by decide) | apply and_mono | apply all_mono | intro _

theorem Grades.cmac (t sl va vb : Nat) : Grades.Statement (.cmac t sl va vb) := by
  repeat' first
    | exact fun h => h | exact unit_mono | exact place_mono | exact lt_mono (by decide) | apply and_mono | apply all_mono | intro _

theorem Grades.cmacj (t sl va vb : Nat) : Grades.Statement (.cmacj t sl va vb) := by
  repeat' first
    | exact fun h => h | exact unit_mono | exact place_mono | exact lt_mono (by decide) | apply and_mono | apply all_mono | intro _

theorem Grades.cmul (t sl va vb : Nat) : Grades.Statement (.cmul t sl va vb) := by
  repeat' first
    | exact fun h => h | exact unit_mono | exact place_mono | exact lt_mono (by decide) | apply and_mono | apply all_mono | intro _

theorem Grades.accst (t sl : Nat) (f : Fmt) (vd : Nat) (sh : ShiftSrc) : Grades.Statement (.accst t sl f vd sh) := by
  repeat' first
    | exact fun h => h | exact unit_mono | exact place_mono | exact lt_mono (by decide) | apply and_mono | apply all_mono | intro _

theorem Grades.bfly2 (t sl x w s : Nat) : Grades.Statement (.bfly2 t sl x w s) := by
  repeat' first
    | exact fun h => h | exact unit_mono | exact place_mono | exact lt_mono (by decide) | apply and_mono | apply all_mono | intro _

theorem Grades.bfly4 (t sl x w s : Nat) : Grades.Statement (.bfly4 t sl x w s) := by
  repeat' first
    | exact fun h => h | exact unit_mono | exact place_mono | exact lt_mono (by decide) | apply and_mono | apply all_mono | intro _

theorem Grades.bfly8 (t sl x w s : Nat) : Grades.Statement (.bfly8 t sl x w s) := by
  repeat' first
    | exact fun h => h | exact unit_mono | exact place_mono | exact lt_mono (by decide) | apply and_mono | apply all_mono | intro _

theorem Grades.vadd (t sl : Nat) (f : Fmt) (vd va vb : Nat) : Grades.Statement (.vadd t sl f vd va vb) := by
  repeat' first
    | exact fun h => h | exact unit_mono | exact place_mono | exact lt_mono (by decide) | apply and_mono | apply all_mono | intro _

theorem Grades.vsub (t sl : Nat) (f : Fmt) (vd va vb : Nat) : Grades.Statement (.vsub t sl f vd va vb) := by
  repeat' first
    | exact fun h => h | exact unit_mono | exact place_mono | exact lt_mono (by decide) | apply and_mono | apply all_mono | intro _

theorem Grades.vmul (t sl : Nat) (f : Fmt) (vd va vb : Nat) : Grades.Statement (.vmul t sl f vd va vb) := by
  repeat' first
    | exact fun h => h | exact unit_mono | exact place_mono | exact lt_mono (by decide) | apply and_mono | apply all_mono | intro _

theorem Grades.vfma (t sl : Nat) (f : Fmt) (vd va vb vc : Nat) : Grades.Statement (.vfma t sl f vd va vb vc) := by
  repeat' first
    | exact fun h => h | exact unit_mono | exact place_mono | exact lt_mono (by decide) | apply and_mono | apply all_mono | intro _

theorem Grades.vmin (t sl : Nat) (f : Fmt) (vd va vb : Nat) : Grades.Statement (.vmin t sl f vd va vb) := by
  repeat' first
    | exact fun h => h | exact unit_mono | exact place_mono | exact lt_mono (by decide) | apply and_mono | apply all_mono | intro _

theorem Grades.vmax (t sl : Nat) (f : Fmt) (vd va vb : Nat) : Grades.Statement (.vmax t sl f vd va vb) := by
  repeat' first
    | exact fun h => h | exact unit_mono | exact place_mono | exact lt_mono (by decide) | apply and_mono | apply all_mono | intro _

theorem Grades.vexp (t sl : Nat) (f : Fmt) (vd va : Nat) : Grades.Statement (.vexp t sl f vd va) := by
  repeat' first
    | exact fun h => h | exact unit_mono | exact place_mono | exact lt_mono (by decide) | apply and_mono | apply all_mono | intro _

theorem Grades.vlog (t sl : Nat) (f : Fmt) (vd va : Nat) : Grades.Statement (.vlog t sl f vd va) := by
  repeat' first
    | exact fun h => h | exact unit_mono | exact place_mono | exact lt_mono (by decide) | apply and_mono | apply all_mono | intro _

theorem Grades.vrcp (t sl : Nat) (f : Fmt) (vd va : Nat) : Grades.Statement (.vrcp t sl f vd va) := by
  repeat' first
    | exact fun h => h | exact unit_mono | exact place_mono | exact lt_mono (by decide) | apply and_mono | apply all_mono | intro _

theorem Grades.vrsqrt (t sl : Nat) (f : Fmt) (vd va : Nat) : Grades.Statement (.vrsqrt t sl f vd va) := by
  repeat' first
    | exact fun h => h | exact unit_mono | exact place_mono | exact lt_mono (by decide) | apply and_mono | apply all_mono | intro _

theorem Grades.vtanh (t sl : Nat) (f : Fmt) (vd va : Nat) : Grades.Statement (.vtanh t sl f vd va) := by
  repeat' first
    | exact fun h => h | exact unit_mono | exact place_mono | exact lt_mono (by decide) | apply and_mono | apply all_mono | intro _

theorem Grades.vsigm (t sl : Nat) (f : Fmt) (vd va : Nat) : Grades.Statement (.vsigm t sl f vd va) := by
  repeat' first
    | exact fun h => h | exact unit_mono | exact place_mono | exact lt_mono (by decide) | apply and_mono | apply all_mono | intro _

theorem Grades.cvt (t sl : Nat) (src dst : Fmt) (vd va : Nat) (r : Rounding) (quad : Option QuadCvt) :
    Grades.Statement (.cvt t sl src dst vd va r quad) := by
  cases quad <;>
    repeat' first
    | exact fun h => h | exact unit_mono | exact place_mono | exact lt_mono (by decide) | apply and_mono | apply all_mono | intro _

theorem Grades.mxq (t sl : Nat) (dst : Fmt) (vd va sc : Nat) (r : Rounding) (quad : Option QuadCvt) :
    Grades.Statement (.mxq t sl dst vd va sc r quad) := by
  cases quad <;>
    repeat' first
    | exact fun h => h | exact unit_mono | exact place_mono | exact lt_mono (by decide) | apply and_mono | apply all_mono | intro _

theorem Grades.mxd (t sl : Nat) (src dst : Fmt) (vd va sc : Nat) (quad : Option QuadCvt) :
    Grades.Statement (.mxd t sl src dst vd va sc quad) := by
  cases quad <;>
    repeat' first
    | exact fun h => h | exact unit_mono | exact place_mono | exact lt_mono (by decide) | apply and_mono | apply all_mono | intro _

theorem Grades.redSum (unit sl : Nat) (f : Fmt) (addr n sd : Nat) : Grades.Statement (.redSum unit sl f addr n sd) := by
  repeat' first
    | exact fun h => h | exact unit_mono | exact place_mono | exact lt_mono (by decide) | apply and_mono | apply all_mono | intro _

theorem Grades.loop (t sl n last : Nat) : Grades.Statement (.loop t sl n last) := by
  repeat' first
    | exact fun h => h | exact unit_mono | exact place_mono | exact lt_mono (by decide) | apply and_mono | apply all_mono | intro _

theorem Grades.rep (t n : Nat) (op : TileOp) : Grades.Statement (.rep t n op) := by
  repeat' first
    | exact fun h => h | exact unit_mono | exact place_mono | exact lt_mono (by decide) | apply and_mono | apply all_mono | intro _

theorem Grades.sbar (t sl mask : Nat) : Grades.Statement (.sbar t sl mask) := by
  repeat' first
    | exact fun h => h | exact unit_mono | exact place_mono | exact lt_mono (by decide) | apply and_mono | apply all_mono | intro _

theorem Grades.sbarResume (t : Nat) : Grades.Statement (.sbarResume t) := by
  repeat' first
    | exact fun h => h | exact unit_mono | exact place_mono | exact lt_mono (by decide) | apply and_mono | apply all_mono | intro _

theorem Grades.xsend (t sl : Nat) (dir : Int) (src dst b entry : Nat) (stop : Option Nat) :
    Grades.Statement (.xsend t sl dir src dst b entry stop) := by
  repeat' first
    | exact fun h => h | exact unit_mono | exact place_mono | exact lt_mono (by decide) | apply and_mono | apply all_mono | intro _

theorem Grades.xsendStallEnd (t sl : Nat) : Grades.Statement (.xsendStallEnd t sl) := by
  repeat' first
    | exact fun h => h | exact unit_mono | exact place_mono | exact lt_mono (by decide) | apply and_mono | apply all_mono | intro _

theorem Grades.rdraw (t sl vd sm sn : Nat) (vp : Option Nat) : Grades.Statement (.rdraw t sl vd sm sn vp) := by
  repeat' first
    | exact fun h => h | exact unit_mono | exact place_mono | exact lt_mono (by decide) | apply and_mono | apply all_mono | intro _

theorem Grades.runi (t sl vd sm sn : Nat) (vp : Option Nat) : Grades.Statement (.runi t sl vd sm sn vp) := by
  repeat' first
    | exact fun h => h | exact unit_mono | exact place_mono | exact lt_mono (by decide) | apply and_mono | apply all_mono | intro _

theorem Grades.rnormBm (t sl vd sm sn : Nat) (vp : Option Nat) : Grades.Statement (.rnormBm t sl vd sm sn vp) := by
  repeat' first
    | exact fun h => h | exact unit_mono | exact place_mono | exact lt_mono (by decide) | apply and_mono | apply all_mono | intro _

theorem Grades.rnormTab (t sl vd sm sn : Nat) (vp : Option Nat) : Grades.Statement (.rnormTab t sl vd sm sn vp) := by
  repeat' first
    | exact fun h => h | exact unit_mono | exact place_mono | exact lt_mono (by decide) | apply and_mono | apply all_mono | intro _

theorem Grades.gmax (t n addr sm sn sd : Nat) (vp : Option Nat) : Grades.Statement (.gmax t n addr sm sn sd vp) := by
  repeat' first
    | exact fun h => h | exact unit_mono | exact place_mono | exact lt_mono (by decide) | apply and_mono | apply all_mono | intro _

theorem Grades.topk (t n k addr dst sm sn : Nat) (vp : Option Nat) : Grades.Statement (.topk t n k addr dst sm sn vp) := by
  repeat' first
    | exact fun h => h | exact unit_mono | exact place_mono | exact lt_mono (by decide) | apply and_mono | apply all_mono | intro _

theorem Grades.rngSeed (m : Nat) : Grades.Statement (.rngSeed m) := fun h => h

theorem Grades.rngQuery (m : Nat) : Grades.Statement (.rngQuery m) := fun h => h

theorem Grades.rngEval (m : Nat) : Grades.Statement (.rngEval m) := fun h => h

theorem Grades.seal (table : Nat) (i : InstSpec) : Grades.Statement (.seal table i) := fun h => h

theorem Grades.sealLine (table slot : Nat) : Grades.Statement (.sealLine table slot) := fun h => h

theorem Grades.entryLaunch (table slot pos : Nat) (errs : List (CtlMem × Nat)) :
    Grades.Statement (.entryLaunch table slot pos errs) := fun h => h

theorem Grades.stageEnd (table slot pos : Nat) : Grades.Statement (.stageEnd table slot pos) := fun h => h

theorem Grades.reservationEnd (table slot pos : Nat) : Grades.Statement (.reservationEnd table slot pos) := fun h => h

theorem Grades.lendDecision : Grades.Statement (.lendDecision) := fun h => h

theorem Grades.microStepBlocking (ctx micro : Nat) : Grades.Statement (.microStepBlocking ctx micro) := fun h => h

theorem Grades.microStepEnd (ctx micro : Nat) : Grades.Statement (.microStepEnd ctx micro) := fun h => h

theorem Grades.backgroundItemStart (unit : Nat) (item : BgItem) : Grades.Statement (.backgroundItemStart unit item) := by
  repeat' first
    | exact fun h => h | exact unit_mono | exact place_mono | exact lt_mono (by decide) | apply and_mono | apply all_mono | intro _

theorem Grades.backgroundItemEnd (unit : Nat) (r : BgResult) : Grades.Statement (.backgroundItemEnd unit r) := by
  repeat' first
    | exact fun h => h | exact unit_mono | exact place_mono | exact lt_mono (by decide) | apply and_mono | apply all_mono | intro _

theorem Grades.tableLoad (m : Nat) (t : Option Template) : Grades.Statement (.tableLoad m t) := fun h => h

theorem Grades.tableLoadDone (h : Nat) : Grades.Statement (.tableLoadDone h) := fun h => h

theorem Grades.tableUnload (m : Nat) : Grades.Statement (.tableUnload m) := fun h => h

theorem Grades.tableStop (m : Nat) : Grades.Statement (.tableStop m) := fun h => h

theorem Grades.tableStatus (m : Nat) : Grades.Statement (.tableStatus m) := fun h => h

theorem Grades.lendConfig (m : Nat) : Grades.Statement (.lendConfig m) := fun h => h

theorem Grades.fhLink (mac : Nat) (up : Bool) : Grades.Statement (.fhLink mac up) := fun h => h

theorem Grades.frameReceive (mac : Nat) (f : RxFrame) : Grades.Statement (.frameReceive mac f) := fun h => h

theorem Grades.windowOpen (b slot symbol : Nat) : Grades.Statement (.windowOpen b slot symbol) := fun h => h

theorem Grades.symbolPost (b slot symbol : Nat) : Grades.Statement (.symbolPost b slot symbol) := fun h => h

theorem Grades.uplaneRelease (b slot symbol : Nat) : Grades.Statement (.uplaneRelease b slot symbol) := fun h => h

theorem Grades.cplaneRelease (b slot symbol : Nat) (msg : CPlane) :
    Grades.Statement (.cplaneRelease b slot symbol msg) := fun h => h

theorem Grades.transmitSelect (mac : Nat) : Grades.Statement (.transmitSelect mac) := fun h => h

theorem Grades.shaperRefill (mac q : Nat) : Grades.Statement (.shaperRefill mac q) := fun h => h

theorem Grades.policerRefill (mac i : Nat) : Grades.Statement (.policerRefill mac i) := fun h => h

theorem Grades.gateEdge (mac : Nat) : Grades.Statement (.gateEdge mac) := fun h => h

theorem Grades.gclSwitched (mac : Nat) : Grades.Statement (.gclSwitched mac) := fun h => h

theorem Grades.ethTx (ring : Nat) : Grades.Statement (.ethTx ring) := fun h => h

theorem Grades.fhPortMode (m : Nat) : Grades.Statement (.fhPortMode m) := fun h => h

theorem Grades.fhMacConfig (m : Nat) : Grades.Statement (.fhMacConfig m) := fun h => h

theorem Grades.fhQueueConfig (m : Nat) : Grades.Statement (.fhQueueConfig m) := fun h => h

theorem Grades.fhGclSet (m : Nat) : Grades.Statement (.fhGclSet m) := fun h => h

theorem Grades.fhPolicerSet (m : Nat) : Grades.Statement (.fhPolicerSet m) := fun h => h

theorem Grades.fhAsymSet (m : Nat) : Grades.Statement (.fhAsymSet m) := fun h => h

theorem Grades.fhStatus (m : Nat) : Grades.Statement (.fhStatus m) := fun h => h

theorem Grades.ldInputPhase (eng : Nat) : Grades.Statement (.ldInputPhase eng) := fun h => h

theorem Grades.ldDecodePhase (eng : Nat) : Grades.Statement (.ldDecodePhase eng) := fun h => h

theorem Grades.ldOutputPhase (eng : Nat) : Grades.Statement (.ldOutputPhase eng) := fun h => h

theorem Grades.leJob (eng : Nat) : Grades.Statement (.leJob eng) := fun h => h

theorem Grades.pdJob (eng : Nat) (j : CodeJob) : Grades.Statement (.pdJob eng j) := fun h => h

theorem Grades.peJob (eng : Nat) (j : CodeJob) : Grades.Statement (.peJob eng j) := fun h => h

theorem Grades.gainSet (m : Nat) : Grades.Statement (.gainSet m) := fun h => h

theorem Grades.stageRecords (m : Nat) : Grades.Statement (.stageRecords m) := fun h => h

theorem Grades.cellCreate (m : Nat) : Grades.Statement (.cellCreate m) := fun h => h

theorem Grades.cellDestroy (m : Nat) : Grades.Statement (.cellDestroy m) := fun h => h

theorem Grades.cellQuery (m : Nat) : Grades.Statement (.cellQuery m) := fun h => h

theorem Grades.twinPair (m : Nat) (peerEqual : Bool) : Grades.Statement (.twinPair m peerEqual) := fun h => h

theorem Grades.twinUnpair (m : Nat) : Grades.Statement (.twinUnpair m) := fun h => h

theorem Grades.paramRequest (ring : Nat) : Grades.Statement (.paramRequest ring) := fun h => h

theorem Grades.configRequest (ring : Nat) (items : List ConfigItem) : Grades.Statement (.configRequest ring items) := fun h => h

theorem Grades.startRequest (ring : Nat) : Grades.Statement (.startRequest ring) := fun h => h

theorem Grades.stopRequest (ring : Nat) : Grades.Statement (.stopRequest ring) := fun h => h

theorem Grades.dlTtiRequest (ring : Nat) (msg : SlotMsg) : Grades.Statement (.dlTtiRequest ring msg) := fun h => h

theorem Grades.ulTtiRequest (ring : Nat) (msg : SlotMsg) : Grades.Statement (.ulTtiRequest ring msg) := fun h => h

theorem Grades.ulDciRequest (ring : Nat) (msg : SlotMsg) : Grades.Statement (.ulDciRequest ring msg) := fun h => h

theorem Grades.txDataRequest (ring : Nat) (msg : TxMsg) : Grades.Statement (.txDataRequest ring msg) := fun h => h

theorem Grades.kPrioRequest (ring : Nat) (msg : PrioMsg) : Grades.Statement (.kPrioRequest ring msg) := fun h => h

theorem Grades.unsupportedMessage (ring identity : Nat) : Grades.Statement (.unsupportedMessage ring identity) := fun h => h

theorem Grades.intakeLine (part cell slot : Nat) : Grades.Statement (.intakeLine part cell slot) := fun h => h

theorem Grades.slotIndication (part cell slot : Nat) : Grades.Statement (.slotIndication part cell slot) := fun h => h

theorem Grades.twinMirrorRecord (part cell : Nat) (r : MirrorRec) :
    Grades.Statement (.twinMirrorRecord part cell r) := fun h => h

theorem Grades.twinCommit (part cell slot : Nat) : Grades.Statement (.twinCommit part cell slot) := fun h => h

theorem Grades.commitResult (part cell : Nat) (o : CommitOutcome) : Grades.Statement (.commitResult part cell o) := fun h => h

theorem Grades.sweepChannelSet (m : Nat) : Grades.Statement (.sweepChannelSet m) := fun h => h

theorem Grades.sweepChannelClear (m : Nat) : Grades.Statement (.sweepChannelClear m) := fun h => h

theorem Grades.sweepStatus (m : Nat) : Grades.Statement (.sweepStatus m) := fun h => h

theorem Grades.sweepTx (ring : Nat) : Grades.Statement (.sweepTx ring) := fun h => h

theorem Grades.sweepTxDone (chan : Nat) : Grades.Statement (.sweepTxDone chan) := fun h => h

theorem Grades.sweepDetectionWindow (chan sf : Nat) : Grades.Statement (.sweepDetectionWindow chan sf) := fun h => h

theorem Grades.sweepSymbol (chan sf t0 : Nat) (f : Int) : Grades.Statement (.sweepSymbol chan sf t0 f) := fun h => h

theorem Grades.ctxCreate (m : Nat) (places : List Placement) : Grades.Statement (.ctxCreate m places) := fun h => h

theorem Grades.ctxCreateDone (h : Nat) : Grades.Statement (.ctxCreateDone h) := fun h => h

theorem Grades.ctxDestroy (m : Nat) : Grades.Statement (.ctxDestroy m) := fun h => h

theorem Grades.ctxDestroyDone (h : Nat) : Grades.Statement (.ctxDestroyDone h) := fun h => h

theorem Grades.ctxWrite (m : Nat) : Grades.Statement (.ctxWrite m) := fun h => h

theorem Grades.ctxWriteDone (h : Nat) : Grades.Statement (.ctxWriteDone h) := fun h => h

theorem Grades.ctxReside (m : Nat) : Grades.Statement (.ctxReside m) := fun h => h

theorem Grades.residencyDone (ctx : Nat) : Grades.Statement (.residencyDone ctx) := fun h => h

theorem Grades.ctxEvict (m : Nat) : Grades.Statement (.ctxEvict m) := fun h => h

theorem Grades.ctxFlush (m : Nat) : Grades.Statement (.ctxFlush m) := fun h => h

theorem Grades.ctxQuery (m : Nat) : Grades.Statement (.ctxQuery m) := fun h => h

theorem Grades.stepSubmit (ring : Nat) : Grades.Statement (.stepSubmit ring) := fun h => h

theorem Grades.batchStepStart (ctx : Nat) : Grades.Statement (.batchStepStart ctx) := fun h => h

theorem Grades.batchStepCommit (ctx : Nat) : Grades.Statement (.batchStepCommit ctx) := fun h => h

theorem Grades.stepBoundExpiry (ctx : Nat) : Grades.Statement (.stepBoundExpiry ctx) := fun h => h

theorem Grades.stepDone (ring : Nat) : Grades.Statement (.stepDone ring) := fun h => h

theorem Grades.noonHoldTimeout (ctx : Nat) : Grades.Statement (.noonHoldTimeout ctx) := fun h => h

theorem Grades.partCreate (m : Nat) : Grades.Statement (.partCreate m) := fun h => h

theorem Grades.partCreateDone (h : Nat) : Grades.Statement (.partCreateDone h) := fun h => h

theorem Grades.partRemove (m : Nat) : Grades.Statement (.partRemove m) := fun h => h

theorem Grades.partReset (m : Nat) : Grades.Statement (.partReset m) := fun h => h

theorem Grades.functionLevelReset (part : Nat) : Grades.Statement (.functionLevelReset part) := fun h => h

theorem Grades.resetFabricDrain (part : Nat) : Grades.Statement (.resetFabricDrain part) := fun h => h

theorem Grades.resetHostDrain (part late : Nat) : Grades.Statement (.resetHostDrain part late) := fun h => h

theorem Grades.partResetDone (part : Nat) : Grades.Statement (.partResetDone part) := fun h => h

theorem Grades.partQuery (m : Nat) : Grades.Statement (.partQuery m) := fun h => h

theorem Grades.partFreeze (m : Nat) : Grades.Statement (.partFreeze m) := fun h => h

theorem Grades.freezeComplete (part : Nat) : Grades.Statement (.freezeComplete part) := fun h => h

theorem Grades.partThaw (m : Nat) : Grades.Statement (.partThaw m) := fun h => h

theorem Grades.partSave (m : Nat) : Grades.Statement (.partSave m) := fun h => h

theorem Grades.partRestore (m : Nat) (head : StreamHead) : Grades.Statement (.partRestore m head) := fun h => h

theorem Grades.partQuota (m : Nat) : Grades.Statement (.partQuota m) := fun h => h

theorem Grades.quarantineEnd (job : Nat) : Grades.Statement (.quarantineEnd job) := fun h => h

theorem Grades.fabDeviceConfig (m : Nat) : Grades.Statement (.fabDeviceConfig m) := fun h => h

theorem Grades.fabPortConfig (m : Nat) : Grades.Statement (.fabPortConfig m) := fun h => h

theorem Grades.fabJobTake (m : Nat) : Grades.Statement (.fabJobTake m) := fun h => h

theorem Grades.fabJobRelease (m : Nat) : Grades.Statement (.fabJobRelease m) := fun h => h

theorem Grades.fabWindowSet (m : Nat) : Grades.Statement (.fabWindowSet m) := fun h => h

theorem Grades.fabWindowClear (m : Nat) : Grades.Statement (.fabWindowClear m) := fun h => h

theorem Grades.fabStatus (m : Nat) : Grades.Statement (.fabStatus m) := fun h => h

theorem Grades.fabPort (port : Nat) (up : Bool) : Grades.Statement (.fabPort port up) := by
  repeat' first
    | exact fun h => h | exact unit_mono | exact place_mono | exact lt_mono (by decide) | apply and_mono | apply all_mono | intro _

theorem Grades.fabricRequestIssue (d : FabDesc) : Grades.Statement (.fabricRequestIssue d) := fun h => h

theorem Grades.fabricIssueResume (ctx : Nat) : Grades.Statement (.fabricIssueResume ctx) := fun h => h

theorem Grades.load (r : FabReq) : Grades.Statement (.load r) := fun h => h

theorem Grades.store (r : FabReq) : Grades.Statement (.store r) := fun h => h

theorem Grades.get (r : FabReq) : Grades.Statement (.get r) := fun h => h

theorem Grades.put (r : FabReq) : Grades.Statement (.put r) := fun h => h

theorem Grades.reduceAdd (r : FabReq) : Grades.Statement (.reduceAdd r) := fun h => h

theorem Grades.atomicAdd (r : FabReq) : Grades.Statement (.atomicAdd r) := fun h => h

theorem Grades.atomicAnd (r : FabReq) : Grades.Statement (.atomicAnd r) := fun h => h

theorem Grades.atomicOr (r : FabReq) : Grades.Statement (.atomicOr r) := fun h => h

theorem Grades.atomicXor (r : FabReq) : Grades.Statement (.atomicXor r) := fun h => h

theorem Grades.addR (r : FabReq) : Grades.Statement (.addR r) := fun h => h

theorem Grades.andR (r : FabReq) : Grades.Statement (.andR r) := fun h => h

theorem Grades.orR (r : FabReq) : Grades.Statement (.orR r) := fun h => h

theorem Grades.xorR (r : FabReq) : Grades.Statement (.xorR r) := fun h => h

theorem Grades.xchg (r : FabReq) : Grades.Statement (.xchg r) := fun h => h

theorem Grades.cas (r : FabReq) : Grades.Statement (.cas r) := fun h => h

theorem Grades.fadd (r : FabReq) (b16 : Bool) : Grades.Statement (.fadd r b16) := fun h => h

theorem Grades.faddR (r : FabReq) (b16 : Bool) : Grades.Statement (.faddR r b16) := fun h => h

theorem Grades.fabricReply (r : FabReply) : Grades.Statement (.fabricReply r) := fun h => h

theorem Grades.replyTimeout (dst tag : Nat) : Grades.Statement (.replyTimeout dst tag) := fun h => h

theorem Grades.lifetimeExpiry (dst tag : Nat) : Grades.Statement (.lifetimeExpiry dst tag) := fun h => h

theorem Grades.sourceRecordExpiry (src : Nat) : Grades.Statement (.sourceRecordExpiry src) := fun h => h

theorem Grades.ledgerEntryExpiry (src tag : Nat) : Grades.Statement (.ledgerEntryExpiry src tag) := fun h => h

theorem Grades.ffence (ctx micro mover : Nat) (scope : Option Nat) :
    Grades.Statement (.ffence ctx micro mover scope) := fun h => h

theorem Grades.ffenceComplete (ctx : Nat) : Grades.Statement (.ffenceComplete ctx) := fun h => h

theorem Grades.syncDescriptor (ctx micro : Nat) (d : SyncDesc) : Grades.Statement (.syncDescriptor ctx micro d) := fun h => h

theorem Grades.syncListApply (ctx micro : Nat) : Grades.Statement (.syncListApply ctx micro) := fun h => h

theorem Grades.syncCreate (m : Nat) : Grades.Statement (.syncCreate m) := fun h => h

theorem Grades.syncDestroy (m : Nat) : Grades.Statement (.syncDestroy m) := fun h => h

theorem Grades.syncOp (m : Nat) : Grades.Statement (.syncOp m) := fun h => h

theorem Grades.syncQuery (m : Nat) : Grades.Statement (.syncQuery m) := fun h => h

theorem Grades.syncDump (m : Nat) : Grades.Statement (.syncDump m) := fun h => h

theorem Grades.syncReset (m : Nat) : Grades.Statement (.syncReset m) := fun h => h

theorem Grades.detMode (m : Nat) : Grades.Statement (.detMode m) := fun h => h

theorem Grades.detQuery (m : Nat) : Grades.Statement (.detQuery m) := fun h => h

theorem Grades.hltReset (m : Nat) : Grades.Statement (.hltReset m) := fun h => h

theorem Grades.hltWindows (m : Nat) : Grades.Statement (.hltWindows m) := fun h => h

theorem Grades.memberConfig (m : Nat) : Grades.Statement (.memberConfig m) := fun h => h

theorem Grades.memberQuery (m : Nat) : Grades.Statement (.memberQuery m) := fun h => h

theorem Grades.memberJoin (m : Nat) : Grades.Statement (.memberJoin m) := fun h => h

theorem Grades.memberSuspect (m : Nat) : Grades.Statement (.memberSuspect m) := fun h => h

theorem Grades.stepLedgerBind (m : Nat) : Grades.Statement (.stepLedgerBind m) := fun h => h

theorem Grades.ledgerCasResult (ctx : Nat) (status : Nat) (old : Nat) :
    Grades.Statement (.ledgerCasResult ctx status old) := fun h => h

theorem Grades.stepSlow (ctx : Nat) : Grades.Statement (.stepSlow ctx) := fun h => h

theorem Grades.faultLogConsWrite (part : Option Nat) (value : Nat) :
    Grades.Statement (.faultLogConsWrite part value) := fun h => h

theorem Grades.radioHang (unit : Nat) : Grades.Statement (.radioHang unit) := by
  repeat' first
    | exact fun h => h | exact unit_mono | exact place_mono | exact lt_mono (by decide) | apply and_mono | apply all_mono | intro _

theorem Grades.inferenceHang (ctx : Nat) : Grades.Statement (.inferenceHang ctx) := fun h => h

theorem Grades.contextResetDone (ctx : Nat) : Grades.Statement (.contextResetDone ctx) := fun h => h

theorem Grades.gridResetPhaseB : Grades.Statement (.gridResetPhaseB) := fun h => h

theorem Grades.gridResetDone (failed : List Nat) : Grades.Statement (.gridResetDone failed) := by
  repeat' first
    | exact fun h => h | exact unit_mono | exact place_mono | exact lt_mono (by decide) | apply and_mono | apply all_mono | intro _

theorem Grades.resetOverrun (ctx : Option Nat) : Grades.Statement (.resetOverrun ctx) := fun h => h

theorem Grades.healthDecay : Grades.Statement (.healthDecay) := fun h => h

theorem Grades.heartbeatSend : Grades.Statement (.heartbeatSend) := fun h => h

theorem Grades.heartbeat (b : Beat) : Grades.Statement (.heartbeat b) := fun h => h

theorem Grades.prepare (src epoch round : Nat) : Grades.Statement (.prepare src epoch round) := fun h => h

theorem Grades.promise (src epoch round : Nat) (last : Option Proposal) :
    Grades.Statement (.promise src epoch round last) := fun h => h

theorem Grades.proposal (src : Nat) (p : Proposal) : Grades.Statement (.proposal src p) := fun h => h

theorem Grades.acceptance (src epoch round : Nat) : Grades.Statement (.acceptance src epoch round) := fun h => h

theorem Grades.commit (p : Proposal) (e : Tick) : Grades.Statement (.commit p e) := fun h => h

theorem Grades.roundTimeout : Grades.Statement (.roundTimeout) := fun h => h

theorem Grades.controlPeriod (v : Sensors) : Grades.Statement (.controlPeriod v) := fun h => h

theorem Grades.clockStepUp : Grades.Statement (.clockStepUp) := fun h => h

theorem Grades.inputUndervoltage (vIn : Nat) : Grades.Statement (.inputUndervoltage vIn) := fun h => h

theorem Grades.inputRestored (vIn : Nat) : Grades.Statement (.inputRestored vIn) := fun h => h

theorem Grades.powerFault (vIn : Nat) : Grades.Statement (.powerFault vIn) := fun h => h

theorem Grades.vstbyLoss : Grades.Statement (.vstbyLoss) := fun h => h

theorem Grades.strideStart : Grades.Statement (.strideStart) := fun h => h

theorem Grades.pwrCap (m : Nat) : Grades.Statement (.pwrCap m) := fun h => h

theorem Grades.bgConfig (m : Nat) : Grades.Statement (.bgConfig m) := fun h => h

theorem Grades.dawn (env : DawnEnv) : Grades.Statement (.dawn env) := by
  repeat' first
    | exact fun h => h | exact unit_mono | exact place_mono | exact lt_mono (by decide) | apply and_mono | apply all_mono | intro _

theorem Grades.cxlPerstAssert : Grades.Statement (.cxlPerstAssert) := fun h => h

theorem Grades.cxlPerstDeassert : Grades.Statement (.cxlPerstDeassert) := fun h => h

theorem Grades.entropyTestFailure : Grades.Statement (.entropyTestFailure) := fun h => h

theorem Grades.dawnState : Grades.Statement (.dawnState) := fun h => h

theorem Grades.deviceReset : Grades.Statement (.deviceReset) := fun h => h

theorem Grades.blobWrite (offset : Nat) (bytes : List Byte) (sigOk : Bool) :
    Grades.Statement (.blobWrite offset bytes sigOk) := fun h => h

theorem Grades.ownerEnrol (key : List Byte) : Grades.Statement (.ownerEnrol key) := fun h => h

theorem Grades.eventLogRead (first : Nat) : Grades.Statement (.eventLogRead first) := fun h => h

theorem Grades.setEndpointId (eid : Nat) : Grades.Statement (.setEndpointId eid) := fun h => h

theorem Grades.pldmSensorRead (sensor : Sensor) : Grades.Statement (.pldmSensorRead sensor) := fun h => h

theorem Grades.requestUpdate : Grades.Statement (.requestUpdate) := fun h => h

theorem Grades.requestFirmwareData (bytes : List Byte) (sigOk : Bool) :
    Grades.Statement (.requestFirmwareData bytes sigOk) := fun h => h

theorem Grades.activateFirmware : Grades.Statement (.activateFirmware) := fun h => h

theorem Grades.updateIdleTimeout : Grades.Statement (.updateIdleTimeout) := fun h => h

theorem Grades.getVersion (tr : Transport) : Grades.Statement (.getVersion tr) := fun h => h

theorem Grades.getCapabilities (tr : Transport) : Grades.Statement (.getCapabilities tr) := fun h => h

theorem Grades.negotiateAlgorithms (tr : Transport) (sig hash : Bool) :
    Grades.Statement (.negotiateAlgorithms tr sig hash) := fun h => h

theorem Grades.getDigests (tr : Transport) (slot : Nat) : Grades.Statement (.getDigests tr slot) := fun h => h

theorem Grades.getCertificate (tr : Transport) (slot offset len : Nat) :
    Grades.Statement (.getCertificate tr slot offset len) := fun h => h

theorem Grades.challenge (tr : Transport) (slot : Nat) (nonce : List Byte) :
    Grades.Statement (.challenge tr slot nonce) := fun h => h

theorem Grades.getMeasurements (tr : Transport) (index : Nat) (signed : Bool) (nonce : List Byte) :
    Grades.Statement (.getMeasurements tr index signed nonce) := fun h => h

theorem Grades.respondIfReady (tr : Transport) : Grades.Statement (.respondIfReady tr) := fun h => h

theorem Grades.signatureDone : Grades.Statement (.signatureDone) := fun h => h

theorem Grades.bypass : Grades.Statement (.bypass) := fun h => h

theorem Grades.idcode : Grades.Statement (.idcode) := fun h => h

theorem Grades.samplePreload (cells : List Bool) : Grades.Statement (.samplePreload cells) := fun h => h

theorem Grades.extest : Grades.Statement (.extest) := fun h => h

theorem Grades.clamp : Grades.Statement (.clamp) := fun h => h

theorem Grades.highz : Grades.Statement (.highz) := fun h => h

theorem Grades.trstAssert : Grades.Statement (.trstAssert) := fun h => h

theorem Grades.saveChunkDone (h : Nat) : Grades.Statement (.saveChunkDone h) := fun h => h

theorem Grades.restoreChunkDone (h : Nat) (places : List (List Placement)) :
    Grades.Statement (.restoreChunkDone h places) := fun h => h

theorem Grades.entropyTestsPass : Grades.Statement (.entropyTestsPass) := fun h => h

end Sys2Proof.Laws
end

