-- ==== Sys2Proof/Laws/State.lean ====
section
/-!
SUPPORT. One lemma per piece of state and update of the whole state.
-/

namespace Sys2Proof.Machine

/-! State.setGrade -/

@[simp] theorem State.setGrade_grade (s : State) (v : Grade) : (s.setGrade v).grade = v := rfl
@[simp] theorem State.setGrade_dev (s : State) (v : Grade) : (s.setGrade v).dev = s.dev := rfl
@[simp] theorem State.setGrade_mbx (s : State) (v : Grade) : (s.setGrade v).mbx = s.mbx := rfl
@[simp] theorem State.setGrade_ops (s : State) (v : Grade) : (s.setGrade v).ops = s.ops := rfl
@[simp] theorem State.setGrade_evr (s : State) (v : Grade) : (s.setGrade v).evr = s.evr := rfl
@[simp] theorem State.setGrade_rings (s : State) (v : Grade) : (s.setGrade v).rings = s.rings := rfl
@[simp] theorem State.setGrade_tel (s : State) (v : Grade) : (s.setGrade v).tel = s.tel := rfl
@[simp] theorem State.setGrade_mem (s : State) (v : Grade) : (s.setGrade v).mem = s.mem := rfl
@[simp] theorem State.setGrade_tmb (s : State) (v : Grade) : (s.setGrade v).tmb = s.tmb := rfl
@[simp] theorem State.setGrade_win (s : State) (v : Grade) : (s.setGrade v).win = s.win := rfl
@[simp] theorem State.setGrade_pps (s : State) (v : Grade) : (s.setGrade v).pps = s.pps := rfl
@[simp] theorem State.setGrade_noon (s : State) (v : Grade) : (s.setGrade v).noon = s.noon := rfl
@[simp] theorem State.setGrade_grd (s : State) (v : Grade) : (s.setGrade v).grd = s.grd := rfl
@[simp] theorem State.setGrade_tts (s : State) (v : Grade) : (s.setGrade v).tts = s.tts := rfl
@[simp] theorem State.setGrade_fh (s : State) (v : Grade) : (s.setGrade v).fh = s.fh := rfl
@[simp] theorem State.setGrade_srv (s : State) (v : Grade) : (s.setGrade v).srv = s.srv := rfl
@[simp] theorem State.setGrade_fab (s : State) (v : Grade) : (s.setGrade v).fab = s.fab := rfl
@[simp] theorem State.setGrade_syn (s : State) (v : Grade) : (s.setGrade v).syn = s.syn := rfl
@[simp] theorem State.setGrade_parts (s : State) (v : Grade) : (s.setGrade v).parts = s.parts := rfl
@[simp] theorem State.setGrade_quarantine (s : State) (v : Grade) : (s.setGrade v).quarantine = s.quarantine := rfl
@[simp] theorem State.setGrade_hlt (s : State) (v : Grade) : (s.setGrade v).hlt = s.hlt := rfl
@[simp] theorem State.setGrade_tiles (s : State) (v : Grade) : (s.setGrade v).tiles = s.tiles := rfl
@[simp] theorem State.setGrade_cde (s : State) (v : Grade) : (s.setGrade v).cde = s.cde := rfl
@[simp] theorem State.setGrade_cells (s : State) (v : Grade) : (s.setGrade v).cells = s.cells := rfl
@[simp] theorem State.setGrade_sweep (s : State) (v : Grade) : (s.setGrade v).sweep = s.sweep := rfl
@[simp] theorem State.setGrade_mbr (s : State) (v : Grade) : (s.setGrade v).mbr = s.mbr := rfl
@[simp] theorem State.setGrade_pwr (s : State) (v : Grade) : (s.setGrade v).pwr = s.pwr := rfl
@[simp] theorem State.setGrade_bg (s : State) (v : Grade) : (s.setGrade v).bg = s.bg := rfl
@[simp] theorem State.setGrade_mgt (s : State) (v : Grade) : (s.setGrade v).mgt = s.mgt := rfl
@[simp] theorem State.setGrade_tap (s : State) (v : Grade) : (s.setGrade v).tap = s.tap := rfl
@[simp] theorem State.setGrade_out (s : State) (v : Grade) : (s.setGrade v).out = s.out := rfl
@[simp] theorem State.setGrade_fresh (s : State) (v : Grade) : (s.setGrade v).fresh = s.fresh := rfl
@[simp] theorem State.setGrade_pending (s : State) (v : Grade) : (s.setGrade v).pending = s.pending := rfl

/-! State.setDev -/

@[simp] theorem State.setDev_grade (s : State) (v : Dev) : (s.setDev v).grade = s.grade := rfl
@[simp] theorem State.setDev_dev (s : State) (v : Dev) : (s.setDev v).dev = v := rfl
@[simp] theorem State.setDev_mbx (s : State) (v : Dev) : (s.setDev v).mbx = s.mbx := rfl
@[simp] theorem State.setDev_ops (s : State) (v : Dev) : (s.setDev v).ops = s.ops := rfl
@[simp] theorem State.setDev_evr (s : State) (v : Dev) : (s.setDev v).evr = s.evr := rfl
@[simp] theorem State.setDev_rings (s : State) (v : Dev) : (s.setDev v).rings = s.rings := rfl
@[simp] theorem State.setDev_tel (s : State) (v : Dev) : (s.setDev v).tel = s.tel := rfl
@[simp] theorem State.setDev_mem (s : State) (v : Dev) : (s.setDev v).mem = s.mem := rfl
@[simp] theorem State.setDev_tmb (s : State) (v : Dev) : (s.setDev v).tmb = s.tmb := rfl
@[simp] theorem State.setDev_win (s : State) (v : Dev) : (s.setDev v).win = s.win := rfl
@[simp] theorem State.setDev_pps (s : State) (v : Dev) : (s.setDev v).pps = s.pps := rfl
@[simp] theorem State.setDev_noon (s : State) (v : Dev) : (s.setDev v).noon = s.noon := rfl
@[simp] theorem State.setDev_grd (s : State) (v : Dev) : (s.setDev v).grd = s.grd := rfl
@[simp] theorem State.setDev_tts (s : State) (v : Dev) : (s.setDev v).tts = s.tts := rfl
@[simp] theorem State.setDev_fh (s : State) (v : Dev) : (s.setDev v).fh = s.fh := rfl
@[simp] theorem State.setDev_srv (s : State) (v : Dev) : (s.setDev v).srv = s.srv := rfl
@[simp] theorem State.setDev_fab (s : State) (v : Dev) : (s.setDev v).fab = s.fab := rfl
@[simp] theorem State.setDev_syn (s : State) (v : Dev) : (s.setDev v).syn = s.syn := rfl
@[simp] theorem State.setDev_parts (s : State) (v : Dev) : (s.setDev v).parts = s.parts := rfl
@[simp] theorem State.setDev_quarantine (s : State) (v : Dev) : (s.setDev v).quarantine = s.quarantine := rfl
@[simp] theorem State.setDev_hlt (s : State) (v : Dev) : (s.setDev v).hlt = s.hlt := rfl
@[simp] theorem State.setDev_tiles (s : State) (v : Dev) : (s.setDev v).tiles = s.tiles := rfl
@[simp] theorem State.setDev_cde (s : State) (v : Dev) : (s.setDev v).cde = s.cde := rfl
@[simp] theorem State.setDev_cells (s : State) (v : Dev) : (s.setDev v).cells = s.cells := rfl
@[simp] theorem State.setDev_sweep (s : State) (v : Dev) : (s.setDev v).sweep = s.sweep := rfl
@[simp] theorem State.setDev_mbr (s : State) (v : Dev) : (s.setDev v).mbr = s.mbr := rfl
@[simp] theorem State.setDev_pwr (s : State) (v : Dev) : (s.setDev v).pwr = s.pwr := rfl
@[simp] theorem State.setDev_bg (s : State) (v : Dev) : (s.setDev v).bg = s.bg := rfl
@[simp] theorem State.setDev_mgt (s : State) (v : Dev) : (s.setDev v).mgt = s.mgt := rfl
@[simp] theorem State.setDev_tap (s : State) (v : Dev) : (s.setDev v).tap = s.tap := rfl
@[simp] theorem State.setDev_out (s : State) (v : Dev) : (s.setDev v).out = s.out := rfl
@[simp] theorem State.setDev_fresh (s : State) (v : Dev) : (s.setDev v).fresh = s.fresh := rfl
@[simp] theorem State.setDev_pending (s : State) (v : Dev) : (s.setDev v).pending = s.pending := rfl

/-! State.setMbx -/

@[simp] theorem State.setMbx_grade (s : State) (v : Tab Mailbox) : (s.setMbx v).grade = s.grade := rfl
@[simp] theorem State.setMbx_dev (s : State) (v : Tab Mailbox) : (s.setMbx v).dev = s.dev := rfl
@[simp] theorem State.setMbx_mbx (s : State) (v : Tab Mailbox) : (s.setMbx v).mbx = v := rfl
@[simp] theorem State.setMbx_ops (s : State) (v : Tab Mailbox) : (s.setMbx v).ops = s.ops := rfl
@[simp] theorem State.setMbx_evr (s : State) (v : Tab Mailbox) : (s.setMbx v).evr = s.evr := rfl
@[simp] theorem State.setMbx_rings (s : State) (v : Tab Mailbox) : (s.setMbx v).rings = s.rings := rfl
@[simp] theorem State.setMbx_tel (s : State) (v : Tab Mailbox) : (s.setMbx v).tel = s.tel := rfl
@[simp] theorem State.setMbx_mem (s : State) (v : Tab Mailbox) : (s.setMbx v).mem = s.mem := rfl
@[simp] theorem State.setMbx_tmb (s : State) (v : Tab Mailbox) : (s.setMbx v).tmb = s.tmb := rfl
@[simp] theorem State.setMbx_win (s : State) (v : Tab Mailbox) : (s.setMbx v).win = s.win := rfl
@[simp] theorem State.setMbx_pps (s : State) (v : Tab Mailbox) : (s.setMbx v).pps = s.pps := rfl
@[simp] theorem State.setMbx_noon (s : State) (v : Tab Mailbox) : (s.setMbx v).noon = s.noon := rfl
@[simp] theorem State.setMbx_grd (s : State) (v : Tab Mailbox) : (s.setMbx v).grd = s.grd := rfl
@[simp] theorem State.setMbx_tts (s : State) (v : Tab Mailbox) : (s.setMbx v).tts = s.tts := rfl
@[simp] theorem State.setMbx_fh (s : State) (v : Tab Mailbox) : (s.setMbx v).fh = s.fh := rfl
@[simp] theorem State.setMbx_srv (s : State) (v : Tab Mailbox) : (s.setMbx v).srv = s.srv := rfl
@[simp] theorem State.setMbx_fab (s : State) (v : Tab Mailbox) : (s.setMbx v).fab = s.fab := rfl
@[simp] theorem State.setMbx_syn (s : State) (v : Tab Mailbox) : (s.setMbx v).syn = s.syn := rfl
@[simp] theorem State.setMbx_parts (s : State) (v : Tab Mailbox) : (s.setMbx v).parts = s.parts := rfl
@[simp] theorem State.setMbx_quarantine (s : State) (v : Tab Mailbox) : (s.setMbx v).quarantine = s.quarantine := rfl
@[simp] theorem State.setMbx_hlt (s : State) (v : Tab Mailbox) : (s.setMbx v).hlt = s.hlt := rfl
@[simp] theorem State.setMbx_tiles (s : State) (v : Tab Mailbox) : (s.setMbx v).tiles = s.tiles := rfl
@[simp] theorem State.setMbx_cde (s : State) (v : Tab Mailbox) : (s.setMbx v).cde = s.cde := rfl
@[simp] theorem State.setMbx_cells (s : State) (v : Tab Mailbox) : (s.setMbx v).cells = s.cells := rfl
@[simp] theorem State.setMbx_sweep (s : State) (v : Tab Mailbox) : (s.setMbx v).sweep = s.sweep := rfl
@[simp] theorem State.setMbx_mbr (s : State) (v : Tab Mailbox) : (s.setMbx v).mbr = s.mbr := rfl
@[simp] theorem State.setMbx_pwr (s : State) (v : Tab Mailbox) : (s.setMbx v).pwr = s.pwr := rfl
@[simp] theorem State.setMbx_bg (s : State) (v : Tab Mailbox) : (s.setMbx v).bg = s.bg := rfl
@[simp] theorem State.setMbx_mgt (s : State) (v : Tab Mailbox) : (s.setMbx v).mgt = s.mgt := rfl
@[simp] theorem State.setMbx_tap (s : State) (v : Tab Mailbox) : (s.setMbx v).tap = s.tap := rfl
@[simp] theorem State.setMbx_out (s : State) (v : Tab Mailbox) : (s.setMbx v).out = s.out := rfl
@[simp] theorem State.setMbx_fresh (s : State) (v : Tab Mailbox) : (s.setMbx v).fresh = s.fresh := rfl
@[simp] theorem State.setMbx_pending (s : State) (v : Tab Mailbox) : (s.setMbx v).pending = s.pending := rfl

/-! State.setOps -/

@[simp] theorem State.setOps_grade (s : State) (v : Tab LongOp) : (s.setOps v).grade = s.grade := rfl
@[simp] theorem State.setOps_dev (s : State) (v : Tab LongOp) : (s.setOps v).dev = s.dev := rfl
@[simp] theorem State.setOps_mbx (s : State) (v : Tab LongOp) : (s.setOps v).mbx = s.mbx := rfl
@[simp] theorem State.setOps_ops (s : State) (v : Tab LongOp) : (s.setOps v).ops = v := rfl
@[simp] theorem State.setOps_evr (s : State) (v : Tab LongOp) : (s.setOps v).evr = s.evr := rfl
@[simp] theorem State.setOps_rings (s : State) (v : Tab LongOp) : (s.setOps v).rings = s.rings := rfl
@[simp] theorem State.setOps_tel (s : State) (v : Tab LongOp) : (s.setOps v).tel = s.tel := rfl
@[simp] theorem State.setOps_mem (s : State) (v : Tab LongOp) : (s.setOps v).mem = s.mem := rfl
@[simp] theorem State.setOps_tmb (s : State) (v : Tab LongOp) : (s.setOps v).tmb = s.tmb := rfl
@[simp] theorem State.setOps_win (s : State) (v : Tab LongOp) : (s.setOps v).win = s.win := rfl
@[simp] theorem State.setOps_pps (s : State) (v : Tab LongOp) : (s.setOps v).pps = s.pps := rfl
@[simp] theorem State.setOps_noon (s : State) (v : Tab LongOp) : (s.setOps v).noon = s.noon := rfl
@[simp] theorem State.setOps_grd (s : State) (v : Tab LongOp) : (s.setOps v).grd = s.grd := rfl
@[simp] theorem State.setOps_tts (s : State) (v : Tab LongOp) : (s.setOps v).tts = s.tts := rfl
@[simp] theorem State.setOps_fh (s : State) (v : Tab LongOp) : (s.setOps v).fh = s.fh := rfl
@[simp] theorem State.setOps_srv (s : State) (v : Tab LongOp) : (s.setOps v).srv = s.srv := rfl
@[simp] theorem State.setOps_fab (s : State) (v : Tab LongOp) : (s.setOps v).fab = s.fab := rfl
@[simp] theorem State.setOps_syn (s : State) (v : Tab LongOp) : (s.setOps v).syn = s.syn := rfl
@[simp] theorem State.setOps_parts (s : State) (v : Tab LongOp) : (s.setOps v).parts = s.parts := rfl
@[simp] theorem State.setOps_quarantine (s : State) (v : Tab LongOp) : (s.setOps v).quarantine = s.quarantine := rfl
@[simp] theorem State.setOps_hlt (s : State) (v : Tab LongOp) : (s.setOps v).hlt = s.hlt := rfl
@[simp] theorem State.setOps_tiles (s : State) (v : Tab LongOp) : (s.setOps v).tiles = s.tiles := rfl
@[simp] theorem State.setOps_cde (s : State) (v : Tab LongOp) : (s.setOps v).cde = s.cde := rfl
@[simp] theorem State.setOps_cells (s : State) (v : Tab LongOp) : (s.setOps v).cells = s.cells := rfl
@[simp] theorem State.setOps_sweep (s : State) (v : Tab LongOp) : (s.setOps v).sweep = s.sweep := rfl
@[simp] theorem State.setOps_mbr (s : State) (v : Tab LongOp) : (s.setOps v).mbr = s.mbr := rfl
@[simp] theorem State.setOps_pwr (s : State) (v : Tab LongOp) : (s.setOps v).pwr = s.pwr := rfl
@[simp] theorem State.setOps_bg (s : State) (v : Tab LongOp) : (s.setOps v).bg = s.bg := rfl
@[simp] theorem State.setOps_mgt (s : State) (v : Tab LongOp) : (s.setOps v).mgt = s.mgt := rfl
@[simp] theorem State.setOps_tap (s : State) (v : Tab LongOp) : (s.setOps v).tap = s.tap := rfl
@[simp] theorem State.setOps_out (s : State) (v : Tab LongOp) : (s.setOps v).out = s.out := rfl
@[simp] theorem State.setOps_fresh (s : State) (v : Tab LongOp) : (s.setOps v).fresh = s.fresh := rfl
@[simp] theorem State.setOps_pending (s : State) (v : Tab LongOp) : (s.setOps v).pending = s.pending := rfl

/-! State.setEvr -/

@[simp] theorem State.setEvr_grade (s : State) (v : Tab EventRing) : (s.setEvr v).grade = s.grade := rfl
@[simp] theorem State.setEvr_dev (s : State) (v : Tab EventRing) : (s.setEvr v).dev = s.dev := rfl
@[simp] theorem State.setEvr_mbx (s : State) (v : Tab EventRing) : (s.setEvr v).mbx = s.mbx := rfl
@[simp] theorem State.setEvr_ops (s : State) (v : Tab EventRing) : (s.setEvr v).ops = s.ops := rfl
@[simp] theorem State.setEvr_evr (s : State) (v : Tab EventRing) : (s.setEvr v).evr = v := rfl
@[simp] theorem State.setEvr_rings (s : State) (v : Tab EventRing) : (s.setEvr v).rings = s.rings := rfl
@[simp] theorem State.setEvr_tel (s : State) (v : Tab EventRing) : (s.setEvr v).tel = s.tel := rfl
@[simp] theorem State.setEvr_mem (s : State) (v : Tab EventRing) : (s.setEvr v).mem = s.mem := rfl
@[simp] theorem State.setEvr_tmb (s : State) (v : Tab EventRing) : (s.setEvr v).tmb = s.tmb := rfl
@[simp] theorem State.setEvr_win (s : State) (v : Tab EventRing) : (s.setEvr v).win = s.win := rfl
@[simp] theorem State.setEvr_pps (s : State) (v : Tab EventRing) : (s.setEvr v).pps = s.pps := rfl
@[simp] theorem State.setEvr_noon (s : State) (v : Tab EventRing) : (s.setEvr v).noon = s.noon := rfl
@[simp] theorem State.setEvr_grd (s : State) (v : Tab EventRing) : (s.setEvr v).grd = s.grd := rfl
@[simp] theorem State.setEvr_tts (s : State) (v : Tab EventRing) : (s.setEvr v).tts = s.tts := rfl
@[simp] theorem State.setEvr_fh (s : State) (v : Tab EventRing) : (s.setEvr v).fh = s.fh := rfl
@[simp] theorem State.setEvr_srv (s : State) (v : Tab EventRing) : (s.setEvr v).srv = s.srv := rfl
@[simp] theorem State.setEvr_fab (s : State) (v : Tab EventRing) : (s.setEvr v).fab = s.fab := rfl
@[simp] theorem State.setEvr_syn (s : State) (v : Tab EventRing) : (s.setEvr v).syn = s.syn := rfl
@[simp] theorem State.setEvr_parts (s : State) (v : Tab EventRing) : (s.setEvr v).parts = s.parts := rfl
@[simp] theorem State.setEvr_quarantine (s : State) (v : Tab EventRing) : (s.setEvr v).quarantine = s.quarantine := rfl
@[simp] theorem State.setEvr_hlt (s : State) (v : Tab EventRing) : (s.setEvr v).hlt = s.hlt := rfl
@[simp] theorem State.setEvr_tiles (s : State) (v : Tab EventRing) : (s.setEvr v).tiles = s.tiles := rfl
@[simp] theorem State.setEvr_cde (s : State) (v : Tab EventRing) : (s.setEvr v).cde = s.cde := rfl
@[simp] theorem State.setEvr_cells (s : State) (v : Tab EventRing) : (s.setEvr v).cells = s.cells := rfl
@[simp] theorem State.setEvr_sweep (s : State) (v : Tab EventRing) : (s.setEvr v).sweep = s.sweep := rfl
@[simp] theorem State.setEvr_mbr (s : State) (v : Tab EventRing) : (s.setEvr v).mbr = s.mbr := rfl
@[simp] theorem State.setEvr_pwr (s : State) (v : Tab EventRing) : (s.setEvr v).pwr = s.pwr := rfl
@[simp] theorem State.setEvr_bg (s : State) (v : Tab EventRing) : (s.setEvr v).bg = s.bg := rfl
@[simp] theorem State.setEvr_mgt (s : State) (v : Tab EventRing) : (s.setEvr v).mgt = s.mgt := rfl
@[simp] theorem State.setEvr_tap (s : State) (v : Tab EventRing) : (s.setEvr v).tap = s.tap := rfl
@[simp] theorem State.setEvr_out (s : State) (v : Tab EventRing) : (s.setEvr v).out = s.out := rfl
@[simp] theorem State.setEvr_fresh (s : State) (v : Tab EventRing) : (s.setEvr v).fresh = s.fresh := rfl
@[simp] theorem State.setEvr_pending (s : State) (v : Tab EventRing) : (s.setEvr v).pending = s.pending := rfl

/-! State.setRings -/

@[simp] theorem State.setRings_grade (s : State) (v : Tab Ring) : (s.setRings v).grade = s.grade := rfl
@[simp] theorem State.setRings_dev (s : State) (v : Tab Ring) : (s.setRings v).dev = s.dev := rfl
@[simp] theorem State.setRings_mbx (s : State) (v : Tab Ring) : (s.setRings v).mbx = s.mbx := rfl
@[simp] theorem State.setRings_ops (s : State) (v : Tab Ring) : (s.setRings v).ops = s.ops := rfl
@[simp] theorem State.setRings_evr (s : State) (v : Tab Ring) : (s.setRings v).evr = s.evr := rfl
@[simp] theorem State.setRings_rings (s : State) (v : Tab Ring) : (s.setRings v).rings = v := rfl
@[simp] theorem State.setRings_tel (s : State) (v : Tab Ring) : (s.setRings v).tel = s.tel := rfl
@[simp] theorem State.setRings_mem (s : State) (v : Tab Ring) : (s.setRings v).mem = s.mem := rfl
@[simp] theorem State.setRings_tmb (s : State) (v : Tab Ring) : (s.setRings v).tmb = s.tmb := rfl
@[simp] theorem State.setRings_win (s : State) (v : Tab Ring) : (s.setRings v).win = s.win := rfl
@[simp] theorem State.setRings_pps (s : State) (v : Tab Ring) : (s.setRings v).pps = s.pps := rfl
@[simp] theorem State.setRings_noon (s : State) (v : Tab Ring) : (s.setRings v).noon = s.noon := rfl
@[simp] theorem State.setRings_grd (s : State) (v : Tab Ring) : (s.setRings v).grd = s.grd := rfl
@[simp] theorem State.setRings_tts (s : State) (v : Tab Ring) : (s.setRings v).tts = s.tts := rfl
@[simp] theorem State.setRings_fh (s : State) (v : Tab Ring) : (s.setRings v).fh = s.fh := rfl
@[simp] theorem State.setRings_srv (s : State) (v : Tab Ring) : (s.setRings v).srv = s.srv := rfl
@[simp] theorem State.setRings_fab (s : State) (v : Tab Ring) : (s.setRings v).fab = s.fab := rfl
@[simp] theorem State.setRings_syn (s : State) (v : Tab Ring) : (s.setRings v).syn = s.syn := rfl
@[simp] theorem State.setRings_parts (s : State) (v : Tab Ring) : (s.setRings v).parts = s.parts := rfl
@[simp] theorem State.setRings_quarantine (s : State) (v : Tab Ring) : (s.setRings v).quarantine = s.quarantine := rfl
@[simp] theorem State.setRings_hlt (s : State) (v : Tab Ring) : (s.setRings v).hlt = s.hlt := rfl
@[simp] theorem State.setRings_tiles (s : State) (v : Tab Ring) : (s.setRings v).tiles = s.tiles := rfl
@[simp] theorem State.setRings_cde (s : State) (v : Tab Ring) : (s.setRings v).cde = s.cde := rfl
@[simp] theorem State.setRings_cells (s : State) (v : Tab Ring) : (s.setRings v).cells = s.cells := rfl
@[simp] theorem State.setRings_sweep (s : State) (v : Tab Ring) : (s.setRings v).sweep = s.sweep := rfl
@[simp] theorem State.setRings_mbr (s : State) (v : Tab Ring) : (s.setRings v).mbr = s.mbr := rfl
@[simp] theorem State.setRings_pwr (s : State) (v : Tab Ring) : (s.setRings v).pwr = s.pwr := rfl
@[simp] theorem State.setRings_bg (s : State) (v : Tab Ring) : (s.setRings v).bg = s.bg := rfl
@[simp] theorem State.setRings_mgt (s : State) (v : Tab Ring) : (s.setRings v).mgt = s.mgt := rfl
@[simp] theorem State.setRings_tap (s : State) (v : Tab Ring) : (s.setRings v).tap = s.tap := rfl
@[simp] theorem State.setRings_out (s : State) (v : Tab Ring) : (s.setRings v).out = s.out := rfl
@[simp] theorem State.setRings_fresh (s : State) (v : Tab Ring) : (s.setRings v).fresh = s.fresh := rfl
@[simp] theorem State.setRings_pending (s : State) (v : Tab Ring) : (s.setRings v).pending = s.pending := rfl

/-! State.setTel -/

@[simp] theorem State.setTel_grade (s : State) (v : Telemetry) : (s.setTel v).grade = s.grade := rfl
@[simp] theorem State.setTel_dev (s : State) (v : Telemetry) : (s.setTel v).dev = s.dev := rfl
@[simp] theorem State.setTel_mbx (s : State) (v : Telemetry) : (s.setTel v).mbx = s.mbx := rfl
@[simp] theorem State.setTel_ops (s : State) (v : Telemetry) : (s.setTel v).ops = s.ops := rfl
@[simp] theorem State.setTel_evr (s : State) (v : Telemetry) : (s.setTel v).evr = s.evr := rfl
@[simp] theorem State.setTel_rings (s : State) (v : Telemetry) : (s.setTel v).rings = s.rings := rfl
@[simp] theorem State.setTel_tel (s : State) (v : Telemetry) : (s.setTel v).tel = v := rfl
@[simp] theorem State.setTel_mem (s : State) (v : Telemetry) : (s.setTel v).mem = s.mem := rfl
@[simp] theorem State.setTel_tmb (s : State) (v : Telemetry) : (s.setTel v).tmb = s.tmb := rfl
@[simp] theorem State.setTel_win (s : State) (v : Telemetry) : (s.setTel v).win = s.win := rfl
@[simp] theorem State.setTel_pps (s : State) (v : Telemetry) : (s.setTel v).pps = s.pps := rfl
@[simp] theorem State.setTel_noon (s : State) (v : Telemetry) : (s.setTel v).noon = s.noon := rfl
@[simp] theorem State.setTel_grd (s : State) (v : Telemetry) : (s.setTel v).grd = s.grd := rfl
@[simp] theorem State.setTel_tts (s : State) (v : Telemetry) : (s.setTel v).tts = s.tts := rfl
@[simp] theorem State.setTel_fh (s : State) (v : Telemetry) : (s.setTel v).fh = s.fh := rfl
@[simp] theorem State.setTel_srv (s : State) (v : Telemetry) : (s.setTel v).srv = s.srv := rfl
@[simp] theorem State.setTel_fab (s : State) (v : Telemetry) : (s.setTel v).fab = s.fab := rfl
@[simp] theorem State.setTel_syn (s : State) (v : Telemetry) : (s.setTel v).syn = s.syn := rfl
@[simp] theorem State.setTel_parts (s : State) (v : Telemetry) : (s.setTel v).parts = s.parts := rfl
@[simp] theorem State.setTel_quarantine (s : State) (v : Telemetry) : (s.setTel v).quarantine = s.quarantine := rfl
@[simp] theorem State.setTel_hlt (s : State) (v : Telemetry) : (s.setTel v).hlt = s.hlt := rfl
@[simp] theorem State.setTel_tiles (s : State) (v : Telemetry) : (s.setTel v).tiles = s.tiles := rfl
@[simp] theorem State.setTel_cde (s : State) (v : Telemetry) : (s.setTel v).cde = s.cde := rfl
@[simp] theorem State.setTel_cells (s : State) (v : Telemetry) : (s.setTel v).cells = s.cells := rfl
@[simp] theorem State.setTel_sweep (s : State) (v : Telemetry) : (s.setTel v).sweep = s.sweep := rfl
@[simp] theorem State.setTel_mbr (s : State) (v : Telemetry) : (s.setTel v).mbr = s.mbr := rfl
@[simp] theorem State.setTel_pwr (s : State) (v : Telemetry) : (s.setTel v).pwr = s.pwr := rfl
@[simp] theorem State.setTel_bg (s : State) (v : Telemetry) : (s.setTel v).bg = s.bg := rfl
@[simp] theorem State.setTel_mgt (s : State) (v : Telemetry) : (s.setTel v).mgt = s.mgt := rfl
@[simp] theorem State.setTel_tap (s : State) (v : Telemetry) : (s.setTel v).tap = s.tap := rfl
@[simp] theorem State.setTel_out (s : State) (v : Telemetry) : (s.setTel v).out = s.out := rfl
@[simp] theorem State.setTel_fresh (s : State) (v : Telemetry) : (s.setTel v).fresh = s.fresh := rfl
@[simp] theorem State.setTel_pending (s : State) (v : Telemetry) : (s.setTel v).pending = s.pending := rfl

/-! State.setMem -/

@[simp] theorem State.setMem_grade (s : State) (v : Memory) : (s.setMem v).grade = s.grade := rfl
@[simp] theorem State.setMem_dev (s : State) (v : Memory) : (s.setMem v).dev = s.dev := rfl
@[simp] theorem State.setMem_mbx (s : State) (v : Memory) : (s.setMem v).mbx = s.mbx := rfl
@[simp] theorem State.setMem_ops (s : State) (v : Memory) : (s.setMem v).ops = s.ops := rfl
@[simp] theorem State.setMem_evr (s : State) (v : Memory) : (s.setMem v).evr = s.evr := rfl
@[simp] theorem State.setMem_rings (s : State) (v : Memory) : (s.setMem v).rings = s.rings := rfl
@[simp] theorem State.setMem_tel (s : State) (v : Memory) : (s.setMem v).tel = s.tel := rfl
@[simp] theorem State.setMem_mem (s : State) (v : Memory) : (s.setMem v).mem = v := rfl
@[simp] theorem State.setMem_tmb (s : State) (v : Memory) : (s.setMem v).tmb = s.tmb := rfl
@[simp] theorem State.setMem_win (s : State) (v : Memory) : (s.setMem v).win = s.win := rfl
@[simp] theorem State.setMem_pps (s : State) (v : Memory) : (s.setMem v).pps = s.pps := rfl
@[simp] theorem State.setMem_noon (s : State) (v : Memory) : (s.setMem v).noon = s.noon := rfl
@[simp] theorem State.setMem_grd (s : State) (v : Memory) : (s.setMem v).grd = s.grd := rfl
@[simp] theorem State.setMem_tts (s : State) (v : Memory) : (s.setMem v).tts = s.tts := rfl
@[simp] theorem State.setMem_fh (s : State) (v : Memory) : (s.setMem v).fh = s.fh := rfl
@[simp] theorem State.setMem_srv (s : State) (v : Memory) : (s.setMem v).srv = s.srv := rfl
@[simp] theorem State.setMem_fab (s : State) (v : Memory) : (s.setMem v).fab = s.fab := rfl
@[simp] theorem State.setMem_syn (s : State) (v : Memory) : (s.setMem v).syn = s.syn := rfl
@[simp] theorem State.setMem_parts (s : State) (v : Memory) : (s.setMem v).parts = s.parts := rfl
@[simp] theorem State.setMem_quarantine (s : State) (v : Memory) : (s.setMem v).quarantine = s.quarantine := rfl
@[simp] theorem State.setMem_hlt (s : State) (v : Memory) : (s.setMem v).hlt = s.hlt := rfl
@[simp] theorem State.setMem_tiles (s : State) (v : Memory) : (s.setMem v).tiles = s.tiles := rfl
@[simp] theorem State.setMem_cde (s : State) (v : Memory) : (s.setMem v).cde = s.cde := rfl
@[simp] theorem State.setMem_cells (s : State) (v : Memory) : (s.setMem v).cells = s.cells := rfl
@[simp] theorem State.setMem_sweep (s : State) (v : Memory) : (s.setMem v).sweep = s.sweep := rfl
@[simp] theorem State.setMem_mbr (s : State) (v : Memory) : (s.setMem v).mbr = s.mbr := rfl
@[simp] theorem State.setMem_pwr (s : State) (v : Memory) : (s.setMem v).pwr = s.pwr := rfl
@[simp] theorem State.setMem_bg (s : State) (v : Memory) : (s.setMem v).bg = s.bg := rfl
@[simp] theorem State.setMem_mgt (s : State) (v : Memory) : (s.setMem v).mgt = s.mgt := rfl
@[simp] theorem State.setMem_tap (s : State) (v : Memory) : (s.setMem v).tap = s.tap := rfl
@[simp] theorem State.setMem_out (s : State) (v : Memory) : (s.setMem v).out = s.out := rfl
@[simp] theorem State.setMem_fresh (s : State) (v : Memory) : (s.setMem v).fresh = s.fresh := rfl
@[simp] theorem State.setMem_pending (s : State) (v : Memory) : (s.setMem v).pending = s.pending := rfl

/-! State.setTmb -/

@[simp] theorem State.setTmb_grade (s : State) (v : Timebase) : (s.setTmb v).grade = s.grade := rfl
@[simp] theorem State.setTmb_dev (s : State) (v : Timebase) : (s.setTmb v).dev = s.dev := rfl
@[simp] theorem State.setTmb_mbx (s : State) (v : Timebase) : (s.setTmb v).mbx = s.mbx := rfl
@[simp] theorem State.setTmb_ops (s : State) (v : Timebase) : (s.setTmb v).ops = s.ops := rfl
@[simp] theorem State.setTmb_evr (s : State) (v : Timebase) : (s.setTmb v).evr = s.evr := rfl
@[simp] theorem State.setTmb_rings (s : State) (v : Timebase) : (s.setTmb v).rings = s.rings := rfl
@[simp] theorem State.setTmb_tel (s : State) (v : Timebase) : (s.setTmb v).tel = s.tel := rfl
@[simp] theorem State.setTmb_mem (s : State) (v : Timebase) : (s.setTmb v).mem = s.mem := rfl
@[simp] theorem State.setTmb_tmb (s : State) (v : Timebase) : (s.setTmb v).tmb = v := rfl
@[simp] theorem State.setTmb_win (s : State) (v : Timebase) : (s.setTmb v).win = s.win := rfl
@[simp] theorem State.setTmb_pps (s : State) (v : Timebase) : (s.setTmb v).pps = s.pps := rfl
@[simp] theorem State.setTmb_noon (s : State) (v : Timebase) : (s.setTmb v).noon = s.noon := rfl
@[simp] theorem State.setTmb_grd (s : State) (v : Timebase) : (s.setTmb v).grd = s.grd := rfl
@[simp] theorem State.setTmb_tts (s : State) (v : Timebase) : (s.setTmb v).tts = s.tts := rfl
@[simp] theorem State.setTmb_fh (s : State) (v : Timebase) : (s.setTmb v).fh = s.fh := rfl
@[simp] theorem State.setTmb_srv (s : State) (v : Timebase) : (s.setTmb v).srv = s.srv := rfl
@[simp] theorem State.setTmb_fab (s : State) (v : Timebase) : (s.setTmb v).fab = s.fab := rfl
@[simp] theorem State.setTmb_syn (s : State) (v : Timebase) : (s.setTmb v).syn = s.syn := rfl
@[simp] theorem State.setTmb_parts (s : State) (v : Timebase) : (s.setTmb v).parts = s.parts := rfl
@[simp] theorem State.setTmb_quarantine (s : State) (v : Timebase) : (s.setTmb v).quarantine = s.quarantine := rfl
@[simp] theorem State.setTmb_hlt (s : State) (v : Timebase) : (s.setTmb v).hlt = s.hlt := rfl
@[simp] theorem State.setTmb_tiles (s : State) (v : Timebase) : (s.setTmb v).tiles = s.tiles := rfl
@[simp] theorem State.setTmb_cde (s : State) (v : Timebase) : (s.setTmb v).cde = s.cde := rfl
@[simp] theorem State.setTmb_cells (s : State) (v : Timebase) : (s.setTmb v).cells = s.cells := rfl
@[simp] theorem State.setTmb_sweep (s : State) (v : Timebase) : (s.setTmb v).sweep = s.sweep := rfl
@[simp] theorem State.setTmb_mbr (s : State) (v : Timebase) : (s.setTmb v).mbr = s.mbr := rfl
@[simp] theorem State.setTmb_pwr (s : State) (v : Timebase) : (s.setTmb v).pwr = s.pwr := rfl
@[simp] theorem State.setTmb_bg (s : State) (v : Timebase) : (s.setTmb v).bg = s.bg := rfl
@[simp] theorem State.setTmb_mgt (s : State) (v : Timebase) : (s.setTmb v).mgt = s.mgt := rfl
@[simp] theorem State.setTmb_tap (s : State) (v : Timebase) : (s.setTmb v).tap = s.tap := rfl
@[simp] theorem State.setTmb_out (s : State) (v : Timebase) : (s.setTmb v).out = s.out := rfl
@[simp] theorem State.setTmb_fresh (s : State) (v : Timebase) : (s.setTmb v).fresh = s.fresh := rfl
@[simp] theorem State.setTmb_pending (s : State) (v : Timebase) : (s.setTmb v).pending = s.pending := rfl

/-! State.setWin -/

@[simp] theorem State.setWin_grade (s : State) (v : TimeWindow) : (s.setWin v).grade = s.grade := rfl
@[simp] theorem State.setWin_dev (s : State) (v : TimeWindow) : (s.setWin v).dev = s.dev := rfl
@[simp] theorem State.setWin_mbx (s : State) (v : TimeWindow) : (s.setWin v).mbx = s.mbx := rfl
@[simp] theorem State.setWin_ops (s : State) (v : TimeWindow) : (s.setWin v).ops = s.ops := rfl
@[simp] theorem State.setWin_evr (s : State) (v : TimeWindow) : (s.setWin v).evr = s.evr := rfl
@[simp] theorem State.setWin_rings (s : State) (v : TimeWindow) : (s.setWin v).rings = s.rings := rfl
@[simp] theorem State.setWin_tel (s : State) (v : TimeWindow) : (s.setWin v).tel = s.tel := rfl
@[simp] theorem State.setWin_mem (s : State) (v : TimeWindow) : (s.setWin v).mem = s.mem := rfl
@[simp] theorem State.setWin_tmb (s : State) (v : TimeWindow) : (s.setWin v).tmb = s.tmb := rfl
@[simp] theorem State.setWin_win (s : State) (v : TimeWindow) : (s.setWin v).win = v := rfl
@[simp] theorem State.setWin_pps (s : State) (v : TimeWindow) : (s.setWin v).pps = s.pps := rfl
@[simp] theorem State.setWin_noon (s : State) (v : TimeWindow) : (s.setWin v).noon = s.noon := rfl
@[simp] theorem State.setWin_grd (s : State) (v : TimeWindow) : (s.setWin v).grd = s.grd := rfl
@[simp] theorem State.setWin_tts (s : State) (v : TimeWindow) : (s.setWin v).tts = s.tts := rfl
@[simp] theorem State.setWin_fh (s : State) (v : TimeWindow) : (s.setWin v).fh = s.fh := rfl
@[simp] theorem State.setWin_srv (s : State) (v : TimeWindow) : (s.setWin v).srv = s.srv := rfl
@[simp] theorem State.setWin_fab (s : State) (v : TimeWindow) : (s.setWin v).fab = s.fab := rfl
@[simp] theorem State.setWin_syn (s : State) (v : TimeWindow) : (s.setWin v).syn = s.syn := rfl
@[simp] theorem State.setWin_parts (s : State) (v : TimeWindow) : (s.setWin v).parts = s.parts := rfl
@[simp] theorem State.setWin_quarantine (s : State) (v : TimeWindow) : (s.setWin v).quarantine = s.quarantine := rfl
@[simp] theorem State.setWin_hlt (s : State) (v : TimeWindow) : (s.setWin v).hlt = s.hlt := rfl
@[simp] theorem State.setWin_tiles (s : State) (v : TimeWindow) : (s.setWin v).tiles = s.tiles := rfl
@[simp] theorem State.setWin_cde (s : State) (v : TimeWindow) : (s.setWin v).cde = s.cde := rfl
@[simp] theorem State.setWin_cells (s : State) (v : TimeWindow) : (s.setWin v).cells = s.cells := rfl
@[simp] theorem State.setWin_sweep (s : State) (v : TimeWindow) : (s.setWin v).sweep = s.sweep := rfl
@[simp] theorem State.setWin_mbr (s : State) (v : TimeWindow) : (s.setWin v).mbr = s.mbr := rfl
@[simp] theorem State.setWin_pwr (s : State) (v : TimeWindow) : (s.setWin v).pwr = s.pwr := rfl
@[simp] theorem State.setWin_bg (s : State) (v : TimeWindow) : (s.setWin v).bg = s.bg := rfl
@[simp] theorem State.setWin_mgt (s : State) (v : TimeWindow) : (s.setWin v).mgt = s.mgt := rfl
@[simp] theorem State.setWin_tap (s : State) (v : TimeWindow) : (s.setWin v).tap = s.tap := rfl
@[simp] theorem State.setWin_out (s : State) (v : TimeWindow) : (s.setWin v).out = s.out := rfl
@[simp] theorem State.setWin_fresh (s : State) (v : TimeWindow) : (s.setWin v).fresh = s.fresh := rfl
@[simp] theorem State.setWin_pending (s : State) (v : TimeWindow) : (s.setWin v).pending = s.pending := rfl

/-! State.setPps -/

@[simp] theorem State.setPps_grade (s : State) (v : Pps) : (s.setPps v).grade = s.grade := rfl
@[simp] theorem State.setPps_dev (s : State) (v : Pps) : (s.setPps v).dev = s.dev := rfl
@[simp] theorem State.setPps_mbx (s : State) (v : Pps) : (s.setPps v).mbx = s.mbx := rfl
@[simp] theorem State.setPps_ops (s : State) (v : Pps) : (s.setPps v).ops = s.ops := rfl
@[simp] theorem State.setPps_evr (s : State) (v : Pps) : (s.setPps v).evr = s.evr := rfl
@[simp] theorem State.setPps_rings (s : State) (v : Pps) : (s.setPps v).rings = s.rings := rfl
@[simp] theorem State.setPps_tel (s : State) (v : Pps) : (s.setPps v).tel = s.tel := rfl
@[simp] theorem State.setPps_mem (s : State) (v : Pps) : (s.setPps v).mem = s.mem := rfl
@[simp] theorem State.setPps_tmb (s : State) (v : Pps) : (s.setPps v).tmb = s.tmb := rfl
@[simp] theorem State.setPps_win (s : State) (v : Pps) : (s.setPps v).win = s.win := rfl
@[simp] theorem State.setPps_pps (s : State) (v : Pps) : (s.setPps v).pps = v := rfl
@[simp] theorem State.setPps_noon (s : State) (v : Pps) : (s.setPps v).noon = s.noon := rfl
@[simp] theorem State.setPps_grd (s : State) (v : Pps) : (s.setPps v).grd = s.grd := rfl
@[simp] theorem State.setPps_tts (s : State) (v : Pps) : (s.setPps v).tts = s.tts := rfl
@[simp] theorem State.setPps_fh (s : State) (v : Pps) : (s.setPps v).fh = s.fh := rfl
@[simp] theorem State.setPps_srv (s : State) (v : Pps) : (s.setPps v).srv = s.srv := rfl
@[simp] theorem State.setPps_fab (s : State) (v : Pps) : (s.setPps v).fab = s.fab := rfl
@[simp] theorem State.setPps_syn (s : State) (v : Pps) : (s.setPps v).syn = s.syn := rfl
@[simp] theorem State.setPps_parts (s : State) (v : Pps) : (s.setPps v).parts = s.parts := rfl
@[simp] theorem State.setPps_quarantine (s : State) (v : Pps) : (s.setPps v).quarantine = s.quarantine := rfl
@[simp] theorem State.setPps_hlt (s : State) (v : Pps) : (s.setPps v).hlt = s.hlt := rfl
@[simp] theorem State.setPps_tiles (s : State) (v : Pps) : (s.setPps v).tiles = s.tiles := rfl
@[simp] theorem State.setPps_cde (s : State) (v : Pps) : (s.setPps v).cde = s.cde := rfl
@[simp] theorem State.setPps_cells (s : State) (v : Pps) : (s.setPps v).cells = s.cells := rfl
@[simp] theorem State.setPps_sweep (s : State) (v : Pps) : (s.setPps v).sweep = s.sweep := rfl
@[simp] theorem State.setPps_mbr (s : State) (v : Pps) : (s.setPps v).mbr = s.mbr := rfl
@[simp] theorem State.setPps_pwr (s : State) (v : Pps) : (s.setPps v).pwr = s.pwr := rfl
@[simp] theorem State.setPps_bg (s : State) (v : Pps) : (s.setPps v).bg = s.bg := rfl
@[simp] theorem State.setPps_mgt (s : State) (v : Pps) : (s.setPps v).mgt = s.mgt := rfl
@[simp] theorem State.setPps_tap (s : State) (v : Pps) : (s.setPps v).tap = s.tap := rfl
@[simp] theorem State.setPps_out (s : State) (v : Pps) : (s.setPps v).out = s.out := rfl
@[simp] theorem State.setPps_fresh (s : State) (v : Pps) : (s.setPps v).fresh = s.fresh := rfl
@[simp] theorem State.setPps_pending (s : State) (v : Pps) : (s.setPps v).pending = s.pending := rfl

/-! State.setNoon -/

@[simp] theorem State.setNoon_grade (s : State) (v : Tab Noon) : (s.setNoon v).grade = s.grade := rfl
@[simp] theorem State.setNoon_dev (s : State) (v : Tab Noon) : (s.setNoon v).dev = s.dev := rfl
@[simp] theorem State.setNoon_mbx (s : State) (v : Tab Noon) : (s.setNoon v).mbx = s.mbx := rfl
@[simp] theorem State.setNoon_ops (s : State) (v : Tab Noon) : (s.setNoon v).ops = s.ops := rfl
@[simp] theorem State.setNoon_evr (s : State) (v : Tab Noon) : (s.setNoon v).evr = s.evr := rfl
@[simp] theorem State.setNoon_rings (s : State) (v : Tab Noon) : (s.setNoon v).rings = s.rings := rfl
@[simp] theorem State.setNoon_tel (s : State) (v : Tab Noon) : (s.setNoon v).tel = s.tel := rfl
@[simp] theorem State.setNoon_mem (s : State) (v : Tab Noon) : (s.setNoon v).mem = s.mem := rfl
@[simp] theorem State.setNoon_tmb (s : State) (v : Tab Noon) : (s.setNoon v).tmb = s.tmb := rfl
@[simp] theorem State.setNoon_win (s : State) (v : Tab Noon) : (s.setNoon v).win = s.win := rfl
@[simp] theorem State.setNoon_pps (s : State) (v : Tab Noon) : (s.setNoon v).pps = s.pps := rfl
@[simp] theorem State.setNoon_noon (s : State) (v : Tab Noon) : (s.setNoon v).noon = v := rfl
@[simp] theorem State.setNoon_grd (s : State) (v : Tab Noon) : (s.setNoon v).grd = s.grd := rfl
@[simp] theorem State.setNoon_tts (s : State) (v : Tab Noon) : (s.setNoon v).tts = s.tts := rfl
@[simp] theorem State.setNoon_fh (s : State) (v : Tab Noon) : (s.setNoon v).fh = s.fh := rfl
@[simp] theorem State.setNoon_srv (s : State) (v : Tab Noon) : (s.setNoon v).srv = s.srv := rfl
@[simp] theorem State.setNoon_fab (s : State) (v : Tab Noon) : (s.setNoon v).fab = s.fab := rfl
@[simp] theorem State.setNoon_syn (s : State) (v : Tab Noon) : (s.setNoon v).syn = s.syn := rfl
@[simp] theorem State.setNoon_parts (s : State) (v : Tab Noon) : (s.setNoon v).parts = s.parts := rfl
@[simp] theorem State.setNoon_quarantine (s : State) (v : Tab Noon) : (s.setNoon v).quarantine = s.quarantine := rfl
@[simp] theorem State.setNoon_hlt (s : State) (v : Tab Noon) : (s.setNoon v).hlt = s.hlt := rfl
@[simp] theorem State.setNoon_tiles (s : State) (v : Tab Noon) : (s.setNoon v).tiles = s.tiles := rfl
@[simp] theorem State.setNoon_cde (s : State) (v : Tab Noon) : (s.setNoon v).cde = s.cde := rfl
@[simp] theorem State.setNoon_cells (s : State) (v : Tab Noon) : (s.setNoon v).cells = s.cells := rfl
@[simp] theorem State.setNoon_sweep (s : State) (v : Tab Noon) : (s.setNoon v).sweep = s.sweep := rfl
@[simp] theorem State.setNoon_mbr (s : State) (v : Tab Noon) : (s.setNoon v).mbr = s.mbr := rfl
@[simp] theorem State.setNoon_pwr (s : State) (v : Tab Noon) : (s.setNoon v).pwr = s.pwr := rfl
@[simp] theorem State.setNoon_bg (s : State) (v : Tab Noon) : (s.setNoon v).bg = s.bg := rfl
@[simp] theorem State.setNoon_mgt (s : State) (v : Tab Noon) : (s.setNoon v).mgt = s.mgt := rfl
@[simp] theorem State.setNoon_tap (s : State) (v : Tab Noon) : (s.setNoon v).tap = s.tap := rfl
@[simp] theorem State.setNoon_out (s : State) (v : Tab Noon) : (s.setNoon v).out = s.out := rfl
@[simp] theorem State.setNoon_fresh (s : State) (v : Tab Noon) : (s.setNoon v).fresh = s.fresh := rfl
@[simp] theorem State.setNoon_pending (s : State) (v : Tab Noon) : (s.setNoon v).pending = s.pending := rfl

/-! State.setGrd -/

@[simp] theorem State.setGrd_grade (s : State) (v : Grid) : (s.setGrd v).grade = s.grade := rfl
@[simp] theorem State.setGrd_dev (s : State) (v : Grid) : (s.setGrd v).dev = s.dev := rfl
@[simp] theorem State.setGrd_mbx (s : State) (v : Grid) : (s.setGrd v).mbx = s.mbx := rfl
@[simp] theorem State.setGrd_ops (s : State) (v : Grid) : (s.setGrd v).ops = s.ops := rfl
@[simp] theorem State.setGrd_evr (s : State) (v : Grid) : (s.setGrd v).evr = s.evr := rfl
@[simp] theorem State.setGrd_rings (s : State) (v : Grid) : (s.setGrd v).rings = s.rings := rfl
@[simp] theorem State.setGrd_tel (s : State) (v : Grid) : (s.setGrd v).tel = s.tel := rfl
@[simp] theorem State.setGrd_mem (s : State) (v : Grid) : (s.setGrd v).mem = s.mem := rfl
@[simp] theorem State.setGrd_tmb (s : State) (v : Grid) : (s.setGrd v).tmb = s.tmb := rfl
@[simp] theorem State.setGrd_win (s : State) (v : Grid) : (s.setGrd v).win = s.win := rfl
@[simp] theorem State.setGrd_pps (s : State) (v : Grid) : (s.setGrd v).pps = s.pps := rfl
@[simp] theorem State.setGrd_noon (s : State) (v : Grid) : (s.setGrd v).noon = s.noon := rfl
@[simp] theorem State.setGrd_grd (s : State) (v : Grid) : (s.setGrd v).grd = v := rfl
@[simp] theorem State.setGrd_tts (s : State) (v : Grid) : (s.setGrd v).tts = s.tts := rfl
@[simp] theorem State.setGrd_fh (s : State) (v : Grid) : (s.setGrd v).fh = s.fh := rfl
@[simp] theorem State.setGrd_srv (s : State) (v : Grid) : (s.setGrd v).srv = s.srv := rfl
@[simp] theorem State.setGrd_fab (s : State) (v : Grid) : (s.setGrd v).fab = s.fab := rfl
@[simp] theorem State.setGrd_syn (s : State) (v : Grid) : (s.setGrd v).syn = s.syn := rfl
@[simp] theorem State.setGrd_parts (s : State) (v : Grid) : (s.setGrd v).parts = s.parts := rfl
@[simp] theorem State.setGrd_quarantine (s : State) (v : Grid) : (s.setGrd v).quarantine = s.quarantine := rfl
@[simp] theorem State.setGrd_hlt (s : State) (v : Grid) : (s.setGrd v).hlt = s.hlt := rfl
@[simp] theorem State.setGrd_tiles (s : State) (v : Grid) : (s.setGrd v).tiles = s.tiles := rfl
@[simp] theorem State.setGrd_cde (s : State) (v : Grid) : (s.setGrd v).cde = s.cde := rfl
@[simp] theorem State.setGrd_cells (s : State) (v : Grid) : (s.setGrd v).cells = s.cells := rfl
@[simp] theorem State.setGrd_sweep (s : State) (v : Grid) : (s.setGrd v).sweep = s.sweep := rfl
@[simp] theorem State.setGrd_mbr (s : State) (v : Grid) : (s.setGrd v).mbr = s.mbr := rfl
@[simp] theorem State.setGrd_pwr (s : State) (v : Grid) : (s.setGrd v).pwr = s.pwr := rfl
@[simp] theorem State.setGrd_bg (s : State) (v : Grid) : (s.setGrd v).bg = s.bg := rfl
@[simp] theorem State.setGrd_mgt (s : State) (v : Grid) : (s.setGrd v).mgt = s.mgt := rfl
@[simp] theorem State.setGrd_tap (s : State) (v : Grid) : (s.setGrd v).tap = s.tap := rfl
@[simp] theorem State.setGrd_out (s : State) (v : Grid) : (s.setGrd v).out = s.out := rfl
@[simp] theorem State.setGrd_fresh (s : State) (v : Grid) : (s.setGrd v).fresh = s.fresh := rfl
@[simp] theorem State.setGrd_pending (s : State) (v : Grid) : (s.setGrd v).pending = s.pending := rfl

/-! State.setTts -/

@[simp] theorem State.setTts_grade (s : State) (v : Tts) : (s.setTts v).grade = s.grade := rfl
@[simp] theorem State.setTts_dev (s : State) (v : Tts) : (s.setTts v).dev = s.dev := rfl
@[simp] theorem State.setTts_mbx (s : State) (v : Tts) : (s.setTts v).mbx = s.mbx := rfl
@[simp] theorem State.setTts_ops (s : State) (v : Tts) : (s.setTts v).ops = s.ops := rfl
@[simp] theorem State.setTts_evr (s : State) (v : Tts) : (s.setTts v).evr = s.evr := rfl
@[simp] theorem State.setTts_rings (s : State) (v : Tts) : (s.setTts v).rings = s.rings := rfl
@[simp] theorem State.setTts_tel (s : State) (v : Tts) : (s.setTts v).tel = s.tel := rfl
@[simp] theorem State.setTts_mem (s : State) (v : Tts) : (s.setTts v).mem = s.mem := rfl
@[simp] theorem State.setTts_tmb (s : State) (v : Tts) : (s.setTts v).tmb = s.tmb := rfl
@[simp] theorem State.setTts_win (s : State) (v : Tts) : (s.setTts v).win = s.win := rfl
@[simp] theorem State.setTts_pps (s : State) (v : Tts) : (s.setTts v).pps = s.pps := rfl
@[simp] theorem State.setTts_noon (s : State) (v : Tts) : (s.setTts v).noon = s.noon := rfl
@[simp] theorem State.setTts_grd (s : State) (v : Tts) : (s.setTts v).grd = s.grd := rfl
@[simp] theorem State.setTts_tts (s : State) (v : Tts) : (s.setTts v).tts = v := rfl
@[simp] theorem State.setTts_fh (s : State) (v : Tts) : (s.setTts v).fh = s.fh := rfl
@[simp] theorem State.setTts_srv (s : State) (v : Tts) : (s.setTts v).srv = s.srv := rfl
@[simp] theorem State.setTts_fab (s : State) (v : Tts) : (s.setTts v).fab = s.fab := rfl
@[simp] theorem State.setTts_syn (s : State) (v : Tts) : (s.setTts v).syn = s.syn := rfl
@[simp] theorem State.setTts_parts (s : State) (v : Tts) : (s.setTts v).parts = s.parts := rfl
@[simp] theorem State.setTts_quarantine (s : State) (v : Tts) : (s.setTts v).quarantine = s.quarantine := rfl
@[simp] theorem State.setTts_hlt (s : State) (v : Tts) : (s.setTts v).hlt = s.hlt := rfl
@[simp] theorem State.setTts_tiles (s : State) (v : Tts) : (s.setTts v).tiles = s.tiles := rfl
@[simp] theorem State.setTts_cde (s : State) (v : Tts) : (s.setTts v).cde = s.cde := rfl
@[simp] theorem State.setTts_cells (s : State) (v : Tts) : (s.setTts v).cells = s.cells := rfl
@[simp] theorem State.setTts_sweep (s : State) (v : Tts) : (s.setTts v).sweep = s.sweep := rfl
@[simp] theorem State.setTts_mbr (s : State) (v : Tts) : (s.setTts v).mbr = s.mbr := rfl
@[simp] theorem State.setTts_pwr (s : State) (v : Tts) : (s.setTts v).pwr = s.pwr := rfl
@[simp] theorem State.setTts_bg (s : State) (v : Tts) : (s.setTts v).bg = s.bg := rfl
@[simp] theorem State.setTts_mgt (s : State) (v : Tts) : (s.setTts v).mgt = s.mgt := rfl
@[simp] theorem State.setTts_tap (s : State) (v : Tts) : (s.setTts v).tap = s.tap := rfl
@[simp] theorem State.setTts_out (s : State) (v : Tts) : (s.setTts v).out = s.out := rfl
@[simp] theorem State.setTts_fresh (s : State) (v : Tts) : (s.setTts v).fresh = s.fresh := rfl
@[simp] theorem State.setTts_pending (s : State) (v : Tts) : (s.setTts v).pending = s.pending := rfl

/-! State.setFh -/

@[simp] theorem State.setFh_grade (s : State) (v : Fronthaul) : (s.setFh v).grade = s.grade := rfl
@[simp] theorem State.setFh_dev (s : State) (v : Fronthaul) : (s.setFh v).dev = s.dev := rfl
@[simp] theorem State.setFh_mbx (s : State) (v : Fronthaul) : (s.setFh v).mbx = s.mbx := rfl
@[simp] theorem State.setFh_ops (s : State) (v : Fronthaul) : (s.setFh v).ops = s.ops := rfl
@[simp] theorem State.setFh_evr (s : State) (v : Fronthaul) : (s.setFh v).evr = s.evr := rfl
@[simp] theorem State.setFh_rings (s : State) (v : Fronthaul) : (s.setFh v).rings = s.rings := rfl
@[simp] theorem State.setFh_tel (s : State) (v : Fronthaul) : (s.setFh v).tel = s.tel := rfl
@[simp] theorem State.setFh_mem (s : State) (v : Fronthaul) : (s.setFh v).mem = s.mem := rfl
@[simp] theorem State.setFh_tmb (s : State) (v : Fronthaul) : (s.setFh v).tmb = s.tmb := rfl
@[simp] theorem State.setFh_win (s : State) (v : Fronthaul) : (s.setFh v).win = s.win := rfl
@[simp] theorem State.setFh_pps (s : State) (v : Fronthaul) : (s.setFh v).pps = s.pps := rfl
@[simp] theorem State.setFh_noon (s : State) (v : Fronthaul) : (s.setFh v).noon = s.noon := rfl
@[simp] theorem State.setFh_grd (s : State) (v : Fronthaul) : (s.setFh v).grd = s.grd := rfl
@[simp] theorem State.setFh_tts (s : State) (v : Fronthaul) : (s.setFh v).tts = s.tts := rfl
@[simp] theorem State.setFh_fh (s : State) (v : Fronthaul) : (s.setFh v).fh = v := rfl
@[simp] theorem State.setFh_srv (s : State) (v : Fronthaul) : (s.setFh v).srv = s.srv := rfl
@[simp] theorem State.setFh_fab (s : State) (v : Fronthaul) : (s.setFh v).fab = s.fab := rfl
@[simp] theorem State.setFh_syn (s : State) (v : Fronthaul) : (s.setFh v).syn = s.syn := rfl
@[simp] theorem State.setFh_parts (s : State) (v : Fronthaul) : (s.setFh v).parts = s.parts := rfl
@[simp] theorem State.setFh_quarantine (s : State) (v : Fronthaul) : (s.setFh v).quarantine = s.quarantine := rfl
@[simp] theorem State.setFh_hlt (s : State) (v : Fronthaul) : (s.setFh v).hlt = s.hlt := rfl
@[simp] theorem State.setFh_tiles (s : State) (v : Fronthaul) : (s.setFh v).tiles = s.tiles := rfl
@[simp] theorem State.setFh_cde (s : State) (v : Fronthaul) : (s.setFh v).cde = s.cde := rfl
@[simp] theorem State.setFh_cells (s : State) (v : Fronthaul) : (s.setFh v).cells = s.cells := rfl
@[simp] theorem State.setFh_sweep (s : State) (v : Fronthaul) : (s.setFh v).sweep = s.sweep := rfl
@[simp] theorem State.setFh_mbr (s : State) (v : Fronthaul) : (s.setFh v).mbr = s.mbr := rfl
@[simp] theorem State.setFh_pwr (s : State) (v : Fronthaul) : (s.setFh v).pwr = s.pwr := rfl
@[simp] theorem State.setFh_bg (s : State) (v : Fronthaul) : (s.setFh v).bg = s.bg := rfl
@[simp] theorem State.setFh_mgt (s : State) (v : Fronthaul) : (s.setFh v).mgt = s.mgt := rfl
@[simp] theorem State.setFh_tap (s : State) (v : Fronthaul) : (s.setFh v).tap = s.tap := rfl
@[simp] theorem State.setFh_out (s : State) (v : Fronthaul) : (s.setFh v).out = s.out := rfl
@[simp] theorem State.setFh_fresh (s : State) (v : Fronthaul) : (s.setFh v).fresh = s.fresh := rfl
@[simp] theorem State.setFh_pending (s : State) (v : Fronthaul) : (s.setFh v).pending = s.pending := rfl

/-! State.setSrv -/

@[simp] theorem State.setSrv_grade (s : State) (v : Serving) : (s.setSrv v).grade = s.grade := rfl
@[simp] theorem State.setSrv_dev (s : State) (v : Serving) : (s.setSrv v).dev = s.dev := rfl
@[simp] theorem State.setSrv_mbx (s : State) (v : Serving) : (s.setSrv v).mbx = s.mbx := rfl
@[simp] theorem State.setSrv_ops (s : State) (v : Serving) : (s.setSrv v).ops = s.ops := rfl
@[simp] theorem State.setSrv_evr (s : State) (v : Serving) : (s.setSrv v).evr = s.evr := rfl
@[simp] theorem State.setSrv_rings (s : State) (v : Serving) : (s.setSrv v).rings = s.rings := rfl
@[simp] theorem State.setSrv_tel (s : State) (v : Serving) : (s.setSrv v).tel = s.tel := rfl
@[simp] theorem State.setSrv_mem (s : State) (v : Serving) : (s.setSrv v).mem = s.mem := rfl
@[simp] theorem State.setSrv_tmb (s : State) (v : Serving) : (s.setSrv v).tmb = s.tmb := rfl
@[simp] theorem State.setSrv_win (s : State) (v : Serving) : (s.setSrv v).win = s.win := rfl
@[simp] theorem State.setSrv_pps (s : State) (v : Serving) : (s.setSrv v).pps = s.pps := rfl
@[simp] theorem State.setSrv_noon (s : State) (v : Serving) : (s.setSrv v).noon = s.noon := rfl
@[simp] theorem State.setSrv_grd (s : State) (v : Serving) : (s.setSrv v).grd = s.grd := rfl
@[simp] theorem State.setSrv_tts (s : State) (v : Serving) : (s.setSrv v).tts = s.tts := rfl
@[simp] theorem State.setSrv_fh (s : State) (v : Serving) : (s.setSrv v).fh = s.fh := rfl
@[simp] theorem State.setSrv_srv (s : State) (v : Serving) : (s.setSrv v).srv = v := rfl
@[simp] theorem State.setSrv_fab (s : State) (v : Serving) : (s.setSrv v).fab = s.fab := rfl
@[simp] theorem State.setSrv_syn (s : State) (v : Serving) : (s.setSrv v).syn = s.syn := rfl
@[simp] theorem State.setSrv_parts (s : State) (v : Serving) : (s.setSrv v).parts = s.parts := rfl
@[simp] theorem State.setSrv_quarantine (s : State) (v : Serving) : (s.setSrv v).quarantine = s.quarantine := rfl
@[simp] theorem State.setSrv_hlt (s : State) (v : Serving) : (s.setSrv v).hlt = s.hlt := rfl
@[simp] theorem State.setSrv_tiles (s : State) (v : Serving) : (s.setSrv v).tiles = s.tiles := rfl
@[simp] theorem State.setSrv_cde (s : State) (v : Serving) : (s.setSrv v).cde = s.cde := rfl
@[simp] theorem State.setSrv_cells (s : State) (v : Serving) : (s.setSrv v).cells = s.cells := rfl
@[simp] theorem State.setSrv_sweep (s : State) (v : Serving) : (s.setSrv v).sweep = s.sweep := rfl
@[simp] theorem State.setSrv_mbr (s : State) (v : Serving) : (s.setSrv v).mbr = s.mbr := rfl
@[simp] theorem State.setSrv_pwr (s : State) (v : Serving) : (s.setSrv v).pwr = s.pwr := rfl
@[simp] theorem State.setSrv_bg (s : State) (v : Serving) : (s.setSrv v).bg = s.bg := rfl
@[simp] theorem State.setSrv_mgt (s : State) (v : Serving) : (s.setSrv v).mgt = s.mgt := rfl
@[simp] theorem State.setSrv_tap (s : State) (v : Serving) : (s.setSrv v).tap = s.tap := rfl
@[simp] theorem State.setSrv_out (s : State) (v : Serving) : (s.setSrv v).out = s.out := rfl
@[simp] theorem State.setSrv_fresh (s : State) (v : Serving) : (s.setSrv v).fresh = s.fresh := rfl
@[simp] theorem State.setSrv_pending (s : State) (v : Serving) : (s.setSrv v).pending = s.pending := rfl

/-! State.setFab -/

@[simp] theorem State.setFab_grade (s : State) (v : Fabric) : (s.setFab v).grade = s.grade := rfl
@[simp] theorem State.setFab_dev (s : State) (v : Fabric) : (s.setFab v).dev = s.dev := rfl
@[simp] theorem State.setFab_mbx (s : State) (v : Fabric) : (s.setFab v).mbx = s.mbx := rfl
@[simp] theorem State.setFab_ops (s : State) (v : Fabric) : (s.setFab v).ops = s.ops := rfl
@[simp] theorem State.setFab_evr (s : State) (v : Fabric) : (s.setFab v).evr = s.evr := rfl
@[simp] theorem State.setFab_rings (s : State) (v : Fabric) : (s.setFab v).rings = s.rings := rfl
@[simp] theorem State.setFab_tel (s : State) (v : Fabric) : (s.setFab v).tel = s.tel := rfl
@[simp] theorem State.setFab_mem (s : State) (v : Fabric) : (s.setFab v).mem = s.mem := rfl
@[simp] theorem State.setFab_tmb (s : State) (v : Fabric) : (s.setFab v).tmb = s.tmb := rfl
@[simp] theorem State.setFab_win (s : State) (v : Fabric) : (s.setFab v).win = s.win := rfl
@[simp] theorem State.setFab_pps (s : State) (v : Fabric) : (s.setFab v).pps = s.pps := rfl
@[simp] theorem State.setFab_noon (s : State) (v : Fabric) : (s.setFab v).noon = s.noon := rfl
@[simp] theorem State.setFab_grd (s : State) (v : Fabric) : (s.setFab v).grd = s.grd := rfl
@[simp] theorem State.setFab_tts (s : State) (v : Fabric) : (s.setFab v).tts = s.tts := rfl
@[simp] theorem State.setFab_fh (s : State) (v : Fabric) : (s.setFab v).fh = s.fh := rfl
@[simp] theorem State.setFab_srv (s : State) (v : Fabric) : (s.setFab v).srv = s.srv := rfl
@[simp] theorem State.setFab_fab (s : State) (v : Fabric) : (s.setFab v).fab = v := rfl
@[simp] theorem State.setFab_syn (s : State) (v : Fabric) : (s.setFab v).syn = s.syn := rfl
@[simp] theorem State.setFab_parts (s : State) (v : Fabric) : (s.setFab v).parts = s.parts := rfl
@[simp] theorem State.setFab_quarantine (s : State) (v : Fabric) : (s.setFab v).quarantine = s.quarantine := rfl
@[simp] theorem State.setFab_hlt (s : State) (v : Fabric) : (s.setFab v).hlt = s.hlt := rfl
@[simp] theorem State.setFab_tiles (s : State) (v : Fabric) : (s.setFab v).tiles = s.tiles := rfl
@[simp] theorem State.setFab_cde (s : State) (v : Fabric) : (s.setFab v).cde = s.cde := rfl
@[simp] theorem State.setFab_cells (s : State) (v : Fabric) : (s.setFab v).cells = s.cells := rfl
@[simp] theorem State.setFab_sweep (s : State) (v : Fabric) : (s.setFab v).sweep = s.sweep := rfl
@[simp] theorem State.setFab_mbr (s : State) (v : Fabric) : (s.setFab v).mbr = s.mbr := rfl
@[simp] theorem State.setFab_pwr (s : State) (v : Fabric) : (s.setFab v).pwr = s.pwr := rfl
@[simp] theorem State.setFab_bg (s : State) (v : Fabric) : (s.setFab v).bg = s.bg := rfl
@[simp] theorem State.setFab_mgt (s : State) (v : Fabric) : (s.setFab v).mgt = s.mgt := rfl
@[simp] theorem State.setFab_tap (s : State) (v : Fabric) : (s.setFab v).tap = s.tap := rfl
@[simp] theorem State.setFab_out (s : State) (v : Fabric) : (s.setFab v).out = s.out := rfl
@[simp] theorem State.setFab_fresh (s : State) (v : Fabric) : (s.setFab v).fresh = s.fresh := rfl
@[simp] theorem State.setFab_pending (s : State) (v : Fabric) : (s.setFab v).pending = s.pending := rfl

/-! State.setSyn -/

@[simp] theorem State.setSyn_grade (s : State) (v : Sync) : (s.setSyn v).grade = s.grade := rfl
@[simp] theorem State.setSyn_dev (s : State) (v : Sync) : (s.setSyn v).dev = s.dev := rfl
@[simp] theorem State.setSyn_mbx (s : State) (v : Sync) : (s.setSyn v).mbx = s.mbx := rfl
@[simp] theorem State.setSyn_ops (s : State) (v : Sync) : (s.setSyn v).ops = s.ops := rfl
@[simp] theorem State.setSyn_evr (s : State) (v : Sync) : (s.setSyn v).evr = s.evr := rfl
@[simp] theorem State.setSyn_rings (s : State) (v : Sync) : (s.setSyn v).rings = s.rings := rfl
@[simp] theorem State.setSyn_tel (s : State) (v : Sync) : (s.setSyn v).tel = s.tel := rfl
@[simp] theorem State.setSyn_mem (s : State) (v : Sync) : (s.setSyn v).mem = s.mem := rfl
@[simp] theorem State.setSyn_tmb (s : State) (v : Sync) : (s.setSyn v).tmb = s.tmb := rfl
@[simp] theorem State.setSyn_win (s : State) (v : Sync) : (s.setSyn v).win = s.win := rfl
@[simp] theorem State.setSyn_pps (s : State) (v : Sync) : (s.setSyn v).pps = s.pps := rfl
@[simp] theorem State.setSyn_noon (s : State) (v : Sync) : (s.setSyn v).noon = s.noon := rfl
@[simp] theorem State.setSyn_grd (s : State) (v : Sync) : (s.setSyn v).grd = s.grd := rfl
@[simp] theorem State.setSyn_tts (s : State) (v : Sync) : (s.setSyn v).tts = s.tts := rfl
@[simp] theorem State.setSyn_fh (s : State) (v : Sync) : (s.setSyn v).fh = s.fh := rfl
@[simp] theorem State.setSyn_srv (s : State) (v : Sync) : (s.setSyn v).srv = s.srv := rfl
@[simp] theorem State.setSyn_fab (s : State) (v : Sync) : (s.setSyn v).fab = s.fab := rfl
@[simp] theorem State.setSyn_syn (s : State) (v : Sync) : (s.setSyn v).syn = v := rfl
@[simp] theorem State.setSyn_parts (s : State) (v : Sync) : (s.setSyn v).parts = s.parts := rfl
@[simp] theorem State.setSyn_quarantine (s : State) (v : Sync) : (s.setSyn v).quarantine = s.quarantine := rfl
@[simp] theorem State.setSyn_hlt (s : State) (v : Sync) : (s.setSyn v).hlt = s.hlt := rfl
@[simp] theorem State.setSyn_tiles (s : State) (v : Sync) : (s.setSyn v).tiles = s.tiles := rfl
@[simp] theorem State.setSyn_cde (s : State) (v : Sync) : (s.setSyn v).cde = s.cde := rfl
@[simp] theorem State.setSyn_cells (s : State) (v : Sync) : (s.setSyn v).cells = s.cells := rfl
@[simp] theorem State.setSyn_sweep (s : State) (v : Sync) : (s.setSyn v).sweep = s.sweep := rfl
@[simp] theorem State.setSyn_mbr (s : State) (v : Sync) : (s.setSyn v).mbr = s.mbr := rfl
@[simp] theorem State.setSyn_pwr (s : State) (v : Sync) : (s.setSyn v).pwr = s.pwr := rfl
@[simp] theorem State.setSyn_bg (s : State) (v : Sync) : (s.setSyn v).bg = s.bg := rfl
@[simp] theorem State.setSyn_mgt (s : State) (v : Sync) : (s.setSyn v).mgt = s.mgt := rfl
@[simp] theorem State.setSyn_tap (s : State) (v : Sync) : (s.setSyn v).tap = s.tap := rfl
@[simp] theorem State.setSyn_out (s : State) (v : Sync) : (s.setSyn v).out = s.out := rfl
@[simp] theorem State.setSyn_fresh (s : State) (v : Sync) : (s.setSyn v).fresh = s.fresh := rfl
@[simp] theorem State.setSyn_pending (s : State) (v : Sync) : (s.setSyn v).pending = s.pending := rfl

/-! State.setParts -/

@[simp] theorem State.setParts_grade (s : State) (v : Tab Partition) : (s.setParts v).grade = s.grade := rfl
@[simp] theorem State.setParts_dev (s : State) (v : Tab Partition) : (s.setParts v).dev = s.dev := rfl
@[simp] theorem State.setParts_mbx (s : State) (v : Tab Partition) : (s.setParts v).mbx = s.mbx := rfl
@[simp] theorem State.setParts_ops (s : State) (v : Tab Partition) : (s.setParts v).ops = s.ops := rfl
@[simp] theorem State.setParts_evr (s : State) (v : Tab Partition) : (s.setParts v).evr = s.evr := rfl
@[simp] theorem State.setParts_rings (s : State) (v : Tab Partition) : (s.setParts v).rings = s.rings := rfl
@[simp] theorem State.setParts_tel (s : State) (v : Tab Partition) : (s.setParts v).tel = s.tel := rfl
@[simp] theorem State.setParts_mem (s : State) (v : Tab Partition) : (s.setParts v).mem = s.mem := rfl
@[simp] theorem State.setParts_tmb (s : State) (v : Tab Partition) : (s.setParts v).tmb = s.tmb := rfl
@[simp] theorem State.setParts_win (s : State) (v : Tab Partition) : (s.setParts v).win = s.win := rfl
@[simp] theorem State.setParts_pps (s : State) (v : Tab Partition) : (s.setParts v).pps = s.pps := rfl
@[simp] theorem State.setParts_noon (s : State) (v : Tab Partition) : (s.setParts v).noon = s.noon := rfl
@[simp] theorem State.setParts_grd (s : State) (v : Tab Partition) : (s.setParts v).grd = s.grd := rfl
@[simp] theorem State.setParts_tts (s : State) (v : Tab Partition) : (s.setParts v).tts = s.tts := rfl
@[simp] theorem State.setParts_fh (s : State) (v : Tab Partition) : (s.setParts v).fh = s.fh := rfl
@[simp] theorem State.setParts_srv (s : State) (v : Tab Partition) : (s.setParts v).srv = s.srv := rfl
@[simp] theorem State.setParts_fab (s : State) (v : Tab Partition) : (s.setParts v).fab = s.fab := rfl
@[simp] theorem State.setParts_syn (s : State) (v : Tab Partition) : (s.setParts v).syn = s.syn := rfl
@[simp] theorem State.setParts_parts (s : State) (v : Tab Partition) : (s.setParts v).parts = v := rfl
@[simp] theorem State.setParts_quarantine (s : State) (v : Tab Partition) : (s.setParts v).quarantine = s.quarantine := rfl
@[simp] theorem State.setParts_hlt (s : State) (v : Tab Partition) : (s.setParts v).hlt = s.hlt := rfl
@[simp] theorem State.setParts_tiles (s : State) (v : Tab Partition) : (s.setParts v).tiles = s.tiles := rfl
@[simp] theorem State.setParts_cde (s : State) (v : Tab Partition) : (s.setParts v).cde = s.cde := rfl
@[simp] theorem State.setParts_cells (s : State) (v : Tab Partition) : (s.setParts v).cells = s.cells := rfl
@[simp] theorem State.setParts_sweep (s : State) (v : Tab Partition) : (s.setParts v).sweep = s.sweep := rfl
@[simp] theorem State.setParts_mbr (s : State) (v : Tab Partition) : (s.setParts v).mbr = s.mbr := rfl
@[simp] theorem State.setParts_pwr (s : State) (v : Tab Partition) : (s.setParts v).pwr = s.pwr := rfl
@[simp] theorem State.setParts_bg (s : State) (v : Tab Partition) : (s.setParts v).bg = s.bg := rfl
@[simp] theorem State.setParts_mgt (s : State) (v : Tab Partition) : (s.setParts v).mgt = s.mgt := rfl
@[simp] theorem State.setParts_tap (s : State) (v : Tab Partition) : (s.setParts v).tap = s.tap := rfl
@[simp] theorem State.setParts_out (s : State) (v : Tab Partition) : (s.setParts v).out = s.out := rfl
@[simp] theorem State.setParts_fresh (s : State) (v : Tab Partition) : (s.setParts v).fresh = s.fresh := rfl
@[simp] theorem State.setParts_pending (s : State) (v : Tab Partition) : (s.setParts v).pending = s.pending := rfl

/-! State.setQuarantine -/

@[simp] theorem State.setQuarantine_grade (s : State) (v : Tab Nat) : (s.setQuarantine v).grade = s.grade := rfl
@[simp] theorem State.setQuarantine_dev (s : State) (v : Tab Nat) : (s.setQuarantine v).dev = s.dev := rfl
@[simp] theorem State.setQuarantine_mbx (s : State) (v : Tab Nat) : (s.setQuarantine v).mbx = s.mbx := rfl
@[simp] theorem State.setQuarantine_ops (s : State) (v : Tab Nat) : (s.setQuarantine v).ops = s.ops := rfl
@[simp] theorem State.setQuarantine_evr (s : State) (v : Tab Nat) : (s.setQuarantine v).evr = s.evr := rfl
@[simp] theorem State.setQuarantine_rings (s : State) (v : Tab Nat) : (s.setQuarantine v).rings = s.rings := rfl
@[simp] theorem State.setQuarantine_tel (s : State) (v : Tab Nat) : (s.setQuarantine v).tel = s.tel := rfl
@[simp] theorem State.setQuarantine_mem (s : State) (v : Tab Nat) : (s.setQuarantine v).mem = s.mem := rfl
@[simp] theorem State.setQuarantine_tmb (s : State) (v : Tab Nat) : (s.setQuarantine v).tmb = s.tmb := rfl
@[simp] theorem State.setQuarantine_win (s : State) (v : Tab Nat) : (s.setQuarantine v).win = s.win := rfl
@[simp] theorem State.setQuarantine_pps (s : State) (v : Tab Nat) : (s.setQuarantine v).pps = s.pps := rfl
@[simp] theorem State.setQuarantine_noon (s : State) (v : Tab Nat) : (s.setQuarantine v).noon = s.noon := rfl
@[simp] theorem State.setQuarantine_grd (s : State) (v : Tab Nat) : (s.setQuarantine v).grd = s.grd := rfl
@[simp] theorem State.setQuarantine_tts (s : State) (v : Tab Nat) : (s.setQuarantine v).tts = s.tts := rfl
@[simp] theorem State.setQuarantine_fh (s : State) (v : Tab Nat) : (s.setQuarantine v).fh = s.fh := rfl
@[simp] theorem State.setQuarantine_srv (s : State) (v : Tab Nat) : (s.setQuarantine v).srv = s.srv := rfl
@[simp] theorem State.setQuarantine_fab (s : State) (v : Tab Nat) : (s.setQuarantine v).fab = s.fab := rfl
@[simp] theorem State.setQuarantine_syn (s : State) (v : Tab Nat) : (s.setQuarantine v).syn = s.syn := rfl
@[simp] theorem State.setQuarantine_parts (s : State) (v : Tab Nat) : (s.setQuarantine v).parts = s.parts := rfl
@[simp] theorem State.setQuarantine_quarantine (s : State) (v : Tab Nat) : (s.setQuarantine v).quarantine = v := rfl
@[simp] theorem State.setQuarantine_hlt (s : State) (v : Tab Nat) : (s.setQuarantine v).hlt = s.hlt := rfl
@[simp] theorem State.setQuarantine_tiles (s : State) (v : Tab Nat) : (s.setQuarantine v).tiles = s.tiles := rfl
@[simp] theorem State.setQuarantine_cde (s : State) (v : Tab Nat) : (s.setQuarantine v).cde = s.cde := rfl
@[simp] theorem State.setQuarantine_cells (s : State) (v : Tab Nat) : (s.setQuarantine v).cells = s.cells := rfl
@[simp] theorem State.setQuarantine_sweep (s : State) (v : Tab Nat) : (s.setQuarantine v).sweep = s.sweep := rfl
@[simp] theorem State.setQuarantine_mbr (s : State) (v : Tab Nat) : (s.setQuarantine v).mbr = s.mbr := rfl
@[simp] theorem State.setQuarantine_pwr (s : State) (v : Tab Nat) : (s.setQuarantine v).pwr = s.pwr := rfl
@[simp] theorem State.setQuarantine_bg (s : State) (v : Tab Nat) : (s.setQuarantine v).bg = s.bg := rfl
@[simp] theorem State.setQuarantine_mgt (s : State) (v : Tab Nat) : (s.setQuarantine v).mgt = s.mgt := rfl
@[simp] theorem State.setQuarantine_tap (s : State) (v : Tab Nat) : (s.setQuarantine v).tap = s.tap := rfl
@[simp] theorem State.setQuarantine_out (s : State) (v : Tab Nat) : (s.setQuarantine v).out = s.out := rfl
@[simp] theorem State.setQuarantine_fresh (s : State) (v : Tab Nat) : (s.setQuarantine v).fresh = s.fresh := rfl
@[simp] theorem State.setQuarantine_pending (s : State) (v : Tab Nat) : (s.setQuarantine v).pending = s.pending := rfl

/-! State.setHlt -/

@[simp] theorem State.setHlt_grade (s : State) (v : Health) : (s.setHlt v).grade = s.grade := rfl
@[simp] theorem State.setHlt_dev (s : State) (v : Health) : (s.setHlt v).dev = s.dev := rfl
@[simp] theorem State.setHlt_mbx (s : State) (v : Health) : (s.setHlt v).mbx = s.mbx := rfl
@[simp] theorem State.setHlt_ops (s : State) (v : Health) : (s.setHlt v).ops = s.ops := rfl
@[simp] theorem State.setHlt_evr (s : State) (v : Health) : (s.setHlt v).evr = s.evr := rfl
@[simp] theorem State.setHlt_rings (s : State) (v : Health) : (s.setHlt v).rings = s.rings := rfl
@[simp] theorem State.setHlt_tel (s : State) (v : Health) : (s.setHlt v).tel = s.tel := rfl
@[simp] theorem State.setHlt_mem (s : State) (v : Health) : (s.setHlt v).mem = s.mem := rfl
@[simp] theorem State.setHlt_tmb (s : State) (v : Health) : (s.setHlt v).tmb = s.tmb := rfl
@[simp] theorem State.setHlt_win (s : State) (v : Health) : (s.setHlt v).win = s.win := rfl
@[simp] theorem State.setHlt_pps (s : State) (v : Health) : (s.setHlt v).pps = s.pps := rfl
@[simp] theorem State.setHlt_noon (s : State) (v : Health) : (s.setHlt v).noon = s.noon := rfl
@[simp] theorem State.setHlt_grd (s : State) (v : Health) : (s.setHlt v).grd = s.grd := rfl
@[simp] theorem State.setHlt_tts (s : State) (v : Health) : (s.setHlt v).tts = s.tts := rfl
@[simp] theorem State.setHlt_fh (s : State) (v : Health) : (s.setHlt v).fh = s.fh := rfl
@[simp] theorem State.setHlt_srv (s : State) (v : Health) : (s.setHlt v).srv = s.srv := rfl
@[simp] theorem State.setHlt_fab (s : State) (v : Health) : (s.setHlt v).fab = s.fab := rfl
@[simp] theorem State.setHlt_syn (s : State) (v : Health) : (s.setHlt v).syn = s.syn := rfl
@[simp] theorem State.setHlt_parts (s : State) (v : Health) : (s.setHlt v).parts = s.parts := rfl
@[simp] theorem State.setHlt_quarantine (s : State) (v : Health) : (s.setHlt v).quarantine = s.quarantine := rfl
@[simp] theorem State.setHlt_hlt (s : State) (v : Health) : (s.setHlt v).hlt = v := rfl
@[simp] theorem State.setHlt_tiles (s : State) (v : Health) : (s.setHlt v).tiles = s.tiles := rfl
@[simp] theorem State.setHlt_cde (s : State) (v : Health) : (s.setHlt v).cde = s.cde := rfl
@[simp] theorem State.setHlt_cells (s : State) (v : Health) : (s.setHlt v).cells = s.cells := rfl
@[simp] theorem State.setHlt_sweep (s : State) (v : Health) : (s.setHlt v).sweep = s.sweep := rfl
@[simp] theorem State.setHlt_mbr (s : State) (v : Health) : (s.setHlt v).mbr = s.mbr := rfl
@[simp] theorem State.setHlt_pwr (s : State) (v : Health) : (s.setHlt v).pwr = s.pwr := rfl
@[simp] theorem State.setHlt_bg (s : State) (v : Health) : (s.setHlt v).bg = s.bg := rfl
@[simp] theorem State.setHlt_mgt (s : State) (v : Health) : (s.setHlt v).mgt = s.mgt := rfl
@[simp] theorem State.setHlt_tap (s : State) (v : Health) : (s.setHlt v).tap = s.tap := rfl
@[simp] theorem State.setHlt_out (s : State) (v : Health) : (s.setHlt v).out = s.out := rfl
@[simp] theorem State.setHlt_fresh (s : State) (v : Health) : (s.setHlt v).fresh = s.fresh := rfl
@[simp] theorem State.setHlt_pending (s : State) (v : Health) : (s.setHlt v).pending = s.pending := rfl

/-! State.setTiles -/

@[simp] theorem State.setTiles_grade (s : State) (v : Tab Tile) : (s.setTiles v).grade = s.grade := rfl
@[simp] theorem State.setTiles_dev (s : State) (v : Tab Tile) : (s.setTiles v).dev = s.dev := rfl
@[simp] theorem State.setTiles_mbx (s : State) (v : Tab Tile) : (s.setTiles v).mbx = s.mbx := rfl
@[simp] theorem State.setTiles_ops (s : State) (v : Tab Tile) : (s.setTiles v).ops = s.ops := rfl
@[simp] theorem State.setTiles_evr (s : State) (v : Tab Tile) : (s.setTiles v).evr = s.evr := rfl
@[simp] theorem State.setTiles_rings (s : State) (v : Tab Tile) : (s.setTiles v).rings = s.rings := rfl
@[simp] theorem State.setTiles_tel (s : State) (v : Tab Tile) : (s.setTiles v).tel = s.tel := rfl
@[simp] theorem State.setTiles_mem (s : State) (v : Tab Tile) : (s.setTiles v).mem = s.mem := rfl
@[simp] theorem State.setTiles_tmb (s : State) (v : Tab Tile) : (s.setTiles v).tmb = s.tmb := rfl
@[simp] theorem State.setTiles_win (s : State) (v : Tab Tile) : (s.setTiles v).win = s.win := rfl
@[simp] theorem State.setTiles_pps (s : State) (v : Tab Tile) : (s.setTiles v).pps = s.pps := rfl
@[simp] theorem State.setTiles_noon (s : State) (v : Tab Tile) : (s.setTiles v).noon = s.noon := rfl
@[simp] theorem State.setTiles_grd (s : State) (v : Tab Tile) : (s.setTiles v).grd = s.grd := rfl
@[simp] theorem State.setTiles_tts (s : State) (v : Tab Tile) : (s.setTiles v).tts = s.tts := rfl
@[simp] theorem State.setTiles_fh (s : State) (v : Tab Tile) : (s.setTiles v).fh = s.fh := rfl
@[simp] theorem State.setTiles_srv (s : State) (v : Tab Tile) : (s.setTiles v).srv = s.srv := rfl
@[simp] theorem State.setTiles_fab (s : State) (v : Tab Tile) : (s.setTiles v).fab = s.fab := rfl
@[simp] theorem State.setTiles_syn (s : State) (v : Tab Tile) : (s.setTiles v).syn = s.syn := rfl
@[simp] theorem State.setTiles_parts (s : State) (v : Tab Tile) : (s.setTiles v).parts = s.parts := rfl
@[simp] theorem State.setTiles_quarantine (s : State) (v : Tab Tile) : (s.setTiles v).quarantine = s.quarantine := rfl
@[simp] theorem State.setTiles_hlt (s : State) (v : Tab Tile) : (s.setTiles v).hlt = s.hlt := rfl
@[simp] theorem State.setTiles_tiles (s : State) (v : Tab Tile) : (s.setTiles v).tiles = v := rfl
@[simp] theorem State.setTiles_cde (s : State) (v : Tab Tile) : (s.setTiles v).cde = s.cde := rfl
@[simp] theorem State.setTiles_cells (s : State) (v : Tab Tile) : (s.setTiles v).cells = s.cells := rfl
@[simp] theorem State.setTiles_sweep (s : State) (v : Tab Tile) : (s.setTiles v).sweep = s.sweep := rfl
@[simp] theorem State.setTiles_mbr (s : State) (v : Tab Tile) : (s.setTiles v).mbr = s.mbr := rfl
@[simp] theorem State.setTiles_pwr (s : State) (v : Tab Tile) : (s.setTiles v).pwr = s.pwr := rfl
@[simp] theorem State.setTiles_bg (s : State) (v : Tab Tile) : (s.setTiles v).bg = s.bg := rfl
@[simp] theorem State.setTiles_mgt (s : State) (v : Tab Tile) : (s.setTiles v).mgt = s.mgt := rfl
@[simp] theorem State.setTiles_tap (s : State) (v : Tab Tile) : (s.setTiles v).tap = s.tap := rfl
@[simp] theorem State.setTiles_out (s : State) (v : Tab Tile) : (s.setTiles v).out = s.out := rfl
@[simp] theorem State.setTiles_fresh (s : State) (v : Tab Tile) : (s.setTiles v).fresh = s.fresh := rfl
@[simp] theorem State.setTiles_pending (s : State) (v : Tab Tile) : (s.setTiles v).pending = s.pending := rfl

/-! State.setCde -/

@[simp] theorem State.setCde_grade (s : State) (v : Coding) : (s.setCde v).grade = s.grade := rfl
@[simp] theorem State.setCde_dev (s : State) (v : Coding) : (s.setCde v).dev = s.dev := rfl
@[simp] theorem State.setCde_mbx (s : State) (v : Coding) : (s.setCde v).mbx = s.mbx := rfl
@[simp] theorem State.setCde_ops (s : State) (v : Coding) : (s.setCde v).ops = s.ops := rfl
@[simp] theorem State.setCde_evr (s : State) (v : Coding) : (s.setCde v).evr = s.evr := rfl
@[simp] theorem State.setCde_rings (s : State) (v : Coding) : (s.setCde v).rings = s.rings := rfl
@[simp] theorem State.setCde_tel (s : State) (v : Coding) : (s.setCde v).tel = s.tel := rfl
@[simp] theorem State.setCde_mem (s : State) (v : Coding) : (s.setCde v).mem = s.mem := rfl
@[simp] theorem State.setCde_tmb (s : State) (v : Coding) : (s.setCde v).tmb = s.tmb := rfl
@[simp] theorem State.setCde_win (s : State) (v : Coding) : (s.setCde v).win = s.win := rfl
@[simp] theorem State.setCde_pps (s : State) (v : Coding) : (s.setCde v).pps = s.pps := rfl
@[simp] theorem State.setCde_noon (s : State) (v : Coding) : (s.setCde v).noon = s.noon := rfl
@[simp] theorem State.setCde_grd (s : State) (v : Coding) : (s.setCde v).grd = s.grd := rfl
@[simp] theorem State.setCde_tts (s : State) (v : Coding) : (s.setCde v).tts = s.tts := rfl
@[simp] theorem State.setCde_fh (s : State) (v : Coding) : (s.setCde v).fh = s.fh := rfl
@[simp] theorem State.setCde_srv (s : State) (v : Coding) : (s.setCde v).srv = s.srv := rfl
@[simp] theorem State.setCde_fab (s : State) (v : Coding) : (s.setCde v).fab = s.fab := rfl
@[simp] theorem State.setCde_syn (s : State) (v : Coding) : (s.setCde v).syn = s.syn := rfl
@[simp] theorem State.setCde_parts (s : State) (v : Coding) : (s.setCde v).parts = s.parts := rfl
@[simp] theorem State.setCde_quarantine (s : State) (v : Coding) : (s.setCde v).quarantine = s.quarantine := rfl
@[simp] theorem State.setCde_hlt (s : State) (v : Coding) : (s.setCde v).hlt = s.hlt := rfl
@[simp] theorem State.setCde_tiles (s : State) (v : Coding) : (s.setCde v).tiles = s.tiles := rfl
@[simp] theorem State.setCde_cde (s : State) (v : Coding) : (s.setCde v).cde = v := rfl
@[simp] theorem State.setCde_cells (s : State) (v : Coding) : (s.setCde v).cells = s.cells := rfl
@[simp] theorem State.setCde_sweep (s : State) (v : Coding) : (s.setCde v).sweep = s.sweep := rfl
@[simp] theorem State.setCde_mbr (s : State) (v : Coding) : (s.setCde v).mbr = s.mbr := rfl
@[simp] theorem State.setCde_pwr (s : State) (v : Coding) : (s.setCde v).pwr = s.pwr := rfl
@[simp] theorem State.setCde_bg (s : State) (v : Coding) : (s.setCde v).bg = s.bg := rfl
@[simp] theorem State.setCde_mgt (s : State) (v : Coding) : (s.setCde v).mgt = s.mgt := rfl
@[simp] theorem State.setCde_tap (s : State) (v : Coding) : (s.setCde v).tap = s.tap := rfl
@[simp] theorem State.setCde_out (s : State) (v : Coding) : (s.setCde v).out = s.out := rfl
@[simp] theorem State.setCde_fresh (s : State) (v : Coding) : (s.setCde v).fresh = s.fresh := rfl
@[simp] theorem State.setCde_pending (s : State) (v : Coding) : (s.setCde v).pending = s.pending := rfl

/-! State.setCells -/

@[simp] theorem State.setCells_grade (s : State) (v : Tab Cell) : (s.setCells v).grade = s.grade := rfl
@[simp] theorem State.setCells_dev (s : State) (v : Tab Cell) : (s.setCells v).dev = s.dev := rfl
@[simp] theorem State.setCells_mbx (s : State) (v : Tab Cell) : (s.setCells v).mbx = s.mbx := rfl
@[simp] theorem State.setCells_ops (s : State) (v : Tab Cell) : (s.setCells v).ops = s.ops := rfl
@[simp] theorem State.setCells_evr (s : State) (v : Tab Cell) : (s.setCells v).evr = s.evr := rfl
@[simp] theorem State.setCells_rings (s : State) (v : Tab Cell) : (s.setCells v).rings = s.rings := rfl
@[simp] theorem State.setCells_tel (s : State) (v : Tab Cell) : (s.setCells v).tel = s.tel := rfl
@[simp] theorem State.setCells_mem (s : State) (v : Tab Cell) : (s.setCells v).mem = s.mem := rfl
@[simp] theorem State.setCells_tmb (s : State) (v : Tab Cell) : (s.setCells v).tmb = s.tmb := rfl
@[simp] theorem State.setCells_win (s : State) (v : Tab Cell) : (s.setCells v).win = s.win := rfl
@[simp] theorem State.setCells_pps (s : State) (v : Tab Cell) : (s.setCells v).pps = s.pps := rfl
@[simp] theorem State.setCells_noon (s : State) (v : Tab Cell) : (s.setCells v).noon = s.noon := rfl
@[simp] theorem State.setCells_grd (s : State) (v : Tab Cell) : (s.setCells v).grd = s.grd := rfl
@[simp] theorem State.setCells_tts (s : State) (v : Tab Cell) : (s.setCells v).tts = s.tts := rfl
@[simp] theorem State.setCells_fh (s : State) (v : Tab Cell) : (s.setCells v).fh = s.fh := rfl
@[simp] theorem State.setCells_srv (s : State) (v : Tab Cell) : (s.setCells v).srv = s.srv := rfl
@[simp] theorem State.setCells_fab (s : State) (v : Tab Cell) : (s.setCells v).fab = s.fab := rfl
@[simp] theorem State.setCells_syn (s : State) (v : Tab Cell) : (s.setCells v).syn = s.syn := rfl
@[simp] theorem State.setCells_parts (s : State) (v : Tab Cell) : (s.setCells v).parts = s.parts := rfl
@[simp] theorem State.setCells_quarantine (s : State) (v : Tab Cell) : (s.setCells v).quarantine = s.quarantine := rfl
@[simp] theorem State.setCells_hlt (s : State) (v : Tab Cell) : (s.setCells v).hlt = s.hlt := rfl
@[simp] theorem State.setCells_tiles (s : State) (v : Tab Cell) : (s.setCells v).tiles = s.tiles := rfl
@[simp] theorem State.setCells_cde (s : State) (v : Tab Cell) : (s.setCells v).cde = s.cde := rfl
@[simp] theorem State.setCells_cells (s : State) (v : Tab Cell) : (s.setCells v).cells = v := rfl
@[simp] theorem State.setCells_sweep (s : State) (v : Tab Cell) : (s.setCells v).sweep = s.sweep := rfl
@[simp] theorem State.setCells_mbr (s : State) (v : Tab Cell) : (s.setCells v).mbr = s.mbr := rfl
@[simp] theorem State.setCells_pwr (s : State) (v : Tab Cell) : (s.setCells v).pwr = s.pwr := rfl
@[simp] theorem State.setCells_bg (s : State) (v : Tab Cell) : (s.setCells v).bg = s.bg := rfl
@[simp] theorem State.setCells_mgt (s : State) (v : Tab Cell) : (s.setCells v).mgt = s.mgt := rfl
@[simp] theorem State.setCells_tap (s : State) (v : Tab Cell) : (s.setCells v).tap = s.tap := rfl
@[simp] theorem State.setCells_out (s : State) (v : Tab Cell) : (s.setCells v).out = s.out := rfl
@[simp] theorem State.setCells_fresh (s : State) (v : Tab Cell) : (s.setCells v).fresh = s.fresh := rfl
@[simp] theorem State.setCells_pending (s : State) (v : Tab Cell) : (s.setCells v).pending = s.pending := rfl

/-! State.setSweep -/

@[simp] theorem State.setSweep_grade (s : State) (v : Tab SweepChan) : (s.setSweep v).grade = s.grade := rfl
@[simp] theorem State.setSweep_dev (s : State) (v : Tab SweepChan) : (s.setSweep v).dev = s.dev := rfl
@[simp] theorem State.setSweep_mbx (s : State) (v : Tab SweepChan) : (s.setSweep v).mbx = s.mbx := rfl
@[simp] theorem State.setSweep_ops (s : State) (v : Tab SweepChan) : (s.setSweep v).ops = s.ops := rfl
@[simp] theorem State.setSweep_evr (s : State) (v : Tab SweepChan) : (s.setSweep v).evr = s.evr := rfl
@[simp] theorem State.setSweep_rings (s : State) (v : Tab SweepChan) : (s.setSweep v).rings = s.rings := rfl
@[simp] theorem State.setSweep_tel (s : State) (v : Tab SweepChan) : (s.setSweep v).tel = s.tel := rfl
@[simp] theorem State.setSweep_mem (s : State) (v : Tab SweepChan) : (s.setSweep v).mem = s.mem := rfl
@[simp] theorem State.setSweep_tmb (s : State) (v : Tab SweepChan) : (s.setSweep v).tmb = s.tmb := rfl
@[simp] theorem State.setSweep_win (s : State) (v : Tab SweepChan) : (s.setSweep v).win = s.win := rfl
@[simp] theorem State.setSweep_pps (s : State) (v : Tab SweepChan) : (s.setSweep v).pps = s.pps := rfl
@[simp] theorem State.setSweep_noon (s : State) (v : Tab SweepChan) : (s.setSweep v).noon = s.noon := rfl
@[simp] theorem State.setSweep_grd (s : State) (v : Tab SweepChan) : (s.setSweep v).grd = s.grd := rfl
@[simp] theorem State.setSweep_tts (s : State) (v : Tab SweepChan) : (s.setSweep v).tts = s.tts := rfl
@[simp] theorem State.setSweep_fh (s : State) (v : Tab SweepChan) : (s.setSweep v).fh = s.fh := rfl
@[simp] theorem State.setSweep_srv (s : State) (v : Tab SweepChan) : (s.setSweep v).srv = s.srv := rfl
@[simp] theorem State.setSweep_fab (s : State) (v : Tab SweepChan) : (s.setSweep v).fab = s.fab := rfl
@[simp] theorem State.setSweep_syn (s : State) (v : Tab SweepChan) : (s.setSweep v).syn = s.syn := rfl
@[simp] theorem State.setSweep_parts (s : State) (v : Tab SweepChan) : (s.setSweep v).parts = s.parts := rfl
@[simp] theorem State.setSweep_quarantine (s : State) (v : Tab SweepChan) : (s.setSweep v).quarantine = s.quarantine := rfl
@[simp] theorem State.setSweep_hlt (s : State) (v : Tab SweepChan) : (s.setSweep v).hlt = s.hlt := rfl
@[simp] theorem State.setSweep_tiles (s : State) (v : Tab SweepChan) : (s.setSweep v).tiles = s.tiles := rfl
@[simp] theorem State.setSweep_cde (s : State) (v : Tab SweepChan) : (s.setSweep v).cde = s.cde := rfl
@[simp] theorem State.setSweep_cells (s : State) (v : Tab SweepChan) : (s.setSweep v).cells = s.cells := rfl
@[simp] theorem State.setSweep_sweep (s : State) (v : Tab SweepChan) : (s.setSweep v).sweep = v := rfl
@[simp] theorem State.setSweep_mbr (s : State) (v : Tab SweepChan) : (s.setSweep v).mbr = s.mbr := rfl
@[simp] theorem State.setSweep_pwr (s : State) (v : Tab SweepChan) : (s.setSweep v).pwr = s.pwr := rfl
@[simp] theorem State.setSweep_bg (s : State) (v : Tab SweepChan) : (s.setSweep v).bg = s.bg := rfl
@[simp] theorem State.setSweep_mgt (s : State) (v : Tab SweepChan) : (s.setSweep v).mgt = s.mgt := rfl
@[simp] theorem State.setSweep_tap (s : State) (v : Tab SweepChan) : (s.setSweep v).tap = s.tap := rfl
@[simp] theorem State.setSweep_out (s : State) (v : Tab SweepChan) : (s.setSweep v).out = s.out := rfl
@[simp] theorem State.setSweep_fresh (s : State) (v : Tab SweepChan) : (s.setSweep v).fresh = s.fresh := rfl
@[simp] theorem State.setSweep_pending (s : State) (v : Tab SweepChan) : (s.setSweep v).pending = s.pending := rfl

/-! State.setMbr -/

@[simp] theorem State.setMbr_grade (s : State) (v : Membership) : (s.setMbr v).grade = s.grade := rfl
@[simp] theorem State.setMbr_dev (s : State) (v : Membership) : (s.setMbr v).dev = s.dev := rfl
@[simp] theorem State.setMbr_mbx (s : State) (v : Membership) : (s.setMbr v).mbx = s.mbx := rfl
@[simp] theorem State.setMbr_ops (s : State) (v : Membership) : (s.setMbr v).ops = s.ops := rfl
@[simp] theorem State.setMbr_evr (s : State) (v : Membership) : (s.setMbr v).evr = s.evr := rfl
@[simp] theorem State.setMbr_rings (s : State) (v : Membership) : (s.setMbr v).rings = s.rings := rfl
@[simp] theorem State.setMbr_tel (s : State) (v : Membership) : (s.setMbr v).tel = s.tel := rfl
@[simp] theorem State.setMbr_mem (s : State) (v : Membership) : (s.setMbr v).mem = s.mem := rfl
@[simp] theorem State.setMbr_tmb (s : State) (v : Membership) : (s.setMbr v).tmb = s.tmb := rfl
@[simp] theorem State.setMbr_win (s : State) (v : Membership) : (s.setMbr v).win = s.win := rfl
@[simp] theorem State.setMbr_pps (s : State) (v : Membership) : (s.setMbr v).pps = s.pps := rfl
@[simp] theorem State.setMbr_noon (s : State) (v : Membership) : (s.setMbr v).noon = s.noon := rfl
@[simp] theorem State.setMbr_grd (s : State) (v : Membership) : (s.setMbr v).grd = s.grd := rfl
@[simp] theorem State.setMbr_tts (s : State) (v : Membership) : (s.setMbr v).tts = s.tts := rfl
@[simp] theorem State.setMbr_fh (s : State) (v : Membership) : (s.setMbr v).fh = s.fh := rfl
@[simp] theorem State.setMbr_srv (s : State) (v : Membership) : (s.setMbr v).srv = s.srv := rfl
@[simp] theorem State.setMbr_fab (s : State) (v : Membership) : (s.setMbr v).fab = s.fab := rfl
@[simp] theorem State.setMbr_syn (s : State) (v : Membership) : (s.setMbr v).syn = s.syn := rfl
@[simp] theorem State.setMbr_parts (s : State) (v : Membership) : (s.setMbr v).parts = s.parts := rfl
@[simp] theorem State.setMbr_quarantine (s : State) (v : Membership) : (s.setMbr v).quarantine = s.quarantine := rfl
@[simp] theorem State.setMbr_hlt (s : State) (v : Membership) : (s.setMbr v).hlt = s.hlt := rfl
@[simp] theorem State.setMbr_tiles (s : State) (v : Membership) : (s.setMbr v).tiles = s.tiles := rfl
@[simp] theorem State.setMbr_cde (s : State) (v : Membership) : (s.setMbr v).cde = s.cde := rfl
@[simp] theorem State.setMbr_cells (s : State) (v : Membership) : (s.setMbr v).cells = s.cells := rfl
@[simp] theorem State.setMbr_sweep (s : State) (v : Membership) : (s.setMbr v).sweep = s.sweep := rfl
@[simp] theorem State.setMbr_mbr (s : State) (v : Membership) : (s.setMbr v).mbr = v := rfl
@[simp] theorem State.setMbr_pwr (s : State) (v : Membership) : (s.setMbr v).pwr = s.pwr := rfl
@[simp] theorem State.setMbr_bg (s : State) (v : Membership) : (s.setMbr v).bg = s.bg := rfl
@[simp] theorem State.setMbr_mgt (s : State) (v : Membership) : (s.setMbr v).mgt = s.mgt := rfl
@[simp] theorem State.setMbr_tap (s : State) (v : Membership) : (s.setMbr v).tap = s.tap := rfl
@[simp] theorem State.setMbr_out (s : State) (v : Membership) : (s.setMbr v).out = s.out := rfl
@[simp] theorem State.setMbr_fresh (s : State) (v : Membership) : (s.setMbr v).fresh = s.fresh := rfl
@[simp] theorem State.setMbr_pending (s : State) (v : Membership) : (s.setMbr v).pending = s.pending := rfl

/-! State.setPwr -/

@[simp] theorem State.setPwr_grade (s : State) (v : Power) : (s.setPwr v).grade = s.grade := rfl
@[simp] theorem State.setPwr_dev (s : State) (v : Power) : (s.setPwr v).dev = s.dev := rfl
@[simp] theorem State.setPwr_mbx (s : State) (v : Power) : (s.setPwr v).mbx = s.mbx := rfl
@[simp] theorem State.setPwr_ops (s : State) (v : Power) : (s.setPwr v).ops = s.ops := rfl
@[simp] theorem State.setPwr_evr (s : State) (v : Power) : (s.setPwr v).evr = s.evr := rfl
@[simp] theorem State.setPwr_rings (s : State) (v : Power) : (s.setPwr v).rings = s.rings := rfl
@[simp] theorem State.setPwr_tel (s : State) (v : Power) : (s.setPwr v).tel = s.tel := rfl
@[simp] theorem State.setPwr_mem (s : State) (v : Power) : (s.setPwr v).mem = s.mem := rfl
@[simp] theorem State.setPwr_tmb (s : State) (v : Power) : (s.setPwr v).tmb = s.tmb := rfl
@[simp] theorem State.setPwr_win (s : State) (v : Power) : (s.setPwr v).win = s.win := rfl
@[simp] theorem State.setPwr_pps (s : State) (v : Power) : (s.setPwr v).pps = s.pps := rfl
@[simp] theorem State.setPwr_noon (s : State) (v : Power) : (s.setPwr v).noon = s.noon := rfl
@[simp] theorem State.setPwr_grd (s : State) (v : Power) : (s.setPwr v).grd = s.grd := rfl
@[simp] theorem State.setPwr_tts (s : State) (v : Power) : (s.setPwr v).tts = s.tts := rfl
@[simp] theorem State.setPwr_fh (s : State) (v : Power) : (s.setPwr v).fh = s.fh := rfl
@[simp] theorem State.setPwr_srv (s : State) (v : Power) : (s.setPwr v).srv = s.srv := rfl
@[simp] theorem State.setPwr_fab (s : State) (v : Power) : (s.setPwr v).fab = s.fab := rfl
@[simp] theorem State.setPwr_syn (s : State) (v : Power) : (s.setPwr v).syn = s.syn := rfl
@[simp] theorem State.setPwr_parts (s : State) (v : Power) : (s.setPwr v).parts = s.parts := rfl
@[simp] theorem State.setPwr_quarantine (s : State) (v : Power) : (s.setPwr v).quarantine = s.quarantine := rfl
@[simp] theorem State.setPwr_hlt (s : State) (v : Power) : (s.setPwr v).hlt = s.hlt := rfl
@[simp] theorem State.setPwr_tiles (s : State) (v : Power) : (s.setPwr v).tiles = s.tiles := rfl
@[simp] theorem State.setPwr_cde (s : State) (v : Power) : (s.setPwr v).cde = s.cde := rfl
@[simp] theorem State.setPwr_cells (s : State) (v : Power) : (s.setPwr v).cells = s.cells := rfl
@[simp] theorem State.setPwr_sweep (s : State) (v : Power) : (s.setPwr v).sweep = s.sweep := rfl
@[simp] theorem State.setPwr_mbr (s : State) (v : Power) : (s.setPwr v).mbr = s.mbr := rfl
@[simp] theorem State.setPwr_pwr (s : State) (v : Power) : (s.setPwr v).pwr = v := rfl
@[simp] theorem State.setPwr_bg (s : State) (v : Power) : (s.setPwr v).bg = s.bg := rfl
@[simp] theorem State.setPwr_mgt (s : State) (v : Power) : (s.setPwr v).mgt = s.mgt := rfl
@[simp] theorem State.setPwr_tap (s : State) (v : Power) : (s.setPwr v).tap = s.tap := rfl
@[simp] theorem State.setPwr_out (s : State) (v : Power) : (s.setPwr v).out = s.out := rfl
@[simp] theorem State.setPwr_fresh (s : State) (v : Power) : (s.setPwr v).fresh = s.fresh := rfl
@[simp] theorem State.setPwr_pending (s : State) (v : Power) : (s.setPwr v).pending = s.pending := rfl

/-! State.setBg -/

@[simp] theorem State.setBg_grade (s : State) (v : Background) : (s.setBg v).grade = s.grade := rfl
@[simp] theorem State.setBg_dev (s : State) (v : Background) : (s.setBg v).dev = s.dev := rfl
@[simp] theorem State.setBg_mbx (s : State) (v : Background) : (s.setBg v).mbx = s.mbx := rfl
@[simp] theorem State.setBg_ops (s : State) (v : Background) : (s.setBg v).ops = s.ops := rfl
@[simp] theorem State.setBg_evr (s : State) (v : Background) : (s.setBg v).evr = s.evr := rfl
@[simp] theorem State.setBg_rings (s : State) (v : Background) : (s.setBg v).rings = s.rings := rfl
@[simp] theorem State.setBg_tel (s : State) (v : Background) : (s.setBg v).tel = s.tel := rfl
@[simp] theorem State.setBg_mem (s : State) (v : Background) : (s.setBg v).mem = s.mem := rfl
@[simp] theorem State.setBg_tmb (s : State) (v : Background) : (s.setBg v).tmb = s.tmb := rfl
@[simp] theorem State.setBg_win (s : State) (v : Background) : (s.setBg v).win = s.win := rfl
@[simp] theorem State.setBg_pps (s : State) (v : Background) : (s.setBg v).pps = s.pps := rfl
@[simp] theorem State.setBg_noon (s : State) (v : Background) : (s.setBg v).noon = s.noon := rfl
@[simp] theorem State.setBg_grd (s : State) (v : Background) : (s.setBg v).grd = s.grd := rfl
@[simp] theorem State.setBg_tts (s : State) (v : Background) : (s.setBg v).tts = s.tts := rfl
@[simp] theorem State.setBg_fh (s : State) (v : Background) : (s.setBg v).fh = s.fh := rfl
@[simp] theorem State.setBg_srv (s : State) (v : Background) : (s.setBg v).srv = s.srv := rfl
@[simp] theorem State.setBg_fab (s : State) (v : Background) : (s.setBg v).fab = s.fab := rfl
@[simp] theorem State.setBg_syn (s : State) (v : Background) : (s.setBg v).syn = s.syn := rfl
@[simp] theorem State.setBg_parts (s : State) (v : Background) : (s.setBg v).parts = s.parts := rfl
@[simp] theorem State.setBg_quarantine (s : State) (v : Background) : (s.setBg v).quarantine = s.quarantine := rfl
@[simp] theorem State.setBg_hlt (s : State) (v : Background) : (s.setBg v).hlt = s.hlt := rfl
@[simp] theorem State.setBg_tiles (s : State) (v : Background) : (s.setBg v).tiles = s.tiles := rfl
@[simp] theorem State.setBg_cde (s : State) (v : Background) : (s.setBg v).cde = s.cde := rfl
@[simp] theorem State.setBg_cells (s : State) (v : Background) : (s.setBg v).cells = s.cells := rfl
@[simp] theorem State.setBg_sweep (s : State) (v : Background) : (s.setBg v).sweep = s.sweep := rfl
@[simp] theorem State.setBg_mbr (s : State) (v : Background) : (s.setBg v).mbr = s.mbr := rfl
@[simp] theorem State.setBg_pwr (s : State) (v : Background) : (s.setBg v).pwr = s.pwr := rfl
@[simp] theorem State.setBg_bg (s : State) (v : Background) : (s.setBg v).bg = v := rfl
@[simp] theorem State.setBg_mgt (s : State) (v : Background) : (s.setBg v).mgt = s.mgt := rfl
@[simp] theorem State.setBg_tap (s : State) (v : Background) : (s.setBg v).tap = s.tap := rfl
@[simp] theorem State.setBg_out (s : State) (v : Background) : (s.setBg v).out = s.out := rfl
@[simp] theorem State.setBg_fresh (s : State) (v : Background) : (s.setBg v).fresh = s.fresh := rfl
@[simp] theorem State.setBg_pending (s : State) (v : Background) : (s.setBg v).pending = s.pending := rfl

/-! State.setMgt -/

@[simp] theorem State.setMgt_grade (s : State) (v : Mgmt) : (s.setMgt v).grade = s.grade := rfl
@[simp] theorem State.setMgt_dev (s : State) (v : Mgmt) : (s.setMgt v).dev = s.dev := rfl
@[simp] theorem State.setMgt_mbx (s : State) (v : Mgmt) : (s.setMgt v).mbx = s.mbx := rfl
@[simp] theorem State.setMgt_ops (s : State) (v : Mgmt) : (s.setMgt v).ops = s.ops := rfl
@[simp] theorem State.setMgt_evr (s : State) (v : Mgmt) : (s.setMgt v).evr = s.evr := rfl
@[simp] theorem State.setMgt_rings (s : State) (v : Mgmt) : (s.setMgt v).rings = s.rings := rfl
@[simp] theorem State.setMgt_tel (s : State) (v : Mgmt) : (s.setMgt v).tel = s.tel := rfl
@[simp] theorem State.setMgt_mem (s : State) (v : Mgmt) : (s.setMgt v).mem = s.mem := rfl
@[simp] theorem State.setMgt_tmb (s : State) (v : Mgmt) : (s.setMgt v).tmb = s.tmb := rfl
@[simp] theorem State.setMgt_win (s : State) (v : Mgmt) : (s.setMgt v).win = s.win := rfl
@[simp] theorem State.setMgt_pps (s : State) (v : Mgmt) : (s.setMgt v).pps = s.pps := rfl
@[simp] theorem State.setMgt_noon (s : State) (v : Mgmt) : (s.setMgt v).noon = s.noon := rfl
@[simp] theorem State.setMgt_grd (s : State) (v : Mgmt) : (s.setMgt v).grd = s.grd := rfl
@[simp] theorem State.setMgt_tts (s : State) (v : Mgmt) : (s.setMgt v).tts = s.tts := rfl
@[simp] theorem State.setMgt_fh (s : State) (v : Mgmt) : (s.setMgt v).fh = s.fh := rfl
@[simp] theorem State.setMgt_srv (s : State) (v : Mgmt) : (s.setMgt v).srv = s.srv := rfl
@[simp] theorem State.setMgt_fab (s : State) (v : Mgmt) : (s.setMgt v).fab = s.fab := rfl
@[simp] theorem State.setMgt_syn (s : State) (v : Mgmt) : (s.setMgt v).syn = s.syn := rfl
@[simp] theorem State.setMgt_parts (s : State) (v : Mgmt) : (s.setMgt v).parts = s.parts := rfl
@[simp] theorem State.setMgt_quarantine (s : State) (v : Mgmt) : (s.setMgt v).quarantine = s.quarantine := rfl
@[simp] theorem State.setMgt_hlt (s : State) (v : Mgmt) : (s.setMgt v).hlt = s.hlt := rfl
@[simp] theorem State.setMgt_tiles (s : State) (v : Mgmt) : (s.setMgt v).tiles = s.tiles := rfl
@[simp] theorem State.setMgt_cde (s : State) (v : Mgmt) : (s.setMgt v).cde = s.cde := rfl
@[simp] theorem State.setMgt_cells (s : State) (v : Mgmt) : (s.setMgt v).cells = s.cells := rfl
@[simp] theorem State.setMgt_sweep (s : State) (v : Mgmt) : (s.setMgt v).sweep = s.sweep := rfl
@[simp] theorem State.setMgt_mbr (s : State) (v : Mgmt) : (s.setMgt v).mbr = s.mbr := rfl
@[simp] theorem State.setMgt_pwr (s : State) (v : Mgmt) : (s.setMgt v).pwr = s.pwr := rfl
@[simp] theorem State.setMgt_bg (s : State) (v : Mgmt) : (s.setMgt v).bg = s.bg := rfl
@[simp] theorem State.setMgt_mgt (s : State) (v : Mgmt) : (s.setMgt v).mgt = v := rfl
@[simp] theorem State.setMgt_tap (s : State) (v : Mgmt) : (s.setMgt v).tap = s.tap := rfl
@[simp] theorem State.setMgt_out (s : State) (v : Mgmt) : (s.setMgt v).out = s.out := rfl
@[simp] theorem State.setMgt_fresh (s : State) (v : Mgmt) : (s.setMgt v).fresh = s.fresh := rfl
@[simp] theorem State.setMgt_pending (s : State) (v : Mgmt) : (s.setMgt v).pending = s.pending := rfl

/-! State.setTap -/

@[simp] theorem State.setTap_grade (s : State) (v : TestPort) : (s.setTap v).grade = s.grade := rfl
@[simp] theorem State.setTap_dev (s : State) (v : TestPort) : (s.setTap v).dev = s.dev := rfl
@[simp] theorem State.setTap_mbx (s : State) (v : TestPort) : (s.setTap v).mbx = s.mbx := rfl
@[simp] theorem State.setTap_ops (s : State) (v : TestPort) : (s.setTap v).ops = s.ops := rfl
@[simp] theorem State.setTap_evr (s : State) (v : TestPort) : (s.setTap v).evr = s.evr := rfl
@[simp] theorem State.setTap_rings (s : State) (v : TestPort) : (s.setTap v).rings = s.rings := rfl
@[simp] theorem State.setTap_tel (s : State) (v : TestPort) : (s.setTap v).tel = s.tel := rfl
@[simp] theorem State.setTap_mem (s : State) (v : TestPort) : (s.setTap v).mem = s.mem := rfl
@[simp] theorem State.setTap_tmb (s : State) (v : TestPort) : (s.setTap v).tmb = s.tmb := rfl
@[simp] theorem State.setTap_win (s : State) (v : TestPort) : (s.setTap v).win = s.win := rfl
@[simp] theorem State.setTap_pps (s : State) (v : TestPort) : (s.setTap v).pps = s.pps := rfl
@[simp] theorem State.setTap_noon (s : State) (v : TestPort) : (s.setTap v).noon = s.noon := rfl
@[simp] theorem State.setTap_grd (s : State) (v : TestPort) : (s.setTap v).grd = s.grd := rfl
@[simp] theorem State.setTap_tts (s : State) (v : TestPort) : (s.setTap v).tts = s.tts := rfl
@[simp] theorem State.setTap_fh (s : State) (v : TestPort) : (s.setTap v).fh = s.fh := rfl
@[simp] theorem State.setTap_srv (s : State) (v : TestPort) : (s.setTap v).srv = s.srv := rfl
@[simp] theorem State.setTap_fab (s : State) (v : TestPort) : (s.setTap v).fab = s.fab := rfl
@[simp] theorem State.setTap_syn (s : State) (v : TestPort) : (s.setTap v).syn = s.syn := rfl
@[simp] theorem State.setTap_parts (s : State) (v : TestPort) : (s.setTap v).parts = s.parts := rfl
@[simp] theorem State.setTap_quarantine (s : State) (v : TestPort) : (s.setTap v).quarantine = s.quarantine := rfl
@[simp] theorem State.setTap_hlt (s : State) (v : TestPort) : (s.setTap v).hlt = s.hlt := rfl
@[simp] theorem State.setTap_tiles (s : State) (v : TestPort) : (s.setTap v).tiles = s.tiles := rfl
@[simp] theorem State.setTap_cde (s : State) (v : TestPort) : (s.setTap v).cde = s.cde := rfl
@[simp] theorem State.setTap_cells (s : State) (v : TestPort) : (s.setTap v).cells = s.cells := rfl
@[simp] theorem State.setTap_sweep (s : State) (v : TestPort) : (s.setTap v).sweep = s.sweep := rfl
@[simp] theorem State.setTap_mbr (s : State) (v : TestPort) : (s.setTap v).mbr = s.mbr := rfl
@[simp] theorem State.setTap_pwr (s : State) (v : TestPort) : (s.setTap v).pwr = s.pwr := rfl
@[simp] theorem State.setTap_bg (s : State) (v : TestPort) : (s.setTap v).bg = s.bg := rfl
@[simp] theorem State.setTap_mgt (s : State) (v : TestPort) : (s.setTap v).mgt = s.mgt := rfl
@[simp] theorem State.setTap_tap (s : State) (v : TestPort) : (s.setTap v).tap = v := rfl
@[simp] theorem State.setTap_out (s : State) (v : TestPort) : (s.setTap v).out = s.out := rfl
@[simp] theorem State.setTap_fresh (s : State) (v : TestPort) : (s.setTap v).fresh = s.fresh := rfl
@[simp] theorem State.setTap_pending (s : State) (v : TestPort) : (s.setTap v).pending = s.pending := rfl

/-! State.setOut -/

@[simp] theorem State.setOut_grade (s : State) (v : List Out) : (s.setOut v).grade = s.grade := rfl
@[simp] theorem State.setOut_dev (s : State) (v : List Out) : (s.setOut v).dev = s.dev := rfl
@[simp] theorem State.setOut_mbx (s : State) (v : List Out) : (s.setOut v).mbx = s.mbx := rfl
@[simp] theorem State.setOut_ops (s : State) (v : List Out) : (s.setOut v).ops = s.ops := rfl
@[simp] theorem State.setOut_evr (s : State) (v : List Out) : (s.setOut v).evr = s.evr := rfl
@[simp] theorem State.setOut_rings (s : State) (v : List Out) : (s.setOut v).rings = s.rings := rfl
@[simp] theorem State.setOut_tel (s : State) (v : List Out) : (s.setOut v).tel = s.tel := rfl
@[simp] theorem State.setOut_mem (s : State) (v : List Out) : (s.setOut v).mem = s.mem := rfl
@[simp] theorem State.setOut_tmb (s : State) (v : List Out) : (s.setOut v).tmb = s.tmb := rfl
@[simp] theorem State.setOut_win (s : State) (v : List Out) : (s.setOut v).win = s.win := rfl
@[simp] theorem State.setOut_pps (s : State) (v : List Out) : (s.setOut v).pps = s.pps := rfl
@[simp] theorem State.setOut_noon (s : State) (v : List Out) : (s.setOut v).noon = s.noon := rfl
@[simp] theorem State.setOut_grd (s : State) (v : List Out) : (s.setOut v).grd = s.grd := rfl
@[simp] theorem State.setOut_tts (s : State) (v : List Out) : (s.setOut v).tts = s.tts := rfl
@[simp] theorem State.setOut_fh (s : State) (v : List Out) : (s.setOut v).fh = s.fh := rfl
@[simp] theorem State.setOut_srv (s : State) (v : List Out) : (s.setOut v).srv = s.srv := rfl
@[simp] theorem State.setOut_fab (s : State) (v : List Out) : (s.setOut v).fab = s.fab := rfl
@[simp] theorem State.setOut_syn (s : State) (v : List Out) : (s.setOut v).syn = s.syn := rfl
@[simp] theorem State.setOut_parts (s : State) (v : List Out) : (s.setOut v).parts = s.parts := rfl
@[simp] theorem State.setOut_quarantine (s : State) (v : List Out) : (s.setOut v).quarantine = s.quarantine := rfl
@[simp] theorem State.setOut_hlt (s : State) (v : List Out) : (s.setOut v).hlt = s.hlt := rfl
@[simp] theorem State.setOut_tiles (s : State) (v : List Out) : (s.setOut v).tiles = s.tiles := rfl
@[simp] theorem State.setOut_cde (s : State) (v : List Out) : (s.setOut v).cde = s.cde := rfl
@[simp] theorem State.setOut_cells (s : State) (v : List Out) : (s.setOut v).cells = s.cells := rfl
@[simp] theorem State.setOut_sweep (s : State) (v : List Out) : (s.setOut v).sweep = s.sweep := rfl
@[simp] theorem State.setOut_mbr (s : State) (v : List Out) : (s.setOut v).mbr = s.mbr := rfl
@[simp] theorem State.setOut_pwr (s : State) (v : List Out) : (s.setOut v).pwr = s.pwr := rfl
@[simp] theorem State.setOut_bg (s : State) (v : List Out) : (s.setOut v).bg = s.bg := rfl
@[simp] theorem State.setOut_mgt (s : State) (v : List Out) : (s.setOut v).mgt = s.mgt := rfl
@[simp] theorem State.setOut_tap (s : State) (v : List Out) : (s.setOut v).tap = s.tap := rfl
@[simp] theorem State.setOut_out (s : State) (v : List Out) : (s.setOut v).out = v := rfl
@[simp] theorem State.setOut_fresh (s : State) (v : List Out) : (s.setOut v).fresh = s.fresh := rfl
@[simp] theorem State.setOut_pending (s : State) (v : List Out) : (s.setOut v).pending = s.pending := rfl

/-! State.setFresh -/

@[simp] theorem State.setFresh_grade (s : State) (v : Nat) : (s.setFresh v).grade = s.grade := rfl
@[simp] theorem State.setFresh_dev (s : State) (v : Nat) : (s.setFresh v).dev = s.dev := rfl
@[simp] theorem State.setFresh_mbx (s : State) (v : Nat) : (s.setFresh v).mbx = s.mbx := rfl
@[simp] theorem State.setFresh_ops (s : State) (v : Nat) : (s.setFresh v).ops = s.ops := rfl
@[simp] theorem State.setFresh_evr (s : State) (v : Nat) : (s.setFresh v).evr = s.evr := rfl
@[simp] theorem State.setFresh_rings (s : State) (v : Nat) : (s.setFresh v).rings = s.rings := rfl
@[simp] theorem State.setFresh_tel (s : State) (v : Nat) : (s.setFresh v).tel = s.tel := rfl
@[simp] theorem State.setFresh_mem (s : State) (v : Nat) : (s.setFresh v).mem = s.mem := rfl
@[simp] theorem State.setFresh_tmb (s : State) (v : Nat) : (s.setFresh v).tmb = s.tmb := rfl
@[simp] theorem State.setFresh_win (s : State) (v : Nat) : (s.setFresh v).win = s.win := rfl
@[simp] theorem State.setFresh_pps (s : State) (v : Nat) : (s.setFresh v).pps = s.pps := rfl
@[simp] theorem State.setFresh_noon (s : State) (v : Nat) : (s.setFresh v).noon = s.noon := rfl
@[simp] theorem State.setFresh_grd (s : State) (v : Nat) : (s.setFresh v).grd = s.grd := rfl
@[simp] theorem State.setFresh_tts (s : State) (v : Nat) : (s.setFresh v).tts = s.tts := rfl
@[simp] theorem State.setFresh_fh (s : State) (v : Nat) : (s.setFresh v).fh = s.fh := rfl
@[simp] theorem State.setFresh_srv (s : State) (v : Nat) : (s.setFresh v).srv = s.srv := rfl
@[simp] theorem State.setFresh_fab (s : State) (v : Nat) : (s.setFresh v).fab = s.fab := rfl
@[simp] theorem State.setFresh_syn (s : State) (v : Nat) : (s.setFresh v).syn = s.syn := rfl
@[simp] theorem State.setFresh_parts (s : State) (v : Nat) : (s.setFresh v).parts = s.parts := rfl
@[simp] theorem State.setFresh_quarantine (s : State) (v : Nat) : (s.setFresh v).quarantine = s.quarantine := rfl
@[simp] theorem State.setFresh_hlt (s : State) (v : Nat) : (s.setFresh v).hlt = s.hlt := rfl
@[simp] theorem State.setFresh_tiles (s : State) (v : Nat) : (s.setFresh v).tiles = s.tiles := rfl
@[simp] theorem State.setFresh_cde (s : State) (v : Nat) : (s.setFresh v).cde = s.cde := rfl
@[simp] theorem State.setFresh_cells (s : State) (v : Nat) : (s.setFresh v).cells = s.cells := rfl
@[simp] theorem State.setFresh_sweep (s : State) (v : Nat) : (s.setFresh v).sweep = s.sweep := rfl
@[simp] theorem State.setFresh_mbr (s : State) (v : Nat) : (s.setFresh v).mbr = s.mbr := rfl
@[simp] theorem State.setFresh_pwr (s : State) (v : Nat) : (s.setFresh v).pwr = s.pwr := rfl
@[simp] theorem State.setFresh_bg (s : State) (v : Nat) : (s.setFresh v).bg = s.bg := rfl
@[simp] theorem State.setFresh_mgt (s : State) (v : Nat) : (s.setFresh v).mgt = s.mgt := rfl
@[simp] theorem State.setFresh_tap (s : State) (v : Nat) : (s.setFresh v).tap = s.tap := rfl
@[simp] theorem State.setFresh_out (s : State) (v : Nat) : (s.setFresh v).out = s.out := rfl
@[simp] theorem State.setFresh_fresh (s : State) (v : Nat) : (s.setFresh v).fresh = v := rfl
@[simp] theorem State.setFresh_pending (s : State) (v : Nat) : (s.setFresh v).pending = s.pending := rfl

end Sys2Proof.Machine
end

