-- ==== Sys2Proof/Tests/Slice0.lean ====
section
/-!
SUPPORT. Tests: ill-formed commands that are refused, the cases the spec works through, and for every statement with
hypotheses the states and operands that meet them (`test_witness_<statement>`), clause by clause.
-/
open Sys2Proof Sys2Proof.Machine Sys2Proof.Claims
set_option Elab.async false
namespace Sys2Proof.Tests

/-! ### Ill-formed commands are refused

One theorem for each kind of check of `wellFormed`; the limits are the spec's field ranges and the units of R3 and R84. -/

/-- Every command of a list is ill-formed on both grades. -/
def allIll (l : List Instr) : Prop := ∀ i ∈ l, wellFormed .t72 i = false ∧ wellFormed .t96 i = false

theorem test_ill_mailbox : allIll
    [.mbxGo 80 0x100 7 0 0, .mbxAbort 80 0 0 0, .mbxAck 80 0 0, .commandTaken 80 [], .mbxTimeout 80, .nop 80, .cancel 80,
      .eventRingConfig 80, .queryOperation 80, .ringCreate 80, .timeRead 80, .rngSeed 80, .lendConfig 80, .fhStatus 80,
      .gainSet 80, .cellDestroy 80, .sweepStatus 80, .ctxWrite 80, .partSave 80, .fabStatus 80, .syncOp 80, .hltReset 80,
      .memberJoin 80, .pwrCap 80, .bgConfig 80] := by unfold allIll; decide

theorem test_ill_windows_and_rings : allIll
    [.mbxGo 0 0x100 7 0 16, .eventRingConsWrite 16 0, .eventRingConsWrite 0 (2 ^ 32), .doorbellWrite (.pf 4096) 0,
      .doorbellWrite (.vf 64 0) 0, .doorbellWrite (.vf 0 64) 0, .doorbellWrite (.pf 0) (2 ^ 32), .registerWrite .pfBar0 0 3 0,
      .registerWrite (.vfBar0 64) 0 4 0, .registerWrite .pfBar0 0 4 (2 ^ 32), .lowHalfRead 4, .lowHalfRead 0x100000,
      .ethTx 4096, .stepSubmit 4096, .stepDone 4096, .sweepTx 4096, .paramRequest 4096, .startRequest 4096,
      .faultLogConsWrite none (2 ^ 32), .faultLogConsWrite (some 64) 0, .linkTraining 2 32, .linkTraining 16 8] := by
  unfold allIll; decide

theorem test_ill_units : allIll
    [.waitFree 0x10 0 0 0, .waitFull 0x3F 0 0, .waitFull 0 8 0, .post 0 0 0xDC 0 64, .release 0xF4 0 0, .radioHang 0xF4, .ldDecodePhase 0xC0,
      .ldOutputPhase 0x7F, .ffence 0 0 0xF0 none, .vld 64 0 0 0 false, .mac 64 0 0 0, .fhLink 32 true, .transmitSelect 32,
      .backgroundItemEnd 0xF4 {}, .gridResetDone [0xE0], .commit { members := [64] } 0] := by unfold allIll; decide

/-- A unit of T96 that T72 lacks makes the command ill-formed there only (R3). -/
theorem test_ill_grade : (∀ i ∈ ([.vld 63 0 0 0 false, .waitFull 0x0F 0 0, .radioHang 0xEF] : List Instr),
    wellFormed .t72 i = false ∧ wellFormed .t96 i = true) := by decide

theorem test_ill_tile_fields : allIll
    [.vld 0 8 0 0 false, .vld 0 0 32 0 false, .vld 0 0 0 16 false, .vld2 0 0 31 0 false, .vst 0 0 32 0, .mac 0 0 32 0,
      .mul 0 0 0 0 0 (.imm 32), .shift 0 0 0 0 (.scalar 16), .shift 0 0 0 0 (.counter 4), .accst 0 0 .i8 0 (.imm 0),
      .bfly2 0 0 31 0 0, .bfly4 0 0 29 0 0, .bfly8 0 0 25 0 0, .bfly8 0 0 0 26 0, .bfly2 0 0 0 0 4, .vadd 0 0 .i8 0 0 0,
      .vmin 0 0 .c16 0 0 0, .vexp 0 0 .q15 0 0, .cvt 0 0 .c16 .f32 0 0 .rne none, .cvt 0 0 .f32 .q15 0 0 (.sr 0 0) none,
      .mxq 0 0 .f32 0 0 0 .rne none, .loop 0 0 65536 0, .loop 0 0 1 4092, .rep 0 4097 (.mac 0 0), .rep 0 2049 (.cmac 0 0),
      .sbar 0 1 1, .sbar 0 0 256, .gmax 0 1048577 0 0 0 0 none, .topk 0 1 257 0 0 0 0 none,
      .rdraw 0 0 0 20 0 none, .rdraw 0 0 0 0 0 (some 32), .redSum 0x40 0 .b16 0 1 0]
    := by unfold allIll; decide

theorem test_ill_serving : allIll
    [.residencyDone 256, .batchStepStart 256, .contextResetDone 256, .syncListApply 256 0, .ffenceComplete 256,
      .ctxCreateDone 64, .functionLevelReset 64, .freezeComplete 64, .saveChunkDone 64, .tableLoadDone 64, .partResetDone 64,
      .quarantineEnd (2 ^ 24), .intakeLine 0 64 0, .slotIndication 64 0 0, .seal 9 { slot := 0, paramBase := 0, paramLen := 0, entries := [] },
      .entryLaunch 9 0 0 [], .stageEnd 8 0 0, .unsupportedMessage 0 0x80, .noonFired 16] := by unfold allIll; decide

theorem test_ill_wire : allIll
    [.replyTimeout 65536 0, .lifetimeExpiry 0 (2 ^ 32), .sourceRecordExpiry 65536, .fabricIssueResume 257,
      .esmcReceive 0 16, .pldmSensorRead (.mirror 112), .setEndpointId 256, .eventLogRead 256, .samplePreload [],
      .requestFirmwareData [] false, .prepare 64 0 0, .ledgerCasResult 0 0 (2 ^ 64), .inputUndervoltage 32768,
      .sweepDetectionWindow 64 9, .sweepSymbol 0 7 0 0, .sweepSymbol 64 9 0 0] := by unfold allIll; decide

/-! ### Cases the spec works through -/

/-- Chapter 2, R56: p = 2 560 and the integral and rate after the input. -/
theorem test_servo_case : let t := servoRate 163840 { integ := -1102072 }
    t.integ = -1102032 ∧ t.rate = 1099472 := by decide

/-- Chapter 2, R51 and R66: corrected time of the read. -/
def readCase : Timebase :=
  { anchor := 3999999877120000, ofsInt := 2748512000111716717, ofsFrac := 549755813888, rate := 1099512 }
theorem test_read_and_derive : corrected readCase 4000000000000000 = 2752512000111716840 := by decide +kernel
theorem test_nr_fields : nrTime { frameOfs := 0, reportMu := 1, ecp := false } 2752512000111716840
    = { frames := 140000000005, sfn := 5, hfn := 414, subframe := 6, slot := 13, symbol := 9, symTick := 1000 } := by
  decide +kernel

/-- Chapter 8, R61 and R263: 20 ns of offset after the asymmetry. -/
theorem test_ptp_case : ptpError (5120 * 65536) (4880 * 65536) (100 * 65536) = 2576980 := by decide

/-- Chapter 8, R248: a 1 500-byte frame at 200 Gb/s. -/
theorem test_tx_time : txTime 1500 200 = 120 := by decide

/-- Chapter 4, R123 and R125: MXQ into E2M1 of a block whose largest magnitude is 12.0. -/
theorem test_mxq_case : mxqBlock {} .e2m1 [0x41400000, 0x3F333333, 0xC0200000] (fun _ => .rne)
    = (0x80, [7, 1, 10], {}) := by decide +kernel
/-- Chapter 4, R130: 0.3 into E2M1, stochastic with two words and to nearest. -/
theorem test_sr_case : [RoundBy.sr 0x5A3C71, .sr 0xB00000, .rne].map
    (fun r => (encodeVal {} .e2m1 r (decodeVal .f32 0x3E99999A)).1) = [0, 1, 1] := by decide +kernel
/-- Chapter 4, R132 and R134: stores with s = 15. -/
theorem test_store_case : [402653184, 16384, -16384, 1073741824].map (fun a => (storeQ15 a 15).1) = [12288, 1, 0, 32767]
    ∧ (storeQ15 1073741824 15).2.storeSat = true := by decide
/-- Chapter 4, R135: 2^24 and thirty-one ones are summed exactly and rounded once. -/
theorem test_group_case : (encodeVal {} .f32 .rne (valSum (.fin false 1 24 :: List.replicate 31 (.fin false 1 0))).1).1
    = 0x4B800010 := by decide +kernel
/-- Chapter 4, R126: five trits and their byte. -/
theorem test_trits : t5pByte [1, 0, 3, 3, 1] = 0xA7 ∧ (t5pTrits 0xA7).1 = [1, 0, -1, -1, 1] ∧ (t5pTrits 243).2.t5pBad = true := by
  decide
/-- Chapter 6, R174: the vector of the generator; and the uniform variate drawn from it. -/
theorem test_kcg_vector : kcg 0 0 0 0 = (0x57589DEE, 0x9B935BB6, 0x7E449539, 0x7537CB7E) := by decide +kernel
theorem test_uniform : uniM 0x57589DEE = 2862158 ∧ 2 * uniM 0x57589DEE + 1 = 5724317 := by decide
/-- Chapter 6, R179: knots of the normal table (the normal quantiles in F32), and its variate from the word: about 0.999. -/
theorem test_normal_knots : [1, 4095, 4096].map normKnot = [966814873, 1080739304, 1084845623] := by decide +kernel
theorem test_normal_table : let v := decodeVal .f32 (normalTab 0x57589DEE)
    valLt (.fin false 9985 0) (valMul v (.fin false 10000 0)).1 ∧ valLt (valMul v (.fin false 10000 0)).1 (.fin false 9995 0) := by
  decide +kernel
/-- Chapter 4, R141: the codes within 2 units in the last place of e, and those within 1 of it in B16. -/
theorem test_library_error : (match libExact .exp false 1 0 with
      | .fin n m e => some (indicesWithin ⟨32, 23, 127, 0x7F7FFFFF, some 0x7F800000, some 0x7FC00000⟩ 2 n m e,
          indicesWithin ⟨16, 7, 127, 0x7F7F, some 0x7F80, some 0x7FC0⟩ 1 n m e)
      | _ => none) = some ([0x402DF853, 0x402DF854, 0x402DF855, 0x402DF856], [0x402D, 0x402E]) := by decide +kernel
/-- Chapter 8, R234 and R235: a 9-bit block and what it reads as at the far end. -/
theorem test_bfp_case : (bfpPack 9 [3000, -1000]).1 = 4 ∧ (bfpPack 9 [3000, -1000]).2.1 = [188, -62]
    ∧ (bfpUnpack 4 188).1 = 3008 ∧ (bfpUnpack 4 (-62)).1 = -992 := by decide
/-- Chapters 9 and 10, R277 and R278: decoder and encoder cycles. -/
theorem test_coding_cycles : ldCycles 8 4 384 = 1078 ∧ ldCycles 8 24 384 = 6198 ∧ leCycles 4 384 9152 = 134 := by decide
/-- Chapter 10, R294: the table of costs, in 1/64 cell unit. -/
def costCase (mu prb ant dl ul u per : Nat) (fdd : Bool) : Nat :=
  let x : CellConfig := { mu := mu, fdd := fdd, uSlots := u, periodSlots := per }
  cellCost { x with prbDl := prb, prbUl := prb, antTx := ant, antRx := ant, layersDl := dl, layersUl := ul }
theorem test_cost_table : [costCase 1 273 4 4 4 1 5 false, costCase 1 273 2 2 2 1 5 false, costCase 1 106 4 4 4 1 5 false,
    costCase 0 106 4 4 2 1 1 true, costCase 0 52 1 1 1 1 1 true, costCase 1 273 64 16 16 1 5 false,
    costCase 3 264 2 2 2 1 5 false] = [64, 32, 25, 25, 7, 1024, 124] := by decide
/-- Chapter 10, R304: of four PUSCH PDUs, PDU 2 goes for the decoder's budget. -/
def admitCase : SlotHold :=
  let p := fun (prb lay count e : Nat) =>
    ({ prbs := prb, layers := lay, blocks := [{ zc := 384, ncb := 25344, e := e, count := count }] } : Pdu)
  { ul := some [p 100 4 40 9152, p 80 2 20 16896, p 50 2 10 16896, p 43 1 5 16896],
    prio := [(true, 1, 0), (true, 3, 1), (true, 3, 2), (true, 2, 3)] }
def admitCell : Cell := { cost64 := 64, cfg := { mu := 1, ldIter := 8, uSlots := 1, periodSlots := 5 } }
theorem test_admission_case : (admitPdus admitCell (fun _ => false) admitCase).2 = [(true, 1, 0, 2)]
    ∧ (admitPdus admitCell (fun _ => false) admitCase).1.map (fun c => c.idx) = [0, 1, 3] := by decide +kernel
/-- Chapter 11, R321 and R323: offset and start of a frame, and the digit of its first header symbol. -/
theorem test_sweep_case : sweepFix 512 2816 295 6656 479 = (3, 1500) ∧ grayInv 10 = 12 ∧ gray 12 = 10 := by decide

/-! ### States and operands that meet the statements -/

/-- A command as the firmware takes it. -/
def cmdOf (op target : Nat) (p : List Byte) : Cmd := { opcode := op, tag := 7, len := p.length, target := target, payload := p }

/-- A state whose mailbox m runs a command. -/
def taking (m : Nat) (c : Cmd) (s : State) : State := setMbx m { phase := .running, cmd := c, taken := some c } s

/-- A device in service. -/
def up : State :=
  { State.reset with
      dev := { dawnDone := true, lanes := 16, rate := 64 }
      tmb := { pllLocked := true, free := 1000000000000, state := .locked, source := .ptp }
      mgt := { mode := .service, step := 9, pwrOk := true } }

theorem reset_canonical : State.reset.Canonical := by unfold State.Canonical; decide


/-- What holds of the default and of every entry holds of what a table gives. -/
theorem get_all {α : Type} (Q : Nat → α → Prop) (l : Tab α) (d : α) (hd : ∀ k, Q k d) (h : ∀ p ∈ l, Q p.1 p.2) :
    ∀ k, Q k (tabGet l k d) := by
  intro k
  unfold tabGet
  induction l with
  | nil => exact hd k
  | cons p r ih =>
    simp only [tabFind?]
    split
    · rename_i e; subst e; exact h p (List.mem_cons_self ..)
    · exact ih (fun q hq => h q (List.mem_cons_of_mem _ hq))

/-- A Fused tile with values in two registers and the accumulators, and running slices. -/
def lanesTile (slices : Tab Slice) : Tile :=
  { v := [(1, (List.range 256).map (fun i => i * 257)), (2, (List.range 256).map (fun i => 65535 - 3 * i)),
      (31, List.replicate 256 0x7FFF)],
    acc := (List.range 256).map (fun i => 2 ^ 39 - 1 - 7 * Int.ofNat i), slices := slices }

theorem lanesTile_shape (l : Tab Slice) : laneShape (lanesTile l) :=
  ⟨get_all (fun _ (y : List Nat) => y.length = 256) (lanesTile []).v _ (fun _ => List.length_replicate) (by decide +kernel),
    .inr (by rw [lanesTile, List.length_map, List.length_range])⟩

/-- The same lanes in Split. -/
def splitTile (slices : Tab Slice) : Tile := { lanesTile slices with fused := false }

theorem splitTile_shape (l : Tab Slice) : laneShape (splitTile l) := lanesTile_shape l

/-- Tile t runs a radio stage of owner 256 whose share is its whole store. -/
def onTile (t : Nat) (x : Tile) (r : UnitRun) (s : State) : State :=
  setShare (0x40 + t) r.owner 0 64 (updTile t (fun _ => x) (updUnit (0x40 + t) (fun _ => r) s))

/-- A unit of a radio stage of owner 319. -/
def busy : UnitRun := { holder := .radio 7 9 0, owner := 319 }

/-- One ring entry (R42). -/
def ringBytes (type tag : Nat) (more : Bool) (b : List Byte) : List Byte :=
  leBytes 1 type ++ leBytes 1 (if more then 1 else 0) ++ leBytes 2 b.length ++ leBytes 4 tag ++ b
    ++ List.replicate (56 - b.length) 0

/-- A ring that holds one message at its head. -/
def ringWith (n cls part base type tag : Nat) (body : List Byte) (s : State) : State :=
  let k := max 1 ((body.length + 55) / 56)
  { s with
      rings := tabPut s.rings n { base := base, cls := cls, part := part, hostIdx := k },
      mem := memWriteBytes s.mem (hdmAt base)
        ((List.range k).flatMap (fun i => ringBytes type tag (i + 1 < k) ((body.drop (56 * i)).take 56))) }

/-- A downlink binding whose fields hold is made (R237), whichever number it takes. -/
theorem down_binding (p cell : Nat) (x : CellConfig) (b : List Byte) (s : State) (h : field b 1 1 = 1) (hb : s.fh.binds = [])
    (ok : bindingOk s 1 (specBinding (cellTable s p) p cell x b 0) = true) : ∃ u, makeBindings p cell x [b] s = .ok u := by
  have hk : ∀ i, bindingOk (drawFree s).2 1 (specBinding (cellTable (drawFree s).2 p) p cell x b i) = true := fun i => by
    have e : specBinding (cellTable (drawFree s).2 p) p cell x b i = specBinding (cellTable s p) p cell x b 0 := by
      simp [specBinding, h]
    rw [e]
    exact ok
  have hd : ∀ i, (specBinding (cellTable (drawFree s).2 p) p cell x b i).down = true := fun _ => by simp [specBinding, h]
  have hf : (drawFree s).2.fh.binds = [] := hb
  rcases pickFree_spec 4096 (tabHas (drawFree s).2.fh.binds) (drawFree s).2 with ⟨-, hx⟩ | ⟨k, hx, -, -⟩
  · exact absurd (hx 0 (by decide)) (by rw [hf]; decide)
  · unfold makeBindings makeBinding
    simp only [hk, hd, h]
    rw [hx, hf]
    exact ⟨_, rfl⟩

/-- A job's window over a region that holds the bytes 1 to 9. -/
def appliedWindow : FabWindow := { job := 9, rd := true, wr := true, atom := true, ctx := 255, part := 63, base := 4096, length := 4096, region := 1, offset := 1048576 }

/-- A member that a request on that window reaches. -/
def applying : State := { up with parts := [(63, { state := .active, jobs := [9] })], mbr := { up.mbr with member := true, members := [1, 2] }, srv := { up.srv with ctxs := [(255, { part := 63, state := .resident, places := [{ shape := { quadrants := [1], tiles := [0], movers := [0], arrayGranules := [0], dramGb := [1] }, sizes := [(0, 2097152, 0)] }], dram := [(4194304, 1)] })] }, fab := { up.fab with device := 65, started := true, ports := [(11, { link := true, enabled := true }), (0, { link := true, enabled := true })], windows := [(4095, appliedWindow)], sources := [(66, { high := 4294967294, applied := [4294967294] })], entries := [(tagKey 66 4294967290, {})] }, mem := memWriteBytes {} (regionAt 255 0 1 1048576) [1, 2, 3, 4, 5, 6, 7, 8, 9] }

/-- A fresh request of n bytes there. -/
def reqOf (n v : Nat) (l : List Byte) : FabReq :=
  { job := 9, src := 66, dst := 65, tag := 4294967295, addr := 4096, length := n, firstStamp := 1000000000000, operand0 := v,
    operand1 := 2 ^ 64 - 1, data := l }

/-- What an answer holds, as an option. -/
def okOf {ε α : Type} : Except ε α → Option α | .ok v => some v | .error _ => none
def errOf {ε α : Type} : Except ε α → Option ε | .ok _ => none | .error e => some e
theorem ok_of {ε α : Type} {e : Except ε α} {v : α} (h : okOf e = some v) : e = .ok v := by
  cases e with
  | ok w => exact congrArg Except.ok (Option.some.inj h)
  | error _ => cases h
theorem err_of {ε α : Type} {e : Except ε α} {v : ε} (h : errOf e = some v) : e = .error v := by
  cases e with
  | error w => exact congrArg Except.error (Option.some.inj h)
  | ok _ => cases h

theorem full_ledger (s : State) (src f : Nat) (h : s.fab.entries = List.replicate 262144 (0, {})) (hs : src ≠ 0) :
    262144 ≤ (releaseEntries src f s).fab.entries.length := by
  have e : (releaseEntries src f s).fab.entries = s.fab.entries := by
    show s.fab.entries.filter _ = _
    rw [h]
    refine List.filter_eq_self.mpr (fun x hx => ?_)
    rw [List.eq_of_mem_replicate hx]
    have : ((0 : Nat) / 4294967296 = src) = False := by simp; exact fun q => hs q.symm
    simp [this]
  rw [e, h, List.length_replicate]

/-- The first bytes of an image header that passes checks 1 to 3 of R507 with the key of slot 0, and of a blob that passes
those of R510; erased flash reads 0. -/
def headBytes : List Byte := leBytes 22 0x800000005000400010203020300015746444b
def blobBytes : List Byte := leBytes 6 0x051B1B010001
def flashFull : Memory := memWriteBytes (memWriteBytes {} 0 headBytes) 0x01010000 blobBytes
def longHead (n : Nat) : List Byte := headBytes ++ List.replicate n 0
theorem longHead_length (n : Nat) : (longHead n).length = 22 + n := by
  rw [longHead, List.length_append, List.length_replicate]; rfl
theorem longHead_one (n : Nat) (b : Byte) : (longHead n ++ [b]).length = n + 23 := by
  rw [List.length_append, longHead_length, List.length_singleton]; omega
theorem ones_one (n : Nat) (b c : Byte) : (List.replicate n b ++ [c]).length = n + 1 := by
  rw [List.length_append, List.length_replicate]; rfl

/-- A window's peak is one of its powers, or 0, and so below 2^40; its bin is one of its bins. -/
theorem maxFold_mem (l : List Nat) (a : Nat) : l.foldl max a = a ∨ l.foldl max a ∈ l := by
  induction l generalizing a with
  | nil => exact .inl rfl
  | cons x r ih =>
    rcases ih (max a x) with h | h
    · rcases max_choice a x with e | e
      · exact .inl (by rw [List.foldl_cons, h, e])
      · exact .inr (by rw [List.foldl_cons, h, e]; exact List.mem_cons_self ..)
    · exact .inr (List.mem_cons_of_mem _ h)
theorem maxFold_ge (l : List Nat) (a : Nat) : a ≤ l.foldl max a := by
  induction l generalizing a with
  | nil => exact Nat.le_refl _
  | cons x r ih => exact Nat.le_trans (Nat.le_max_left ..) (ih _)
theorem peak_small (h : SweepChan) (sf k : Nat) : (foundOf (upPowers h sf k)).peak < 2 ^ 40 := by
  show (upPowers h sf k).foldl max 0 < 2 ^ 40
  rcases maxFold_mem (upPowers h sf k) 0 with e | e
  · rw [e]; decide
  · obtain ⟨b, -, hb⟩ := List.mem_map.mp e
    rw [← hb]
    exact Nat.mod_lt _ (by decide)
theorem powers_length (h : SweepChan) (sf k : Nat) : (upPowers h sf k).length = 2 ^ sf := by
  rw [upPowers, List.length_map, List.length_range]
theorem bin_in (h : SweepChan) (sf k : Nat) : (foundOf (upPowers h sf k)).bin < 2 ^ sf := by
  have hl := powers_length h sf k
  show (upPowers h sf k).findIdx _ < _
  rw [← hl]
  rcases maxFold_mem (upPowers h sf k) 0 with e | e
  · cases hu : upPowers h sf k with
    | nil => rw [hu] at hl; exact absurd hl (by have := Nat.two_pow_pos sf; simp; omega)
    | cons x r =>
      have hx : x ≤ (x :: r).foldl max 0 := Nat.le_trans (Nat.le_max_right 0 x) (maxFold_ge r _)
      have he : (x :: r).foldl max 0 = 0 := hu ▸ e
      exact List.findIdx_lt_length_of_exists ⟨x, List.mem_cons_self .., decide_eq_true (by rw [he] at hx ⊢; omega)⟩
  · exact List.findIdx_lt_length_of_exists ⟨_, e, by simp⟩

/-- The bin half a turn before b. -/
def sweepHalf (b : Nat) : Nat := (b + 128) % 256
theorem half_turn (b : Nat) (h : b < 2 ^ 8) : b = (sweepHalf b + 2 ^ 8 / 2) % 2 ^ 8 := by
  unfold sweepHalf; omega

/-- With threshold and floor 0 every window passes. -/
theorem thr_zero (h : SweepChan) (g : SweepFound) (e : h.thr = 0) : h.thr * g.noise ≤ g.peak * 256 := by
  rw [e, Nat.zero_mul]; exact Nat.zero_le _
theorem floor_zero (h : SweepChan) (g : SweepFound) (e : h.floorPwr = 0) : h.floorPwr ≤ g.peak := e ▸ Nat.zero_le _

theorem test_witness_StepKeepsCanonical :
    (∃ (s : State) (t : State),
      (s.Canonical) ∧ (step s = .next t)) :=
  ⟨State.reset, State.reset,
      reset_canonical, rfl⟩

theorem test_witness_CommandsTouchOnly :
    (∃ (i : Instr) (s : State) (t : State),
      (exec i s = .next t)) :=
  ⟨.refReturn, up, up,
      rfl⟩

theorem test_witness_EmptyQueueTick :
    (∃ (s : State),
      (s.pending = []) ∧ (s.tmb.pllLocked = false))
    ∧ (∃ (s : State),
      (s.pending = []) ∧ (s.tmb.pllLocked = true)) :=
  ⟨⟨State.reset,
      by decide +kernel⟩,
    ⟨up,
      by decide +kernel⟩⟩

theorem test_witness_StopsNamed :
    (∃ (i : Instr) (s : State),
      (wellFormed s.grade i = false)) :=
  ⟨(.nop 80), up,
      by decide +kernel⟩

theorem test_witness_LinkTraining :
    (∃ (lanes : Nat) (rate : Nat),
      (lanes = 4 ∨ lanes = 8 ∨ lanes = 16) ∧ (rate = 16 ∨ rate = 32 ∨ rate = 64)) :=
  ⟨4, 16,
      by decide +kernel⟩

theorem test_witness_MailboxHandshake :
    (∃ (s : State) (m : Nat) (ring : Nat),
      (m < 80) ∧ (ring < 16) ∧ (mbxUsable s m = true) ∧ (s.dev.dawnDone = true) ∧ ((mbxOf s m).phase = .idle ∨ (mbxOf s
        m).phase = .done))
    ∧ (∃ (s : State) (m : Nat) (ring : Nat) (abort : _),
      (m < 80) ∧ (ring < 16) ∧ (mbxUsable s m = true) ∧ ((mbxOf s m).phase = .submitted ∨ (mbxOf s m).phase = .running) ∧
        (abort = false))
    ∧ (∃ (s : State) (m : Nat) (ring : Nat),
      (m < 80) ∧ (ring < 16) ∧ (mbxUsable s m = true) ∧ ((mbxOf s m).phase = .submitted))
    ∧ (∃ (s : State) (m : Nat) (ring : Nat),
      (m < 80) ∧ (ring < 16) ∧ (mbxUsable s m = true) ∧ ((mbxOf s m).phase = .done)) :=
  ⟨⟨up, 15, 15,
      by decide +kernel⟩,
    ⟨(setMbx 3 { phase := .submitted, cmd := cmdOf 0x0100 0xFF [], goTick := 1000000000000 - 98304000 } up), 3, 0, false,
      by decide +kernel⟩,
    ⟨(setMbx 3 { phase := .submitted, cmd := cmdOf 0x0100 0xFF [], goTick := 1000000000000 - 98304000 } up), 3, 0,
      by decide +kernel⟩,
    ⟨(setMbx 79 { phase := .done } { up with parts := [(63, { state := .active })] }), 79, 15,
      by decide +kernel⟩⟩

theorem test_witness_CommandTaken :
    (∃ (s : State) (m : Nat) (errs : List (CtlMem × Nat)),
      (m < 80) ∧ ((mbxOf s m).phase = .submitted) ∧ ((mbxOf s m).taken = none) ∧ (earlierWaits m s = false) ∧ ((opcodeRow
        (mbxOf s m).cmd.opcode).isSome = true) ∧ (Readable s errs (.imilo, m))) :=
  ⟨(setMbx 3 { phase := .submitted, cmd := cmdOf 0x0100 0xFF [], goTick := 1000000000000 - 98304000 } up), 3, [],
      by decide +kernel⟩

theorem test_witness_MailboxTimeout :
    (∃ (s : State) (m : Nat),
      (m < 80) ∧ ((mbxOf s m).phase = .submitted ∨ (mbxOf s m).phase = .running) ∧ ((mbxOf s m).goTick + 98304000 ≤
        s.tmb.free))
    ∧ (∃ (s : State) (m : Nat),
      (m < 80) ∧ ((mbxOf s m).phase = .submitted ∨ (mbxOf s m).phase = .running) ∧ (s.tmb.free < (mbxOf s m).goTick +
        98304000)) :=
  ⟨⟨(setMbx 3 { phase := .submitted, cmd := cmdOf 0x0100 0xFF [], goTick := 1000000000000 - 98304000 } up), 3,
      by decide +kernel⟩,
    ⟨(setMbx 3 { phase := .submitted, cmd := cmdOf 0x0100 0xFF [], goTick := 1000000000000 - 98303999 } up), 3,
      by decide +kernel⟩⟩

theorem test_witness_RegisterWrites :
    (∃ (v : Nat),
      (v < 2 ^ 16))
    ∧ (∃ (m : Nat) (v : Nat),
      (m < 16) ∧ (v < 2 ^ 32))
    ∧ (∃ (m : Nat) (o : Nat) (v : Nat),
      (m < 16) ∧ (v < 2 ^ 32) ∧ (o % 4 = 0) ∧ (0x80 ≤ o) ∧ (o < 0x840)) :=
  ⟨⟨65535,
      by decide +kernel⟩,
    ⟨15, 0xFFFFFFFF,
      by decide +kernel⟩,
    ⟨15, 0x83C, 1,
      by decide +kernel⟩⟩

theorem test_witness_DeviceCommands :
    (∃ (s : State) (m : Nat) (c : Cmd),
      (Due s m 0x0100 c))
    ∧ (∃ (s : State) (m : Nat) (c : Cmd),
      (Due s m 0x0101 c) ∧ (field c.payload 0 1 ≤ 15) ∧ (field c.payload 1 1 ≤ 1) ∧ (field c.payload 2 2 % 2 = 0) ∧ (field
        c.payload 2 2 < 512) ∧ ((mbxOf s m).irqEn = false))
    ∧ (∃ (s : State) (m : Nat) (c : Cmd) (o : LongOp),
      (Due s m 0x0103 c) ∧ (opOf s (field c.payload 0 2) = some o) ∧ (opVisible m o = true) ∧ (field c.payload 2 1 ≤ 1) ∧
        (o.result.length ≤ 1964)) :=
  ⟨⟨(taking 0 (cmdOf 0x100 255 ([])) up), 0, (cmdOf 0x100 255 ([])),
      by decide +kernel⟩,
    ⟨(taking 0 (cmdOf 0x101 255 (leBytes 4 0x1fe010f)) up), 0, (cmdOf 0x101 255 (leBytes 4 0x1fe010f)),
      by decide +kernel⟩,
    ⟨(taking 0 (cmdOf 0x103 255 (leBytes 3 0x10005))
      ({ up with ops := [(5, ({ mbx := 0, opcode := 0x0500, finished := true, status := .success } : LongOp))], srv := { creating := [(5, 1, {})] } })),
      0, (cmdOf 0x103 255 (leBytes 3 0x10005)), { mbx := 0, opcode := 0x0500, finished := true, status := .success },
      by decide +kernel⟩⟩

theorem test_witness_Cancel :
    (∃ (s : State) (m : Nat) (c : Cmd) (o : LongOp),
      (Due s m 0x0102 c) ∧ (opOf s (field c.payload 0 2) = some o) ∧ (opVisible m o = true) ∧ (o.finished = false) ∧ (o.opcode
        = 0x0500))
    ∧ (∃ (s : State) (m : Nat) (c : Cmd) (o : LongOp),
      (Due s m 0x0102 c) ∧ (opOf s (field c.payload 0 2) = some o) ∧ (opVisible m o = true) ∧ (o.finished = true)) :=
  ⟨⟨(taking 0 (cmdOf 0x102 255 (leBytes 2 0x5))
    ({ up with ops := [(5, ({ mbx := 0, opcode := 0x0500 } : LongOp))], srv := { creating := [(5, 1, {})] } })), 0, (cmdOf
    0x102 255 (leBytes 2 0x5)), { mbx := 0, opcode := 0x0500 },
      by decide +kernel⟩,
    ⟨(taking 0 (cmdOf 0x102 255 (leBytes 2 0x5))
      ({ up with ops := [(5, ({ mbx := 0, opcode := 0x0500, finished := true } : LongOp))], srv := { creating := [(5, 1, {})] } })),
      0, (cmdOf 0x102 255 (leBytes 2 0x5)), { mbx := 0, opcode := 0x0500, finished := true },
      by decide +kernel⟩⟩

theorem test_witness_RingCommands :
    (∃ (s : State) (m : Nat) (c : Cmd),
      (∃ n < 4096, tabHas s.rings n = false) ∧ (Due s m 0x0104 c) ∧ (m < 16) ∧ (c.target = 0xFF) ∧ (field c.payload 0 8 % 64 =
        0) ∧ (4 ≤ field c.payload 8 1) ∧ (field c.payload 8 1 ≤ 16) ∧ (field c.payload 9 1 ≤ 1) ∧ (field c.payload 10 1 = 4) ∧
        (field c.payload 11 1 = 255 ∨ field c.payload 11 1 ≤ 15) ∧ (inManager s (field c.payload 0 8) ((2 ^ field c.payload 8
        1 + 1) * 64) = true))
    ∧ (∃ (s : State) (m : Nat) (c : Cmd) (r : Ring),
      (Due s m 0x0105 c) ∧ (ringOf s (field c.payload 0 2) = some r) ∧ (r.part = targetOf m c)) :=
  ⟨⟨(taking 0 (cmdOf 0x104 255 (leBytes 32 0xff0401100000000000000000)) up), 0, (cmdOf 0x104 255 (leBytes 32
    0xff0401100000000000000000)),
      ⟨0, by decide +kernel, by decide +kernel⟩, by decide +kernel⟩,
    ⟨(taking 0 (cmdOf 0x105 255 (leBytes 2 0xfff)) { up with rings := [(4095, {})] }), 0, (cmdOf 0x105 255 (leBytes 2 0xfff)),
      {},
      by decide +kernel⟩⟩

theorem test_witness_Telemetry :
    (∃ (s : State),
      (s.tel.clearPending = []))
    ∧ (∃ (s : State) (m : Nat) (c : Cmd),
      (Due s m 0x0106 c) ∧ (s.tel.clearPending = [])) :=
  ⟨⟨up,
      by decide +kernel⟩,
    ⟨(taking 0 (cmdOf 0x106 255 ([])) up), 0, (cmdOf 0x106 255 ([])),
      by decide +kernel⟩⟩

theorem test_witness_EventConsumer :
    (∃ (s : State) (n : Nat) (v : Nat),
      (n < 16) ∧ (v < 2 ^ 32) ∧ (idxSub (evRing s n).prod v ≤ idxSub (evRing s n).prod (evRing s n).cons))
    ∧ (∃ (s : State) (n : Nat) (v : Nat),
      (n < 16) ∧ (v < 2 ^ 32) ∧ (idxSub (evRing s n).prod (evRing s n).cons < idxSub (evRing s n).prod v)) :=
  ⟨⟨(setEvRing 15 { prod := 3, cons := 1 } up), 15, 3,
      by decide +kernel⟩,
    ⟨(setEvRing 15 { prod := 3, cons := 1 } up), 15, 4,
      by decide +kernel⟩⟩

theorem test_witness_Doorbells :
    (∃ (s : State) (n : Nat) (v : Nat) (r : Ring),
      (n < 4096) ∧ (v < 2 ^ 32) ∧ (ringOf s n = some r) ∧ (r.toHost = true) ∧ (r.faulted = false) ∧ (v ≠ r.hostIdx) ∧ (idxSub
        v r.hostIdx ≤ idxSub r.devIdx r.hostIdx))
    ∧ (∃ (s : State) (n : Nat) (v : Nat) (r : Ring),
      (n < 4096) ∧ (v < 2 ^ 32) ∧ (ringOf s n = some r) ∧ (r.toHost = true) ∧ (r.faulted = false) ∧ (v ≠ r.hostIdx) ∧ (idxSub
        r.devIdx r.hostIdx < idxSub v r.hostIdx))
    ∧ (∃ (s : State) (n : Nat) (v : Nat),
      (n < 4096) ∧ (v < 2 ^ 32) ∧ (ringOf s n = none)) :=
  ⟨⟨{ up with rings := [(4095, { toHost := true, devIdx := 4, hostIdx := 2 })] }, 4095, 4,
    { toHost := true, devIdx := 4, hostIdx := 2 },
      by decide +kernel⟩,
    ⟨{ up with rings := [(4095, { toHost := true, devIdx := 4, hostIdx := 2 })] }, 4095, 5,
      { toHost := true, devIdx := 4, hostIdx := 2 },
      by decide +kernel⟩,
    ⟨up, 4095, 0,
      by decide +kernel⟩⟩

theorem test_witness_EventPosting :
    (∃ (s : State) (e : Event) (n : Nat),
      (routeClass s (e.code / 256) = some n))
    ∧ (∃ (s : State) (e : Event) (n : Nat) (k : _),
      (k < n) ∧ (routeClass s (e.code / 256) = some n))
    ∧ (∃ (s : State) (e : Event) (n : Nat),
      (routeClass s (e.code / 256) = some n) ∧ (evOcc (evRing s n) ≠ 512))
    ∧ (∃ (s : State) (e : Event) (n : Nat),
      (routeClass s (e.code / 256) = some n) ∧ (evOcc (evRing s n) = 512))
    ∧ (∃ (s : State) (e : Event) (n : Nat) (k : _),
      (routeClass s (e.code / 256) = some n) ∧ (k ≠ n))
    ∧ (∃ (s : State) (e : Event),
      (routeClass s (e.code / 256) = none)) :=
  ⟨⟨(setEvRing 2 { enable := true, mask := 8 } (setEvRing 15 { enable := true, mask := 8 } up)), { code := 0x0304 }, 2,
      by decide +kernel⟩,
    ⟨(setEvRing 2 { enable := true, mask := 8 } (setEvRing 15 { enable := true, mask := 8 } up)), { code := 0x0304 }, 2, 1,
      by decide +kernel⟩,
    ⟨(setEvRing 2 { enable := true, mask := 8 } (setEvRing 15 { enable := true, mask := 8 } up)), { code := 0x0304 }, 2,
      by decide +kernel⟩,
    ⟨(setEvRing 15 { enable := true, mask := 8, prod := 512 } up), { code := 0x0304 }, 15,
      by decide +kernel⟩,
    ⟨(setEvRing 2 { enable := true, mask := 8 } (setEvRing 15 { enable := true, mask := 8 } up)), { code := 0x0304 }, 2, 0,
      by decide +kernel⟩,
    ⟨up, { code := 0x0304 },
      by decide +kernel⟩⟩

theorem test_witness_HostReads :
    (∃ (o : Nat) (n : Nat),
      ((n ≠ 4 ∧ n ≠ 8) ∨ (n = 4 ∧ o % 4 ≠ 0) ∨ (n = 8 ∧ o % 8 ≠ 0)))
    ∧ (∃ (s : State) (p : Nat),
      ((partOf s p).state = .absent))
    ∧ (∃ (s : State),
      (s.dev.lanes < 32))
    ∧ (∃ (s : State) (m : Nat),
      (m < 16) ∧ ((mbxOf s m).resp.opcode < 65536))
    ∧ (∃ (s : State) (n : Nat) (r : Ring),
      (ringOf s n = some r))
    ∧ (∃ (o : Nat),
      (o % 8 = 0) ∧ (o < 0x100000)) :=
  ⟨⟨2, 4,
      by decide +kernel⟩,
    ⟨up, 63,
      by decide +kernel⟩,
    ⟨up,
      by decide +kernel⟩,
    ⟨(setMbx 15 { resp := { status := .badLength, opcode := 0x0300, tag := 9 } } up), 15,
      by decide +kernel⟩,
    ⟨{ up with rings := [(4095, { toHost := true, devIdx := 4, hostIdx := 2 })] }, 4095,
      { toHost := true, devIdx := 4, hostIdx := 2 },
      by decide +kernel⟩,
    ⟨0xFFFF8,
      by decide +kernel⟩⟩

theorem test_witness_ServoRate :
    (∃ (s : State) (e : Int) (m : Nat),
      (ServoAccepts s e m) ∧ (MaySlew s e)) :=
  ⟨up, (1966080 * 65536), (2000000000000 - 1000000000000 - 245760000),
      by decide +kernel⟩

theorem test_witness_CorrectedTimeContinuous :
    (∃ (s : State) (e : Int) (m : Nat),
      (ServoAccepts s e m) ∧ (MaySlew s e))
    ∧ (∃ (s : State) (m : Nat) (c : Cmd),
      (Due s m 0x0302 c) ∧ (field c.payload 0 1 = 0 ∨ field c.payload 0 1 = 2 ∨ (field c.payload 0 1 = 1 ∧ 24 ≤ field
        c.payload 1 1 ∧ field c.payload 1 1 ≤ 43 ∧ field c.payload 2 1 ≠ 0)))
    ∧ (∃ (s : State),
      (s.tmb.state = .locked) ∧ (s.tmb.lastArr + s.tmb.act.holdoverStart * 1966080 ≤ s.tmb.free)) :=
  ⟨⟨{ up with tmb := { up.tmb with rate := 1000000, ofsFrac := 7 } }, (-(1966080 * 65536)), 1000000000001,
      by decide +kernel⟩,
    ⟨(taking 0 (cmdOf 0x302 255 (leBytes 4 0xff2b01)) up), 0, (cmdOf 0x302 255 (leBytes 4 0xff2b01)),
      by decide +kernel⟩,
    ⟨{ up with tmb := { up.tmb with lastArr := 1000000000000 - 2000 * 1966080 } },
      by decide +kernel⟩⟩

theorem test_witness_HoldoverByTime :
    (∃ (s : State),
      (s.tmb.state = .locked) ∧ (s.tmb.lastArr + s.tmb.act.holdoverStart * 1966080 ≤ s.tmb.free))
    ∧ (∃ (s : State),
      (s.tmb.state = .holdover) ∧ (s.tmb.act.holdoverLimit ≠ 0) ∧ (s.tmb.holdEntry + s.tmb.act.holdoverLimit * 1966080000 ≤
        s.tmb.free)) :=
  ⟨⟨{ up with tmb := { up.tmb with lastArr := 1000000000000 - 2000 * 1966080, integ := -20000000 } },
      by decide +kernel⟩,
    ⟨{ up with tmb := { up.tmb with state := .holdover, act := { holdoverLimit := 1 }, holdEntry := 1000000000000 - 1966080000 } },
      by decide +kernel⟩⟩

theorem test_witness_ReferenceLoss :
    (∃ (s : State),
      (s.tmb.refLost = false))
    ∧ (∃ (s : State),
      (s.mgt.mode ≠ .waiting) ∧ (s.tmb.refLost = true))
    ∧ (∃ (s : State),
      (s.pending = []) ∧ (s.tmb.pllLocked = true)) :=
  ⟨⟨up,
      by decide +kernel⟩,
    ⟨{ up with tmb := { up.tmb with refLost := true } },
      by decide +kernel⟩,
    ⟨up,
      by decide +kernel⟩⟩

theorem test_witness_PpsEdges :
    (∃ (s : State),
      (s.tmb.source = .ppsIn) ∧ (s.pps.lastEdge + 2162688000 + s.pps.missedSince * 1966080000 ≤ s.tmb.free))
    ∧ (∃ (s : State) (n : Nat),
      (s.pps.outEn = true) ∧ (s.pps.outDone = some n) ∧ (((n + 1) * 1966080000 : Int) + s.pps.outDelay ≤ corrNow s))
    ∧ (∃ (s : State),
      (s.pps.outHigh = true) ∧ (s.pps.outRise + s.pps.widthMs * 1966080 ≤ s.tmb.free)) :=
  ⟨⟨{ up with tmb := { up.tmb with source := .ppsIn }, pps := { lastEdge := 1000000000000 - 2162688000 - 1 } },
      by decide +kernel⟩,
    ⟨{ up with tmb := { up.tmb with free := 1966080000 - 1966080 }, pps := { outEn := true, outDelay := -1966080, outDone := some 0 } },
      0,
      by decide +kernel⟩,
    ⟨{ up with pps := { outHigh := true, widthMs := 200, outRise := 1000000000000 - 200 * 1966080 } },
      by decide +kernel⟩⟩

theorem test_witness_TimeReads :
    (∃ (o : Nat),
      (o % 8 = 0) ∧ (o ≠ 0) ∧ (o < 0x100000))
    ∧ (∃ (s : State) (m : Nat) (c : Cmd),
      (Due s m 0x0300 c)) :=
  ⟨⟨0xFFFF8,
      by decide +kernel⟩,
    ⟨(taking 0 (cmdOf 0x300 255 ([])) up), 0, (cmdOf 0x300 255 ([])),
      by decide +kernel⟩⟩

theorem test_witness_TimeSettings :
    (∃ (s : State) (m : Nat) (c : Cmd),
      (Due s m 0x0301 c) ∧ (field c.payload 8 4 ≠ 0) ∧ (field c.payload 8 4 ≤ 2 ^ 31 - 1) ∧ (field c.payload 14 1 ≠ 0) ∧
        (field c.payload 0 4 ≠ 0) ∧ (field c.payload 12 2 ≤ field c.payload 16 4))
    ∧ (∃ (s : State) (m : Nat) (c : Cmd),
      (Due s m 0x0302 c) ∧ (field c.payload 0 1 = 2))
    ∧ (∃ (s : State) (m : Nat) (c : Cmd),
      (Due s m 0x0303 c) ∧ (anyTableRuns s = false) ∧ (anyNoonPending s = false))
    ∧ (∃ (s : State) (m : Nat) (c : Cmd),
      (Due s m 0x0304 c) ∧ (anyTableRuns s = false) ∧ (field c.payload 0 4 ≤ 19660799) ∧ (field c.payload 4 1 ≤ 3) ∧ (field
        c.payload 5 1 = 0))
    ∧ (∃ (s : State) (m : Nat) (c : Cmd),
      (Due s m 0x0307 c) ∧ (field c.payload 0 1 ≤ 1) ∧ (field c.payload 1 1 ≠ 0) ∧ (field c.payload 1 1 ≤ 200) ∧ ((fieldInt
        c.payload 4 4).natAbs ≤ 1966080)) :=
  ⟨⟨(taking 0 (cmdOf 0x301 255 (leBytes 24 0xffff000000000028000100287fffffff0000000000000001)) up), 0, (cmdOf 0x301 255
    (leBytes 24 0xffff000000000028000100287fffffff0000000000000001)),
      by decide +kernel⟩,
    ⟨(taking 0 (cmdOf 0x302 255 (leBytes 4 0x2)) up), 0, (cmdOf 0x302 255 (leBytes 4 0x2)),
      by decide +kernel⟩,
    ⟨(taking 0 (cmdOf 0x303 255 (leBytes 8 0xfffffffffffffffb)) up), 0, (cmdOf 0x303 255 (leBytes 8 0xfffffffffffffffb)),
      by decide +kernel⟩,
    ⟨(taking 0 (cmdOf 0x304 255 (leBytes 8 0x3012bffff)) up), 0, (cmdOf 0x304 255 (leBytes 8 0x3012bffff)),
      by decide +kernel⟩,
    ⟨(taking 0 (cmdOf 0x307 255 (leBytes 8 0xffe200000000c801)) up), 0, (cmdOf 0x307 255 (leBytes 8 0xffe200000000c801)),
      by decide +kernel⟩⟩

theorem test_witness_TimeRefusals :
    (∃ (s : State) (m : Nat) (c : Cmd),
      (Due s m 0x0303 c) ∧ (anyTableRuns s = true ∨ anyNoonPending s = true))
    ∧ (∃ (s : State) (m : Nat) (c : Cmd),
      (Due s m 0x0304 c) ∧ (anyTableRuns s = true))
    ∧ (∃ (s : State) (m : Nat) (c : Cmd),
      (Due s m 0x0301 c) ∧ (field c.payload 8 4 = 0)) :=
  ⟨⟨(taking 0 (cmdOf 0x303 255 (leBytes 8 0x1)) ({ up with tts := { up.tts with tables := [(7, { state := .running })] } })),
    0, (cmdOf 0x303 255 (leBytes 8 0x1)),
      by decide +kernel⟩,
    ⟨(taking 0 (cmdOf 0x304 255 (leBytes 8 0)) ({ up with tts := { up.tts with tables := [(7, { state := .running })] } })),
      0, (cmdOf 0x304 255 (leBytes 8 0)),
      by decide +kernel⟩,
    ⟨(taking 0 (cmdOf 0x301 255 (leBytes 24 0)) up), 0, (cmdOf 0x301 255 (leBytes 24 0)),
      by decide +kernel⟩⟩

theorem test_witness_PtpAndEsmc :
    (∃ (s : State) (mac : Nat) (msg : PtpMsg) (d : PtpSet),
      (PtpAccepts s mac msg) ∧ (msg.body = .announce d))
    ∧ (∃ (s : State) (mac : Nat) (msg : PtpMsg) (t1 : Int) (sm : Int),
      (PtpAccepts s mac msg) ∧ (msg.body = .sync false t1) ∧ ((ptpPort s mac).slave = true) ∧ ((ptpPort s mac).delay = some
        sm))
    ∧ (∃ (s : State) (mac : Nat) (q : Nat) (msg : PtpMsg) (t3 : Int) (t4 : Int),
      (PtpAccepts s mac msg) ∧ (msg.body = .delayResp t4) ∧ ((ptpPort s mac).slave = true) ∧ ((ptpPort s mac).req = some (q,
        t3)) ∧ (msg.seqId = q))
    ∧ (∃ (s : State) (mac : Nat) (msg : PtpMsg),
      (PtpAccepts s mac msg) ∧ (msg.body = .delayReq) ∧ ((ptpPort s mac).slave = false) ∧ (Q2Room s mac))
    ∧ (∃ (s : State) (mac : Nat) (msg : PtpMsg),
      (mac < 32) ∧ (s.tmb.source ≠ .ptp ∨ msg.domain ≠ s.pps.domain))
    ∧ (∃ (s : State) (mac : Nat) (k : PtpKind),
      (mac < 32) ∧ (ptpRuns s mac = true) ∧ (k ≠ .delayResp) ∧ (k ≠ .followUp) ∧ ((ptpPort s mac).slave = (k == .delayReq)) ∧
        (Q2Room s mac))
    ∧ (∃ (s : State) (mac : Nat) (q : Nat) (ns : Nat),
      (mac < 32) ∧ (ptpRuns s mac = true) ∧ ((ptpPort s mac).slave = false) ∧ ((ptpPort s mac).stamp = some (q, ns)) ∧ (Q2Room
        s mac))
    ∧ (∃ (mac : Nat) (ql : Nat),
      (mac < 32) ∧ (ql < 16))
    ∧ (∃ (s : State) (mac : Nat) (ql : Nat),
      (mac < 32) ∧ (ql < 16) ∧ (Q2Room s mac)) :=
  ⟨⟨{ up with pps := { portMask := 0x80, domain := 24 }, fh := { up.fh with macs := [(31, { link := true })] } }, 31,
    { domain := 24, seqId := 7, source := 99, body := .announce {} }, {},
      by decide +kernel⟩,
    ⟨{ up with tmb := { up.tmb with free := 1000000000000 }, pps := { portMask := 0x80, domain := 24, ports := [(31, { slave := true, delay := some 500, req := some (7, 1000), lastSeq := [(0, 6)], stamp := some (9, 12345) })] }, fh := { up.fh with macs := [(31, { link := true, oneStep := false })] } },
      31, { domain := 24, seqId := 7, source := 99, body := .sync false 300000000000000, cap16 := 3 }, 300000000000000, 500,
      by decide +kernel⟩,
    ⟨{ up with tmb := { up.tmb with free := 1000000000000 }, pps := { portMask := 0x80, domain := 24, ports := [(31, { slave := true, delay := some 500, req := some (7, 1000), lastSeq := [(0, 6)], stamp := some (9, 12345) })] }, fh := { up.fh with macs := [(31, { link := true, oneStep := false })] } },
      31, 7, { domain := 24, seqId := 7, source := 99, body := .delayResp 4000 }, 1000, 4000,
      by decide +kernel⟩,
    ⟨{ up with tmb := { up.tmb with free := 1000000000000 }, pps := { portMask := 0x80, domain := 24, ports := [(31, { slave := false, delay := some 500, req := some (7, 1000), lastSeq := [(0, 6)], stamp := some (9, 12345) })] }, fh := { up.fh with macs := [(31, { link := true, oneStep := false })] } },
      31, { domain := 24, seqId := 7, source := 99, body := .delayReq },
      by decide +kernel⟩,
    ⟨up, 31, { domain := 25, seqId := 7, source := 99, body := .delayReq },
      by decide +kernel⟩,
    ⟨{ up with pps := { portMask := 0x80, domain := 24 }, fh := { up.fh with macs := [(31, { link := true })] } }, 31, .sync,
      by decide +kernel⟩,
    ⟨{ up with tmb := { up.tmb with free := 1000000000000 }, pps := { portMask := 0x80, domain := 24, ports := [(31, { slave := false, delay := some 500, req := some (7, 1000), lastSeq := [(0, 6)], stamp := some (9, 12345) })] }, fh := { up.fh with macs := [(31, { link := true, oneStep := false })] } },
      31, 9, 12345,
      by decide +kernel⟩,
    ⟨31, 15,
      by decide +kernel⟩,
    ⟨up, 31, 15,
      by decide +kernel⟩⟩

theorem test_witness_NoonLife :
    (∃ (s : State) (m : Nat) (c : Cmd),
      (∃ k < 16, (noonOf s k).state ≠ .pending) ∧ (Due s m 0x0305 c) ∧ (s.tmb.state = .locked ∨ s.tmb.state = .holdover) ∧
        (field c.payload 8 1 = 0) ∧ (corrNow s + 19661 ≤ field c.payload 0 8) ∧ (field c.payload 0 8 ≤ corrNow s +
        117964800000) ∧ (pendingArm s (targetOf m c) (field c.payload 10 2) = none))
    ∧ (∃ (s : State) (m : Nat) (k : Nat) (c : Cmd),
      (Due s m 0x0306 c) ∧ (pendingArm s (targetOf m c) (field c.payload 0 2) = some k) ∧ (corrNow s < (noonOf s k).tick))
    ∧ (∃ (s : State) (k : Nat),
      (k < 16) ∧ ((noonOf s k).state = .pending) ∧ ((noonOf s k).action = 0) ∧ ((noonOf s k).tick ≤ corrNow s))
    ∧ (∃ (s : State) (m : Nat) (c : Cmd),
      (Due s m 0x0308 c)) :=
  ⟨⟨(taking 0 (cmdOf 0x305 255 (leBytes 24 0xffff0000000000e8d4a55ccd)) up), 0, (cmdOf 0x305 255 (leBytes 24
    0xffff0000000000e8d4a55ccd)),
      ⟨0, by decide +kernel, by decide +kernel⟩, by decide +kernel⟩,
    ⟨(taking 79 (cmdOf 0x306 63 (leBytes 2 0x9))
      ({ up with parts := [(63, { state := .active })], noon := [(15, { state := .pending, id := 9, part := 63, tick := 1000000000001, action := 0 })] })),
      79, 15, (cmdOf 0x306 63 (leBytes 2 0x9)),
      by decide +kernel⟩,
    ⟨{ up with parts := [(63, { state := .active })], noon := [(15, { state := .pending, id := 9, part := 63, tick := 1000000000000, action := 0 })] },
      15,
      by decide +kernel⟩,
    ⟨(taking 0 (cmdOf 0x308 255 ([])) up), 0, (cmdOf 0x308 255 ([])),
      by decide +kernel⟩⟩

theorem test_witness_NoonRefusals :
    (∃ (s : State) (m : Nat) (c : Cmd),
      (Due s m 0x0305 c) ∧ (¬(16 ≤ m ∧ (field c.payload 8 1 = 1 ∨ field c.payload 8 1 = 2))) ∧ (s.tmb.state = .freerun ∨
        s.tmb.state = .acquire))
    ∧ (∃ (s : State) (m : Nat) (c : Cmd),
      (Due s m 0x0305 c) ∧ (¬(16 ≤ m ∧ (field c.payload 8 1 = 1 ∨ field c.payload 8 1 = 2))) ∧ (s.tmb.state ≠ .freerun) ∧
        (s.tmb.state ≠ .acquire) ∧ (field c.payload 0 8 < corrNow s + 19661))
    ∧ (∃ (s : State) (m : Nat) (c : Cmd),
      (Due s m 0x0305 c) ∧ (¬(16 ≤ m ∧ (field c.payload 8 1 = 1 ∨ field c.payload 8 1 = 2))) ∧ (s.tmb.state ≠ .freerun) ∧
        (s.tmb.state ≠ .acquire) ∧ (corrNow s + 117964800000 < field c.payload 0 8)) :=
  ⟨⟨(taking 0 (cmdOf 0x305 255 (leBytes 24 0)) ({ up with tmb := { up.tmb with state := .acquire } })), 0, (cmdOf 0x305 255
    (leBytes 24 0)),
      by decide +kernel⟩,
    ⟨(taking 0 (cmdOf 0x305 255 (leBytes 24 0xe8d4a55ccc)) ({ up with tmb := { up.tmb with state := .holdover } })), 0, (cmdOf
      0x305 255 (leBytes 24 0xe8d4a55ccc)),
      by decide +kernel⟩,
    ⟨(taking 0 (cmdOf 0x305 255 (leBytes 24 0x1044be51001)) up), 0, (cmdOf 0x305 255 (leBytes 24 0x1044be51001)),
      by decide +kernel⟩⟩

theorem test_witness_MatrixDescriptor :
    (∃ (s : State) (d : MatDesc),
      (matOk d = true) ∧ (d.quad < gradeQuads s.grade) ∧ (AccessFine s d.quad (matRanges d)) ∧ ((unitRun s d.quad).side.hush =
        false) ∧ (d.rep = 1) ∧ (d.m ≠ 0) ∧ (d.k ≠ 0) ∧ (d.n ≠ 0))
    ∧ (∃ (s : State) (d : MatDesc),
      (matOk d = true) ∧ (d.quad < gradeQuads s.grade) ∧ (working s d.quad = true) ∧ (d.m = 0 ∨ d.k = 0 ∨ d.n = 0 ∨ d.rep =
        0))
    ∧ (∃ (s : State) (d : MatDesc),
      (matOk d = true) ∧ (d.quad < gradeQuads s.grade) ∧ (AccessFine s d.quad (matRanges d)) ∧ ((unitRun s d.quad).side.hush =
        true))
    ∧ (∃ (s : State) (d : MatDesc) (k : Nat),
      (matOk d = true) ∧ (d.quad < gradeQuads s.grade) ∧ (AccessFine s d.quad (matRanges d)) ∧ ((unitRun s d.quad).side.hush =
        false) ∧ (d.rep = 1) ∧ (matPasses d = 1) ∧ (d.m ≠ 0) ∧ (256 * k ≤ d.m)) :=
  ⟨⟨{ up with grd := { up.grd with units := [(15, ({ holder := .radio 7 9 0, owner := 319, position := 11 } : UnitRun))], shares := [(3 * 512 + 319, (0, 1)), (64 * 512 + 319, (0, 64))], arith := [] } },
    { quad := 15, m := 2, k := 3, n := 2, fa := .i8, fb := .i4, aAddr := 0, bAddr := 100, aScale := none, bScale := none, rAddr := 262128, acc := true, rep := 1 },
      by decide +kernel⟩,
    ⟨{ up with grd := { up.grd with units := [(15, ({ holder := .radio 7 9 0, owner := 319, position := 11 } : UnitRun))] } },
      { quad := 15, m := 2, k := 0, n := 2, fa := .i8, fb := .i4, aAddr := 0, bAddr := 100, aScale := none, bScale := none, rAddr := 0, acc := true, rep := 1 },
      by decide +kernel⟩,
    ⟨{ up with grd := { up.grd with units := [(15, ({ holder := .radio 7 9 0, owner := 319, position := 11, side := { hush := true } } : UnitRun))], shares := [(3 * 512 + 319, (0, 1)), (64 * 512 + 319, (0, 64))] } },
      { quad := 15, m := 2, k := 3, n := 2, fa := .i8, fb := .i4, aAddr := 0, bAddr := 100, aScale := none, bScale := none, rAddr := 262128, acc := true, rep := 1 },
      by decide +kernel⟩,
    ⟨{ up with grd := { up.grd with units := [(15, ({ holder := .radio 7 9 0, owner := 319, position := 11 } : UnitRun))], shares := [(3 * 512 + 319, (0, 1)), (64 * 512 + 319, (0, 64))] } },
      { quad := 15, m := 256, k := 1, n := 1, fa := .i8, fb := .i4, aAddr := 0, bAddr := 100, aScale := none, bScale := none, rAddr := 261120, acc := true, rep := 1 },
      1,
      by decide +kernel⟩⟩

theorem test_witness_ShareCheck :
    (∃ (s : State) (d : CopyDesc),
      (copyOk d = true) ∧ (unitExists s.grade d.mover = true) ∧ (placeExists s.grade d.src = true) ∧ (placeExists s.grade
        d.dst = true) ∧ (working s d.mover = true) ∧ (d.len ≠ 0) ∧ (256 ≤ (unitRun s d.mover).owner) ∧ (placeOk s (unitRun s
        d.mover).owner false d.src d.sAddr d.len = false)) :=
  ⟨{ up with grd := { up.grd with units := [(224, ({ holder := .radio 7 9 0, owner := 319, position := 11 } : UnitRun))], shares := [(3 * 512 + 319, (0, 1)), (64 * 512 + 319, (0, 64))] } },
    { mover := 0xE0, src := .array 3, sAddr := 262080, dst := .tile 0, dAddr := 192, len := 128, post := none, several := false },
      by decide +kernel⟩

theorem test_witness_MoverCopy :
    (∃ (s : State) (d : CopyDesc) (k : Nat),
      (copyOk d = true) ∧ (placeExists s.grade d.src = true) ∧ (placeExists s.grade d.dst = true) ∧ (64 * k ≤ d.len) ∧
        (AccessFine s d.mover [(d.src, false, d.sAddr, d.len), (d.dst, false, d.dAddr, if d.add then d.len else 0), (d.dst,
        true, d.dAddr, d.len)]))
    ∧ (∃ (s : State) (d : CopyDesc) (k : Nat),
      (copyOk d = true) ∧ (placeExists s.grade d.src = true) ∧ (placeExists s.grade d.dst = true) ∧ (64 * k ≤ d.len) ∧
        (AccessFine s d.mover [(d.src, false, d.sAddr, d.len), (d.dst, false, d.dAddr, if d.add then d.len else 0), (d.dst,
        true, d.dAddr, d.len)]) ∧ (d.add = false) ∧ ((unitRun s d.mover).side.hush = false)) :=
  ⟨⟨{ up with grd := { up.grd with units := [(0xE0, { holder := .radio 7 9 0, owner := 319 })], shares := [(3 * 512 + 319, (0, 1)), (64 * 512 + 319, (0, 64))], sb := [(64 * 256 + 63, { valid := true, slots := 4, slotSize := 2, producer := 0xE0, produced := 65535, consumed := 65532 })] }, mem := { cells := [(arrayAt 3 262016, 5)] } },
    { mover := 0xE0, src := .array 3, sAddr := 262016, dst := .tile 0, dAddr := 192, len := 128, post := some (64, 63, 2), several := false },
    2,
      by decide +kernel⟩,
    ⟨{ up with grd := { up.grd with units := [(0xE0, { holder := .radio 7 9 0, owner := 319 })], shares := [(3 * 512 + 319, (0, 1)), (64 * 512 + 319, (0, 64))], sb := [(64 * 256 + 63, { valid := true, slots := 4, slotSize := 2, producer := 0xE0, produced := 65535, consumed := 65532 })] }, mem := { cells := [(arrayAt 3 262016, 5)] } },
      { mover := 0xE0, src := .array 3, sAddr := 262016, dst := .tile 0, dAddr := 192, len := 128, post := some (64, 63, 2), several := false },
      1,
      by decide +kernel⟩⟩

theorem test_witness_ScoreboardCounts :
    (∃ (s : State) (p : Nat) (sl : Nat) (u : Nat) (e : Nat) (n : Nat),
      (unitExists s.grade p = true) ∧ (unitExists s.grade u = true) ∧ (sl < 8) ∧ (e < sbCount u) ∧ (n < 65536) ∧ (takesPart s
        p sl = true) ∧ ((sbOf s u e).valid = true) ∧ ((sbOf s u e).producer = p) ∧ (sbOcc (sbOf s u e) < (sbOf s u e).slots))
    ∧ (∃ (s : State) (u : Nat) (sl : Nat) (e : Nat),
      (unitExists s.grade u = true) ∧ (sl < 8) ∧ (e < sbCount u) ∧ (takesPart s u sl = true) ∧ ((sbOf s u e).valid = true) ∧
        (sbOcc (sbOf s u e) ≠ 0))
    ∧ (∃ (s : State) (u : Nat) (e : Nat),
      (unitExists s.grade u = true) ∧ (e < sbCount u) ∧ ((sbOf s u e).shadow ≠ (sbOf s u e).consumed))
    ∧ (∃ (s : State) (p : Nat) (sl : Nat) (u : Nat) (e : Nat) (n : Nat),
      (unitExists s.grade p = true) ∧ (unitExists s.grade u = true) ∧ (sl < 8) ∧ (e < sbCount u) ∧ (n < 65536) ∧ (takesPart s
        p sl = true) ∧ ((sbOf s u e).valid = true) ∧ ((sbOf s u e).producer ≠ p) ∧ (256 ≤ (unitRun s p).owner)) :=
  ⟨⟨{ up with grd := { up.grd with units := [(15, ({ holder := .radio 7 9 0, owner := 319, position := 11 } : UnitRun))], sb := [(64 * 256 + 63, { valid := true, slots := 4, producer := 15, produced := 2, consumed := 65535 })] } },
    15, 7, 0x40, 63, 65535,
      by decide +kernel⟩,
    ⟨({ up with grd := { up.grd with units := [(64, ({ holder := .radio 7 9 0, owner := 319, position := 11 } : UnitRun))], sb := [(64 * 256 + 63, { valid := true, slots := 4, producer := 15, produced := 2, consumed := 65535, shadow := 65535 })] } , tiles := [(0, { slices := [(7, { side := { hush := true } })] })] }),
      0x40, 7, 63,
      by decide +kernel⟩,
    ⟨{ up with grd := { up.grd with units := [(64, ({ holder := .radio 7 9 0, owner := 319, position := 11 } : UnitRun))], sb := [(64 * 256 + 63, { valid := true, slots := 4, producer := 15, produced := 2, consumed := 0, shadow := 65535 })] } },
      0x40, 63,
      by decide +kernel⟩,
    ⟨{ up with grd := { up.grd with units := [(224, ({ holder := .radio 7 9 0, owner := 319, position := 11 } : UnitRun))], sb := [(64 * 256 + 63, { valid := true, slots := 4, producer := 15, produced := 2, consumed := 0, shadow := 65535 })] } },
      0xE0, 7, 0x40, 63, 1,
      by decide +kernel⟩⟩

theorem test_witness_ScoreboardWaits :
    (∃ (s : State) (p : Nat) (sl : Nat) (u : Nat) (e : Nat),
      (unitExists s.grade p = true) ∧ (unitExists s.grade u = true) ∧ (sl < 8) ∧ (e < sbCount u) ∧ (takesPart s p sl = true) ∧
        ((sideOf s p sl).wait = none) ∧ ((sbOf s u e).valid = true) ∧ (sbOccShadow (sbOf s u e) < (sbOf s u e).slots))
    ∧ (∃ (s : State) (p : Nat) (sl : Nat) (u : Nat) (e : Nat),
      (unitExists s.grade p = true) ∧ (unitExists s.grade u = true) ∧ (sl < 8) ∧ (e < sbCount u) ∧ (takesPart s p sl = true) ∧
        ((sideOf s p sl).wait = none) ∧ ((sbOf s u e).valid = true) ∧ ((sbOf s u e).slots ≤ sbOccShadow (sbOf s u e)))
    ∧ (∃ (s : State) (p : Nat) (sl : Nat) (u : Nat) (e : Nat),
      (unitExists s.grade p = true) ∧ (unitExists s.grade u = true) ∧ (sl < 8) ∧ (e < sbCount u) ∧ ((sideOf s p sl).wait =
        some (.free u e)) ∧ (sbOccShadow (sbOf s u e) < (sbOf s u e).slots))
    ∧ (∃ (s : State) (u : Nat) (sl : Nat) (e : Nat),
      (unitExists s.grade u = true) ∧ (sl < 8) ∧ (e < sbCount u) ∧ (takesPart s u sl = true) ∧ ((sideOf s u sl).wait = none) ∧
        ((sbOf s u e).valid = true) ∧ (sbOcc (sbOf s u e) ≠ 0))
    ∧ (∃ (s : State) (u : Nat) (sl : Nat) (e : Nat),
      (unitExists s.grade u = true) ∧ (sl < 8) ∧ (e < sbCount u) ∧ (takesPart s u sl = true) ∧ ((sideOf s u sl).wait = none) ∧
        ((sbOf s u e).valid = true) ∧ (sbOcc (sbOf s u e) = 0))
    ∧ (∃ (s : State) (u : Nat) (sl : Nat) (e : Nat),
      (unitExists s.grade u = true) ∧ (sl < 8) ∧ (e < sbCount u) ∧ ((sideOf s u sl).wait = some (.full u e)) ∧ (sbOcc (sbOf s
        u e) ≠ 0)) :=
  ⟨⟨{ up with grd := { up.grd with units := [(15, ({ holder := .radio 7 9 0, owner := 319, position := 11 } : UnitRun))], sb := [(243 * 256 + 255, { valid := true, slots := 4, producer := 15, produced := 2, consumed := 0, shadow := 65535 })] } },
    15, 7, 0xF3, 255,
      by decide +kernel⟩,
    ⟨{ up with grd := { up.grd with units := [(15, ({ holder := .radio 7 9 0, owner := 319, position := 11 } : UnitRun))], sb := [(243 * 256 + 255, { valid := true, slots := 4, producer := 15, produced := 2, consumed := 0, shadow := 65534 })] } },
      15, 7, 0xF3, 255,
      by decide +kernel⟩,
    ⟨{ up with grd := { up.grd with units := [(15, ({ holder := .radio 7 9 0, owner := 319, position := 11, side := { wait := some (.free 0xF3 255) } } : UnitRun))], sb := [(243 * 256 + 255, { valid := true, slots := 4, producer := 15, produced := 2, consumed := 0, shadow := 65535 })] } },
      15, 7, 0xF3, 255,
      by decide +kernel⟩,
    ⟨{ up with grd := { up.grd with units := [(15, ({ holder := .radio 7 9 0, owner := 319, position := 11 } : UnitRun))], sb := [(15 * 256 + 63, { valid := true, slots := 4, produced := 2, consumed := 1, lens := [(1, 9)] })] } },
      15, 7, 63,
      by decide +kernel⟩,
    ⟨{ up with grd := { up.grd with units := [(15, ({ holder := .radio 7 9 0, owner := 319, position := 11 } : UnitRun))], sb := [(15 * 256 + 63, { valid := true, slots := 4, produced := 2, consumed := 2 })] } },
      15, 7, 63,
      by decide +kernel⟩,
    ⟨{ up with grd := { up.grd with units := [(15, ({ holder := .radio 7 9 0, owner := 319, position := 11, side := { wait := some (.full 15 63) } } : UnitRun))], sb := [(15 * 256 + 63, { valid := true, slots := 4, produced := 2, consumed := 1, lens := [(1, 9)] })] } },
      15, 7, 63,
      by decide +kernel⟩⟩

theorem test_witness_FloatCodesRoundTrip :
    (∃ (f : Fmt) (g : FloatFmt) (c : Nat),
      (floatFmt f = some g) ∧ (c < 2 ^ g.width) ∧ (decodeVal f c ≠ .nan)) :=
  ⟨.e2m1, ((floatFmt .e2m1).get rfl), 15,
      by decide +kernel⟩

theorem test_witness_TernaryBytes :
    (∃ (b : _),
      (b < 243))
    ∧ (∃ (b : _),
      (243 ≤ b)) :=
  ⟨⟨242,
      by decide +kernel⟩,
    ⟨243,
      by decide +kernel⟩⟩

theorem test_witness_StochasticRounding :
    (∃ (c : Nat),
      (0 < c)) :=
  ⟨25,
      by decide +kernel⟩

theorem test_witness_KcgPermutation :
    (∃ (seed : BitVec 128) (stream : BitVec 32) (p : BitVec 64 × BitVec 64) (q : BitVec 64 × BitVec 64),
      (kcg128 seed stream p = kcg128 seed stream q))
    ∧ (∃ (seed : Nat) (stream : Nat) (step : Nat) (index : Nat) (step' : Nat) (index' : Nat),
      (step < 2 ^ 64) ∧ (index < 2 ^ 64) ∧ (step' < 2 ^ 64) ∧ (index' < 2 ^ 64) ∧ (kcg seed stream step index = kcg seed
        stream step' index')) :=
  ⟨⟨0, 1, (5, 6), (5, 6),
      by decide +kernel⟩,
    ⟨0, 1, (2^64-1), 7, (2^64-1), 7,
      by decide +kernel⟩⟩

theorem test_witness_FixedPointLanes :
    (∃ (x : Tile) (sl : Nat) (i : Nat),
      (laneShape x) ∧ (sl < 8) ∧ (i < laneCount x))
    ∧ (∃ (x : Tile) (sl : Nat) (va : Nat) (vb : Nat) (i : Nat),
      (laneShape x) ∧ (sl < 8) ∧ (i < laneCount x) ∧ (-32768 ≤ laneQ x sl va i + laneQ x sl vb i) ∧ (laneQ x sl va i + laneQ x
        sl vb i ≤ 32767))
    ∧ (∃ (x : Tile) (sl : Nat) (va : Nat) (vb : Nat) (i : Nat),
      (laneShape x) ∧ (sl < 8) ∧ (i < laneCount x) ∧ (-32768 ≤ laneQ x sl va i - laneQ x sl vb i) ∧ (laneQ x sl va i - laneQ x
        sl vb i ≤ 32767))
    ∧ (∃ (x : Tile) (sl : Nat) (i : Nat),
      (laneShape x) ∧ (sl < 8) ∧ (i < laneCount x) ∧ (i % 2 = 0)) :=
  ⟨⟨(lanesTile [(0, {})]), 0, 255,
      lanesTile_shape _, by decide +kernel⟩,
    ⟨(lanesTile [(0, {})]), 0, 1, 0, 127,
      lanesTile_shape _, by decide +kernel⟩,
    ⟨(lanesTile [(0, {})]), 0, 1, 31, 127,
      lanesTile_shape _, by decide +kernel⟩,
    ⟨(lanesTile [(0, {})]), 0, 254,
      lanesTile_shape _, by decide +kernel⟩⟩

theorem test_witness_ButterflyLanes :
    (∃ (x : Tile) (sl : Nat) (k : Nat) (j : Nat),
      (laneShape x) ∧ (sl < 8) ∧ (2 * j < laneCount x) ∧ (k < 4)) :=
  ⟨(lanesTile [(0, {})]), 0, 3, 127,
      lanesTile_shape _, by decide +kernel⟩

theorem test_witness_GatherScatter :
    (∃ (s : State) (t : Nat) (v : Nat) (va : Nat) (a : Nat),
      (laneShape (tileOf s t)) ∧ (t < gradeTiles s.grade) ∧ (v < 32) ∧ (va < 32) ∧ (a < 16) ∧ (canIssue s t 0 = true) ∧
        ((tileOf s t).fused = true) ∧ (hushed s t 0 = false) ∧ (∀ p ∈ laneAddrs (tileOf s t) 0 va a, placeOk s (unitRun s
        (tileUnit t)).owner false (.tile t) p 2 = true ∧ placeOk s (unitRun s (tileUnit t)).owner true (.tile t) p 2 = true ∧
        meetsBad s (tileAt t p) 2 = false)) :=
  ⟨(onTile 63 (lanesTile [(0, { a := [(15, { addr := 1048576 - 1024, stride := 512 })], sc := [(3, 17)], pos := 5 })]) busy
    up), 63, 31, 0, 15,
      lanesTile_shape _, by decide +kernel⟩

theorem test_witness_Reduction :
    (∃ (f : Fmt),
      (f = .f32 ∨ f = .i32))
    ∧ (∃ (f : Fmt) (a : Nat),
      (f = .f32 ∨ f = .i32) ∧ (decodeVal f a ≠ .nan))
    ∧ (∃ (f : Fmt) (a : Nat),
      (f = .f32 ∨ f = .i32) ∧ (decodeVal f a = .nan))
    ∧ (∃ (s : State) (t : Nat) (sl : Nat) (n : Nat) (addr : Nat) (sd : Nat) (f : Fmt),
      (t < gradeTiles s.grade) ∧ (sl < 8) ∧ (f = .f32 ∨ f = .i32) ∧ (n ≤ 65536) ∧ (sd < 16) ∧ (canIssue s t sl = true) ∧
        (hushed s t sl = false) ∧ (placeOk s (unitRun s (tileUnit t)).owner false (.tile t) addr (4 * n) = true) ∧ (meetsBad s
        (tileAt t addr) (4 * n) = false))
    ∧ (∃ (s : State) (q : Nat) (n : Nat) (addr : Nat) (sd : Nat) (f : Fmt),
      (q < gradeQuads s.grade) ∧ (f = .f32 ∨ f = .i32) ∧ (n ≤ 65536) ∧ ((unitRun s q).side.hush = false) ∧ (AccessFine s q
        [(.array (q / 4), false, addr, 4 * n), (.array (q / 4), true, sd, 4)])) :=
  ⟨⟨Fmt.f32,
      by decide +kernel⟩,
    ⟨Fmt.f32, 0x3F800000,
      by decide +kernel⟩,
    ⟨Fmt.f32, 0x7F800001,
      by decide +kernel⟩,
    ⟨(onTile 63 (splitTile [(7, {})]) busy { up with mem := { cells := [(tileAt 63 12, 64)] } }), 63, 7, 16, 0, 15, .f32,
      by decide +kernel⟩,
    ⟨(setShare 3 319 0 1 (updUnit 15 (fun _ => busy)
      { up with mem := { cells := [(arrayAt 3 2, 128), (arrayAt 3 3, 63)] } })), 15, 3, 0, 12, .f32,
      by decide +kernel⟩⟩

theorem test_witness_Repeats :
    (∃ (s : State) (t : Nat) (sl : Nat) (n : Nat) (last : Nat),
      (t < gradeTiles s.grade) ∧ (sl < 8) ∧ (n ≤ 65535) ∧ (last ≤ 4091) ∧ (canIssue s t sl = true) ∧ ((sliceOf (tileOf s t)
        sl).loops.length < 4) ∧ ((sliceOf (tileOf s t) sl).pos < last) ∧ (∀ l ∈ (sliceOf (tileOf s t) sl).loops, last ≤
        l.last))
    ∧ (∃ (s : State) (t : Nat) (n : Nat) (op : TileOp) (k : Nat) (j : Nat) (p : Nat),
      (t < gradeTiles s.grade) ∧ (n ≤ 4096) ∧ (n * opCost op ≤ 4096) ∧ (opOk op = true) ∧ (repMay op = true) ∧ (canIssue s t 0
        = true) ∧ ((tileOf s t).fused = true) ∧ ((unitRun s (tileUnit t)).holder = .radio k j p))
    ∧ (∃ (s : State) (t : Nat) (n : Nat) (c : Nat) (m : Nat) (va : Nat) (vb : Nat),
      (t < gradeTiles s.grade) ∧ (n ≤ 2048) ∧ (va < 32) ∧ (vb < 32) ∧ (canIssue s t 0 = true) ∧ ((tileOf s t).fused = true) ∧
        ((unitRun s (tileUnit t)).holder = .lent c m) ∧ (hushed s t 0 = false) ∧ ((n * 2 * 3072 + 3124) / 3125 + s.tmb.free ≤
        (unitRun s (tileUnit t)).dusk)) :=
  ⟨⟨(onTile 63 (lanesTile [(0, { a := [(15, { addr := 1048576 - 1024, stride := 512 })], sc := [(3, 17)], pos := 5 })]) busy
    up), 63, 0, 65535, 4091,
      by decide +kernel⟩,
    ⟨(onTile 63 (lanesTile [(0, { a := [(15, { addr := 1048576 - 1024, stride := 512 })], sc := [(3, 17)], pos := 5 })]) busy
      up), 63, 2048, (.cmac 1 2), 7, 9, 0,
      by decide +kernel⟩,
    ⟨(onTile 63 (lanesTile [(0, { a := [(15, { addr := 1048576 - 1024, stride := 512 })], sc := [(3, 17)], pos := 5 })])
      { holder := .lent 255 3, owner := 255, dusk := 1000000000000 + 4 } up), 63, 2, 255, 3, 1, 2,
      by decide +kernel⟩⟩

theorem test_witness_SliceBarrier :
    (∃ (s : State) (t : Nat),
      (∀ k, 2 ≤ k → (sliceOf (tileOf s t) k).sbar = none) ∧ (t < gradeTiles s.grade) ∧ (tabWf (tileOf s t).slices) ∧ (canIssue
        s t 0 = true) ∧ (tabHas (tileOf s t).slices 1 = true) ∧ ((sliceOf (tileOf s t) 1).sbar = some 3))
    ∧ (∃ (s : State) (t : Nat) (sl : Nat) (mask : Nat),
      (∃ k < 8, k ≠ sl ∧ bit mask k = true ∧ (sliceOf (tileOf s t) k).sbar = none) ∧ (∀ k, k ≠ sl → (sliceOf (tileOf s t)
        k).sbar = none) ∧ (t < gradeTiles s.grade) ∧ (sl < 8) ∧ (mask < 256) ∧ (bit mask sl = true) ∧ (tabWf (tileOf s
        t).slices) ∧ (canIssue s t sl = true))
    ∧ (∃ (s : State) (t : Nat),
      (∀ k, 2 ≤ k → (sliceOf (tileOf s t) k).sbar = none) ∧ (t < gradeTiles s.grade) ∧ (working s (tileUnit t) = true) ∧
        (tabWf (tileOf s t).slices) ∧ (tabHas (tileOf s t).slices 0 = true) ∧ (tabHas (tileOf s t).slices 1 = true) ∧
        ((sliceOf (tileOf s t) 0).sbar = some 3) ∧ ((sliceOf (tileOf s t) 1).sbar = some 3)) :=
  ⟨⟨(onTile 63 (lanesTile [(0, {}), (1, { sbar := some 3, pos := 4 })]) busy up), 63,
      get_all (fun k (y : Slice) => 2 ≤ k → y.sbar = none) _ _ (fun _ _ => rfl) (by decide +kernel), by decide +kernel⟩,
    ⟨(onTile 63 (lanesTile [(0, {}), (7, {})]) busy up), 63, 0, 129,
      ⟨7, by decide +kernel, by decide +kernel⟩, get_all (fun k (y : Slice) => k ≠ 0 → y.sbar = none) _ _ (fun _ _ => rfl)
        (by decide +kernel), by decide +kernel⟩,
    ⟨(onTile 63 (lanesTile [(0, { sbar := some 3, pos := 9 }), (1, { sbar := some 3, pos := 4 }), (7, {})]) busy up), 63,
      get_all (fun k (y : Slice) => 2 ≤ k → y.sbar = none) _ _ (fun _ _ => rfl) (by decide +kernel), by decide +kernel⟩⟩

theorem test_witness_NeighbourSend :
    (∃ (s : State) (t : Nat) (q : Nat) (sl : Nat) (dir : Int) (src : Nat) (dst : Nat) (b : Nat) (entry : Nat) (k : Nat),
      (t < gradeTiles s.grade) ∧ (neighbour t dir = some q) ∧ (sl < 8) ∧ (b % 64 = 0) ∧ (b ≤ 65536) ∧ (entry < 64) ∧ (0 < b) ∧
        (64 * k ≤ b) ∧ (placeOk s (unitRun s (tileUnit t)).owner false (.tile t) src b = true) ∧ (placeOk s (unitRun s
        (tileUnit t)).owner true (.tile q) dst b = true) ∧ (meetsBad s (tileAt t src) b = false) ∧ (hushed s t sl = false) ∧
        ((sbOf s (tileUnit q) entry).valid = true) ∧ ((sbOf s (tileUnit q) entry).producer = tileUnit t) ∧ (sbOcc (sbOf s
        (tileUnit q) entry) < (sbOf s (tileUnit q) entry).slots) ∧ (canIssue s t sl = true) ∧ (portTaken s dir q = false) ∧
        (portNext s t ({ dir := dir, to_ := q, src := src, dst := dst, b := b, entry := entry, stop := none } : XSend) =
        true))
    ∧ (∃ (s : State) (t : Nat) (q : Nat) (sl : Nat) (dir : Int) (src : Nat) (dst : Nat) (b : Nat) (entry : Nat) (k : Nat),
      (t < gradeTiles s.grade) ∧ (neighbour t dir = some q) ∧ (sl < 8) ∧ (b % 64 = 0) ∧ (b ≤ 65536) ∧ (entry < 64) ∧ (0 < b) ∧
        (64 * k ≤ b) ∧ (placeOk s (unitRun s (tileUnit t)).owner false (.tile t) src b = true) ∧ (placeOk s (unitRun s
        (tileUnit t)).owner true (.tile q) dst b = true) ∧ (meetsBad s (tileAt t src) b = false) ∧ (hushed s t sl = false) ∧
        ((sbOf s (tileUnit q) entry).valid = true) ∧ ((sbOf s (tileUnit q) entry).producer = tileUnit t) ∧ (sbOcc (sbOf s
        (tileUnit q) entry) < (sbOf s (tileUnit q) entry).slots) ∧ (canIssue s t sl = true) ∧ (portTaken s dir q = true))
    ∧ (∃ (s : State) (t : Nat) (q : Nat) (sl : Nat) (dir : Int) (src : Nat) (dst : Nat) (b : Nat) (entry : Nat) (k : Nat),
      (t < gradeTiles s.grade) ∧ (neighbour t dir = some q) ∧ (sl < 8) ∧ (b % 64 = 0) ∧ (b ≤ 65536) ∧ (entry < 64) ∧ (0 < b) ∧
        (64 * k ≤ b) ∧ (placeOk s (unitRun s (tileUnit t)).owner false (.tile t) src b = true) ∧ (placeOk s (unitRun s
        (tileUnit t)).owner true (.tile q) dst b = true) ∧ (meetsBad s (tileAt t src) b = false) ∧ (hushed s t sl = false) ∧
        ((sbOf s (tileUnit q) entry).valid = true) ∧ ((sbOf s (tileUnit q) entry).producer = tileUnit t) ∧ (sbOcc (sbOf s
        (tileUnit q) entry) < (sbOf s (tileUnit q) entry).slots) ∧ ((sliceOf (tileOf s t) sl).xstall = some
        ({ dir := dir, to_ := q, src := src, dst := dst, b := b, entry := entry, stop := none } : XSend)) ∧ (working s
        (tileUnit t) = true) ∧ (portTaken s dir q = false) ∧ (portNext s t
        ({ dir := dir, to_ := q, src := src, dst := dst, b := b, entry := entry, stop := none } : XSend) = true)) :=
  ⟨⟨(onTile 62 (lanesTile [(0, { a := [(15, { addr := 1048576 - 1024, stride := 512 })], sc := [(3, 17)], pos := 5 })]) busy
    (setShare 0x7F 319 0 64
    { up with grd := { up.grd with sb := [(0x7F * 256 + 63, { valid := true, slots := 2, producer := 0x7E, produced := 65535, consumed := 65534 })] }, tiles := [(63, { port := (0, 0) })], mem := { cells := [(tileAt 62 65535, 9)] } })),
    62, 63, 0, 1, 0, 983040, 65536, 63, 1024,
      by decide +kernel⟩,
    ⟨(onTile 62 (lanesTile [(0, { a := [(15, { addr := 1048576 - 1024, stride := 512 })], sc := [(3, 17)], pos := 5 })]) busy
      (setShare 0x7F 319 0 64
      { up with grd := { up.grd with sb := [(0x7F * 256 + 63, { valid := true, slots := 2, producer := 0x7E, produced := 65535, consumed := 65534 })] }, tiles := [(63, { port := (1, 1000000000001) })], mem := { cells := [(tileAt 62 65535, 9)] } })),
      62, 63, 0, 1, 0, 983040, 65536, 63, 1024,
      by decide +kernel⟩,
    ⟨(onTile 62 (lanesTile [(0,
      { xstall := some { dir := 1, to_ := 63, src := 0, dst := 983040, b := 65536, entry := 63 } })]) busy (setShare 0x7F 319
      0 64
      { up with grd := { up.grd with sb := [(0x7F * 256 + 63, { valid := true, slots := 2, producer := 0x7E, produced := 65535, consumed := 65534 })] }, tiles := [(63, { port := (0, 0) })], mem := { cells := [(tileAt 62 65535, 9)] } })),
      62, 63, 0, 1, 0, 983040, 65536, 63, 1024,
      by decide +kernel⟩⟩

theorem test_witness_Sampling :
    (∃ (s : State) (t : Nat) (n : Nat) (k : Nat) (addr : Nat) (sm : Nat) (sn : Nat) (sd : Nat) (vp : Option Nat),
      (t < gradeTiles s.grade) ∧ (n ≤ 1048576) ∧ (k ≤ 256) ∧ (drawOk sm sn vp = true) ∧ (sd < 15) ∧ (canIssue s t 0 = true) ∧
        ((tileOf s t).fused = true) ∧ (hushed s t 0 = false) ∧ (placeOk s (unitRun s (tileUnit t)).owner false (.tile t) addr
        (4 * n) = true) ∧ (meetsBad s (tileAt t addr) (4 * n) = false))
    ∧ (∃ (s : State) (t : Nat) (n : Nat) (k : Nat) (addr : Nat) (dst : Nat) (sm : Nat) (sn : Nat) (sd : Nat) (vp : Option
      Nat),
      (t < gradeTiles s.grade) ∧ (n ≤ 1048576) ∧ (k ≤ 256) ∧ (drawOk sm sn vp = true) ∧ (sd < 15) ∧ (canIssue s t 0 = true) ∧
        ((tileOf s t).fused = true) ∧ (hushed s t 0 = false) ∧ (placeOk s (unitRun s (tileUnit t)).owner false (.tile t) addr
        (4 * n) = true) ∧ (meetsBad s (tileAt t addr) (4 * n) = false) ∧ (placeOk s (unitRun s (tileUnit t)).owner true (.tile
        t) dst (8 * k) = true)) :=
  ⟨⟨(onTile 63 (lanesTile [(0, { a := [(15, { addr := 1048576 - 1024, stride := 512 })], sc := [(3, 17)], pos := 5 })]) busy
    up), 63, 3, 5, 0, 15, 14, 13, (some 31),
      by decide +kernel⟩,
    ⟨(onTile 63 (lanesTile [(0, { a := [(15, { addr := 1048576 - 1024, stride := 512 })], sc := [(3, 17)], pos := 5 })]) busy
      up), 63, 3, 5, 0, 64, 15, 14, 13, (some 31),
      by decide +kernel⟩⟩

theorem test_witness_RandomCommands :
    (∃ (s : State) (m : Nat) (c : Cmd) (k : Nat),
      (Due s m 0x0580 c) ∧ (k = field c.payload 0 2) ∧ (k ≤ 255) ∧ (field c.payload 2 2 = 3) ∧ ((ctxOf s k).state ≠ .absent) ∧
        ((ctxOf s k).part = targetOf m c) ∧ ((ctxOf s k).step = none))
    ∧ (∃ (s : State) (m : Nat) (c : Cmd) (k : Nat),
      (Due s m 0x0580 c) ∧ (k = field c.payload 0 2) ∧ (k ≤ 255) ∧ (field c.payload 2 2 = 3) ∧ ((ctxOf s k).state ≠ .absent) ∧
        ((ctxOf s k).part = targetOf m c) ∧ ((ctxOf s k).step ≠ none))
    ∧ (∃ (s : State) (m : Nat) (c : Cmd) (k : Nat),
      (Due s m 0x0581 c) ∧ (k = field c.payload 0 2) ∧ (k ≤ 255) ∧ ((ctxOf s k).state ≠ .absent) ∧ ((ctxOf s k).part =
        targetOf m c))
    ∧ (∃ (s : State) (m : Nat) (c : Cmd),
      (Due s m 0x0582 c) ∧ (field c.payload 20 2 ≤ 64)) :=
  ⟨⟨(taking 0 (cmdOf 0x580 63 (leBytes 32 0xffffffffffffffffffffffffffffffffffffffffffffffff00000000000300ff))
    ({ up with srv := { up.srv with ctxs := [(255, { state := .loaded, part := 63 })] }, parts := [(63, { state := .active })] })),
    0, (cmdOf 0x580 63 (leBytes 32 0xffffffffffffffffffffffffffffffffffffffffffffffff00000000000300ff)), 255,
      by decide +kernel⟩,
    ⟨(taking 0 (cmdOf 0x580 63 (leBytes 32 0xffffffffffffffffffffffffffffffffffffffffffffffff00000000000300ff))
      ({ up with srv := { up.srv with ctxs := [(255, { state := .loaded, part := 63, step := some {} })] }, parts := [(63, { state := .active })] })),
      0, (cmdOf 0x580 63 (leBytes 32 0xffffffffffffffffffffffffffffffffffffffffffffffff00000000000300ff)), 255,
      by decide +kernel⟩,
    ⟨(taking 0 (cmdOf 0x581 63 (leBytes 2 0xff))
      ({ up with srv := { up.srv with ctxs := [(255, { state := .loaded, part := 63 })] }, parts := [(63, { state := .active })] })),
      0, (cmdOf 0x581 63 (leBytes 2 0xff)), 255,
      by decide +kernel⟩,
    ⟨(taking 0 (cmdOf 0x582 255 (leBytes 40
      0xfffffffffffffffe00000000000000000000004000000000ffffffffffffffffffffffffffffffff)) up), 0, (cmdOf 0x582 255 (leBytes
      40 0xfffffffffffffffe00000000000000000000004000000000ffffffffffffffffffffffffffffffff)),
      by decide +kernel⟩⟩

theorem test_witness_FixedPointInstructions :
    (∃ (s : State) (t : Nat) (sl : Nat) (va : Nat) (vb : Nat),
      (RegIssues s (.mac t sl va vb) t sl))
    ∧ (∃ (s : State) (t : Nat) (sl : Nat) (vd : Nat) (va : Nat) (vb : Nat) (sh : ShiftSrc),
      (RegIssues s (.mul t sl vd va vb sh) t sl))
    ∧ (∃ (s : State) (t : Nat) (sl : Nat) (vd : Nat) (va : Nat) (vb : Nat),
      (RegIssues s (.add t sl vd va vb) t sl))
    ∧ (∃ (s : State) (t : Nat) (sl : Nat) (vd : Nat) (va : Nat) (vb : Nat),
      (RegIssues s (.sub t sl vd va vb) t sl))
    ∧ (∃ (s : State) (t : Nat) (sl : Nat) (vd : Nat) (va : Nat) (sh : ShiftSrc),
      (RegIssues s (.shift t sl vd va sh) t sl))
    ∧ (∃ (s : State) (t : Nat) (sl : Nat) (vd : Nat) (vp : Nat) (va : Nat) (vb : Nat),
      (RegIssues s (.select t sl vd vp va vb) t sl))
    ∧ (∃ (s : State) (t : Nat) (sl : Nat) (va : Nat) (vb : Nat),
      (RegIssues s (.cmac t sl va vb) t sl))
    ∧ (∃ (s : State) (t : Nat) (sl : Nat) (va : Nat) (vb : Nat),
      (RegIssues s (.cmacj t sl va vb) t sl))
    ∧ (∃ (s : State) (t : Nat) (sl : Nat) (va : Nat) (vb : Nat),
      (RegIssues s (.cmul t sl va vb) t sl))
    ∧ (∃ (s : State) (t : Nat) (sl : Nat) (f : Fmt) (vd : Nat) (sh : ShiftSrc),
      (RegIssues s (.accst t sl f vd sh) t sl))
    ∧ (∃ (s : State) (t : Nat) (sl : Nat) (x : Nat) (w : Nat) (k : Nat),
      (RegIssues s (.bfly2 t sl x w k) t sl))
    ∧ (∃ (s : State) (t : Nat) (sl : Nat) (x : Nat) (w : Nat) (k : Nat),
      (RegIssues s (.bfly4 t sl x w k) t sl))
    ∧ (∃ (s : State) (t : Nat) (sl : Nat) (x : Nat) (w : Nat) (k : Nat),
      (RegIssues s (.bfly8 t sl x w k) t sl)) :=
  ⟨⟨(onTile 63 (lanesTile [(0, { a := [(15, { addr := 1048576 - 1024, stride := 512 })], sc := [(3, 17)], pos := 5 })]) busy
    up), 63, 0, 1, 2,
      by decide +kernel⟩,
    ⟨(onTile 63 (lanesTile [(0, { a := [(15, { addr := 1048576 - 1024, stride := 512 })], sc := [(3, 17)], pos := 5 })]) busy
      up), 63, 0, 31, 1, 2, (.imm 15),
      by decide +kernel⟩,
    ⟨(onTile 63 (lanesTile [(0, { a := [(15, { addr := 1048576 - 1024, stride := 512 })], sc := [(3, 17)], pos := 5 })]) busy
      up), 63, 0, 31, 1, 2,
      by decide +kernel⟩,
    ⟨(onTile 63 (lanesTile [(0, { a := [(15, { addr := 1048576 - 1024, stride := 512 })], sc := [(3, 17)], pos := 5 })]) busy
      up), 63, 0, 31, 1, 2,
      by decide +kernel⟩,
    ⟨(onTile 63 (lanesTile [(0, { a := [(15, { addr := 1048576 - 1024, stride := 512 })], sc := [(3, 17)], pos := 5 })]) busy
      up), 63, 0, 31, 1, (.imm 15),
      by decide +kernel⟩,
    ⟨(onTile 63 (lanesTile [(0, { a := [(15, { addr := 1048576 - 1024, stride := 512 })], sc := [(3, 17)], pos := 5 })]) busy
      up), 63, 0, 31, 31, 1, 2,
      by decide +kernel⟩,
    ⟨(onTile 63 (lanesTile [(0, { a := [(15, { addr := 1048576 - 1024, stride := 512 })], sc := [(3, 17)], pos := 5 })]) busy
      up), 63, 0, 1, 2,
      by decide +kernel⟩,
    ⟨(onTile 63 (lanesTile [(0, { a := [(15, { addr := 1048576 - 1024, stride := 512 })], sc := [(3, 17)], pos := 5 })]) busy
      up), 63, 0, 1, 2,
      by decide +kernel⟩,
    ⟨(onTile 63 (lanesTile [(0, { a := [(15, { addr := 1048576 - 1024, stride := 512 })], sc := [(3, 17)], pos := 5 })]) busy
      up), 63, 0, 1, 2,
      by decide +kernel⟩,
    ⟨(onTile 63 (lanesTile [(0, { a := [(15, { addr := 1048576 - 1024, stride := 512 })], sc := [(3, 17)], pos := 5 })]) busy
      up), 63, 0, .q15, 31, (.imm 15),
      by decide +kernel⟩,
    ⟨(onTile 63 (lanesTile [(0, { a := [(15, { addr := 1048576 - 1024, stride := 512 })], sc := [(3, 17)], pos := 5 })]) busy
      up), 63, 0, 0, 31, 3,
      by decide +kernel⟩,
    ⟨(onTile 63 (lanesTile [(0, { a := [(15, { addr := 1048576 - 1024, stride := 512 })], sc := [(3, 17)], pos := 5 })]) busy
      up), 63, 0, 0, 29, 3,
      by decide +kernel⟩,
    ⟨(onTile 63 (lanesTile [(0, { a := [(15, { addr := 1048576 - 1024, stride := 512 })], sc := [(3, 17)], pos := 5 })]) busy
      up), 63, 0, 24, 0, 3,
      by decide +kernel⟩⟩

theorem test_witness_FloatInstructions :
    (∃ (s : State) (t : Nat) (sl : Nat) (f : Fmt) (vd : Nat) (va : Nat) (vb : Nat),
      (RegIssues s (.vadd t sl f vd va vb) t sl))
    ∧ (∃ (s : State) (t : Nat) (sl : Nat) (f : Fmt) (vd : Nat) (va : Nat) (vb : Nat),
      (RegIssues s (.vsub t sl f vd va vb) t sl))
    ∧ (∃ (s : State) (t : Nat) (sl : Nat) (f : Fmt) (vd : Nat) (va : Nat) (vb : Nat),
      (RegIssues s (.vmul t sl f vd va vb) t sl))
    ∧ (∃ (s : State) (t : Nat) (sl : Nat) (f : Fmt) (vd : Nat) (va : Nat) (vb : Nat) (vc : Nat),
      (RegIssues s (.vfma t sl f vd va vb vc) t sl))
    ∧ (∃ (s : State) (t : Nat) (sl : Nat) (f : Fmt) (vd : Nat) (va : Nat) (vb : Nat),
      (RegIssues s (.vmin t sl f vd va vb) t sl))
    ∧ (∃ (s : State) (t : Nat) (sl : Nat) (f : Fmt) (vd : Nat) (va : Nat) (vb : Nat),
      (RegIssues s (.vmax t sl f vd va vb) t sl))
    ∧ (∃ (s : State) (t : Nat) (sl : Nat) (f : Fmt) (vd : Nat) (va : Nat),
      (RegIssues s (.vexp t sl f vd va) t sl))
    ∧ (∃ (s : State) (t : Nat) (sl : Nat) (f : Fmt) (vd : Nat) (va : Nat),
      (RegIssues s (.vlog t sl f vd va) t sl))
    ∧ (∃ (s : State) (t : Nat) (sl : Nat) (f : Fmt) (vd : Nat) (va : Nat),
      (RegIssues s (.vrcp t sl f vd va) t sl))
    ∧ (∃ (s : State) (t : Nat) (sl : Nat) (f : Fmt) (vd : Nat) (va : Nat),
      (RegIssues s (.vrsqrt t sl f vd va) t sl))
    ∧ (∃ (s : State) (t : Nat) (sl : Nat) (f : Fmt) (vd : Nat) (va : Nat),
      (RegIssues s (.vtanh t sl f vd va) t sl))
    ∧ (∃ (s : State) (t : Nat) (sl : Nat) (f : Fmt) (vd : Nat) (va : Nat),
      (RegIssues s (.vsigm t sl f vd va) t sl))
    ∧ (∃ (s : State) (t : Nat) (sl : Nat) (src : Fmt) (dst : Fmt) (vd : Nat) (va : Nat) (r : Rounding),
      (RegIssues s (.cvt t sl src dst vd va r none) t sl))
    ∧ (∃ (s : State) (t : Nat) (sl : Nat) (dst : Fmt) (vd : Nat) (va : Nat) (sc : Nat) (r : Rounding),
      (RegIssues s (.mxq t sl dst vd va sc r none) t sl))
    ∧ (∃ (s : State) (t : Nat) (sl : Nat) (src : Fmt) (dst : Fmt) (vd : Nat) (va : Nat) (sc : Nat),
      (RegIssues s (.mxd t sl src dst vd va sc none) t sl)) :=
  ⟨⟨(onTile 63 (lanesTile [(0, { a := [(15, { addr := 1048576 - 1024, stride := 512 })], sc := [(3, 17)], pos := 5 })]) busy
    up), 63, 0, .b16, 31, 1, 2,
      by decide +kernel⟩,
    ⟨(onTile 63 (lanesTile [(0, { a := [(15, { addr := 1048576 - 1024, stride := 512 })], sc := [(3, 17)], pos := 5 })]) busy
      up), 63, 0, .b16, 31, 1, 2,
      by decide +kernel⟩,
    ⟨(onTile 63 (lanesTile [(0, { a := [(15, { addr := 1048576 - 1024, stride := 512 })], sc := [(3, 17)], pos := 5 })]) busy
      up), 63, 0, .b16, 31, 1, 2,
      by decide +kernel⟩,
    ⟨(onTile 63 (lanesTile [(0, { a := [(15, { addr := 1048576 - 1024, stride := 512 })], sc := [(3, 17)], pos := 5 })]) busy
      up), 63, 0, .b16, 31, 1, 2, 31,
      by decide +kernel⟩,
    ⟨(onTile 63 (lanesTile [(0, { a := [(15, { addr := 1048576 - 1024, stride := 512 })], sc := [(3, 17)], pos := 5 })]) busy
      up), 63, 0, .b16, 31, 1, 2,
      by decide +kernel⟩,
    ⟨(onTile 63 (lanesTile [(0, { a := [(15, { addr := 1048576 - 1024, stride := 512 })], sc := [(3, 17)], pos := 5 })]) busy
      up), 63, 0, .b16, 31, 1, 2,
      by decide +kernel⟩,
    ⟨(onTile 63 (lanesTile [(0, { a := [(15, { addr := 1048576 - 1024, stride := 512 })], sc := [(3, 17)], pos := 5 })]) busy
      up), 63, 0, .b16, 31, 1,
      by decide +kernel⟩,
    ⟨(onTile 63 (lanesTile [(0, { a := [(15, { addr := 1048576 - 1024, stride := 512 })], sc := [(3, 17)], pos := 5 })]) busy
      up), 63, 0, .b16, 31, 1,
      by decide +kernel⟩,
    ⟨(onTile 63 (lanesTile [(0, { a := [(15, { addr := 1048576 - 1024, stride := 512 })], sc := [(3, 17)], pos := 5 })]) busy
      up), 63, 0, .b16, 31, 1,
      by decide +kernel⟩,
    ⟨(onTile 63 (lanesTile [(0, { a := [(15, { addr := 1048576 - 1024, stride := 512 })], sc := [(3, 17)], pos := 5 })]) busy
      up), 63, 0, .b16, 31, 1,
      by decide +kernel⟩,
    ⟨(onTile 63 (lanesTile [(0, { a := [(15, { addr := 1048576 - 1024, stride := 512 })], sc := [(3, 17)], pos := 5 })]) busy
      up), 63, 0, .b16, 31, 1,
      by decide +kernel⟩,
    ⟨(onTile 63 (lanesTile [(0, { a := [(15, { addr := 1048576 - 1024, stride := 512 })], sc := [(3, 17)], pos := 5 })]) busy
      up), 63, 0, .b16, 31, 1,
      by decide +kernel⟩,
    ⟨(onTile 63 (lanesTile [(0, { a := [(15, { addr := 1048576 - 1024, stride := 512 })], sc := [(3, 17)], pos := 5 })]) busy
      up), 63, 0, .f32, .e4m3, 31, 0, (.sr 3 9),
      by decide +kernel⟩,
    ⟨(onTile 63 (lanesTile [(0, { a := [(15, { addr := 1048576 - 1024, stride := 512 })], sc := [(3, 17)], pos := 5 })]) busy
      up), 63, 0, .e2m1, 31, 0, 15, .rne,
      by decide +kernel⟩,
    ⟨(onTile 63 (lanesTile [(0, { a := [(15, { addr := 1048576 - 1024, stride := 512 })], sc := [(3, 17)], pos := 5 })]) busy
      up), 63, 0, .e2m1, .b16, 31, 0, 15,
      by decide +kernel⟩⟩

theorem test_witness_RandomInstructions :
    (∃ (s : State) (t : Nat) (sl : Nat) (vd : Nat) (sm : Nat) (sn : Nat) (vp : Option Nat),
      (RegIssues s (.rdraw t sl vd sm sn vp) t sl))
    ∧ (∃ (s : State) (t : Nat) (sl : Nat) (vd : Nat) (sm : Nat) (sn : Nat) (vp : Option Nat),
      (RegIssues s (.runi t sl vd sm sn vp) t sl))
    ∧ (∃ (s : State) (t : Nat) (sl : Nat) (vd : Nat) (sm : Nat) (sn : Nat) (vp : Option Nat),
      (RegIssues s (.rnormBm t sl vd sm sn vp) t sl))
    ∧ (∃ (s : State) (t : Nat) (sl : Nat) (vd : Nat) (sm : Nat) (sn : Nat) (vp : Option Nat),
      (RegIssues s (.rnormTab t sl vd sm sn vp) t sl)) :=
  ⟨⟨(onTile 63 (lanesTile [(0, { a := [(15, { addr := 1048576 - 1024, stride := 512 })], sc := [(3, 17)], pos := 5 })]) busy
    up), 63, 0, 30, 15, 14, (some 31),
      by decide +kernel⟩,
    ⟨(onTile 63 (lanesTile [(0, { a := [(15, { addr := 1048576 - 1024, stride := 512 })], sc := [(3, 17)], pos := 5 })]) busy
      up), 63, 0, 30, 15, 14, none,
      by decide +kernel⟩,
    ⟨(onTile 63 (lanesTile [(0, { a := [(15, { addr := 1048576 - 1024, stride := 512 })], sc := [(3, 17)], pos := 5 })]) busy
      up), 63, 0, 30, 15, 14, none,
      by decide +kernel⟩,
    ⟨(onTile 63 (lanesTile [(0, { a := [(15, { addr := 1048576 - 1024, stride := 512 })], sc := [(3, 17)], pos := 5 })]) busy
      up), 63, 0, 30, 15, 14, (some 31),
      by decide +kernel⟩⟩

theorem test_witness_QuadConversions :
    (∃ (s : State) (t : Nat) (sl : Nat) (vd : Nat) (va : Nat) (src : Fmt) (dst : Fmt) (r : Rounding) (q : QuadCvt),
      (wellFormed s.grade (.cvt t sl src dst vd va r (some q)) = true) ∧ (QuadFine s q [(q.sAddr, packedBytes q.src q.count)]
        [(q.dAddr, packedBytes q.dst q.count)]))
    ∧ (∃ (s : State) (t : Nat) (sl : Nat) (vd : Nat) (va : Nat) (sc : Nat) (dst : Fmt) (r : Rounding) (q : QuadCvt),
      (wellFormed s.grade (.mxq t sl dst vd va sc r (some q)) = true) ∧ (QuadFine s q [(q.sAddr, 4 * q.count)] [(q.dAddr,
        packedBytes q.dst q.count), (q.scale, (q.count + 31) / 32)]) ∧ (q.dAddr + packedBytes q.dst q.count ≤ q.scale))
    ∧ (∃ (s : State) (t : Nat) (sl : Nat) (vd : Nat) (va : Nat) (sc : Nat) (src : Fmt) (dst : Fmt) (q : QuadCvt),
      (wellFormed s.grade (.mxd t sl src dst vd va sc (some q)) = true) ∧ (QuadFine s q [(q.sAddr, packedBytes q.src q.count),
        (q.scale, (q.count + 31) / 32)] [(q.dAddr, packedBytes q.dst q.count)])) :=
  ⟨⟨(setShare 3 319 0 1 (updUnit 15 (fun _ => busy)
    { up with mem := { cells := [(arrayAt 3 2, 128), (arrayAt 3 3, 63), (arrayAt 3 64, 127)] } })), 0, 0, 0, 0, .f32, .b16,
    .rne,
    { quad := 15, src := .f32, dst := .b16, sAddr := 0, dAddr := 65536, scale := 65600, count := 3, rnd := .rne, rowStride := 1, cols := 1 },
      by decide +kernel⟩,
    ⟨(setShare 3 319 0 1 (updUnit 15 (fun _ => busy)
      { up with mem := { cells := [(arrayAt 3 2, 128), (arrayAt 3 3, 63), (arrayAt 3 64, 127)] } })), 0, 0, 0, 0, 0, .e2m1,
      .rne,
      { quad := 15, src := .f32, dst := .e2m1, sAddr := 0, dAddr := 65536, scale := 65600, count := 3, rnd := .rne, rowStride := 1, cols := 1 },
      by decide +kernel⟩,
    ⟨(setShare 3 319 0 1 (updUnit 15 (fun _ => busy)
      { up with mem := { cells := [(arrayAt 3 2, 128), (arrayAt 3 3, 63), (arrayAt 3 64, 127)] } })), 0, 0, 0, 0, 0, .e2m1,
      .b16,
      { quad := 15, src := .e2m1, dst := .b16, sAddr := 0, dAddr := 65536, scale := 64, count := 3, rnd := .rne, rowStride := 1, cols := 1 },
      by decide +kernel⟩⟩

theorem test_witness_TileLoadsAndStores :
    (∃ (s : State) (t : Nat) (v : Nat) (a : Nat),
      (laneShape (tileOf s t)) ∧ (t < gradeTiles s.grade) ∧ (v < 32) ∧ (a < 16) ∧ (canIssue s t 0 = true) ∧ ((tileOf s
        t).fused = true) ∧ (hushed s t 0 = false) ∧ (placeOk s ((unitRun s (tileUnit t)).owner) false (.tile t) (areaAddr
        (addrReg (tileOf s t) 0 a) / 64 * 64) 512 = true) ∧ (meetsBad s (tileAt t (areaAddr (addrReg (tileOf s t) 0 a) / 64 *
        64)) 512 = false))
    ∧ (∃ (s : State) (t : Nat) (v : Nat) (a : Nat),
      (laneShape (tileOf s t)) ∧ (t < gradeTiles s.grade) ∧ (v < 32) ∧ (a < 16) ∧ (canIssue s t 0 = true) ∧ ((tileOf s
        t).fused = true) ∧ (hushed s t 0 = false) ∧ (placeOk s ((unitRun s (tileUnit t)).owner) true (.tile t) (areaAddr
        (addrReg (tileOf s t) 0 a) / 64 * 64) 512 = true))
    ∧ (∃ (s : State) (t : Nat) (v : Nat) (a : Nat),
      (laneShape (tileOf s t)) ∧ (t < gradeTiles s.grade) ∧ (v + 1 < 32) ∧ (a < 16) ∧ (canIssue s t 0 = true) ∧ ((tileOf s
        t).fused = true) ∧ (hushed s t 0 = false) ∧ (placeOk s (unitRun s (tileUnit t)).owner false (.tile t) (areaAddr
        (addrReg (tileOf s t) 0 a) / 64 * 64) 1024 = true) ∧ (meetsBad s (tileAt t (areaAddr (addrReg (tileOf s t) 0 a) / 64 *
        64)) 1024 = false)) :=
  ⟨⟨(onTile 63 (lanesTile [(0, { a := [(15, { addr := 1048576 - 1024, stride := 512 })], sc := [(3, 17)], pos := 5 })]) busy
    up), 63, 31, 15,
      lanesTile_shape _, by decide +kernel⟩,
    ⟨(onTile 63 (lanesTile [(0, { a := [(15, { addr := 1048576 - 1024, stride := 512 })], sc := [(3, 17)], pos := 5 })]) busy
      up), 63, 31, 15,
      lanesTile_shape _, by decide +kernel⟩,
    ⟨(onTile 63 (lanesTile [(0, { a := [(15, { addr := 1048576 - 1024, stride := 512 })], sc := [(3, 17)], pos := 5 })]) busy
      up), 63, 30, 15,
      lanesTile_shape _, by decide +kernel⟩⟩

theorem test_witness_Sealing :
    (∃ (s : State) (k : Nat) (i : InstSpec),
      (SealHeard s k i) ∧ (corrNow s < tStart s (tableOf s k) (i.slot - 1)) ∧ (sealReason s k (tableOf s k) (sealInstance s k
        i) (sealOthers s k i) = 0))
    ∧ (∃ (s : State) (k : Nat) (i : InstSpec),
      (SealHeard s k i) ∧ (tStart s (tableOf s k) (i.slot - 1) ≤ corrNow s ∨ sealReason s k (tableOf s k) (sealInstance s k i)
        (sealOthers s k i) ≠ 0))
    ∧ (∃ (s : State) (k : Nat) (n : Nat),
      (k < 8) ∧ ((tableOf s k).state = .running) ∧ ((tableOf s k).n0 ≤ n) ∧ (tStart s (tableOf s k) (n - 1) ≤ corrNow s) ∧
        (instAt (tableOf s k) n = none) ∧ (∀ i ∈ (tableOf s k).insts, i.2.slot ≤ n) ∧ ((partOf s (tableOf s k).part).step ≠
        2))
    ∧ (∃ (s : State) (k : Nat) (n : Nat) (j : Nat) (i : Inst),
      (k < 8) ∧ ((tableOf s k).state = .running) ∧ ((tableOf s k).n0 ≤ n) ∧ (tStart s (tableOf s k) (n - 1) ≤ corrNow s) ∧
        ((instAt (tableOf s k) n).isSome = true) ∧ ((tableOf s k).insts.filter (fun x => x.2.slot + 1 < n && !x.2.reported &&
        slotOver s k x.2) = [(j, i)]) ∧ (i.idle = true) ∧ (instAt (tableOf s k) i.slot = some i) ∧ ((partOf s (tableOf s
        k).part).step ≠ 2)) :=
  ⟨⟨{ up with tts := { up.tts with tables := [(7, { state := .running, part := 63, n0 := 508626, idleEntries := [{ budget := 1000, deadlineOfs := 1000, unitBase := 0x7F, unitCount := 1 }], insts := [] })] }, parts := [(63, { state := .active, radio := true, radioSlot := 7, hdmBase := 65536, hdmLen := 65536 })] },
    7,
    { slot := 508628, paramBase := 64, paramLen := 64, entries := [{ launchOfs := 10, budget := 1000, deadlineOfs := 1010, unitBase := 0, unitCount := 2, kind := 0 }] },
      by decide +kernel⟩,
    ⟨{ up with tts := { up.tts with tables := [(7, { state := .running, part := 63, n0 := 508626, idleEntries := [{ budget := 1000, deadlineOfs := 1000, unitBase := 0x7F, unitCount := 1 }], insts := [] })] }, parts := [(63, { state := .active, radio := true, radioSlot := 7, hdmBase := 65536, hdmLen := 65536 })] },
      7,
      { slot := 508628, paramBase := 64, paramLen := 64, entries := [{ launchOfs := 10, budget := 1000, deadlineOfs := 1009, unitBase := 0, unitCount := 2, kind := 0 }] },
      by decide +kernel⟩,
    ⟨{ up with tts := { up.tts with tables := [(7, { state := .running, part := 63, n0 := 508626, idleEntries := [{ budget := 1000, deadlineOfs := 1000, unitBase := 0x7F, unitCount := 1 }], insts := [] })] }, parts := [(63, { state := .active, radio := true, radioSlot := 7, hdmBase := 65536, hdmLen := 65536 })] },
      7, 508627,
      by decide +kernel⟩,
    ⟨{ up with tts := { up.tts with tables := [(7, { state := .running, part := 63, n0 := 508617, idleEntries := [{ budget := 1000, deadlineOfs := 1000, unitBase := 0x7F, unitCount := 1 }], insts := [(3, { slot := 508627, start := 1000001372160, sealed := true }), (0, { slot := 508624, start := 999995473920, entries := [{ budget := 1000, deadlineOfs := 1000, unitBase := 0x7F, unitCount := 1 }], idle := true, gone := [0] })] })] }, parts := [(63, { state := .active, radio := true, radioSlot := 7, hdmBase := 65536, hdmLen := 65536 })] },
      7, 508627, 0,
      { slot := 508624, start := 999995473920, entries := [{ budget := 1000, deadlineOfs := 1000, unitBase := 0x7F, unitCount := 1 }], idle := true, gone := [0] },
      by decide +kernel⟩⟩

theorem test_witness_SealChecks :
    (∃ (s : State) (k : Nat) (t : FrameTable) (i : Inst) (others : List Sealed) (e : TEntry),
      (e ∈ i.entries) ∧ (sealReason s k t i others = 0) ∧ (e.kind = 0))
    ∧ (∃ (s : State) (k : Nat) (t : FrameTable) (i : Inst) (others : List Sealed) (e : TEntry),
      (e ∈ i.entries) ∧ (sealReason s k t i others = 0))
    ∧ (∃ (s : State) (k : Nat) (t : FrameTable) (i : Inst) (others : List Sealed) (a : Sealed) (b : Sealed) (u : _),
      (a ∈ instSealed s k t i) ∧ (b ∈ others) ∧ (sealReason s k t i others = 0) ∧ (u ∈ entryUnits a.entry) ∧ (u ∈ entryUnits
        b.entry) ∧ (0 < a.entry.budget) ∧ (0 < b.entry.budget))
    ∧ (∃ (s : State) (k : Nat) (t : FrameTable) (i : Inst) (others : List Sealed) (a : Sealed),
      (a ∈ instSealed s k t i) ∧ (sealReason s k t i others = 0))
    ∧ (∃ (s : State) (k : Nat) (t : FrameTable) (i : Inst) (others : List Sealed) (e : TEntry) (u : _),
      (e ∈ i.entries) ∧ (u ∈ entryUnits e) ∧ (sealReason s k t i others = 0))
    ∧ (∃ (s : State) (k : Nat) (t : FrameTable) (i : Inst) (others : List Sealed),
      (sealReason s k t i others = 0)) :=
  ⟨⟨up, 7, { state := .running, part := 63 },
    { slot := 508628, start := 1000003338240, entries := [{ launchOfs := 10, budget := 1000, deadlineOfs := 1010, unitBase := 0, unitCount := 2, kind := 0 }] },
    [{ table := 1, slot := 3, pos := 0, entry := { launchOfs := 0, budget := 1000, deadlineOfs := 1000, unitBase := 1, unitCount := 2, kind := 0 }, tick := 1000003339250 }],
    { launchOfs := 10, budget := 1000, deadlineOfs := 1010, unitBase := 0, unitCount := 2, kind := 0 },
      by decide +kernel⟩,
    ⟨up, 7, { state := .running, part := 63 },
      { slot := 508628, start := 1000003338240, entries := [{ launchOfs := 10, budget := 1000, deadlineOfs := 1010, unitBase := 0, unitCount := 2, kind := 0 }] },
      [{ table := 1, slot := 3, pos := 0, entry := { launchOfs := 0, budget := 1000, deadlineOfs := 1000, unitBase := 1, unitCount := 2, kind := 0 }, tick := 1000003339250 }],
      { launchOfs := 10, budget := 1000, deadlineOfs := 1010, unitBase := 0, unitCount := 2, kind := 0 },
      by decide +kernel⟩,
    ⟨up, 7, { state := .running, part := 63 },
      { slot := 508628, start := 1000003338240, entries := [{ launchOfs := 10, budget := 1000, deadlineOfs := 1010, unitBase := 0, unitCount := 2, kind := 0 }] },
      [{ table := 1, slot := 3, pos := 0, entry := { launchOfs := 0, budget := 1000, deadlineOfs := 1000, unitBase := 1, unitCount := 2, kind := 0 }, tick := 1000003339250 }],
      { table := 7, slot := 508628, pos := 0, entry := { launchOfs := 10, budget := 1000, deadlineOfs := 1010, unitBase := 0, unitCount := 2, kind := 0 }, tick := 1000003338250 },
      { table := 1, slot := 3, pos := 0, entry := { launchOfs := 0, budget := 1000, deadlineOfs := 1000, unitBase := 1, unitCount := 2, kind := 0 }, tick := 1000003339250 },
      1,
      by decide +kernel⟩,
    ⟨up, 7, { state := .running, part := 63 },
      { slot := 508628, start := 1000003338240, entries := [{ launchOfs := 10, budget := 1000, deadlineOfs := 1010, unitBase := 0, unitCount := 2, kind := 0 }] },
      [{ table := 1, slot := 3, pos := 0, entry := { launchOfs := 0, budget := 1000, deadlineOfs := 1000, unitBase := 1, unitCount := 2, kind := 0 }, tick := 1000003339250 }],
      { table := 7, slot := 508628, pos := 0, entry := { launchOfs := 10, budget := 1000, deadlineOfs := 1010, unitBase := 0, unitCount := 2, kind := 0 }, tick := 1000003338250 },
      by decide +kernel⟩,
    ⟨up, 7, { state := .running, part := 63 },
      { slot := 508628, start := 1000003338240, entries := [{ launchOfs := 10, budget := 1000, deadlineOfs := 1010, unitBase := 0, unitCount := 2, kind := 0 }] },
      [{ table := 1, slot := 3, pos := 0, entry := { launchOfs := 0, budget := 1000, deadlineOfs := 1000, unitBase := 1, unitCount := 2, kind := 0 }, tick := 1000003339250 }],
      { launchOfs := 10, budget := 1000, deadlineOfs := 1010, unitBase := 0, unitCount := 2, kind := 0 }, 1,
      by decide +kernel⟩,
    ⟨up, 7, { state := .running, part := 63 },
      { slot := 508628, start := 1000003338240, entries := [{ launchOfs := 10, budget := 1000, deadlineOfs := 1010, unitBase := 0, unitCount := 2, kind := 0 }] },
      [{ table := 1, slot := 3, pos := 0, entry := { launchOfs := 0, budget := 1000, deadlineOfs := 1000, unitBase := 1, unitCount := 2, kind := 0 }, tick := 1000003339250 }],
      by decide +kernel⟩⟩

theorem test_witness_EntryLaunch :
    (∃ (s : State) (k : Nat) (n : Nat) (p : Nat) (errs : List (CtlMem × Nat)) (i : Inst) (e : TEntry),
      (k < 9) ∧ (EntryDue s k n p errs i e) ∧ (∀ u ∈ entryUnits e, (unitRun s u).holder = .idle ∧ resvOn s u = none ∧
        inService s u = true)) :=
  ⟨{ up with tts := { up.tts with tables := [(7, { state := .running, part := 63, n0 := 508626, idleEntries := [{ budget := 1000, deadlineOfs := 1000, unitBase := 0x7F, unitCount := 1 }], insts := [(2, { slot := 508626, start := 999999406080, sealed := true, entries := [{ launchOfs := 593919, budget := 50, deadlineOfs := 3932160, unitBase := 0x7E, unitCount := 2, kind := 0 }] })] })] }, parts := [(63, { state := .active, radio := true, radioSlot := 7, hdmBase := 65536, hdmLen := 65536 })] },
    7, 508626, 0, [],
    { slot := 508626, start := 999999406080, sealed := true, entries := [{ launchOfs := 593919, budget := 50, deadlineOfs := 3932160, unitBase := 0x7E, unitCount := 2, kind := 0 }] },
    { launchOfs := 593919, budget := 50, deadlineOfs := 3932160, unitBase := 0x7E, unitCount := 2, kind := 0 },
      by decide +kernel⟩

theorem test_witness_EntryOverlap :
    (∃ (s : State) (k : Nat) (n : Nat) (p : Nat) (u : Nat) (errs : List (CtlMem × Nat)) (i : Inst) (e : TEntry) (r :
      Reservation),
      (k < 8) ∧ (EntryDue s k n p errs i e) ∧ (entryUnits e = [u]) ∧ (resvOn s u = some r)) :=
  ⟨{ up with tts := { up.tts with tables := [(7, { state := .running, part := 63, n0 := 508626, idleEntries := [{ budget := 1000, deadlineOfs := 1000, unitBase := 0x7F, unitCount := 1 }], insts := [(2, { slot := 508626, start := 999999406080, sealed := true, entries := [{ launchOfs := 593920, budget := 50, deadlineOfs := 3932160, unitBase := 0x7F, unitCount := 1, kind := 0 }] })] }), (6, { state := .running, part := 62, n0 := 508626, idleEntries := [{ budget := 1000, deadlineOfs := 1000, unitBase := 0x7F, unitCount := 1 }], insts := [] })], resv := [{ table := 6, slot := 508626, pos := 2, entry := { launchOfs := 0, budget := 9, deadlineOfs := 9, unitBase := 0x7E, unitCount := 2, kind := 0 }, start := 999999999995, finish := 1000000000001, deadline := 1000000000007 }] }, parts := [(63, { state := .active, radio := true, radioSlot := 7, hdmBase := 65536, hdmLen := 65536 })] },
    7, 508626, 0, 0x7F, [],
    { slot := 508626, start := 999999406080, sealed := true, entries := [{ launchOfs := 593920, budget := 50, deadlineOfs := 3932160, unitBase := 0x7F, unitCount := 1, kind := 0 }] },
    { launchOfs := 593920, budget := 50, deadlineOfs := 3932160, unitBase := 0x7F, unitCount := 1, kind := 0 },
    { table := 6, slot := 508626, pos := 2, entry := { launchOfs := 0, budget := 9, deadlineOfs := 9, unitBase := 0x7E, unitCount := 2, kind := 0 }, start := 999999999995, finish := 1000000000001, deadline := 1000000000007 },
      by decide +kernel⟩

theorem test_witness_StageAndReservationEnd :
    (∃ (s : State) (k : Nat) (n : Nat) (p : Nat) (r : Reservation),
      (k < 8) ∧ (resvOf s k n p = some r) ∧ (r.ended = none) ∧ (r.entry.kind = 0) ∧ (s.tmb.free < r.finish) ∧ (∀ u ∈
        entryUnits r.entry, stageAtEnd s k n p u = true))
    ∧ (∃ (s : State) (k : Nat) (n : Nat) (p : Nat) (e : Nat) (r : Reservation),
      (k < 8) ∧ (resvOf s k n p = some r) ∧ (r.ended = some e) ∧ (r.entry.kind = 0) ∧ (r.cause = 0) ∧ (r.finish ≤ s.tmb.free)
        ∧ ((partOf s (tableOf s k).part).step ≠ 2))
    ∧ (∃ (s : State) (k : Nat) (n : Nat) (p : Nat) (r : Reservation),
      (k < 8) ∧ (resvOf s k n p = some r) ∧ (r.ended = none) ∧ (r.entry.kind = 0) ∧ (r.cause = 0) ∧ (r.finish ≤ s.tmb.free) ∧
        ((partOf s (tableOf s k).part).step ≠ 2)) :=
  ⟨⟨{ up with tts := { up.tts with tables := [(7, { state := .running, part := 63, n0 := 508626, idleEntries := [{ budget := 1000, deadlineOfs := 1000, unitBase := 0x7F, unitCount := 1 }], insts := [(2, { slot := 508626, start := 999999406080, sealed := true, entries := [{ launchOfs := 593920, budget := 50, deadlineOfs := 3932160, unitBase := 0x7F, unitCount := 1, kind := 0 }], gone := [0] })] })], resv := [{ table := 7, slot := 508626, pos := 0, entry := { launchOfs := 593920, budget := 50, deadlineOfs := 3932160, unitBase := 0x7F, unitCount := 1, kind := 0 }, start := 999999999995, finish := 1000000000001, deadline := 1000000000007 }] }, grd := { up.grd with units := [(0x7F, { holder := .radio 7 508626 0, owner := 263 })] }, parts := [(63, { state := .active, radio := true, radioSlot := 7, hdmBase := 65536, hdmLen := 65536 })] },
    7, 508626, 0,
    { table := 7, slot := 508626, pos := 0, entry := { launchOfs := 593920, budget := 50, deadlineOfs := 3932160, unitBase := 0x7F, unitCount := 1, kind := 0 }, start := 999999999995, finish := 1000000000001, deadline := 1000000000007 },
      by decide +kernel⟩,
    ⟨{ up with tts := { up.tts with tables := [(7, { state := .running, part := 63, n0 := 508626, idleEntries := [{ budget := 1000, deadlineOfs := 1000, unitBase := 0x7F, unitCount := 1 }], insts := [(2, { slot := 508626, start := 999999406080, sealed := true, entries := [{ launchOfs := 593920, budget := 50, deadlineOfs := 3932160, unitBase := 0x7F, unitCount := 1, kind := 0 }], gone := [0] })] })], resv := [{ table := 7, slot := 508626, pos := 0, entry := { launchOfs := 593920, budget := 50, deadlineOfs := 3932160, unitBase := 0x7F, unitCount := 1, kind := 0 }, start := 999999999995, finish := 1000000000000, deadline := 1000000000007, ended := some 999999999998 }] }, grd := { up.grd with units := [(0x7F, { holder := .radio 7 508626 0, owner := 263 })] }, parts := [(63, { state := .active, radio := true, radioSlot := 7, hdmBase := 65536, hdmLen := 65536 })] },
      7, 508626, 0, 999999999998,
      { table := 7, slot := 508626, pos := 0, entry := { launchOfs := 593920, budget := 50, deadlineOfs := 3932160, unitBase := 0x7F, unitCount := 1, kind := 0 }, start := 999999999995, finish := 1000000000000, deadline := 1000000000007, ended := some 999999999998 },
      by decide +kernel⟩,
    ⟨{ up with tts := { up.tts with tables := [(7, { state := .running, part := 63, n0 := 508626, idleEntries := [{ budget := 1000, deadlineOfs := 1000, unitBase := 0x7F, unitCount := 1 }], insts := [(2, { slot := 508626, start := 999999406080, sealed := true, entries := [{ launchOfs := 593920, budget := 50, deadlineOfs := 3932160, unitBase := 0x7F, unitCount := 1, kind := 0 }], gone := [0] })] })], resv := [{ table := 7, slot := 508626, pos := 0, entry := { launchOfs := 593920, budget := 50, deadlineOfs := 3932160, unitBase := 0x7F, unitCount := 1, kind := 0 }, start := 999999999995, finish := 1000000000000, deadline := 1000000000007 }] }, grd := { up.grd with units := [(0x7F, { holder := .radio 7 508626 0, owner := 263 })] }, parts := [(63, { state := .active, radio := true, radioSlot := 7, hdmBase := 65536, hdmLen := 65536 })] },
      7, 508626, 0,
      { table := 7, slot := 508626, pos := 0, entry := { launchOfs := 593920, budget := 50, deadlineOfs := 3932160, unitBase := 0x7F, unitCount := 1, kind := 0 }, start := 999999999995, finish := 1000000000000, deadline := 1000000000007 },
      by decide +kernel⟩⟩

theorem test_witness_LendDecision :
    (∃ (s : State) (m : ReadyMicro),
      (chooseLent s = some m))
    ∧ (∃ (s : State) (m : ReadyMicro) (u : _),
      (u ∈ m.units) ∧ (chooseLent s = some m))
    ∧ (∃ (s : State) (m : ReadyMicro) (d : _),
      (chooseLent s = some m) ∧ (duskOf s m.units = some d))
    ∧ (∃ (s : State) (m : ReadyMicro) (m' : _),
      (m' ∈ s.tts.ready) ∧ (chooseLent s = some m) ∧ (mayLend s m' = true) ∧ (admits s m' = true) ∧ (letsBlock s m' = true))
    ∧ (∃ (s : State) (m : ReadyMicro),
      (s.tts.ready = [m]) ∧ (s.tts.waiting = []) ∧ (lendHeld s = false) ∧ (mayLend s m = true) ∧ (admits s m = true) ∧
        (m.blocking = false))
    ∧ (∃ (c : Nat),
      (c < 256))
    ∧ (∃ (s : State) (c : Nat) (m : Nat) (r : RunningMicro),
      (c < 256) ∧ (lentOf s c m = some r) ∧ ((microOf s c m).phase = .running) ∧ ((microOf s c m).status = .success) ∧
        ((microOf s c m).sync = []) ∧ (∀ u ∈ r.units, atEnd s u = true ∧ (unitRun s u).stopped = false) ∧ (dueOn s r.units =
        none) ∧ (∀ j, j < (stepMicros s c).length → (microOf s c j).phase ≠ .waiting)) :=
  ⟨⟨{ up with tts := { up.tts with tables := [(7, { state := .running, part := 63, n0 := 508626, idleEntries := [{ budget := 1000, deadlineOfs := 1000, unitBase := 0x7F, unitCount := 1 }], insts := [(2, { slot := 508626, start := 999999406080, sealed := true, entries := [{ launchOfs := 593920, budget := 50, deadlineOfs := 3932160, unitBase := 0x7F, unitCount := 1, kind := 0 }] })] })], ready := [{ ctx := 255, micro := 3, units := [15, 0x40], progs := [0, 0], bound := 1000, prio := 0, ready := 999960678400 }] }, pwr := { up.pwr with lendDuty := 64 }, srv := { up.srv with ctxs := [(255, { state := .running, part := 63 })] }, parts := [(63, { state := .active, radio := true, radioSlot := 7, hdmBase := 65536, hdmLen := 65536 })] },
    { ctx := 255, micro := 3, units := [15, 0x40], progs := [0, 0], bound := 1000, prio := 0, ready := 999960678400 },
      by decide +kernel⟩,
    ⟨{ up with tts := { up.tts with tables := [(7, { state := .running, part := 63, n0 := 508626, idleEntries := [{ budget := 1000, deadlineOfs := 1000, unitBase := 0x7F, unitCount := 1 }], insts := [(2, { slot := 508626, start := 999999406080, sealed := true, entries := [{ launchOfs := 593920, budget := 50, deadlineOfs := 3932160, unitBase := 0x7F, unitCount := 1, kind := 0 }] })] })], ready := [{ ctx := 255, micro := 3, units := [15, 0x40], progs := [0, 0], bound := 1000, prio := 0, ready := 999960678400 }] }, pwr := { up.pwr with lendDuty := 64 }, srv := { up.srv with ctxs := [(255, { state := .running, part := 63 })] }, parts := [(63, { state := .active, radio := true, radioSlot := 7, hdmBase := 65536, hdmLen := 65536 })] },
      { ctx := 255, micro := 3, units := [15, 0x40], progs := [0, 0], bound := 1000, prio := 0, ready := 999960678400 }, 15,
      by decide +kernel⟩,
    ⟨{ up with tts := { up.tts with tables := [(7, { state := .running, part := 63, n0 := 508626, idleEntries := [{ budget := 1000, deadlineOfs := 1000, unitBase := 0x7F, unitCount := 1 }], insts := [(2, { slot := 508626, start := 999999406080, sealed := true, entries := [{ launchOfs := 593920, budget := 50, deadlineOfs := 3932160, unitBase := 0x7F, unitCount := 1, kind := 0 }] })] })], ready := [{ ctx := 255, micro := 3, units := [15, 0x40], progs := [0, 0], bound := 1000, prio := 0, ready := 999960678400 }] }, pwr := { up.pwr with lendDuty := 64 }, srv := { up.srv with ctxs := [(255, { state := .running, part := 63 })] }, parts := [(63, { state := .active, radio := true, radioSlot := 7, hdmBase := 65536, hdmLen := 65536 })] },
      { ctx := 255, micro := 3, units := [15, 0x40], progs := [0, 0], bound := 1000, prio := 0, ready := 999960678400 },
      1000001368227,
      by decide +kernel⟩,
    ⟨{ up with tts := { up.tts with tables := [(7, { state := .running, part := 63, n0 := 508626, idleEntries := [{ budget := 1000, deadlineOfs := 1000, unitBase := 0x7F, unitCount := 1 }], insts := [(2, { slot := 508626, start := 999999406080, sealed := true, entries := [{ launchOfs := 593920, budget := 50, deadlineOfs := 3932160, unitBase := 0x7F, unitCount := 1, kind := 0 }] })] })], ready := [{ ctx := 255, micro := 3, units := [15, 0x40], progs := [0, 0], bound := 1000, prio := 0, ready := 999960678400 }] }, pwr := { up.pwr with lendDuty := 64 }, srv := { up.srv with ctxs := [(255, { state := .running, part := 63 })] }, parts := [(63, { state := .active, radio := true, radioSlot := 7, hdmBase := 65536, hdmLen := 65536 })] },
      { ctx := 255, micro := 3, units := [15, 0x40], progs := [0, 0], bound := 1000, prio := 0, ready := 999960678400 },
      { ctx := 255, micro := 3, units := [15, 0x40], progs := [0, 0], bound := 1000, prio := 0, ready := 999960678400 },
      by decide +kernel⟩,
    ⟨{ up with tts := { up.tts with tables := [(7, { state := .running, part := 63, n0 := 508626, idleEntries := [{ budget := 1000, deadlineOfs := 1000, unitBase := 0x7F, unitCount := 1 }], insts := [(2, { slot := 508626, start := 999999406080, sealed := true, entries := [{ launchOfs := 593920, budget := 50, deadlineOfs := 3932160, unitBase := 0x7F, unitCount := 1, kind := 0 }] })] })], ready := [{ ctx := 255, micro := 3, units := [15, 0x40], progs := [0, 0], bound := 1000, prio := 0, ready := 999960678400 }] }, pwr := { up.pwr with lendDuty := 64 }, srv := { up.srv with ctxs := [(255, { state := .running, part := 63 })] }, parts := [(63, { state := .active, radio := true, radioSlot := 7, hdmBase := 65536, hdmLen := 65536 })] },
      { ctx := 255, micro := 3, units := [15, 0x40], progs := [0, 0], bound := 1000, prio := 0, ready := 999960678400 },
      by decide +kernel⟩,
    ⟨255,
      by decide +kernel⟩,
    ⟨{ up with tts := { up.tts with tables := [(7, { state := .running, part := 63, n0 := 508626, idleEntries := [{ budget := 1000, deadlineOfs := 1000, unitBase := 0x7F, unitCount := 1 }], insts := [(2, { slot := 508626, start := 999999406080, sealed := true, entries := [{ launchOfs := 593920, budget := 50, deadlineOfs := 3932160, unitBase := 0x7F, unitCount := 1, kind := 0 }] })] })], lent := [{ ctx := 255, micro := 3, units := [15, 0x40], bound := 1000, launch := 999999999991, dusk := 1000000005000, snap := [] }] }, srv := { up.srv with ctxs := [(255, { state := .running, part := 63, img := { kinds := [{ micros := [{}, {}, {}, {}] }] }, step := some { micros := [(0, { phase := .done }), (1, { phase := .done }), (2, { phase := .done }), (3, { phase := .running })] } })] }, grd := { up.grd with units := [(15, { holder := .lent 255 3, owner := 255 }), (0x40, { holder := .lent 255 3, owner := 255 })] }, parts := [(63, { state := .active, radio := true, radioSlot := 7, hdmBase := 65536, hdmLen := 65536 })] },
      255, 3,
      { ctx := 255, micro := 3, units := [15, 0x40], bound := 1000, launch := 999999999991, dusk := 1000000005000, snap := [] },
      by decide +kernel⟩⟩

theorem test_witness_TableCommands :
    (∃ (s : State) (m : Nat) (k : Nat) (c : Cmd),
      (∃ h < 64, tabHas s.ops h = false) ∧ (Due s m 0x0440 c) ∧ (targetOf m c ≠ 0xFF) ∧ (partTable s (targetOf m c) = some k)
        ∧ ((tableOf s k).state = .empty) ∧ (∀ l ∈ s.tts.loads, l.2.1 ≠ targetOf m c) ∧ (field c.payload 0 1 ≤ 3) ∧ (field
        c.payload 1 1 = 0) ∧ (field c.payload 4 4 ≠ 0) ∧ (inShare s (targetOf m c) (field c.payload 8 8) (field c.payload 4 4)
        = true))
    ∧ (∃ (s : State) (h : Nat) (k : Nat) (p : Nat) (tp : Template) (o : LongOp) (tab : _) (sh : _),
      (loadCheck s p k (o.args.getD 0 0) (o.args.getD 1 0 = 1) tp = .ok (tab, sh)) ∧ (h < 64) ∧ (tabFind? s.tts.loads h = some
        (p, tp)) ∧ (opOf s h = some o) ∧ (o.finished = false) ∧ (partTable s p = some k) ∧ (NoneQueued s) ∧ ((tableOf s
        k).state = .empty) ∧ (tab.state = .empty))
    ∧ (∃ (s : State) (h : Nat) (k : Nat) (p : Nat) (tp : Template) (o : LongOp) (st : _) (res : _),
      (loadCheck s p k (o.args.getD 0 0) (o.args.getD 1 0 = 1) tp = .error (st, res)) ∧ (h < 64) ∧ (tabFind? s.tts.loads h =
        some (p, tp)) ∧ (opOf s h = some o) ∧ (o.finished = false) ∧ (partTable s p = some k) ∧ (NoneQueued s) ∧ ((tableOf s
        k).state = .empty))
    ∧ (∃ (s : State) (m : Nat) (k : Nat) (c : Cmd),
      (Due s m 0x0441 c) ∧ (targetOf m c ≠ 0xFF) ∧ (partTable s (targetOf m c) = some k) ∧ ((tableOf s k).state = .loaded) ∧
        (k < 8) ∧ (NoneQueued s))
    ∧ (∃ (s : State) (m : Nat) (k : Nat) (c : Cmd),
      (Due s m 0x0442 c) ∧ (targetOf m c ≠ 0xFF) ∧ (partTable s (targetOf m c) = some k) ∧ ((tableOf s k).state = .running))
    ∧ (∃ (s : State) (m : Nat) (k : Nat) (c : Cmd),
      (Due s m 0x0443 c) ∧ (targetOf m c ≠ 0xFF) ∧ (partTable s (targetOf m c) = some k))
    ∧ (∃ (s : State) (m : Nat) (c : Cmd),
      (Due s m 0x0444 c) ∧ (NoneQueued s) ∧ (field c.payload 0 4 ≠ 0) ∧ (field c.payload 4 4 ≠ 0) ∧ (field c.payload 8 4 ≠ 0)
        ∧ (field c.payload 0 4 ≤ 196608) ∧ (field c.payload 12 1 ≤ 15))
    ∧ (∃ (s : State) (m : Nat) (c : Cmd),
      (Due s m 0x0444 c) ∧ (NoneQueued s) ∧ (field c.payload 0 4 = 0)) :=
  ⟨⟨(taking 0 (cmdOf 0x440 63 (leBytes 16 0x100000001000000000003))
    ({ up with tts := { up.tts with tables := [] }, parts := [(63, { state := .active, radio := true, radioSlot := 7, hdmBase := 65536, hdmLen := 65536 })] })),
    0, 7, (cmdOf 0x440 63 (leBytes 16 0x100000001000000000003)),
      ⟨0, by decide +kernel, by decide +kernel⟩, by decide +kernel⟩,
    ⟨{ up with tts := { up.tts with tables := [], loads := [(63, (63, { cells := [], placement := { shape := { quadrants := [1], tiles := [1], movers := [0], arrayGranules := [], tileGranules := [], dramGb := [0], fabricPorts := [0] } } }))] }, ops := [(63, { mbx := 0, opcode := 0x0440, part := 63, args := [0, 0] })], parts := [(63, { state := .active, radio := true, radioSlot := 7, hdmBase := 65536, hdmLen := 65536 })] },
      63, 7, 63,
      { cells := [], placement := { shape := { quadrants := [1], tiles := [1], movers := [0], arrayGranules := [], tileGranules := [], dramGb := [0], fabricPorts := [0] } } },
      { mbx := 0, opcode := 0x0440, part := 63, args := [0, 0] },
      { part := 63, tmpl := { cells := [], placement := { shape := { quadrants := [1], tiles := [1], movers := [0], arrayGranules := [], tileGranules := [], dramGb := [0], fabricPorts := [0] } } }, bind := { regions := [0], quads := [[0]], tiles := [[64]], movers := [[]] } },
      [],
      rfl, by decide +kernel⟩,
    ⟨{ up with tts := { up.tts with tables := [], loads := [(63, (63, { cells := [], placement := { shape := { quadrants := [5], tiles := [1], movers := [0], arrayGranules := [], tileGranules := [], dramGb := [0], fabricPorts := [0] } } }))] }, ops := [(63, { mbx := 0, opcode := 0x0440, part := 63, args := [0, 0] })], parts := [(63, { state := .active, radio := true, radioSlot := 7, hdmBase := 65536, hdmLen := 65536 })] },
      63, 7, 63,
      { cells := [], placement := { shape := { quadrants := [5], tiles := [1], movers := [0], arrayGranules := [], tileGranules := [], dramGb := [0], fabricPorts := [0] } } },
      { mbx := 0, opcode := 0x0440, part := 63, args := [0, 0] }, .imageInvalid, [],
      rfl, by decide +kernel⟩,
    ⟨(taking 0 (cmdOf 0x441 63 ([]))
      ({ up with tts := { up.tts with tables := [(7, { state := .loaded, part := 63, n0 := 0, idleEntries := [{ budget := 1000, deadlineOfs := 1000, unitBase := 0x7F, unitCount := 1 }], insts := [] })] }, parts := [(63, { state := .active, radio := true, radioSlot := 7, hdmBase := 65536, hdmLen := 65536 })] })),
      0, 7, (cmdOf 0x441 63 ([])),
      by decide +kernel⟩,
    ⟨(taking 0 (cmdOf 0x442 63 (leBytes 8 0xe8d4a51000))
      ({ up with tts := { up.tts with tables := [(7, { state := .running, part := 63, n0 := 508626, idleEntries := [{ budget := 1000, deadlineOfs := 1000, unitBase := 0x7F, unitCount := 1 }], insts := [(2, { slot := 508626, start := 999999406080, sealed := true, entries := [{ launchOfs := 593920, budget := 50, deadlineOfs := 3932160, unitBase := 0x7F, unitCount := 1, kind := 0 }] })] })] }, parts := [(63, { state := .active, radio := true, radioSlot := 7, hdmBase := 65536, hdmLen := 65536 })] })),
      0, 7, (cmdOf 0x442 63 (leBytes 8 0xe8d4a51000)),
      by decide +kernel⟩,
    ⟨(taking 79 (cmdOf 0x443 63 ([]))
      ({ up with tts := { up.tts with tables := [(7, { state := .running, part := 63, n0 := 508626, idleEntries := [{ budget := 1000, deadlineOfs := 1000, unitBase := 0x7F, unitCount := 1 }], insts := [] })] }, parts := [(63, { state := .active, radio := true, radioSlot := 7, hdmBase := 65536, hdmLen := 65536 })] })),
      79, 7, (cmdOf 0x443 63 ([])),
      by decide +kernel⟩,
    ⟨(taking 0 (cmdOf 0x444 255 (leBytes 16 0xf000000010000000100030000))
      ({ up with tts := { up.tts with tables := [(7, { state := .running, part := 63, n0 := 508626, idleEntries := [{ budget := 1000, deadlineOfs := 1000, unitBase := 0x7F, unitCount := 1 }], insts := [] })] }, parts := [(63, { state := .active, radio := true, radioSlot := 7, hdmBase := 65536, hdmLen := 65536 })] })),
      0, (cmdOf 0x444 255 (leBytes 16 0xf000000010000000100030000)),
      by decide +kernel⟩,
    ⟨(taking 0 (cmdOf 0x444 255 (leBytes 16 0))
      ({ up with tts := { up.tts with tables := [(7, { state := .running, part := 63, n0 := 508626, idleEntries := [{ budget := 1000, deadlineOfs := 1000, unitBase := 0x7F, unitCount := 1 }], insts := [] })] }, parts := [(63, { state := .active, radio := true, radioSlot := 7, hdmBase := 65536, hdmLen := 65536 })] })),
      0, (cmdOf 0x444 255 (leBytes 16 0)),
      by decide +kernel⟩⟩

theorem test_witness_WireCompression :
    (∃ (w : Nat) (l : List Int) (e : _),
      (w = 8 ∨ w = 9 ∨ w = 12 ∨ w = 14) ∧ (∀ x ∈ l, -32768 ≤ x ∧ x ≤ 32767) ∧ (e ≤ 16 - w) ∧ (bfpFits w e l = true))
    ∧ (∃ (w : Nat) (l : List Int) (e : _),
      (e < bfpExp w l) ∧ (w = 8 ∨ w = 9 ∨ w = 12 ∨ w = 14) ∧ (∀ x ∈ l, -32768 ≤ x ∧ x ≤ 32767))
    ∧ (∃ (w : Nat) (l : List Int),
      (w = 8 ∨ w = 9 ∨ w = 12 ∨ w = 14) ∧ (∀ x ∈ l, -32768 ≤ x ∧ x ≤ 32767))
    ∧ (∃ (w : Nat) (l : List Int) (x : _),
      (x ∈ l) ∧ (w = 8 ∨ w = 9 ∨ w = 12 ∨ w = 14) ∧ (∀ x ∈ l, -32768 ≤ x ∧ x ≤ 32767) ∧ (bfpFits w (bfpExp w l) l = true))
    ∧ (∃ (w : Nat) (l : List Int) (e : Nat) (m : Int),
      (w = 8 ∨ w = 9 ∨ w = 12 ∨ w = 14) ∧ (∀ x ∈ l, -32768 ≤ x ∧ x ≤ 32767) ∧ (-2 ^ (w - 1) ≤ m) ∧ (m < 2 ^ (w - 1)) ∧ (e ≤ 16
        - w)) :=
  ⟨⟨9, [32639, -32768, 5], 7,
      by decide +kernel⟩,
    ⟨9, [32639, -32768, 5], 6,
      by decide +kernel⟩,
    ⟨9, [32639, -32768, 5],
      by decide +kernel⟩,
    ⟨9, [32639, -32768, 5], 32639,
      by decide +kernel⟩,
    ⟨9, [32639, -32768, 5], 7, (-256),
      by decide +kernel⟩⟩

theorem test_witness_FrameChecks :
    (∃ (s : State) (mac : Nat) (f : RxFrame),
      (mac < 32) ∧ ((macOf s mac).link = true) ∧ (4 * 2 ^ 20 < rxHeld s (mac / 4) + f.len))
    ∧ (∃ (s : State) (mac : Nat) (f : RxFrame),
      (mac < 32) ∧ ((macOf s mac).link = true) ∧ (rxHeld s (mac / 4) + f.len ≤ 4 * 2 ^ 20) ∧ (f.fcsOk = false ∨ f.len < 64 ∨
        (macOf s mac).maxFrame < f.len))
    ∧ (∃ (s : State) (mac : Nat) (f : RxFrame),
      (mac < 32) ∧ ((macOf s mac).link = true) ∧ (rxHeld s (mac / 4) + f.len ≤ 4 * 2 ^ 20) ∧ (f.fcsOk = true) ∧ (64 ≤ f.len) ∧
        (f.len ≤ (macOf s mac).maxFrame) ∧ (destOk (macOf s mac) f.dest = false))
    ∧ (∃ (s : State) (mac : Nat) (f : RxFrame) (i : Nat),
      (mac < 32) ∧ ((macOf s mac).link = true) ∧ (rxHeld s (mac / 4) + f.len ≤ 4 * 2 ^ 20) ∧ (f.fcsOk = true) ∧ (64 ≤ f.len) ∧
        (f.len ≤ (macOf s mac).maxFrame) ∧ (destOk (macOf s mac) f.dest = true) ∧ (f.doubleTag = false) ∧ (f.vid = (if (macOf
        s mac).vid = 0xFFFF then none else some (macOf s mac).vid)) ∧ (policerFor (macOf s mac) f = some i) ∧ ((tabGet (macOf
        s mac).policers i {}).tokens < f.len))
    ∧ (∃ (s : State) (mac : Nat) (f : RxFrame) (u : UPacket),
      (PassesMac s mac f) ∧ (f.etype = 0xAEFE) ∧ (f.upacket = some u) ∧ (u.revision ≠ 1 ∨ u.cbit = true ∨ u.msgType ≠ 0 ∨
        u.sizeOk = false ∨ u.ebit = false)) :=
  ⟨⟨{ up with fh := { up.fh with rxFill := [(7, (4194241, 1000000000000))], modes := [(7, 3)], macs := [(31, { link := true })], binds := [] } },
    31,
    { fcsOk := true, len := 64, dest := 281474976710655, vid := none, doubleTag := false, etype := 44798, esmc := false, cap16 := 16000000013088, upacket := none, bytes := [] },
      by decide +kernel⟩,
    ⟨{ up with fh := { up.fh with modes := [(7, 3)], macs := [(31, { link := true })], binds := [] } }, 31,
      { fcsOk := true, len := 63, dest := 281474976710655, vid := none, doubleTag := false, etype := 44798, esmc := false, cap16 := 16000000013088, upacket := none, bytes := [] },
      by decide +kernel⟩,
    ⟨{ up with fh := { up.fh with modes := [(7, 3)], macs := [(31, { link := true })], binds := [] } }, 31,
      { fcsOk := true, len := 9216, dest := 5, vid := none, doubleTag := false, etype := 44798, esmc := false, cap16 := 16000000013088, upacket := none, bytes := [] },
      by decide +kernel⟩,
    ⟨{ up with fh := { up.fh with modes := [(7, 3)], macs := [(31, { link := true, policers := [(63, { rate := 1, etype := 0xAEFE, tokens := 63 })] })], binds := [] } },
      31,
      { fcsOk := true, len := 64, dest := 281474976710655, vid := none, doubleTag := false, etype := 44798, esmc := false, cap16 := 16000000013088, upacket := some ({ revision := 1, cbit := false, msgType := 0, sizeOk := true, ebit := true, eaxc := 65535, seqId := 0, frameId := 0, subframe := 0, slot := 0, symbol := 0, sections := [] }), bytes := [] },
      63,
      by decide +kernel⟩,
    ⟨{ up with fh := { up.fh with modes := [(7, 3)], macs := [(31, { link := true })], binds := [] } }, 31,
      { fcsOk := true, len := 64, dest := 281474976710655, vid := none, doubleTag := false, etype := 44798, esmc := false, cap16 := 16000000013088, upacket := some ({ revision := 0, cbit := false, msgType := 0, sizeOk := true, ebit := true, eaxc := 65535, seqId := 0, frameId := 0, subframe := 0, slot := 0, symbol := 0, sections := [] }), bytes := [] },
      { revision := 0, cbit := false, msgType := 0, sizeOk := true, ebit := true, eaxc := 65535, seqId := 0, frameId := 0, subframe := 0, slot := 0, symbol := 0, sections := [] },
      by decide +kernel⟩⟩

theorem test_witness_ReceiveWindow :
    (∃ (s : State) (mac : Nat) (id : Nat) (n : Nat) (f : RxFrame) (u : UPacket) (b : FhBinding) (x : USection) (bytes : List
      Byte),
      (PassesMac s mac f) ∧ (f.etype = 0xAEFE) ∧ (f.upacket = some u) ∧ (u.revision = 1) ∧ (u.cbit = false) ∧ (u.msgType = 0)
        ∧ (u.sizeOk = true) ∧ (u.ebit = true) ∧ (bindingFor s mac u.eaxc = some (id, b)) ∧ (packetOk b u = true) ∧ (packetSlot
        s b u (rxStamp s mac f.cap16).1 = some n) ∧ (symBound b n u.symbol = true) ∧ (u.sections = [x]) ∧ (x.numPrb = 1) ∧
        (x.prbs = [bytes]) ∧ (bytes.length = prbBytes b.comp) ∧ (b.ecp = true → b.mu = 2) ∧ (((rxStamp s mac f.cap16).1 : Int)
        < airStart s b n u.symbol + b.f0))
    ∧ (∃ (s : State) (mac : Nat) (id : Nat) (n : Nat) (f : RxFrame) (u : UPacket) (b : FhBinding) (x : USection) (bytes : List
      Byte),
      (PassesMac s mac f) ∧ (f.etype = 0xAEFE) ∧ (f.upacket = some u) ∧ (u.revision = 1) ∧ (u.cbit = false) ∧ (u.msgType = 0)
        ∧ (u.sizeOk = true) ∧ (u.ebit = true) ∧ (bindingFor s mac u.eaxc = some (id, b)) ∧ (packetOk b u = true) ∧ (packetSlot
        s b u (rxStamp s mac f.cap16).1 = some n) ∧ (symBound b n u.symbol = true) ∧ (u.sections = [x]) ∧ (x.numPrb = 1) ∧
        (x.prbs = [bytes]) ∧ (bytes.length = prbBytes b.comp) ∧ (b.ecp = true → b.mu = 2) ∧ (airStart s b n u.symbol + b.f0 ≤
        (rxStamp s mac f.cap16).1) ∧ (airStart s b n u.symbol + b.f1 ≤ (rxStamp s mac f.cap16).1))
    ∧ (∃ (s : State) (mac : Nat) (id : Nat) (n : Nat) (f : RxFrame) (u : UPacket) (b : FhBinding) (x : USection) (bytes : List
      Byte),
      (PassesMac s mac f) ∧ (f.etype = 0xAEFE) ∧ (f.upacket = some u) ∧ (u.revision = 1) ∧ (u.cbit = false) ∧ (u.msgType = 0)
        ∧ (u.sizeOk = true) ∧ (u.ebit = true) ∧ (bindingFor s mac u.eaxc = some (id, b)) ∧ (packetOk b u = true) ∧ (packetSlot
        s b u (rxStamp s mac f.cap16).1 = some n) ∧ (symBound b n u.symbol = true) ∧ (u.sections = [x]) ∧ (x.numPrb = 1) ∧
        (x.prbs = [bytes]) ∧ (bytes.length = prbBytes b.comp) ∧ (b.ecp = true → b.mu = 2) ∧ (airStart s b n u.symbol + b.f0 ≤
        (rxStamp s mac f.cap16).1) ∧ (((rxStamp s mac f.cap16).1 : Int) < airStart s b n u.symbol + b.f1) ∧ (prbPresent s b n
        u.symbol x.startPrb = false))
    ∧ (∃ (s : State) (mac : Nat) (id : Nat) (n : Nat) (f : RxFrame) (u : UPacket) (b : FhBinding) (x : USection) (bytes : List
      Byte),
      (PassesMac s mac f) ∧ (f.etype = 0xAEFE) ∧ (f.upacket = some u) ∧ (u.revision = 1) ∧ (u.cbit = false) ∧ (u.msgType = 0)
        ∧ (u.sizeOk = true) ∧ (u.ebit = true) ∧ (bindingFor s mac u.eaxc = some (id, b)) ∧ (packetOk b u = true) ∧ (packetSlot
        s b u (rxStamp s mac f.cap16).1 = some n) ∧ (symBound b n u.symbol = true) ∧ (u.sections = [x]) ∧ (x.numPrb = 1) ∧
        (x.prbs = [bytes]) ∧ (bytes.length = prbBytes b.comp) ∧ (b.ecp = true → b.mu = 2) ∧ (airStart s b n u.symbol + b.f0 ≤
        (rxStamp s mac f.cap16).1) ∧ (((rxStamp s mac f.cap16).1 : Int) < airStart s b n u.symbol + b.f1) ∧ (prbPresent s b n
        u.symbol x.startPrb = true)) :=
  ⟨⟨{ up with fh := { up.fh with modes := [(7, 3)], macs := [(31, { link := true })], binds := [(4095, { part := 63, mac := 31, comp := 1, mu := 0, eaxc := 65535, prbCount := 512, cell := 63, f0 := 172033, f1 := 172037, fbBase := 1048576 })] } },
    31, 4095, 508626,
    { fcsOk := true, len := 64, dest := 281474976710655, vid := none, doubleTag := false, etype := 44798, esmc := false, cap16 := 16000000013088, upacket := (some { revision := 1, cbit := false, msgType := 0, sizeOk := true, ebit := true, eaxc := 65535, seqId := 0, frameId := 174, subframe := 6, slot := 0, symbol := 3, sections := [{ startPrb := 511, numPrb := 1, compHdr := none, prbs := [List.replicate 25 9] }] }), bytes := [] },
    { revision := 1, cbit := false, msgType := 0, sizeOk := true, ebit := true, eaxc := 65535, seqId := 0, frameId := 174, subframe := 6, slot := 0, symbol := 3, sections := [{ startPrb := 511, numPrb := 1, compHdr := none, prbs := [List.replicate 25 9] }] },
    { part := 63, mac := 31, comp := 1, mu := 0, eaxc := 65535, prbCount := 512, cell := 63, f0 := 172033, f1 := 172037, fbBase := 1048576 },
    { startPrb := 511, numPrb := 1, compHdr := none, prbs := [List.replicate 25 9] }, (List.replicate 25 9),
      by decide +kernel⟩,
    ⟨{ up with fh := { up.fh with modes := [(7, 3)], macs := [(31, { link := true })], binds := [(4095, { part := 63, mac := 31, comp := 1, mu := 0, eaxc := 65535, prbCount := 512, cell := 63, f0 := 172023, f1 := 172032, fbBase := 1048576 })] } },
      31, 4095, 508626,
      { fcsOk := true, len := 64, dest := 281474976710655, vid := none, doubleTag := false, etype := 44798, esmc := false, cap16 := 16000000013088, upacket := (some { revision := 1, cbit := false, msgType := 0, sizeOk := true, ebit := true, eaxc := 65535, seqId := 0, frameId := 174, subframe := 6, slot := 0, symbol := 3, sections := [{ startPrb := 511, numPrb := 1, compHdr := none, prbs := [List.replicate 25 9] }] }), bytes := [] },
      { revision := 1, cbit := false, msgType := 0, sizeOk := true, ebit := true, eaxc := 65535, seqId := 0, frameId := 174, subframe := 6, slot := 0, symbol := 3, sections := [{ startPrb := 511, numPrb := 1, compHdr := none, prbs := [List.replicate 25 9] }] },
      { part := 63, mac := 31, comp := 1, mu := 0, eaxc := 65535, prbCount := 512, cell := 63, f0 := 172023, f1 := 172032, fbBase := 1048576 },
      { startPrb := 511, numPrb := 1, compHdr := none, prbs := [List.replicate 25 9] }, (List.replicate 25 9),
      by decide +kernel⟩,
    ⟨{ up with fh := { up.fh with modes := [(7, 3)], macs := [(31, { link := true })], binds := [(4095, { part := 63, mac := 31, comp := 1, mu := 0, eaxc := 65535, prbCount := 512, cell := 63, f0 := 172032, f1 := 172033, fbBase := 1048576 })] } },
      31, 4095, 508626,
      { fcsOk := true, len := 64, dest := 281474976710655, vid := none, doubleTag := false, etype := 44798, esmc := false, cap16 := 16000000013088, upacket := (some { revision := 1, cbit := false, msgType := 0, sizeOk := true, ebit := true, eaxc := 65535, seqId := 0, frameId := 174, subframe := 6, slot := 0, symbol := 3, sections := [{ startPrb := 511, numPrb := 1, compHdr := none, prbs := [List.replicate 25 9] }] }), bytes := [] },
      { revision := 1, cbit := false, msgType := 0, sizeOk := true, ebit := true, eaxc := 65535, seqId := 0, frameId := 174, subframe := 6, slot := 0, symbol := 3, sections := [{ startPrb := 511, numPrb := 1, compHdr := none, prbs := [List.replicate 25 9] }] },
      { part := 63, mac := 31, comp := 1, mu := 0, eaxc := 65535, prbCount := 512, cell := 63, f0 := 172032, f1 := 172033, fbBase := 1048576 },
      { startPrb := 511, numPrb := 1, compHdr := none, prbs := [List.replicate 25 9] }, (List.replicate 25 9),
      by decide +kernel⟩,
    ⟨{ up with fh := { up.fh with modes := [(7, 3)], macs := [(31, { link := true })], binds := [(4095, { part := 63, mac := 31, comp := 1, mu := 0, eaxc := 65535, prbCount := 512, cell := 63, f0 := 172032, f1 := 172033, fbBase := 1048576 })] }, mem := { cells := [(dramAt (bitmapAddr { part := 63, mac := 31, comp := 1, mu := 0, eaxc := 65535, prbCount := 512, cell := 63, f0 := 172032, f1 := 172033, fbBase := 1048576 } 508626 3 + 63), 128)] } },
      31, 4095, 508626,
      { fcsOk := true, len := 64, dest := 281474976710655, vid := none, doubleTag := false, etype := 44798, esmc := false, cap16 := 16000000013088, upacket := (some { revision := 1, cbit := false, msgType := 0, sizeOk := true, ebit := true, eaxc := 65535, seqId := 0, frameId := 174, subframe := 6, slot := 0, symbol := 3, sections := [{ startPrb := 511, numPrb := 1, compHdr := none, prbs := [List.replicate 25 9] }] }), bytes := [] },
      { revision := 1, cbit := false, msgType := 0, sizeOk := true, ebit := true, eaxc := 65535, seqId := 0, frameId := 174, subframe := 6, slot := 0, symbol := 3, sections := [{ startPrb := 511, numPrb := 1, compHdr := none, prbs := [List.replicate 25 9] }] },
      { part := 63, mac := 31, comp := 1, mu := 0, eaxc := 65535, prbCount := 512, cell := 63, f0 := 172032, f1 := 172033, fbBase := 1048576 },
      { startPrb := 511, numPrb := 1, compHdr := none, prbs := [List.replicate 25 9] }, (List.replicate 25 9),
      by decide +kernel⟩⟩

theorem test_witness_SymbolWindows :
    (∃ (s : State) (id : Nat) (n : Nat) (k : Nat) (b : FhBinding),
      (id < 4096) ∧ (k < 14) ∧ (tabFind? s.fh.binds id = some b) ∧ (b.down = false) ∧ (airStart s b n k + b.f0 ≤ corrNow s))
    ∧ (∃ (s : State) (id : Nat) (n : Nat) (k : Nat) (b : FhBinding),
      (id < 4096) ∧ (k < 14) ∧ (tabFind? s.fh.binds id = some b) ∧ (b.down = false) ∧ ((bindCell s b).state ≠ .standby) ∧
        (airStart s b n k + b.f1 ≤ corrNow s) ∧ (symBound b n k = true) ∧ (∀ p, b.posted = some p → p < symAbs b n k) ∧
        (b.consumer ≠ 0xFF) ∧ ((sbOf s b.consumer b.entry).valid = true) ∧ ((sbOf s b.consumer b.entry).producer = 0xF0) ∧
        (sbOcc (sbOf s b.consumer b.entry) < (sbOf s b.consumer b.entry).slots)) :=
  ⟨⟨{ up with fh := { up.fh with modes := [(7, 3)], macs := [(31, { link := true })], binds := [(4095, { part := 63, mac := 31, comp := 1, mu := 0, eaxc := 65535, prbCount := 512, cell := 63, f0 := 172032, f1 := 172033, fbBase := 1048576 })] } },
    4095, 508626, 3,
    { part := 63, mac := 31, comp := 1, mu := 0, eaxc := 65535, prbCount := 512, cell := 63, f0 := 172032, f1 := 172033, fbBase := 1048576 },
      by decide +kernel⟩,
    ⟨{ up with fh := { up.fh with modes := [(7, 3)], macs := [(31, { link := true })], binds := [(4095, { part := 63, mac := 31, comp := 1, mu := 0, eaxc := 65535, prbCount := 512, cell := 63, f0 := 172023, f1 := 172032, fbBase := 1048576, consumer := 0x7F, entry := 63, posted := some 7120766 })] }, grd := { up.grd with sb := [(0x7F * 256 + 63, { valid := true, slots := 2, slotSize := 200, producer := 0xF0, owner := 319 })] } },
      4095, 508626, 3,
      { part := 63, mac := 31, comp := 1, mu := 0, eaxc := 65535, prbCount := 512, cell := 63, f0 := 172023, f1 := 172032, fbBase := 1048576, consumer := 0x7F, entry := 63, posted := some 7120766 },
      by decide +kernel⟩⟩

theorem test_witness_Releases :
    (∃ (s : State) (id : Nat) (n : Nat) (k : Nat) (b : FhBinding),
      (∀ p, b.released = some p → p < symAbs b n k) ∧ (id < 4096) ∧ (k < 14) ∧ (tabFind? s.fh.binds id = some b) ∧ (b.down =
        true) ∧ (airStart s b n k - b.f0 ≤ corrNow s) ∧ (cellSends s b n = true) ∧ (slotIdle s b n = false) ∧ (0 < b.prbCount)
        ∧ (b.prbCount ≤ packetPrbs (macOf s b.mac) b.comp) ∧ ((queueOf (macOf s b.mac) 1).pkts.length < (queueOf (macOf s
        b.mac) 1).depth))
    ∧ (∃ (s : State) (id : Nat) (n : Nat) (k : Nat) (b : FhBinding) (msg : CPlane),
      (id < 4096) ∧ (k < 14) ∧ (cplaneOk msg = true) ∧ (tabFind? s.fh.binds id = some b) ∧ (airStart s b n k - b.f2 ≤ corrNow
        s) ∧ (cellSends s b n = true) ∧ ((queueOf (macOf s b.mac) 0).pkts.length < (queueOf (macOf s b.mac) 0).depth)) :=
  ⟨⟨{ up with fh := { up.fh with modes := [(7, 3)], macs := [(31, { link := true })], binds := [(4095, { part := 63, mac := 31, comp := 1, mu := 0, eaxc := 65535, prbCount := 64, cell := 63, f0 := 0, f1 := 0, fbBase := 1048576, down := true, txSeq := 255, f2 := 0 })] }, cells := [(63 * 64 + 63, { state := .running })] },
    4095, 508626, 3,
    { part := 63, mac := 31, comp := 1, mu := 0, eaxc := 65535, prbCount := 64, cell := 63, f0 := 0, f1 := 0, fbBase := 1048576, down := true, txSeq := 255, f2 := 0 },
      nofun, by decide +kernel⟩,
    ⟨{ up with fh := { up.fh with modes := [(7, 3)], macs := [(31, { link := true })], binds := [(4095, { part := 63, mac := 31, comp := 1, mu := 0, eaxc := 65535, prbCount := 64, cell := 63, f0 := 0, f1 := 0, fbBase := 1048576, down := true, txSeq := 255, f2 := 0 })] }, cells := [(63 * 64 + 63, { state := .running })] },
      4095, 508626, 3,
      { part := 63, mac := 31, comp := 1, mu := 0, eaxc := 65535, prbCount := 64, cell := 63, f0 := 0, f1 := 0, fbBase := 1048576, down := true, txSeq := 255, f2 := 0 },
      { secType := 5, sections := [{ id := 4095, num := 1, beam := 32767 }] },
      by decide +kernel⟩⟩

theorem test_witness_TransmitSelection :
    (∃ (s : State) (mac : Nat) (p : TxPkt) (r : List TxPkt),
      (∀ x, (macOf s mac).sending = some x → x.finish ≤ s.tmb.free) ∧ (∀ x, (macOf s mac).preempted = some x → x.1 ≠ 0) ∧ (mac
        < 32) ∧ ((macOf s mac).link = true) ∧ (eligible s mac 0 = true) ∧ ((queueOf (macOf s mac) 0).pkts = p :: r))
    ∧ (∃ (s : State) (mac : Nat) (x : Sending),
      (mac < 32) ∧ ((macOf s mac).link = true) ∧ ((macOf s mac).sending = some x) ∧ (s.tmb.free < x.finish) ∧ ((macOf s
        mac).profileB = false))
    ∧ (∃ (s : State) (mac : Nat) (x : Sending),
      (mac < 32) ∧ ((macOf s mac).link = true) ∧ ((macOf s mac).sending = some x) ∧ (s.tmb.free < x.finish) ∧ ((macOf s
        mac).profileB = true) ∧ (3 ≤ x.queue) ∧ ((macOf s mac).preempted = none) ∧ (eligible s mac 0 = true) ∧ (max 64
        ((sentBytes x s.tmb.free (macRate s mac) + 63) / 64 * 64) + 64 ≤ x.left)) :=
  ⟨⟨{ up with fh := { up.fh with modes := [(7, 3)], macs := [(31, { link := true, queues := [(0, { pkts := [{ key := (5, 6) }, {}], rate := 9, tokens := 1 }), (7, { pkts := [{}] })] })], binds := [] } },
    31, { key := (5, 6) }, [{}],
      nofun, nofun, by decide +kernel⟩,
    ⟨{ up with fh := { up.fh with modes := [(7, 3)], macs := [(31, { link := true, sending := some { finish := 1000000000001 } })], binds := [] } },
      31, { finish := 1000000000001 },
      by decide +kernel⟩,
    ⟨{ up with fh := { up.fh with modes := [(7, 3)], macs := [(31, { link := true, profileB := true, sending := some { queue := 3, start := 999999999990, finish := 1000000000900, left := 2000, pkt := {} }, queues := [(0, { pkts := [{}] })] })], binds := [] } },
      31, { queue := 3, start := 999999999990, finish := 1000000000900, left := 2000, pkt := {} },
      by decide +kernel⟩⟩

theorem test_witness_ShapersAndGates :
    (∃ (s : State) (mac : Nat) (q : Nat),
      (mac < 32) ∧ (q < 8) ∧ ((queueOf (macOf s mac) q).rate ≠ 0) ∧ (49152000 ≤ (queueOf (macOf s mac) q).frac))
    ∧ (∃ (s : State) (mac : Nat) (i : Nat) (p : Policer),
      (mac < 32) ∧ (i < 64) ∧ (tabFind? (macOf s mac).policers i = some p) ∧ (p.rate ≠ 0) ∧ (49152000 ≤ p.frac))
    ∧ (∃ (mac : Nat),
      (mac < 32))
    ∧ (∃ (s : State) (mac : Nat) (l : GateList),
      (mac < 32) ∧ ((macOf s mac).gclPending = some l) ∧ (switchTick l ≤ corrNow s))
    ∧ (∃ (l : GateList),
      (l.cycle ≠ 0) ∧ (l.base ≤ l.change)) :=
  ⟨⟨{ up with fh := { up.fh with modes := [(7, 3)], macs := [(31, { link := true, queues := [(7, { rate := 400000, burst := 1048576, frac := 49152000, tokens := -5 })] })], binds := [] } },
    31, 7,
      by decide +kernel⟩,
    ⟨{ up with fh := { up.fh with modes := [(7, 3)], macs := [(31, { link := true, policers := [(63, { rate := 1, burst := 1, frac := 49152000 })] })], binds := [] } },
      31, 63, { rate := 1, burst := 1, frac := 49152000 },
      by decide +kernel⟩,
    ⟨31,
      by decide +kernel⟩,
    ⟨{ up with fh := { up.fh with modes := [(7, 3)], macs := [(31, { link := true, gclPending := some ({ base := 100, cycle := 1000, entries := [(1000, 255)], change := 999999998100 }) })], binds := [] } },
      31, { base := 100, cycle := 1000, entries := [(1000, 255)], change := 999999998100 },
      by decide +kernel⟩,
    ⟨{ base := 100, cycle := 1000, entries := [(1000, 255)], change := 2101 },
      by decide +kernel⟩⟩

theorem test_witness_HostFrames :
    (∃ (s : State) (ring : Nat) (tag : Nat) (k : Nat) (mac : Nat) (q : Nat) (len : Nat) (body : List Byte) (r : Ring),
      (ring < 4096) ∧ (headMsg s ring 4 = some (0x60, tag, k, body)) ∧ (ringOf s ring = some r) ∧ (mac = field body 10 1) ∧ (q
        = field body 11 1) ∧ (len = field body 8 2) ∧ (macPresent s mac = true) ∧ (60 ≤ len) ∧ (len ≤ (macOf s mac).maxFrame -
        4) ∧ (3 ≤ q) ∧ (q ≤ 7) ∧ (inTarget s r.part (field body 0 8) len = true) ∧ ((queueOf (macOf s mac) q).pkts.length <
        (queueOf (macOf s mac) q).depth))
    ∧ (∃ (s : State) (ring : Nat) (tag : Nat) (k : Nat) (mac : Nat) (q : Nat) (len : Nat) (body : List Byte) (r : Ring),
      (ring < 4096) ∧ (headMsg s ring 4 = some (0x60, tag, k, body)) ∧ (ringOf s ring = some r) ∧ (mac = field body 10 1) ∧ (q
        = field body 11 1) ∧ (len = field body 8 2) ∧ (macPresent s mac = true) ∧ (len ≠ 0) ∧ (q < 3 ∨ 7 < q))
    ∧ (∃ (s : State) (ring : Nat) (tag : Nat) (k : Nat) (mac : Nat) (q : Nat) (len : Nat) (body : List Byte) (r : Ring),
      (ring < 4096) ∧ (headMsg s ring 4 = some (0x60, tag, k, body)) ∧ (ringOf s ring = some r) ∧ (mac = field body 10 1) ∧ (q
        = field body 11 1) ∧ (len = field body 8 2) ∧ (macPresent s mac = true) ∧ (3 ≤ q) ∧ (q ≤ 7) ∧ (0 < len) ∧ (len < 60))
    ∧ (∃ (s : State) (ring : Nat) (tag : Nat) (k : Nat) (mac : Nat) (q : Nat) (len : Nat) (body : List Byte) (r : Ring),
      (ring < 4096) ∧ (headMsg s ring 4 = some (0x60, tag, k, body)) ∧ (ringOf s ring = some r) ∧ (mac = field body 10 1) ∧ (q
        = field body 11 1) ∧ (len = field body 8 2) ∧ (macPresent s mac = true) ∧ (len = 0)) :=
  ⟨⟨(ringWith 4095 4 63 1048576 0x60 77 (leBytes 16 0x31f003c0000000000100590)
    { up with fh := { up.fh with modes := [(7, 3)], macs := [(31, { link := true })], binds := [] }, parts := [(63, { state := .active, hdmBase := 1048576, hdmLen := 1048576 })] }),
    4095, 77, 1, 31, 3, 60, (leBytes 16 0x31f003c0000000000100590), { base := 1048576, cls := 4, part := 63, hostIdx := 1 },
      by decide +kernel⟩,
    ⟨(ringWith 4095 4 63 1048576 0x60 77 (leBytes 16 0x81f23fc0000000000100590)
      { up with fh := { up.fh with modes := [(7, 3)], macs := [(31, { link := true })], binds := [] }, parts := [(63, { state := .active, hdmBase := 1048576, hdmLen := 1048576 })] }),
      4095, 77, 1, 31, 8, 9212, (leBytes 16 0x81f23fc0000000000100590),
      { base := 1048576, cls := 4, part := 63, hostIdx := 1 },
      by decide +kernel⟩,
    ⟨(ringWith 4095 4 63 1048576 0x60 77 (leBytes 16 0x71f003b0000000000100590)
      { up with fh := { up.fh with modes := [(7, 3)], macs := [(31, { link := true })], binds := [] }, parts := [(63, { state := .active, hdmBase := 1048576, hdmLen := 1048576 })] }),
      4095, 77, 1, 31, 7, 59, (leBytes 16 0x71f003b0000000000100590), { base := 1048576, cls := 4, part := 63, hostIdx := 1 },
      by decide +kernel⟩,
    ⟨(ringWith 4095 4 63 1048576 0x60 77 (leBytes 16 0x1f00000000000000100590)
      { up with fh := { up.fh with modes := [(7, 3)], macs := [(31, { link := true })], binds := [] }, parts := [(63, { state := .active, hdmBase := 1048576, hdmLen := 1048576 })] }),
      4095, 77, 1, 31, 0, 0, (leBytes 16 0x1f00000000000000100590), { base := 1048576, cls := 4, part := 63, hostIdx := 1 },
      by decide +kernel⟩⟩

theorem test_witness_FronthaulCommands :
    (∃ (s : State) (mac : Nat) (up : Bool),
      (mac < 32) ∧ ((macOf s mac).link = !up) ∧ (macPresent s mac = true))
    ∧ (∃ (s : State) (m : Nat) (c : Cmd),
      (Due s m 0x0460 c) ∧ (field c.payload 0 1 ≤ 7) ∧ (field c.payload 1 1 ≤ 3) ∧ (tabGet s.fh.modes (field c.payload 0 1) 0
        ≠ field c.payload 1 1) ∧ (∀ j < 4, macBoundIn s (field c.payload 0 1 * 4 + j) [.running, .stopping] = false))
    ∧ (∃ (s : State) (m : Nat) (c : Cmd),
      (∃ j < 4, macBoundIn s (field c.payload 0 1 * 4 + j) [.running, .stopping] = true) ∧ (Due s m 0x0460 c) ∧ (field
        c.payload 0 1 ≤ 7) ∧ (field c.payload 1 1 ≤ 3) ∧ (tabGet s.fh.modes (field c.payload 0 1) 0 ≠ field c.payload 1 1))
    ∧ (∃ (s : State) (m : Nat) (c : Cmd),
      (Due s m 0x0461 c) ∧ (macPresent s (field c.payload 0 1) = true) ∧ (field c.payload 1 1 ≤ 1) ∧ (64 ≤ field c.payload 2
        2) ∧ (field c.payload 2 2 ≤ 9216) ∧ (field c.payload 4 2 = 0xFFFF) ∧ (field c.payload 6 1 ≤ 1) ∧ (field c.payload 7 1
        = 0) ∧ (16 ≤ c.len) ∧ (macBoundIn s (field c.payload 0 1) [.running] = false))
    ∧ (∃ (s : State) (m : Nat) (c : Cmd),
      (Due s m 0x0462 c) ∧ (macPresent s (field c.payload 0 1) = true) ∧ (3 ≤ field c.payload 1 1) ∧ (field c.payload 1 1 ≤ 7)
        ∧ (field c.payload 4 1 ≠ 0) ∧ (field c.payload 5 1 ≤ 7) ∧ (field c.payload 8 4 ≤ 400000) ∧ (field c.payload 12 4 ≠ 0)
        ∧ (field c.payload 12 4 ≤ 1048576) ∧ (((List.range 8).map (fun j => if j = field c.payload 1 1 then field c.payload 2
        2 else (queueOf (macOf s (field c.payload 0 1)) j).depth)).sum ≤ 4096))
    ∧ (∃ (s : State) (m : Nat) (c : Cmd),
      (Due s m 0x0463 c) ∧ (macPresent s (field c.payload 0 1) = true) ∧ (field c.payload 2 2 = 0) ∧ (24 ≤ c.len) ∧ (field
        c.payload 4 4 ≤ 19660800) ∧ (corrNow s + 19661 ≤ field c.payload 16 8) ∧ (field c.payload 16 8 ≤ corrNow s +
        117964800000))
    ∧ (∃ (s : State) (m : Nat) (c : Cmd),
      (Due s m 0x0463 c) ∧ (macPresent s (field c.payload 0 1) = true) ∧ (field c.payload 2 2 = 0) ∧ (24 ≤ c.len) ∧ (field
        c.payload 4 4 ≤ 19660800) ∧ (field c.payload 16 8 < corrNow s + 19661))
    ∧ (∃ (s : State) (m : Nat) (c : Cmd),
      (Due s m 0x0464 c) ∧ (macPresent s (field c.payload 0 1) = true) ∧ (field c.payload 1 1 ≤ 63) ∧ (field c.payload 2 2 =
        0xFFFF) ∧ (field c.payload 6 2 ≤ field c.payload 8 2) ∧ (field c.payload 12 4 ≤ 400000) ∧ (field c.payload 16 4 ≠ 0) ∧
        (field c.payload 16 4 ≤ 1048576))
    ∧ (∃ (s : State) (m : Nat) (c : Cmd),
      (Due s m 0x0465 c) ∧ (macPresent s (field c.payload 0 1) = true))
    ∧ (∃ (s : State) (m : Nat) (c : Cmd),
      (Due s m 0x0466 c) ∧ (macPresent s (field c.payload 0 1) = true) ∧ (field c.payload 1 1 ≤ 1)) :=
  ⟨⟨{ up with fh := { up.fh with modes := [(7, 3)], macs := [(31, { link := true })], binds := [] } }, 31, false,
      by decide +kernel⟩,
    ⟨(taking 0 (cmdOf 0x460 255 (leBytes 2 0x207))
      ({ up with fh := { up.fh with modes := [(7, 3)], macs := [(31, { link := true })], binds := [(4095, { part := 63, mac := 31, comp := 1, mu := 0, eaxc := 65535, prbCount := 512, cell := 63, f0 := 0, f1 := 0, fbBase := 1048576 })] } })),
      0, (cmdOf 0x460 255 (leBytes 2 0x207)),
      by decide +kernel⟩,
    ⟨(taking 0 (cmdOf 0x460 255 (leBytes 2 0x207))
      ({ up with fh := { up.fh with modes := [(7, 3)], macs := [(31, { link := true })], binds := [(4095, { part := 63, mac := 31, comp := 1, mu := 0, eaxc := 65535, prbCount := 512, cell := 63, f0 := 0, f1 := 0, fbBase := 1048576 })] }, tts := { up.tts with tables := [(7, { state := .running, part := 63 })] } })),
      0, (cmdOf 0x460 255 (leBytes 2 0x207)),
      ⟨3, by decide +kernel, by decide +kernel⟩, by decide +kernel⟩,
    ⟨(taking 0 (cmdOf 0x461 255 (leBytes 16 0x50001ffff2400011f))
      ({ up with fh := { up.fh with modes := [(7, 3)], macs := [(31, { link := true })], binds := [] } })), 0, (cmdOf 0x461
      255 (leBytes 16 0x50001ffff2400011f)),
      by decide +kernel⟩,
    ⟨(taking 0 (cmdOf 0x462 255 (leBytes 16 0x10000000061a80000007ff00c0071f))
      ({ up with fh := { up.fh with modes := [(7, 3)], macs := [(31, { link := true })], binds := [] } })), 0, (cmdOf 0x462
      255 (leBytes 16 0x10000000061a80000007ff00c0071f)),
      by decide +kernel⟩,
    ⟨(taking 0 (cmdOf 0x463 255 (leBytes 24 0xe8d4a55ccd0000000000000000012c00000000001f))
      ({ up with fh := { up.fh with modes := [(7, 3)], macs := [(31, { link := true })], binds := [] } })), 0, (cmdOf 0x463
      255 (leBytes 24 0xe8d4a55ccd0000000000000000012c00000000001f)),
      by decide +kernel⟩,
    ⟨(taking 0 (cmdOf 0x463 255 (leBytes 24 0xe8d4a55ccc0000000000000000012c00000000001f))
      ({ up with fh := { up.fh with modes := [(7, 3)], macs := [(31, { link := true })], binds := [] } })), 0, (cmdOf 0x463
      255 (leBytes 24 0xe8d4a55ccc0000000000000000012c00000000001f)),
      by decide +kernel⟩,
    ⟨(taking 0 (cmdOf 0x464 255 (leBytes 20 0x10000000061a800000ffff00000000ffff3f1f))
      ({ up with fh := { up.fh with modes := [(7, 3)], macs := [(31, { link := true })], binds := [] } })), 0, (cmdOf 0x464
      255 (leBytes 20 0x10000000061a800000ffff00000000ffff3f1f)),
      by decide +kernel⟩,
    ⟨(taking 0 (cmdOf 0x465 255 (leBytes 8 0xffffffff0000001f))
      ({ up with fh := { up.fh with modes := [(7, 3)], macs := [(31, { link := true })], binds := [] } })), 0, (cmdOf 0x465
      255 (leBytes 8 0xffffffff0000001f)),
      by decide +kernel⟩,
    ⟨(taking 0 (cmdOf 0x466 255 (leBytes 1 0x11f))
      ({ up with fh := { up.fh with modes := [(7, 3)], macs := [(31, { link := true })], binds := [] } })), 0, (cmdOf 0x466
      255 (leBytes 1 0x11f)),
      by decide +kernel⟩⟩

theorem test_witness_MinSumRow :
    (∃ (t : List Int) (i : Nat),
      (2 ≤ t.length) ∧ (i < t.length)) :=
  ⟨[-127, 5, 0, 9], 3,
      by decide +kernel⟩

theorem test_witness_LdpcInput :
    (∃ (s : State) (eng : Nat) (e : Nat) (x : PostRec × Nat × Nat) (j : LdJob) (fin : Nat),
      (isLd eng = true) ∧ (JobPosted s eng e x) ∧ (j = jobAt s x.2.1) ∧ (fin = max x.1.tick (engOf s eng).inEnd + codeTicks
        (16 + cdiv j.e 64 + (if j.combine then cdiv j.ncb 512 else 0))) ∧ (ldJobOk s.grade j = true) ∧ (j.e ≠ 0) ∧ (j.e % j.qm
        = 0) ∧ (0 < j.ncb) ∧ (fin ≤ s.tmb.free) ∧ (j.combine = true → s.hlt.bad = []))
    ∧ (∃ (s : State) (eng : Nat) (e : Nat) (x : PostRec × Nat × Nat) (j : LdJob) (fin : Nat) (i : _),
      (isLd eng = true) ∧ (JobPosted s eng e x) ∧ (j = jobAt s x.2.1) ∧ (fin = max x.1.tick (engOf s eng).inEnd + codeTicks
        (16 + cdiv j.e 64 + (if j.combine then cdiv j.ncb 512 else 0))) ∧ (ldJobOk s.grade j = true) ∧ (j.e ≠ 0) ∧ (fin ≤
        s.tmb.free) ∧ (j.combine = true) ∧ (i < j.ncb) ∧ (meetsBad s (dramAt (j.sbAddr + i / 64 * 64)) 64 = true))
    ∧ (∃ (s : State) (eng : Nat) (e : Nat) (x : PostRec × Nat × Nat) (j : LdJob) (fin : Nat),
      (isLd eng = true) ∧ (JobPosted s eng e x) ∧ (j = jobAt s x.2.1) ∧ (fin = max x.1.tick (engOf s eng).inEnd + codeTicks
        (16 + cdiv j.e 64 + (if j.combine then cdiv j.ncb 512 else 0))) ∧ (ldJobOk s.grade j = false))
    ∧ (∃ (s : State) (eng : Nat) (e : Nat) (x : PostRec × Nat × Nat) (j : LdJob) (fin : Nat),
      (isLd eng = true) ∧ (JobPosted s eng e x) ∧ (j = jobAt s x.2.1) ∧ (fin = max x.1.tick (engOf s eng).inEnd + codeTicks
        (16 + cdiv j.e 64 + (if j.combine then cdiv j.ncb 512 else 0))) ∧ (ldJobOk s.grade j = true) ∧ (j.e = 0))
    ∧ (∃ (s : State) (eng : Nat) (e : Nat) (x : PostRec × Nat × Nat) (j : LdJob) (fin : Nat),
      (isLd eng = true) ∧ (JobPosted s eng e x) ∧ (j = jobAt s x.2.1) ∧ (fin = max x.1.tick (engOf s eng).inEnd + codeTicks
        (16 + cdiv j.e 64 + (if j.combine then cdiv j.ncb 512 else 0))) ∧ (ldJobOk s.grade j = true) ∧ (j.e ≠ 0) ∧ (s.tmb.free
        < fin)) :=
  ⟨⟨{ up with grd := { up.grd with sb := [(191 * 256 + 3, { valid := true, slots := 2, slotSize := 4, base := 65536, produced := 0, consumed := 65535, lens := [(1, 4)], posts := [(1, { table := 7, slot := 9, cell := 63, tick := 999999999900 })] })] }, mem := (memWriteBytes {} (codingAt 65792) (leBytes 32 0xdeadbeef00000000000000400000000000037a8600648c0008000005 ++ leBytes 8 0x80FF7F0205FD017F)) },
    0xBF, 3, ({ table := 7, slot := 9, cell := 63, tick := 999999999900 }, 65792, 256), (jobAt
    { up with grd := { up.grd with sb := [(191 * 256 + 3, { valid := true, slots := 2, slotSize := 4, base := 65536, produced := 0, consumed := 65535, lens := [(1, 4)], posts := [(1, { table := 7, slot := 9, cell := 63, tick := 999999999900 })] })] }, mem := (memWriteBytes {} (codingAt 65792) (leBytes 32 0xdeadbeef00000000000000400000000000037a8600648c0008000005 ++ leBytes 8 0x80FF7F0205FD017F)) }
    65792), 999999999921,
      by decide +kernel⟩,
    ⟨{ up with grd := { up.grd with sb := [(191 * 256 + 3, { valid := true, slots := 2, slotSize := 4, base := 65536, produced := 0, consumed := 65535, lens := [(1, 4)], posts := [(1, { table := 7, slot := 9, cell := 63, tick := 999999999900 })] })] }, mem := (memWriteBytes {} (codingAt 65792) (leBytes 32 0xdeadbeef0000000000000040000000000003fa8600648c0008000005 ++ leBytes 8 0x80FF7F0205FD017F)), hlt := { up.hlt with bad := [dramAt 135] } },
      0xBF, 3, ({ table := 7, slot := 9, cell := 63, tick := 999999999900 }, 65792, 256), (jobAt
      { up with grd := { up.grd with sb := [(191 * 256 + 3, { valid := true, slots := 2, slotSize := 4, base := 65536, produced := 0, consumed := 65535, lens := [(1, 4)], posts := [(1, { table := 7, slot := 9, cell := 63, tick := 999999999900 })] })] }, mem := (memWriteBytes {} (codingAt 65792) (leBytes 32 0xdeadbeef0000000000000040000000000003fa8600648c0008000005 ++ leBytes 8 0x80FF7F0205FD017F)), hlt := { up.hlt with bad := [dramAt 135] } }
      65792), 999999999923, 99,
      by decide +kernel⟩,
    ⟨{ up with grd := { up.grd with sb := [(191 * 256 + 3, { valid := true, slots := 2, slotSize := 4, base := 65536, produced := 0, consumed := 65535, lens := [(1, 4)], posts := [(1, { table := 7, slot := 9, cell := 63, tick := 999999999900 })] })] }, mem := (memWriteBytes {} (codingAt 65792) (leBytes 32 0xdeadbeef00000000000000400000000000037a8600648c0008000003 ++ leBytes 8 0x80FF7F0205FD017F)) },
      0xBF, 3, ({ table := 7, slot := 9, cell := 63, tick := 999999999900 }, 65792, 256), (jobAt
      { up with grd := { up.grd with sb := [(191 * 256 + 3, { valid := true, slots := 2, slotSize := 4, base := 65536, produced := 0, consumed := 65535, lens := [(1, 4)], posts := [(1, { table := 7, slot := 9, cell := 63, tick := 999999999900 })] })] }, mem := (memWriteBytes {} (codingAt 65792) (leBytes 32 0xdeadbeef00000000000000400000000000037a8600648c0008000003 ++ leBytes 8 0x80FF7F0205FD017F)) }
      65792), 999999999921,
      by decide +kernel⟩,
    ⟨{ up with grd := { up.grd with sb := [(191 * 256 + 3, { valid := true, slots := 2, slotSize := 4, base := 65536, produced := 0, consumed := 65535, lens := [(1, 4)], posts := [(1, { table := 7, slot := 9, cell := 63, tick := 999999999900 })] })] }, mem := (memWriteBytes {} (codingAt 65792) (leBytes 32 0xdeadbeef00000000000000400000000000037a8600648c0000000005 ++ leBytes 8 0x80FF7F0205FD017F)) },
      0xBF, 3, ({ table := 7, slot := 9, cell := 63, tick := 999999999900 }, 65792, 256), (jobAt
      { up with grd := { up.grd with sb := [(191 * 256 + 3, { valid := true, slots := 2, slotSize := 4, base := 65536, produced := 0, consumed := 65535, lens := [(1, 4)], posts := [(1, { table := 7, slot := 9, cell := 63, tick := 999999999900 })] })] }, mem := (memWriteBytes {} (codingAt 65792) (leBytes 32 0xdeadbeef00000000000000400000000000037a8600648c0000000005 ++ leBytes 8 0x80FF7F0205FD017F)) }
      65792), 999999999920,
      by decide +kernel⟩,
    ⟨{ up with grd := { up.grd with sb := [(191 * 256 + 3, { valid := true, slots := 2, slotSize := 4, base := 65536, produced := 0, consumed := 65535, lens := [(1, 4)], posts := [(1, { table := 7, slot := 9, cell := 63, tick := 999999999980 })] })] }, mem := (memWriteBytes {} (codingAt 65792) (leBytes 32 0xdeadbeef00000000000000400000000000037a8600648c0008000005 ++ leBytes 8 0x80FF7F0205FD017F)) },
      0xBF, 3, ({ table := 7, slot := 9, cell := 63, tick := 999999999980 }, 65792, 256), (jobAt
      { up with grd := { up.grd with sb := [(191 * 256 + 3, { valid := true, slots := 2, slotSize := 4, base := 65536, produced := 0, consumed := 65535, lens := [(1, 4)], posts := [(1, { table := 7, slot := 9, cell := 63, tick := 999999999980 })] })] }, mem := (memWriteBytes {} (codingAt 65792) (leBytes 32 0xdeadbeef00000000000000400000000000037a8600648c0008000005 ++ leBytes 8 0x80FF7F0205FD017F)) }
      65792), 1000000000001,
      by decide +kernel⟩⟩

theorem test_witness_LdpcDecoding :
    (∃ (s : State) (eng : Nat) (fin : Nat) (g : LdStage) (rest : List LdStage),
      (isLd eng = true) ∧ ((engOf s eng).inp = g :: rest) ∧ (fin = max g.done (engOf s eng).decEnd + codeTicks (54 +
        g.job.iterations * g.job.rows * (8 + 8 * cdiv g.job.zc 128))) ∧ (fin ≤ s.tmb.free) ∧ (∀ v ∈ g.b, -128 ≤ v ∧ v ≤ 127))
    ∧ (∃ (s : State) (eng : Nat) (fin : Nat) (g : LdStage) (rest : List LdStage) (info : List Bool) (marked : Bool),
      (isLd eng = true) ∧ ((engOf s eng).dec = g :: rest) ∧ (fin = max g.done (engOf s eng).outEnd + codeTicks (8 + cdiv
        (kInfo g.job) 512 + (if g.job.writeBack then cdiv g.job.ncb 512 else 0))) ∧ (fin ≤ s.tmb.free) ∧ (info = (g.post.take
        (kInfo g.job)).map (fun v => decide (v < 0))) ∧ (marked = s.cde.marks.contains (g.src.table, g.src.slot, g.src.cell,
        true)))
    ∧ (∃ (s : State) (eng : Nat) (g : LdStage) (rest : List LdStage),
      (isLd eng = true) ∧ ((engOf s eng).inp = g :: rest) ∧ (s.tmb.free < max g.done (engOf s eng).decEnd + codeTicks (54 +
        g.job.iterations * g.job.rows * (8 + 8 * cdiv g.job.zc 128))))
    ∧ (∃ (s : State) (eng : Nat),
      (isLd eng = true) ∧ ((engOf s eng).inp = []))
    ∧ (∃ (s : State) (eng : Nat),
      (isLd eng = true) ∧ ((engOf s eng).dec = [])) :=
  ⟨⟨{ up with cde := { up.cde with engines := [(0xBF, { inp := [{ job := { bg := 1, zc := 2, e := 8, rv := 3, qm := 8, ncb := 100, iterations := 3, rows := 42, offset := 7, cbCrc := true, writeBack := true, sbAddr := 64, tag := 9 }, src := { table := 7, slot := 9, cell := 63 }, b := List.replicate 100 (-127), post := List.replicate 104 (-5), done := 999999997456 }, {}] })] } },
    0xBF, 1000000000000,
    { job := { bg := 1, zc := 2, e := 8, rv := 3, qm := 8, ncb := 100, iterations := 3, rows := 42, offset := 7, cbCrc := true, writeBack := true, sbAddr := 64, tag := 9 }, src := { table := 7, slot := 9, cell := 63 }, b := List.replicate 100 (-127), post := List.replicate 104 (-5), done := 999999997456 },
    [{}],
      by decide +kernel⟩,
    ⟨{ up with cde := { up.cde with engines := [(0xBF, { dec := [{ job := { bg := 1, zc := 2, e := 8, rv := 3, qm := 8, ncb := 100, iterations := 3, rows := 42, offset := 7, cbCrc := true, writeBack := true, sbAddr := 64, tag := 9 }, src := { table := 7, slot := 9, cell := 63 }, b := List.replicate 100 (-127), post := List.replicate 104 (-5), done := 999999999987 }, {}] })] } },
      0xBF, 1000000000000,
      { job := { bg := 1, zc := 2, e := 8, rv := 3, qm := 8, ncb := 100, iterations := 3, rows := 42, offset := 7, cbCrc := true, writeBack := true, sbAddr := 64, tag := 9 }, src := { table := 7, slot := 9, cell := 63 }, b := List.replicate 100 (-127), post := List.replicate 104 (-5), done := 999999999987 },
      [{}], (List.replicate 20 true), false,
      by decide +kernel⟩,
    ⟨{ up with cde := { up.cde with engines := [(0xBF, { inp := [{ job := { bg := 1, zc := 2, e := 8, rv := 3, qm := 8, ncb := 100, iterations := 3, rows := 42, offset := 7, cbCrc := true, writeBack := true, sbAddr := 64, tag := 9 }, src := { table := 7, slot := 9, cell := 63 }, b := List.replicate 100 (-127), post := List.replicate 104 (-5), done := 999999997457 }, {}] })] } },
      0xBF,
      { job := { bg := 1, zc := 2, e := 8, rv := 3, qm := 8, ncb := 100, iterations := 3, rows := 42, offset := 7, cbCrc := true, writeBack := true, sbAddr := 64, tag := 9 }, src := { table := 7, slot := 9, cell := 63 }, b := List.replicate 100 (-127), post := List.replicate 104 (-5), done := 999999997457 },
      [{}],
      by decide +kernel⟩,
    ⟨up, 0xBF,
      by decide +kernel⟩,
    ⟨up, 0xBF,
      by decide +kernel⟩⟩

theorem test_witness_EncodersAndPolar :
    (∃ (s : State) (eng : Nat) (e : Nat) (x : PostRec × Nat × Nat) (j : LdJob) (rows : Nat) (fin : Nat),
      (JobPosted s eng e x) ∧ (isLe eng = true) ∧ (j = jobAt s x.2.1) ∧ (rows = rowsFor j.bg (highColumn
        { bg := j.bg, zc := j.zc, filler := j.filler, e := j.e, ncb := j.ncb } j.rv)) ∧ (fin = max x.1.tick (engOf s
        eng).outEnd + codeTicks (38 + 2 * rows * cdiv j.zc 128 + cdiv j.e 128)) ∧ (j.bg ≤ 1) ∧ (zcOk j.zc = true) ∧ (j.filler
        < 16384) ∧ (j.e < 262144) ∧ (j.rv ≤ 3) ∧ (qmOk j.qm = true) ∧ (j.ncb < 131072) ∧ (fin ≤ s.tmb.free))
    ∧ (∃ (s : State) (eng : Nat) (e : Nat) (x : PostRec × Nat × Nat) (j : LdJob) (rows : Nat) (fin : Nat),
      (JobPosted s eng e x) ∧ (isLe eng = true) ∧ (j = jobAt s x.2.1) ∧ (rows = rowsFor j.bg (highColumn
        { bg := j.bg, zc := j.zc, filler := j.filler, e := j.e, ncb := j.ncb } j.rv)) ∧ (fin = max x.1.tick (engOf s
        eng).outEnd + codeTicks (38 + 2 * rows * cdiv j.zc 128 + cdiv j.e 128)) ∧ (j.bg ≤ 1) ∧ (zcOk j.zc = true) ∧ (j.filler
        < 16384) ∧ (j.e < 262144) ∧ (j.rv ≤ 3) ∧ (qmOk j.qm = true) ∧ (j.ncb < 131072) ∧ (s.tmb.free < fin))
    ∧ (∃ (s : State) (eng : Nat) (e : Nat) (x : PostRec × Nat × Nat) (j : _),
      (JobPosted s eng e x) ∧ (isLe eng = true) ∧ (j = jobAt s x.2.1) ∧ (max x.1.tick (engOf s eng).outEnd ≤ s.tmb.free) ∧ (1
        < j.bg ∨ zcOk j.zc = false ∨ 3 < j.rv ∨ qmOk j.qm = false))
    ∧ (∃ (s : State) (eng : Nat) (e : Nat) (x : PostRec × Nat × Nat) (j : CodeJob),
      (JobPosted s eng e x) ∧ (0xD0 ≤ eng) ∧ (eng < 0xD8) ∧ (motherOk j.mother = true) ∧ (max x.1.tick (engOf s eng).outEnd +
        codeTicks (pdCycles j.mother j.k j.e) ≤ s.tmb.free))
    ∧ (∃ (s : State) (eng : Nat) (e : Nat) (x : PostRec × Nat × Nat) (j : CodeJob),
      (JobPosted s eng e x) ∧ (0xD0 ≤ eng) ∧ (eng < 0xD8) ∧ (motherOk j.mother = false))
    ∧ (∃ (s : State) (eng : Nat) (e : Nat) (x : PostRec × Nat × Nat) (j : CodeJob),
      (JobPosted s eng e x) ∧ (0xD8 ≤ eng) ∧ (eng < 0xDC) ∧ (motherOk j.mother = true) ∧ (max x.1.tick (engOf s eng).outEnd +
        codeTicks (peCycles j.mother j.e) ≤ s.tmb.free))
    ∧ (∃ (s : State) (eng : Nat) (e : Nat) (x : PostRec × Nat × Nat) (j : CodeJob),
      (JobPosted s eng e x) ∧ (0xD8 ≤ eng) ∧ (eng < 0xDC) ∧ (motherOk j.mother = false)) :=
  ⟨⟨{ up with grd := { up.grd with sb := [(0xCF * 256 + 3, { valid := true, slots := 2, slotSize := 4, base := 65536, produced := 0, consumed := 65535, lens := [(1, 4)], posts := [(1, { table := 7, slot := 9, cell := 63, tick := 999999910000 })] })] }, mem := (memWriteBytes {} (codingAt 65792) (leBytes 32 0xdeadbeef00000000000000400000000000037a860064800018000005 ++ leBytes 8 0x80FF7F0205FD017F)) },
    0xCF, 3, ({ table := 7, slot := 9, cell := 63, tick := 999999910000 }, 65792, 256), (jobAt
    { up with grd := { up.grd with sb := [(0xCF * 256 + 3, { valid := true, slots := 2, slotSize := 4, base := 65536, produced := 0, consumed := 65535, lens := [(1, 4)], posts := [(1, { table := 7, slot := 9, cell := 63, tick := 999999910000 })] })] }, mem := (memWriteBytes {} (codingAt 65792) (leBytes 32 0xdeadbeef00000000000000400000000000037a860064800018000005 ++ leBytes 8 0x80FF7F0205FD017F)) }
    65792), (rowsFor (jobAt
    { up with grd := { up.grd with sb := [(0xCF * 256 + 3, { valid := true, slots := 2, slotSize := 4, base := 65536, produced := 0, consumed := 65535, lens := [(1, 4)], posts := [(1, { table := 7, slot := 9, cell := 63, tick := 999999910000 })] })] }, mem := (memWriteBytes {} (codingAt 65792) (leBytes 32 0xdeadbeef00000000000000400000000000037a860064800018000005 ++ leBytes 8 0x80FF7F0205FD017F)) }
    65792).bg (highColumn
    { bg := (jobAt { up with grd := { up.grd with sb := [(0xCF * 256 + 3, { valid := true, slots := 2, slotSize := 4, base := 65536, produced := 0, consumed := 65535, lens := [(1, 4)], posts := [(1, { table := 7, slot := 9, cell := 63, tick := 999999910000 })] })] }, mem := (memWriteBytes {} (codingAt 65792) (leBytes 32 0xdeadbeef00000000000000400000000000037a860064800018000005 ++ leBytes 8 0x80FF7F0205FD017F)) } 65792).bg, zc := (jobAt { up with grd := { up.grd with sb := [(0xCF * 256 + 3, { valid := true, slots := 2, slotSize := 4, base := 65536, produced := 0, consumed := 65535, lens := [(1, 4)], posts := [(1, { table := 7, slot := 9, cell := 63, tick := 999999910000 })] })] }, mem := (memWriteBytes {} (codingAt 65792) (leBytes 32 0xdeadbeef00000000000000400000000000037a860064800018000005 ++ leBytes 8 0x80FF7F0205FD017F)) } 65792).zc, filler := (jobAt { up with grd := { up.grd with sb := [(0xCF * 256 + 3, { valid := true, slots := 2, slotSize := 4, base := 65536, produced := 0, consumed := 65535, lens := [(1, 4)], posts := [(1, { table := 7, slot := 9, cell := 63, tick := 999999910000 })] })] }, mem := (memWriteBytes {} (codingAt 65792) (leBytes 32 0xdeadbeef00000000000000400000000000037a860064800018000005 ++ leBytes 8 0x80FF7F0205FD017F)) } 65792).filler, e := (jobAt { up with grd := { up.grd with sb := [(0xCF * 256 + 3, { valid := true, slots := 2, slotSize := 4, base := 65536, produced := 0, consumed := 65535, lens := [(1, 4)], posts := [(1, { table := 7, slot := 9, cell := 63, tick := 999999910000 })] })] }, mem := (memWriteBytes {} (codingAt 65792) (leBytes 32 0xdeadbeef00000000000000400000000000037a860064800018000005 ++ leBytes 8 0x80FF7F0205FD017F)) } 65792).e, ncb := (jobAt { up with grd := { up.grd with sb := [(0xCF * 256 + 3, { valid := true, slots := 2, slotSize := 4, base := 65536, produced := 0, consumed := 65535, lens := [(1, 4)], posts := [(1, { table := 7, slot := 9, cell := 63, tick := 999999910000 })] })] }, mem := (memWriteBytes {} (codingAt 65792) (leBytes 32 0xdeadbeef00000000000000400000000000037a860064800018000005 ++ leBytes 8 0x80FF7F0205FD017F)) } 65792).ncb }
    (jobAt
    { up with grd := { up.grd with sb := [(0xCF * 256 + 3, { valid := true, slots := 2, slotSize := 4, base := 65536, produced := 0, consumed := 65535, lens := [(1, 4)], posts := [(1, { table := 7, slot := 9, cell := 63, tick := 999999910000 })] })] }, mem := (memWriteBytes {} (codingAt 65792) (leBytes 32 0xdeadbeef00000000000000400000000000037a860064800018000005 ++ leBytes 8 0x80FF7F0205FD017F)) }
    65792).rv)), (max 999999910000 0 + codeTicks (38 + 2 * (rowsFor (jobAt
    { up with grd := { up.grd with sb := [(0xCF * 256 + 3, { valid := true, slots := 2, slotSize := 4, base := 65536, produced := 0, consumed := 65535, lens := [(1, 4)], posts := [(1, { table := 7, slot := 9, cell := 63, tick := 999999910000 })] })] }, mem := (memWriteBytes {} (codingAt 65792) (leBytes 32 0xdeadbeef00000000000000400000000000037a860064800018000005 ++ leBytes 8 0x80FF7F0205FD017F)) }
    65792).bg (highColumn
    { bg := (jobAt { up with grd := { up.grd with sb := [(0xCF * 256 + 3, { valid := true, slots := 2, slotSize := 4, base := 65536, produced := 0, consumed := 65535, lens := [(1, 4)], posts := [(1, { table := 7, slot := 9, cell := 63, tick := 999999910000 })] })] }, mem := (memWriteBytes {} (codingAt 65792) (leBytes 32 0xdeadbeef00000000000000400000000000037a860064800018000005 ++ leBytes 8 0x80FF7F0205FD017F)) } 65792).bg, zc := (jobAt { up with grd := { up.grd with sb := [(0xCF * 256 + 3, { valid := true, slots := 2, slotSize := 4, base := 65536, produced := 0, consumed := 65535, lens := [(1, 4)], posts := [(1, { table := 7, slot := 9, cell := 63, tick := 999999910000 })] })] }, mem := (memWriteBytes {} (codingAt 65792) (leBytes 32 0xdeadbeef00000000000000400000000000037a860064800018000005 ++ leBytes 8 0x80FF7F0205FD017F)) } 65792).zc, filler := (jobAt { up with grd := { up.grd with sb := [(0xCF * 256 + 3, { valid := true, slots := 2, slotSize := 4, base := 65536, produced := 0, consumed := 65535, lens := [(1, 4)], posts := [(1, { table := 7, slot := 9, cell := 63, tick := 999999910000 })] })] }, mem := (memWriteBytes {} (codingAt 65792) (leBytes 32 0xdeadbeef00000000000000400000000000037a860064800018000005 ++ leBytes 8 0x80FF7F0205FD017F)) } 65792).filler, e := (jobAt { up with grd := { up.grd with sb := [(0xCF * 256 + 3, { valid := true, slots := 2, slotSize := 4, base := 65536, produced := 0, consumed := 65535, lens := [(1, 4)], posts := [(1, { table := 7, slot := 9, cell := 63, tick := 999999910000 })] })] }, mem := (memWriteBytes {} (codingAt 65792) (leBytes 32 0xdeadbeef00000000000000400000000000037a860064800018000005 ++ leBytes 8 0x80FF7F0205FD017F)) } 65792).e, ncb := (jobAt { up with grd := { up.grd with sb := [(0xCF * 256 + 3, { valid := true, slots := 2, slotSize := 4, base := 65536, produced := 0, consumed := 65535, lens := [(1, 4)], posts := [(1, { table := 7, slot := 9, cell := 63, tick := 999999910000 })] })] }, mem := (memWriteBytes {} (codingAt 65792) (leBytes 32 0xdeadbeef00000000000000400000000000037a860064800018000005 ++ leBytes 8 0x80FF7F0205FD017F)) } 65792).ncb }
    (jobAt
    { up with grd := { up.grd with sb := [(0xCF * 256 + 3, { valid := true, slots := 2, slotSize := 4, base := 65536, produced := 0, consumed := 65535, lens := [(1, 4)], posts := [(1, { table := 7, slot := 9, cell := 63, tick := 999999910000 })] })] }, mem := (memWriteBytes {} (codingAt 65792) (leBytes 32 0xdeadbeef00000000000000400000000000037a860064800018000005 ++ leBytes 8 0x80FF7F0205FD017F)) }
    65792).rv)) * cdiv (jobAt
    { up with grd := { up.grd with sb := [(0xCF * 256 + 3, { valid := true, slots := 2, slotSize := 4, base := 65536, produced := 0, consumed := 65535, lens := [(1, 4)], posts := [(1, { table := 7, slot := 9, cell := 63, tick := 999999910000 })] })] }, mem := (memWriteBytes {} (codingAt 65792) (leBytes 32 0xdeadbeef00000000000000400000000000037a860064800018000005 ++ leBytes 8 0x80FF7F0205FD017F)) }
    65792).zc 128 + cdiv (jobAt
    { up with grd := { up.grd with sb := [(0xCF * 256 + 3, { valid := true, slots := 2, slotSize := 4, base := 65536, produced := 0, consumed := 65535, lens := [(1, 4)], posts := [(1, { table := 7, slot := 9, cell := 63, tick := 999999910000 })] })] }, mem := (memWriteBytes {} (codingAt 65792) (leBytes 32 0xdeadbeef00000000000000400000000000037a860064800018000005 ++ leBytes 8 0x80FF7F0205FD017F)) }
    65792).e 128)),
      by decide +kernel⟩,
    ⟨{ up with grd := { up.grd with sb := [(0xCF * 256 + 3, { valid := true, slots := 2, slotSize := 4, base := 65536, produced := 0, consumed := 65535, lens := [(1, 4)], posts := [(1, { table := 7, slot := 9, cell := 63, tick := 999999999991 })] })] }, mem := (memWriteBytes {} (codingAt 65792) (leBytes 32 0xdeadbeef00000000000000400000000000037a860064800018000005 ++ leBytes 8 0x80FF7F0205FD017F)) },
      0xCF, 3, ({ table := 7, slot := 9, cell := 63, tick := 999999999991 }, 65792, 256), (jobAt
      { up with grd := { up.grd with sb := [(0xCF * 256 + 3, { valid := true, slots := 2, slotSize := 4, base := 65536, produced := 0, consumed := 65535, lens := [(1, 4)], posts := [(1, { table := 7, slot := 9, cell := 63, tick := 999999999991 })] })] }, mem := (memWriteBytes {} (codingAt 65792) (leBytes 32 0xdeadbeef00000000000000400000000000037a860064800018000005 ++ leBytes 8 0x80FF7F0205FD017F)) }
      65792), (rowsFor (jobAt
      { up with grd := { up.grd with sb := [(0xCF * 256 + 3, { valid := true, slots := 2, slotSize := 4, base := 65536, produced := 0, consumed := 65535, lens := [(1, 4)], posts := [(1, { table := 7, slot := 9, cell := 63, tick := 999999999991 })] })] }, mem := (memWriteBytes {} (codingAt 65792) (leBytes 32 0xdeadbeef00000000000000400000000000037a860064800018000005 ++ leBytes 8 0x80FF7F0205FD017F)) }
      65792).bg (highColumn
      { bg := (jobAt { up with grd := { up.grd with sb := [(0xCF * 256 + 3, { valid := true, slots := 2, slotSize := 4, base := 65536, produced := 0, consumed := 65535, lens := [(1, 4)], posts := [(1, { table := 7, slot := 9, cell := 63, tick := 999999999991 })] })] }, mem := (memWriteBytes {} (codingAt 65792) (leBytes 32 0xdeadbeef00000000000000400000000000037a860064800018000005 ++ leBytes 8 0x80FF7F0205FD017F)) } 65792).bg, zc := (jobAt { up with grd := { up.grd with sb := [(0xCF * 256 + 3, { valid := true, slots := 2, slotSize := 4, base := 65536, produced := 0, consumed := 65535, lens := [(1, 4)], posts := [(1, { table := 7, slot := 9, cell := 63, tick := 999999999991 })] })] }, mem := (memWriteBytes {} (codingAt 65792) (leBytes 32 0xdeadbeef00000000000000400000000000037a860064800018000005 ++ leBytes 8 0x80FF7F0205FD017F)) } 65792).zc, filler := (jobAt { up with grd := { up.grd with sb := [(0xCF * 256 + 3, { valid := true, slots := 2, slotSize := 4, base := 65536, produced := 0, consumed := 65535, lens := [(1, 4)], posts := [(1, { table := 7, slot := 9, cell := 63, tick := 999999999991 })] })] }, mem := (memWriteBytes {} (codingAt 65792) (leBytes 32 0xdeadbeef00000000000000400000000000037a860064800018000005 ++ leBytes 8 0x80FF7F0205FD017F)) } 65792).filler, e := (jobAt { up with grd := { up.grd with sb := [(0xCF * 256 + 3, { valid := true, slots := 2, slotSize := 4, base := 65536, produced := 0, consumed := 65535, lens := [(1, 4)], posts := [(1, { table := 7, slot := 9, cell := 63, tick := 999999999991 })] })] }, mem := (memWriteBytes {} (codingAt 65792) (leBytes 32 0xdeadbeef00000000000000400000000000037a860064800018000005 ++ leBytes 8 0x80FF7F0205FD017F)) } 65792).e, ncb := (jobAt { up with grd := { up.grd with sb := [(0xCF * 256 + 3, { valid := true, slots := 2, slotSize := 4, base := 65536, produced := 0, consumed := 65535, lens := [(1, 4)], posts := [(1, { table := 7, slot := 9, cell := 63, tick := 999999999991 })] })] }, mem := (memWriteBytes {} (codingAt 65792) (leBytes 32 0xdeadbeef00000000000000400000000000037a860064800018000005 ++ leBytes 8 0x80FF7F0205FD017F)) } 65792).ncb }
      (jobAt
      { up with grd := { up.grd with sb := [(0xCF * 256 + 3, { valid := true, slots := 2, slotSize := 4, base := 65536, produced := 0, consumed := 65535, lens := [(1, 4)], posts := [(1, { table := 7, slot := 9, cell := 63, tick := 999999999991 })] })] }, mem := (memWriteBytes {} (codingAt 65792) (leBytes 32 0xdeadbeef00000000000000400000000000037a860064800018000005 ++ leBytes 8 0x80FF7F0205FD017F)) }
      65792).rv)), (max 999999999991 0 + codeTicks (38 + 2 * (rowsFor (jobAt
      { up with grd := { up.grd with sb := [(0xCF * 256 + 3, { valid := true, slots := 2, slotSize := 4, base := 65536, produced := 0, consumed := 65535, lens := [(1, 4)], posts := [(1, { table := 7, slot := 9, cell := 63, tick := 999999999991 })] })] }, mem := (memWriteBytes {} (codingAt 65792) (leBytes 32 0xdeadbeef00000000000000400000000000037a860064800018000005 ++ leBytes 8 0x80FF7F0205FD017F)) }
      65792).bg (highColumn
      { bg := (jobAt { up with grd := { up.grd with sb := [(0xCF * 256 + 3, { valid := true, slots := 2, slotSize := 4, base := 65536, produced := 0, consumed := 65535, lens := [(1, 4)], posts := [(1, { table := 7, slot := 9, cell := 63, tick := 999999999991 })] })] }, mem := (memWriteBytes {} (codingAt 65792) (leBytes 32 0xdeadbeef00000000000000400000000000037a860064800018000005 ++ leBytes 8 0x80FF7F0205FD017F)) } 65792).bg, zc := (jobAt { up with grd := { up.grd with sb := [(0xCF * 256 + 3, { valid := true, slots := 2, slotSize := 4, base := 65536, produced := 0, consumed := 65535, lens := [(1, 4)], posts := [(1, { table := 7, slot := 9, cell := 63, tick := 999999999991 })] })] }, mem := (memWriteBytes {} (codingAt 65792) (leBytes 32 0xdeadbeef00000000000000400000000000037a860064800018000005 ++ leBytes 8 0x80FF7F0205FD017F)) } 65792).zc, filler := (jobAt { up with grd := { up.grd with sb := [(0xCF * 256 + 3, { valid := true, slots := 2, slotSize := 4, base := 65536, produced := 0, consumed := 65535, lens := [(1, 4)], posts := [(1, { table := 7, slot := 9, cell := 63, tick := 999999999991 })] })] }, mem := (memWriteBytes {} (codingAt 65792) (leBytes 32 0xdeadbeef00000000000000400000000000037a860064800018000005 ++ leBytes 8 0x80FF7F0205FD017F)) } 65792).filler, e := (jobAt { up with grd := { up.grd with sb := [(0xCF * 256 + 3, { valid := true, slots := 2, slotSize := 4, base := 65536, produced := 0, consumed := 65535, lens := [(1, 4)], posts := [(1, { table := 7, slot := 9, cell := 63, tick := 999999999991 })] })] }, mem := (memWriteBytes {} (codingAt 65792) (leBytes 32 0xdeadbeef00000000000000400000000000037a860064800018000005 ++ leBytes 8 0x80FF7F0205FD017F)) } 65792).e, ncb := (jobAt { up with grd := { up.grd with sb := [(0xCF * 256 + 3, { valid := true, slots := 2, slotSize := 4, base := 65536, produced := 0, consumed := 65535, lens := [(1, 4)], posts := [(1, { table := 7, slot := 9, cell := 63, tick := 999999999991 })] })] }, mem := (memWriteBytes {} (codingAt 65792) (leBytes 32 0xdeadbeef00000000000000400000000000037a860064800018000005 ++ leBytes 8 0x80FF7F0205FD017F)) } 65792).ncb }
      (jobAt
      { up with grd := { up.grd with sb := [(0xCF * 256 + 3, { valid := true, slots := 2, slotSize := 4, base := 65536, produced := 0, consumed := 65535, lens := [(1, 4)], posts := [(1, { table := 7, slot := 9, cell := 63, tick := 999999999991 })] })] }, mem := (memWriteBytes {} (codingAt 65792) (leBytes 32 0xdeadbeef00000000000000400000000000037a860064800018000005 ++ leBytes 8 0x80FF7F0205FD017F)) }
      65792).rv)) * cdiv (jobAt
      { up with grd := { up.grd with sb := [(0xCF * 256 + 3, { valid := true, slots := 2, slotSize := 4, base := 65536, produced := 0, consumed := 65535, lens := [(1, 4)], posts := [(1, { table := 7, slot := 9, cell := 63, tick := 999999999991 })] })] }, mem := (memWriteBytes {} (codingAt 65792) (leBytes 32 0xdeadbeef00000000000000400000000000037a860064800018000005 ++ leBytes 8 0x80FF7F0205FD017F)) }
      65792).zc 128 + cdiv (jobAt
      { up with grd := { up.grd with sb := [(0xCF * 256 + 3, { valid := true, slots := 2, slotSize := 4, base := 65536, produced := 0, consumed := 65535, lens := [(1, 4)], posts := [(1, { table := 7, slot := 9, cell := 63, tick := 999999999991 })] })] }, mem := (memWriteBytes {} (codingAt 65792) (leBytes 32 0xdeadbeef00000000000000400000000000037a860064800018000005 ++ leBytes 8 0x80FF7F0205FD017F)) }
      65792).e 128)),
      by decide +kernel⟩,
    ⟨{ up with grd := { up.grd with sb := [(0xCF * 256 + 3, { valid := true, slots := 2, slotSize := 4, base := 65536, produced := 0, consumed := 65535, lens := [(1, 4)], posts := [(1, { table := 7, slot := 9, cell := 63, tick := 1000000000000 })] })] }, mem := (memWriteBytes {} (codingAt 65792) (leBytes 32 0xdeadbeef00000000000000400000000000037a8600648c0008000003 ++ leBytes 8 0x80FF7F0205FD017F)) },
      0xCF, 3, ({ table := 7, slot := 9, cell := 63, tick := 1000000000000 }, 65792, 256), (jobAt
      { up with grd := { up.grd with sb := [(0xCF * 256 + 3, { valid := true, slots := 2, slotSize := 4, base := 65536, produced := 0, consumed := 65535, lens := [(1, 4)], posts := [(1, { table := 7, slot := 9, cell := 63, tick := 1000000000000 })] })] }, mem := (memWriteBytes {} (codingAt 65792) (leBytes 32 0xdeadbeef00000000000000400000000000037a8600648c0008000003 ++ leBytes 8 0x80FF7F0205FD017F)) }
      65792),
      by decide +kernel⟩,
    ⟨{ up with grd := { up.grd with sb := [(0xD7 * 256 + 3, { valid := true, slots := 2, slotSize := 4, base := 65536, produced := 0, consumed := 65535, lens := [(1, 4)], posts := [(1, { table := 7, slot := 9, cell := 63, tick := 999999910000 })] })] }, mem := (memWriteBytes {} (codingAt 65792) (leBytes 32 0x0 ++ leBytes 8 0x80FF7F0205FD017F)) },
      0xD7, 3, ({ table := 7, slot := 9, cell := 63, tick := 999999910000 }, 65792, 256),
      { mother := 1024, k := 12, e := 40, tag := 5 },
      by decide +kernel⟩,
    ⟨{ up with grd := { up.grd with sb := [(0xD0 * 256 + 3, { valid := true, slots := 2, slotSize := 4, base := 65536, produced := 0, consumed := 65535, lens := [(1, 4)], posts := [(1, { table := 7, slot := 9, cell := 63, tick := 1000000000000 })] })] }, mem := (memWriteBytes {} (codingAt 65792) (leBytes 32 0x0 ++ leBytes 8 0x80FF7F0205FD017F)) },
      0xD0, 3, ({ table := 7, slot := 9, cell := 63, tick := 1000000000000 }, 65792, 256),
      { mother := 33, k := 12, e := 40, tag := 5 },
      by decide +kernel⟩,
    ⟨{ up with grd := { up.grd with sb := [(0xD8 * 256 + 3, { valid := true, slots := 2, slotSize := 4, base := 65536, produced := 0, consumed := 65535, lens := [(1, 4)], posts := [(1, { table := 7, slot := 9, cell := 63, tick := 999999910000 })] })] }, mem := (memWriteBytes {} (codingAt 65792) (leBytes 32 0x0 ++ leBytes 8 0x80FF7F0205FD017F)) },
      0xD8, 3, ({ table := 7, slot := 9, cell := 63, tick := 999999910000 }, 65792, 256),
      { mother := 1024, k := 12, e := 40, tag := 5 },
      by decide +kernel⟩,
    ⟨{ up with grd := { up.grd with sb := [(0xDB * 256 + 3, { valid := true, slots := 2, slotSize := 4, base := 65536, produced := 0, consumed := 65535, lens := [(1, 4)], posts := [(1, { table := 7, slot := 9, cell := 63, tick := 1000000000000 })] })] }, mem := (memWriteBytes {} (codingAt 65792) (leBytes 32 0x0 ++ leBytes 8 0x80FF7F0205FD017F)) },
      0xDB, 3, ({ table := 7, slot := 9, cell := 63, tick := 1000000000000 }, 65792, 256),
      { mother := 2048, k := 12, e := 40, tag := 5 },
      by decide +kernel⟩⟩

theorem test_witness_PrachDetection :
    (∃ (o : Prach) (i : _),
      (i < min 64 o.preambles.length))
    ∧ (∃ (o : Prach) (d : _),
      (d < zoneSpan o))
    ∧ (∃ (o : Prach) (pw : Nat → Nat → Nat) (q : _),
      ((zonePeak o pw q).1 ≠ 0))
    ∧ (∃ (o : Prach) (pw : Nat → Nat → Nat) (thr : Nat) (fl : Nat) (e : _),
      (e ∈ prachDetect thr fl o pw)) :=
  ⟨⟨{ long := false, ncs := 12, spacing := 15000, preambles := [(1, 5), (2, 0)] }, 1,
      by decide +kernel⟩,
    ⟨{ long := false, ncs := 12, spacing := 15000, preambles := [(1, 5), (2, 0)] }, 1,
      by decide +kernel⟩,
    ⟨{ long := false, ncs := 12, spacing := 15000, preambles := [(1, 5), (2, 0)] }, (fun u k => if u = 2 && k = 0 then 90 else
      1), (2, 0),
      by decide +kernel⟩,
    ⟨{ long := false, ncs := 12, spacing := 15000, preambles := [(1, 5), (2, 0)] }, (fun u k => if u = 2 && k = 0 then 90 else
      1), 256, 1, (1, 0, 90, 1),
      by decide +kernel⟩⟩

theorem test_witness_GainsAndStageRecords :
    (∃ (s : State) (m : Nat) (c : Cmd) (p : Nat) (cell : Nat) (dir : Nat) (ant : Nat) (gm : Nat) (ge : Int),
      (Due s m 0x04A0 c) ∧ (targetOf m c = p) ∧ (p < 64) ∧ (cell = field c.payload 0 1) ∧ (dir = field c.payload 1 1) ∧ (ant =
        field c.payload 2 1) ∧ (ge = fieldInt c.payload 3 1) ∧ (gm = field c.payload 4 2) ∧ (dir ≤ 1) ∧ (gm ≤ 32767) ∧ (-16 ≤
        ge) ∧ (ge ≤ 15) ∧ (cell < 64) ∧ ((cellOf s p cell).state ≠ .absent) ∧ (∃ b ∈ s.fh.binds, b.2.part = p ∧ b.2.cell =
        cell ∧ b.2.down = (dir == 1) ∧ b.2.ant = ant))
    ∧ (∃ (s : State) (m : Nat) (c : Cmd) (p : Nat) (cell : Nat) (dir : Nat) (ant : Nat) (gm : Nat) (ge : Int),
      (Due s m 0x04A0 c) ∧ (targetOf m c = p) ∧ (p < 64) ∧ (cell = field c.payload 0 1) ∧ (dir = field c.payload 1 1) ∧ (ant =
        field c.payload 2 1) ∧ (ge = fieldInt c.payload 3 1) ∧ (gm = field c.payload 4 2) ∧ (1 < dir ∨ 32767 < gm ∨ ge < -16 ∨
        15 < ge))
    ∧ (∃ (s : State) (m : Nat) (c : Cmd) (p : Nat) (cell : Nat) (dir : Nat) (ant : Nat) (gm : Nat) (ge : Int),
      (Due s m 0x04A0 c) ∧ (targetOf m c = p) ∧ (p < 64) ∧ (cell = field c.payload 0 1) ∧ (dir = field c.payload 1 1) ∧ (ant =
        field c.payload 2 1) ∧ (ge = fieldInt c.payload 3 1) ∧ (gm = field c.payload 4 2) ∧ (cell < 64) ∧ ((cellOf s p
        cell).state ≠ .absent) ∧ (∀ b ∈ s.fh.binds, ¬(b.2.part = p ∧ b.2.cell = cell ∧ b.2.down = (dir == 1) ∧ b.2.ant =
        ant)))
    ∧ (∃ (s : State) (m : Nat) (c : Cmd) (p : Nat) (cell : Nat) (dir : Nat) (ant : Nat) (gm : Nat) (ge : Int),
      (Due s m 0x04A0 c) ∧ (targetOf m c = p) ∧ (p < 64) ∧ (cell = field c.payload 0 1) ∧ (dir = field c.payload 1 1) ∧ (ant =
        field c.payload 2 1) ∧ (ge = fieldInt c.payload 3 1) ∧ (gm = field c.payload 4 2) ∧ (dir ≤ 1) ∧ (gm ≤ 32767) ∧ (-16 ≤
        ge) ∧ (ge ≤ 15) ∧ (cell < 64) ∧ ((cellOf s p cell).state = .absent))
    ∧ (∃ (s : State) (m : Nat) (c : Cmd) (p : Nat) (k : Nat),
      (Due s m 0x04A1 c) ∧ (targetOf m c = p) ∧ (p ≠ 0xFF) ∧ (partTable s p = some k) ∧ (120 < field c.payload 10 2))
    ∧ (∃ (s : State) (m : Nat) (c : Cmd) (p : Nat) (k : Nat),
      (Due s m 0x04A1 c) ∧ (targetOf m c = p) ∧ (p ≠ 0xFF) ∧ (partTable s p = some k) ∧ (field c.payload 10 2 ≤ 120) ∧
        (slotRun s k (field c.payload 0 8) = none))
    ∧ (∃ (s : State) (m : Nat) (c : Cmd) (p : Nat) (k : Nat) (n : _),
      (Due s m 0x04A1 c) ∧ (targetOf m c = p) ∧ (p ≠ 0xFF) ∧ (partTable s p = some k) ∧ (field c.payload 10 2 ≤ 120) ∧
        (slotRun s k (field c.payload 0 8) = some n))
    ∧ (∃ (s : State) (m : Nat) (c : Cmd),
      (Due s m 0x04A1 c) ∧ (targetOf m c = 0xFF ∨ partTable s (targetOf m c) = none)) :=
  ⟨⟨(taking 0 (cmdOf 0x4a0 63 (leBytes 8 0x7ffff03f013f))
    ({ up with fh := { up.fh with binds := [(0, { part := 63, cell := 63, down := true, ant := 63 })] }, cells := [(63 * 64 + 63, { state := .running })], parts := [(63, { state := .active, radio := true, radioSlot := 7 })], tts := { up.tts with tables := [(7, { state := .running, part := 63, insts := [(0, { slot := 508640, sealed := true })] })] } })),
    0, (cmdOf 0x4a0 63 (leBytes 8 0x7ffff03f013f)), 63, 63, 1, 63, 32767, (-16),
      by decide +kernel⟩,
    ⟨(taking 0 (cmdOf 0x4a0 63 (leBytes 8 0x8000f03f013f))
      ({ up with fh := { up.fh with binds := [(0, { part := 63, cell := 63, down := true, ant := 63 })] }, cells := [(63 * 64 + 63, { state := .running })], parts := [(63, { state := .active, radio := true, radioSlot := 7 })], tts := { up.tts with tables := [(7, { state := .running, part := 63, insts := [(0, { slot := 508640, sealed := true })] })] } })),
      0, (cmdOf 0x4a0 63 (leBytes 8 0x8000f03f013f)), 63, 63, 1, 63, 32768, (-16),
      by decide +kernel⟩,
    ⟨(taking 0 (cmdOf 0x4a0 63 (leBytes 8 0x7ffff03e013f))
      ({ up with fh := { up.fh with binds := [(0, { part := 63, cell := 63, down := true, ant := 63 })] }, cells := [(63 * 64 + 63, { state := .running })], parts := [(63, { state := .active, radio := true, radioSlot := 7 })], tts := { up.tts with tables := [(7, { state := .running, part := 63, insts := [(0, { slot := 508640, sealed := true })] })] } })),
      0, (cmdOf 0x4a0 63 (leBytes 8 0x7ffff03e013f)), 63, 63, 1, 62, 32767, (-16),
      by decide +kernel⟩,
    ⟨(taking 0 (cmdOf 0x4a0 63 (leBytes 8 0x7ffff03f013f))
      ({ up with fh := { up.fh with binds := [(0, { part := 63, cell := 63, down := true, ant := 63 })] }, cells := [(63 * 64 + 63, { state := .absent })], parts := [(63, { state := .active, radio := true, radioSlot := 7 })], tts := { up.tts with tables := [(7, { state := .running, part := 63, insts := [(0, { slot := 508640, sealed := true })] })] } })),
      0, (cmdOf 0x4a0 63 (leBytes 8 0x7ffff03f013f)), 63, 63, 1, 63, 32767, (-16),
      by decide +kernel⟩,
    ⟨(taking 79 (cmdOf 0x4a1 63 (leBytes 12 0x790004000000e8d49c0000))
      ({ up with parts := [(63, { state := .active, radio := true, radioSlot := 7 })], tts := { up.tts with tables := [(7, { state := .running, part := 63, n0 := 508600 })], stages := [{ table := 7, slot := 508626, entry := 4, unit := 3, cell := 63, status := 0, slack := 5, run := 6, cause := 0, position := 0 }] } })),
      79, (cmdOf 0x4a1 63 (leBytes 12 0x790004000000e8d49c0000)), 63, 7,
      by decide +kernel⟩,
    ⟨(taking 79 (cmdOf 0x4a1 63 (leBytes 12 0x7800040000000000000005))
      ({ up with parts := [(63, { state := .active, radio := true, radioSlot := 7 })], tts := { up.tts with tables := [(7, { state := .running, part := 63, n0 := 508600 })], stages := [{ table := 7, slot := 508626, entry := 4, unit := 3, cell := 63, status := 0, slack := 5, run := 6, cause := 0, position := 0 }] } })),
      79, (cmdOf 0x4a1 63 (leBytes 12 0x7800040000000000000005)), 63, 7,
      by decide +kernel⟩,
    ⟨(taking 79 (cmdOf 0x4a1 63 (leBytes 12 0x780004000000e8d49c0000))
      ({ up with parts := [(63, { state := .active, radio := true, radioSlot := 7 })], tts := { up.tts with tables := [(7, { state := .running, part := 63, n0 := 508600 })], stages := [{ table := 7, slot := 508626, entry := 4, unit := 3, cell := 63, status := 0, slack := 5, run := 6, cause := 0, position := 0 }] } })),
      79, (cmdOf 0x4a1 63 (leBytes 12 0x780004000000e8d49c0000)), 63, 7, 508626,
      by decide +kernel⟩,
    ⟨(taking 0 (cmdOf 0x4a1 255 (leBytes 12 0)) up), 0, (cmdOf 0x4a1 255 (leBytes 12 0)),
      by decide +kernel⟩⟩

theorem test_witness_CellCost :
    (∃ (x : CellConfig),
      (x.fdd = false → 0 < x.periodSlots))
    ∧ (∃ (x : CellConfig),
      (x.mu = 1) ∧ (x.prbDl = 273) ∧ (x.prbUl = 273) ∧ (x.antTx = 4) ∧ (x.antRx = 4) ∧ (x.layersDl = 4) ∧ (x.layersUl = 4) ∧
        (x.fdd = false) ∧ (0 < x.periodSlots) ∧ (5 * x.uSlots = x.periodSlots)) :=
  ⟨⟨{ fdd := false, periodSlots := 5, uSlots := 1, mu := 1, prbUl := 273, layersUl := 4 },
      by decide +kernel⟩,
    ⟨{ mu := 1, prbDl := 273, prbUl := 273, antTx := 4, antRx := 4, layersDl := 4, layersUl := 4, uSlots := 1, periodSlots := 5 },
      by decide +kernel⟩⟩

theorem test_witness_CellCommands :
    (∃ (s : State) (m : Nat) (c : Cmd) (p : Nat) (cell : Nat) (x : CellConfig) (room : _) (u : _),
      (makeBindings p cell x ((List.range x.bindCount).map (fun i => hdmRead s (x.bindList + 16 * i) 16)) s = .ok u) ∧ (Due s
        m 0x0400 c) ∧ (targetOf m c = p) ∧ (cell = field c.payload 0 1) ∧ (x = cellConfig { m := m, target := p, cmd := c }) ∧
        (p < 64) ∧ ((partOf s p).radio = true) ∧ ((cellTable s p).state ≠ .empty) ∧ (cell < 64 → (cellOf s p cell).state =
        .absent) ∧ (x.bindCount ≠ 0) ∧ (x.poolSlots ≠ 0) ∧ (x.ldIter ≠ 0) ∧ (x.ulDeliver ≠ 0) ∧ (x.fdd = false → x.periodSlots
        ≠ 0) ∧ (cfgOk s p cell x = true) ∧ (tmplAgrees (cellTable s p) x = true) ∧ (inShare s p x.indBase x.indLen = true) ∧
        (inShare s p x.bindList (16 * x.bindCount) = true) ∧ (partCost s p + cellCost x ≤ (partOf s p).cuQuota) ∧ (allCost s +
        cellCost x ≤ 64 * s.dev.radioCuMax) ∧ (allPools s + poolUnits x ≤ 7168 * 16) ∧ (poolRoom s (cellStack (cellTable s p)
        cell) (poolUnits x * 65536) = some room))
    ∧ (∃ (s : State) (m : Nat) (c : Cmd) (p : Nat) (cell : Nat) (x : CellConfig) (room : _) (st : Status),
      (makeBindings p cell x ((List.range x.bindCount).map (fun i => hdmRead s (x.bindList + 16 * i) 16)) s = .error st) ∧
        (Due s m 0x0400 c) ∧ (targetOf m c = p) ∧ (cell = field c.payload 0 1) ∧ (x = cellConfig
        { m := m, target := p, cmd := c }) ∧ (p < 64) ∧ ((partOf s p).radio = true) ∧ ((cellTable s p).state ≠ .empty) ∧ (cell
        < 64 → (cellOf s p cell).state = .absent) ∧ (x.bindCount ≠ 0) ∧ (x.poolSlots ≠ 0) ∧ (x.ldIter ≠ 0) ∧ (x.ulDeliver ≠ 0)
        ∧ (x.fdd = false → x.periodSlots ≠ 0) ∧ (cfgOk s p cell x = true) ∧ (tmplAgrees (cellTable s p) x = true) ∧ (inShare s
        p x.indBase x.indLen = true) ∧ (inShare s p x.bindList (16 * x.bindCount) = true) ∧ (partCost s p + cellCost x ≤
        (partOf s p).cuQuota) ∧ (allCost s + cellCost x ≤ 64 * s.dev.radioCuMax) ∧ (allPools s + poolUnits x ≤ 7168 * 16) ∧
        (poolRoom s (cellStack (cellTable s p) cell) (poolUnits x * 65536) = some room))
    ∧ (∃ (s : State) (m : Nat) (c : Cmd) (p : Nat) (cell : Nat) (x : CellConfig),
      (Due s m 0x0400 c) ∧ (targetOf m c = p) ∧ (cell = field c.payload 0 1) ∧ (x = cellConfig
        { m := m, target := p, cmd := c }) ∧ (p < 64) ∧ ((partOf s p).radio = true) ∧ ((cellTable s p).state ≠ .empty) ∧ (cell
        < 64 → (cellOf s p cell).state = .absent) ∧ (x.bindCount ≠ 0) ∧ (x.poolSlots ≠ 0) ∧ (x.ldIter ≠ 0) ∧ (x.ulDeliver ≠ 0)
        ∧ (x.fdd = false → x.periodSlots ≠ 0) ∧ (cfgOk s p cell x = true) ∧ (tmplAgrees (cellTable s p) x = true) ∧ (inShare s
        p x.indBase x.indLen = true) ∧ (inShare s p x.bindList (16 * x.bindCount) = true) ∧ ((partOf s p).cuQuota < partCost s
        p + cellCost x))
    ∧ (∃ (s : State) (m : Nat) (c : Cmd) (p : Nat) (cell : Nat) (x : CellConfig),
      (Due s m 0x0400 c) ∧ (targetOf m c = p) ∧ (cell = field c.payload 0 1) ∧ (x = cellConfig
        { m := m, target := p, cmd := c }) ∧ (p < 64) ∧ ((partOf s p).radio = true) ∧ ((cellTable s p).state ≠ .empty) ∧ (cell
        < 64 → (cellOf s p cell).state = .absent) ∧ (x.bindCount ≠ 0) ∧ (x.poolSlots ≠ 0) ∧ (x.ldIter ≠ 0) ∧ (x.ulDeliver ≠ 0)
        ∧ (x.fdd = false → x.periodSlots ≠ 0) ∧ (cfgOk s p cell x = true) ∧ (tmplAgrees (cellTable s p) x = true) ∧ (inShare s
        p x.indBase x.indLen = true) ∧ (inShare s p x.bindList (16 * x.bindCount) = true) ∧ (partCost s p + cellCost x ≤
        (partOf s p).cuQuota) ∧ (allCost s + cellCost x ≤ 64 * s.dev.radioCuMax) ∧ (7168 * 16 < allPools s + poolUnits x))
    ∧ (∃ (s : State) (m : Nat) (c : Cmd) (p : Nat) (cell : Nat) (x : CellConfig),
      (Due s m 0x0400 c) ∧ (targetOf m c = p) ∧ (cell = field c.payload 0 1) ∧ (x = cellConfig
        { m := m, target := p, cmd := c }) ∧ (p < 64) ∧ ((partOf s p).radio = true) ∧ ((cellTable s p).state ≠ .empty) ∧ (cell
        < 64 → (cellOf s p cell).state = .absent) ∧ (x.bindCount ≠ 0) ∧ (x.poolSlots ≠ 0) ∧ (x.ldIter ≠ 0) ∧ (x.ulDeliver ≠ 0)
        ∧ (x.fdd = false → x.periodSlots ≠ 0) ∧ (cfgOk s p cell x = true) ∧ (tmplAgrees (cellTable s p) x = true) ∧ (inShare s
        p x.indBase x.indLen = true) ∧ (inShare s p x.bindList (16 * x.bindCount) = true) ∧ (partCost s p + cellCost x ≤
        (partOf s p).cuQuota) ∧ (64 * s.dev.radioCuMax < allCost s + cellCost x))
    ∧ (∃ (s : State) (m : Nat) (c : Cmd) (p : Nat) (cell : Nat) (x : CellConfig),
      (Due s m 0x0400 c) ∧ (targetOf m c = p) ∧ (cell = field c.payload 0 1) ∧ (x = cellConfig
        { m := m, target := p, cmd := c }) ∧ (64 ≤ p ∨ (partOf s p).radio = false ∨ (cellTable s p).state = .empty))
    ∧ (∃ (s : State) (m : Nat) (c : Cmd) (p : Nat) (cell : Nat) (x : CellConfig),
      (Due s m 0x0400 c) ∧ (targetOf m c = p) ∧ (cell = field c.payload 0 1) ∧ (x = cellConfig
        { m := m, target := p, cmd := c }) ∧ (p < 64) ∧ ((partOf s p).radio = true) ∧ ((cellTable s p).state ≠ .empty) ∧ (cell
        < 64) ∧ ((cellOf s p cell).state ≠ .absent))
    ∧ (∃ (s : State) (m : Nat) (c : Cmd) (p : Nat) (cell : Nat),
      (Due s m 0x0401 c) ∧ (targetOf m c = p) ∧ (p < 64) ∧ (cell = field c.payload 0 1) ∧ (cell < 64) ∧ ((cellOf s p
        cell).state = .configured ∨ (cellOf s p cell).state = .standby))
    ∧ (∃ (s : State) (m : Nat) (c : Cmd) (p : Nat) (cell : Nat),
      (Due s m 0x0401 c) ∧ (targetOf m c = p) ∧ (p < 64) ∧ (cell = field c.payload 0 1) ∧ (cell < 64) ∧ ((cellOf s p
        cell).state = .running ∨ (cellOf s p cell).state = .stopping ∨ (cellOf s p cell).state = .moving ∨ (cellOf s p
        cell).state = .absent))
    ∧ (∃ (s : State) (m : Nat) (c : Cmd) (p : Nat) (cell : Nat),
      (Due s m 0x0402 c) ∧ (targetOf m c = p) ∧ (p < 64) ∧ (cell = field c.payload 0 1) ∧ (cell < 64) ∧ (field c.payload 1 1 ≤
        1) ∧ ((cellOf s p cell).state ≠ .absent)) :=
  ⟨⟨(taking 0 (cmdOf 0x400 63 (leBytes 72
    0x10cc0000000000000100000000000000200000000000000000000000010000000b000a08091f1005010404040401110111013f))
    ({ up with parts := [(63, { state := .active, radio := true, radioSlot := 7, cuQuota := 64, hdmBase := 1048576, hdmLen := 16777216 })], tts := { up.tts with tables := [(7, { state := .loaded, part := 63, insts := [(0, { slot := 508640, sealed := true })], tmpl := { cells := [{ index := 9, config := { mu := 1, prbDl := 273, prbUl := 273, antTx := 4, antRx := 4, layersDl := 4, layersUl := 4, uSlots := 1, periodSlots := 5 }, cost64 := 64 }] } })] }, rings := [(10, { part := 63, cls := 4, toHost := true }), (11, { part := 63, cls := 4 })], mem := (memWriteBytes {} (hdmAt 1100800) (leBytes 16 0xffff043f011f)), cells := [], dev := { up.dev with radioCuMax := 320 } })),
    0, (cmdOf 0x400 63 (leBytes 72
    0x10cc0000000000000100000000000000200000000000000000000000010000000b000a08091f1005010404040401110111013f)), 63, 63,
    (cellConfig
    { m := 0, target := 63, cmd := (cmdOf 0x400 63 (leBytes 72 0x10cc0000000000000100000000000000200000000000000000000000010000000b000a08091f1005010404040401110111013f)) }),
    0, (down_binding 63 63 (cellConfig
    { m := 0, target := 63, cmd := (cmdOf 0x400 63 (leBytes 72 0x10cc0000000000000100000000000000200000000000000000000000010000000b000a08091f1005010404040401110111013f)) })
    (hdmRead (taking 0 (cmdOf 0x400 63 (leBytes 72
    0x10cc0000000000000100000000000000200000000000000000000000010000000b000a08091f1005010404040401110111013f))
    ({ up with parts := [(63, { state := .active, radio := true, radioSlot := 7, cuQuota := 64, hdmBase := 1048576, hdmLen := 16777216 })], tts := { up.tts with tables := [(7, { state := .loaded, part := 63, insts := [(0, { slot := 508640, sealed := true })], tmpl := { cells := [{ index := 9, config := { mu := 1, prbDl := 273, prbUl := 273, antTx := 4, antRx := 4, layersDl := 4, layersUl := 4, uSlots := 1, periodSlots := 5 }, cost64 := 64 }] } })] }, rings := [(10, { part := 63, cls := 4, toHost := true }), (11, { part := 63, cls := 4 })], mem := (memWriteBytes {} (hdmAt 1100800) (leBytes 16 0xffff043f011f)), cells := [], dev := { up.dev with radioCuMax := 320 } }))
    (1100800 + 16 * 0) 16) (taking 0 (cmdOf 0x400 63 (leBytes 72
    0x10cc0000000000000100000000000000200000000000000000000000010000000b000a08091f1005010404040401110111013f))
    ({ up with parts := [(63, { state := .active, radio := true, radioSlot := 7, cuQuota := 64, hdmBase := 1048576, hdmLen := 16777216 })], tts := { up.tts with tables := [(7, { state := .loaded, part := 63, insts := [(0, { slot := 508640, sealed := true })], tmpl := { cells := [{ index := 9, config := { mu := 1, prbDl := 273, prbUl := 273, antTx := 4, antRx := 4, layersDl := 4, layersUl := 4, uSlots := 1, periodSlots := 5 }, cost64 := 64 }] } })] }, rings := [(10, { part := 63, cls := 4, toHost := true }), (11, { part := 63, cls := 4 })], mem := (memWriteBytes {} (hdmAt 1100800) (leBytes 16 0xffff043f011f)), cells := [], dev := { up.dev with radioCuMax := 320 } }))
    (by decide +kernel) rfl (by decide +kernel)).choose,
      (down_binding 63 63 (cellConfig
        { m := 0, target := 63, cmd := (cmdOf 0x400 63 (leBytes 72 0x10cc0000000000000100000000000000200000000000000000000000010000000b000a08091f1005010404040401110111013f)) })
        (hdmRead (taking 0 (cmdOf 0x400 63 (leBytes 72
        0x10cc0000000000000100000000000000200000000000000000000000010000000b000a08091f1005010404040401110111013f))
        ({ up with parts := [(63, { state := .active, radio := true, radioSlot := 7, cuQuota := 64, hdmBase := 1048576, hdmLen := 16777216 })], tts := { up.tts with tables := [(7, { state := .loaded, part := 63, insts := [(0, { slot := 508640, sealed := true })], tmpl := { cells := [{ index := 9, config := { mu := 1, prbDl := 273, prbUl := 273, antTx := 4, antRx := 4, layersDl := 4, layersUl := 4, uSlots := 1, periodSlots := 5 }, cost64 := 64 }] } })] }, rings := [(10, { part := 63, cls := 4, toHost := true }), (11, { part := 63, cls := 4 })], mem := (memWriteBytes {} (hdmAt 1100800) (leBytes 16 0xffff043f011f)), cells := [], dev := { up.dev with radioCuMax := 320 } }))
        (1100800 + 16 * 0) 16) (taking 0 (cmdOf 0x400 63 (leBytes 72
        0x10cc0000000000000100000000000000200000000000000000000000010000000b000a08091f1005010404040401110111013f))
        ({ up with parts := [(63, { state := .active, radio := true, radioSlot := 7, cuQuota := 64, hdmBase := 1048576, hdmLen := 16777216 })], tts := { up.tts with tables := [(7, { state := .loaded, part := 63, insts := [(0, { slot := 508640, sealed := true })], tmpl := { cells := [{ index := 9, config := { mu := 1, prbDl := 273, prbUl := 273, antTx := 4, antRx := 4, layersDl := 4, layersUl := 4, uSlots := 1, periodSlots := 5 }, cost64 := 64 }] } })] }, rings := [(10, { part := 63, cls := 4, toHost := true }), (11, { part := 63, cls := 4 })], mem := (memWriteBytes {} (hdmAt 1100800) (leBytes 16 0xffff043f011f)), cells := [], dev := { up.dev with radioCuMax := 320 } }))
        (by decide +kernel) rfl (by decide +kernel)).choose_spec, by decide +kernel⟩,
    ⟨(taking 0 (cmdOf 0x400 63 (leBytes 72
      0x10cc0000000000000100000000000000200000000000000000000000010000000b000a08091f1005010404040401110111013f))
      ({ up with parts := [(63, { state := .active, radio := true, radioSlot := 7, cuQuota := 64, hdmBase := 1048576, hdmLen := 16777216 })], tts := { up.tts with tables := [(7, { state := .loaded, part := 63, insts := [(0, { slot := 508640, sealed := true })], tmpl := { cells := [{ index := 9, config := { mu := 1, prbDl := 273, prbUl := 273, antTx := 4, antRx := 4, layersDl := 4, layersUl := 4, uSlots := 1, periodSlots := 5 }, cost64 := 64 }] } })] }, rings := [(10, { part := 63, cls := 4, toHost := true }), (11, { part := 63, cls := 4 })], mem := (memWriteBytes {} (hdmAt 1100800) (leBytes 16 0xffff043f021f)), cells := [], dev := { up.dev with radioCuMax := 320 } })),
      0, (cmdOf 0x400 63 (leBytes 72
      0x10cc0000000000000100000000000000200000000000000000000000010000000b000a08091f1005010404040401110111013f)), 63, 63,
      (cellConfig
      { m := 0, target := 63, cmd := (cmdOf 0x400 63 (leBytes 72 0x10cc0000000000000100000000000000200000000000000000000000010000000b000a08091f1005010404040401110111013f)) }),
      0, .badField,
      rfl, by decide +kernel⟩,
    ⟨(taking 0 (cmdOf 0x400 63 (leBytes 72
      0x10cc0000000000000100000000000000200000000000000000000000010000000b000a08091f1005010404040401110111013f))
      ({ up with parts := [(63, { state := .active, radio := true, radioSlot := 7, cuQuota := 63, hdmBase := 1048576, hdmLen := 16777216 })], tts := { up.tts with tables := [(7, { state := .loaded, part := 63, insts := [(0, { slot := 508640, sealed := true })], tmpl := { cells := [{ index := 9, config := { mu := 1, prbDl := 273, prbUl := 273, antTx := 4, antRx := 4, layersDl := 4, layersUl := 4, uSlots := 1, periodSlots := 5 }, cost64 := 64 }] } })] }, rings := [(10, { part := 63, cls := 4, toHost := true }), (11, { part := 63, cls := 4 })], mem := (memWriteBytes {} (hdmAt 1100800) (leBytes 16 0xffff043f011f)), cells := [], dev := { up.dev with radioCuMax := 320 } })),
      0, (cmdOf 0x400 63 (leBytes 72
      0x10cc0000000000000100000000000000200000000000000000000000010000000b000a08091f1005010404040401110111013f)), 63, 63,
      (cellConfig
      { m := 0, target := 63, cmd := (cmdOf 0x400 63 (leBytes 72 0x10cc0000000000000100000000000000200000000000000000000000010000000b000a08091f1005010404040401110111013f)) }),
      by decide +kernel⟩,
    ⟨(taking 0 (cmdOf 0x400 63 (leBytes 72
      0x10cc0000000000000100000000000000200000000000000000000000010000000b000a08091f1005010404040401110111013f))
      ({ up with parts := [(63, { state := .active, radio := true, radioSlot := 7, cuQuota := 640, hdmBase := 1048576, hdmLen := 16777216 })], tts := { up.tts with tables := [(7, { state := .loaded, part := 63, insts := [(0, { slot := 508640, sealed := true })], tmpl := { cells := [{ index := 9, config := { mu := 1, prbDl := 273, prbUl := 273, antTx := 4, antRx := 4, layersDl := 4, layersUl := 4, uSlots := 1, periodSlots := 5 }, cost64 := 64 }] } })] }, rings := [(10, { part := 63, cls := 4, toHost := true }), (11, { part := 63, cls := 4 })], mem := (memWriteBytes {} (hdmAt 1100800) (leBytes 16 0xffff043f011f)), cells := [(63 * 64 + 1, { state := .configured, cost64 := 0, cfg := { prbUl := 273, layersUl := 4, mu := 1, poolSlots := 2000 } }), (63 * 64 + 2, { state := .configured, cost64 := 0, cfg := { prbUl := 273, layersUl := 4, mu := 1, poolSlots := 2000 } })], dev := { up.dev with radioCuMax := 320 } })),
      0, (cmdOf 0x400 63 (leBytes 72
      0x10cc0000000000000100000000000000200000000000000000000000010000000b000a08091f1005010404040401110111013f)), 63, 63,
      (cellConfig
      { m := 0, target := 63, cmd := (cmdOf 0x400 63 (leBytes 72 0x10cc0000000000000100000000000000200000000000000000000000010000000b000a08091f1005010404040401110111013f)) }),
      by decide +kernel⟩,
    ⟨(taking 0 (cmdOf 0x400 63 (leBytes 72
      0x10cc0000000000000100000000000000200000000000000000000000010000000b000a08091f1005010404040401110111013f))
      ({ up with parts := [(63, { state := .active, radio := true, radioSlot := 7, cuQuota := 64, hdmBase := 1048576, hdmLen := 16777216 })], tts := { up.tts with tables := [(7, { state := .loaded, part := 63, insts := [(0, { slot := 508640, sealed := true })], tmpl := { cells := [{ index := 9, config := { mu := 1, prbDl := 273, prbUl := 273, antTx := 4, antRx := 4, layersDl := 4, layersUl := 4, uSlots := 1, periodSlots := 5 }, cost64 := 64 }] } })] }, rings := [(10, { part := 63, cls := 4, toHost := true }), (11, { part := 63, cls := 4 })], mem := (memWriteBytes {} (hdmAt 1100800) (leBytes 16 0xffff043f011f)), cells := [], dev := { up.dev with radioCuMax := 0 } })),
      0, (cmdOf 0x400 63 (leBytes 72
      0x10cc0000000000000100000000000000200000000000000000000000010000000b000a08091f1005010404040401110111013f)), 63, 63,
      (cellConfig
      { m := 0, target := 63, cmd := (cmdOf 0x400 63 (leBytes 72 0x10cc0000000000000100000000000000200000000000000000000000010000000b000a08091f1005010404040401110111013f)) }),
      by decide +kernel⟩,
    ⟨(taking 0 (cmdOf 0x400 63 (leBytes 72
      0x10cc0000000000000100000000000000200000000000000000000000010000000b000a08091f1005010404040401110111013f))
      ({ up with parts := [(63, { state := .active, radio := true, radioSlot := 7, cuQuota := 64, hdmBase := 1048576, hdmLen := 16777216 })], tts := { up.tts with tables := [(7, { state := .empty, part := 63, insts := [(0, { slot := 508640, sealed := true })], tmpl := { cells := [{ index := 9, config := { mu := 1, prbDl := 273, prbUl := 273, antTx := 4, antRx := 4, layersDl := 4, layersUl := 4, uSlots := 1, periodSlots := 5 }, cost64 := 64 }] } })] }, rings := [(10, { part := 63, cls := 4, toHost := true }), (11, { part := 63, cls := 4 })], mem := (memWriteBytes {} (hdmAt 1100800) (leBytes 16 0xffff043f011f)), cells := [], dev := { up.dev with radioCuMax := 320 } })),
      0, (cmdOf 0x400 63 (leBytes 72
      0x10cc0000000000000100000000000000200000000000000000000000010000000b000a08091f1005010404040401110111013f)), 63, 63,
      (cellConfig
      { m := 0, target := 63, cmd := (cmdOf 0x400 63 (leBytes 72 0x10cc0000000000000100000000000000200000000000000000000000010000000b000a08091f1005010404040401110111013f)) }),
      by decide +kernel⟩,
    ⟨(taking 0 (cmdOf 0x400 63 (leBytes 72
      0x10cc0000000000000100000000000000200000000000000000000000010000000b000a08091f1005010404040401110111013f))
      ({ up with parts := [(63, { state := .active, radio := true, radioSlot := 7, cuQuota := 64, hdmBase := 1048576, hdmLen := 16777216 })], tts := { up.tts with tables := [(7, { state := .loaded, part := 63, insts := [(0, { slot := 508640, sealed := true })], tmpl := { cells := [{ index := 9, config := { mu := 1, prbDl := 273, prbUl := 273, antTx := 4, antRx := 4, layersDl := 4, layersUl := 4, uSlots := 1, periodSlots := 5 }, cost64 := 64 }] } })] }, rings := [(10, { part := 63, cls := 4, toHost := true }), (11, { part := 63, cls := 4 })], mem := (memWriteBytes {} (hdmAt 1100800) (leBytes 16 0xffff043f011f)), cells := [(63 * 64 + 63, { state := .configured })], dev := { up.dev with radioCuMax := 320 } })),
      0, (cmdOf 0x400 63 (leBytes 72
      0x10cc0000000000000100000000000000200000000000000000000000010000000b000a08091f1005010404040401110111013f)), 63, 63,
      (cellConfig
      { m := 0, target := 63, cmd := (cmdOf 0x400 63 (leBytes 72 0x10cc0000000000000100000000000000200000000000000000000000010000000b000a08091f1005010404040401110111013f)) }),
      by decide +kernel⟩,
    ⟨(taking 0 (cmdOf 0x401 63 (leBytes 1 0x3f))
      ({ up with parts := [(63, { state := .active, radio := true, radioSlot := 7, cuQuota := 64, hdmBase := 1048576, hdmLen := 16777216 })], cells := [(63 * 64 + 63, { state := .standby })], fh := { up.fh with binds := [(0, { part := 63, cell := 63 }), (1, { part := 62 })] } })),
      0, (cmdOf 0x401 63 (leBytes 1 0x3f)), 63, 63,
      by decide +kernel⟩,
    ⟨(taking 0 (cmdOf 0x401 63 (leBytes 1 0x3f))
      ({ up with parts := [(63, { state := .active, radio := true, radioSlot := 7, cuQuota := 64, hdmBase := 1048576, hdmLen := 16777216 })], cells := [(63 * 64 + 63, { state := .moving })], fh := { up.fh with binds := [(0, { part := 63, cell := 63 }), (1, { part := 62 })] } })),
      0, (cmdOf 0x401 63 (leBytes 1 0x3f)), 63, 63,
      by decide +kernel⟩,
    ⟨(taking 79 (cmdOf 0x402 63 (leBytes 1 0x13f))
      ({ up with parts := [(63, { state := .active, radio := true, radioSlot := 7, cuQuota := 64, hdmBase := 1048576, hdmLen := 16777216 })], cells := [(63 * 64 + 63, { state := .running })], fh := { up.fh with binds := [(0, { part := 63, cell := 63 }), (1, { part := 62 })] } })),
      79, (cmdOf 0x402 63 (leBytes 1 0x13f)), 63, 63,
      by decide +kernel⟩⟩

theorem test_witness_TwinPairing :
    (∃ (s : State) (m : Nat) (c : Cmd) (p : Nat) (cell : Nat) (dev : Nat),
      (Due s m 0x0403 c) ∧ (targetOf m c = p) ∧ (p < 64) ∧ (cell = field c.payload 0 1) ∧ (cell < 64) ∧ (dev = field c.payload
        2 2) ∧ (dev / 64 = s.fab.device / 64) ∧ (s.mbr.members.contains (dev % 64) = true) ∧ ((cellOf s p cell).state =
        .configured ∨ (cellOf s p cell).state = .running) ∧ ((cellOf s p cell).role = .unpaired))
    ∧ (∃ (s : State) (m : Nat) (c : Cmd) (p : Nat) (cell : Nat) (dev : Nat),
      (Due s m 0x0403 c) ∧ (targetOf m c = p) ∧ (p < 64) ∧ (cell = field c.payload 0 1) ∧ (cell < 64) ∧ (dev = field c.payload
        2 2) ∧ (dev / 64 = s.fab.device / 64) ∧ (s.mbr.members.contains (dev % 64) = true) ∧ ((cellOf s p cell).role ≠
        .unpaired ∨ (cellOf s p cell).state = .standby ∨ (cellOf s p cell).state = .absent))
    ∧ (∃ (s : State) (m : Nat) (c : Cmd) (p : Nat) (cell : Nat) (dev : Nat),
      (Due s m 0x0403 c) ∧ (targetOf m c = p) ∧ (p < 64) ∧ (cell = field c.payload 0 1) ∧ (cell < 64) ∧ (dev = field c.payload
        2 2) ∧ (dev / 64 ≠ s.fab.device / 64 ∨ s.mbr.members.contains (dev % 64) = false))
    ∧ (∃ (s : State) (m : Nat) (c : Cmd),
      (Due s m 0x0403 c) ∧ (targetOf m c < 64))
    ∧ (∃ (s : State) (m : Nat) (c : Cmd) (p : Nat) (cell : Nat),
      (Due s m 0x0404 c) ∧ (targetOf m c = p) ∧ (p < 64) ∧ (cell = field c.payload 0 1) ∧ (cell < 64) ∧ ((cellOf s p
        cell).state ≠ .absent) ∧ ((cellOf s p cell).role ≠ .unpaired))
    ∧ (∃ (s : State) (m : Nat) (c : Cmd) (p : Nat) (cell : Nat),
      (Due s m 0x0404 c) ∧ (targetOf m c = p) ∧ (p < 64) ∧ (cell = field c.payload 0 1) ∧ (cell < 64) ∧ ((cellOf s p
        cell).role = .unpaired)) :=
  ⟨⟨(taking 0 (cmdOf 0x403 63 (leBytes 6 0x201007f003f))
    ({ up with parts := [(63, { state := .active, radio := true, radioSlot := 7, cuQuota := 64, hdmBase := 1048576, hdmLen := 16777216 })], cells := [(63 * 64 + 63, { state := .running, gains := [(3, (4, 5))], harq := [(1, { slot := some 2 })] })], fab := { up.fab with device := 64 }, mbr := { up.mbr with members := [63] } })),
    0, (cmdOf 0x403 63 (leBytes 6 0x201007f003f)), 63, 63, 127,
      by decide +kernel⟩,
    ⟨(taking 0 (cmdOf 0x403 63 (leBytes 6 0x201007f003f))
      ({ up with parts := [(63, { state := .active, radio := true, radioSlot := 7, cuQuota := 64, hdmBase := 1048576, hdmLen := 16777216 })], cells := [(63 * 64 + 63, { state := .running, role := .active })], fab := { up.fab with device := 64 }, mbr := { up.mbr with members := [63] } })),
      0, (cmdOf 0x403 63 (leBytes 6 0x201007f003f)), 63, 63, 127,
      by decide +kernel⟩,
    ⟨(taking 0 (cmdOf 0x403 63 (leBytes 6 0x80003f))
      ({ up with parts := [(63, { state := .active, radio := true, radioSlot := 7, cuQuota := 64, hdmBase := 1048576, hdmLen := 16777216 })], cells := [(63 * 64 + 63, { state := .running })], fab := { up.fab with device := 64 }, mbr := { up.mbr with members := [63] } })),
      0, (cmdOf 0x403 63 (leBytes 6 0x80003f)), 63, 63, 128,
      by decide +kernel⟩,
    ⟨(taking 0 (cmdOf 0x403 63 (leBytes 6 0x7f003f))
      ({ up with parts := [(63, { state := .active, radio := true, radioSlot := 7, cuQuota := 64, hdmBase := 1048576, hdmLen := 16777216 })], cells := [(63 * 64 + 63, { state := .running })], fab := { up.fab with device := 64 }, mbr := { up.mbr with members := [63] } })),
      0, (cmdOf 0x403 63 (leBytes 6 0x7f003f)),
      by decide +kernel⟩,
    ⟨(taking 0 (cmdOf 0x404 63 (leBytes 1 0x3f))
      ({ up with parts := [(63, { state := .active, radio := true, radioSlot := 7, cuQuota := 64, hdmBase := 1048576, hdmLen := 16777216 })], cells := [(63 * 64 + 63, { state := .running, role := .active, peerDev := 127 })], fab := { up.fab with device := 64 }, mbr := { up.mbr with members := [63] } })),
      0, (cmdOf 0x404 63 (leBytes 1 0x3f)), 63, 63,
      by decide +kernel⟩,
    ⟨(taking 0 (cmdOf 0x404 63 (leBytes 1 0x3f))
      ({ up with parts := [(63, { state := .active, radio := true, radioSlot := 7, cuQuota := 64, hdmBase := 1048576, hdmLen := 16777216 })], cells := [(63 * 64 + 63, { state := .running })], fab := { up.fab with device := 64 }, mbr := { up.mbr with members := [63] } })),
      0, (cmdOf 0x404 63 (leBytes 1 0x3f)), 63, 63,
      by decide +kernel⟩⟩

theorem test_witness_IndicationArea :
    (∃ (s : State) (p : Nat) (c : Nat) (identity : Nat) (body : List Byte) (r : Ring) (msg : List Byte),
      ((cellOf s p c).state ≠ .absent) ∧ (ringOf s (cellOf s p c).cfg.indRing = some r) ∧ (msg = leBytes 2 identity ++ leBytes
        4 body.length ++ body) ∧ (r.toHost = true) ∧ (r.faulted = false) ∧ (idxSub r.devIdx r.hostIdx < ringSize r) ∧
        (liveSpans s (cellOf s p c) = []) ∧ ((cellOf s p c).indPos + msg.length + 63 < (cellOf s p c).cfg.indLen) ∧ ((cellOf s
        p c).cfg.indBase + (cellOf s p c).cfg.indLen ≤ r.base))
    ∧ (∃ (s : State) (p : Nat) (c : Nat) (identity : Nat) (body : List Byte) (r : Ring) (msg : List Byte),
      ((cellOf s p c).state ≠ .absent) ∧ (ringOf s (cellOf s p c).cfg.indRing = some r) ∧ (msg = leBytes 2 identity ++ leBytes
        4 body.length ++ body) ∧ (r.faulted = true ∨ ringSize r ≤ idxSub r.devIdx r.hostIdx)) :=
  ⟨⟨{ up with parts := [(63, { state := .active, radio := true, radioSlot := 7, cuQuota := 64, hdmBase := 1048576, hdmLen := 16777216 })], cells := [(63 * 64 + 63, { state := .running, cfg := { indRing := 10, indBase := 2097152, indLen := 65536 }, indPos := 65408 })], rings := [(10, { base := 16000000, part := 63, cls := 4, toHost := true, devIdx := 15 })] },
    63, 63, 0x82, [1, 2, 3], { base := 16000000, part := 63, cls := 4, toHost := true, devIdx := 15 }, [0x82, 0, 3, 0, 0, 0,
    1, 2, 3],
      by decide +kernel⟩,
    ⟨{ up with parts := [(63, { state := .active, radio := true, radioSlot := 7, cuQuota := 64, hdmBase := 1048576, hdmLen := 16777216 })], cells := [(63 * 64 + 63, { state := .running, cfg := { indRing := 10, indBase := 2097152, indLen := 65536 }, indPos := 65408 })], rings := [(10, { base := 16000000, part := 63, cls := 4, toHost := true, devIdx := 16 })] },
      63, 63, 0x82, [1, 2, 3], { base := 16000000, part := 63, cls := 4, toHost := true, devIdx := 16 }, [0x82, 0, 3, 0, 0, 0,
      1, 2, 3],
      by decide +kernel⟩⟩

theorem test_witness_CellControlMessages :
    (∃ (s : State) (ring : Nat) (f : FapiIn),
      (FapiDue s ring 0x00 f) ∧ ((cellOf s f.part f.cell).state ≠ .standby))
    ∧ (∃ (s : State) (ring : Nat) (f : FapiIn),
      (FapiDue s ring 0x00 f) ∧ ((cellOf s f.part f.cell).state = .standby))
    ∧ (∃ (s : State) (ring : Nat) (f : FapiIn) (items : List ConfigItem),
      (FapiDue s ring 0x02 f) ∧ ((cellOf s f.part f.cell).state = .configured) ∧ (∀ i ∈ items, itemAgrees (cellOf s f.part
        f.cell).cfg i = true))
    ∧ (∃ (s : State) (ring : Nat) (f : FapiIn) (items : List ConfigItem) (i : _),
      (i ∈ items) ∧ (FapiDue s ring 0x02 f) ∧ ((cellOf s f.part f.cell).state = .configured) ∧ (itemAgrees (cellOf s f.part
        f.cell).cfg i = false))
    ∧ (∃ (s : State) (ring : Nat) (f : FapiIn),
      (FapiDue s ring 0x02 f) ∧ ((cellOf s f.part f.cell).state ≠ .configured))
    ∧ (∃ (s : State) (ring : Nat) (f : FapiIn),
      (FapiDue s ring 0x04 f) ∧ ((cellOf s f.part f.cell).state = .configured) ∧ ((cellOf s f.part f.cell).configured = true))
    ∧ (∃ (s : State) (ring : Nat) (f : FapiIn),
      (FapiDue s ring 0x04 f) ∧ ((cellOf s f.part f.cell).state ≠ .configured ∨ (cellOf s f.part f.cell).configured = false))
    ∧ (∃ (s : State) (ring : Nat) (f : FapiIn),
      (FapiDue s ring 0x05 f) ∧ (f.part < 64) ∧ ((cellOf s f.part f.cell).state = .running))
    ∧ (∃ (s : State) (ring : Nat) (f : FapiIn),
      (FapiDue s ring 0x05 f) ∧ (f.part < 64) ∧ ((cellOf s f.part f.cell).state ≠ .running))
    ∧ (∃ (s : State) (ring : Nat) (identity : Nat) (f : FapiIn),
      (FapiDue s ring identity f) ∧ (identity < 65536) ∧ (knownIdentity identity = false))
    ∧ (∃ (s : State) (ring : Nat) (f : FapiIn),
      (ring < 4096) ∧ (fapiHead s ring = some f) ∧ (fapiIdentity s f = 0x04) ∧ (f.len < 8 ∨ 1048576 < f.len)) :=
  ⟨⟨(ringWith 11 4 63 1048576 0x10 77 (leBytes 16 0x3f000000080000000000110000)
    { up with parts := [(63, { state := .active, radio := true, radioSlot := 7, cuQuota := 64, hdmBase := 1048576, hdmLen := 16777216 })], cells := [(63 * 64 + 63, { cfg := { reqRing := 11, mu := 1 }, state := .running })], tts := { up.tts with tables := [(7, { state := .running, part := 63, insts := [(0, { slot := 508640, sealed := true })], tmpl := { cells := [{ index := 9, config := { mu := 1, prbDl := 273, prbUl := 273, antTx := 4, antRx := 4, layersDl := 4, layersUl := 4, uSlots := 1, periodSlots := 5 }, cost64 := 64 }] } })] }, mem := (memWriteBytes {} (hdmAt 1114112) (leBytes 2 0x0)) }),
    11, { part := 63, cell := 63, tag := 77, n := 1, ofs := 1114112, len := 8, arr := 1000000000000 },
      by decide +kernel⟩,
    ⟨(ringWith 11 4 63 1048576 0x10 77 (leBytes 16 0x3f000000080000000000110000)
      { up with parts := [(63, { state := .active, radio := true, radioSlot := 7, cuQuota := 64, hdmBase := 1048576, hdmLen := 16777216 })], cells := [(63 * 64 + 63, { cfg := { reqRing := 11, mu := 1 }, state := .standby })], tts := { up.tts with tables := [(7, { state := .running, part := 63, insts := [(0, { slot := 508640, sealed := true })], tmpl := { cells := [{ index := 9, config := { mu := 1, prbDl := 273, prbUl := 273, antTx := 4, antRx := 4, layersDl := 4, layersUl := 4, uSlots := 1, periodSlots := 5 }, cost64 := 64 }] } })] }, mem := (memWriteBytes {} (hdmAt 1114112) (leBytes 2 0x0)) }),
      11, { part := 63, cell := 63, tag := 77, n := 1, ofs := 1114112, len := 8, arr := 1000000000000 },
      by decide +kernel⟩,
    ⟨(ringWith 11 4 63 1048576 0x10 77 (leBytes 16 0x3f000000080000000000110000)
      { up with parts := [(63, { state := .active, radio := true, radioSlot := 7, cuQuota := 64, hdmBase := 1048576, hdmLen := 16777216 })], cells := [(63 * 64 + 63, { cfg := { reqRing := 11, mu := 1 }, state := .configured })], tts := { up.tts with tables := [(7, { state := .running, part := 63, insts := [(0, { slot := 508640, sealed := true })], tmpl := { cells := [{ index := 9, config := { mu := 1, prbDl := 273, prbUl := 273, antTx := 4, antRx := 4, layersDl := 4, layersUl := 4, uSlots := 1, periodSlots := 5 }, cost64 := 64 }] } })] }, mem := (memWriteBytes {} (hdmAt 1114112) (leBytes 2 0x2)) }),
      11, { part := 63, cell := 63, tag := 77, n := 1, ofs := 1114112, len := 8, arr := 1000000000000 }, [.mu 1, .wideSignal 3
      4],
      by decide +kernel⟩,
    ⟨(ringWith 11 4 63 1048576 0x10 77 (leBytes 16 0x3f000000080000000000110000)
      { up with parts := [(63, { state := .active, radio := true, radioSlot := 7, cuQuota := 64, hdmBase := 1048576, hdmLen := 16777216 })], cells := [(63 * 64 + 63, { cfg := { reqRing := 11, mu := 1 }, state := .configured })], tts := { up.tts with tables := [(7, { state := .running, part := 63, insts := [(0, { slot := 508640, sealed := true })], tmpl := { cells := [{ index := 9, config := { mu := 1, prbDl := 273, prbUl := 273, antTx := 4, antRx := 4, layersDl := 4, layersUl := 4, uSlots := 1, periodSlots := 5 }, cost64 := 64 }] } })] }, mem := (memWriteBytes {} (hdmAt 1114112) (leBytes 2 0x2)) }),
      11, { part := 63, cell := 63, tag := 77, n := 1, ofs := 1114112, len := 8, arr := 1000000000000 }, [.mu 2],
      (ConfigItem.mu 2),
      by decide +kernel⟩,
    ⟨(ringWith 11 4 63 1048576 0x10 77 (leBytes 16 0x3f000000080000000000110000)
      { up with parts := [(63, { state := .active, radio := true, radioSlot := 7, cuQuota := 64, hdmBase := 1048576, hdmLen := 16777216 })], cells := [(63 * 64 + 63, { cfg := { reqRing := 11, mu := 1 }, state := .running })], tts := { up.tts with tables := [(7, { state := .running, part := 63, insts := [(0, { slot := 508640, sealed := true })], tmpl := { cells := [{ index := 9, config := { mu := 1, prbDl := 273, prbUl := 273, antTx := 4, antRx := 4, layersDl := 4, layersUl := 4, uSlots := 1, periodSlots := 5 }, cost64 := 64 }] } })] }, mem := (memWriteBytes {} (hdmAt 1114112) (leBytes 2 0x2)) }),
      11, { part := 63, cell := 63, tag := 77, n := 1, ofs := 1114112, len := 8, arr := 1000000000000 },
      by decide +kernel⟩,
    ⟨(ringWith 11 4 63 1048576 0x10 77 (leBytes 16 0x3f000000080000000000110000)
      { up with parts := [(63, { state := .active, radio := true, radioSlot := 7, cuQuota := 64, hdmBase := 1048576, hdmLen := 16777216 })], cells := [(63 * 64 + 63, { cfg := { reqRing := 11, mu := 1 }, state := .configured, configured := true })], tts := { up.tts with tables := [(7, { state := .running, part := 63, insts := [(0, { slot := 508640, sealed := true })], tmpl := { cells := [{ index := 9, config := { mu := 1, prbDl := 273, prbUl := 273, antTx := 4, antRx := 4, layersDl := 4, layersUl := 4, uSlots := 1, periodSlots := 5 }, cost64 := 64 }] } })] }, mem := (memWriteBytes {} (hdmAt 1114112) (leBytes 2 0x4)) }),
      11, { part := 63, cell := 63, tag := 77, n := 1, ofs := 1114112, len := 8, arr := 1000000000000 },
      by decide +kernel⟩,
    ⟨(ringWith 11 4 63 1048576 0x10 77 (leBytes 16 0x3f000000080000000000110000)
      { up with parts := [(63, { state := .active, radio := true, radioSlot := 7, cuQuota := 64, hdmBase := 1048576, hdmLen := 16777216 })], cells := [(63 * 64 + 63, { cfg := { reqRing := 11, mu := 1 }, state := .configured })], tts := { up.tts with tables := [(7, { state := .running, part := 63, insts := [(0, { slot := 508640, sealed := true })], tmpl := { cells := [{ index := 9, config := { mu := 1, prbDl := 273, prbUl := 273, antTx := 4, antRx := 4, layersDl := 4, layersUl := 4, uSlots := 1, periodSlots := 5 }, cost64 := 64 }] } })] }, mem := (memWriteBytes {} (hdmAt 1114112) (leBytes 2 0x4)) }),
      11, { part := 63, cell := 63, tag := 77, n := 1, ofs := 1114112, len := 8, arr := 1000000000000 },
      by decide +kernel⟩,
    ⟨(ringWith 11 4 63 1048576 0x10 77 (leBytes 16 0x3f000000080000000000110000)
      { up with parts := [(63, { state := .active, radio := true, radioSlot := 7, cuQuota := 64, hdmBase := 1048576, hdmLen := 16777216 })], cells := [(63 * 64 + 63, { cfg := { reqRing := 11, mu := 1 }, state := .running })], tts := { up.tts with tables := [(7, { state := .running, part := 63, insts := [(0, { slot := 508640, sealed := true })], tmpl := { cells := [{ index := 9, config := { mu := 1, prbDl := 273, prbUl := 273, antTx := 4, antRx := 4, layersDl := 4, layersUl := 4, uSlots := 1, periodSlots := 5 }, cost64 := 64 }] } })] }, mem := (memWriteBytes {} (hdmAt 1114112) (leBytes 2 0x5)) }),
      11, { part := 63, cell := 63, tag := 77, n := 1, ofs := 1114112, len := 8, arr := 1000000000000 },
      by decide +kernel⟩,
    ⟨(ringWith 11 4 63 1048576 0x10 77 (leBytes 16 0x3f000000080000000000110000)
      { up with parts := [(63, { state := .active, radio := true, radioSlot := 7, cuQuota := 64, hdmBase := 1048576, hdmLen := 16777216 })], cells := [(63 * 64 + 63, { cfg := { reqRing := 11, mu := 1 }, state := .stopping })], tts := { up.tts with tables := [(7, { state := .running, part := 63, insts := [(0, { slot := 508640, sealed := true })], tmpl := { cells := [{ index := 9, config := { mu := 1, prbDl := 273, prbUl := 273, antTx := 4, antRx := 4, layersDl := 4, layersUl := 4, uSlots := 1, periodSlots := 5 }, cost64 := 64 }] } })] }, mem := (memWriteBytes {} (hdmAt 1114112) (leBytes 2 0x5)) }),
      11, { part := 63, cell := 63, tag := 77, n := 1, ofs := 1114112, len := 8, arr := 1000000000000 },
      by decide +kernel⟩,
    ⟨(ringWith 11 4 63 1048576 0x10 77 (leBytes 16 0x3f000000080000000000110000)
      { up with parts := [(63, { state := .active, radio := true, radioSlot := 7, cuQuota := 64, hdmBase := 1048576, hdmLen := 16777216 })], cells := [(63 * 64 + 63, { cfg := { reqRing := 11, mu := 1 }, state := .running })], tts := { up.tts with tables := [(7, { state := .running, part := 63, insts := [(0, { slot := 508640, sealed := true })], tmpl := { cells := [{ index := 9, config := { mu := 1, prbDl := 273, prbUl := 273, antTx := 4, antRx := 4, layersDl := 4, layersUl := 4, uSlots := 1, periodSlots := 5 }, cost64 := 64 }] } })] }, mem := (memWriteBytes {} (hdmAt 1114112) (leBytes 2 0x85)) }),
      11, 0x85, { part := 63, cell := 63, tag := 77, n := 1, ofs := 1114112, len := 8, arr := 1000000000000 },
      by decide +kernel⟩,
    ⟨(ringWith 11 4 63 1048576 0x10 77 (leBytes 16 0x3f001000010000000000110000)
      { up with parts := [(63, { state := .active, radio := true, radioSlot := 7, cuQuota := 64, hdmBase := 1048576, hdmLen := 16777216 })], cells := [(63 * 64 + 63, { cfg := { reqRing := 11, mu := 1 }, state := .configured })], tts := { up.tts with tables := [(7, { state := .running, part := 63, insts := [(0, { slot := 508640, sealed := true })], tmpl := { cells := [{ index := 9, config := { mu := 1, prbDl := 273, prbUl := 273, antTx := 4, antRx := 4, layersDl := 4, layersUl := 4, uSlots := 1, periodSlots := 5 }, cost64 := 64 }] } })] }, mem := (memWriteBytes {} (hdmAt 1114112) (leBytes 2 0x4)) }),
      11, { part := 63, cell := 63, tag := 77, n := 1, ofs := 1114112, len := 1048577, arr := 1000000000000 },
      by decide +kernel⟩⟩

theorem test_witness_SlotMessages :
    (∃ (s : State) (ring : Nat) (n : Nat) (f : FapiIn) (msg : SlotMsg),
      (HeldSlot s f msg.sfn msg.slot n) ∧ (FapiDue s ring 0x80 f) ∧ ((tabGet (cellOf s f.part f.cell).slots n {}).dl = none))
    ∧ (∃ (s : State) (ring : Nat) (n : Nat) (f : FapiIn) (msg : SlotMsg),
      (HeldSlot s f msg.sfn msg.slot n) ∧ (FapiDue s ring 0x81 f) ∧ ((tabGet (cellOf s f.part f.cell).slots n {}).ul = none))
    ∧ (∃ (s : State) (ring : Nat) (n : Nat) (f : FapiIn) (msg : SlotMsg),
      (HeldSlot s f msg.sfn msg.slot n) ∧ (FapiDue s ring 0x83 f) ∧ ((tabGet (cellOf s f.part f.cell).slots n {}).dci = none))
    ∧ (∃ (s : State) (ring : Nat) (n : Nat) (f : FapiIn) (msg : SlotMsg),
      (HeldSlot s f msg.sfn msg.slot n) ∧ (FapiDue s ring 0x80 f) ∧ ((tabGet (cellOf s f.part f.cell).slots n {}).dl ≠ none))
    ∧ (∃ (s : State) (ring : Nat) (n : Nat) (f : FapiIn) (msg : TxMsg),
      (FapiDue s ring 0x84 f) ∧ (HeldSlot s f msg.sfn msg.slot n))
    ∧ (∃ (s : State) (ring : Nat) (n : Nat) (f : FapiIn) (msg : PrioMsg),
      (FapiDue s ring 0x180 f) ∧ (HeldSlot s f msg.sfn msg.slot n) ∧ (∀ e ∈ msg.entries, e.2.1 < 256 ∧ e.2.2 < 65536))
    ∧ (∃ (s : State) (ring : Nat) (n : Nat) (f : FapiIn) (msg : SlotMsg) (x : Cell),
      (FapiDue s ring 0x81 f) ∧ (x = cellOf s f.part f.cell) ∧ (x.state = .running) ∧ (resolveMod (msg.sfn * slotsPerFrame
        x.cfg.mu + msg.slot) (slotAt s.win.frameOfs x.cfg.mu x.cfg.ecp (corrected s.tmb f.arr)) (1024 * slotsPerFrame
        x.cfg.mu) = n) ∧ (intakeTick s x n < corrected s.tmb f.arr)) :=
  ⟨⟨(ringWith 11 4 63 1048576 0x10 77 (leBytes 16 0x3f000000080000000000110000)
    { up with parts := [(63, { state := .active, radio := true, radioSlot := 7, cuQuota := 64, hdmBase := 1048576, hdmLen := 16777216 })], cells := [(63 * 64 + 63, { cfg := { reqRing := 11, mu := 1 }, state := .running })], tts := { up.tts with tables := [(7, { state := .running, part := 63, insts := [(0, { slot := 508640, sealed := true })], tmpl := { cells := [{ index := 9, config := { mu := 1, prbDl := 273, prbUl := 273, antTx := 4, antRx := 4, layersDl := 4, layersUl := 4, uSlots := 1, periodSlots := 5 }, cost64 := 64 }] } })] }, mem := (memWriteBytes {} (hdmAt 1114112) (leBytes 2 0x80)) }),
    11, 1017260, { part := 63, cell := 63, tag := 77, n := 1, ofs := 1114112, len := 8, arr := 1000000000000 },
    { sfn := 687, slot := 0, pdus := [{}] },
      by decide +kernel⟩,
    ⟨(ringWith 11 4 63 1048576 0x10 77 (leBytes 16 0x3f000000080000000000110000)
      { up with parts := [(63, { state := .active, radio := true, radioSlot := 7, cuQuota := 64, hdmBase := 1048576, hdmLen := 16777216 })], cells := [(63 * 64 + 63, { cfg := { reqRing := 11, mu := 1 }, state := .running })], tts := { up.tts with tables := [(7, { state := .running, part := 63, insts := [(0, { slot := 508640, sealed := true })], tmpl := { cells := [{ index := 9, config := { mu := 1, prbDl := 273, prbUl := 273, antTx := 4, antRx := 4, layersDl := 4, layersUl := 4, uSlots := 1, periodSlots := 5 }, cost64 := 64 }] } })] }, mem := (memWriteBytes {} (hdmAt 1114112) (leBytes 2 0x81)) }),
      11, 1017260, { part := 63, cell := 63, tag := 77, n := 1, ofs := 1114112, len := 8, arr := 1000000000000 },
      { sfn := 687, slot := 0, pdus := [{}] },
      by decide +kernel⟩,
    ⟨(ringWith 11 4 63 1048576 0x10 77 (leBytes 16 0x3f000000080000000000110000)
      { up with parts := [(63, { state := .active, radio := true, radioSlot := 7, cuQuota := 64, hdmBase := 1048576, hdmLen := 16777216 })], cells := [(63 * 64 + 63, { cfg := { reqRing := 11, mu := 1 }, state := .running })], tts := { up.tts with tables := [(7, { state := .running, part := 63, insts := [(0, { slot := 508640, sealed := true })], tmpl := { cells := [{ index := 9, config := { mu := 1, prbDl := 273, prbUl := 273, antTx := 4, antRx := 4, layersDl := 4, layersUl := 4, uSlots := 1, periodSlots := 5 }, cost64 := 64 }] } })] }, mem := (memWriteBytes {} (hdmAt 1114112) (leBytes 2 0x83)) }),
      11, 1017260, { part := 63, cell := 63, tag := 77, n := 1, ofs := 1114112, len := 8, arr := 1000000000000 },
      { sfn := 687, slot := 0, pdus := [{}] },
      by decide +kernel⟩,
    ⟨(ringWith 11 4 63 1048576 0x10 77 (leBytes 16 0x3f000000080000000000110000)
      { up with parts := [(63, { state := .active, radio := true, radioSlot := 7, cuQuota := 64, hdmBase := 1048576, hdmLen := 16777216 })], cells := [(63 * 64 + 63, { cfg := { reqRing := 11, mu := 1 }, state := .running, slots := [(1017260, { dl := some [] })] })], tts := { up.tts with tables := [(7, { state := .running, part := 63, insts := [(0, { slot := 508640, sealed := true })], tmpl := { cells := [{ index := 9, config := { mu := 1, prbDl := 273, prbUl := 273, antTx := 4, antRx := 4, layersDl := 4, layersUl := 4, uSlots := 1, periodSlots := 5 }, cost64 := 64 }] } })] }, mem := (memWriteBytes {} (hdmAt 1114112) (leBytes 2 0x80)) }),
      11, 1017260, { part := 63, cell := 63, tag := 77, n := 1, ofs := 1114112, len := 8, arr := 1000000000000 },
      { sfn := 687, slot := 0, pdus := [{}] },
      by decide +kernel⟩,
    ⟨(ringWith 11 4 63 1048576 0x10 77 (leBytes 16 0x3f000000080000000000110000)
      { up with parts := [(63, { state := .active, radio := true, radioSlot := 7, cuQuota := 64, hdmBase := 1048576, hdmLen := 16777216 })], cells := [(63 * 64 + 63, { cfg := { reqRing := 11, mu := 1 }, state := .running })], tts := { up.tts with tables := [(7, { state := .running, part := 63, insts := [(0, { slot := 508640, sealed := true })], tmpl := { cells := [{ index := 9, config := { mu := 1, prbDl := 273, prbUl := 273, antTx := 4, antRx := 4, layersDl := 4, layersUl := 4, uSlots := 1, periodSlots := 5 }, cost64 := 64 }] } })] }, mem := (memWriteBytes {} (hdmAt 1114112) (leBytes 2 0x84)) }),
      11, 1017254, { part := 63, cell := 63, tag := 77, n := 1, ofs := 1114112, len := 8, arr := 1000000000000 },
      { sfn := 686, slot := 14, blocks := [(0, 5)] },
      by decide +kernel⟩,
    ⟨(ringWith 11 4 63 1048576 0x10 77 (leBytes 16 0x3f000000080000000000110000)
      { up with parts := [(63, { state := .active, radio := true, radioSlot := 7, cuQuota := 64, hdmBase := 1048576, hdmLen := 16777216 })], cells := [(63 * 64 + 63, { cfg := { reqRing := 11, mu := 1 }, state := .running })], tts := { up.tts with tables := [(7, { state := .running, part := 63, insts := [(0, { slot := 508640, sealed := true })], tmpl := { cells := [{ index := 9, config := { mu := 1, prbDl := 273, prbUl := 273, antTx := 4, antRx := 4, layersDl := 4, layersUl := 4, uSlots := 1, periodSlots := 5 }, cost64 := 64 }] } })] }, mem := (memWriteBytes {} (hdmAt 1114112) (leBytes 2 0x180)) }),
      11, 1017254, { part := 63, cell := 63, tag := 77, n := 1, ofs := 1114112, len := 8, arr := 1000000000000 },
      { sfn := 686, slot := 14, entries := [(true, 7, 0)] },
      by decide +kernel⟩,
    ⟨(ringWith 11 4 63 1048576 0x10 77 (leBytes 16 0x3f000000080000000000110000)
      { up with parts := [(63, { state := .active, radio := true, radioSlot := 7, cuQuota := 64, hdmBase := 1048576, hdmLen := 16777216 })], cells := [(63 * 64 + 63, { cfg := { reqRing := 11, mu := 1 }, state := .running })], tts := { up.tts with tables := [(7, { state := .running, part := 63, insts := [(0, { slot := 508640, sealed := true })], tmpl := { cells := [{ index := 9, config := { mu := 1, prbDl := 273, prbUl := 273, antTx := 4, antRx := 4, layersDl := 4, layersUl := 4, uSlots := 1, periodSlots := 5 }, cost64 := 64 }] } })] }, mem := (memWriteBytes {} (hdmAt 1114112) (leBytes 2 0x81)) }),
      11, 1017252, { part := 63, cell := 63, tag := 77, n := 1, ofs := 1114112, len := 8, arr := 1000000000000 },
      { sfn := 686, slot := 12, pdus := [{}] }, { cfg := { reqRing := 11, mu := 1 }, state := .running },
      by decide +kernel⟩⟩

theorem test_witness_IntakeAndTwins :
    (∃ (s : State) (p : Nat) (c : Nat) (n : Nat) (h : SlotHold),
      (p < 64) ∧ (c < 64) ∧ ((cellOf s p c).state = .running) ∧ ((cellOf s p c).firstSlot ≤ n) ∧ (intakeTick s (cellOf s p c)
        n ≤ corrNow s) ∧ (tabFind? (cellOf s p c).slots n = some h))
    ∧ (∃ (s : State) (p : Nat) (c : Nat) (n : Nat),
      (p < 64) ∧ (c < 64) ∧ ((cellOf s p c).state = .running) ∧ (cellSlot s (cellOf s p c) = n))
    ∧ (∃ (s : State) (p : Nat) (c : Nat),
      (p < 64) ∧ (c < 64) ∧ ((cellOf s p c).state = .standby))
    ∧ (∃ (s : State) (p : Nat) (c : Nat),
      (p < 64) ∧ (c < 64) ∧ ((cellOf s p c).state = .standby) ∧ ((cellOf s p c).snapshot = true))
    ∧ (∃ (s : State) (p : Nat) (c : Nat) (n : Nat),
      (p < 64) ∧ (c < 64) ∧ ((cellOf s p c).state = .standby) ∧ ((cellOf s p c).synced = true) ∧ (corrNow s < intakeTick s
        (cellOf s p c) n))
    ∧ (∃ (s : State) (p : Nat) (c : Nat) (n : Nat),
      (p < 64) ∧ (c < 64) ∧ ((cellOf s p c).state = .standby) ∧ ((cellOf s p c).synced = false ∨ intakeTick s (cellOf s p c) n
        ≤ corrNow s))
    ∧ (∃ (s : State) (p : Nat) (c : Nat) (n : Nat),
      (p < 64) ∧ (c < 64) ∧ ((cellOf s p c).state = .moving) ∧ ((cellOf s p c).moveTo = some n))
    ∧ (∃ (s : State) (p : Nat) (c : Nat) (n : Nat),
      (p < 64) ∧ (c < 64) ∧ ((cellOf s p c).state = .moving) ∧ ((cellOf s p c).moveTo = some n) ∧ (inPhaseA s = false)) :=
  ⟨⟨{ up with parts := [(63, { state := .active, radio := true, radioSlot := 7, cuQuota := 64, hdmBase := 1048576, hdmLen := 16777216 })], cells := [(63 * 64 + 63, { cfg := { mu := 1, fdd := true, prbDl := 273, layersDl := 4 }, cost64 := 64, state := .running, slots := [(1017253, { dl := some [{ kind := .pdsch }], ul := some [{ ask := { excluded := [.sidelink] } }] })] })] },
    63, 63, 1017253, { dl := some [{ kind := .pdsch }], ul := some [{ ask := { excluded := [.sidelink] } }] },
      by decide +kernel⟩,
    ⟨{ up with parts := [(63, { state := .active, radio := true, radioSlot := 7, cuQuota := 64, hdmBase := 1048576, hdmLen := 16777216 })], cells := [(63 * 64 + 63, { cfg := { mu := 1 }, state := .running })] },
      63, 63, 1017252,
      by decide +kernel⟩,
    ⟨{ up with parts := [(63, { state := .active, radio := true, radioSlot := 7, cuQuota := 64, hdmBase := 1048576, hdmLen := 16777216 })], cells := [(63 * 64 + 63, { cfg := { mu := 1 }, state := .standby })] },
      63, 63,
      by decide +kernel⟩,
    ⟨{ up with parts := [(63, { state := .active, radio := true, radioSlot := 7, cuQuota := 64, hdmBase := 1048576, hdmLen := 16777216 })], cells := [(63 * 64 + 63, { cfg := { mu := 1 }, state := .standby, snapshot := true })] },
      63, 63,
      by decide +kernel⟩,
    ⟨{ up with parts := [(63, { state := .active, radio := true, radioSlot := 7, cuQuota := 64, hdmBase := 1048576, hdmLen := 16777216 })], cells := [(63 * 64 + 63, { cfg := { mu := 1 }, state := .standby, synced := true, peerDev := 64, harq := [(1, {})] })] },
      63, 63, 1017255,
      by decide +kernel⟩,
    ⟨{ up with parts := [(63, { state := .active, radio := true, radioSlot := 7, cuQuota := 64, hdmBase := 1048576, hdmLen := 16777216 })], cells := [(63 * 64 + 63, { cfg := { mu := 1 }, state := .standby, synced := true })] },
      63, 63, 1017252,
      by decide +kernel⟩,
    ⟨{ up with parts := [(63, { state := .active, radio := true, radioSlot := 7, cuQuota := 64, hdmBase := 1048576, hdmLen := 16777216 })], cells := [(63 * 64 + 63, { cfg := { mu := 1 }, state := .moving, moveTo := some 1017255, slots := [(1017255, {}), (1017254, {})] })] },
      63, 63, 1017255,
      by decide +kernel⟩,
    ⟨{ up with parts := [(63, { state := .active, radio := true, radioSlot := 7, cuQuota := 64, hdmBase := 1048576, hdmLen := 16777216 })], cells := [(63 * 64 + 63, { cfg := { mu := 1 }, state := .moving, moveTo := some 1017255, slots := [(1017255, {}), (1017254, {})] })] },
      63, 63, 1017255,
      by decide +kernel⟩⟩

theorem test_witness_HarqCombining :
    (∃ (p : Pdu),
      (p.newData = true))
    ∧ (∃ (x : Cell) (early : Bool) (p : Pdu),
      (p.newData = false) ∧ ((tabGet x.harq p.harq {}).slot = none ∨ (tabGet x.harq p.harq {}).noCombine = true ∨ early =
        true))
    ∧ (∃ (x : Cell) (early : Bool) (p : Pdu) (k : _),
      (p.newData = false) ∧ ((tabGet x.harq p.harq {}).slot = some k) ∧ ((tabGet x.harq p.harq {}).noCombine = false) ∧ (early
        = false)) :=
  ⟨⟨{ harq := 3, newData := true, blocks := [{ bg := 0, zc := 384, ncb := 25344, e := 100, count := 5 }] },
      by decide +kernel⟩,
    ⟨{ harq := [(3, { slot := some 1, noCombine := true })], cfg := { poolSlots := 2 } }, false,
      { harq := 3, newData := false, blocks := [{ bg := 0, zc := 384, ncb := 25344, e := 100, count := 5 }] },
      by decide +kernel⟩,
    ⟨{ harq := [(3, { slot := some 1 })], cfg := { poolSlots := 2 } }, false,
      { harq := 3, newData := false, blocks := [{ bg := 0, zc := 384, ncb := 25344, e := 100, count := 5 }] }, 1,
      by decide +kernel⟩⟩

theorem test_witness_SweepArithmetic :
    (∃ (d : _),
      (d < 2 ^ 16))
    ∧ (∃ (hdr : Nat),
      (hdr < 2 ^ 32))
    ∧ (∃ (sf : Nat) (sd : Nat) (t0 : Int) (f : Int),
      (8 ≤ sf) ∧ (sf ≤ 15) ∧ (-(2 ^ (sf - 2)) ≤ f) ∧ (f < 2 ^ (sf - 2)) ∧ (t0 + 10 * 2 ^ sf ≤ sd) ∧ ((sd : Int) < t0 + 11 * 2
        ^ sf)) :=
  ⟨⟨65535,
      by decide +kernel⟩,
    ⟨(2^32-1),
      by decide +kernel⟩,
    ⟨8, 2567, 0, (-64),
      by decide +kernel⟩⟩

theorem test_witness_SweepCommands :
    (∃ (s : State) (m : Nat) (c : Cmd) (p : Nat) (n : Nat) (h : SweepChan),
      (Due s m 0x04C0 c) ∧ (targetOf m c = p) ∧ (p < 64) ∧ (n = field c.payload 0 1) ∧ (h = sweepConfig
        { m := m, target := p, cmd := c }) ∧ (chanOf s n = none) ∧ (h.cell < 64) ∧ ((cellOf s p h.cell).state ≠ .absent) ∧
        (h.sfMask ≠ 0) ∧ (h.demods ≠ 0) ∧ (h.rx = true ∨ h.tx = true) ∧ (sweepFits s n h = true) ∧ (s.sweep.foldl (fun k g =>
        k + g.2.demods) h.demods ≤ 4096))
    ∧ (∃ (s : State) (m : Nat) (c : Cmd) (p : Nat) (n : Nat) (h : SweepChan),
      (Due s m 0x04C0 c) ∧ (targetOf m c = p) ∧ (p < 64) ∧ (n = field c.payload 0 1) ∧ (h = sweepConfig
        { m := m, target := p, cmd := c }) ∧ (chanOf s n = none) ∧ (h.cell < 64) ∧ ((cellOf s p h.cell).state ≠ .absent) ∧
        (h.sfMask ≠ 0) ∧ (h.demods ≠ 0) ∧ (h.rx = true ∨ h.tx = true) ∧ (sweepFits s n h = true) ∧ (4096 < s.sweep.foldl (fun
        k g => k + g.2.demods) h.demods))
    ∧ (∃ (s : State) (m : Nat) (c : Cmd) (p : Nat) (n : Nat) (h : SweepChan),
      (Due s m 0x04C0 c) ∧ (targetOf m c = p) ∧ (p < 64) ∧ (n = field c.payload 0 1) ∧ (h = sweepConfig
        { m := m, target := p, cmd := c }) ∧ (chanOf s n = none) ∧ (h.cell < 64) ∧ ((cellOf s p h.cell).state ≠ .absent) ∧
        (h.sfMask ≠ 0) ∧ (h.demods ≠ 0) ∧ (h.rx = true ∨ h.tx = true) ∧ (sweepFits s n h = false))
    ∧ (∃ (s : State) (m : Nat) (c : Cmd) (p : Nat) (n : Nat) (h : SweepChan) (g : SweepChan),
      (Due s m 0x04C0 c) ∧ (targetOf m c = p) ∧ (p < 64) ∧ (n = field c.payload 0 1) ∧ (h = sweepConfig
        { m := m, target := p, cmd := c }) ∧ (chanOf s n = some g))
    ∧ (∃ (s : State) (m : Nat) (c : Cmd) (n : Nat) (h : SweepChan),
      (Due s m 0x04C1 c) ∧ (n = field c.payload 0 1) ∧ (targetOf m c < 64) ∧ (chanOf s n = some h) ∧ (h.endSlot = none))
    ∧ (∃ (s : State) (m : Nat) (c : Cmd) (n : Nat) (h : SweepChan),
      (Due s m 0x04C2 c) ∧ (n = field c.payload 0 1) ∧ (targetOf m c < 64) ∧ (field c.payload 1 1 ≤ 1) ∧ (chanOf s n = some h)
        ∧ (isVf m = true → h.part = targetOf m c))
    ∧ (∃ (s : State) (ring : Nat) (p : Nat) (tag : Nat) (k : Nat) (arr : Nat) (n : Nat) (b : List Byte) (f : SweepFrame) (h :
      SweepChan),
      (sweepAccept s ring p tag arr b = .ok (n, f)) ∧ (ring < 4096) ∧ (sweepHead s ring = some (p, tag, k, b, arr)) ∧ (chanOf
        s n = some h))
    ∧ (∃ (s : State) (n : Nat) (h : SweepChan) (f : SweepFrame),
      (n < 64) ∧ (chanOf s n = some h) ∧ (h.sends = [f]) ∧ (f.finish ≤ corrNow s) ∧ (sweepSentWhole s h f = true))
    ∧ (∃ (s : State) (n : Nat) (h : SweepChan) (f : SweepFrame),
      (n < 64) ∧ (chanOf s n = some h) ∧ (h.sends = [f]) ∧ (f.finish ≤ corrNow s) ∧ (sweepSentWhole s h f = false)) :=
  ⟨⟨(taking 0 (cmdOf 0x4c0 63 (leBytes 24 0xf07fff00000000010010000709ff04010d3f3f))
    ({ up with parts := [(63, { state := .active, radio := true, radioSlot := 7, hdmBase := 1048576, hdmLen := 16777216 })], cells := [(63 * 64 + 63, { state := .running, cfg := { fdd := true, prbDl := 273, prbUl := 273, tmplCell := 9, reqRing := 11, indRing := 10 } })], tts := { up.tts with tables := [(7, { state := .running, part := 63, insts := [(0, { slot := 508640, sealed := true })], tmpl := { cells := [{ index := 9, sweepMask := 255, sweepDemods := 65535 }] } })] }, sweep := [] })),
    0, (cmdOf 0x4c0 63 (leBytes 24 0xf07fff00000000010010000709ff04010d3f3f)), 63, 63, (sweepConfig
    { m := 0, target := 63, cmd := (cmdOf 0x4c0 63 (leBytes 24 0xf07fff00000000010010000709ff04010d3f3f)) }),
      by decide +kernel⟩,
    ⟨(taking 0 (cmdOf 0x4c0 63 (leBytes 24 0xf07fff00000000010010000709ff04010d3f3f))
      ({ up with parts := [(63, { state := .active, radio := true, radioSlot := 7, hdmBase := 1048576, hdmLen := 16777216 })], cells := [(63 * 64 + 63, { state := .running, cfg := { fdd := true, prbDl := 273, prbUl := 273, tmplCell := 9, reqRing := 11, indRing := 10 } })], tts := { up.tts with tables := [(7, { state := .running, part := 63, insts := [(0, { slot := 508640, sealed := true })], tmpl := { cells := [{ index := 9, sweepMask := 255, sweepDemods := 65535 }] } })] }, sweep := [(0, { part := 62, demods := 1 })] })),
      0, (cmdOf 0x4c0 63 (leBytes 24 0xf07fff00000000010010000709ff04010d3f3f)), 63, 63, (sweepConfig
      { m := 0, target := 63, cmd := (cmdOf 0x4c0 63 (leBytes 24 0xf07fff00000000010010000709ff04010d3f3f)) }),
      by decide +kernel⟩,
    ⟨(taking 0 (cmdOf 0x4c0 63 (leBytes 24 0xf07fff00000000010010000709ff04010e3f3f))
      ({ up with parts := [(63, { state := .active, radio := true, radioSlot := 7, hdmBase := 1048576, hdmLen := 16777216 })], cells := [(63 * 64 + 63, { state := .running, cfg := { fdd := true, prbDl := 273, prbUl := 273, tmplCell := 9, reqRing := 11, indRing := 10 } })], tts := { up.tts with tables := [(7, { state := .running, part := 63, insts := [(0, { slot := 508640, sealed := true })], tmpl := { cells := [{ index := 9, sweepMask := 255, sweepDemods := 65535 }] } })] }, sweep := [] })),
      0, (cmdOf 0x4c0 63 (leBytes 24 0xf07fff00000000010010000709ff04010e3f3f)), 63, 63, (sweepConfig
      { m := 0, target := 63, cmd := (cmdOf 0x4c0 63 (leBytes 24 0xf07fff00000000010010000709ff04010e3f3f)) }),
      by decide +kernel⟩,
    ⟨(taking 0 (cmdOf 0x4c0 63 (leBytes 24 0xf07fff00000000010010000709ff04010d3f3f))
      ({ up with parts := [(63, { state := .active, radio := true, radioSlot := 7, hdmBase := 1048576, hdmLen := 16777216 })], cells := [(63 * 64 + 63, { state := .running, cfg := { fdd := true, prbDl := 273, prbUl := 273, tmplCell := 9, reqRing := 11, indRing := 10 } })], tts := { up.tts with tables := [(7, { state := .running, part := 63, insts := [(0, { slot := 508640, sealed := true })], tmpl := { cells := [{ index := 9, sweepMask := 255, sweepDemods := 65535 }] } })] }, sweep := [(63, { part := 63, cell := 63, firstPrb := 269, prbs := 4, sfMask := 255, rx := true, tx := true, demods := 2, thr := 256, floorPwr := 1 })] })),
      0, (cmdOf 0x4c0 63 (leBytes 24 0xf07fff00000000010010000709ff04010d3f3f)), 63, 63, (sweepConfig
      { m := 0, target := 63, cmd := (cmdOf 0x4c0 63 (leBytes 24 0xf07fff00000000010010000709ff04010d3f3f)) }),
      { part := 63, cell := 63, firstPrb := 269, prbs := 4, sfMask := 255, rx := true, tx := true, demods := 2, thr := 256, floorPwr := 1 },
      by decide +kernel⟩,
    ⟨(taking 0 (cmdOf 0x4c1 63 (leBytes 1 0x3f))
      ({ up with parts := [(63, { state := .active, radio := true, radioSlot := 7, hdmBase := 1048576, hdmLen := 16777216 })], cells := [(63 * 64 + 63, { state := .running, cfg := { fdd := true, prbDl := 273, prbUl := 273, tmplCell := 9, reqRing := 11, indRing := 10 } })], tts := { up.tts with tables := [(7, { state := .running, part := 63, insts := [(0, { slot := 508640, sealed := true })], tmpl := { cells := [{ index := 9, sweepMask := 255, sweepDemods := 65535 }] } })] }, sweep := [(63, { part := 63, cell := 63, firstPrb := 269, prbs := 4, sfMask := 255, rx := true, tx := true, demods := 2, thr := 256, floorPwr := 1 })] })),
      0, (cmdOf 0x4c1 63 (leBytes 1 0x3f)), 63,
      { part := 63, cell := 63, firstPrb := 269, prbs := 4, sfMask := 255, rx := true, tx := true, demods := 2, thr := 256, floorPwr := 1 },
      by decide +kernel⟩,
    ⟨(taking 79 (cmdOf 0x4c2 63 (leBytes 1 0x13f))
      ({ up with parts := [(63, { state := .active, radio := true, radioSlot := 7, hdmBase := 1048576, hdmLen := 16777216 })], cells := [(63 * 64 + 63, { state := .running, cfg := { fdd := true, prbDl := 273, prbUl := 273, tmplCell := 9, reqRing := 11, indRing := 10 } })], tts := { up.tts with tables := [(7, { state := .running, part := 63, insts := [(0, { slot := 508640, sealed := true })], tmpl := { cells := [{ index := 9, sweepMask := 255, sweepDemods := 65535 }] } })] }, sweep := [(63, { part := 63, cell := 63, firstPrb := 269, prbs := 4, sfMask := 255, rx := true, tx := true, demods := 2, thr := 256, floorPwr := 1 })] })),
      79, (cmdOf 0x4c2 63 (leBytes 1 0x13f)), 63,
      { part := 63, cell := 63, firstPrb := 269, prbs := 4, sfMask := 255, rx := true, tx := true, demods := 2, thr := 256, floorPwr := 1 },
      by decide +kernel⟩,
    ⟨(ringWith 11 4 63 1048576 0x73 77 (leBytes 24 0x5083f000000e8d51428000000000000110000)
      { up with parts := [(63, { state := .active, radio := true, radioSlot := 7, hdmBase := 1048576, hdmLen := 16777216 })], cells := [(63 * 64 + 63, { state := .running, cfg := { fdd := true, prbDl := 273, prbUl := 273, tmplCell := 9, reqRing := 11, indRing := 10 } })], sweep := [(63, { part := 63, cell := 63, firstPrb := 269, prbs := 4, sfMask := 255, rx := true, tx := true, demods := 2, thr := 256, floorPwr := 1 })] }),
      11, 63, 77, 1, 1000000000000, 63, (leBytes 24 0x5083f000000e8d51428000000000000110000),
      { tag := 77, start := 1000007280640, finish := sampleEnd up { cfg := { fdd := true } } { part := 63, cell := 63, firstPrb := 269, prbs := 4, sfMask := 255, rx := true, tx := true, demods := 2, thr := 256, floorPwr := 1 } (508630 * 14 * 48 + 27 * 256 - 1), sf := 8, first := 508630 * 14, syms := sweepValues 8 (sweepBits 5 (List.replicate 5 0)) },
      { part := 63, cell := 63, firstPrb := 269, prbs := 4, sfMask := 255, rx := true, tx := true, demods := 2, thr := 256, floorPwr := 1 },
      ok_of (by decide +kernel), by decide +kernel⟩,
    ⟨{ up with parts := [(63, { state := .active, radio := true, radioSlot := 7, hdmBase := 1048576, hdmLen := 16777216 })], cells := [(63 * 64 + 63, { state := .running, cfg := { fdd := true, prbDl := 273, prbUl := 273, tmplCell := 9, reqRing := 11, indRing := 10 } })], tts := { up.tts with tables := [(7, { state := .running, part := 63, insts := [(0, { slot := 508640, sealed := true })], tmpl := { cells := [{ index := 9, sweepMask := 255, sweepDemods := 65535 }] } })] }, sweep := [(63, { part := 63, cell := 63, firstPrb := 269, prbs := 4, sfMask := 255, rx := true, tx := true, demods := 2, thr := 256, floorPwr := 1, sends := [{ tag := 1, start := 999999999991, finish := 1000000000000, syms := [] }] })] },
      63,
      { part := 63, cell := 63, firstPrb := 269, prbs := 4, sfMask := 255, rx := true, tx := true, demods := 2, thr := 256, floorPwr := 1, sends := [{ tag := 1, start := 999999999991, finish := 1000000000000, syms := [] }] },
      { tag := 1, start := 999999999991, finish := 1000000000000, syms := [] },
      by decide +kernel⟩,
    ⟨{ up with parts := [(63, { state := .active, radio := true, radioSlot := 7, hdmBase := 1048576, hdmLen := 16777216 })], cells := [(63 * 64 + 63, { state := .configured, cfg := { fdd := true, prbDl := 273, prbUl := 273, tmplCell := 9, reqRing := 11, indRing := 10 } })], tts := { up.tts with tables := [(7, { state := .running, part := 63, insts := [(0, { slot := 508640, sealed := true })], tmpl := { cells := [{ index := 9, sweepMask := 255, sweepDemods := 65535 }] } })] }, sweep := [(63, { part := 63, cell := 63, firstPrb := 269, prbs := 4, sfMask := 255, rx := true, tx := true, demods := 2, thr := 256, floorPwr := 1, sends := [{ tag := 1, start := 999999999991, finish := 1000000000000, syms := [] }] })] },
      63,
      { part := 63, cell := 63, firstPrb := 269, prbs := 4, sfMask := 255, rx := true, tx := true, demods := 2, thr := 256, floorPwr := 1, sends := [{ tag := 1, start := 999999999991, finish := 1000000000000, syms := [] }] },
      { tag := 1, start := 999999999991, finish := 1000000000000, syms := [] },
      by decide +kernel⟩⟩

theorem test_witness_SweepGray :
    (∃ (sf : _) (d : _),
      (d < 2 ^ sf) ∧ (8 ≤ sf) ∧ (sf ≤ 15))
    ∧ (∃ (sf : _) (m : _),
      (m < 2 ^ sf) ∧ (8 ≤ sf) ∧ (sf ≤ 15))
    ∧ (∃ (sf : _) (l : List Bool) (i : Nat),
      (8 ≤ sf) ∧ (sf ≤ 15) ∧ (sf * i + sf ≤ l.length)) :=
  ⟨⟨15, 32767,
      by decide +kernel⟩,
    ⟨15, 32767,
      by decide +kernel⟩,
    ⟨8, (List.replicate 16 true), 1,
      by decide +kernel⟩⟩

theorem test_witness_SweepReception :
    (∃ (l : List Nat),
      (l ≠ []))
    ∧ (∃ (l : List Nat) (i : Nat),
      (i < l.length))
    ∧ (∃ (l : List Nat) (i : Nat),
      (i < l.length) ∧ (l.getD i 0 = (binPeak l).2))
    ∧ (∃ (s : State) (n : Nat) (sf : Nat) (j : Nat) (start : Nat) (h : SweepChan) (g : SweepFound) (dw : Nat × Nat),
      (g = foundOf (upPowers h sf start)) ∧ (dw = binPeak (downPowers h sf start)) ∧ (g.peak * 256 < h.thr * g.noise ∨ g.peak
        < h.floorPwr) ∧ (n < 64) ∧ (8 ≤ sf) ∧ (sf ≤ 15) ∧ (chanOf s n = some h) ∧ (windowDue s h sf = true) ∧ (nextWindow s h
        sf = (j, start)))
    ∧ (∃ (s : State) (n : Nat) (sf : Nat) (j : Nat) (start : Nat) (h : SweepChan) (g : SweepFound) (dw : Nat × Nat),
      (g = foundOf (upPowers h sf start)) ∧ (dw = binPeak (downPowers h sf start)) ∧ (h.thr * g.noise ≤ g.peak * 256) ∧
        (h.floorPwr ≤ g.peak) ∧ (n < 64) ∧ (8 ≤ sf) ∧ (sf ≤ 15) ∧ (chanOf s n = some h) ∧ (windowDue s h sf = true) ∧
        (nextWindow s h sf = (j, start)) ∧ (tabFind? h.runs sf = none))
    ∧ (∃ (s : State) (n : Nat) (sf : Nat) (j : Nat) (start : Nat) (h : SweepChan) (g : SweepFound) (dw : Nat × Nat) (r :
      SweepRun),
      (chanOf s n = some h) ∧ (g = foundOf (upPowers h sf start)) ∧ (dw = binPeak (downPowers h sf start)) ∧ (h.thr * g.noise
        ≤ g.peak * 256) ∧ (h.floorPwr ≤ g.peak) ∧ (tabFind? h.runs sf = some r) ∧ (g.bin = (r.bin + 2 ^ sf / 2) % 2 ^ sf) ∧ (n
        < 64) ∧ (8 ≤ sf) ∧ (sf ≤ 15) ∧ (windowDue s h sf = true) ∧ (nextWindow s h sf = (j, start)) ∧ (r.len = 5) ∧ (start =
        r.start + 2 ^ sf / 2))
    ∧ (∃ (s : State) (n : Nat) (sf : Nat) (j : Nat) (start : Nat) (h : SweepChan) (g : SweepFound) (dw : Nat × Nat) (d :
      Demod) (q : SweepSearch) (f : Int) (t0 : Int),
      (g = foundOf (upPowers h sf start)) ∧ (dw = binPeak (downPowers h sf start)) ∧ (g.peak * 256 < h.thr * g.noise ∨ g.peak
        < h.floorPwr) ∧ (sweepFix (2 ^ sf) q.start q.bin (if q.peak < dw.2 then start else q.downStart) (if q.peak < dw.2 then
        dw.1 else q.downBin) = (f, t0)) ∧ (n < 64) ∧ (8 ≤ sf) ∧ (sf ≤ 15) ∧ (chanOf s n = some h) ∧ (windowDue s h sf = true)
        ∧ (nextWindow s h sf = (j, start)) ∧ (h.active = [d]) ∧ (d.sf = sf) ∧ (d.search = some q) ∧ (q.seen = 23))
    ∧ (∃ (s : State) (n : Nat) (sf : Nat) (t0 : Nat) (f : Int) (h : SweepChan) (d : Demod) (more : List Bool),
      (more = lsbBits sf (gray ((((binPeak (upPowers h sf (t0 + d.sym * 2 ^ sf))).1 : Int) - f) % ((2 ^ sf : Nat) :
        Int)).toNat)) ∧ (n < 64) ∧ (8 ≤ sf) ∧ (sf ≤ 15) ∧ (chanOf s n = some h) ∧ (d.sf = sf) ∧ (d.t0 = t0) ∧ (d.f = f) ∧
        (d.search = none) ∧ (h.active = [d]) ∧ (sweepLive s h (t0 + d.sym * 2 ^ sf) (2 ^ sf) = true) ∧ (d.hdr = none) ∧ (d.sym
        + 1 ≠ 12 + cdiv 56 sf))
    ∧ (∃ (s : State) (n : Nat) (sf : Nat) (t0 : Nat) (f : Int) (h : SweepChan) (d : Demod) (more : List Bool),
      (more = lsbBits sf (gray ((((binPeak (upPowers h sf (t0 + d.sym * 2 ^ sf))).1 : Int) - f) % ((2 ^ sf : Nat) :
        Int)).toNat)) ∧ (n < 64) ∧ (8 ≤ sf) ∧ (sf ≤ 15) ∧ (chanOf s n = some h) ∧ (d.sf = sf) ∧ (d.t0 = t0) ∧ (d.f = f) ∧
        (d.search = none) ∧ (h.active = [d]) ∧ (sweepLive s h (t0 + d.sym * 2 ^ sf) (2 ^ sf) = true) ∧ (d.sym + 1 = 12 + cdiv
        56 sf) ∧ (crc24 ((d.bits ++ more).take 32) ≠ bitsNat (((d.bits ++ more).drop 32).take 24)))
    ∧ (∃ (s : State) (n : Nat) (sf : Nat) (t0 : Nat) (f : Int) (h : SweepChan) (d : Demod) (more : List Bool) (hdr : Nat) (len
      : Nat),
      (more = lsbBits sf (gray ((((binPeak (upPowers h sf (t0 + d.sym * 2 ^ sf))).1 : Int) - f) % ((2 ^ sf : Nat) :
        Int)).toNat)) ∧ (n < 64) ∧ (8 ≤ sf) ∧ (sf ≤ 15) ∧ (chanOf s n = some h) ∧ (d.sf = sf) ∧ (d.t0 = t0) ∧ (d.f = f) ∧
        (d.search = none) ∧ (h.active = [d]) ∧ (sweepLive s h (t0 + d.sym * 2 ^ sf) (2 ^ sf) = true) ∧ (d.hdr = some hdr) ∧
        (len = bits hdr 7 0) ∧ (d.sym + 1 = 12 + sweepSyms sf len) ∧ (crc24 ((d.bits ++ more).take 32 ++ ((d.bits ++
        more).drop 56).take (8 * len)) = bitsNat (((d.bits ++ more).drop (56 + 8 * len)).take 24)) ∧ (ringRoom s (cellOf s
        h.part h.cell).cfg.indRing (entriesFor (max 56 (24 + len))) = true))
    ∧ (∃ (s : State) (n : Nat) (sf : Nat) (t0 : Nat) (f : Int) (h : SweepChan) (d : Demod) (more : List Bool) (hdr : Nat) (len
      : Nat),
      (more = lsbBits sf (gray ((((binPeak (upPowers h sf (t0 + d.sym * 2 ^ sf))).1 : Int) - f) % ((2 ^ sf : Nat) :
        Int)).toNat)) ∧ (n < 64) ∧ (8 ≤ sf) ∧ (sf ≤ 15) ∧ (chanOf s n = some h) ∧ (d.sf = sf) ∧ (d.t0 = t0) ∧ (d.f = f) ∧
        (d.search = none) ∧ (h.active = [d]) ∧ (sweepLive s h (t0 + d.sym * 2 ^ sf) (2 ^ sf) = true) ∧ (d.hdr = some hdr) ∧
        (len = bits hdr 7 0) ∧ (d.sym + 1 = 12 + sweepSyms sf len) ∧ (crc24 ((d.bits ++ more).take 32 ++ ((d.bits ++
        more).drop 56).take (8 * len)) ≠ bitsNat (((d.bits ++ more).drop (56 + 8 * len)).take 24))) :=
  ⟨⟨[3, 7, 7],
      by decide +kernel⟩,
    ⟨[3, 7, 7], 0,
      by decide +kernel⟩,
    ⟨[3, 7, 7], 2,
      by decide +kernel⟩,
    ⟨{ up with parts := [(63, { state := .active, radio := true, radioSlot := 7, hdmBase := 1048576, hdmLen := 16777216 })], cells := [(63 * 64 + 63, { state := .running, cfg := { fdd := true, prbDl := 273, prbUl := 273, tmplCell := 9, reqRing := 11, indRing := 10 } })], tts := { up.tts with tables := [(7, { state := .running, part := 63, insts := [(0, { slot := 508640, sealed := true })], tmpl := { cells := [{ index := 9, sweepMask := 255, sweepDemods := 65535 }] } })] }, sweep := [(63, { part := 63, cell := 63, prbs := 4, sfMask := 1, rx := true, demods := 2, thr := 0, floorPwr := 1099511627776, wins := [(8, 2670150)] })] },
      63, 8, 2670150, 341779200,
      { part := 63, cell := 63, prbs := 4, sfMask := 1, rx := true, demods := 2, thr := 0, floorPwr := 1099511627776, wins := [(8, 2670150)] },
      (foundOf (upPowers
      { part := 63, cell := 63, prbs := 4, sfMask := 1, rx := true, demods := 2, thr := 0, floorPwr := 1099511627776, wins := [(8, 2670150)] }
      8 341779200)), (binPeak (downPowers
      { part := 63, cell := 63, prbs := 4, sfMask := 1, rx := true, demods := 2, thr := 0, floorPwr := 1099511627776, wins := [(8, 2670150)] }
      8 341779200)),
      rfl, rfl, .inr (peak_small _ _ _), by decide +kernel⟩,
    ⟨{ up with parts := [(63, { state := .active, radio := true, radioSlot := 7, hdmBase := 1048576, hdmLen := 16777216 })], cells := [(63 * 64 + 63, { state := .running, cfg := { fdd := true, prbDl := 273, prbUl := 273, tmplCell := 9, reqRing := 11, indRing := 10 } })], tts := { up.tts with tables := [(7, { state := .running, part := 63, insts := [(0, { slot := 508640, sealed := true })], tmpl := { cells := [{ index := 9, sweepMask := 255, sweepDemods := 65535 }] } })] }, sweep := [(63, { part := 63, cell := 63, prbs := 4, sfMask := 1, rx := true, demods := 2, thr := 0, floorPwr := 0, wins := [(8, 2670150)] })] },
      63, 8, 2670150, 341779200,
      { part := 63, cell := 63, prbs := 4, sfMask := 1, rx := true, demods := 2, thr := 0, floorPwr := 0, wins := [(8, 2670150)] },
      (foundOf (upPowers
      { part := 63, cell := 63, prbs := 4, sfMask := 1, rx := true, demods := 2, thr := 0, floorPwr := 0, wins := [(8, 2670150)] }
      8 341779200)), (binPeak (downPowers
      { part := 63, cell := 63, prbs := 4, sfMask := 1, rx := true, demods := 2, thr := 0, floorPwr := 0, wins := [(8, 2670150)] }
      8 341779200)),
      rfl, rfl, thr_zero _ _ rfl, floor_zero _ _ rfl, by decide +kernel⟩,
    ⟨{ up with parts := [(63, { state := .active, radio := true, radioSlot := 7, hdmBase := 1048576, hdmLen := 16777216 })], cells := [(63 * 64 + 63, { state := .running, cfg := { fdd := true, prbDl := 273, prbUl := 273, tmplCell := 9, reqRing := 11, indRing := 10 } })], tts := { up.tts with tables := [(7, { state := .running, part := 63, insts := [(0, { slot := 508640, sealed := true })], tmpl := { cells := [{ index := 9, sweepMask := 255, sweepDemods := 65535 }] } })] }, sweep := [(63, { part := 63, cell := 63, prbs := 4, sfMask := 1, rx := true, demods := 2, thr := 0, floorPwr := 0, wins := [(8, 2670150)], runs := [(8, { len := 5, start := 341779072, bin := sweepHalf (foundOf (upPowers { part := 63, cell := 63, prbs := 4, sfMask := 1, rx := true, demods := 2, thr := 0, floorPwr := 0, wins := [(8, 2670150)] } 8 341779200)).bin })] })] },
      63, 8, 2670150, 341779200,
      { part := 63, cell := 63, prbs := 4, sfMask := 1, rx := true, demods := 2, thr := 0, floorPwr := 0, wins := [(8, 2670150)], runs := [(8, { len := 5, start := 341779072, bin := sweepHalf (foundOf (upPowers { part := 63, cell := 63, prbs := 4, sfMask := 1, rx := true, demods := 2, thr := 0, floorPwr := 0, wins := [(8, 2670150)] } 8 341779200)).bin })] },
      (foundOf (upPowers
      { part := 63, cell := 63, prbs := 4, sfMask := 1, rx := true, demods := 2, thr := 0, floorPwr := 0, wins := [(8, 2670150)], runs := [(8, { len := 5, start := 341779072, bin := sweepHalf (foundOf (upPowers { part := 63, cell := 63, prbs := 4, sfMask := 1, rx := true, demods := 2, thr := 0, floorPwr := 0, wins := [(8, 2670150)] } 8 341779200)).bin })] }
      8 341779200)), (binPeak (downPowers
      { part := 63, cell := 63, prbs := 4, sfMask := 1, rx := true, demods := 2, thr := 0, floorPwr := 0, wins := [(8, 2670150)], runs := [(8, { len := 5, start := 341779072, bin := sweepHalf (foundOf (upPowers { part := 63, cell := 63, prbs := 4, sfMask := 1, rx := true, demods := 2, thr := 0, floorPwr := 0, wins := [(8, 2670150)] } 8 341779200)).bin })] }
      8 341779200)),
      { len := 5, start := 341779072, bin := sweepHalf (foundOf (upPowers { part := 63, cell := 63, prbs := 4, sfMask := 1, rx := true, demods := 2, thr := 0, floorPwr := 0, wins := [(8, 2670150)] } 8 341779200)).bin },
      rfl, rfl, rfl, thr_zero _ _ rfl, floor_zero _ _ rfl, rfl, half_turn _ (bin_in _ _ _), by decide +kernel⟩,
    ⟨{ up with parts := [(63, { state := .active, radio := true, radioSlot := 7, hdmBase := 1048576, hdmLen := 16777216 })], cells := [(63 * 64 + 63, { state := .running, cfg := { fdd := true, prbDl := 273, prbUl := 273, tmplCell := 9, reqRing := 11, indRing := 10 } })], tts := { up.tts with tables := [(7, { state := .running, part := 63, insts := [(0, { slot := 508640, sealed := true })], tmpl := { cells := [{ index := 9, sweepMask := 255, sweepDemods := 65535 }] } })] }, sweep := [(63, { part := 63, cell := 63, prbs := 4, sfMask := 1, rx := true, demods := 2, thr := 0, floorPwr := 1099511627776, wins := [(8, 2670150)], active := [{ sf := 8, search := some { start := 341770000, bin := 3, seen := 23, peak := 5, downStart := 341772000, downBin := 9 } }] })] },
      63, 8, 2670150, 341779200,
      { part := 63, cell := 63, prbs := 4, sfMask := 1, rx := true, demods := 2, thr := 0, floorPwr := 1099511627776, wins := [(8, 2670150)], active := [{ sf := 8, search := some { start := 341770000, bin := 3, seen := 23, peak := 5, downStart := 341772000, downBin := 9 } }] },
      (foundOf (upPowers
      { part := 63, cell := 63, prbs := 4, sfMask := 1, rx := true, demods := 2, thr := 0, floorPwr := 1099511627776, wins := [(8, 2670150)], active := [{ sf := 8, search := some { start := 341770000, bin := 3, seen := 23, peak := 5, downStart := 341772000, downBin := 9 } }] }
      8 341779200)), (binPeak (downPowers
      { part := 63, cell := 63, prbs := 4, sfMask := 1, rx := true, demods := 2, thr := 0, floorPwr := 1099511627776, wins := [(8, 2670150)], active := [{ sf := 8, search := some { start := 341770000, bin := 3, seen := 23, peak := 5, downStart := 341772000, downBin := 9 } }] }
      8 341779200)),
      { sf := 8, search := some { start := 341770000, bin := 3, seen := 23, peak := 5, downStart := 341772000, downBin := 9 } },
      { start := 341770000, bin := 3, seen := 23, peak := 5, downStart := 341772000, downBin := 9 }, (sweepFix (2 ^ 8)
      341770000 3 (if 5 < (binPeak (downPowers
      { part := 63, cell := 63, prbs := 4, sfMask := 1, rx := true, demods := 2, thr := 0, floorPwr := 1099511627776, wins := [(8, 2670150)], active := [{ sf := 8, search := some { start := 341770000, bin := 3, seen := 23, peak := 5, downStart := 341772000, downBin := 9 } }] }
      8 341779200)).2 then 341779200 else 341772000) (if 5 < (binPeak (downPowers
      { part := 63, cell := 63, prbs := 4, sfMask := 1, rx := true, demods := 2, thr := 0, floorPwr := 1099511627776, wins := [(8, 2670150)], active := [{ sf := 8, search := some { start := 341770000, bin := 3, seen := 23, peak := 5, downStart := 341772000, downBin := 9 } }] }
      8 341779200)).2 then (binPeak (downPowers
      { part := 63, cell := 63, prbs := 4, sfMask := 1, rx := true, demods := 2, thr := 0, floorPwr := 1099511627776, wins := [(8, 2670150)], active := [{ sf := 8, search := some { start := 341770000, bin := 3, seen := 23, peak := 5, downStart := 341772000, downBin := 9 } }] }
      8 341779200)).1 else 9)).1, (sweepFix (2 ^ 8) 341770000 3 (if 5 < (binPeak (downPowers
      { part := 63, cell := 63, prbs := 4, sfMask := 1, rx := true, demods := 2, thr := 0, floorPwr := 1099511627776, wins := [(8, 2670150)], active := [{ sf := 8, search := some { start := 341770000, bin := 3, seen := 23, peak := 5, downStart := 341772000, downBin := 9 } }] }
      8 341779200)).2 then 341779200 else 341772000) (if 5 < (binPeak (downPowers
      { part := 63, cell := 63, prbs := 4, sfMask := 1, rx := true, demods := 2, thr := 0, floorPwr := 1099511627776, wins := [(8, 2670150)], active := [{ sf := 8, search := some { start := 341770000, bin := 3, seen := 23, peak := 5, downStart := 341772000, downBin := 9 } }] }
      8 341779200)).2 then (binPeak (downPowers
      { part := 63, cell := 63, prbs := 4, sfMask := 1, rx := true, demods := 2, thr := 0, floorPwr := 1099511627776, wins := [(8, 2670150)], active := [{ sf := 8, search := some { start := 341770000, bin := 3, seen := 23, peak := 5, downStart := 341772000, downBin := 9 } }] }
      8 341779200)).1 else 9)).2,
      rfl, rfl, .inr (peak_small _ _ _), rfl, by decide +kernel⟩,
    ⟨{ up with parts := [(63, { state := .active, radio := true, radioSlot := 7, hdmBase := 1048576, hdmLen := 16777216 })], cells := [(63 * 64 + 63, { state := .running, cfg := { fdd := true, prbDl := 273, prbUl := 273, tmplCell := 9, reqRing := 11, indRing := 10 } })], tts := { up.tts with tables := [(7, { state := .running, part := 63, insts := [(0, { slot := 508640, sealed := true })], tmpl := { cells := [{ index := 9, sweepMask := 255, sweepDemods := 65535 }] } })] }, sweep := [(63, { part := 63, cell := 63, prbs := 4, sfMask := 1, rx := true, demods := 2, thr := 0, floorPwr := 0, wins := [(8, 2670150)], active := [{ sf := 8, t0 := 341779200, f := 0, sym := 17 }] })], rings := [(10, { base := 16000000, part := 63, cls := 4, toHost := true })] },
      63, 8, 341779200, 0,
      { part := 63, cell := 63, prbs := 4, sfMask := 1, rx := true, demods := 2, thr := 0, floorPwr := 0, wins := [(8, 2670150)], active := [{ sf := 8, t0 := 341779200, f := 0, sym := 17 }] },
      { sf := 8, t0 := 341779200, f := 0, sym := 17 }, (lsbBits 8 (gray ((((binPeak (upPowers
      { part := 63, cell := 63, prbs := 4, sfMask := 1, rx := true, demods := 2, thr := 0, floorPwr := 0, wins := [(8, 2670150)], active := [{ sf := 8, t0 := 341779200, f := 0, sym := 17 }] }
      8 (341779200 + 17 * 2 ^ 8))).1 : Int) - 0) % ((2 ^ 8 : Nat) : Int)).toNat)),
      rfl, by decide +kernel⟩,
    ⟨{ up with parts := [(63, { state := .active, radio := true, radioSlot := 7, hdmBase := 1048576, hdmLen := 16777216 })], cells := [(63 * 64 + 63, { state := .running, cfg := { fdd := true, prbDl := 273, prbUl := 273, tmplCell := 9, reqRing := 11, indRing := 10 } })], tts := { up.tts with tables := [(7, { state := .running, part := 63, insts := [(0, { slot := 508640, sealed := true })], tmpl := { cells := [{ index := 9, sweepMask := 255, sweepDemods := 65535 }] } })] }, sweep := [(63, { part := 63, cell := 63, prbs := 4, sfMask := 1, rx := true, demods := 2, thr := 0, floorPwr := 0, wins := [(8, 2670150)], active := [{ sf := 8, t0 := 341779200, f := 0, sym := 18, bits := List.replicate 56 true }] })], rings := [(10, { base := 16000000, part := 63, cls := 4, toHost := true })] },
      63, 8, 341779200, 0,
      { part := 63, cell := 63, prbs := 4, sfMask := 1, rx := true, demods := 2, thr := 0, floorPwr := 0, wins := [(8, 2670150)], active := [{ sf := 8, t0 := 341779200, f := 0, sym := 18, bits := List.replicate 56 true }] },
      { sf := 8, t0 := 341779200, f := 0, sym := 18, bits := List.replicate 56 true }, (lsbBits 8 (gray ((((binPeak (upPowers
      { part := 63, cell := 63, prbs := 4, sfMask := 1, rx := true, demods := 2, thr := 0, floorPwr := 0, wins := [(8, 2670150)], active := [{ sf := 8, t0 := 341779200, f := 0, sym := 18, bits := List.replicate 56 true }] }
      8 (341779200 + 18 * 2 ^ 8))).1 : Int) - 0) % ((2 ^ 8 : Nat) : Int)).toNat)),
      rfl, by decide +kernel⟩,
    ⟨{ up with parts := [(63, { state := .active, radio := true, radioSlot := 7, hdmBase := 1048576, hdmLen := 16777216 })], cells := [(63 * 64 + 63, { state := .running, cfg := { fdd := true, prbDl := 273, prbUl := 273, tmplCell := 9, reqRing := 11, indRing := 10 } })], tts := { up.tts with tables := [(7, { state := .running, part := 63, insts := [(0, { slot := 508640, sealed := true })], tmpl := { cells := [{ index := 9, sweepMask := 255, sweepDemods := 65535 }] } })] }, sweep := [(63, { part := 63, cell := 63, prbs := 4, sfMask := 1, rx := true, demods := 2, thr := 0, floorPwr := 0, wins := [(8, 2670150)], active := [{ sf := 8, t0 := 341779200, f := 0, sym := 26, bits := (sweepBits 5 [1, 2, 3, 4, 5]), hdr := some 5 }] })], rings := [(10, { base := 16000000, part := 63, cls := 4, toHost := true })] },
      63, 8, 341779200, 0,
      { part := 63, cell := 63, prbs := 4, sfMask := 1, rx := true, demods := 2, thr := 0, floorPwr := 0, wins := [(8, 2670150)], active := [{ sf := 8, t0 := 341779200, f := 0, sym := 26, bits := (sweepBits 5 [1, 2, 3, 4, 5]), hdr := some 5 }] },
      { sf := 8, t0 := 341779200, f := 0, sym := 26, bits := (sweepBits 5 [1, 2, 3, 4, 5]), hdr := some 5 }, (lsbBits 8 (gray
      ((((binPeak (upPowers
      { part := 63, cell := 63, prbs := 4, sfMask := 1, rx := true, demods := 2, thr := 0, floorPwr := 0, wins := [(8, 2670150)], active := [{ sf := 8, t0 := 341779200, f := 0, sym := 26, bits := (sweepBits 5 [1, 2, 3, 4, 5]), hdr := some 5 }] }
      8 (341779200 + 26 * 2 ^ 8))).1 : Int) - 0) % ((2 ^ 8 : Nat) : Int)).toNat)), 5, 5,
      rfl, by decide +kernel⟩,
    ⟨{ up with parts := [(63, { state := .active, radio := true, radioSlot := 7, hdmBase := 1048576, hdmLen := 16777216 })], cells := [(63 * 64 + 63, { state := .running, cfg := { fdd := true, prbDl := 273, prbUl := 273, tmplCell := 9, reqRing := 11, indRing := 10 } })], tts := { up.tts with tables := [(7, { state := .running, part := 63, insts := [(0, { slot := 508640, sealed := true })], tmpl := { cells := [{ index := 9, sweepMask := 255, sweepDemods := 65535 }] } })] }, sweep := [(63, { part := 63, cell := 63, prbs := 4, sfMask := 1, rx := true, demods := 2, thr := 0, floorPwr := 0, wins := [(8, 2670150)], active := [{ sf := 8, t0 := 341779200, f := 0, sym := 26, bits := List.replicate 120 true, hdr := some 5 }] })], rings := [(10, { base := 16000000, part := 63, cls := 4, toHost := true })] },
      63, 8, 341779200, 0,
      { part := 63, cell := 63, prbs := 4, sfMask := 1, rx := true, demods := 2, thr := 0, floorPwr := 0, wins := [(8, 2670150)], active := [{ sf := 8, t0 := 341779200, f := 0, sym := 26, bits := List.replicate 120 true, hdr := some 5 }] },
      { sf := 8, t0 := 341779200, f := 0, sym := 26, bits := List.replicate 120 true, hdr := some 5 }, (lsbBits 8 (gray
      ((((binPeak (upPowers
      { part := 63, cell := 63, prbs := 4, sfMask := 1, rx := true, demods := 2, thr := 0, floorPwr := 0, wins := [(8, 2670150)], active := [{ sf := 8, t0 := 341779200, f := 0, sym := 26, bits := List.replicate 120 true, hdr := some 5 }] }
      8 (341779200 + 26 * 2 ^ 8))).1 : Int) - 0) % ((2 ^ 8 : Nat) : Int)).toNat)), 5, 5,
      rfl, by decide +kernel⟩⟩

theorem test_witness_SweepSamples :
    (∃ (h : SweepChan) (i : _),
      (i < sweepQ h) ∧ (0 < h.prbs) ∧ (h.prbs ≤ 4))
    ∧ (∃ (l : Nat) (h : SweepChan) (k : _),
      (0 < h.prbs) ∧ (h.prbs ≤ 4) ∧ (k / sweepQ h ≠ l) ∧ ((l + 1) * sweepQ h ≤ k / sweepQ h * sweepQ h + 4 * 2 ^ sweepTop h))
    ∧ (∃ (l : Nat) (h : SweepChan) (k : _),
      (0 < h.prbs) ∧ (h.prbs ≤ 4) ∧ (k / sweepQ h ≠ l) ∧ (k / sweepQ h * sweepQ h + 4 * 2 ^ sweepTop h < (l + 1) * sweepQ h))
    ∧ (∃ (f : SweepFrame) (j : Nat),
      (j < 10 * 2 ^ f.sf))
    ∧ (∃ (f : SweepFrame) (j : Nat),
      (10 * 2 ^ f.sf ≤ j) ∧ (j < 12 * 2 ^ f.sf))
    ∧ (∃ (f : SweepFrame) (j : Nat) (i : _) (m : _),
      (f.syms[i]? = some m) ∧ (j / 2 ^ f.sf = 12 + i))
    ∧ (∃ (f : SweepFrame) (j : Nat),
      ((12 + f.syms.length) * 2 ^ f.sf ≤ j))
    ∧ (∃ (b : _),
      (0 < b)) :=
  ⟨⟨{ prbs := 4, sfMask := 1, hist := [(3, [(9, 9)])] }, 47,
      by decide +kernel⟩,
    ⟨4, { prbs := 4, sfMask := 1, hist := [(3, [(9, 9)])] }, 144,
      by decide +kernel⟩,
    ⟨99, { prbs := 4, sfMask := 1, hist := [(3, [(9, 9)])] }, 144,
      by decide +kernel⟩,
    ⟨{ sf := 8, syms := [7, 9] }, 2559,
      by decide +kernel⟩,
    ⟨{ sf := 8, syms := [7, 9] }, 2560,
      by decide +kernel⟩,
    ⟨{ sf := 8, syms := [7, 9] }, 3583, 1, 9,
      by decide +kernel⟩,
    ⟨{ sf := 8, syms := [7, 9] }, 3584,
      by decide +kernel⟩,
    ⟨1,
      by decide +kernel⟩⟩

theorem test_witness_ContextLife :
    (∃ (s : State) (m : Nat) (c : Cmd) (places : List Placement) (p : Nat) (n : Nat) (wo : Nat) (bytes : List Byte) (b :
      Binding) (dram : List (Nat × Nat)),
      (∃ h < 64, tabHas s.ops h = false) ∧ (ctxMemory s p wo (places.getD (places.findIdx (placementUsable s.grade (parseImage
        s.tts.duskMargin bytes).1)) {}) = .ok (b, dram)) ∧ (Due s m 0x0500 c) ∧ (targetOf m c = p) ∧ (p < 64) ∧ (n = field
        c.payload 0 2) ∧ (wo = field c.payload 6 2) ∧ (bytes = hdmRead s (field c.payload 8 8) (field c.payload 16 4)) ∧
        (s.dev.twilight = false) ∧ (field c.payload 3 1 ≠ 0) ∧ (n ≤ 255) ∧ (field c.payload 2 1 ≤ 7) ∧ ((partOf s p).prioLimit
        ≤ field c.payload 2 1) ∧ (field c.payload 3 1 ≤ 64) ∧ (field c.payload 16 4 ≠ 0) ∧ (ringsOk s p (field c.payload 20 2)
        (field c.payload 22 2) = true) ∧ (weightsOk s p wo = true) ∧ (ctxInUse s n = false) ∧ (inShare s p (field c.payload 8
        8) (field c.payload 16 4) = true) ∧ (imageStatus s p (parseImage s.tts.duskMargin bytes).1 (parseImage
        s.tts.duskMargin bytes).2.1 (parseImage s.tts.duskMargin bytes).2.2 places = .success) ∧ (wo = 0xFFFF ∨ (ctxOf s
        wo).img.weightsId = (parseImage s.tts.duskMargin bytes).1.weightsId) ∧ (partContexts s p < (partOf s p).maxContexts))
    ∧ (∃ (s : State) (m : Nat) (c : Cmd) (places : List Placement) (p : Nat) (n : Nat) (wo : Nat) (bytes : List Byte) (st :
      _),
      (∃ h < 64, tabHas s.ops h = false) ∧ (ctxMemory s p wo (places.getD (places.findIdx (placementUsable s.grade (parseImage
        s.tts.duskMargin bytes).1)) {}) = .error st) ∧ (Due s m 0x0500 c) ∧ (targetOf m c = p) ∧ (p < 64) ∧ (n = field
        c.payload 0 2) ∧ (wo = field c.payload 6 2) ∧ (bytes = hdmRead s (field c.payload 8 8) (field c.payload 16 4)) ∧
        (s.dev.twilight = false) ∧ (field c.payload 3 1 ≠ 0) ∧ (n ≤ 255) ∧ (field c.payload 2 1 ≤ 7) ∧ ((partOf s p).prioLimit
        ≤ field c.payload 2 1) ∧ (field c.payload 3 1 ≤ 64) ∧ (field c.payload 16 4 ≠ 0) ∧ (ringsOk s p (field c.payload 20 2)
        (field c.payload 22 2) = true) ∧ (weightsOk s p wo = true) ∧ (ctxInUse s n = false) ∧ (inShare s p (field c.payload 8
        8) (field c.payload 16 4) = true) ∧ (imageStatus s p (parseImage s.tts.duskMargin bytes).1 (parseImage
        s.tts.duskMargin bytes).2.1 (parseImage s.tts.duskMargin bytes).2.2 places = .success) ∧ (wo = 0xFFFF ∨ (ctxOf s
        wo).img.weightsId = (parseImage s.tts.duskMargin bytes).1.weightsId) ∧ (partContexts s p < (partOf s p).maxContexts))
    ∧ (∃ (s : State) (m : Nat) (c : Cmd) (p : Nat) (n : Nat) (wo : Nat) (bytes : List Byte),
      (Due s m 0x0500 c) ∧ (targetOf m c = p) ∧ (p < 64) ∧ (n = field c.payload 0 2) ∧ (wo = field c.payload 6 2) ∧ (bytes =
        hdmRead s (field c.payload 8 8) (field c.payload 16 4)) ∧ (s.dev.twilight = false) ∧ (field c.payload 3 1 = 0))
    ∧ (∃ (s : State) (m : Nat) (c : Cmd) (p : Nat) (n : Nat) (wo : Nat) (bytes : List Byte),
      (Due s m 0x0500 c) ∧ (targetOf m c = p) ∧ (p < 64) ∧ (n = field c.payload 0 2) ∧ (wo = field c.payload 6 2) ∧ (bytes =
        hdmRead s (field c.payload 8 8) (field c.payload 16 4)) ∧ (s.dev.twilight = false) ∧ (field c.payload 3 1 ≠ 0) ∧ (255
        < n))
    ∧ (∃ (s : State) (h : Nat) (n : Nat) (x : Context) (o : LongOp),
      (h < 64) ∧ (tabFind? s.srv.creating h = some (n, x)) ∧ (opOf s h = some o) ∧ (o.finished = false))
    ∧ (∃ (s : State) (m : Nat) (n : Nat) (c : Cmd),
      (∃ h < 64, tabHas s.ops h = false) ∧ (Due s m 0x0501 c) ∧ (n = field c.payload 0 2) ∧ (n < 256) ∧ ((ctxOf s n).state ≠
        .absent) ∧ ((ctxOf s n).part = targetOf m c) ∧ (destroying s n = false))
    ∧ (∃ (s : State) (m : Nat) (n : Nat) (c : Cmd),
      (Due s m 0x0501 c) ∧ (n = field c.payload 0 2) ∧ (n < 256) ∧ ((ctxOf s n).state = .absent ∨ (ctxOf s n).part ≠ targetOf
        m c))
    ∧ (∃ (s : State) (h : Nat) (o : LongOp),
      (h < 64) ∧ (opOf s h = some o) ∧ (o.opcode = 0x0501) ∧ (o.finished = false)) :=
  ⟨⟨(taking 0 (cmdOf 0x500 63 (leBytes 24 0x150014000000840000000000110000ffff0000400700ff))
    ({ up with parts := [(63, { state := .active, hdmBase := 1048576, hdmLen := 16777216, maxContexts := 4, dramGb := 4, prioLimit := 0 })], rings := [(20, { base := 16000000, cls := 5, part := 63 }), (21, { base := 16100000, cls := 5, part := 63, toHost := true })], srv := { up.srv with ctxs := [] }, mem := (memWriteBytes {} (hdmAt 1114112) (leBytes 132 0x800000000100040064000000000000000000000000000010000000100000000060000000010258000000000000000000000000000000000000000000000000000000000000000000000000000700000010000000000000004000000000000000000000008400010101)) })),
    0, (cmdOf 0x500 63 (leBytes 24 0x150014000000840000000000110000ffff0000400700ff)),
    [{ shape := { quadrants := [1], tiles := [0], movers := [0], arrayGranules := [0], dramGb := [1] }, sizes := [(0, 2097152, 0)] }],
    63, 255, 0xFFFF, (hdmRead (taking 0 (cmdOf 0x500 63 (leBytes 24 0x150014000000840000000000110000ffff0000400700ff))
    ({ up with parts := [(63, { state := .active, hdmBase := 1048576, hdmLen := 16777216, maxContexts := 4, dramGb := 4, prioLimit := 0 })], rings := [(20, { base := 16000000, cls := 5, part := 63 }), (21, { base := 16100000, cls := 5, part := 63, toHost := true })], srv := { up.srv with ctxs := [] }, mem := (memWriteBytes {} (hdmAt 1114112) (leBytes 132 0x800000000100040064000000000000000000000000000010000000100000000060000000010258000000000000000000000000000000000000000000000000000000000000000000000000000700000010000000000000004000000000000000000000008400010101)) }))
    1114112 132), { regions := [0], quads := [[0]], tiles := [[]], movers := [[]] }, [(4194304, 1)],
      ⟨0, by decide +kernel, by decide +kernel⟩, ok_of (by decide +kernel), by decide +kernel⟩,
    ⟨(taking 0 (cmdOf 0x500 63 (leBytes 24 0x150014000000840000000000110000ffff0000400700ff))
      ({ up with parts := [(63, { state := .active, hdmBase := 1048576, hdmLen := 16777216, maxContexts := 4, dramGb := 0, prioLimit := 0 })], rings := [(20, { base := 16000000, cls := 5, part := 63 }), (21, { base := 16100000, cls := 5, part := 63, toHost := true })], srv := { up.srv with ctxs := [] }, mem := (memWriteBytes {} (hdmAt 1114112) (leBytes 132 0x800000000100040064000000000000000000000000000010000000100000000060000000010258000000000000000000000000000000000000000000000000000000000000000000000000000700000010000000000000004000000000000000000000008400010101)) })),
      0, (cmdOf 0x500 63 (leBytes 24 0x150014000000840000000000110000ffff0000400700ff)),
      [{ shape := { quadrants := [1], tiles := [0], movers := [0], arrayGranules := [0], dramGb := [1] }, sizes := [(0, 2097152, 0)] }],
      63, 255, 0xFFFF, (hdmRead (taking 0 (cmdOf 0x500 63 (leBytes 24 0x150014000000840000000000110000ffff0000400700ff))
      ({ up with parts := [(63, { state := .active, hdmBase := 1048576, hdmLen := 16777216, maxContexts := 4, dramGb := 0, prioLimit := 0 })], rings := [(20, { base := 16000000, cls := 5, part := 63 }), (21, { base := 16100000, cls := 5, part := 63, toHost := true })], srv := { up.srv with ctxs := [] }, mem := (memWriteBytes {} (hdmAt 1114112) (leBytes 132 0x800000000100040064000000000000000000000000000010000000100000000060000000010258000000000000000000000000000000000000000000000000000000000000000000000000000700000010000000000000004000000000000000000000008400010101)) }))
      1114112 132), .quota,
      ⟨0, by decide +kernel, by decide +kernel⟩, err_of (by decide +kernel), by decide +kernel⟩,
    ⟨(taking 0 (cmdOf 0x500 63 (leBytes 24 0x150014000000840000000000110000ffff0000000700ff))
      ({ up with parts := [(63, { state := .active, hdmBase := 1048576, hdmLen := 16777216, maxContexts := 4, dramGb := 4, prioLimit := 0 })], rings := [(20, { base := 16000000, cls := 5, part := 63 }), (21, { base := 16100000, cls := 5, part := 63, toHost := true })], srv := { up.srv with ctxs := [] } })),
      0, (cmdOf 0x500 63 (leBytes 24 0x150014000000840000000000110000ffff0000000700ff)), 63, 255, 0xFFFF, (hdmRead (taking 0
      (cmdOf 0x500 63 (leBytes 24 0x150014000000840000000000110000ffff0000000700ff))
      ({ up with parts := [(63, { state := .active, hdmBase := 1048576, hdmLen := 16777216, maxContexts := 4, dramGb := 4, prioLimit := 0 })], rings := [(20, { base := 16000000, cls := 5, part := 63 }), (21, { base := 16100000, cls := 5, part := 63, toHost := true })], srv := { up.srv with ctxs := [] } }))
      1114112 132),
      by decide +kernel⟩,
    ⟨(taking 0 (cmdOf 0x500 63 (leBytes 24 0x150014000000840000000000110000ffff000040070100))
      ({ up with parts := [(63, { state := .active, hdmBase := 1048576, hdmLen := 16777216, maxContexts := 4, dramGb := 4, prioLimit := 0 })], rings := [(20, { base := 16000000, cls := 5, part := 63 }), (21, { base := 16100000, cls := 5, part := 63, toHost := true })], srv := { up.srv with ctxs := [] } })),
      0, (cmdOf 0x500 63 (leBytes 24 0x150014000000840000000000110000ffff000040070100)), 63, 256, 0xFFFF, (hdmRead (taking 0
      (cmdOf 0x500 63 (leBytes 24 0x150014000000840000000000110000ffff000040070100))
      ({ up with parts := [(63, { state := .active, hdmBase := 1048576, hdmLen := 16777216, maxContexts := 4, dramGb := 4, prioLimit := 0 })], rings := [(20, { base := 16000000, cls := 5, part := 63 }), (21, { base := 16100000, cls := 5, part := 63, toHost := true })], srv := { up.srv with ctxs := [] } }))
      1114112 132),
      by decide +kernel⟩,
    ⟨{ up with parts := [(63, { state := .active, hdmBase := 1048576, hdmLen := 16777216, maxContexts := 4, dramGb := 4, prioLimit := 0 })], rings := [(20, { base := 16000000, cls := 5, part := 63 }), (21, { base := 16100000, cls := 5, part := 63, toHost := true })], srv := { up.srv with creating := [(63, (255, { part := 63, subRing := 20, doneRing := 21, places := [{ shape := { quadrants := [1], tiles := [0], movers := [0], arrayGranules := [1], dramGb := [1] }, sizes := [(1048576, 2097152, 0)] }], bind := { regions := [0], quads := [[0]], tiles := [[]], movers := [[]] }, img := { kinds := [{ stepBound := 39321600, inMax := 4096, outMax := 4096, micros := [{ bound := 100, units := [0] }] }] }, depth := 64, dram := [(4194304, 1)] }))] }, ops := [(63, { mbx := 0, opcode := 0x0500, part := 63, obj := 255, args := [] })], mem := { cells := [(regionAt 255 0 1 5, 9)] } },
      63, 255,
      { part := 63, subRing := 20, doneRing := 21, places := [{ shape := { quadrants := [1], tiles := [0], movers := [0], arrayGranules := [1], dramGb := [1] }, sizes := [(1048576, 2097152, 0)] }], bind := { regions := [0], quads := [[0]], tiles := [[]], movers := [[]] }, img := { kinds := [{ stepBound := 39321600, inMax := 4096, outMax := 4096, micros := [{ bound := 100, units := [0] }] }] }, depth := 64, dram := [(4194304, 1)] },
      { mbx := 0, opcode := 0x0500, part := 63, obj := 255, args := [] },
      by decide +kernel⟩,
    ⟨(taking 0 (cmdOf 0x501 63 (leBytes 2 0xff))
      ({ up with parts := [(63, { state := .active, hdmBase := 1048576, hdmLen := 16777216, maxContexts := 4, dramGb := 4, prioLimit := 0 })], rings := [(20, { base := 16000000, cls := 5, part := 63 }), (21, { base := 16100000, cls := 5, part := 63, toHost := true })], srv := { up.srv with ctxs := [(255, { part := 63, subRing := 20, doneRing := 21, places := [{ shape := { quadrants := [1], tiles := [0], movers := [0], arrayGranules := [1], dramGb := [1] }, sizes := [(1048576, 2097152, 0)] }], bind := { regions := [0], quads := [[0]], tiles := [[]], movers := [[]] }, img := { kinds := [{ stepBound := 39321600, inMax := 4096, outMax := 4096, micros := [{ bound := 100, units := [0] }] }] }, depth := 64, state := .running, queue := [{}], step := some {} })] } })),
      0, 255, (cmdOf 0x501 63 (leBytes 2 0xff)),
      ⟨0, by decide +kernel, by decide +kernel⟩, by decide +kernel⟩,
    ⟨(taking 0 (cmdOf 0x501 63 (leBytes 2 0xff))
      ({ up with parts := [(63, { state := .active, hdmBase := 1048576, hdmLen := 16777216, maxContexts := 4, dramGb := 4, prioLimit := 0 })], rings := [(20, { base := 16000000, cls := 5, part := 63 }), (21, { base := 16100000, cls := 5, part := 63, toHost := true })], srv := { up.srv with ctxs := [(255, { part := 63, subRing := 20, doneRing := 21, places := [{ shape := { quadrants := [1], tiles := [0], movers := [0], arrayGranules := [1], dramGb := [1] }, sizes := [(1048576, 2097152, 0)] }], bind := { regions := [0], quads := [[0]], tiles := [[]], movers := [[]] }, img := { kinds := [{ stepBound := 39321600, inMax := 4096, outMax := 4096, micros := [{ bound := 100, units := [0] }] }] }, depth := 64, state := .absent })] } })),
      0, 255, (cmdOf 0x501 63 (leBytes 2 0xff)),
      by decide +kernel⟩,
    ⟨{ up with parts := [(63, { state := .active, hdmBase := 1048576, hdmLen := 16777216, maxContexts := 4, dramGb := 4, prioLimit := 0 })], rings := [(20, { base := 16000000, cls := 5, part := 63 }), (21, { base := 16100000, cls := 5, part := 63, toHost := true })], srv := { up.srv with ctxs := [(255, { part := 63, subRing := 20, doneRing := 21, places := [{ shape := { quadrants := [1], tiles := [0], movers := [0], arrayGranules := [1], dramGb := [1] }, sizes := [(1048576, 2097152, 0)] }], bind := { regions := [0], quads := [[0]], tiles := [[]], movers := [[]] }, img := { kinds := [{ stepBound := 39321600, inMax := 4096, outMax := 4096, micros := [{ bound := 100, units := [0] }] }] }, depth := 64, state := .loaded })] }, ops := [(63, { mbx := 0, opcode := 0x0501, part := 63, obj := 255, args := [] })] },
      63, { mbx := 0, opcode := 0x0501, part := 63, obj := 255, args := [] },
      by decide +kernel⟩⟩

theorem test_witness_ContextWrite :
    (∃ (s : State) (m : Nat) (n : Nat) (kind : Nat) (lr : Nat) (dst : Nat) (src : Nat) (len : Nat) (c : Cmd),
      (∃ h < 64, tabHas s.ops h = false) ∧ (Due s m 0x0502 c) ∧ (n = field c.payload 0 2) ∧ (n < 256) ∧ (kind = field
        c.payload 2 1) ∧ (lr = field c.payload 3 1) ∧ (dst = field c.payload 8 8) ∧ (src = field c.payload 16 8) ∧ (len =
        field c.payload 24 8) ∧ (kind ≤ 1) ∧ ((ctxOf s n).part = targetOf m c) ∧ (destroying s n = false) ∧ ((ctxOf s n).state
        = .loaded ∨ (ctxOf s n).state = .resident) ∧ (∀ d ∈ (if kind = 0 then sharers s n else [n]), (ctxOf s d).step = none)
        ∧ (lr < ((ctxOf s n).places.getD (ctxOf s n).place {}).shape.regions) ∧ (inShare s (ctxOf s n).part src len = true) ∧
        (dst + len ≤ ctxRegionBytes s n lr kind) ∧ (len ≠ 0))
    ∧ (∃ (s : State) (m : Nat) (n : Nat) (kind : Nat) (lr : Nat) (dst : Nat) (src : Nat) (len : Nat) (c : Cmd),
      (Due s m 0x0502 c) ∧ (n = field c.payload 0 2) ∧ (n < 256) ∧ (kind = field c.payload 2 1) ∧ (lr = field c.payload 3 1) ∧
        (dst = field c.payload 8 8) ∧ (src = field c.payload 16 8) ∧ (len = field c.payload 24 8) ∧ (kind ≤ 1) ∧ ((ctxOf s
        n).part = targetOf m c) ∧ (destroying s n = false) ∧ ((ctxOf s n).state = .loaded ∨ (ctxOf s n).state = .resident) ∧
        (∀ d ∈ (if kind = 0 then sharers s n else [n]), (ctxOf s d).step = none) ∧ (lr < ((ctxOf s n).places.getD (ctxOf s
        n).place {}).shape.regions) ∧ (inShare s (ctxOf s n).part src len = true) ∧ (dst + len ≤ ctxRegionBytes s n lr kind) ∧
        (len = 0))
    ∧ (∃ (s : State) (m : Nat) (n : Nat) (kind : Nat) (lr : Nat) (dst : Nat) (src : Nat) (len : Nat) (c : Cmd),
      (Due s m 0x0502 c) ∧ (n = field c.payload 0 2) ∧ (n < 256) ∧ (kind = field c.payload 2 1) ∧ (lr = field c.payload 3 1) ∧
        (dst = field c.payload 8 8) ∧ (src = field c.payload 16 8) ∧ (len = field c.payload 24 8) ∧ (kind ≤ 1) ∧ ((ctxOf s
        n).part = targetOf m c) ∧ (destroying s n = false) ∧ ((ctxOf s n).state = .loaded ∨ (ctxOf s n).state = .resident) ∧
        (∀ d ∈ (if kind = 0 then sharers s n else [n]), (ctxOf s d).step = none) ∧ (lr < ((ctxOf s n).places.getD (ctxOf s
        n).place {}).shape.regions) ∧ (inShare s (ctxOf s n).part src len = false ∨ ctxRegionBytes s n lr kind < dst + len))
    ∧ (∃ (s : State) (h : Nat) (n : Nat) (kind : Nat) (lr : Nat) (dst : Nat) (src : Nat) (len : Nat) (at_ : Nat) (o : LongOp),
      (h < 64) ∧ (opOf s h = some o) ∧ (o.opcode = 0x0502) ∧ (o.finished = false) ∧ (o.obj = n) ∧ (o.args = [kind, lr, dst,
        src, len]) ∧ (at_ = regionAt (if kind = 0 then weightsHome s n else n) lr kind dst)) :=
  ⟨⟨(taking 0 (cmdOf 0x502 63 (leBytes 32 0x2000000000000000110000000000000000000000000000000100ff))
    ({ up with parts := [(63, { state := .active, hdmBase := 1048576, hdmLen := 16777216, maxContexts := 4, dramGb := 4, prioLimit := 0 })], rings := [(20, { base := 16000000, cls := 5, part := 63 }), (21, { base := 16100000, cls := 5, part := 63, toHost := true })], srv := { up.srv with ctxs := [(255, { part := 63, subRing := 20, doneRing := 21, places := [{ shape := { quadrants := [1], tiles := [0], movers := [0], arrayGranules := [1], dramGb := [1] }, sizes := [(1048576, 2097152, 0)] }], bind := { regions := [0], quads := [[0]], tiles := [[]], movers := [[]] }, img := { kinds := [{ stepBound := 39321600, inMax := 4096, outMax := 4096, micros := [{ bound := 100, units := [0] }] }] }, depth := 64, state := .resident })] } })),
    0, 255, 1, 0, 0, 1114112, 2097152, (cmdOf 0x502 63 (leBytes 32 0x2000000000000000110000000000000000000000000000000100ff)),
      ⟨0, by decide +kernel, by decide +kernel⟩, by decide +kernel⟩,
    ⟨(taking 0 (cmdOf 0x502 63 (leBytes 32 0x110000000000000020000000000000000100ff))
      ({ up with parts := [(63, { state := .active, hdmBase := 1048576, hdmLen := 16777216, maxContexts := 4, dramGb := 4, prioLimit := 0 })], rings := [(20, { base := 16000000, cls := 5, part := 63 }), (21, { base := 16100000, cls := 5, part := 63, toHost := true })], srv := { up.srv with ctxs := [(255, { part := 63, subRing := 20, doneRing := 21, places := [{ shape := { quadrants := [1], tiles := [0], movers := [0], arrayGranules := [1], dramGb := [1] }, sizes := [(1048576, 2097152, 0)] }], bind := { regions := [0], quads := [[0]], tiles := [[]], movers := [[]] }, img := { kinds := [{ stepBound := 39321600, inMax := 4096, outMax := 4096, micros := [{ bound := 100, units := [0] }] }] }, depth := 64, state := .resident })] } })),
      0, 255, 1, 0, 2097152, 1114112, 0, (cmdOf 0x502 63 (leBytes 32 0x110000000000000020000000000000000100ff)),
      by decide +kernel⟩,
    ⟨(taking 0 (cmdOf 0x502 63 (leBytes 32 0x10000000000110000000000000020000000000000000100ff))
      ({ up with parts := [(63, { state := .active, hdmBase := 1048576, hdmLen := 16777216, maxContexts := 4, dramGb := 4, prioLimit := 0 })], rings := [(20, { base := 16000000, cls := 5, part := 63 }), (21, { base := 16100000, cls := 5, part := 63, toHost := true })], srv := { up.srv with ctxs := [(255, { part := 63, subRing := 20, doneRing := 21, places := [{ shape := { quadrants := [1], tiles := [0], movers := [0], arrayGranules := [1], dramGb := [1] }, sizes := [(1048576, 2097152, 0)] }], bind := { regions := [0], quads := [[0]], tiles := [[]], movers := [[]] }, img := { kinds := [{ stepBound := 39321600, inMax := 4096, outMax := 4096, micros := [{ bound := 100, units := [0] }] }] }, depth := 64, state := .resident })] } })),
      0, 255, 1, 0, 2097152, 1114112, 1, (cmdOf 0x502 63 (leBytes 32 0x10000000000110000000000000020000000000000000100ff)),
      by decide +kernel⟩,
    ⟨{ up with parts := [(63, { state := .active, hdmBase := 1048576, hdmLen := 16777216, maxContexts := 4, dramGb := 4, prioLimit := 0 })], rings := [(20, { base := 16000000, cls := 5, part := 63 }), (21, { base := 16100000, cls := 5, part := 63, toHost := true })], srv := { up.srv with ctxs := [(255, { part := 63, subRing := 20, doneRing := 21, places := [{ shape := { quadrants := [1], tiles := [0], movers := [0], arrayGranules := [1], dramGb := [1] }, sizes := [(1048576, 2097152, 0)] }], bind := { regions := [0], quads := [[0]], tiles := [[]], movers := [[]] }, img := { kinds := [{ stepBound := 39321600, inMax := 4096, outMax := 4096, micros := [{ bound := 100, units := [0] }] }] }, depth := 64, state := .resident })] }, ops := [(63, { mbx := 0, opcode := 0x0502, part := 63, obj := 255, args := [1, 0, 64, 1114112, 3] })], mem := { cells := [(hdmAt 1114113, 7), (regionAt 255 0 1 66, 4)] } },
      63, 255, 1, 0, 64, 1114112, 3, (regionAt 255 0 1 64),
      { mbx := 0, opcode := 0x0502, part := 63, obj := 255, args := [1, 0, 64, 1114112, 3] },
      by decide +kernel⟩⟩

theorem test_witness_Residency :
    (∃ (s : State) (c : Nat) (vs : List Nat),
      (chooseVictims s c false = some vs))
    ∧ (∃ (s : State) (m : Nat) (n : Nat) (c : Cmd),
      (∃ h < 64, tabHas s.ops h = false) ∧ (Due s m 0x0503 c) ∧ (n = field c.payload 0 2) ∧ (n < 256) ∧ ((ctxOf s n).part =
        targetOf m c) ∧ ((ctxOf s n).state ≠ .absent) ∧ (destroying s n = false) ∧ (s.dev.twilight = false) ∧ ((ctxOf s
        n).state ≠ .frozen))
    ∧ (∃ (s : State) (m : Nat) (n : Nat) (c : Cmd),
      (Due s m 0x0503 c) ∧ (n = field c.payload 0 2) ∧ (n < 256) ∧ ((ctxOf s n).part = targetOf m c) ∧ ((ctxOf s n).state ≠
        .absent) ∧ (destroying s n = false) ∧ (s.dev.twilight = true) ∧ ((mbxOf s m).irqEn = false) ∧ (frontResiding s =
        none))
    ∧ (∃ (s : State) (c : Nat),
      (c < 256) ∧ (tabWf s.srv.ctxs) ∧ ((ctxOf s c).state = .residing) ∧ ((ctxOf s c).written = true) ∧ ((ctxOf s c).queue ≠
        []))
    ∧ (∃ (s : State) (m : Nat) (n : Nat) (c : Cmd),
      (Due s m 0x0504 c) ∧ (n = field c.payload 0 2) ∧ (n < 256) ∧ (tabWf s.srv.ctxs) ∧ ((ctxOf s n).part = targetOf m c) ∧
        (destroying s n = false) ∧ ((ctxOf s n).state = .loaded))
    ∧ (∃ (s : State) (m : Nat) (n : Nat) (c : Cmd),
      (Due s m 0x0504 c) ∧ (n = field c.payload 0 2) ∧ (n < 256) ∧ (tabWf s.srv.ctxs) ∧ ((ctxOf s n).part = targetOf m c) ∧
        (destroying s n = false) ∧ ((ctxOf s n).state = .resident) ∧ ((ctxOf s n).queue = []))
    ∧ (∃ (s : State) (m : Nat) (n : Nat) (c : Cmd),
      (Due s m 0x0504 c) ∧ (n = field c.payload 0 2) ∧ (n < 256) ∧ (tabWf s.srv.ctxs) ∧ ((ctxOf s n).part = targetOf m c) ∧
        (destroying s n = false) ∧ ((ctxOf s n).state = .running))
    ∧ (∃ (s : State) (m : Nat) (n : Nat) (c : Cmd),
      (Due s m 0x0504 c) ∧ (n = field c.payload 0 2) ∧ (n < 256) ∧ (tabWf s.srv.ctxs) ∧ ((ctxOf s n).part = targetOf m c) ∧
        (destroying s n = false) ∧ ((ctxOf s n).state = .residing)) :=
  ⟨⟨(setShare 0 4 0 192
    { up with parts := [(63, { state := .active, hdmBase := 1048576, hdmLen := 16777216, maxContexts := 4, dramGb := 4, prioLimit := 0 })], rings := [(20, { base := 16000000, cls := 5, part := 63 }), (21, { base := 16100000, cls := 5, part := 63, toHost := true })], srv := { up.srv with ctxs := [(4, { state := .resident, prio := 7, part := 63, places := [{ shape := { quadrants := [1], tiles := [0], movers := [0], arrayGranules := [192], dramGb := [1] }, shares := [{ unit := 0, store := 192, window := 0 }], sizes := [(0, 0, 0)] }], bind := { regions := [0], quads := [[0]], tiles := [[]], movers := [[]] } }), (255, { state := .residing, prio := 7, part := 63, places := [{ shape := { quadrants := [1], tiles := [0], movers := [0], arrayGranules := [192], dramGb := [1] }, shares := [{ unit := 0, store := 192, window := 0 }], sizes := [(0, 0, 0)] }], bind := { regions := [0], quads := [[0]], tiles := [[]], movers := [[]] } })] } }),
    255, [4],
      by decide +kernel⟩,
    ⟨(taking 0 (cmdOf 0x503 63 (leBytes 2 0xff))
      ({ up with parts := [(63, { state := .active, hdmBase := 1048576, hdmLen := 16777216, maxContexts := 4, dramGb := 4, prioLimit := 0 })], rings := [(20, { base := 16000000, cls := 5, part := 63 }), (21, { base := 16100000, cls := 5, part := 63, toHost := true })], srv := { up.srv with ctxs := [(255, { part := 63, subRing := 20, doneRing := 21, places := [{ shape := { quadrants := [1], tiles := [0], movers := [0], arrayGranules := [1], dramGb := [1] }, sizes := [(1048576, 2097152, 0)] }], bind := { regions := [0], quads := [[0]], tiles := [[]], movers := [[]] }, img := { kinds := [{ stepBound := 39321600, inMax := 4096, outMax := 4096, micros := [{ bound := 100, units := [0] }] }] }, depth := 64, state := .loaded })] } })),
      0, 255, (cmdOf 0x503 63 (leBytes 2 0xff)),
      ⟨0, by decide +kernel, by decide +kernel⟩, by decide +kernel⟩,
    ⟨(taking 0 (cmdOf 0x503 63 (leBytes 2 0xff))
      ({ up with parts := [(63, { state := .active, hdmBase := 1048576, hdmLen := 16777216, maxContexts := 4, dramGb := 4, prioLimit := 0 })], rings := [(20, { base := 16000000, cls := 5, part := 63 }), (21, { base := 16100000, cls := 5, part := 63, toHost := true })], srv := { up.srv with ctxs := [(255, { part := 63, subRing := 20, doneRing := 21, places := [{ shape := { quadrants := [1], tiles := [0], movers := [0], arrayGranules := [1], dramGb := [1] }, sizes := [(1048576, 2097152, 0)] }], bind := { regions := [0], quads := [[0]], tiles := [[]], movers := [[]] }, img := { kinds := [{ stepBound := 39321600, inMax := 4096, outMax := 4096, micros := [{ bound := 100, units := [0] }] }] }, depth := 64, state := .loaded })] }, dev := { up.dev with twilight := true } })),
      0, 255, (cmdOf 0x503 63 (leBytes 2 0xff)),
      by decide +kernel⟩,
    ⟨{ up with parts := [(63, { state := .active, hdmBase := 1048576, hdmLen := 16777216, maxContexts := 4, dramGb := 4, prioLimit := 0 })], rings := [(20, { base := 16000000, cls := 5, part := 63 }), (21, { base := 16100000, cls := 5, part := 63, toHost := true })], srv := { up.srv with ctxs := [(255, { part := 63, subRing := 20, doneRing := 21, places := [{ shape := { quadrants := [1], tiles := [0], movers := [0], arrayGranules := [1], dramGb := [1] }, sizes := [(1048576, 2097152, 0)] }], bind := { regions := [0], quads := [[0]], tiles := [[]], movers := [[]] }, img := { kinds := [{ stepBound := 39321600, inMax := 4096, outMax := 4096, micros := [{ bound := 100, units := [0] }] }] }, depth := 64, state := .residing, written := true, queue := [{}] })] } },
      255,
      by decide +kernel⟩,
    ⟨(taking 0 (cmdOf 0x504 63 (leBytes 2 0xff))
      ({ up with parts := [(63, { state := .active, hdmBase := 1048576, hdmLen := 16777216, maxContexts := 4, dramGb := 4, prioLimit := 0 })], rings := [(20, { base := 16000000, cls := 5, part := 63 }), (21, { base := 16100000, cls := 5, part := 63, toHost := true })], srv := { up.srv with ctxs := [(255, { part := 63, subRing := 20, doneRing := 21, places := [{ shape := { quadrants := [1], tiles := [0], movers := [0], arrayGranules := [1], dramGb := [1] }, sizes := [(1048576, 2097152, 0)] }], bind := { regions := [0], quads := [[0]], tiles := [[]], movers := [[]] }, img := { kinds := [{ stepBound := 39321600, inMax := 4096, outMax := 4096, micros := [{ bound := 100, units := [0] }] }] }, depth := 64, state := .loaded })] } })),
      0, 255, (cmdOf 0x504 63 (leBytes 2 0xff)),
      by decide +kernel⟩,
    ⟨(taking 0 (cmdOf 0x504 63 (leBytes 2 0xff))
      ({ up with parts := [(63, { state := .active, hdmBase := 1048576, hdmLen := 16777216, maxContexts := 4, dramGb := 4, prioLimit := 0 })], rings := [(20, { base := 16000000, cls := 5, part := 63 }), (21, { base := 16100000, cls := 5, part := 63, toHost := true })], srv := { up.srv with ctxs := [(255, { part := 63, subRing := 20, doneRing := 21, places := [{ shape := { quadrants := [1], tiles := [0], movers := [0], arrayGranules := [1], dramGb := [1] }, sizes := [(1048576, 2097152, 0)] }], bind := { regions := [0], quads := [[0]], tiles := [[]], movers := [[]] }, img := { kinds := [{ stepBound := 39321600, inMax := 4096, outMax := 4096, micros := [{ bound := 100, units := [0] }] }] }, depth := 64, state := .resident })] } })),
      0, 255, (cmdOf 0x504 63 (leBytes 2 0xff)),
      by decide +kernel⟩,
    ⟨(taking 0 (cmdOf 0x504 63 (leBytes 2 0xff))
      ({ up with parts := [(63, { state := .active, hdmBase := 1048576, hdmLen := 16777216, maxContexts := 4, dramGb := 4, prioLimit := 0 })], rings := [(20, { base := 16000000, cls := 5, part := 63 }), (21, { base := 16100000, cls := 5, part := 63, toHost := true })], srv := { up.srv with ctxs := [(255, { part := 63, subRing := 20, doneRing := 21, places := [{ shape := { quadrants := [1], tiles := [0], movers := [0], arrayGranules := [1], dramGb := [1] }, sizes := [(1048576, 2097152, 0)] }], bind := { regions := [0], quads := [[0]], tiles := [[]], movers := [[]] }, img := { kinds := [{ stepBound := 39321600, inMax := 4096, outMax := 4096, micros := [{ bound := 100, units := [0] }] }] }, depth := 64, state := .running, step := some {}, queue := [{}] })] } })),
      0, 255, (cmdOf 0x504 63 (leBytes 2 0xff)),
      by decide +kernel⟩,
    ⟨(taking 0 (cmdOf 0x504 63 (leBytes 2 0xff))
      ({ up with parts := [(63, { state := .active, hdmBase := 1048576, hdmLen := 16777216, maxContexts := 4, dramGb := 4, prioLimit := 0 })], rings := [(20, { base := 16000000, cls := 5, part := 63 }), (21, { base := 16100000, cls := 5, part := 63, toHost := true })], srv := { up.srv with ctxs := [(255, { part := 63, subRing := 20, doneRing := 21, places := [{ shape := { quadrants := [1], tiles := [0], movers := [0], arrayGranules := [1], dramGb := [1] }, sizes := [(1048576, 2097152, 0)] }], bind := { regions := [0], quads := [[0]], tiles := [[]], movers := [[]] }, img := { kinds := [{ stepBound := 39321600, inMax := 4096, outMax := 4096, micros := [{ bound := 100, units := [0] }] }] }, depth := 64, state := .residing })] } })),
      0, 255, (cmdOf 0x504 63 (leBytes 2 0xff)),
      by decide +kernel⟩⟩

theorem test_witness_Submissions :
    (∃ (s : State) (ring : Nat) (tag : Nat) (k : Nat) (c : Nat) (done : Nat) (body : List Byte),
      (ring < 4096) ∧ (headMsg s ring 5 = some (0x20, tag, k, body)) ∧ (doneRingOf s ring = some done) ∧ (doneWaiting s done =
        []) ∧ (ringRoom s done 1 = true) ∧ (c = field body 0 2) ∧ ((ctxOf s c).held = false) ∧ (tabWf s.srv.ctxs) ∧
        (submitStatus s ring c body (submissionOf body tag) = (.success, 0)) ∧ ((ctxOf s c).queue ≠ []))
    ∧ (∃ (s : State) (ring : Nat) (tag : Nat) (k : Nat) (c : Nat) (done : Nat) (body : List Byte),
      (ring < 4096) ∧ (headMsg s ring 5 = some (0x20, tag, k, body)) ∧ (doneRingOf s ring = some done) ∧ (doneWaiting s done =
        []) ∧ (ringRoom s done 1 = true) ∧ (c = field body 0 2) ∧ ((ctxOf s c).held = false) ∧ (tabWf s.srv.ctxs) ∧
        (submitStatus s ring c body (submissionOf body tag) = (.success, 0)) ∧ ((ctxOf s c).queue = []) ∧ ((ctxOf s c).state =
        .loaded) ∧ (partRuns s c = true) ∧ (frontResiding s = none) ∧ ((placeAll s c []).isSome = true))
    ∧ (∃ (s : State) (ring : Nat) (tag : Nat) (k : Nat) (c : Nat) (done : Nat) (body : List Byte) (st : _) (retry : _),
      (ring < 4096) ∧ (headMsg s ring 5 = some (0x20, tag, k, body)) ∧ (doneRingOf s ring = some done) ∧ (doneWaiting s done =
        []) ∧ (ringRoom s done 1 = true) ∧ (c = field body 0 2) ∧ ((ctxOf s c).held = false) ∧ (tabWf s.srv.ctxs) ∧
        (submitStatus s ring c body (submissionOf body tag) = (st, retry)) ∧ (st ≠ .success))
    ∧ (∃ (s : State) (ring : Nat) (c : Nat) (b : List Byte),
      (48 ≤ b.length) ∧ (c < 256) ∧ ((ctxOf s c).subRing ≠ ring ∨ (ctxOf s c).state = .absent ∨ (ctxOf s c).state = .frozen))
    ∧ (∃ (s : State) (ring : Nat) (c : Nat) (b : List Byte) (u : Submission),
      (48 ≤ b.length) ∧ (c < 256) ∧ (submitStatus s ring c b u = (.success, 0)))
    ∧ (∃ (s : State) (ring : Nat) (tag : Nat) (body : List Byte),
      (ring < 4096) ∧ (doneWaiting s ring = [(tag, body)]) ∧ (ringRoom s ring 1 = true) ∧ (body.length = 56))
    ∧ (∃ (s : State) (m : Nat) (n : Nat) (c : Cmd),
      (Due s m 0x0505 c) ∧ (n = field c.payload 0 2) ∧ (n < 256) ∧ ((ctxOf s n).part = targetOf m c) ∧ ((ctxOf s n).state ≠
        .absent) ∧ (destroying s n = false))
    ∧ (∃ (s : State) (m : Nat) (n : Nat) (c : Cmd),
      (Due s m 0x0506 c) ∧ (n = field c.payload 0 2) ∧ (n < 256) ∧ (field c.payload 2 1 ≤ 1) ∧ ((ctxOf s n).part = targetOf m
        c) ∧ ((ctxOf s n).state ≠ .absent))
    ∧ (∃ (s : State) (c : Nat) (u : Submission) (r : List Submission),
      (c < 256) ∧ ((ctxOf s c).queue = u :: r) ∧ (u.noon = true) ∧ (u.launched = false) ∧ ((ctxOf s c).step = none) ∧
        (u.headTick + 117964800000 ≤ s.tmb.free))
    ∧ (∃ (s : State) (c : Nat) (u : Submission) (r : List Submission),
      (c < 256) ∧ ((ctxOf s c).queue = u :: r) ∧ (u.noon = true) ∧ (u.launched = false) ∧ ((ctxOf s c).step = none) ∧
        (s.tmb.free < u.headTick + 117964800000)) :=
  ⟨⟨(ringWith 20 5 63 16000000 0x20 77 (leBytes 56 0x10000000000000110000000000000011000000001000000000ff)
    { up with parts := [(63, { state := .active, hdmBase := 1048576, hdmLen := 16777216, maxContexts := 4, dramGb := 4, prioLimit := 0 })], rings := [(20, { base := 16000000, cls := 5, part := 63 }), (21, { base := 16100000, cls := 5, part := 63, toHost := true })], srv := { up.srv with ctxs := [(255, { part := 63, subRing := 20, doneRing := 21, places := [{ shape := { quadrants := [1], tiles := [0], movers := [0], arrayGranules := [1], dramGb := [1] }, sizes := [(1048576, 2097152, 0)] }], bind := { regions := [0], quads := [[0]], tiles := [[]], movers := [[]] }, img := { kinds := [{ stepBound := 39321600, inMax := 4096, outMax := 4096, micros := [{ bound := 100, units := [0] }] }] }, depth := 64, state := .resident, queue := [{}] })] } }),
    20, 77, 1, 255, 21, (leBytes 56 0x10000000000000110000000000000011000000001000000000ff),
      by decide +kernel⟩,
    ⟨(ringWith 20 5 63 16000000 0x20 77 (leBytes 56 0x10000000000000110000000000000011000000001000000000ff)
      { up with parts := [(63, { state := .active, hdmBase := 1048576, hdmLen := 16777216, maxContexts := 4, dramGb := 4, prioLimit := 0 })], rings := [(20, { base := 16000000, cls := 5, part := 63 }), (21, { base := 16100000, cls := 5, part := 63, toHost := true })], srv := { up.srv with ctxs := [(255, { part := 63, subRing := 20, doneRing := 21, places := [{ shape := { quadrants := [1], tiles := [0], movers := [0], arrayGranules := [1], dramGb := [1] }, sizes := [(1048576, 2097152, 0)] }], bind := { regions := [0], quads := [[0]], tiles := [[]], movers := [[]] }, img := { kinds := [{ stepBound := 39321600, inMax := 4096, outMax := 4096, micros := [{ bound := 100, units := [0] }] }] }, depth := 64, state := .loaded })] } }),
      20, 77, 1, 255, 21, (leBytes 56 0x10000000000000110000000000000011000000001000000000ff),
      by decide +kernel⟩,
    ⟨(ringWith 20 5 63 16000000 0x20 77 (leBytes 56 0x10000000000000110000000000000011000000001000000100ff)
      { up with parts := [(63, { state := .active, hdmBase := 1048576, hdmLen := 16777216, maxContexts := 4, dramGb := 4, prioLimit := 0 })], rings := [(20, { base := 16000000, cls := 5, part := 63 }), (21, { base := 16100000, cls := 5, part := 63, toHost := true })], srv := { up.srv with ctxs := [(255, { part := 63, subRing := 20, doneRing := 21, places := [{ shape := { quadrants := [1], tiles := [0], movers := [0], arrayGranules := [1], dramGb := [1] }, sizes := [(1048576, 2097152, 0)] }], bind := { regions := [0], quads := [[0]], tiles := [[]], movers := [[]] }, img := { kinds := [{ stepBound := 39321600, inMax := 4096, outMax := 4096, micros := [{ bound := 100, units := [0] }] }] }, depth := 64, state := .resident })] } }),
      20, 77, 1, 255, 21, (leBytes 56 0x10000000000000110000000000000011000000001000000100ff), .badField, 0,
      by decide +kernel⟩,
    ⟨{ up with parts := [(63, { state := .active, hdmBase := 1048576, hdmLen := 16777216, maxContexts := 4, dramGb := 4, prioLimit := 0 })], rings := [(20, { base := 16000000, cls := 5, part := 63 }), (21, { base := 16100000, cls := 5, part := 63, toHost := true })], srv := { up.srv with ctxs := [(255, { part := 63, subRing := 20, doneRing := 21, places := [{ shape := { quadrants := [1], tiles := [0], movers := [0], arrayGranules := [1], dramGb := [1] }, sizes := [(1048576, 2097152, 0)] }], bind := { regions := [0], quads := [[0]], tiles := [[]], movers := [[]] }, img := { kinds := [{ stepBound := 39321600, inMax := 4096, outMax := 4096, micros := [{ bound := 100, units := [0] }] }] }, depth := 64, state := .frozen })] } },
      20, 255, (leBytes 56 0x10000000000000110000000000000011000000001000000000ff),
      by decide +kernel⟩,
    ⟨{ up with parts := [(63, { state := .active, hdmBase := 1048576, hdmLen := 16777216, maxContexts := 4, dramGb := 4, prioLimit := 0 })], rings := [(20, { base := 16000000, cls := 5, part := 63 }), (21, { base := 16100000, cls := 5, part := 63, toHost := true })], srv := { up.srv with ctxs := [(255, { part := 63, subRing := 20, doneRing := 21, places := [{ shape := { quadrants := [1], tiles := [0], movers := [0], arrayGranules := [1], dramGb := [1] }, sizes := [(1048576, 2097152, 0)] }], bind := { regions := [0], quads := [[0]], tiles := [[]], movers := [[]] }, img := { kinds := [{ stepBound := 39321600, inMax := 4096, outMax := 4096, micros := [{ bound := 100, units := [0] }] }] }, depth := 64, state := .resident })] } },
      20, 255, (leBytes 56 0x10000000000000110000000000000011000000001000000000ff), (submissionOf (leBytes 56
      0x10000000000000110000000000000011000000001000000000ff) 77),
      by decide +kernel⟩,
    ⟨{ up with parts := [(63, { state := .active, hdmBase := 1048576, hdmLen := 16777216, maxContexts := 4, dramGb := 4, prioLimit := 0 })], rings := [(20, { base := 16000000, cls := 5, part := 63 }), (21, { base := 16100000, cls := 5, part := 63, toHost := true })], srv := { up.srv with doneWait := [(21, [(7, List.replicate 56 3)])] } },
      21, 7, (List.replicate 56 3),
      by decide +kernel⟩,
    ⟨(taking 79 (cmdOf 0x505 63 (leBytes 2 0xff))
      ({ up with parts := [(63, { state := .active, hdmBase := 1048576, hdmLen := 16777216, maxContexts := 4, dramGb := 4, prioLimit := 0 })], rings := [(20, { base := 16000000, cls := 5, part := 63 }), (21, { base := 16100000, cls := 5, part := 63, toHost := true })], srv := { up.srv with ctxs := [(255, { part := 63, subRing := 20, doneRing := 21, places := [{ shape := { quadrants := [1], tiles := [0], movers := [0], arrayGranules := [1], dramGb := [1] }, sizes := [(1048576, 2097152, 0)] }], bind := { regions := [0], quads := [[0]], tiles := [[]], movers := [[]] }, img := { kinds := [{ stepBound := 39321600, inMax := 4096, outMax := 4096, micros := [{ bound := 100, units := [0] }] }] }, depth := 64, state := .running, step := some {}, queue := [{}, {}] })] } })),
      79, 255, (cmdOf 0x505 63 (leBytes 2 0xff)),
      by decide +kernel⟩,
    ⟨(taking 79 (cmdOf 0x506 63 (leBytes 2 0x100ff))
      ({ up with parts := [(63, { state := .active, hdmBase := 1048576, hdmLen := 16777216, maxContexts := 4, dramGb := 4, prioLimit := 0 })], rings := [(20, { base := 16000000, cls := 5, part := 63 }), (21, { base := 16100000, cls := 5, part := 63, toHost := true })], srv := { up.srv with ctxs := [(255, { part := 63, subRing := 20, doneRing := 21, places := [{ shape := { quadrants := [1], tiles := [0], movers := [0], arrayGranules := [1], dramGb := [1] }, sizes := [(1048576, 2097152, 0)] }], bind := { regions := [0], quads := [[0]], tiles := [[]], movers := [[]] }, img := { kinds := [{ stepBound := 39321600, inMax := 4096, outMax := 4096, micros := [{ bound := 100, units := [0] }] }] }, depth := 64, state := .running, queue := [{}, {}] })] } })),
      79, 255, (cmdOf 0x506 63 (leBytes 2 0x100ff)),
      by decide +kernel⟩,
    ⟨{ up with parts := [(63, { state := .active, hdmBase := 1048576, hdmLen := 16777216, maxContexts := 4, dramGb := 4, prioLimit := 0 })], rings := [(20, { base := 16000000, cls := 5, part := 63 }), (21, { base := 16100000, cls := 5, part := 63, toHost := true })], srv := { up.srv with ctxs := [(255, { part := 63, subRing := 20, doneRing := 21, places := [{ shape := { quadrants := [1], tiles := [0], movers := [0], arrayGranules := [1], dramGb := [1] }, sizes := [(1048576, 2097152, 0)] }], bind := { regions := [0], quads := [[0]], tiles := [[]], movers := [[]] }, img := { kinds := [{ stepBound := 39321600, inMax := 4096, outMax := 4096, micros := [{ bound := 100, units := [0] }] }] }, depth := 64, state := .resident, queue := [{ noon := true, tag := 5, headTick := 882035200000 }] })] } },
      255, { noon := true, tag := 5, headTick := 882035200000 }, [],
      by decide +kernel⟩,
    ⟨{ up with parts := [(63, { state := .active, hdmBase := 1048576, hdmLen := 16777216, maxContexts := 4, dramGb := 4, prioLimit := 0 })], rings := [(20, { base := 16000000, cls := 5, part := 63 }), (21, { base := 16100000, cls := 5, part := 63, toHost := true })], srv := { up.srv with ctxs := [(255, { part := 63, subRing := 20, doneRing := 21, places := [{ shape := { quadrants := [1], tiles := [0], movers := [0], arrayGranules := [1], dramGb := [1] }, sizes := [(1048576, 2097152, 0)] }], bind := { regions := [0], quads := [[0]], tiles := [[]], movers := [[]] }, img := { kinds := [{ stepBound := 39321600, inMax := 4096, outMax := 4096, micros := [{ bound := 100, units := [0] }] }] }, depth := 64, state := .resident, queue := [{ noon := true, tag := 5, headTick := 882035200001 }] })] } },
      255, { noon := true, tag := 5, headTick := 882035200001 }, [],
      by decide +kernel⟩⟩

theorem test_witness_BatchSteps :
    (∃ (s : State) (c : Nat) (u : Submission) (r : List Submission),
      (c < 256) ∧ (mayStart s c = true) ∧ ((ctxOf s c).queue = u :: r) ∧ (pageBad s c (pageList s u) = false) ∧ ((kindOf
        (ctxOf s c) u.kind).micros ≠ []) ∧ (kindNeverFits s c u.kind = false))
    ∧ (∃ (s : State) (c : Nat),
      (c < 256) ∧ (mayStart s c = false))
    ∧ (∃ (s : State) (c : Nat) (run : StepRun),
      (c < 256) ∧ ((ctxOf s c).step = some run) ∧ (stepOver s c = true) ∧ (run.cas = false) ∧ ((ctxOf s c).holdings = []) ∧
        ((ctxOf s c).bindLedger = none))
    ∧ (∃ (s : State) (c : Nat) (run : StepRun),
      (c < 256) ∧ ((ctxOf s c).step = some run) ∧ (run.cas = false) ∧ (run.start + run.bound ≤ s.tmb.free))
    ∧ (∃ (s : State) (c : Nat) (run : StepRun),
      (c < 256) ∧ ((ctxOf s c).step = some run) ∧ (run.cas = false) ∧ (s.tmb.free < run.start + run.bound)) :=
  ⟨⟨{ up with parts := [(63, { state := .active, hdmBase := 1048576, hdmLen := 16777216, maxContexts := 4, dramGb := 4, prioLimit := 0 })], rings := [(20, { base := 16000000, cls := 5, part := 63 }), (21, { base := 16100000, cls := 5, part := 63, toHost := true })], srv := { up.srv with ctxs := [(255, { part := 63, subRing := 20, doneRing := 21, places := [{ shape := { quadrants := [1], tiles := [0], movers := [0], arrayGranules := [1], dramGb := [1] }, sizes := [(1048576, 2097152, 0)] }], bind := { regions := [0], quads := [[0]], tiles := [[]], movers := [[]] }, img := { kinds := [{ stepBound := 39321600, inMax := 4096, outMax := 4096, micros := [{ bound := 100, units := [0] }] }] }, depth := 64, state := .resident, queue := [{ tag := 3 }], rng := { seed := 4, step := 2, pendSeed := some 9 } })] } },
    255, { tag := 3 }, [],
      by decide +kernel⟩,
    ⟨{ up with parts := [(63, { state := .active, hdmBase := 1048576, hdmLen := 16777216, maxContexts := 4, dramGb := 4, prioLimit := 0 })], rings := [(20, { base := 16000000, cls := 5, part := 63 }), (21, { base := 16100000, cls := 5, part := 63, toHost := true })], srv := { up.srv with ctxs := [(255, { part := 63, subRing := 20, doneRing := 21, places := [{ shape := { quadrants := [1], tiles := [0], movers := [0], arrayGranules := [1], dramGb := [1] }, sizes := [(1048576, 2097152, 0)] }], bind := { regions := [0], quads := [[0]], tiles := [[]], movers := [[]] }, img := { kinds := [{ stepBound := 39321600, inMax := 4096, outMax := 4096, micros := [{ bound := 100, units := [0] }] }] }, depth := 64, state := .resident })] } },
      255,
      by decide +kernel⟩,
    ⟨{ up with parts := [(63, { state := .active, hdmBase := 1048576, hdmLen := 16777216, maxContexts := 4, dramGb := 4, prioLimit := 0 })], rings := [(20, { base := 16000000, cls := 5, part := 63 }), (21, { base := 16100000, cls := 5, part := 63, toHost := true })], srv := { up.srv with ctxs := [(255, { part := 63, subRing := 20, doneRing := 21, places := [{ shape := { quadrants := [1], tiles := [0], movers := [0], arrayGranules := [1], dramGb := [1] }, sizes := [(1048576, 2097152, 0)] }], bind := { regions := [0], quads := [[0]], tiles := [[]], movers := [[]] }, img := { kinds := [{ stepBound := 39321600, inMax := 4096, outMax := 4096, micros := [{ bound := 100, units := [0] }] }] }, depth := 64, state := .running, queue := [{ tag := 3 }], step := some ({ sub := { tag := 3 }, start := 999960678400, bound := 39321600, micros := [(0, { phase := .done })] }) })] } },
      255, { sub := { tag := 3 }, start := 999960678400, bound := 39321600, micros := [(0, { phase := .done })] },
      by decide +kernel⟩,
    ⟨{ up with parts := [(63, { state := .active, hdmBase := 1048576, hdmLen := 16777216, maxContexts := 4, dramGb := 4, prioLimit := 0 })], rings := [(20, { base := 16000000, cls := 5, part := 63 }), (21, { base := 16100000, cls := 5, part := 63, toHost := true })], srv := { up.srv with ctxs := [(255, { part := 63, subRing := 20, doneRing := 21, places := [{ shape := { quadrants := [1], tiles := [0], movers := [0], arrayGranules := [1], dramGb := [1] }, sizes := [(1048576, 2097152, 0)] }], bind := { regions := [0], quads := [[0]], tiles := [[]], movers := [[]] }, img := { kinds := [{ stepBound := 39321600, inMax := 4096, outMax := 4096, micros := [{ bound := 100, units := [0] }] }] }, depth := 64, state := .running, queue := [{ tag := 3 }], step := some ({ sub := { tag := 3 }, start := 999960678400, bound := 39321600, micros := [(0, { phase := .ready })] }) })] } },
      255, { sub := { tag := 3 }, start := 999960678400, bound := 39321600, micros := [(0, { phase := .ready })] },
      by decide +kernel⟩,
    ⟨{ up with parts := [(63, { state := .active, hdmBase := 1048576, hdmLen := 16777216, maxContexts := 4, dramGb := 4, prioLimit := 0 })], rings := [(20, { base := 16000000, cls := 5, part := 63 }), (21, { base := 16100000, cls := 5, part := 63, toHost := true })], srv := { up.srv with ctxs := [(255, { part := 63, subRing := 20, doneRing := 21, places := [{ shape := { quadrants := [1], tiles := [0], movers := [0], arrayGranules := [1], dramGb := [1] }, sizes := [(1048576, 2097152, 0)] }], bind := { regions := [0], quads := [[0]], tiles := [[]], movers := [[]] }, img := { kinds := [{ stepBound := 39321600, inMax := 4096, outMax := 4096, micros := [{ bound := 100, units := [0] }] }] }, depth := 64, state := .running, queue := [{ tag := 3 }], step := some ({ sub := { tag := 3 }, start := 999960678401, bound := 39321600, micros := [(0, { phase := .ready })] }) })] } },
      255, { sub := { tag := 3 }, start := 999960678401, bound := 39321600, micros := [(0, { phase := .ready })] },
      by decide +kernel⟩⟩

theorem test_witness_PartitionSetup :
    (∃ (s : State) (m : Nat) (p : Nat) (c : Cmd) (q : Req),
      (q = { m := m, target := targetOf m c, cmd := c }) ∧ (bit (field c.payload 1 1) 0 = true → ∃ k < 8, ∀ x ∈ otherParts s
        p, ¬ (x.radio = true ∧ x.radioSlot = k)) ∧ (∃ h < 64, tabHas s.ops h = false) ∧ (Due s m 0x0200 c) ∧ (p = field
        c.payload 0 1) ∧ (targetOf m c = 0xFF ∨ targetOf m c = p) ∧ ((partOf s p).state = .absent) ∧ ((partOf s p).creating =
        false) ∧ (field c.payload 3 1 ≠ 0) ∧ (field c.payload 32 8 ≠ 0) ∧ (bit (field c.payload 1 1) 0 = true → field
        c.payload 12 2 ≠ 0) ∧ (quotaBad q (bit (field c.payload 1 1) 0) = false) ∧ (shareBad s q = false) ∧ (sumsBad s q =
        false) ∧ (s.mgt.entropyOk = true))
    ∧ (∃ (s : State) (m : Nat) (p : Nat) (c : Cmd) (q : Req),
      (q = { m := m, target := targetOf m c, cmd := c }) ∧ (Due s m 0x0200 c) ∧ (p = field c.payload 0 1) ∧ (targetOf m c =
        0xFF ∨ targetOf m c = p) ∧ ((partOf s p).state = .absent) ∧ ((partOf s p).creating = false) ∧ (field c.payload 3 1 ≠
        0) ∧ (field c.payload 32 8 ≠ 0) ∧ (bit (field c.payload 1 1) 0 = true → field c.payload 12 2 ≠ 0) ∧ (quotaBad q (bit
        (field c.payload 1 1) 0) = false) ∧ (shareBad s q = false) ∧ (sumsBad s q = true))
    ∧ (∃ (s : State) (m : Nat) (p : Nat) (c : Cmd) (q : Req),
      (q = { m := m, target := targetOf m c, cmd := c }) ∧ (Due s m 0x0200 c) ∧ (p = field c.payload 0 1) ∧ (targetOf m c =
        0xFF ∨ targetOf m c = p) ∧ ((partOf s p).state ≠ .absent ∨ (partOf s p).creating = true))
    ∧ (∃ (s : State) (h : Nat) (p : Nat) (o : LongOp),
      (h < 64) ∧ (opOf s h = some o) ∧ (o.opcode = 0x0200) ∧ (o.finished = false) ∧ (o.obj = p))
    ∧ (∃ (s : State) (m : Nat) (p : Nat) (c : Cmd) (q : Req),
      (q = { m := m, target := targetOf m c, cmd := c }) ∧ (Due s m 0x0208 c) ∧ (p = field c.payload 0 1) ∧ (targetOf m c =
        0xFF ∨ targetOf m c = p) ∧ (p < 64) ∧ ((partOf s p).state = .active ∨ (partOf s p).state = .freezing ∨ (partOf s
        p).state = .frozen) ∧ (field c.payload 3 1 ≠ 0) ∧ ((partOf s p).radio = true → field c.payload 12 2 ≠ 0) ∧ (quotaBad q
        (partOf s p).radio = false) ∧ (quotaBelowUse s q p = true))
    ∧ (∃ (s : State) (m : Nat) (p : Nat) (c : Cmd) (q : Req),
      (q = { m := m, target := targetOf m c, cmd := c }) ∧ (∃ h < 64, tabHas s.ops h = false) ∧ (Due s m 0x0208 c) ∧ (p =
        field c.payload 0 1) ∧ (targetOf m c = 0xFF ∨ targetOf m c = p) ∧ (p < 64) ∧ ((partOf s p).state = .active ∨ (partOf s
        p).state = .freezing ∨ (partOf s p).state = .frozen) ∧ (field c.payload 3 1 ≠ 0) ∧ ((partOf s p).radio = true → field
        c.payload 12 2 ≠ 0) ∧ (quotaBad q (partOf s p).radio = false) ∧ (quotaBelowUse s q p = false) ∧ (sumsBad s q = false))
    ∧ (∃ (s : State) (m : Nat) (c : Cmd),
      (Due s m 0x0203 c) ∧ (targetOf m c < 64) ∧ (field c.payload 0 1 ≤ 1))
    ∧ (∃ (s : State) (job : Nat) (tick : Nat),
      (job < 16777216) ∧ (tabFind? s.quarantine job = some tick) ∧ (tick + 1966080000 ≤ s.tmb.free))
    ∧ (∃ (s : State) (job : Nat) (tick : Nat),
      (job < 16777216) ∧ (tabFind? s.quarantine job = some tick) ∧ (s.tmb.free < tick + 1966080000)) :=
  ⟨⟨(taking 0 (cmdOf 0x200 255 (leBytes 48 0x200000000000000fe0000000000000000010000000014000000001001001004007013f))
    ({ up with parts := [(0, { state := .active, radio := true, radioSlot := 0, hdmBase := 0, hdmLen := 2097152, syncObjects := 61440 })], mgt := { up.mgt with entropyOk := true } })),
    0, 63, (cmdOf 0x200 255 (leBytes 48 0x200000000000000fe0000000000000000010000000014000000001001001004007013f)),
    { m := 0, target := targetOf 0 (cmdOf 0x200 255 (leBytes 48 0x200000000000000fe0000000000000000010000000014000000001001001004007013f)), cmd := (cmdOf 0x200 255 (leBytes 48 0x200000000000000fe0000000000000000010000000014000000001001001004007013f)) },
      rfl, fun _ => ⟨1, by decide +kernel, by decide +kernel⟩, ⟨0, by decide +kernel, by decide +kernel⟩, by decide +kernel⟩,
    ⟨(taking 0 (cmdOf 0x200 255 (leBytes 48 0x200000000000000fe0000000000000000010000000014000000001001001004007013f))
      ({ up with parts := [(0, { state := .active, radio := true, radioSlot := 0, hdmBase := 0, hdmLen := 2097152, syncObjects := 61441 })], mgt := { up.mgt with entropyOk := true } })),
      0, 63, (cmdOf 0x200 255 (leBytes 48 0x200000000000000fe0000000000000000010000000014000000001001001004007013f)),
      { m := 0, target := targetOf 0 (cmdOf 0x200 255 (leBytes 48 0x200000000000000fe0000000000000000010000000014000000001001001004007013f)), cmd := (cmdOf 0x200 255 (leBytes 48 0x200000000000000fe0000000000000000010000000014000000001001001004007013f)) },
      rfl, by decide +kernel⟩,
    ⟨(taking 0 (cmdOf 0x200 255 (leBytes 48 0x200000000000000fe0000000000000000010000000014000000001001001004007013f))
      ({ up with parts := [(63, { hdmBase := 1048576, hdmLen := 4194304, creating := true })], mgt := { up.mgt with entropyOk := true } })),
      0, 63, (cmdOf 0x200 255 (leBytes 48 0x200000000000000fe0000000000000000010000000014000000001001001004007013f)),
      { m := 0, target := targetOf 0 (cmdOf 0x200 255 (leBytes 48 0x200000000000000fe0000000000000000010000000014000000001001001004007013f)), cmd := (cmdOf 0x200 255 (leBytes 48 0x200000000000000fe0000000000000000010000000014000000001001001004007013f)) },
      rfl, by decide +kernel⟩,
    ⟨{ up with parts := [(63, { hdmBase := 1048576, hdmLen := 4194304, creating := true, radioSlot := 7 })], mgt := { up.mgt with entropyOk := true }, ops := [(63, { mbx := 0, opcode := 0x0200, part := 63, obj := 63, args := [] })], mem := { cells := [(1048575, 1), (1048576, 2), (5242879, 3), (5242880, 4)] } },
      63, 63, { mbx := 0, opcode := 0x0200, part := 63, obj := 63, args := [] },
      by decide +kernel⟩,
    ⟨(taking 0 (cmdOf 0x208 255 (leBytes 48 0x10000000000000000001001001004007003f))
      ({ up with parts := [(63, { hdmBase := 1048576, hdmLen := 4194304, state := .frozen })], mgt := { up.mgt with entropyOk := true }, srv := { up.srv with ctxs := [(255, { part := 63, doneRing := 21, state := .frozen })] } })),
      0, 63, (cmdOf 0x208 255 (leBytes 48 0x10000000000000000001001001004007003f)),
      { m := 0, target := targetOf 0 (cmdOf 0x208 255 (leBytes 48 0x10000000000000000001001001004007003f)), cmd := (cmdOf 0x208 255 (leBytes 48 0x10000000000000000001001001004007003f)) },
      rfl, by decide +kernel⟩,
    ⟨(taking 0 (cmdOf 0x208 255 (leBytes 48 0x10000000000000000001001001004000003f))
      ({ up with parts := [(63, { hdmBase := 1048576, hdmLen := 4194304, state := .frozen })], mgt := { up.mgt with entropyOk := true } })),
      0, 63, (cmdOf 0x208 255 (leBytes 48 0x10000000000000000001001001004000003f)),
      { m := 0, target := targetOf 0 (cmdOf 0x208 255 (leBytes 48 0x10000000000000000001001001004000003f)), cmd := (cmdOf 0x208 255 (leBytes 48 0x10000000000000000001001001004000003f)) },
      rfl, ⟨0, by decide +kernel, by decide +kernel⟩, by decide +kernel⟩,
    ⟨(taking 0 (cmdOf 0x203 63 ([]))
      ({ up with parts := [(63, { hdmBase := 1048576, hdmLen := 4194304, state := .removing })], mgt := { up.mgt with entropyOk := true } })),
      0, (cmdOf 0x203 63 ([])),
      by decide +kernel⟩,
    ⟨{ up with quarantine := [(5, 998033920000), (16777215, 9)] }, 5, 998033920000,
      by decide +kernel⟩,
    ⟨{ up with quarantine := [(16777215, 998033920001)] }, 16777215, 998033920001,
      by decide +kernel⟩⟩

theorem test_witness_PartitionReset :
    (∃ (s : State) (m : Nat) (c : Cmd),
      (∃ h < 64, tabHas s.ops h = false) ∧ (Due s m 0x0202 c) ∧ (targetOf m c < 64) ∧ (s.mgt.entropyOk = true) ∧ ((partOf s
        (targetOf m c)).state = .active ∨ (partOf s (targetOf m c)).state = .freezing ∨ (partOf s (targetOf m c)).state =
        .frozen))
    ∧ (∃ (s : State) (m : Nat) (c : Cmd),
      (Due s m 0x0202 c) ∧ (targetOf m c < 64) ∧ (s.mgt.entropyOk = true) ∧ ((partOf s (targetOf m c)).state = .restoring))
    ∧ (∃ (s : State) (m : Nat) (c : Cmd),
      (∃ h < 64, tabHas s.ops h = false) ∧ (Due s m 0x0201 c) ∧ (targetOf m c < 64) ∧ (s.mgt.entropyOk = true) ∧ ((partOf s
        (targetOf m c)).state ≠ .removing))
    ∧ (∃ (s : State) (p : Nat),
      (p < 64) ∧ ((partOf s p).state = .active) ∧ ((partOf s p).radio = false))
    ∧ (∃ (s : State) (p : Nat),
      (p < 64) ∧ ((partOf s p).state = .resetting ∨ (partOf s p).state = .removing ∨ (partOf s p).state = .absent))
    ∧ (∃ (s : State) (p : Nat),
      (p < 64) ∧ ((partOf s p).step = 4) ∧ (∀ t ∈ partTags s p, t.2.lastTx + 98304 ≤ s.tmb.free))
    ∧ (∃ (s : State) (p : Nat),
      (p < 64) ∧ ((partOf s p).step = 4) ∧ (∃ t ∈ partTags s p, s.tmb.free < t.2.lastTx + 98304))
    ∧ (∃ (s : State) (p : Nat) (late : Nat),
      (p < 64) ∧ ((partOf s p).step = 5) ∧ (late ≠ 0 → (partOf s p).stepTick + 1966080 ≤ s.tmb.free))
    ∧ (∃ (s : State) (p : Nat),
      (p < 64) ∧ ((partOf s p).step = 8) ∧ ((partOf s p).state = .resetting))
    ∧ (∃ (s : State) (p : Nat),
      (p < 64) ∧ ((partOf s p).step = 8) ∧ ((partOf s p).state = .removing)) :=
  ⟨⟨(taking 0 (cmdOf 0x202 63 ([]))
    ({ up with parts := [(63, { hdmBase := 1048576, hdmLen := 4194304, state := .freezing })], mgt := { up.mgt with entropyOk := true }, srv := { up.srv with ctxs := [(255, { part := 63, doneRing := 21, state := .running, queue := [{ tag := 1 }, { tag := 2 }], step := some {} })] } })),
    0, (cmdOf 0x202 63 ([])),
      ⟨0, by decide +kernel, by decide +kernel⟩, by decide +kernel⟩,
    ⟨(taking 0 (cmdOf 0x202 63 ([]))
      ({ up with parts := [(63, { hdmBase := 1048576, hdmLen := 4194304, state := .restoring })], mgt := { up.mgt with entropyOk := true }, srv := { up.srv with ctxs := [(255, { part := 63, doneRing := 21, state := .running, queue := [{ tag := 1 }, { tag := 2 }], step := some {} })] } })),
      0, (cmdOf 0x202 63 ([])),
      by decide +kernel⟩,
    ⟨(taking 0 (cmdOf 0x201 63 ([]))
      ({ up with parts := [(63, { hdmBase := 1048576, hdmLen := 4194304, state := .resetting, step := 4 })], mgt := { up.mgt with entropyOk := true }, srv := { up.srv with ctxs := [(255, { part := 63, doneRing := 21, state := .running, queue := [{ tag := 1 }, { tag := 2 }], step := some {} })] } })),
      0, (cmdOf 0x201 63 ([])),
      ⟨0, by decide +kernel, by decide +kernel⟩, by decide +kernel⟩,
    ⟨{ up with parts := [(63, { hdmBase := 1048576, hdmLen := 4194304, state := .active })], mgt := { up.mgt with entropyOk := true }, srv := { up.srv with ctxs := [(255, { part := 63, doneRing := 21, state := .running, queue := [{ tag := 1 }, { tag := 2 }], step := some {} })] } },
      63,
      by decide +kernel⟩,
    ⟨{ up with parts := [(63, { hdmBase := 1048576, hdmLen := 4194304, state := .removing })], mgt := { up.mgt with entropyOk := true }, srv := { up.srv with ctxs := [(255, { part := 63, doneRing := 21, state := .running, queue := [{ tag := 1 }, { tag := 2 }], step := some {} })] } },
      63,
      by decide +kernel⟩,
    ⟨{ up with parts := [(63, { hdmBase := 1048576, hdmLen := 4194304, state := .resetting, step := 4 })], mgt := { up.mgt with entropyOk := true }, srv := { up.srv with ctxs := [(255, { part := 63, doneRing := 21, state := .running, queue := [{ tag := 1 }, { tag := 2 }], step := some {} })] }, fab := { up.fab with tags := [(5 * 2 ^ 32 + 7, { origin := .micro 255 0 0xE0, lastTx := 999999901696 })] } },
      63,
      by decide +kernel⟩,
    ⟨{ up with parts := [(63, { hdmBase := 1048576, hdmLen := 4194304, state := .resetting, step := 4 })], mgt := { up.mgt with entropyOk := true }, srv := { up.srv with ctxs := [(255, { part := 63, doneRing := 21, state := .running, queue := [{ tag := 1 }, { tag := 2 }], step := some {} })] }, fab := { up.fab with tags := [(5 * 2 ^ 32 + 7, { origin := .micro 255 0 0xE0, lastTx := 999999901697 })] } },
      63,
      by decide +kernel⟩,
    ⟨{ up with parts := [(63, { hdmBase := 1048576, hdmLen := 4194304, state := .resetting, step := 5, stepTick := 999998033920, jobs := [77] })], mgt := { up.mgt with entropyOk := true }, rings := [(4095, { part := 63 })], syn := { up.syn with objs := [(9, { type := 1, part := 63 })] } },
      63, 3,
      by decide +kernel⟩,
    ⟨{ up with parts := [(63, { hdmBase := 1048576, hdmLen := 4194304, state := .resetting, step := 8, late := true })], mgt := { up.mgt with entropyOk := true }, ops := [(63, { mbx := 0, opcode := 0x0202, part := 63, obj := 63, args := [] })], mem := { cells := [(1048576, 2)] } },
      63,
      by decide +kernel⟩,
    ⟨{ up with parts := [(63, { hdmBase := 1048576, hdmLen := 4194304, state := .removing, step := 8 })], mgt := { up.mgt with entropyOk := true }, ops := [(63, { mbx := 0, opcode := 0x0201, part := 63, obj := 63, args := [] })], mem := { cells := [(1048576, 2)] } },
      63,
      by decide +kernel⟩⟩

theorem test_witness_FreezeAndThaw :
    (∃ (s : State) (m : Nat) (p : Nat) (c : Cmd),
      (∃ h < 64, tabHas s.ops h = false) ∧ (Due s m 0x0204 c) ∧ (targetOf m c = p) ∧ (p < 64) ∧ ((partOf s p).radio = false) ∧
        ((partOf s p).state = .active))
    ∧ (∃ (s : State) (m : Nat) (p : Nat) (c : Cmd),
      (Due s m 0x0204 c) ∧ (targetOf m c = p) ∧ (p < 64) ∧ ((partOf s p).radio = true ∨ (partOf s p).state ≠ .active))
    ∧ (∃ (s : State) (p : Nat),
      (p < 64) ∧ ((partOf s p).state = .freezing) ∧ (atBoundary s p = true))
    ∧ (∃ (s : State) (p : Nat),
      (p < 64) ∧ ((partOf s p).state = .freezing) ∧ (atBoundary s p = false))
    ∧ (∃ (s : State) (m : Nat) (p : Nat) (c : Cmd),
      (Due s m 0x0205 c) ∧ (targetOf m c = p) ∧ (p < 64) ∧ ((partOf s p).state = .frozen))
    ∧ (∃ (s : State) (m : Nat) (p : Nat) (c : Cmd),
      (Due s m 0x0205 c) ∧ (targetOf m c = p) ∧ (p < 64) ∧ ((partOf s p).state ≠ .frozen)) :=
  ⟨⟨(taking 0 (cmdOf 0x204 63 (leBytes 2 0x1))
    ({ up with parts := [(63, { hdmBase := 1048576, hdmLen := 4194304, state := .active })], mgt := { up.mgt with entropyOk := true }, srv := { up.srv with ctxs := [(255, { part := 63, doneRing := 21, state := .running, queue := [{ tag := 1 }, { tag := 2 }], step := some {} })] } })),
    0, 63, (cmdOf 0x204 63 (leBytes 2 0x1)),
      ⟨0, by decide +kernel, by decide +kernel⟩, by decide +kernel⟩,
    ⟨(taking 0 (cmdOf 0x204 63 (leBytes 2 0))
      ({ up with parts := [(63, { hdmBase := 1048576, hdmLen := 4194304, state := .active, radio := true })], mgt := { up.mgt with entropyOk := true }, srv := { up.srv with ctxs := [(255, { part := 63, doneRing := 21, state := .running, queue := [{ tag := 1 }, { tag := 2 }], step := some {} })] } })),
      0, 63, (cmdOf 0x204 63 (leBytes 2 0)),
      by decide +kernel⟩,
    ⟨{ up with parts := [(63, { hdmBase := 1048576, hdmLen := 4194304, state := .freezing })], mgt := { up.mgt with entropyOk := true }, srv := { up.srv with ctxs := [(255, { part := 63, doneRing := 21, state := .resident, queue := [{}] })] }, ops := [(63, { mbx := 0, opcode := 0x0204, part := 63, obj := 63, args := [] })] },
      63,
      by decide +kernel⟩,
    ⟨{ up with parts := [(63, { hdmBase := 1048576, hdmLen := 4194304, state := .freezing })], mgt := { up.mgt with entropyOk := true }, srv := { up.srv with ctxs := [(255, { part := 63, doneRing := 21, state := .running, queue := [{ tag := 1 }, { tag := 2 }], step := some {} })] } },
      63,
      by decide +kernel⟩,
    ⟨(taking 0 (cmdOf 0x205 63 ([]))
      ({ up with parts := [(63, { hdmBase := 1048576, hdmLen := 4194304, state := .frozen })], mgt := { up.mgt with entropyOk := true }, srv := { up.srv with ctxs := [(255, { part := 63, doneRing := 21, state := .frozen })] } })),
      0, 63, (cmdOf 0x205 63 ([])),
      by decide +kernel⟩,
    ⟨(taking 0 (cmdOf 0x205 63 ([]))
      ({ up with parts := [(63, { hdmBase := 1048576, hdmLen := 4194304, state := .active })], mgt := { up.mgt with entropyOk := true }, srv := { up.srv with ctxs := [(255, { part := 63, doneRing := 21, state := .running, queue := [{ tag := 1 }, { tag := 2 }], step := some {} })] } })),
      0, 63, (cmdOf 0x205 63 ([])),
      by decide +kernel⟩⟩

theorem test_witness_SaveAndRestore :
    (∃ (s : State) (m : Nat) (p : Nat) (c : Cmd) (q : Req),
      (q = { m := m, target := targetOf m c, cmd := c }) ∧ (∃ h < 64, tabHas s.ops h = false) ∧ (Due s m 0x0206 c) ∧ (targetOf
        m c = p) ∧ (p < 64) ∧ (chunkBad q = false) ∧ ((partOf s p).state = .frozen) ∧ (field c.payload 16 4 ≠ 0 → inManager s
        (field c.payload 0 8) (field c.payload 16 4) = true) ∧ (field c.payload 8 8 = 0))
    ∧ (∃ (s : State) (m : Nat) (c : Cmd),
      (Due s m 0x0206 c) ∧ (targetOf m c < 64) ∧ ((partOf s (targetOf m c)).state ≠ .frozen))
    ∧ (∃ (s : State) (h : Nat) (p : Nat) (dst : Nat) (ofs : Nat) (len : Nat) (n : Nat) (o : LongOp) (v : SaveStream),
      (h < 64) ∧ (opOf s h = some o) ∧ (o.opcode = 0x0206) ∧ (o.finished = false) ∧ (o.obj = p) ∧ (o.args = [dst, ofs, len]) ∧
        ((partOf s p).save = some v) ∧ (n = min len (v.len - ofs)) ∧ (n ≠ 0))
    ∧ (∃ (s : State) (m : Nat) (p : Nat) (c : Cmd) (q : Req) (d0 : StreamHead) (d : StreamHead),
      (d = readHead ((c.payload.drop 32).take 64) (hdmRead s (field c.payload 0 8) (min (field c.payload 16 4) 4096)) d0) ∧ (q
        = { m := m, target := targetOf m c, cmd := c }) ∧ (Due s m 0x0207 c) ∧ (targetOf m c = p) ∧ (p < 64) ∧ ((partOf s
        p).radio = false) ∧ (s.dev.twilight = false) ∧ ((partOf s p).restore = none) ∧ (chunkBad q = false) ∧ ((partOf s
        p).state = .active) ∧ (partEmpty s p = true) ∧ (field c.payload 8 8 = 0) ∧ (field c.payload 16 4 ≠ 0 → inManager s
        (field c.payload 0 8) (field c.payload 16 4) = true))
    ∧ (∃ (s : State) (h : Nat) (p : Nat) (src : Nat) (ofs : Nat) (len : Nat) (o : LongOp) (r : RestoreRun) (g : RestoreRun),
      (g = { r with data := r.data ++ hdmRead s src len }) ∧ (h < 64) ∧ (opOf s h = some o) ∧ (o.opcode = 0x0207) ∧
        (o.finished = false) ∧ (o.obj = p) ∧ (o.args = [src, ofs, len]) ∧ ((partOf s p).restore = some r) ∧ (r.bound = true) ∧
        (g.data.length < r.head.len))
    ∧ (∃ (s : State) (h : Nat) (p : Nat) (src : Nat) (ofs : Nat) (len : Nat) (o : LongOp) (r : RestoreRun) (g : RestoreRun),
      (g = { r with data := r.data ++ hdmRead s src len }) ∧ (h < 64) ∧ (opOf s h = some o) ∧ (o.opcode = 0x0207) ∧
        (o.finished = false) ∧ (o.obj = p) ∧ (o.args = [src, ofs, len]) ∧ ((partOf s p).restore = some r) ∧ (r.bound = true) ∧
        (r.head.len ≤ g.data.length))
    ∧ (∃ (s : State) (h : Nat) (p : Nat) (src : Nat) (ofs : Nat) (len : Nat) (o : LongOp) (r : RestoreRun) (g : RestoreRun)
      (places : List (List Placement)) (st : Status) (n : Nat) (new : List (SavedCtx × List Byte × List Placement)),
      (g = { r with data := r.data ++ hdmRead s src len }) ∧ (new = (((List.range (imagesWithin r.head
        g.data.length).length).zip (imagesWithin r.head g.data.length)).drop r.imgs.length).map (fun c => (c.2, plainBytes
        r.key g.data c.2.imgOfs c.2.imgLen, places.getD c.1 []))) ∧ (imagesStatus s p new = (st, n)) ∧ (h < 64) ∧ (opOf s h =
        some o) ∧ (o.opcode = 0x0207) ∧ (o.finished = false) ∧ (o.obj = p) ∧ (o.args = [src, ofs, len]) ∧ ((partOf s
        p).restore = some r) ∧ (r.bound = false) ∧ (st ≠ .success))
    ∧ (∃ (s : State) (h : Nat) (p : Nat) (src : Nat) (ofs : Nat) (len : Nat) (o : LongOp) (r : RestoreRun) (g : RestoreRun)
      (places : List (List Placement)) (st : Status) (n : Nat) (new : List (SavedCtx × List Byte × List Placement)),
      (g = { r with data := r.data ++ hdmRead s src len }) ∧ (new = (((List.range (imagesWithin r.head
        g.data.length).length).zip (imagesWithin r.head g.data.length)).drop r.imgs.length).map (fun c => (c.2, plainBytes
        r.key g.data c.2.imgOfs c.2.imgLen, places.getD c.1 []))) ∧ (imagesStatus s p new = (st, n)) ∧ (h < 64) ∧ (opOf s h =
        some o) ∧ (o.opcode = 0x0207) ∧ (o.finished = false) ∧ (o.obj = p) ∧ (o.args = [src, ofs, len]) ∧ ((partOf s
        p).restore = some r) ∧ (r.bound = false) ∧ (st = .success) ∧ (g.data.length < r.head.imgEnd)) :=
  ⟨⟨(taking 0 (cmdOf 0x206 63 (leBytes 96 0x200000000000000000000000000000800000))
    ({ up with parts := [(63, { hdmBase := 1048576, hdmLen := 4194304, state := .frozen })], mgt := { up.mgt with entropyOk := true } })),
    0, 63, (cmdOf 0x206 63 (leBytes 96 0x200000000000000000000000000000800000)),
    { m := 0, target := targetOf 0 (cmdOf 0x206 63 (leBytes 96 0x200000000000000000000000000000800000)), cmd := (cmdOf 0x206 63 (leBytes 96 0x200000000000000000000000000000800000)) },
      rfl, ⟨0, by decide +kernel, by decide +kernel⟩, by decide +kernel⟩,
    ⟨(taking 0 (cmdOf 0x206 63 (leBytes 96 0x200000000000000000000000000000800000))
      ({ up with parts := [(63, { hdmBase := 1048576, hdmLen := 4194304, state := .active })], mgt := { up.mgt with entropyOk := true } })),
      0, (cmdOf 0x206 63 (leBytes 96 0x200000000000000000000000000000800000)),
      by decide +kernel⟩,
    ⟨{ up with parts := [(63, { hdmBase := 1048576, hdmLen := 4194304, state := .frozen, save := some { key := List.replicate 64 1, dirLen := 4096, imgEnd := 4096, len := 12288 } })], mgt := { up.mgt with entropyOk := true }, ops := [(63, { mbx := 0, opcode := 0x0206, part := 63, obj := 63, args := [8388608, 4096, 1073741824] })] },
      63, 63, 8388608, 4096, 1073741824, 8192,
      { mbx := 0, opcode := 0x0206, part := 63, obj := 63, args := [8388608, 4096, 1073741824] },
      { key := List.replicate 64 1, dirLen := 4096, imgEnd := 4096, len := 12288 },
      by decide +kernel⟩,
    ⟨(taking 0 (cmdOf 0x207 63 (leBytes 96 0x200000000000000000000000000000800000))
      ({ up with parts := [(63, { hdmBase := 1048576, hdmLen := 4194304, state := .active })], mgt := { up.mgt with entropyOk := true } })),
      0, 63, (cmdOf 0x207 63 (leBytes 96 0x200000000000000000000000000000800000)),
      { m := 0, target := targetOf 0 (cmdOf 0x207 63 (leBytes 96 0x200000000000000000000000000000800000)), cmd := (cmdOf 0x207 63 (leBytes 96 0x200000000000000000000000000000800000)) },
      {}, (readHead ((((cmdOf 0x207 63 (leBytes 96 0x200000000000000000000000000000800000))).payload.drop 32).take 64)
      (hdmRead (taking 0 (cmdOf 0x207 63 (leBytes 96 0x200000000000000000000000000000800000))
      ({ up with parts := [(63, { hdmBase := 1048576, hdmLen := 4194304, state := .active })], mgt := { up.mgt with entropyOk := true } }))
      (field ((cmdOf 0x207 63 (leBytes 96 0x200000000000000000000000000000800000))).payload 0 8) (min (field ((cmdOf 0x207 63
      (leBytes 96 0x200000000000000000000000000000800000))).payload 16 4) 4096)) {}),
      rfl, rfl, by decide +kernel⟩,
    ⟨{ up with parts := [(63, { hdmBase := 1048576, hdmLen := 4194304, state := .restoring, restore := some { head := { len := 7, imgEnd := 0, ctxs := [] }, key := [1], data := List.replicate 2 1, bound := true } })], mgt := { up.mgt with entropyOk := true }, ops := [(63, { mbx := 0, opcode := 0x0207, part := 63, obj := 63, args := [8388608, 0, 4] })] },
      63, 63, 8388608, 0, 4, { mbx := 0, opcode := 0x0207, part := 63, obj := 63, args := [8388608, 0, 4] },
      { head := { len := 7, imgEnd := 0, ctxs := [] }, key := [1], data := List.replicate 2 1, bound := true },
      ({ ({ head := { len := 7, imgEnd := 0, ctxs := [] }, key := [1], data := List.replicate 2 1, bound := true } : RestoreRun) with data := ({ head := { len := 7, imgEnd := 0, ctxs := [] }, key := [1], data := List.replicate 2 1, bound := true } : RestoreRun).data ++ hdmRead { up with parts := [(63, { hdmBase := 1048576, hdmLen := 4194304, state := .restoring, restore := some { head := { len := 7, imgEnd := 0, ctxs := [] }, key := [1], data := List.replicate 2 1, bound := true } })], mgt := { up.mgt with entropyOk := true }, ops := [(63, { mbx := 0, opcode := 0x0207, part := 63, obj := 63, args := [8388608, 0, 4] })] } 8388608 4 }
      : RestoreRun),
      rfl, by decide +kernel⟩,
    ⟨{ up with parts := [(63, { hdmBase := 1048576, hdmLen := 4194304, state := .restoring, restore := some { head := { len := 7, imgEnd := 0, ctxs := [] }, key := [1], data := List.replicate 3 1, bound := true } })], mgt := { up.mgt with entropyOk := true }, ops := [(63, { mbx := 0, opcode := 0x0207, part := 63, obj := 63, args := [8388608, 0, 4] })] },
      63, 63, 8388608, 0, 4, { mbx := 0, opcode := 0x0207, part := 63, obj := 63, args := [8388608, 0, 4] },
      { head := { len := 7, imgEnd := 0, ctxs := [] }, key := [1], data := List.replicate 3 1, bound := true },
      ({ ({ head := { len := 7, imgEnd := 0, ctxs := [] }, key := [1], data := List.replicate 3 1, bound := true } : RestoreRun) with data := ({ head := { len := 7, imgEnd := 0, ctxs := [] }, key := [1], data := List.replicate 3 1, bound := true } : RestoreRun).data ++ hdmRead { up with parts := [(63, { hdmBase := 1048576, hdmLen := 4194304, state := .restoring, restore := some { head := { len := 7, imgEnd := 0, ctxs := [] }, key := [1], data := List.replicate 3 1, bound := true } })], mgt := { up.mgt with entropyOk := true }, ops := [(63, { mbx := 0, opcode := 0x0207, part := 63, obj := 63, args := [8388608, 0, 4] })] } 8388608 4 }
      : RestoreRun),
      rfl, by decide +kernel⟩,
    ⟨{ up with parts := [(63, { hdmBase := 1048576, hdmLen := 4194304, state := .restoring, restore := some { head := { len := 12, imgEnd := 9, ctxs := [{ index := 255, imgOfs := 4, imgLen := 0 }] }, key := [1], data := List.replicate 3 1, bound := false } })], mgt := { up.mgt with entropyOk := true }, ops := [(63, { mbx := 0, opcode := 0x0207, part := 63, obj := 63, args := [8388608, 0, 4] })] },
      63, 63, 8388608, 0, 4, { mbx := 0, opcode := 0x0207, part := 63, obj := 63, args := [8388608, 0, 4] },
      { head := { len := 12, imgEnd := 9, ctxs := [{ index := 255, imgOfs := 4, imgLen := 0 }] }, key := [1], data := List.replicate 3 1, bound := false },
      ({ ({ head := { len := 12, imgEnd := 9, ctxs := [{ index := 255, imgOfs := 4, imgLen := 0 }] }, key := [1], data := List.replicate 3 1, bound := false } : RestoreRun) with data := ({ head := { len := 12, imgEnd := 9, ctxs := [{ index := 255, imgOfs := 4, imgLen := 0 }] }, key := [1], data := List.replicate 3 1, bound := false } : RestoreRun).data ++ hdmRead { up with parts := [(63, { hdmBase := 1048576, hdmLen := 4194304, state := .restoring, restore := some { head := { len := 12, imgEnd := 9, ctxs := [{ index := 255, imgOfs := 4, imgLen := 0 }] }, key := [1], data := List.replicate 3 1, bound := false } })], mgt := { up.mgt with entropyOk := true }, ops := [(63, { mbx := 0, opcode := 0x0207, part := 63, obj := 63, args := [8388608, 0, 4] })] } 8388608 4 }
      : RestoreRun), [], .zeroNotAllowed, 255, (((List.range (imagesWithin
      ({ head := { len := 12, imgEnd := 9, ctxs := [{ index := 255, imgOfs := 4, imgLen := 0 }] }, key := [1], data := List.replicate 3 1, bound := false }
      : RestoreRun).head
      (({ ({ head := { len := 12, imgEnd := 9, ctxs := [{ index := 255, imgOfs := 4, imgLen := 0 }] }, key := [1], data := List.replicate 3 1, bound := false } : RestoreRun) with data := ({ head := { len := 12, imgEnd := 9, ctxs := [{ index := 255, imgOfs := 4, imgLen := 0 }] }, key := [1], data := List.replicate 3 1, bound := false } : RestoreRun).data ++ hdmRead { up with parts := [(63, { hdmBase := 1048576, hdmLen := 4194304, state := .restoring, restore := some { head := { len := 12, imgEnd := 9, ctxs := [{ index := 255, imgOfs := 4, imgLen := 0 }] }, key := [1], data := List.replicate 3 1, bound := false } })], mgt := { up.mgt with entropyOk := true }, ops := [(63, { mbx := 0, opcode := 0x0207, part := 63, obj := 63, args := [8388608, 0, 4] })] } 8388608 4 }
      : RestoreRun)).data.length).length).zip (imagesWithin
      ({ head := { len := 12, imgEnd := 9, ctxs := [{ index := 255, imgOfs := 4, imgLen := 0 }] }, key := [1], data := List.replicate 3 1, bound := false }
      : RestoreRun).head
      (({ ({ head := { len := 12, imgEnd := 9, ctxs := [{ index := 255, imgOfs := 4, imgLen := 0 }] }, key := [1], data := List.replicate 3 1, bound := false } : RestoreRun) with data := ({ head := { len := 12, imgEnd := 9, ctxs := [{ index := 255, imgOfs := 4, imgLen := 0 }] }, key := [1], data := List.replicate 3 1, bound := false } : RestoreRun).data ++ hdmRead { up with parts := [(63, { hdmBase := 1048576, hdmLen := 4194304, state := .restoring, restore := some { head := { len := 12, imgEnd := 9, ctxs := [{ index := 255, imgOfs := 4, imgLen := 0 }] }, key := [1], data := List.replicate 3 1, bound := false } })], mgt := { up.mgt with entropyOk := true }, ops := [(63, { mbx := 0, opcode := 0x0207, part := 63, obj := 63, args := [8388608, 0, 4] })] } 8388608 4 }
      : RestoreRun)).data.length)).drop
      ({ head := { len := 12, imgEnd := 9, ctxs := [{ index := 255, imgOfs := 4, imgLen := 0 }] }, key := [1], data := List.replicate 3 1, bound := false }
      : RestoreRun).imgs.length).map (fun c => (c.2, plainBytes
      ({ head := { len := 12, imgEnd := 9, ctxs := [{ index := 255, imgOfs := 4, imgLen := 0 }] }, key := [1], data := List.replicate 3 1, bound := false }
      : RestoreRun).key
      (({ ({ head := { len := 12, imgEnd := 9, ctxs := [{ index := 255, imgOfs := 4, imgLen := 0 }] }, key := [1], data := List.replicate 3 1, bound := false } : RestoreRun) with data := ({ head := { len := 12, imgEnd := 9, ctxs := [{ index := 255, imgOfs := 4, imgLen := 0 }] }, key := [1], data := List.replicate 3 1, bound := false } : RestoreRun).data ++ hdmRead { up with parts := [(63, { hdmBase := 1048576, hdmLen := 4194304, state := .restoring, restore := some { head := { len := 12, imgEnd := 9, ctxs := [{ index := 255, imgOfs := 4, imgLen := 0 }] }, key := [1], data := List.replicate 3 1, bound := false } })], mgt := { up.mgt with entropyOk := true }, ops := [(63, { mbx := 0, opcode := 0x0207, part := 63, obj := 63, args := [8388608, 0, 4] })] } 8388608 4 }
      : RestoreRun)).data c.2.imgOfs c.2.imgLen, ([] : List (List Placement)).getD c.1 [])),
      rfl, rfl, rfl, by decide +kernel⟩,
    ⟨{ up with parts := [(63, { hdmBase := 1048576, hdmLen := 4194304, state := .restoring, restore := some { head := { len := 12, imgEnd := 9, ctxs := [] }, key := [1], data := List.replicate 3 1, bound := false } })], mgt := { up.mgt with entropyOk := true }, ops := [(63, { mbx := 0, opcode := 0x0207, part := 63, obj := 63, args := [8388608, 0, 4] })] },
      63, 63, 8388608, 0, 4, { mbx := 0, opcode := 0x0207, part := 63, obj := 63, args := [8388608, 0, 4] },
      { head := { len := 12, imgEnd := 9, ctxs := [] }, key := [1], data := List.replicate 3 1, bound := false },
      ({ ({ head := { len := 12, imgEnd := 9, ctxs := [] }, key := [1], data := List.replicate 3 1, bound := false } : RestoreRun) with data := ({ head := { len := 12, imgEnd := 9, ctxs := [] }, key := [1], data := List.replicate 3 1, bound := false } : RestoreRun).data ++ hdmRead { up with parts := [(63, { hdmBase := 1048576, hdmLen := 4194304, state := .restoring, restore := some { head := { len := 12, imgEnd := 9, ctxs := [] }, key := [1], data := List.replicate 3 1, bound := false } })], mgt := { up.mgt with entropyOk := true }, ops := [(63, { mbx := 0, opcode := 0x0207, part := 63, obj := 63, args := [8388608, 0, 4] })] } 8388608 4 }
      : RestoreRun), [], .success, 0, (((List.range (imagesWithin
      ({ head := { len := 12, imgEnd := 9, ctxs := [] }, key := [1], data := List.replicate 3 1, bound := false } :
      RestoreRun).head
      (({ ({ head := { len := 12, imgEnd := 9, ctxs := [] }, key := [1], data := List.replicate 3 1, bound := false } : RestoreRun) with data := ({ head := { len := 12, imgEnd := 9, ctxs := [] }, key := [1], data := List.replicate 3 1, bound := false } : RestoreRun).data ++ hdmRead { up with parts := [(63, { hdmBase := 1048576, hdmLen := 4194304, state := .restoring, restore := some { head := { len := 12, imgEnd := 9, ctxs := [] }, key := [1], data := List.replicate 3 1, bound := false } })], mgt := { up.mgt with entropyOk := true }, ops := [(63, { mbx := 0, opcode := 0x0207, part := 63, obj := 63, args := [8388608, 0, 4] })] } 8388608 4 }
      : RestoreRun)).data.length).length).zip (imagesWithin
      ({ head := { len := 12, imgEnd := 9, ctxs := [] }, key := [1], data := List.replicate 3 1, bound := false } :
      RestoreRun).head
      (({ ({ head := { len := 12, imgEnd := 9, ctxs := [] }, key := [1], data := List.replicate 3 1, bound := false } : RestoreRun) with data := ({ head := { len := 12, imgEnd := 9, ctxs := [] }, key := [1], data := List.replicate 3 1, bound := false } : RestoreRun).data ++ hdmRead { up with parts := [(63, { hdmBase := 1048576, hdmLen := 4194304, state := .restoring, restore := some { head := { len := 12, imgEnd := 9, ctxs := [] }, key := [1], data := List.replicate 3 1, bound := false } })], mgt := { up.mgt with entropyOk := true }, ops := [(63, { mbx := 0, opcode := 0x0207, part := 63, obj := 63, args := [8388608, 0, 4] })] } 8388608 4 }
      : RestoreRun)).data.length)).drop
      ({ head := { len := 12, imgEnd := 9, ctxs := [] }, key := [1], data := List.replicate 3 1, bound := false } :
      RestoreRun).imgs.length).map (fun c => (c.2, plainBytes
      ({ head := { len := 12, imgEnd := 9, ctxs := [] }, key := [1], data := List.replicate 3 1, bound := false } :
      RestoreRun).key
      (({ ({ head := { len := 12, imgEnd := 9, ctxs := [] }, key := [1], data := List.replicate 3 1, bound := false } : RestoreRun) with data := ({ head := { len := 12, imgEnd := 9, ctxs := [] }, key := [1], data := List.replicate 3 1, bound := false } : RestoreRun).data ++ hdmRead { up with parts := [(63, { hdmBase := 1048576, hdmLen := 4194304, state := .restoring, restore := some { head := { len := 12, imgEnd := 9, ctxs := [] }, key := [1], data := List.replicate 3 1, bound := false } })], mgt := { up.mgt with entropyOk := true }, ops := [(63, { mbx := 0, opcode := 0x0207, part := 63, obj := 63, args := [8388608, 0, 4] })] } 8388608 4 }
      : RestoreRun)).data c.2.imgOfs c.2.imgLen, ([] : List (List Placement)).getD c.1 [])),
      rfl, rfl, rfl, by decide +kernel⟩⟩

theorem test_witness_FabricCommands :
    (∃ (s : State) (m : Nat) (dev : Nat) (gate : Nat) (life : Nat) (gw : Nat) (c : Cmd),
      (∃ q ∈ s.parts, q.2.jobs ≠ []) ∧ (Due s m 0x0600 c) ∧ (dev = field c.payload 0 2) ∧ (gate = field c.payload 2 2) ∧ (life
        = field c.payload 4 4) ∧ (gw = field c.payload 8 4))
    ∧ (∃ (s : State) (m : Nat) (dev : Nat) (gate : Nat) (life : Nat) (gw : Nat) (c : Cmd),
      (Due s m 0x0600 c) ∧ (dev = field c.payload 0 2) ∧ (gate = field c.payload 2 2) ∧ (life = field c.payload 4 4) ∧ (gw =
        field c.payload 8 4) ∧ (∀ q ∈ s.parts, q.2.jobs = []) ∧ (gw = 0))
    ∧ (∃ (s : State) (m : Nat) (dev : Nat) (gate : Nat) (life : Nat) (gw : Nat) (c : Cmd),
      (Due s m 0x0600 c) ∧ (dev = field c.payload 0 2) ∧ (gate = field c.payload 2 2) ∧ (life = field c.payload 4 4) ∧ (gw =
        field c.payload 8 4) ∧ (∀ q ∈ s.parts, q.2.jobs = []) ∧ (gw ≠ 0) ∧ (dev / 64 = 0x3FF ∨ life < 1966080 ∨ 15728640 <
        life ∨ life < 9 * gw))
    ∧ (∃ (s : State) (m : Nat) (dev : Nat) (gate : Nat) (life : Nat) (gw : Nat) (c : Cmd),
      (Due s m 0x0600 c) ∧ (dev = field c.payload 0 2) ∧ (gate = field c.payload 2 2) ∧ (life = field c.payload 4 4) ∧ (gw =
        field c.payload 8 4) ∧ (∀ q ∈ s.parts, q.2.jobs = []) ∧ (gw ≠ 0) ∧ (dev / 64 < 0x3FF) ∧ (1966080 ≤ life) ∧ (life ≤
        15728640) ∧ (9 * gw ≤ life))
    ∧ (∃ (s : State) (m : Nat) (n : Nat) (c : Cmd),
      (Due s m 0x0601 c) ∧ (n = field c.payload 0 1) ∧ (n < gradePorts s.grade) ∧ (field c.payload 1 1 ≤ 1))
    ∧ (∃ (s : State) (m : Nat) (n : Nat) (c : Cmd),
      (Due s m 0x0601 c) ∧ (n = field c.payload 0 1) ∧ (gradePorts s.grade ≤ n))
    ∧ (∃ (s : State) (m : Nat) (p : Nat) (job : Nat) (c : Cmd),
      (Due s m 0x0602 c) ∧ (targetOf m c = p) ∧ (p < 64) ∧ (job = field c.payload 0 4 % 16777216) ∧ (tabHas s.quarantine job =
        true))
    ∧ (∃ (s : State) (m : Nat) (p : Nat) (job : Nat) (c : Cmd),
      (Due s m 0x0602 c) ∧ (targetOf m c = p) ∧ (p < 64) ∧ (job = field c.payload 0 4 % 16777216) ∧ (tabHas s.quarantine job =
        false) ∧ (job ∈ (partOf s p).jobs))
    ∧ (∃ (s : State) (m : Nat) (p : Nat) (job : Nat) (c : Cmd),
      (Due s m 0x0602 c) ∧ (targetOf m c = p) ∧ (p < 64) ∧ (job = field c.payload 0 4 % 16777216) ∧ (tabHas s.quarantine job =
        false) ∧ (job ∉ (partOf s p).jobs) ∧ (jobOnDevice s job = true))
    ∧ (∃ (s : State) (m : Nat) (p : Nat) (job : Nat) (c : Cmd),
      (Due s m 0x0602 c) ∧ (targetOf m c = p) ∧ (p < 64) ∧ (job = field c.payload 0 4 % 16777216) ∧ (tabHas s.quarantine job =
        false) ∧ (job ∉ (partOf s p).jobs) ∧ (jobOnDevice s job = false) ∧ ((partOf s p).jobIds ≤ (partOf s p).jobs.length))
    ∧ (∃ (s : State) (m : Nat) (p : Nat) (job : Nat) (c : Cmd),
      (Due s m 0x0602 c) ∧ (targetOf m c = p) ∧ (p < 64) ∧ (job = field c.payload 0 4 % 16777216) ∧ (tabHas s.quarantine job =
        false) ∧ (job ∉ (partOf s p).jobs) ∧ (jobOnDevice s job = false) ∧ ((partOf s p).jobs.length < (partOf s p).jobIds))
    ∧ (∃ (s : State) (m : Nat) (p : Nat) (job : Nat) (c : Cmd),
      (Due s m 0x0603 c) ∧ (targetOf m c = p) ∧ (p < 64) ∧ (job = field c.payload 0 4 % 16777216) ∧ (job ∈ (partOf s p).jobs))
    ∧ (∃ (s : State) (m : Nat) (p : Nat) (job : Nat) (c : Cmd),
      (Due s m 0x0603 c) ∧ (targetOf m c = p) ∧ (p < 64) ∧ (job = field c.payload 0 4 % 16777216) ∧ (job ∉ (partOf s p).jobs))
    ∧ (∃ (s : State) (m : Nat) (p : Nat) (c : Cmd) (w : FabWindow),
      (w = windowOf { m := m, target := targetOf m c, cmd := c }) ∧ (Due s m 0x0604 c) ∧ (targetOf m c = p) ∧ (p < 64) ∧
        (w.length = 0 ∨ (w.rd = false ∧ w.wr = false ∧ w.atom = false)))
    ∧ (∃ (s : State) (m : Nat) (p : Nat) (c : Cmd) (w : FabWindow),
      (w = windowOf { m := m, target := targetOf m c, cmd := c }) ∧ (Due s m 0x0604 c) ∧ (targetOf m c = p) ∧ (p < 64) ∧
        (w.length ≠ 0) ∧ (w.rd = true ∨ w.wr = true ∨ w.atom = true) ∧ (w.job ∉ (partOf s p).jobs ∨ (ctxOf s w.ctx).state =
        .absent ∨ (ctxOf s w.ctx).part ≠ p))
    ∧ (∃ (s : State) (m : Nat) (p : Nat) (c : Cmd) (w : FabWindow),
      (w = windowOf { m := m, target := targetOf m c, cmd := c }) ∧ (windowFieldsOk s w = false) ∧ (Due s m 0x0604 c) ∧
        (targetOf m c = p) ∧ (p < 64) ∧ (w.length ≠ 0) ∧ (w.rd = true ∨ w.wr = true ∨ w.atom = true) ∧ (w.job ∈ (partOf s
        p).jobs) ∧ (w.ctx ≤ 255) ∧ ((ctxOf s w.ctx).state ≠ .absent) ∧ ((ctxOf s w.ctx).part = p))
    ∧ (∃ (s : State) (m : Nat) (p : Nat) (c : Cmd) (w : FabWindow),
      (w = windowOf { m := m, target := targetOf m c, cmd := c }) ∧ (windowFieldsOk s w = true) ∧ (Due s m 0x0604 c) ∧
        (targetOf m c = p) ∧ (p < 64) ∧ (w.length ≠ 0) ∧ (w.rd = true ∨ w.wr = true ∨ w.atom = true) ∧ (w.job ∈ (partOf s
        p).jobs) ∧ (w.ctx ≤ 255) ∧ ((ctxOf s w.ctx).state ≠ .absent) ∧ ((ctxOf s w.ctx).part = p) ∧ (16 ≤
        (s.fab.windows.filter (fun v => v.2.job = w.job)).length))
    ∧ (∃ (s : State) (m : Nat) (p : Nat) (c : Cmd) (w : FabWindow),
      (w = windowOf { m := m, target := targetOf m c, cmd := c }) ∧ (windowFieldsOk s w = true) ∧ (∃ n < 4096, tabHas
        s.fab.windows n = false) ∧ (Due s m 0x0604 c) ∧ (targetOf m c = p) ∧ (p < 64) ∧ (w.length ≠ 0) ∧ (w.rd = true ∨ w.wr =
        true ∨ w.atom = true) ∧ (w.job ∈ (partOf s p).jobs) ∧ (w.ctx ≤ 255) ∧ ((ctxOf s w.ctx).state ≠ .absent) ∧ ((ctxOf s
        w.ctx).part = p) ∧ ((s.fab.windows.filter (fun v => v.2.job = w.job)).length < 16))
    ∧ (∃ (s : State) (m : Nat) (p : Nat) (n : Nat) (c : Cmd) (w : FabWindow),
      (Due s m 0x0605 c) ∧ (targetOf m c = p) ∧ (p < 64) ∧ (n = field c.payload 0 2) ∧ (tabFind? s.fab.windows n = some w) ∧
        (w.part = p))
    ∧ (∃ (s : State) (m : Nat) (p : Nat) (n : Nat) (c : Cmd),
      (∀ w, tabFind? s.fab.windows n = some w → w.part ≠ p) ∧ (Due s m 0x0605 c) ∧ (targetOf m c = p) ∧ (p < 64) ∧ (n = field
        c.payload 0 2))
    ∧ (∃ (s : State) (m : Nat) (n : Nat) (c : Cmd),
      (Due s m 0x0606 c) ∧ (n = field c.payload 0 1) ∧ (n < gradePorts s.grade) ∧ (field c.payload 1 1 ≤ 1))
    ∧ (∃ (s : State) (n : Nat) (up : Bool),
      (n < gradePorts s.grade) ∧ ((portOf s n).link ≠ up) ∧ (up = true → (portOf s n).enabled = true))
    ∧ (∃ (s : State) (n : Nat) (up : Bool),
      (n < gradePorts s.grade) ∧ ((portOf s n).link = up)) :=
  ⟨⟨(taking 0 (cmdOf 0x600 255 (leBytes 12 0x35555001e00000005ffbf))
    ({ up with parts := [(63, { state := .active, jobIds := 3, jobs := [4] })] })), 0, 65471, 5, 1966080, 218453, (cmdOf 0x600
    255 (leBytes 12 0x35555001e00000005ffbf)),
      ⟨_, List.mem_cons_self .., by decide +kernel⟩, by decide +kernel⟩,
    ⟨(taking 0 (cmdOf 0x600 255 (leBytes 12 0x1e00000005ffbf)) up), 0, 65471, 5, 1966080, 0, (cmdOf 0x600 255 (leBytes 12
      0x1e00000005ffbf)),
      by decide +kernel⟩,
    ⟨(taking 0 (cmdOf 0x600 255 (leBytes 12 0x35556001e00000005ffbf)) up), 0, 65471, 5, 1966080, 218454, (cmdOf 0x600 255
      (leBytes 12 0x35556001e00000005ffbf)),
      by decide +kernel⟩,
    ⟨(taking 0 (cmdOf 0x600 255 (leBytes 12 0x35555001e00000005ffbf)) up), 0, 65471, 5, 1966080, 218453, (cmdOf 0x600 255
      (leBytes 12 0x35555001e00000005ffbf)),
      by decide +kernel⟩,
    ⟨(taking 0 (cmdOf 0x601 255 (leBytes 2 0xb))
      ({ up with fab := { up.fab with ports := [(11, { link := true, enabled := true })] } })), 0, 11, (cmdOf 0x601 255
      (leBytes 2 0xb)),
      by decide +kernel⟩,
    ⟨(taking 0 (cmdOf 0x601 255 (leBytes 2 0x10c)) up), 0, 12, (cmdOf 0x601 255 (leBytes 2 0x10c)),
      by decide +kernel⟩,
    ⟨(taking 0 (cmdOf 0x602 63 (leBytes 4 0xffffff))
      ({ up with parts := [(0, { state := .active, jobIds := 1, jobs := [] }), (63, { state := .active, jobIds := 1, jobs := [] })], quarantine := [(16777215, 5)], fab := { up.fab with windows := [] } })),
      0, 63, 16777215, (cmdOf 0x602 63 (leBytes 4 0xffffff)),
      by decide +kernel⟩,
    ⟨(taking 0 (cmdOf 0x602 63 (leBytes 4 0xffffff))
      ({ up with parts := [(0, { state := .active, jobIds := 1, jobs := [] }), (63, { state := .active, jobIds := 1, jobs := [16777215] })], quarantine := [], fab := { up.fab with windows := [] } })),
      0, 63, 16777215, (cmdOf 0x602 63 (leBytes 4 0xffffff)),
      by decide +kernel⟩,
    ⟨(taking 0 (cmdOf 0x602 63 (leBytes 4 0xffffff))
      ({ up with parts := [(0, { state := .active, jobIds := 1, jobs := [16777215] }), (63, { state := .active, jobIds := 1, jobs := [] })], quarantine := [], fab := { up.fab with windows := [] } })),
      0, 63, 16777215, (cmdOf 0x602 63 (leBytes 4 0xffffff)),
      by decide +kernel⟩,
    ⟨(taking 0 (cmdOf 0x602 63 (leBytes 4 0xffffff))
      ({ up with parts := [(0, { state := .active, jobIds := 1, jobs := [] }), (63, { state := .active, jobIds := 1, jobs := [3] })], quarantine := [], fab := { up.fab with windows := [] } })),
      0, 63, 16777215, (cmdOf 0x602 63 (leBytes 4 0xffffff)),
      by decide +kernel⟩,
    ⟨(taking 0 (cmdOf 0x602 63 (leBytes 4 0xffffff))
      ({ up with parts := [(0, { state := .active, jobIds := 1, jobs := [] }), (63, { state := .active, jobIds := 1, jobs := [] })], quarantine := [], fab := { up.fab with windows := [] } })),
      0, 63, 16777215, (cmdOf 0x602 63 (leBytes 4 0xffffff)),
      by decide +kernel⟩,
    ⟨(taking 0 (cmdOf 0x603 63 (leBytes 4 0xffffff))
      ({ up with parts := [(0, { state := .active, jobIds := 1, jobs := [] }), (63, { state := .active, jobIds := 1, jobs := [16777215] })], quarantine := [], fab := { up.fab with windows := [(1, { job := 16777215, rd := true, wr := true, atom := true, ctx := 255, part := 63, base := 0, length := 4096, region := 1 }), (2, { job := 3, rd := true, wr := true, atom := true, ctx := 255, part := 63, base := 0, length := 4096, region := 1 })] } })),
      0, 63, 16777215, (cmdOf 0x603 63 (leBytes 4 0xffffff)),
      by decide +kernel⟩,
    ⟨(taking 0 (cmdOf 0x603 63 (leBytes 4 0xffffff))
      ({ up with parts := [(0, { state := .active, jobIds := 1, jobs := [16777215] }), (63, { state := .active, jobIds := 1, jobs := [3] })], quarantine := [], fab := { up.fab with windows := [] } })),
      0, 63, 16777215, (cmdOf 0x603 63 (leBytes 4 0xffffff)),
      by decide +kernel⟩,
    ⟨(taking 0 (cmdOf 0x604 63 (leBytes 32 0x10000000010000000000000007fffffff000000000ff01000009))
      ({ up with parts := [(63, { state := .active, jobIds := 3, jobs := [9] })], srv := { up.srv with ctxs := [(255, { part := 63, state := .resident, places := [{ shape := { quadrants := [1], tiles := [0], movers := [0], arrayGranules := [0], dramGb := [1] }, sizes := [(0, 2097152, 0)] }], dram := [(4194304, 1)] })] }, fab := { up.fab with windows := [] } })),
      0, 63, (cmdOf 0x604 63 (leBytes 32 0x10000000010000000000000007fffffff000000000ff01000009)), (windowOf
      { m := 0, target := targetOf 0 (cmdOf 0x604 63 (leBytes 32 0x10000000010000000000000007fffffff000000000ff01000009)), cmd := (cmdOf 0x604 63 (leBytes 32 0x10000000010000000000000007fffffff000000000ff01000009)) }),
      rfl, by decide +kernel⟩,
    ⟨(taking 0 (cmdOf 0x604 63 (leBytes 32 0x10000000010000000000100007fffffff000000000ff01000009))
      ({ up with parts := [(63, { state := .active, jobIds := 3, jobs := [] })], srv := { up.srv with ctxs := [(255, { part := 63, state := .resident, places := [{ shape := { quadrants := [1], tiles := [0], movers := [0], arrayGranules := [0], dramGb := [1] }, sizes := [(0, 2097152, 0)] }], dram := [(4194304, 1)] })] }, fab := { up.fab with windows := [] } })),
      0, 63, (cmdOf 0x604 63 (leBytes 32 0x10000000010000000000100007fffffff000000000ff01000009)), (windowOf
      { m := 0, target := targetOf 0 (cmdOf 0x604 63 (leBytes 32 0x10000000010000000000100007fffffff000000000ff01000009)), cmd := (cmdOf 0x604 63 (leBytes 32 0x10000000010000000000100007fffffff000000000ff01000009)) }),
      rfl, by decide +kernel⟩,
    ⟨(taking 0 (cmdOf 0x604 63 (leBytes 32 0x2000000000010000000000100007fffffff000000000ff01000009))
      ({ up with parts := [(63, { state := .active, jobIds := 3, jobs := [9] })], srv := { up.srv with ctxs := [(255, { part := 63, state := .resident, places := [{ shape := { quadrants := [1], tiles := [0], movers := [0], arrayGranules := [0], dramGb := [1] }, sizes := [(0, 2097152, 0)] }], dram := [(4194304, 1)] })] }, fab := { up.fab with windows := [] } })),
      0, 63, (cmdOf 0x604 63 (leBytes 32 0x2000000000010000000000100007fffffff000000000ff01000009)), (windowOf
      { m := 0, target := targetOf 0 (cmdOf 0x604 63 (leBytes 32 0x2000000000010000000000100007fffffff000000000ff01000009)), cmd := (cmdOf 0x604 63 (leBytes 32 0x2000000000010000000000100007fffffff000000000ff01000009)) }),
      rfl, rfl, by decide +kernel⟩,
    ⟨(taking 0 (cmdOf 0x604 63 (leBytes 32 0x10000000010000000000100007fffffff000000000ff01000009))
      ({ up with parts := [(63, { state := .active, jobIds := 3, jobs := [9] })], srv := { up.srv with ctxs := [(255, { part := 63, state := .resident, places := [{ shape := { quadrants := [1], tiles := [0], movers := [0], arrayGranules := [0], dramGb := [1] }, sizes := [(0, 2097152, 0)] }], dram := [(4194304, 1)] })] }, fab := { up.fab with windows := [(0, { job := 9, rd := true, wr := true, atom := true, ctx := 255, part := 63, base := 0, length := 4096, region := 1 }), (1, { job := 9, rd := true, wr := true, atom := true, ctx := 255, part := 63, base := 4096, length := 4096, region := 1 }), (2, { job := 9, rd := true, wr := true, atom := true, ctx := 255, part := 63, base := 8192, length := 4096, region := 1 }), (3, { job := 9, rd := true, wr := true, atom := true, ctx := 255, part := 63, base := 12288, length := 4096, region := 1 }), (4, { job := 9, rd := true, wr := true, atom := true, ctx := 255, part := 63, base := 16384, length := 4096, region := 1 }), (5, { job := 9, rd := true, wr := true, atom := true, ctx := 255, part := 63, base := 20480, length := 4096, region := 1 }), (6, { job := 9, rd := true, wr := true, atom := true, ctx := 255, part := 63, base := 24576, length := 4096, region := 1 }), (7, { job := 9, rd := true, wr := true, atom := true, ctx := 255, part := 63, base := 28672, length := 4096, region := 1 }), (8, { job := 9, rd := true, wr := true, atom := true, ctx := 255, part := 63, base := 32768, length := 4096, region := 1 }), (9, { job := 9, rd := true, wr := true, atom := true, ctx := 255, part := 63, base := 36864, length := 4096, region := 1 }), (10, { job := 9, rd := true, wr := true, atom := true, ctx := 255, part := 63, base := 40960, length := 4096, region := 1 }), (11, { job := 9, rd := true, wr := true, atom := true, ctx := 255, part := 63, base := 45056, length := 4096, region := 1 }), (12, { job := 9, rd := true, wr := true, atom := true, ctx := 255, part := 63, base := 49152, length := 4096, region := 1 }), (13, { job := 9, rd := true, wr := true, atom := true, ctx := 255, part := 63, base := 53248, length := 4096, region := 1 }), (14, { job := 9, rd := true, wr := true, atom := true, ctx := 255, part := 63, base := 57344, length := 4096, region := 1 }), (15, { job := 9, rd := true, wr := true, atom := true, ctx := 255, part := 63, base := 61440, length := 4096, region := 1 })] } })),
      0, 63, (cmdOf 0x604 63 (leBytes 32 0x10000000010000000000100007fffffff000000000ff01000009)), (windowOf
      { m := 0, target := targetOf 0 (cmdOf 0x604 63 (leBytes 32 0x10000000010000000000100007fffffff000000000ff01000009)), cmd := (cmdOf 0x604 63 (leBytes 32 0x10000000010000000000100007fffffff000000000ff01000009)) }),
      rfl, rfl, by decide +kernel⟩,
    ⟨(taking 0 (cmdOf 0x604 63 (leBytes 32 0x10000000010000000000100007fffffff000000000ff01000009))
      ({ up with parts := [(63, { state := .active, jobIds := 3, jobs := [9] })], srv := { up.srv with ctxs := [(255, { part := 63, state := .resident, places := [{ shape := { quadrants := [1], tiles := [0], movers := [0], arrayGranules := [0], dramGb := [1] }, sizes := [(0, 2097152, 0)] }], dram := [(4194304, 1)] })] }, fab := { up.fab with windows := [(0, { job := 9, rd := true, wr := true, atom := true, ctx := 255, part := 63, base := 0, length := 4096, region := 1 }), (1, { job := 9, rd := true, wr := true, atom := true, ctx := 255, part := 63, base := 4096, length := 4096, region := 1 }), (2, { job := 9, rd := true, wr := true, atom := true, ctx := 255, part := 63, base := 8192, length := 4096, region := 1 }), (3, { job := 9, rd := true, wr := true, atom := true, ctx := 255, part := 63, base := 12288, length := 4096, region := 1 }), (4, { job := 9, rd := true, wr := true, atom := true, ctx := 255, part := 63, base := 16384, length := 4096, region := 1 }), (5, { job := 9, rd := true, wr := true, atom := true, ctx := 255, part := 63, base := 20480, length := 4096, region := 1 }), (6, { job := 9, rd := true, wr := true, atom := true, ctx := 255, part := 63, base := 24576, length := 4096, region := 1 }), (7, { job := 9, rd := true, wr := true, atom := true, ctx := 255, part := 63, base := 28672, length := 4096, region := 1 }), (8, { job := 9, rd := true, wr := true, atom := true, ctx := 255, part := 63, base := 32768, length := 4096, region := 1 }), (9, { job := 9, rd := true, wr := true, atom := true, ctx := 255, part := 63, base := 36864, length := 4096, region := 1 }), (10, { job := 9, rd := true, wr := true, atom := true, ctx := 255, part := 63, base := 40960, length := 4096, region := 1 }), (11, { job := 9, rd := true, wr := true, atom := true, ctx := 255, part := 63, base := 45056, length := 4096, region := 1 }), (12, { job := 9, rd := true, wr := true, atom := true, ctx := 255, part := 63, base := 49152, length := 4096, region := 1 }), (13, { job := 9, rd := true, wr := true, atom := true, ctx := 255, part := 63, base := 53248, length := 4096, region := 1 }), (14, { job := 9, rd := true, wr := true, atom := true, ctx := 255, part := 63, base := 57344, length := 4096, region := 1 })] } })),
      0, 63, (cmdOf 0x604 63 (leBytes 32 0x10000000010000000000100007fffffff000000000ff01000009)), (windowOf
      { m := 0, target := targetOf 0 (cmdOf 0x604 63 (leBytes 32 0x10000000010000000000100007fffffff000000000ff01000009)), cmd := (cmdOf 0x604 63 (leBytes 32 0x10000000010000000000100007fffffff000000000ff01000009)) }),
      rfl, rfl, ⟨4095, by decide +kernel, by decide +kernel⟩, by decide +kernel⟩,
    ⟨(taking 0 (cmdOf 0x605 63 (leBytes 2 0xfff))
      ({ up with parts := [(63, { state := .active, jobIds := 3 })], fab := { up.fab with windows := [(4095, { job := 9, rd := true, wr := true, atom := true, ctx := 255, part := 63, base := 0, length := 4096, region := 1 })] } })),
      0, 63, 4095, (cmdOf 0x605 63 (leBytes 2 0xfff)),
      { job := 9, rd := true, wr := true, atom := true, ctx := 255, part := 63, base := 0, length := 4096, region := 1 },
      by decide +kernel⟩,
    ⟨(taking 0 (cmdOf 0x605 63 (leBytes 2 0xfff))
      ({ up with parts := [(63, { state := .active, jobIds := 3 })], fab := { up.fab with windows := [(4095, { job := 9, rd := true, wr := true, atom := true, ctx := 255, part := 62, base := 0, length := 4096, region := 1 })] } })),
      0, 63, 4095, (cmdOf 0x605 63 (leBytes 2 0xfff)),
      (by intro w h; cases h; decide +kernel), by decide +kernel⟩,
    ⟨(taking 0 (cmdOf 0x606 255 (leBytes 1 0x10b))
      ({ up with fab := { up.fab with ports := [(11, { link := true, enabled := true, flitsTx := { val := 5 } })] } })), 0,
      11, (cmdOf 0x606 255 (leBytes 1 0x10b)),
      by decide +kernel⟩,
    ⟨{ up with fab := { up.fab with ports := [(11, { link := true, enabled := true })] } }, 11, false,
      by decide +kernel⟩,
    ⟨{ up with fab := { up.fab with ports := [(11, { link := true, enabled := true })] } }, 11, true,
      by decide +kernel⟩⟩

theorem test_witness_RequestIssue :
    (∃ (d : FabDesc),
      (descLenOk d = true) ∧ (d.req.dst < 65536) ∧ (d.req.job < 16777216) ∧ (d.ctx = none) ∧ (d.req.length = 0) ∧ (accumulates
        d.op = false))
    ∧ (∃ (s : State) (d : FabDesc),
      (descLenOk d = true) ∧ (d.req.dst < 65536) ∧ (d.req.job < 16777216) ∧ (d.ctx = none) ∧ (d.req.length ≠ 0) ∧ (fabAligned
        d.op d.req.addr d.req.length = true) ∧ (¬ (accumulates d.op = true ∧ otherDomain s d.req.dst = true)) ∧ (tagWaits s
        d.req.dst = true))
    ∧ (∃ (s : State) (d : FabDesc) (c : Nat) (r : RunningMicro) (q : StepRun) (k : MicroRun) (st : _),
      (descLenOk d = true) ∧ (d.req.dst < 65536) ∧ (d.req.job < 16777216) ∧ (d.ctx = some c) ∧ (isMover d.mover = true) ∧
        (lentOf s c d.micro = some r) ∧ (d.mover ∈ r.units) ∧ (working s d.mover = true) ∧ ((ctxOf s c).step = some q) ∧
        (tabFind? q.micros d.micro = some k) ∧ (k.status = .success) ∧ (d.op ≠ .load) ∧ (d.op ≠ .get) ∧ (returnsOld d.op =
        false) ∧ (d.req.length ≠ 0 ∨ accumulates d.op = true) ∧ ((fabAligned d.op d.req.addr d.req.length = false ∧ st =
        Status.badField) ∨ (fabAligned d.op d.req.addr d.req.length = true ∧ accumulates d.op = true ∧ otherDomain s d.req.dst
        = true ∧ st = Status.notPermitted) ∨ (fabAligned d.op d.req.addr d.req.length = true ∧ ¬ (accumulates d.op = true ∧
        otherDomain s d.req.dst = true) ∧ d.req.job ∉ (partOf s (ctxOf s c).part).jobs ∧ st = Status.notPermitted)))
    ∧ (∃ (s : State) (d : FabDesc) (c : Nat) (r : RunningMicro) (q : StepRun) (k : MicroRun),
      (descLenOk d = true) ∧ (d.req.dst < 65536) ∧ (d.req.job < 16777216) ∧ (d.ctx = some c) ∧ (isMover d.mover = true) ∧
        (lentOf s c d.micro = some r) ∧ (d.mover ∈ r.units) ∧ (working s d.mover = true) ∧ ((ctxOf s c).step = some q) ∧
        (tabFind? q.micros d.micro = some k) ∧ (k.status = .success) ∧ (d.op ≠ .load) ∧ (d.op ≠ .get) ∧ (returnsOld d.op =
        false) ∧ (fabAligned d.op d.req.addr d.req.length = true) ∧ (¬ (accumulates d.op = true ∧ otherDomain s d.req.dst =
        true)) ∧ (d.req.length ≠ 0) ∧ (d.req.job ∈ (partOf s (ctxOf s c).part).jobs) ∧ (tagWaits s d.req.dst = false) ∧
        (accumulates d.op = false ∨ (earlierTags s c d.micro d.req.dst).length ≤ tabGet (microOf s c d.micro).accNext
        d.req.dst 0))
    ∧ (∃ (s : State) (d : FabDesc) (c : Nat) (r : RunningMicro) (q : StepRun) (k : MicroRun) (tg : Nat) (y : TagRec),
      (descLenOk d = true) ∧ (d.req.dst < 65536) ∧ (d.req.job < 16777216) ∧ (d.ctx = some c) ∧ (isMover d.mover = true) ∧
        (lentOf s c d.micro = some r) ∧ (d.mover ∈ r.units) ∧ (working s d.mover = true) ∧ ((ctxOf s c).step = some q) ∧
        (tabFind? q.micros d.micro = some k) ∧ (k.status = .success) ∧ (d.op ≠ .load) ∧ (d.op ≠ .get) ∧ (returnsOld d.op =
        false) ∧ (fabAligned d.op d.req.addr d.req.length = true) ∧ (¬ (accumulates d.op = true ∧ otherDomain s d.req.dst =
        true)) ∧ (d.req.length ≠ 0) ∧ (d.req.job ∈ (partOf s (ctxOf s c).part).jobs) ∧ (tagWaits s d.req.dst = false) ∧
        (accumulates d.op = true) ∧ ((earlierTags s c d.micro d.req.dst)[tabGet (microOf s c d.micro).accNext d.req.dst 0]? =
        some tg) ∧ (tagOf s d.req.dst tg = some y) ∧ (y.state = .resolved) ∧ (y.status = .success)) :=
  ⟨⟨{ ctx := none, micro := 2, mover := 0xE0, op := .store, req := { job := 5, dst := 64, addr := 3, length := 0 }, combinable := false, retPlace := .hdm, retAddr := 0 },
      by decide +kernel⟩,
    ⟨up,
      { ctx := none, micro := 2, mover := 0xE0, op := .add, req := { job := 5, dst := 65535, addr := 8, length := 8 }, combinable := false, retPlace := .hdm, retAddr := 0 },
      by decide +kernel⟩,
    ⟨{ up with parts := [(63, { state := .active, jobIds := 3, jobs := [5] })], fab := { up.fab with device := 65, started := true, ports := [(11, { link := true, enabled := true }), (0, { link := true, enabled := true })] }, grd := { up.grd with units := [(0xE0, { holder := .lent 255 2, owner := 255 })] }, tts := { up.tts with lent := [{ ctx := 255, micro := 2, units := [0xE0], bound := 100, launch := 5, dusk := 0, snap := [] }] }, srv := { up.srv with ctxs := [(255, { part := 63, state := .running, step := some { micros := [(2, { phase := .running })] }, acc := (0, []) })] } },
      { ctx := some 255, micro := 2, mover := 0xE0, op := .store, req := { job := 5, dst := 64, addr := 4, length := 8 }, combinable := false, retPlace := .hdm, retAddr := 0 },
      255, { ctx := 255, micro := 2, units := [0xE0], bound := 100, launch := 5, dusk := 0, snap := [] },
      { micros := [(2, { phase := .running })] }, { phase := .running }, .badField,
      by decide +kernel⟩,
    ⟨{ up with parts := [(63, { state := .active, jobIds := 3, jobs := [5] })], fab := { up.fab with device := 65, started := true, ports := [(11, { link := true, enabled := true }), (0, { link := true, enabled := true })] }, grd := { up.grd with units := [(0xE0, { holder := .lent 255 2, owner := 255 })] }, tts := { up.tts with lent := [{ ctx := 255, micro := 2, units := [0xE0], bound := 100, launch := 5, dusk := 0, snap := [] }] }, srv := { up.srv with ctxs := [(255, { part := 63, state := .running, step := some { micros := [(2, { phase := .running })] }, acc := (0, []) })] } },
      { ctx := some 255, micro := 2, mover := 0xE0, op := .put, req := { job := 5, dst := 66, addr := 0, length := 4096, data := List.replicate 4096 1, fixedRoute := true }, combinable := false, retPlace := .hdm, retAddr := 0 },
      255, { ctx := 255, micro := 2, units := [0xE0], bound := 100, launch := 5, dusk := 0, snap := [] },
      { micros := [(2, { phase := .running })] }, { phase := .running },
      by decide +kernel⟩,
    ⟨{ up with parts := [(63, { state := .active, jobIds := 3, jobs := [5] })], fab := { up.fab with device := 65, started := true, ports := [(11, { link := true, enabled := true }), (0, { link := true, enabled := true })], tags := [(tagKey 66 4294967295, { state := .resolved })] }, grd := { up.grd with units := [(0xE0, { holder := .lent 255 2, owner := 255 })] }, tts := { up.tts with lent := [{ ctx := 255, micro := 2, units := [0xE0], bound := 100, launch := 5, dusk := 0, snap := [] }] }, srv := { up.srv with ctxs := [(255, { part := 63, state := .running, step := some { micros := [(2, { phase := .running })] }, acc := (5, [(2, 66, 4294967295)]) })] } },
      { ctx := some 255, micro := 2, mover := 0xE0, op := .add, req := { job := 5, dst := 66, addr := 0, length := 8 }, combinable := false, retPlace := .hdm, retAddr := 0 },
      255, { ctx := 255, micro := 2, units := [0xE0], bound := 100, launch := 5, dusk := 0, snap := [] },
      { micros := [(2, { phase := .running })] }, { phase := .running }, 4294967295, { state := .resolved },
      by decide +kernel⟩⟩

theorem test_witness_PortChoice :
    (∃ (s : State) (r : Option Nat),
      (usablePorts s r ≠ []))
    ∧ (∃ (s : State) (r : Option Nat) (n : _),
      (n ∈ usablePorts s r) ∧ (usablePorts s r ≠ []))
    ∧ (∃ (s : State) (r : Option Nat) (a : _) (n : _),
      (∃ n ∈ usablePorts s r, n / 3 = a) ∧ (n ∈ usablePorts s r) ∧ (usablePorts s r ≠ []) ∧ (r = some a)) :=
  ⟨⟨{ up with fab := { up.fab with device := 65, started := true, ports := [(11, { link := true, enabled := true }), (0, { link := true, enabled := true })] } },
    (some 3),
      by decide +kernel⟩,
    ⟨{ up with fab := { up.fab with device := 65, started := true, ports := [(11, { link := true, enabled := true }), (0, { link := true, enabled := true })] } },
      (some 3), 11,
      by decide +kernel⟩,
    ⟨{ up with fab := { up.fab with device := 65, started := true, ports := [(11, { link := true, enabled := true }), (0, { link := true, enabled := true })] } },
      (some 3), 3, 11,
      ⟨11, by decide +kernel, by decide +kernel⟩, by decide +kernel⟩⟩

theorem test_witness_ReceiverChecks :
    (∃ (s : State) (op : FabOp) (r : FabReq),
      (reqOk op r = true) ∧ (r.dst ≠ s.fab.device))
    ∧ (∃ (s : State) (op : FabOp) (r : FabReq),
      (reqOk op r = true) ∧ (r.dst = s.fab.device) ∧ (s.fab.started = false ∨ s.mbr.member = false ∨ srcOutside s r.src =
        true))
    ∧ (∃ (s : State) (op : FabOp) (r : FabReq),
      (reqOk op r = true) ∧ (r.dst = s.fab.device) ∧ (s.fab.started = true) ∧ (s.mbr.member = true) ∧ (srcOutside s r.src =
        false) ∧ (s.tmb.state = .locked ∨ s.tmb.state = .holdover) ∧ (r.firstStamp + s.fab.lifetime < corrNow s))
    ∧ (∃ (s : State) (op : FabOp) (r : FabReq),
      (reqOk op r = true) ∧ (r.dst = s.fab.device) ∧ (s.fab.started = true) ∧ (s.mbr.member = true) ∧ (srcOutside s r.src =
        false) ∧ (¬ ((s.tmb.state = .locked ∨ s.tmb.state = .holdover) ∧ r.firstStamp + s.fab.lifetime < corrNow s)) ∧
        (r.firstStamp < s.fab.start))
    ∧ (∃ (s : State) (op : FabOp) (r : FabReq),
      (reqOk op r = true) ∧ (Reaches s r) ∧ (tagPlace s r.src r.tag = .fresh) ∧ (tabHas s.quarantine r.job = true))
    ∧ (∃ (s : State) (op : FabOp) (r : FabReq),
      (reqOk op r = true) ∧ (Reaches s r) ∧ (tagPlace s r.src r.tag = .fresh) ∧ (tabHas s.quarantine r.job = false) ∧
        (jobOnDevice s r.job = false ∨ windowFor s r.job r.addr r.length = none))
    ∧ (∃ (s : State) (op : FabOp) (r : FabReq) (w : _),
      (reqOk op r = true) ∧ (Reaches s r) ∧ (tagPlace s r.src r.tag = .fresh) ∧ (tabHas s.quarantine r.job = false) ∧
        (jobOnDevice s r.job = true) ∧ (windowFor s r.job r.addr r.length = some w) ∧ (windowAllows w op = false ∨ (isCombined
        r = true ∧ w.comb = false)))
    ∧ (∃ (s : State) (op : FabOp) (r : FabReq) (w : _),
      (reqOk op r = true) ∧ (Reaches s r) ∧ (tagPlace s r.src r.tag = .fresh) ∧ (tabHas s.quarantine r.job = false) ∧
        (jobOnDevice s r.job = true) ∧ (windowFor s r.job r.addr r.length = some w) ∧ (windowAllows w op = true) ∧ (¬
        (isCombined r = true ∧ w.comb = false)) ∧ (partHeld s w.part = true) ∧ (op ≠ .load) ∧ (op ≠ .get))
    ∧ (∃ (s : State) (op : FabOp) (r : FabReq) (w : _),
      (262144 ≤ (releaseEntries r.src r.ackFloor s).fab.entries.length) ∧ (reqOk op r = true) ∧ (Reaches s r) ∧ (tagPlace s
        r.src r.tag = .fresh) ∧ (tabHas s.quarantine r.job = false) ∧ (jobOnDevice s r.job = true) ∧ (windowFor s r.job r.addr
        r.length = some w) ∧ (windowAllows w op = true) ∧ (¬ (isCombined r = true ∧ w.comb = false)) ∧ (¬ (partHeld s w.part =
        true ∧ op ≠ .load ∧ op ≠ .get)) ∧ (accumulates op = true))
    ∧ (∃ (s : State) (op : FabOp) (r : FabReq) (w : _),
      (reqOk op r = true) ∧ (Reaches s r) ∧ (tagPlace s r.src r.tag = .fresh) ∧ (tabHas s.quarantine r.job = false) ∧
        (jobOnDevice s r.job = true) ∧ (windowFor s r.job r.addr r.length = some w) ∧ (windowAllows w op = true) ∧ (¬
        (isCombined r = true ∧ w.comb = false)) ∧ (¬ (partHeld s w.part = true ∧ op ≠ .load ∧ op ≠ .get)) ∧ (¬ (accumulates op
        = true ∧ 262144 ≤ (releaseEntries r.src r.ackFloor s).fab.entries.length)) ∧ (srcOf s r.src = none) ∧ (256 ≤
        s.fab.sources.length)) :=
  ⟨⟨{ up with parts := [(63, { state := .active, jobs := [9] })], mbr := { up.mbr with member := true, members := [1, 2] }, srv := { up.srv with ctxs := [(255, { part := 63, state := .resident, places := [{ shape := { quadrants := [1], tiles := [0], movers := [0], arrayGranules := [0], dramGb := [1] }, sizes := [(0, 2097152, 0)] }], dram := [(4194304, 1)] })] }, fab := { up.fab with device := 65, started := true, ports := [(11, { link := true, enabled := true }), (0, { link := true, enabled := true })], windows := [(4095, { job := 9, rd := true, wr := true, atom := true, ctx := 255, part := 63, base := 4096, length := 4096, region := 1, offset := 1048576 })] } },
    .store,
    { job := 9, src := 66, dst := 64, tag := 4294967295, addr := 4096, length := 8, firstStamp := 1000000000000, data := List.replicate 8 3 },
      by decide +kernel⟩,
    ⟨{ up with parts := [(63, { state := .active, jobs := [9] })], mbr := { up.mbr with member := true, members := [1, 2] }, srv := { up.srv with ctxs := [(255, { part := 63, state := .resident, places := [{ shape := { quadrants := [1], tiles := [0], movers := [0], arrayGranules := [0], dramGb := [1] }, sizes := [(0, 2097152, 0)] }], dram := [(4194304, 1)] })] }, fab := { up.fab with device := 65, started := true, ports := [(11, { link := true, enabled := true }), (0, { link := true, enabled := true })], windows := [(4095, { job := 9, rd := true, wr := true, atom := true, ctx := 255, part := 63, base := 4096, length := 4096, region := 1, offset := 1048576 })] } },
      .store,
      { job := 9, src := 67, dst := 65, tag := 4294967295, addr := 4096, length := 8, firstStamp := 1000000000000, data := List.replicate 8 3 },
      by decide +kernel⟩,
    ⟨{ up with parts := [(63, { state := .active, jobs := [9] })], mbr := { up.mbr with member := true, members := [1, 2] }, srv := { up.srv with ctxs := [(255, { part := 63, state := .resident, places := [{ shape := { quadrants := [1], tiles := [0], movers := [0], arrayGranules := [0], dramGb := [1] }, sizes := [(0, 2097152, 0)] }], dram := [(4194304, 1)] })] }, fab := { up.fab with device := 65, started := true, ports := [(11, { link := true, enabled := true }), (0, { link := true, enabled := true })], windows := [(4095, { job := 9, rd := true, wr := true, atom := true, ctx := 255, part := 63, base := 4096, length := 4096, region := 1, offset := 1048576 })] } },
      .store,
      { job := 9, src := 66, dst := 65, tag := 4294967295, addr := 4096, length := 8, firstStamp := 999992135679, data := List.replicate 8 3 },
      by decide +kernel⟩,
    ⟨{ up with parts := [(63, { state := .active, jobs := [9] })], mbr := { up.mbr with member := true, members := [1, 2] }, srv := { up.srv with ctxs := [(255, { part := 63, state := .resident, places := [{ shape := { quadrants := [1], tiles := [0], movers := [0], arrayGranules := [0], dramGb := [1] }, sizes := [(0, 2097152, 0)] }], dram := [(4194304, 1)] })] }, fab := { up.fab with device := 65, started := true, ports := [(11, { link := true, enabled := true }), (0, { link := true, enabled := true })], windows := [(4095, { job := 9, rd := true, wr := true, atom := true, ctx := 255, part := 63, base := 4096, length := 4096, region := 1, offset := 1048576 })], start := 999992135681 } },
      .store,
      { job := 9, src := 66, dst := 65, tag := 4294967295, addr := 4096, length := 8, firstStamp := 999992135680, data := List.replicate 8 3 },
      by decide +kernel⟩,
    ⟨{ up with parts := [(63, { state := .active, jobs := [9] })], mbr := { up.mbr with member := true, members := [1, 2] }, srv := { up.srv with ctxs := [(255, { part := 63, state := .resident, places := [{ shape := { quadrants := [1], tiles := [0], movers := [0], arrayGranules := [0], dramGb := [1] }, sizes := [(0, 2097152, 0)] }], dram := [(4194304, 1)] })] }, fab := { up.fab with device := 65, started := true, ports := [(11, { link := true, enabled := true }), (0, { link := true, enabled := true })], windows := [(4095, { job := 9, rd := true, wr := true, atom := true, ctx := 255, part := 63, base := 4096, length := 4096, region := 1, offset := 1048576 })] }, quarantine := [(9, 4)] },
      .store,
      { job := 9, src := 66, dst := 65, tag := 4294967295, addr := 4096, length := 8, firstStamp := 1000000000000, data := List.replicate 8 3 },
      by decide +kernel⟩,
    ⟨{ up with parts := [(63, { state := .active, jobs := [9] })], mbr := { up.mbr with member := true, members := [1, 2] }, srv := { up.srv with ctxs := [(255, { part := 63, state := .resident, places := [{ shape := { quadrants := [1], tiles := [0], movers := [0], arrayGranules := [0], dramGb := [1] }, sizes := [(0, 2097152, 0)] }], dram := [(4194304, 1)] })] }, fab := { up.fab with device := 65, started := true, ports := [(11, { link := true, enabled := true }), (0, { link := true, enabled := true })], windows := [(4095, { job := 9, rd := true, wr := true, atom := true, ctx := 255, part := 63, base := 4096, length := 4096, region := 1, offset := 1048576 })] } },
      .store,
      { job := 9, src := 66, dst := 65, tag := 4294967295, addr := 8192, length := 8, firstStamp := 1000000000000, data := List.replicate 8 3 },
      by decide +kernel⟩,
    ⟨{ up with parts := [(63, { state := .active, jobs := [9] })], mbr := { up.mbr with member := true, members := [1, 2] }, srv := { up.srv with ctxs := [(255, { part := 63, state := .resident, places := [{ shape := { quadrants := [1], tiles := [0], movers := [0], arrayGranules := [0], dramGb := [1] }, sizes := [(0, 2097152, 0)] }], dram := [(4194304, 1)] })] }, fab := { up.fab with device := 65, started := true, ports := [(11, { link := true, enabled := true }), (0, { link := true, enabled := true })], windows := [(4095, { job := 9, rd := true, wr := true, atom := false, ctx := 255, part := 63, base := 4096, length := 4096, region := 1, offset := 1048576 })] } },
      .add, { job := 9, src := 66, dst := 65, tag := 4294967295, addr := 4096, length := 8, firstStamp := 1000000000000 },
      { job := 9, rd := true, wr := true, atom := false, ctx := 255, part := 63, base := 4096, length := 4096, region := 1, offset := 1048576 },
      by decide +kernel⟩,
    ⟨{ up with parts := [(63, { state := .frozen, jobs := [9] })], mbr := { up.mbr with member := true, members := [1, 2] }, srv := { up.srv with ctxs := [(255, { part := 63, state := .resident, places := [{ shape := { quadrants := [1], tiles := [0], movers := [0], arrayGranules := [0], dramGb := [1] }, sizes := [(0, 2097152, 0)] }], dram := [(4194304, 1)] })] }, fab := { up.fab with device := 65, started := true, ports := [(11, { link := true, enabled := true }), (0, { link := true, enabled := true })], windows := [(4095, { job := 9, rd := true, wr := true, atom := true, ctx := 255, part := 63, base := 4096, length := 4096, region := 1, offset := 1048576 })] } },
      .store,
      { job := 9, src := 66, dst := 65, tag := 4294967295, addr := 4096, length := 8, firstStamp := 1000000000000, data := List.replicate 8 3 },
      { job := 9, rd := true, wr := true, atom := true, ctx := 255, part := 63, base := 4096, length := 4096, region := 1, offset := 1048576 },
      by decide +kernel⟩,
    ⟨{ up with parts := [(63, { state := .active, jobs := [9] })], mbr := { up.mbr with member := true, members := [1, 2] }, srv := { up.srv with ctxs := [(255, { part := 63, state := .resident, places := [{ shape := { quadrants := [1], tiles := [0], movers := [0], arrayGranules := [0], dramGb := [1] }, sizes := [(0, 2097152, 0)] }], dram := [(4194304, 1)] })] }, fab := { up.fab with device := 65, started := true, ports := [(11, { link := true, enabled := true }), (0, { link := true, enabled := true })], windows := [(4095, { job := 9, rd := true, wr := true, atom := true, ctx := 255, part := 63, base := 4096, length := 4096, region := 1, offset := 1048576 })], entries := List.replicate 262144 (0, {}) } },
      .reduceAdd,
      { job := 9, src := 66, dst := 65, tag := 4294967295, addr := 4096, length := 4096, firstStamp := 1000000000000, data := List.replicate 4096 3 },
      { job := 9, rd := true, wr := true, atom := true, ctx := 255, part := 63, base := 4096, length := 4096, region := 1, offset := 1048576 },
      full_ledger _ _ _ rfl (by decide), by decide +kernel⟩,
    ⟨{ up with parts := [(63, { state := .active, jobs := [9] })], mbr := { up.mbr with member := true, members := [1, 2] }, srv := { up.srv with ctxs := [(255, { part := 63, state := .resident, places := [{ shape := { quadrants := [1], tiles := [0], movers := [0], arrayGranules := [0], dramGb := [1] }, sizes := [(0, 2097152, 0)] }], dram := [(4194304, 1)] })] }, fab := { up.fab with device := 65, started := true, ports := [(11, { link := true, enabled := true }), (0, { link := true, enabled := true })], windows := [(4095, { job := 9, rd := true, wr := true, atom := true, ctx := 255, part := 63, base := 4096, length := 4096, region := 1, offset := 1048576 })], sources := (List.range 256).map (fun i => (1000 + i, {})) } },
      .store,
      { job := 9, src := 66, dst := 65, tag := 4294967295, addr := 4096, length := 8, firstStamp := 1000000000000, data := List.replicate 8 3 },
      { job := 9, rd := true, wr := true, atom := true, ctx := 255, part := 63, base := 4096, length := 4096, region := 1, offset := 1048576 },
      by decide +kernel⟩⟩

theorem test_witness_AppliedRequests :
    (∃ (s : State) (r : FabReq) (w : FabWindow),
      (Applies s .load r w))
    ∧ (∃ (s : State) (r : FabReq) (w : FabWindow),
      (Applies s .get r w))
    ∧ (∃ (s : State) (r : FabReq) (w : FabWindow),
      (Applies s .store r w))
    ∧ (∃ (s : State) (r : FabReq) (w : FabWindow),
      (Applies s .put r w))
    ∧ (∃ (s : State) (r : FabReq) (w : FabWindow),
      (Applies s .reduceAdd r w))
    ∧ (∃ (s : State) (r : FabReq) (w : FabWindow),
      (Applies s .add r w))
    ∧ (∃ (s : State) (r : FabReq) (w : FabWindow),
      (Applies s .and r w))
    ∧ (∃ (s : State) (r : FabReq) (w : FabWindow),
      (Applies s .or r w))
    ∧ (∃ (s : State) (r : FabReq) (w : FabWindow),
      (Applies s .xor r w))
    ∧ (∃ (s : State) (r : FabReq) (w : FabWindow),
      (Applies s .addR r w))
    ∧ (∃ (s : State) (r : FabReq) (w : FabWindow),
      (Applies s .andR r w))
    ∧ (∃ (s : State) (r : FabReq) (w : FabWindow),
      (Applies s .orR r w))
    ∧ (∃ (s : State) (r : FabReq) (w : FabWindow),
      (Applies s .xorR r w))
    ∧ (∃ (s : State) (r : FabReq) (w : FabWindow),
      (Applies s .xchg r w))
    ∧ (∃ (s : State) (r : FabReq) (w : FabWindow),
      (Applies s .cas r w))
    ∧ (∃ (s : State) (r : FabReq) (w : FabWindow),
      (Applies s .faddF32 r w))
    ∧ (∃ (s : State) (r : FabReq) (w : FabWindow),
      (Applies s .faddB16 r w))
    ∧ (∃ (s : State) (r : FabReq) (w : FabWindow),
      (Applies s .faddRF32 r w))
    ∧ (∃ (s : State) (r : FabReq) (w : FabWindow),
      (Applies s .faddRB16 r w)) :=
  ⟨⟨applying, (reqOf 8 0 []), appliedWindow,
      by decide +kernel⟩,
    ⟨applying, (reqOf 64 0 []), appliedWindow,
      by decide +kernel⟩,
    ⟨applying, (reqOf 2 0 [255, 3]), appliedWindow,
      by decide +kernel⟩,
    ⟨applying, (reqOf 64 0 ((List.range 64).map (fun i => BitVec.ofNat 8 (7 * i)))), appliedWindow,
      by decide +kernel⟩,
    ⟨applying, (reqOf 64 0 ((List.replicate 16 [0, 0, 128, 63]).flatten)), appliedWindow,
      by decide +kernel⟩,
    ⟨applying, (reqOf 8 18446744073709551615 []), appliedWindow,
      by decide +kernel⟩,
    ⟨applying, (reqOf 4 4042322160 []), appliedWindow,
      by decide +kernel⟩,
    ⟨applying, (reqOf 8 9223372036854775808 []), appliedWindow,
      by decide +kernel⟩,
    ⟨applying, (reqOf 4 4294967295 []), appliedWindow,
      by decide +kernel⟩,
    ⟨applying, (reqOf 8 18446744073709551615 []), appliedWindow,
      by decide +kernel⟩,
    ⟨applying, (reqOf 8 7 []), appliedWindow,
      by decide +kernel⟩,
    ⟨applying, (reqOf 4 2147483648 []), appliedWindow,
      by decide +kernel⟩,
    ⟨applying, (reqOf 8 18446744073709551615 []), appliedWindow,
      by decide +kernel⟩,
    ⟨applying, (reqOf 4 5 []), appliedWindow,
      by decide +kernel⟩,
    ⟨applying, (reqOf 8 578437695752307201 []), appliedWindow,
      by decide +kernel⟩,
    ⟨applying, (reqOf 4 1065353216 []), appliedWindow,
      by decide +kernel⟩,
    ⟨applying, (reqOf 2 16256 []), appliedWindow,
      by decide +kernel⟩,
    ⟨applying, (reqOf 4 2139095040 []), appliedWindow,
      by decide +kernel⟩,
    ⟨applying, (reqOf 2 65408 []), appliedWindow,
      by decide +kernel⟩⟩

theorem test_witness_DuplicatesAndLedger :
    (∃ (s : State) (op : FabOp) (r : FabReq),
      (reqOk op r = true) ∧ (Reaches s r) ∧ (op ≠ .load) ∧ (op ≠ .get) ∧ (tagPlace s r.src r.tag = .applied) ∧ (accumulates op
        = false))
    ∧ (∃ (s : State) (op : FabOp) (r : FabReq) (e : _),
      (reqOk op r = true) ∧ (Reaches s r) ∧ (op ≠ .load) ∧ (op ≠ .get) ∧ (tagPlace s r.src r.tag = .applied) ∧ (accumulates op
        = true) ∧ (entryOf (releaseEntries r.src r.ackFloor s) r.src r.tag = some e))
    ∧ (∃ (s : State) (op : FabOp) (r : FabReq),
      (reqOk op r = true) ∧ (Reaches s r) ∧ (op ≠ .load) ∧ (op ≠ .get) ∧ (tagPlace s r.src r.tag = .applied) ∧ (accumulates op
        = true) ∧ (entryOf (releaseEntries r.src r.ackFloor s) r.src r.tag = none))
    ∧ (∃ (s : State) (op : FabOp) (r : FabReq),
      (reqOk op r = true) ∧ (Reaches s r) ∧ (op ≠ .load) ∧ (op ≠ .get) ∧ (tagPlace s r.src r.tag = .before))
    ∧ (∃ (s : State) (src : Nat) (x : SrcRec),
      (src < 65536) ∧ (srcOf s src = some x) ∧ (x.heard + 31457280 ≤ s.tmb.free))
    ∧ (∃ (s : State) (src : Nat) (x : SrcRec),
      (src < 65536) ∧ (srcOf s src = some x) ∧ (s.tmb.free < x.heard + 31457280))
    ∧ (∃ (s : State) (src : Nat) (tag : Nat) (e : LedgerEntry),
      (src < 65536) ∧ (tag < 4294967296) ∧ (entryOf s src tag = some e) ∧ (e.made + 31457280 ≤ s.tmb.free))
    ∧ (∃ (s : State) (src : Nat) (tag : Nat) (e : LedgerEntry),
      (src < 65536) ∧ (tag < 4294967296) ∧ (entryOf s src tag = some e) ∧ (s.tmb.free < e.made + 31457280)) :=
  ⟨⟨{ up with parts := [(63, { state := .active, jobs := [9] })], mbr := { up.mbr with member := true, members := [1, 2] }, srv := { up.srv with ctxs := [(255, { part := 63, state := .resident, places := [{ shape := { quadrants := [1], tiles := [0], movers := [0], arrayGranules := [0], dramGb := [1] }, sizes := [(0, 2097152, 0)] }], dram := [(4194304, 1)] })] }, fab := { up.fab with device := 65, started := true, ports := [(11, { link := true, enabled := true }), (0, { link := true, enabled := true })], windows := [(4095, { job := 9, rd := true, wr := true, atom := true, ctx := 255, part := 63, base := 4096, length := 4096, region := 1, offset := 1048576 })], sources := [(66, { high := 4294967295, applied := [4294967295] })] } },
    .store,
    { job := 9, src := 66, dst := 65, tag := 4294967295, addr := 4096, length := 8, firstStamp := 1000000000000, data := List.replicate 8 3 },
      by decide +kernel⟩,
    ⟨{ up with parts := [(63, { state := .active, jobs := [9] })], mbr := { up.mbr with member := true, members := [1, 2] }, srv := { up.srv with ctxs := [(255, { part := 63, state := .resident, places := [{ shape := { quadrants := [1], tiles := [0], movers := [0], arrayGranules := [0], dramGb := [1] }, sizes := [(0, 2097152, 0)] }], dram := [(4194304, 1)] })] }, fab := { up.fab with device := 65, started := true, ports := [(11, { link := true, enabled := true }), (0, { link := true, enabled := true })], windows := [(4095, { job := 9, rd := true, wr := true, atom := true, ctx := 255, part := 63, base := 4096, length := 4096, region := 1, offset := 1048576 })], sources := [(66, { high := 4294967295, applied := [4294967295] })], entries := [(tagKey 66 4294967295, { made := 5, result := 77 })] } },
      .add,
      { job := 9, src := 66, dst := 65, tag := 4294967295, addr := 4096, length := 8, firstStamp := 1000000000000, ackFloor := 4294967295 },
      { made := 5, result := 77 },
      by decide +kernel⟩,
    ⟨{ up with parts := [(63, { state := .active, jobs := [9] })], mbr := { up.mbr with member := true, members := [1, 2] }, srv := { up.srv with ctxs := [(255, { part := 63, state := .resident, places := [{ shape := { quadrants := [1], tiles := [0], movers := [0], arrayGranules := [0], dramGb := [1] }, sizes := [(0, 2097152, 0)] }], dram := [(4194304, 1)] })] }, fab := { up.fab with device := 65, started := true, ports := [(11, { link := true, enabled := true }), (0, { link := true, enabled := true })], windows := [(4095, { job := 9, rd := true, wr := true, atom := true, ctx := 255, part := 63, base := 4096, length := 4096, region := 1, offset := 1048576 })], sources := [(66, { high := 4294967295, applied := [4294967295] })] } },
      .add, { job := 9, src := 66, dst := 65, tag := 4294967295, addr := 4096, length := 8, firstStamp := 1000000000000 },
      by decide +kernel⟩,
    ⟨{ up with parts := [(63, { state := .active, jobs := [9] })], mbr := { up.mbr with member := true, members := [1, 2] }, srv := { up.srv with ctxs := [(255, { part := 63, state := .resident, places := [{ shape := { quadrants := [1], tiles := [0], movers := [0], arrayGranules := [0], dramGb := [1] }, sizes := [(0, 2097152, 0)] }], dram := [(4194304, 1)] })] }, fab := { up.fab with device := 65, started := true, ports := [(11, { link := true, enabled := true }), (0, { link := true, enabled := true })], windows := [(4095, { job := 9, rd := true, wr := true, atom := true, ctx := 255, part := 63, base := 4096, length := 4096, region := 1, offset := 1048576 })], sources := [(66, { high := 65541, applied := [65541] })] } },
      .store,
      { job := 9, src := 66, dst := 65, tag := 5, addr := 4096, length := 8, firstStamp := 1000000000000, data := List.replicate 8 3 },
      by decide +kernel⟩,
    ⟨{ up with fab := { up.fab with device := 65, started := true, ports := [(11, { link := true, enabled := true }), (0, { link := true, enabled := true })], sources := [(65535, { heard := 999968542720 })] } },
      65535, { heard := 999968542720 },
      by decide +kernel⟩,
    ⟨{ up with fab := { up.fab with device := 65, started := true, ports := [(11, { link := true, enabled := true }), (0, { link := true, enabled := true })], sources := [(65535, { heard := 999968542721 })] } },
      65535, { heard := 999968542721 },
      by decide +kernel⟩,
    ⟨{ up with fab := { up.fab with device := 65, started := true, ports := [(11, { link := true, enabled := true }), (0, { link := true, enabled := true })], entries := [(tagKey 65535 4294967295, { made := 999968542720 })] } },
      65535, 4294967295, { made := 999968542720 },
      by decide +kernel⟩,
    ⟨{ up with fab := { up.fab with device := 65, started := true, ports := [(11, { link := true, enabled := true }), (0, { link := true, enabled := true })], entries := [(tagKey 65535 4294967295, { made := 999968542721 })] } },
      65535, 4294967295, { made := 999968542721 },
      by decide +kernel⟩⟩

theorem test_witness_TagStates :
    (∃ (s : State) (r : FabReply) (x : TagRec) (st : Status),
      (∀ n, x.origin ≠ .barrier n) ∧ ((statusOf r.status).isSome = true) ∧ (r.tag < 4294967296) ∧ (r.dst = s.fab.device) ∧
        (tagOf s r.src r.tag = some x) ∧ (statusOf r.status = some st) ∧ (x.state = .issued) ∧ (st ≠ .busy))
    ∧ (∃ (s : State) (r : FabReply) (x : TagRec) (st : Status),
      ((statusOf r.status).isSome = true) ∧ (r.tag < 4294967296) ∧ (r.dst = s.fab.device) ∧ (tagOf s r.src r.tag = some x) ∧
        (statusOf r.status = some st) ∧ (x.state ≠ .issued ∨ st = .busy))
    ∧ (∃ (s : State) (r : FabReply) (k : Nat) (x : TagRec) (st : Status),
      (∀ n, x.origin ≠ .barrier n) ∧ ((statusOf r.status).isSome = true) ∧ (r.tag < 4294967296) ∧ (r.dst = s.fab.device) ∧
        (tagOf s r.src r.tag = none) ∧ (r.combined = true) ∧ (s.fab.tags = [(k, x)]) ∧ (k % 4294967296 = r.tag) ∧ (x.state =
        .issued) ∧ (x.req.combined = true) ∧ (statusOf r.status = some st) ∧ (st ≠ .busy))
    ∧ (∃ (s : State) (r : FabReply),
      ((statusOf r.status).isSome = true) ∧ (r.tag < 4294967296) ∧ (r.dst ≠ s.fab.device ∨ (tagOf s r.src r.tag = none ∧
        r.combined = false ∧ r.src ≠ s.fab.gateway)))
    ∧ (∃ (s : State) (dst : Nat) (tag : Nat) (x : TagRec),
      (∀ n, x.origin ≠ .barrier n) ∧ (dst < 65536) ∧ (tag < 4294967296) ∧ (tagOf s dst tag = some x) ∧ (x.state = .issued) ∧
        (originResets s x.origin = false) ∧ (x.lastTx + replyWait s dst ≤ s.tmb.free) ∧ (x.attempt < 8))
    ∧ (∃ (s : State) (dst : Nat) (tag : Nat) (x : TagRec),
      (∀ n, x.origin ≠ .barrier n) ∧ (dst < 65536) ∧ (tag < 4294967296) ∧ (tagOf s dst tag = some x) ∧ (x.state = .issued) ∧
        (originResets s x.origin = false) ∧ (x.lastTx + replyWait s dst ≤ s.tmb.free) ∧ (8 ≤ x.attempt))
    ∧ (∃ (s : State) (dst : Nat) (tag : Nat) (x : TagRec),
      (∀ n, x.origin ≠ .barrier n) ∧ (dst < 65536) ∧ (tag < 4294967296) ∧ (tagOf s dst tag = some x) ∧ (x.state = .issued) ∧
        (originResets s x.origin = false) ∧ (s.tmb.free < x.lastTx + replyWait s dst))
    ∧ (∃ (s : State) (dst : Nat) (tag : Nat) (x : TagRec),
      (dst < 65536) ∧ (tag < 4294967296) ∧ (tagOf s dst tag = some x) ∧ (x.state = .abandoned) ∧ (x.req.firstStamp +
        s.fab.lifetime < corrNow s))
    ∧ (∃ (s : State) (dst : Nat) (tag : Nat) (x : TagRec),
      (dst < 65536) ∧ (tag < 4294967296) ∧ (tagOf s dst tag = some x) ∧ (x.state = .abandoned) ∧ (corrNow s ≤ x.req.firstStamp
        + s.fab.lifetime))
    ∧ (∃ (s : State) (c : Nat) (o : FabOrigin) (d : FabDesc),
      (c < 256) ∧ (s.fab.issueWait = [(o, d)]) ∧ (d.ctx = some c) ∧ (accumulates d.op = false) ∧ (tagWaits s d.req.dst =
        false))
    ∧ (∃ (s : State) (c : Nat) (o : FabOrigin) (d : FabDesc),
      (c < 256) ∧ (s.fab.issueWait = [(o, d)]) ∧ (d.ctx = some c) ∧ (accumulates d.op = false) ∧ (tagWaits s d.req.dst =
        true)) :=
  ⟨⟨{ up with parts := [(63, { state := .active, jobIds := 3, jobs := [5] })], fab := { up.fab with device := 65, started := true, ports := [(11, { link := true, enabled := true }), (0, { link := true, enabled := true })], tags := [(tagKey 66 4294967295, { origin := .micro 255 2 0xE0, op := .get, retPlace := .hdm, retAddr := 1048576, req := { job := 9, dst := 66, tag := 4294967295, length := 64, firstStamp := 1000000000000 } })] }, grd := { up.grd with units := [(0xE0, { holder := .lent 255 2, owner := 255 })] }, tts := { up.tts with lent := [{ ctx := 255, micro := 2, units := [0xE0], bound := 100, launch := 5, dusk := 0, snap := [] }] }, srv := { up.srv with ctxs := [(255, { part := 63, state := .running, step := some { micros := [(2, { phase := .running })] }, acc := (0, []) })] } },
    { combined := false, dup := false, attempt := 8, status := 0, src := 66, dst := 65, tag := 4294967295, result := 0, data := List.replicate 64 9 },
    { origin := .micro 255 2 0xE0, op := .get, retPlace := .hdm, retAddr := 1048576, req := { job := 9, dst := 66, tag := 4294967295, length := 64, firstStamp := 1000000000000 } },
    .success,
      (by intro n h; cases h), by decide +kernel⟩,
    ⟨{ up with parts := [(63, { state := .active, jobIds := 3, jobs := [5] })], fab := { up.fab with device := 65, started := true, ports := [(11, { link := true, enabled := true }), (0, { link := true, enabled := true })], tags := [(tagKey 66 4294967295, { origin := .micro 255 2 0xE0, op := .get, retPlace := .hdm, retAddr := 1048576, req := { job := 9, dst := 66, tag := 4294967295, length := 64, firstStamp := 1000000000000 }, state := .abandoned })] }, grd := { up.grd with units := [(0xE0, { holder := .lent 255 2, owner := 255 })] }, tts := { up.tts with lent := [{ ctx := 255, micro := 2, units := [0xE0], bound := 100, launch := 5, dusk := 0, snap := [] }] }, srv := { up.srv with ctxs := [(255, { part := 63, state := .running, step := some { micros := [(2, { phase := .running })] }, acc := (0, []) })] } },
      { combined := false, dup := false, attempt := 8, status := 0, src := 66, dst := 65, tag := 4294967295, result := 0, data := List.replicate 64 9 },
      { origin := .micro 255 2 0xE0, op := .get, retPlace := .hdm, retAddr := 1048576, req := { job := 9, dst := 66, tag := 4294967295, length := 64, firstStamp := 1000000000000 }, state := .abandoned },
      .success,
      by decide +kernel⟩,
    ⟨{ up with parts := [(63, { state := .active, jobIds := 3, jobs := [5] })], fab := { up.fab with device := 65, started := true, ports := [(11, { link := true, enabled := true }), (0, { link := true, enabled := true })], tags := [(tagKey 0x4001 4294967295, { origin := .micro 255 2 0xE0, op := .get, retPlace := .hdm, retAddr := 1048576, req := { job := 9, dst := 66, tag := 4294967295, length := 64, combined := true, firstStamp := 1000000000000 } })] }, grd := { up.grd with units := [(0xE0, { holder := .lent 255 2, owner := 255 })] }, tts := { up.tts with lent := [{ ctx := 255, micro := 2, units := [0xE0], bound := 100, launch := 5, dusk := 0, snap := [] }] }, srv := { up.srv with ctxs := [(255, { part := 63, state := .running, step := some { micros := [(2, { phase := .running })] }, acc := (0, []) })] } },
      { combined := true, dup := false, attempt := 8, status := 0, src := 66, dst := 65, tag := 4294967295, result := 0, data := List.replicate 64 9 },
      (tagKey 0x4001 4294967295),
      { origin := .micro 255 2 0xE0, op := .get, retPlace := .hdm, retAddr := 1048576, req := { job := 9, dst := 66, tag := 4294967295, length := 64, combined := true, firstStamp := 1000000000000 } },
      .success,
      (by intro n h; cases h), by decide +kernel⟩,
    ⟨{ up with parts := [(63, { state := .active, jobIds := 3, jobs := [5] })], fab := { up.fab with device := 65, started := true, ports := [(11, { link := true, enabled := true }), (0, { link := true, enabled := true })], tags := [(tagKey 66 4294967295, { origin := .micro 255 2 0xE0, op := .get, retPlace := .hdm, retAddr := 1048576, req := { job := 9, dst := 66, tag := 4294967295, length := 64, firstStamp := 1000000000000 } })] }, grd := { up.grd with units := [(0xE0, { holder := .lent 255 2, owner := 255 })] }, tts := { up.tts with lent := [{ ctx := 255, micro := 2, units := [0xE0], bound := 100, launch := 5, dusk := 0, snap := [] }] }, srv := { up.srv with ctxs := [(255, { part := 63, state := .running, step := some { micros := [(2, { phase := .running })] }, acc := (0, []) })] } },
      { combined := false, dup := false, attempt := 8, status := 0, src := 66, dst := 64, tag := 4294967295, result := 0, data := List.replicate 64 9 },
      by decide +kernel⟩,
    ⟨{ up with parts := [(63, { state := .active, jobIds := 3, jobs := [5] })], fab := { up.fab with device := 65, started := true, ports := [(11, { link := true, enabled := true }), (0, { link := true, enabled := true })], tags := [(tagKey 66 4294967295, { origin := .micro 255 2 0xE0, op := .get, retPlace := .hdm, retAddr := 1048576, req := { job := 9, dst := 66, tag := 4294967295, length := 64, firstStamp := 1000000000000 }, attempt := 7, lastTx := 999999901696 })] }, grd := { up.grd with units := [(0xE0, { holder := .lent 255 2, owner := 255 })] }, tts := { up.tts with lent := [{ ctx := 255, micro := 2, units := [0xE0], bound := 100, launch := 5, dusk := 0, snap := [] }] }, srv := { up.srv with ctxs := [(255, { part := 63, state := .running, step := some { micros := [(2, { phase := .running })] }, acc := (0, []) })] } },
      66, 4294967295,
      { origin := .micro 255 2 0xE0, op := .get, retPlace := .hdm, retAddr := 1048576, req := { job := 9, dst := 66, tag := 4294967295, length := 64, firstStamp := 1000000000000 }, attempt := 7, lastTx := 999999901696 },
      (by intro n h; cases h), by decide +kernel⟩,
    ⟨{ up with parts := [(63, { state := .active, jobIds := 3, jobs := [5] })], fab := { up.fab with device := 65, started := true, ports := [(11, { link := true, enabled := true }), (0, { link := true, enabled := true })], tags := [(tagKey 66 4294967295, { origin := .micro 255 2 0xE0, op := .get, retPlace := .hdm, retAddr := 1048576, req := { job := 9, dst := 66, tag := 4294967295, length := 64, firstStamp := 1000000000000 }, attempt := 8, lastTx := 999999901696 })] }, grd := { up.grd with units := [(0xE0, { holder := .lent 255 2, owner := 255 })] }, tts := { up.tts with lent := [{ ctx := 255, micro := 2, units := [0xE0], bound := 100, launch := 5, dusk := 0, snap := [] }] }, srv := { up.srv with ctxs := [(255, { part := 63, state := .running, step := some { micros := [(2, { phase := .running })] }, acc := (0, []) })] } },
      66, 4294967295,
      { origin := .micro 255 2 0xE0, op := .get, retPlace := .hdm, retAddr := 1048576, req := { job := 9, dst := 66, tag := 4294967295, length := 64, firstStamp := 1000000000000 }, attempt := 8, lastTx := 999999901696 },
      (by intro n h; cases h), by decide +kernel⟩,
    ⟨{ up with parts := [(63, { state := .active, jobIds := 3, jobs := [5] })], fab := { up.fab with device := 65, started := true, ports := [(11, { link := true, enabled := true }), (0, { link := true, enabled := true })], tags := [(tagKey 66 4294967295, { origin := .micro 255 2 0xE0, op := .get, retPlace := .hdm, retAddr := 1048576, req := { job := 9, dst := 66, tag := 4294967295, length := 64, firstStamp := 1000000000000 }, attempt := 8, lastTx := 999999901697 })] }, grd := { up.grd with units := [(0xE0, { holder := .lent 255 2, owner := 255 })] }, tts := { up.tts with lent := [{ ctx := 255, micro := 2, units := [0xE0], bound := 100, launch := 5, dusk := 0, snap := [] }] }, srv := { up.srv with ctxs := [(255, { part := 63, state := .running, step := some { micros := [(2, { phase := .running })] }, acc := (0, []) })] } },
      66, 4294967295,
      { origin := .micro 255 2 0xE0, op := .get, retPlace := .hdm, retAddr := 1048576, req := { job := 9, dst := 66, tag := 4294967295, length := 64, firstStamp := 1000000000000 }, attempt := 8, lastTx := 999999901697 },
      (by intro n h; cases h), by decide +kernel⟩,
    ⟨{ up with parts := [(63, { state := .active, jobIds := 3, jobs := [5] })], fab := { up.fab with device := 65, started := true, ports := [(11, { link := true, enabled := true }), (0, { link := true, enabled := true })], tags := [(tagKey 66 4294967295, { origin := .micro 255 2 0xE0, op := .get, retPlace := .hdm, retAddr := 1048576, req := { job := 9, dst := 66, tag := 4294967295, length := 64, firstStamp := 999992135679 }, state := .abandoned })] }, grd := { up.grd with units := [(0xE0, { holder := .lent 255 2, owner := 255 })] }, tts := { up.tts with lent := [{ ctx := 255, micro := 2, units := [0xE0], bound := 100, launch := 5, dusk := 0, snap := [] }] }, srv := { up.srv with ctxs := [(255, { part := 63, state := .running, step := some { micros := [(2, { phase := .running })] }, acc := (0, []) })] } },
      66, 4294967295,
      { origin := .micro 255 2 0xE0, op := .get, retPlace := .hdm, retAddr := 1048576, req := { job := 9, dst := 66, tag := 4294967295, length := 64, firstStamp := 999992135679 }, state := .abandoned },
      by decide +kernel⟩,
    ⟨{ up with parts := [(63, { state := .active, jobIds := 3, jobs := [5] })], fab := { up.fab with device := 65, started := true, ports := [(11, { link := true, enabled := true }), (0, { link := true, enabled := true })], tags := [(tagKey 66 4294967295, { origin := .micro 255 2 0xE0, op := .get, retPlace := .hdm, retAddr := 1048576, req := { job := 9, dst := 66, tag := 4294967295, length := 64, firstStamp := 999992135680 }, state := .abandoned })] }, grd := { up.grd with units := [(0xE0, { holder := .lent 255 2, owner := 255 })] }, tts := { up.tts with lent := [{ ctx := 255, micro := 2, units := [0xE0], bound := 100, launch := 5, dusk := 0, snap := [] }] }, srv := { up.srv with ctxs := [(255, { part := 63, state := .running, step := some { micros := [(2, { phase := .running })] }, acc := (0, []) })] } },
      66, 4294967295,
      { origin := .micro 255 2 0xE0, op := .get, retPlace := .hdm, retAddr := 1048576, req := { job := 9, dst := 66, tag := 4294967295, length := 64, firstStamp := 999992135680 }, state := .abandoned },
      by decide +kernel⟩,
    ⟨{ up with fab := { up.fab with device := 65, started := true, ports := [(11, { link := true, enabled := true }), (0, { link := true, enabled := true })], nextTag := [(66, 65536)], tags := [(tagKey 66 0, { state := .resolved })], issueWait := [(.micro 255 2 0xE0, { ctx := some 255, micro := 2, mover := 0xE0, op := .put, req := { job := 5, dst := 66, addr := 0, length := 64 }, combinable := false, retPlace := .hdm, retAddr := 0 })] } },
      255, (.micro 255 2 0xE0),
      { ctx := some 255, micro := 2, mover := 0xE0, op := .put, req := { job := 5, dst := 66, addr := 0, length := 64 }, combinable := false, retPlace := .hdm, retAddr := 0 },
      by decide +kernel⟩,
    ⟨{ up with fab := { up.fab with device := 65, started := true, ports := [(11, { link := true, enabled := true }), (0, { link := true, enabled := true })], nextTag := [(66, 65536)], tags := [(tagKey 66 0, { state := .abandoned })], issueWait := [(.micro 255 2 0xE0, { ctx := some 255, micro := 2, mover := 0xE0, op := .put, req := { job := 5, dst := 66, addr := 0, length := 64 }, combinable := false, retPlace := .hdm, retAddr := 0 })] } },
      255, (.micro 255 2 0xE0),
      { ctx := some 255, micro := 2, mover := 0xE0, op := .put, req := { job := 5, dst := 66, addr := 0, length := 64 }, combinable := false, retPlace := .hdm, retAddr := 0 },
      by decide +kernel⟩⟩

theorem test_witness_Fences :
    (∃ (s : State) (c : Nat) (m : Nat) (u : Nat) (scope : Option Nat) (r : RunningMicro),
      (∃ k ∈ fenceTags s c scope, tagOver s k = false) ∧ (c < 256) ∧ (isMover u = true) ∧ (lentOf s c m = some r) ∧ (u ∈
        r.units) ∧ (working s u = true))
    ∧ (∃ (s : State) (c : Nat) (m : Nat) (u : Nat) (scope : Option Nat) (r : RunningMicro),
      (∀ k ∈ fenceTags s c scope, ∃ x, tabFind? s.fab.tags k = some x ∧ x.state ≠ .issued ∧ x.status = .success) ∧ (c < 256) ∧
        (isMover u = true) ∧ (lentOf s c m = some r) ∧ (u ∈ r.units) ∧ (working s u = true))
    ∧ (∃ (s : State) (c : Nat) (scope : Option Nat) (k : Nat),
      (k ∈ fenceTags s c scope))
    ∧ (∃ (s : State) (c : Nat) (f : Fence),
      (c < 256) ∧ (s.fab.fences = [f]) ∧ (f.ctx = c) ∧ (∀ k ∈ f.tags, tagOver s k = true))
    ∧ (∃ (s : State) (c : Nat) (f : Fence),
      (∃ k ∈ f.tags, tagOver s k = false) ∧ (c < 256) ∧ (s.fab.fences = [f]) ∧ (f.ctx = c)) :=
  ⟨⟨{ up with parts := [(63, { state := .active, jobIds := 3, jobs := [5] })], fab := { up.fab with device := 65, started := true, ports := [(11, { link := true, enabled := true }), (0, { link := true, enabled := true })], tags := [(tagKey 66 4294967295, { origin := .micro 255 2 0xE0, op := .put, retPlace := .hdm, retAddr := 1048576, req := { job := 9, dst := 66, tag := 4294967295, length := 64, firstStamp := 1000000000000 } })] }, grd := { up.grd with units := [(0xE0, { holder := .lent 255 2, owner := 255 })] }, tts := { up.tts with lent := [{ ctx := 255, micro := 2, units := [0xE0], bound := 100, launch := 5, dusk := 0, snap := [] }] }, srv := { up.srv with ctxs := [(255, { part := 63, state := .running, step := some { micros := [(2, { phase := .running })] }, acc := (0, []) })] } },
    255, 2, 0xE0, (some 66), { ctx := 255, micro := 2, units := [0xE0], bound := 100, launch := 5, dusk := 0, snap := [] },
      ⟨tagKey 66 4294967295, by decide +kernel, by decide +kernel⟩, by decide +kernel⟩,
    ⟨{ up with parts := [(63, { state := .active, jobIds := 3, jobs := [5] })], fab := { up.fab with device := 65, started := true, ports := [(11, { link := true, enabled := true }), (0, { link := true, enabled := true })], tags := [(tagKey 66 4294967295, { origin := .micro 255 2 0xE0, op := .put, retPlace := .hdm, retAddr := 1048576, req := { job := 9, dst := 66, tag := 4294967295, length := 64, firstStamp := 1000000000000 }, state := .resolved })] }, grd := { up.grd with units := [(0xE0, { holder := .lent 255 2, owner := 255 })] }, tts := { up.tts with lent := [{ ctx := 255, micro := 2, units := [0xE0], bound := 100, launch := 5, dusk := 0, snap := [] }] }, srv := { up.srv with ctxs := [(255, { part := 63, state := .running, step := some { micros := [(2, { phase := .running })] }, acc := (0, []) })] } },
      255, 2, 0xE0, (some 66), { ctx := 255, micro := 2, units := [0xE0], bound := 100, launch := 5, dusk := 0, snap := [] },
      fun k h =>
        ⟨{ origin := .micro 255 2 0xE0, op := .put, retPlace := .hdm, retAddr := 1048576, req := { job := 9, dst := 66, tag := 4294967295, length := 64, firstStamp := 1000000000000 }, state := .resolved },
        by fin_cases h; decide +kernel, by decide +kernel, by decide +kernel⟩, by decide +kernel⟩,
    ⟨{ up with parts := [(63, { state := .active, jobIds := 3, jobs := [5] })], fab := { up.fab with device := 65, started := true, ports := [(11, { link := true, enabled := true }), (0, { link := true, enabled := true })], tags := [(tagKey 66 4294967295, { origin := .micro 255 2 0xE0, op := .put, retPlace := .hdm, retAddr := 1048576, req := { job := 9, dst := 66, tag := 4294967295, length := 64, firstStamp := 1000000000000 } })] }, grd := { up.grd with units := [(0xE0, { holder := .lent 255 2, owner := 255 })] }, tts := { up.tts with lent := [{ ctx := 255, micro := 2, units := [0xE0], bound := 100, launch := 5, dusk := 0, snap := [] }] }, srv := { up.srv with ctxs := [(255, { part := 63, state := .running, step := some { micros := [(2, { phase := .running })] }, acc := (0, []) })] } },
      255, (some 66), (tagKey 66 4294967295),
      by decide +kernel⟩,
    ⟨{ up with parts := [(63, { state := .active, jobIds := 3, jobs := [5] })], fab := { up.fab with device := 65, started := true, ports := [(11, { link := true, enabled := true }), (0, { link := true, enabled := true })], tags := [(tagKey 66 4294967295, { origin := .micro 255 2 0xE0, op := .put, retPlace := .hdm, retAddr := 1048576, req := { job := 9, dst := 66, tag := 4294967295, length := 64, firstStamp := 1000000000000 }, state := .abandoned, status := .fabricTimeout })], fences := [{ ctx := 255, micro := 2, mover := 0xE0, tags := [tagKey 66 4294967295] }] }, grd := { up.grd with units := [(0xE0, { holder := .lent 255 2, owner := 255 })] }, tts := { up.tts with lent := [{ ctx := 255, micro := 2, units := [0xE0], bound := 100, launch := 5, dusk := 0, snap := [] }] }, srv := { up.srv with ctxs := [(255, { part := 63, state := .running, step := some { micros := [(2, { phase := .running })] }, acc := (0, []) })] } },
      255, { ctx := 255, micro := 2, mover := 0xE0, tags := [tagKey 66 4294967295] },
      by decide +kernel⟩,
    ⟨{ up with parts := [(63, { state := .active, jobIds := 3, jobs := [5] })], fab := { up.fab with device := 65, started := true, ports := [(11, { link := true, enabled := true }), (0, { link := true, enabled := true })], tags := [(tagKey 66 4294967295, { origin := .micro 255 2 0xE0, op := .put, retPlace := .hdm, retAddr := 1048576, req := { job := 9, dst := 66, tag := 4294967295, length := 64, firstStamp := 1000000000000 } })], fences := [{ ctx := 255, micro := 2, mover := 0xE0, tags := [tagKey 66 4294967295] }] }, grd := { up.grd with units := [(0xE0, { holder := .lent 255 2, owner := 255 })] }, tts := { up.tts with lent := [{ ctx := 255, micro := 2, units := [0xE0], bound := 100, launch := 5, dusk := 0, snap := [] }] }, srv := { up.srv with ctxs := [(255, { part := 63, state := .running, step := some { micros := [(2, { phase := .running })] }, acc := (0, []) })] } },
      255, { ctx := 255, micro := 2, mover := 0xE0, tags := [tagKey 66 4294967295] },
      ⟨tagKey 66 4294967295, by decide +kernel, by decide +kernel⟩, by decide +kernel⟩⟩

theorem test_witness_SyncObjects :
    (∃ (s : State) (m : Nat) (p : Nat) (type : Nat) (c : Cmd) (q : Req),
      (q = { m := m, target := targetOf m c, cmd := c }) ∧ (Due s m 0x0700 c) ∧ (targetOf m c = p) ∧ (p < 64) ∧ (type = field
        c.payload 2 1) ∧ ((type = 5 ∧ field c.payload 4 4 = 0) ∨ (type = 3 ∧ field c.payload 16 4 = 0)))
    ∧ (∃ (s : State) (m : Nat) (p : Nat) (type : Nat) (c : Cmd) (q : Req),
      (q = { m := m, target := targetOf m c, cmd := c }) ∧ (Due s m 0x0700 c) ∧ (targetOf m c = p) ∧ (p < 64) ∧ (type = field
        c.payload 2 1) ∧ (¬ ((type = 5 ∧ field c.payload 4 4 = 0) ∨ (type = 3 ∧ field c.payload 16 4 = 0))) ∧ (syncFieldsBad s
        q = true))
    ∧ (∃ (s : State) (m : Nat) (p : Nat) (n : Nat) (type : Nat) (c : Cmd) (q : Req),
      (q = { m := m, target := targetOf m c, cmd := c }) ∧ (Due s m 0x0700 c) ∧ (targetOf m c = p) ∧ (p < 64) ∧ (type = field
        c.payload 2 1) ∧ (¬ ((type = 5 ∧ field c.payload 4 4 = 0) ∨ (type = 3 ∧ field c.payload 16 4 = 0))) ∧ (syncFieldsBad s
        q = false) ∧ (if bit (field c.payload 3 1) 2 then n < 65536 ∧ (objOf s n).type = 0 ∧ ∀ k < n, (objOf s k).type ≠ 0
        else n = field c.payload 0 2 ∧ (objOf s n).type = 0) ∧ (partObjects s p < (partOf s p).syncObjects))
    ∧ (∃ (s : State) (m : Nat) (p : Nat) (n : Nat) (type : Nat) (c : Cmd) (q : Req),
      (q = { m := m, target := targetOf m c, cmd := c }) ∧ (Due s m 0x0700 c) ∧ (targetOf m c = p) ∧ (p < 64) ∧ (type = field
        c.payload 2 1) ∧ (¬ ((type = 5 ∧ field c.payload 4 4 = 0) ∨ (type = 3 ∧ field c.payload 16 4 = 0))) ∧ (syncFieldsBad s
        q = false) ∧ (if bit (field c.payload 3 1) 2 then n < 65536 ∧ (objOf s n).type = 0 ∧ ∀ k < n, (objOf s k).type ≠ 0
        else n = field c.payload 0 2 ∧ (objOf s n).type = 0) ∧ ((partOf s p).syncObjects ≤ partObjects s p))
    ∧ (∃ (s : State) (m : Nat) (p : Nat) (type : Nat) (c : Cmd) (q : Req),
      (q = { m := m, target := targetOf m c, cmd := c }) ∧ (Due s m 0x0700 c) ∧ (targetOf m c = p) ∧ (p < 64) ∧ (type = field
        c.payload 2 1) ∧ (¬ ((type = 5 ∧ field c.payload 4 4 = 0) ∨ (type = 3 ∧ field c.payload 16 4 = 0))) ∧ (syncFieldsBad s
        q = false) ∧ (if bit (field c.payload 3 1) 2 then ∀ k < 65536, (objOf s k).type ≠ 0 else (objOf s (field c.payload 0
        2)).type ≠ 0))
    ∧ (∃ (s : State) (m : Nat) (p : Nat) (n : Nat) (c : Cmd),
      (Due s m 0x0701 c) ∧ (targetOf m c = p) ∧ (p < 64) ∧ (n = field c.payload 0 2) ∧ ((objOf s n).type ≠ 0) ∧ ((objOf s
        n).part = p) ∧ (field c.payload 2 1 ≤ 1) ∧ (((objOf s n).waiters ≠ [] ∨ anyHolds s n = true) ∧ field c.payload 2 1 =
        0))
    ∧ (∃ (s : State) (m : Nat) (p : Nat) (n : Nat) (c : Cmd),
      (Due s m 0x0701 c) ∧ (targetOf m c = p) ∧ (p < 64) ∧ (n = field c.payload 0 2) ∧ ((objOf s n).type ≠ 0) ∧ ((objOf s
        n).part = p) ∧ (field c.payload 2 1 ≤ 1) ∧ (((objOf s n).waiters = [] ∧ anyHolds s n = false) ∨ field c.payload 2 1 =
        1))
    ∧ (∃ (s : State) (m : Nat) (p : Nat) (n : Nat) (c : Cmd),
      (Due s m 0x0701 c) ∧ (targetOf m c = p) ∧ (p < 64) ∧ (n = field c.payload 0 2) ∧ ((objOf s n).type = 0 ∨ (objOf s
        n).part ≠ p))
    ∧ (∃ (s : State) (m : Nat) (p : Nat) (n : Nat) (c : Cmd),
      (Due s m 0x0705 c) ∧ (targetOf m c = p) ∧ (p < 64) ∧ (n = field c.payload 0 2) ∧ ((objOf s n).type ≠ 0) ∧ ((objOf s
        n).part = p) ∧ ((objOf s n).waiters = []) ∧ (anyHolds s n = false))
    ∧ (∃ (s : State) (m : Nat) (p : Nat) (n : Nat) (c : Cmd),
      (Due s m 0x0705 c) ∧ (targetOf m c = p) ∧ (p < 64) ∧ (n = field c.payload 0 2) ∧ ((objOf s n).type ≠ 0) ∧ ((objOf s
        n).part = p) ∧ ((objOf s n).waiters ≠ [] ∨ anyHolds s n = true)) :=
  ⟨⟨(taking 0 (cmdOf 0x700 63 (leBytes 40 0x30000))
    ({ up with parts := [(63, { state := .active, syncObjects := 2, hdmBase := 1048576, hdmLen := 1048576, jobs := [9] })], syn := { up.syn with objs := [] }, srv := { up.srv with ctxs := [] } })),
    0, 63, 3, (cmdOf 0x700 63 (leBytes 40 0x30000)),
    { m := 0, target := targetOf 0 (cmdOf 0x700 63 (leBytes 40 0x30000)), cmd := (cmdOf 0x700 63 (leBytes 40 0x30000)) },
      rfl, by decide +kernel⟩,
    ⟨(taking 0 (cmdOf 0x700 63 (leBytes 40 0x400000000000000050000000000030000))
      ({ up with parts := [(63, { state := .active, syncObjects := 2, hdmBase := 1048576, hdmLen := 1048576, jobs := [9] })], syn := { up.syn with objs := [] }, srv := { up.srv with ctxs := [] } })),
      0, 63, 3, (cmdOf 0x700 63 (leBytes 40 0x400000000000000050000000000030000)),
      { m := 0, target := targetOf 0 (cmdOf 0x700 63 (leBytes 40 0x400000000000000050000000000030000)), cmd := (cmdOf 0x700 63 (leBytes 40 0x400000000000000050000000000030000)) },
      rfl, by decide +kernel⟩,
    ⟨(taking 0 (cmdOf 0x700 63 (leBytes 40 0x500000000000000050000000004030000))
      ({ up with parts := [(63, { state := .active, syncObjects := 2, hdmBase := 1048576, hdmLen := 1048576, jobs := [9] })], syn := { up.syn with objs := [(0, { type := 1, part := 63 })] }, srv := { up.srv with ctxs := [] } })),
      0, 63, 1, 3, (cmdOf 0x700 63 (leBytes 40 0x500000000000000050000000004030000)),
      { m := 0, target := targetOf 0 (cmdOf 0x700 63 (leBytes 40 0x500000000000000050000000004030000)), cmd := (cmdOf 0x700 63 (leBytes 40 0x500000000000000050000000004030000)) },
      rfl, by decide +kernel⟩,
    ⟨(taking 0 (cmdOf 0x700 63 (leBytes 40 0x100000005ffff))
      ({ up with parts := [(63, { state := .active, syncObjects := 2, hdmBase := 1048576, hdmLen := 1048576, jobs := [9] })], syn := { up.syn with objs := [(0, { type := 1, part := 63 }), (7, { type := 1, part := 63 })] }, srv := { up.srv with ctxs := [] } })),
      0, 63, 65535, 5, (cmdOf 0x700 63 (leBytes 40 0x100000005ffff)),
      { m := 0, target := targetOf 0 (cmdOf 0x700 63 (leBytes 40 0x100000005ffff)), cmd := (cmdOf 0x700 63 (leBytes 40 0x100000005ffff)) },
      rfl, by decide +kernel⟩,
    ⟨(taking 0 (cmdOf 0x700 63 (leBytes 40 0x1ffff))
      ({ up with parts := [(63, { state := .active, syncObjects := 2, hdmBase := 1048576, hdmLen := 1048576, jobs := [9] })], syn := { up.syn with objs := [(65535, { type := 1, part := 63 })] }, srv := { up.srv with ctxs := [] } })),
      0, 63, 1, (cmdOf 0x700 63 (leBytes 40 0x1ffff)),
      { m := 0, target := targetOf 0 (cmdOf 0x700 63 (leBytes 40 0x1ffff)), cmd := (cmdOf 0x700 63 (leBytes 40 0x1ffff)) },
      rfl, by decide +kernel⟩,
    ⟨(taking 0 (cmdOf 0x701 63 (leBytes 3 0xffff))
      ({ up with parts := [(63, { state := .active, syncObjects := 2, hdmBase := 1048576, hdmLen := 1048576, jobs := [9] })], syn := { up.syn with objs := [(65535, { type := 4, part := 63 })] }, srv := { up.srv with ctxs := [(255, { part := 63, bind := { regions := [0], quads := [[0]], tiles := [[]], movers := [[]] }, holdings := [(65535, 4, 1)] })] } })),
      0, 63, 65535, (cmdOf 0x701 63 (leBytes 3 0xffff)),
      by decide +kernel⟩,
    ⟨(taking 0 (cmdOf 0x701 63 (leBytes 3 0x1ffff))
      ({ up with parts := [(63, { state := .active, syncObjects := 2, hdmBase := 1048576, hdmLen := 1048576, jobs := [9] })], syn := { up.syn with objs := [(65535, { type := 4, part := 63, waiters := [⟨255, 0x18, 2, 0⟩] })] }, srv := { up.srv with ctxs := [(255, { part := 63, bind := { regions := [0], quads := [[0]], tiles := [[]], movers := [[]] }, state := .running, step := some {} })] } })),
      0, 63, 65535, (cmdOf 0x701 63 (leBytes 3 0x1ffff)),
      by decide +kernel⟩,
    ⟨(taking 0 (cmdOf 0x701 63 (leBytes 3 0xffff))
      ({ up with parts := [(63, { state := .active, syncObjects := 2, hdmBase := 1048576, hdmLen := 1048576, jobs := [9] })], syn := { up.syn with objs := [(65535, { type := 4, part := 62 })] }, srv := { up.srv with ctxs := [] } })),
      0, 63, 65535, (cmdOf 0x701 63 (leBytes 3 0xffff)),
      by decide +kernel⟩,
    ⟨(taking 0 (cmdOf 0x705 63 (leBytes 2 0xffff))
      ({ up with parts := [(63, { state := .active, syncObjects := 2, hdmBase := 1048576, hdmLen := 1048576, jobs := [9] })], syn := { up.syn with objs := [(65535, { type := 3, part := 63, orphaned := true, count := 9, initial := 4, limit := 10 })] }, srv := { up.srv with ctxs := [] } })),
      0, 63, 65535, (cmdOf 0x705 63 (leBytes 2 0xffff)),
      by decide +kernel⟩,
    ⟨(taking 0 (cmdOf 0x705 63 (leBytes 2 0xffff))
      ({ up with parts := [(63, { state := .active, syncObjects := 2, hdmBase := 1048576, hdmLen := 1048576, jobs := [9] })], syn := { up.syn with objs := [(65535, { type := 4, part := 63 })] }, srv := { up.srv with ctxs := [(255, { part := 63, bind := { regions := [0], quads := [[0]], tiles := [[]], movers := [[]] }, holdings := [(65535, 4, 1)] })] } })),
      0, 63, 65535, (cmdOf 0x705 63 (leBytes 2 0xffff)),
      by decide +kernel⟩⟩

theorem test_witness_HostOperations :
    (∃ (s : State) (m : Nat) (p : Nat) (n : Nat) (op : Nat) (a : Nat) (c : Cmd) (o : SyncObj),
      (Due s m 0x0702 c) ∧ (targetOf m c = p) ∧ (p < 64) ∧ (n = field c.payload 0 2) ∧ (op = field c.payload 2 1) ∧ (a = field
        c.payload 8 8) ∧ (o = objOf s n) ∧ (o.type ≠ 0) ∧ (o.part = p) ∧ (hostOp op = false ∨ opType op ≠ o.type))
    ∧ (∃ (s : State) (m : Nat) (p : Nat) (n : Nat) (op : Nat) (a : Nat) (c : Cmd) (o : SyncObj),
      (Due s m 0x0702 c) ∧ (targetOf m c = p) ∧ (p < 64) ∧ (n = field c.payload 0 2) ∧ (op = field c.payload 2 1) ∧ (a = field
        c.payload 8 8) ∧ (o = objOf s n) ∧ (o.type ≠ 0) ∧ (o.part = p) ∧ (hostOp op = true) ∧ (opType op = o.type) ∧
        (o.orphaned = true))
    ∧ (∃ (s : State) (m : Nat) (p : Nat) (n : Nat) (op : Nat) (a : Nat) (c : Cmd) (o : SyncObj),
      (NoneQueued s) ∧ (Due s m 0x0702 c) ∧ (targetOf m c = p) ∧ (p < 64) ∧ (n = field c.payload 0 2) ∧ (op = field c.payload
        2 1) ∧ (a = field c.payload 8 8) ∧ (o = objOf s n) ∧ (o.type ≠ 0) ∧ (o.part = p) ∧ (hostOp op = true) ∧ (opType op =
        o.type) ∧ (o.orphaned = false) ∧ (o.waiters = []) ∧ (op = 0x01))
    ∧ (∃ (s : State) (m : Nat) (p : Nat) (n : Nat) (op : Nat) (a : Nat) (c : Cmd) (o : SyncObj),
      (NoneQueued s) ∧ (Due s m 0x0702 c) ∧ (targetOf m c = p) ∧ (p < 64) ∧ (n = field c.payload 0 2) ∧ (op = field c.payload
        2 1) ∧ (a = field c.payload 8 8) ∧ (o = objOf s n) ∧ (o.type ≠ 0) ∧ (o.part = p) ∧ (hostOp op = true) ∧ (opType op =
        o.type) ∧ (o.orphaned = false) ∧ (o.waiters = []) ∧ (op = 0x02))
    ∧ (∃ (s : State) (m : Nat) (p : Nat) (n : Nat) (op : Nat) (a : Nat) (c : Cmd) (o : SyncObj),
      (NoneQueued s) ∧ (Due s m 0x0702 c) ∧ (targetOf m c = p) ∧ (p < 64) ∧ (n = field c.payload 0 2) ∧ (op = field c.payload
        2 1) ∧ (a = field c.payload 8 8) ∧ (o = objOf s n) ∧ (o.type ≠ 0) ∧ (o.part = p) ∧ (hostOp op = true) ∧ (opType op =
        o.type) ∧ (o.orphaned = false) ∧ (o.waiters = []) ∧ (op = 0x08))
    ∧ (∃ (s : State) (m : Nat) (p : Nat) (n : Nat) (op : Nat) (a : Nat) (c : Cmd) (o : SyncObj),
      (NoneQueued s) ∧ (Due s m 0x0702 c) ∧ (targetOf m c = p) ∧ (p < 64) ∧ (n = field c.payload 0 2) ∧ (op = field c.payload
        2 1) ∧ (a = field c.payload 8 8) ∧ (o = objOf s n) ∧ (o.type ≠ 0) ∧ (o.part = p) ∧ (hostOp op = true) ∧ (opType op =
        o.type) ∧ (o.orphaned = false) ∧ (o.waiters = []) ∧ (op = 0x09))
    ∧ (∃ (s : State) (m : Nat) (p : Nat) (n : Nat) (op : Nat) (a : Nat) (c : Cmd) (o : SyncObj),
      (NoneQueued s) ∧ (Due s m 0x0702 c) ∧ (targetOf m c = p) ∧ (p < 64) ∧ (n = field c.payload 0 2) ∧ (op = field c.payload
        2 1) ∧ (a = field c.payload 8 8) ∧ (o = objOf s n) ∧ (o.type ≠ 0) ∧ (o.part = p) ∧ (hostOp op = true) ∧ (opType op =
        o.type) ∧ (o.orphaned = false) ∧ (o.waiters = []) ∧ (op = 0x10) ∧ (o.count + a ≤ o.limit))
    ∧ (∃ (s : State) (m : Nat) (p : Nat) (n : Nat) (op : Nat) (a : Nat) (c : Cmd) (o : SyncObj),
      (NoneQueued s) ∧ (Due s m 0x0702 c) ∧ (targetOf m c = p) ∧ (p < 64) ∧ (n = field c.payload 0 2) ∧ (op = field c.payload
        2 1) ∧ (a = field c.payload 8 8) ∧ (o = objOf s n) ∧ (o.type ≠ 0) ∧ (o.part = p) ∧ (hostOp op = true) ∧ (opType op =
        o.type) ∧ (o.orphaned = false) ∧ (o.waiters = []) ∧ (op = 0x10) ∧ (o.limit < o.count + a)) :=
  ⟨⟨(taking 0 (cmdOf 0x702 63 (leBytes 16 0x1000000000011ffff))
    ({ up with parts := [(63, { state := .active, syncObjects := 2, hdmBase := 1048576, hdmLen := 1048576, jobs := [9] })], syn := { up.syn with objs := [(65535, { type := 3, part := 63 })] }, srv := { up.srv with ctxs := [] } })),
    0, 63, 65535, 17, 1, (cmdOf 0x702 63 (leBytes 16 0x1000000000011ffff)), { type := 3, part := 63 },
      by decide +kernel⟩,
    ⟨(taking 0 (cmdOf 0x702 63 (leBytes 16 0x5000000000001ffff))
      ({ up with parts := [(63, { state := .active, syncObjects := 2, hdmBase := 1048576, hdmLen := 1048576, jobs := [9] })], syn := { up.syn with objs := [(65535, { type := 1, part := 63, orphaned := true })] }, srv := { up.srv with ctxs := [] } })),
      0, 63, 65535, 1, 5, (cmdOf 0x702 63 (leBytes 16 0x5000000000001ffff)), { type := 1, part := 63, orphaned := true },
      by decide +kernel⟩,
    ⟨(taking 0 (cmdOf 0x702 63 (leBytes 16 0xffffffffffffffff000000000001ffff))
      ({ up with parts := [(63, { state := .active, syncObjects := 2, hdmBase := 1048576, hdmLen := 1048576, jobs := [9] })], syn := { up.syn with objs := [(65535, { type := 1, part := 63, value := 3 })] }, srv := { up.srv with ctxs := [] } })),
      0, 63, 65535, 1, 18446744073709551615, (cmdOf 0x702 63 (leBytes 16 0xffffffffffffffff000000000001ffff)),
      { type := 1, part := 63, value := 3 },
      by unfold NoneQueued; decide +kernel, by decide +kernel⟩,
    ⟨(taking 0 (cmdOf 0x702 63 (leBytes 16 0x7000000000002ffff))
      ({ up with parts := [(63, { state := .active, syncObjects := 2, hdmBase := 1048576, hdmLen := 1048576, jobs := [9] })], syn := { up.syn with objs := [(65535, { type := 1, part := 63 })] }, srv := { up.srv with ctxs := [] } })),
      0, 63, 65535, 2, 7, (cmdOf 0x702 63 (leBytes 16 0x7000000000002ffff)), { type := 1, part := 63 },
      by unfold NoneQueued; decide +kernel, by decide +kernel⟩,
    ⟨(taking 0 (cmdOf 0x702 63 (leBytes 16 0x8ffff))
      ({ up with parts := [(63, { state := .active, syncObjects := 2, hdmBase := 1048576, hdmLen := 1048576, jobs := [9] })], syn := { up.syn with objs := [(65535, { type := 2, part := 63 })] }, srv := { up.srv with ctxs := [] } })),
      0, 63, 65535, 8, 0, (cmdOf 0x702 63 (leBytes 16 0x8ffff)), { type := 2, part := 63 },
      by unfold NoneQueued; decide +kernel, by decide +kernel⟩,
    ⟨(taking 0 (cmdOf 0x702 63 (leBytes 16 0x9ffff))
      ({ up with parts := [(63, { state := .active, syncObjects := 2, hdmBase := 1048576, hdmLen := 1048576, jobs := [9] })], syn := { up.syn with objs := [(65535, { type := 2, part := 63, set := true })] }, srv := { up.srv with ctxs := [] } })),
      0, 63, 65535, 9, 0, (cmdOf 0x702 63 (leBytes 16 0x9ffff)), { type := 2, part := 63, set := true },
      by unfold NoneQueued; decide +kernel, by decide +kernel⟩,
    ⟨(taking 0 (cmdOf 0x702 63 (leBytes 16 0x5000000000010ffff))
      ({ up with parts := [(63, { state := .active, syncObjects := 2, hdmBase := 1048576, hdmLen := 1048576, jobs := [9] })], syn := { up.syn with objs := [(65535, { type := 3, part := 63, limit := 9, count := 4 })] }, srv := { up.srv with ctxs := [] } })),
      0, 63, 65535, 16, 5, (cmdOf 0x702 63 (leBytes 16 0x5000000000010ffff)),
      { type := 3, part := 63, limit := 9, count := 4 },
      by unfold NoneQueued; decide +kernel, by decide +kernel⟩,
    ⟨(taking 0 (cmdOf 0x702 63 (leBytes 16 0x6000000000010ffff))
      ({ up with parts := [(63, { state := .active, syncObjects := 2, hdmBase := 1048576, hdmLen := 1048576, jobs := [9] })], syn := { up.syn with objs := [(65535, { type := 3, part := 63, limit := 9, count := 4 })] }, srv := { up.srv with ctxs := [] } })),
      0, 63, 65535, 16, 6, (cmdOf 0x702 63 (leBytes 16 0x6000000000010ffff)),
      { type := 3, part := 63, limit := 9, count := 4 },
      by unfold NoneQueued; decide +kernel, by decide +kernel⟩⟩

theorem test_witness_SyncReports :
    (∃ (s : State) (m : Nat) (p : Nat) (n : Nat) (c : Cmd),
      (Due s m 0x0703 c) ∧ (targetOf m c = p) ∧ (p < 64) ∧ (n = field c.payload 0 2) ∧ ((objOf s n).type ≠ 0) ∧ ((objOf s
        n).part = p))
    ∧ (∃ (s : State) (m : Nat) (p : Nat) (dst : Nat) (len : Nat) (c : Cmd),
      (Due s m 0x0704 c) ∧ (targetOf m c = p) ∧ (p < 64) ∧ (dst = field c.payload 0 8) ∧ (len = field c.payload 8 4) ∧ (dst %
        64 = 0) ∧ (field c.payload 12 1 ≤ 1) ∧ (isVf m = true → field c.payload 12 1 = 0) ∧ (len ≠ 0 → inTarget s p dst len =
        true))
    ∧ (∃ (s : State) (m : Nat) (c : Cmd),
      (Due s m 0x0704 c) ∧ (targetOf m c < 64) ∧ (field c.payload 0 8 % 64 = 0) ∧ (isVf m = true) ∧ (field c.payload 12 1 =
        1)) :=
  ⟨⟨(taking 0 (cmdOf 0x703 63 (leBytes 2 0xffff))
    ({ up with parts := [(63, { state := .active, syncObjects := 2, hdmBase := 1048576, hdmLen := 1048576, jobs := [9] })], syn := { up.syn with objs := [(65535, { type := 1, part := 63, waiters := [⟨255, 3, 2, 9⟩] })] }, srv := { up.srv with ctxs := [] } })),
    0, 63, 65535, (cmdOf 0x703 63 (leBytes 2 0xffff)),
      by decide +kernel⟩,
    ⟨(taking 0 (cmdOf 0x704 63 (leBytes 13 0x800000000000100000))
      ({ up with parts := [(63, { state := .active, syncObjects := 2, hdmBase := 1048576, hdmLen := 1048576, jobs := [9] })], syn := { up.syn with objs := [(65535, { type := 1, part := 63, waiters := [⟨255, 3, 2, 9⟩] })] }, srv := { up.srv with ctxs := [] } })),
      0, 63, 1048576, 128, (cmdOf 0x704 63 (leBytes 13 0x800000000000100000)),
      by decide +kernel⟩,
    ⟨(taking 79 (cmdOf 0x704 63 (leBytes 13 0x1000000000000000000000000))
      ({ up with parts := [(63, { state := .active, syncObjects := 2, hdmBase := 1048576, hdmLen := 1048576, jobs := [9] })], syn := { up.syn with objs := [] }, srv := { up.srv with ctxs := [] } })),
      79, (cmdOf 0x704 63 (leBytes 13 0x1000000000000000000000000)),
      by decide +kernel⟩⟩

theorem test_witness_Determinism :
    (∃ (s : State) (m : Nat) (p : Nat) (c : Cmd),
      (Due s m 0x0780 c) ∧ (targetOf m c = p) ∧ (p < 64) ∧ (field c.payload 0 1 ≤ 1) ∧ (partContexts s p = 0))
    ∧ (∃ (s : State) (m : Nat) (p : Nat) (c : Cmd),
      (Due s m 0x0780 c) ∧ (targetOf m c = p) ∧ (p < 64) ∧ (field c.payload 0 1 ≤ 1) ∧ (partContexts s p ≠ 0))
    ∧ (∃ (s : State) (m : Nat) (n : Nat) (c : Cmd),
      (Due s m 0x0781 c) ∧ (n = field c.payload 0 2) ∧ (n < 256) ∧ (field c.payload 2 1 ≤ 1) ∧ (targetOf m c < 64) ∧ ((ctxOf s
        n).state ≠ .absent) ∧ ((ctxOf s n).part = targetOf m c))
    ∧ (∃ (s : State) (m : Nat) (n : Nat) (c : Cmd),
      (Due s m 0x0781 c) ∧ (n = field c.payload 0 2) ∧ (n < 256) ∧ (field c.payload 2 1 ≤ 1) ∧ (targetOf m c < 64) ∧ ((ctxOf s
        n).state = .absent ∨ (ctxOf s n).part ≠ targetOf m c))
    ∧ (∃ (s : State) (c : Nat),
      ((ctxOf s c).state ≠ .absent) ∧ (ledgerMode s (ctxOf s c).part = true))
    ∧ (∃ (s : State) (c : Nat) (a : Nat) (l' : _),
      ((ctxOf s c).state ≠ .absent) ∧ (ledgerMode s (ctxOf s c).part = false) ∧ (tabFind? s.syn.contention (a / 64) = some (c,
        l')))
    ∧ (∃ (s : State) (c : Nat) (a : Nat),
      ((ctxOf s c).state ≠ .absent) ∧ (ledgerMode s (ctxOf s c).part = false) ∧ (tabFind? s.syn.contention (a / 64) = none) ∧
        (4096 ≤ s.syn.contention.length))
    ∧ (∃ (s : State) (c : Nat) (a : Nat),
      ((ctxOf s c).state ≠ .absent) ∧ (ledgerMode s (ctxOf s c).part = false) ∧ (tabFind? s.syn.contention (a / 64) = none) ∧
        (s.syn.contention.length < 4096)) :=
  ⟨⟨(taking 0 (cmdOf 0x780 63 (leBytes 1 0x1))
    ({ up with parts := [(63, { state := .active, syncObjects := 2, hdmBase := 1048576, hdmLen := 1048576, jobs := [9] })], syn := { up.syn with objs := [] }, srv := { up.srv with ctxs := [] } })),
    0, 63, (cmdOf 0x780 63 (leBytes 1 0x1)),
      by decide +kernel⟩,
    ⟨(taking 0 (cmdOf 0x780 63 (leBytes 1 0x1))
      ({ up with parts := [(63, { state := .active, syncObjects := 2, hdmBase := 1048576, hdmLen := 1048576, jobs := [9] })], syn := { up.syn with objs := [] }, srv := { up.srv with ctxs := [(255, { part := 63, bind := { regions := [0], quads := [[0]], tiles := [[]], movers := [[]] }, state := .loaded })] } })),
      0, 63, (cmdOf 0x780 63 (leBytes 1 0x1)),
      by decide +kernel⟩,
    ⟨(taking 0 (cmdOf 0x781 63 (leBytes 2 0x100ff))
      ({ up with parts := [(63, { state := .active, syncObjects := 2, hdmBase := 1048576, hdmLen := 1048576, jobs := [9] })], syn := { up.syn with objs := [] }, srv := { up.srv with ctxs := [(255, { part := 63, bind := { regions := [0], quads := [[0]], tiles := [[]], movers := [[]] }, state := .loaded, timing := 18446744073709551615 })] } })),
      0, 255, (cmdOf 0x781 63 (leBytes 2 0x100ff)),
      by decide +kernel⟩,
    ⟨(taking 0 (cmdOf 0x781 63 (leBytes 2 0x100fe))
      ({ up with parts := [(63, { state := .active, syncObjects := 2, hdmBase := 1048576, hdmLen := 1048576, jobs := [9] })], syn := { up.syn with objs := [] }, srv := { up.srv with ctxs := [(255, { part := 63, bind := { regions := [0], quads := [[0]], tiles := [[]], movers := [[]] }, state := .loaded })] } })),
      0, 254, (cmdOf 0x781 63 (leBytes 2 0x100fe)),
      by decide +kernel⟩,
    ⟨{ up with parts := [(63, { state := .active, syncObjects := 2, hdmBase := 1048576, hdmLen := 1048576, jobs := [9], ledger := true })], srv := { up.srv with ctxs := [(255, { part := 63, bind := { regions := [0], quads := [[0]], tiles := [[]], movers := [[]] }, state := .resident })] }, syn := { up.syn with contention := [(1, (255, 7))] } },
      255,
      by decide +kernel⟩,
    ⟨{ up with parts := [(63, { state := .active, syncObjects := 2, hdmBase := 1048576, hdmLen := 1048576, jobs := [9], ledger := false })], srv := { up.srv with ctxs := [(255, { part := 63, bind := { regions := [0], quads := [[0]], tiles := [[]], movers := [[]] }, state := .resident })] }, syn := { up.syn with contention := [(1, (255, 7))] } },
      255, 127, 7,
      by decide +kernel⟩,
    ⟨{ up with parts := [(63, { state := .active, syncObjects := 2, hdmBase := 1048576, hdmLen := 1048576, jobs := [9], ledger := false })], srv := { up.srv with ctxs := [(255, { part := 63, bind := { regions := [0], quads := [[0]], tiles := [[]], movers := [[]] }, state := .resident })] }, syn := { up.syn with contention := (List.range 4096).map (fun i => (i + 1, (255, 0))) } },
      255, 63,
      by decide +kernel⟩,
    ⟨{ up with parts := [(63, { state := .active, syncObjects := 2, hdmBase := 1048576, hdmLen := 1048576, jobs := [9], ledger := false })], srv := { up.srv with ctxs := [(255, { part := 63, bind := { regions := [0], quads := [[0]], tiles := [[]], movers := [[]] }, state := .resident })] }, syn := { up.syn with contention := (List.range 4095).map (fun i => (i + 1, (255, 0))) } },
      255, 63,
      by decide +kernel⟩⟩

theorem test_witness_SyncLists :
    (∃ (s : State) (c : Nat) (m : Nat) (d : SyncDesc) (r : RunningMicro) (q : StepRun) (k : MicroRun),
      (c < 256) ∧ (lentOf s c m = some r) ∧ (bindUnit (ctxOf s c).bind d.unit ∈ r.units) ∧ (working s (bindUnit (ctxOf s
        c).bind d.unit) = true) ∧ ((ctxOf s c).step = some q) ∧ (tabFind? q.micros m = some k))
    ∧ (∃ (s : State) (c : Nat) (m : Nat) (tick : Nat) (n : Nat) (rest : List (Nat × Nat × Nat)) (d : SyncDesc) (o : SyncObj),
      (c < 256) ∧ (s.syn.lists = (tick, c, m) :: rest) ∧ ((microOf s c m).sync = [d]) ∧ (n = d.object) ∧ (o = objOf s n) ∧
        (o.type ≠ 0) ∧ (o.part = (ctxOf s c).part) ∧ (o.orphaned = false) ∧ (o.waiters = []) ∧ (d.op = 0x01) ∧ (o.type = 1))
    ∧ (∃ (s : State) (c : Nat) (m : Nat) (tick : Nat) (n : Nat) (rest : List (Nat × Nat × Nat)) (d : SyncDesc) (o : SyncObj),
      (c < 256) ∧ (s.syn.lists = (tick, c, m) :: rest) ∧ ((microOf s c m).sync = [d]) ∧ (n = d.object) ∧ (o = objOf s n) ∧
        (o.type ≠ 0) ∧ (o.part = (ctxOf s c).part) ∧ (o.orphaned = false) ∧ (o.waiters = []) ∧ (d.op = 0x08) ∧ (o.type = 2))
    ∧ (∃ (s : State) (c : Nat) (m : Nat) (tick : Nat) (n : Nat) (rest : List (Nat × Nat × Nat)) (d : SyncDesc) (o : SyncObj),
      (c < 256) ∧ (s.syn.lists = (tick, c, m) :: rest) ∧ ((microOf s c m).sync = [d]) ∧ (n = d.object) ∧ (o = objOf s n) ∧
        (o.type ≠ 0) ∧ (o.part = (ctxOf s c).part) ∧ (o.orphaned = false) ∧ (o.waiters = []) ∧ (d.op = 0x10) ∧ (o.type = 3) ∧
        (o.count + d.amount ≤ o.limit))
    ∧ (∃ (s : State) (c : Nat) (m : Nat),
      (c < 256) ∧ (∀ l ∈ s.syn.lists.head?, l.2 ≠ (c, m))) :=
  ⟨⟨{ up with parts := [(63, { state := .active, syncObjects := 2, hdmBase := 1048576, hdmLen := 1048576, jobs := [9] })], grd := { up.grd with units := [(0, { holder := .lent 255 2, owner := 255 })] }, tts := { up.tts with lent := [{ ctx := 255, micro := 2, units := [0], bound := 100, launch := 5, dusk := 0, snap := [] }] }, srv := { up.srv with ctxs := [(255, { part := 63, bind := { regions := [0], quads := [[0]], tiles := [[]], movers := [[]] }, state := .running, step := some { micros := [(2, { phase := .running })] } })] } },
    255, 2, { op := 17, object := 65535, amount := 5, unit := 0, position := 3 },
    { ctx := 255, micro := 2, units := [0], bound := 100, launch := 5, dusk := 0, snap := [] },
    { micros := [(2, { phase := .running })] }, { phase := .running },
      by decide +kernel⟩,
    ⟨{ up with parts := [(63, { state := .active, syncObjects := 2, hdmBase := 1048576, hdmLen := 1048576, jobs := [9] })], syn := { up.syn with objs := [(65535, { type := 1, part := 63, value := 18446744073709551615 })], lists := [(5, 255, 2), (6, 255, 1)] }, srv := { up.srv with ctxs := [(255, { part := 63, bind := { regions := [0], quads := [[0]], tiles := [[]], movers := [[]] }, state := .running, step := some { micros := [(2, { sync := [{ op := 1, object := 65535, amount := 5, unit := 0, position := 3 }] })] } })] } },
      255, 2, 5, 65535, [(6, 255, 1)], { op := 1, object := 65535, amount := 5, unit := 0, position := 3 },
      { type := 1, part := 63, value := 18446744073709551615 },
      by decide +kernel⟩,
    ⟨{ up with parts := [(63, { state := .active, syncObjects := 2, hdmBase := 1048576, hdmLen := 1048576, jobs := [9] })], syn := { up.syn with objs := [(65535, { type := 2, part := 63 })], lists := [(5, 255, 2), (6, 255, 1)] }, srv := { up.srv with ctxs := [(255, { part := 63, bind := { regions := [0], quads := [[0]], tiles := [[]], movers := [[]] }, state := .running, step := some { micros := [(2, { sync := [{ op := 8, object := 65535, amount := 5, unit := 0, position := 3 }] })] } })] } },
      255, 2, 5, 65535, [(6, 255, 1)], { op := 8, object := 65535, amount := 5, unit := 0, position := 3 },
      { type := 2, part := 63 },
      by decide +kernel⟩,
    ⟨{ up with parts := [(63, { state := .active, syncObjects := 2, hdmBase := 1048576, hdmLen := 1048576, jobs := [9] })], syn := { up.syn with objs := [(65535, { type := 3, part := 63, limit := 9, count := 4 })], lists := [(5, 255, 2), (6, 255, 1)] }, srv := { up.srv with ctxs := [(255, { part := 63, bind := { regions := [0], quads := [[0]], tiles := [[]], movers := [[]] }, state := .running, step := some { micros := [(2, { sync := [{ op := 16, object := 65535, amount := 5, unit := 0, position := 3 }] })] } })] } },
      255, 2, 5, 65535, [(6, 255, 1)], { op := 16, object := 65535, amount := 5, unit := 0, position := 3 },
      { type := 3, part := 63, limit := 9, count := 4 },
      by decide +kernel⟩,
    ⟨{ up with syn := { up.syn with lists := [(5, 255, 2)] } }, 255, 1,
      by decide +kernel⟩⟩

theorem test_witness_MicroOperations :
    (∃ (s : State) (c : Nat) (d : SyncDesc) (o : SyncObj),
      (o = objOf s d.object) ∧ (o.type ≠ 0) ∧ (o.part = (ctxOf s c).part) ∧ ((ctxOf s c).state ≠ .absent) ∧ (o.orphaned =
        true))
    ∧ (∃ (s : State) (c : Nat) (d : SyncDesc) (o : SyncObj),
      (o = objOf s d.object) ∧ (o.type ≠ 0) ∧ (o.part = (ctxOf s c).part) ∧ ((ctxOf s c).state ≠ .absent) ∧ (o.orphaned =
        false) ∧ (opType d.op ≠ o.type ∨ d.op = 2 ∨ d.op = 9))
    ∧ (∃ (s : State) (c : Nat) (d : SyncDesc) (o : SyncObj),
      (o = objOf s d.object) ∧ (o.type ≠ 0) ∧ (o.part = (ctxOf s c).part) ∧ ((ctxOf s c).state ≠ .absent) ∧ (o.orphaned =
        false) ∧ (d.op = 0x03) ∧ (o.type = 1) ∧ (d.amount ≤ o.value))
    ∧ (∃ (s : State) (c : Nat) (d : SyncDesc) (o : SyncObj),
      (o = objOf s d.object) ∧ (o.type ≠ 0) ∧ (o.part = (ctxOf s c).part) ∧ ((ctxOf s c).state ≠ .absent) ∧ (o.orphaned =
        false) ∧ (d.op = 0x03) ∧ (o.type = 1) ∧ (o.value < d.amount) ∧ (waiterCount s < 32768))
    ∧ (∃ (s : State) (c : Nat) (d : SyncDesc) (o : SyncObj),
      (o = objOf s d.object) ∧ (o.type ≠ 0) ∧ (o.part = (ctxOf s c).part) ∧ ((ctxOf s c).state ≠ .absent) ∧ (o.orphaned =
        false) ∧ (d.op = 0x03) ∧ (o.type = 1) ∧ (o.value < d.amount) ∧ (32768 ≤ waiterCount s))
    ∧ (∃ (s : State) (c : Nat) (d : SyncDesc) (o : SyncObj),
      (o = objOf s d.object) ∧ (o.type ≠ 0) ∧ (o.part = (ctxOf s c).part) ∧ ((ctxOf s c).state ≠ .absent) ∧ (o.orphaned =
        false) ∧ (d.op = 0x11) ∧ (o.type = 3) ∧ (d.amount ≠ 0) ∧ (o.waiters = []) ∧ (d.amount ≤ o.count))
    ∧ (∃ (s : State) (c : Nat) (d : SyncDesc) (o : SyncObj),
      (o = objOf s d.object) ∧ (o.type ≠ 0) ∧ (o.part = (ctxOf s c).part) ∧ ((ctxOf s c).state ≠ .absent) ∧ (o.orphaned =
        false) ∧ (d.op = 0x12) ∧ (o.type = 3) ∧ (d.amount ≠ 0) ∧ (o.waiters = []) ∧ (d.amount ≤ o.count) ∧ (canHold s c
        d.object = true))
    ∧ (∃ (s : State) (c : Nat) (d : SyncDesc) (o : SyncObj),
      (o = objOf s d.object) ∧ (o.type ≠ 0) ∧ (o.part = (ctxOf s c).part) ∧ ((ctxOf s c).state ≠ .absent) ∧ (o.orphaned =
        false) ∧ (d.op = 0x12) ∧ (o.type = 3) ∧ (d.amount ≠ 0) ∧ (o.waiters = []) ∧ (d.amount ≤ o.count) ∧ (canHold s c
        d.object = false))
    ∧ (∃ (s : State) (c : Nat) (d : SyncDesc) (o : SyncObj),
      (o = objOf s d.object) ∧ (o.type ≠ 0) ∧ (o.part = (ctxOf s c).part) ∧ ((ctxOf s c).state ≠ .absent) ∧ (o.orphaned =
        false) ∧ (d.op = 0x13) ∧ (o.type = 3) ∧ ((holdingOf s c d.object).getD 0 < d.amount))
    ∧ (∃ (s : State) (c : Nat) (d : SyncDesc) (o : SyncObj),
      (o = objOf s d.object) ∧ (o.type ≠ 0) ∧ (o.part = (ctxOf s c).part) ∧ ((ctxOf s c).state ≠ .absent) ∧ (o.orphaned =
        false) ∧ (d.op = 0x18) ∧ (o.type = 4) ∧ (o.holder = c))
    ∧ (∃ (s : State) (c : Nat) (d : SyncDesc) (o : SyncObj),
      (o = objOf s d.object) ∧ (o.type ≠ 0) ∧ (o.part = (ctxOf s c).part) ∧ ((ctxOf s c).state ≠ .absent) ∧ (o.orphaned =
        false) ∧ (d.op = 0x18) ∧ (o.type = 4) ∧ (o.holder = 0xFFFF) ∧ (c < 256) ∧ (o.waiters = []) ∧ (canHold s c d.object =
        true))
    ∧ (∃ (s : State) (c : Nat) (d : SyncDesc) (o : SyncObj),
      (o = objOf s d.object) ∧ (o.type ≠ 0) ∧ (o.part = (ctxOf s c).part) ∧ ((ctxOf s c).state ≠ .absent) ∧ (o.orphaned =
        false) ∧ (d.op = 0x19) ∧ (o.type = 4) ∧ (o.holder ≠ c))
    ∧ (∃ (s : State) (c : Nat) (d : SyncDesc) (o : SyncObj),
      (o = objOf s d.object) ∧ (o.type ≠ 0) ∧ (o.part = (ctxOf s c).part) ∧ ((ctxOf s c).state ≠ .absent) ∧ (o.orphaned =
        false) ∧ (d.op = 0x20) ∧ (o.type = 5) ∧ ((holdingOf s c d.object).isSome = true))
    ∧ (∃ (s : State) (c : Nat) (d : SyncDesc) (o : SyncObj),
      (o = objOf s d.object) ∧ (o.type ≠ 0) ∧ (o.part = (ctxOf s c).part) ∧ ((ctxOf s c).state ≠ .absent) ∧ (o.orphaned =
        false) ∧ (d.op = 0x20) ∧ (o.type = 5) ∧ (holdingOf s c d.object = none) ∧ (canHold s c d.object = true) ∧ (o.arrived +
        1 < o.participants))
    ∧ (∃ (s : State) (c : Nat) (d : SyncDesc) (o : SyncObj),
      (o = objOf s d.object) ∧ (o.type ≠ 0) ∧ (o.part = (ctxOf s c).part) ∧ ((ctxOf s c).state ≠ .absent) ∧ (o.orphaned =
        false) ∧ (d.op = 0x20) ∧ (o.type = 5) ∧ (holdingOf s c d.object = none) ∧ (canHold s c d.object = true) ∧
        (o.participants ≤ o.arrived + 1) ∧ (o.distributed = false) ∧ (o.waiters = [])) :=
  ⟨⟨{ up with parts := [(63, { state := .active, syncObjects := 2, hdmBase := 1048576, hdmLen := 1048576, jobs := [9] })], syn := { up.syn with objs := [(65535, { type := 1, part := 63, orphaned := true })] }, srv := { up.srv with ctxs := [(255, { part := 63, bind := { regions := [0], quads := [[0]], tiles := [[]], movers := [[]] }, state := .running, step := some { micros := [(2, { phase := .running })] } })] } },
    255, { op := 1, object := 65535, amount := 5, unit := 0, position := 3 }, { type := 1, part := 63, orphaned := true },
      by decide +kernel⟩,
    ⟨{ up with parts := [(63, { state := .active, syncObjects := 2, hdmBase := 1048576, hdmLen := 1048576, jobs := [9] })], syn := { up.syn with objs := [(65535, { type := 1, part := 63 })] }, srv := { up.srv with ctxs := [(255, { part := 63, bind := { regions := [0], quads := [[0]], tiles := [[]], movers := [[]] }, state := .running, step := some { micros := [(2, { phase := .running })] } })] } },
      255, { op := 2, object := 65535, amount := 5, unit := 0, position := 3 }, { type := 1, part := 63 },
      by decide +kernel⟩,
    ⟨{ up with parts := [(63, { state := .active, syncObjects := 2, hdmBase := 1048576, hdmLen := 1048576, jobs := [9] })], syn := { up.syn with objs := [(65535, { type := 1, part := 63, value := 5 })] }, srv := { up.srv with ctxs := [(255, { part := 63, bind := { regions := [0], quads := [[0]], tiles := [[]], movers := [[]] }, state := .running, step := some { micros := [(2, { phase := .running })] } })] } },
      255, { op := 3, object := 65535, amount := 5, unit := 0, position := 3 }, { type := 1, part := 63, value := 5 },
      by decide +kernel⟩,
    ⟨{ up with parts := [(63, { state := .active, syncObjects := 2, hdmBase := 1048576, hdmLen := 1048576, jobs := [9] })], syn := { up.syn with objs := [(65535, { type := 1, part := 63, value := 4 })] }, srv := { up.srv with ctxs := [(255, { part := 63, bind := { regions := [0], quads := [[0]], tiles := [[]], movers := [[]] }, state := .running, step := some { micros := [(2, { phase := .running })] } })] } },
      255, { op := 3, object := 65535, amount := 5, unit := 0, position := 3 }, { type := 1, part := 63, value := 4 },
      by decide +kernel⟩,
    ⟨{ up with parts := [(63, { state := .active, syncObjects := 2, hdmBase := 1048576, hdmLen := 1048576, jobs := [9] })], syn := { up.syn with objs := [(65535, { type := 1, part := 63, value := 4 })] ++ (List.range 128).map (fun i => (i + 1, { type := 1, waiters := List.replicate 256 ⟨0, 3, 0, 0⟩ })) }, srv := { up.srv with ctxs := [(255, { part := 63, bind := { regions := [0], quads := [[0]], tiles := [[]], movers := [[]] }, state := .running, step := some { micros := [(2, { phase := .running })] } })] } },
      255, { op := 3, object := 65535, amount := 5, unit := 0, position := 3 }, { type := 1, part := 63, value := 4 },
      by decide +kernel⟩,
    ⟨{ up with parts := [(63, { state := .active, syncObjects := 2, hdmBase := 1048576, hdmLen := 1048576, jobs := [9] })], syn := { up.syn with objs := [(65535, { type := 3, part := 63, count := 5 })] }, srv := { up.srv with ctxs := [(255, { part := 63, bind := { regions := [0], quads := [[0]], tiles := [[]], movers := [[]] }, state := .running, step := some { micros := [(2, { phase := .running })] } })] } },
      255, { op := 17, object := 65535, amount := 5, unit := 0, position := 3 }, { type := 3, part := 63, count := 5 },
      by decide +kernel⟩,
    ⟨{ up with parts := [(63, { state := .active, syncObjects := 2, hdmBase := 1048576, hdmLen := 1048576, jobs := [9] })], syn := { up.syn with objs := [(65535, { type := 3, part := 63, count := 5 })] }, srv := { up.srv with ctxs := [(255, { part := 63, bind := { regions := [0], quads := [[0]], tiles := [[]], movers := [[]] }, state := .running, step := some { micros := [(2, { phase := .running })] } })] } },
      255, { op := 18, object := 65535, amount := 5, unit := 0, position := 3 }, { type := 3, part := 63, count := 5 },
      by decide +kernel⟩,
    ⟨{ up with parts := [(63, { state := .active, syncObjects := 2, hdmBase := 1048576, hdmLen := 1048576, jobs := [9] })], syn := { up.syn with objs := [(65535, { type := 3, part := 63, count := 5 })] }, srv := { up.srv with ctxs := [(255, { part := 63, bind := { regions := [0], quads := [[0]], tiles := [[]], movers := [[]] }, state := .running, step := some { micros := [(2, { phase := .running })] }, holdings := (List.range 16).map (fun i => (i, 3, 1)) })] } },
      255, { op := 18, object := 65535, amount := 5, unit := 0, position := 3 }, { type := 3, part := 63, count := 5 },
      by decide +kernel⟩,
    ⟨{ up with parts := [(63, { state := .active, syncObjects := 2, hdmBase := 1048576, hdmLen := 1048576, jobs := [9] })], syn := { up.syn with objs := [(65535, { type := 3, part := 63 })] }, srv := { up.srv with ctxs := [(255, { part := 63, bind := { regions := [0], quads := [[0]], tiles := [[]], movers := [[]] }, state := .running, step := some { micros := [(2, { phase := .running })] }, holdings := [(65535, 3, 4)] })] } },
      255, { op := 19, object := 65535, amount := 5, unit := 0, position := 3 }, { type := 3, part := 63 },
      by decide +kernel⟩,
    ⟨{ up with parts := [(63, { state := .active, syncObjects := 2, hdmBase := 1048576, hdmLen := 1048576, jobs := [9] })], syn := { up.syn with objs := [(65535, { type := 4, part := 63, holder := 255 })] }, srv := { up.srv with ctxs := [(255, { part := 63, bind := { regions := [0], quads := [[0]], tiles := [[]], movers := [[]] }, state := .running, step := some { micros := [(2, { phase := .running })] } })] } },
      255, { op := 24, object := 65535, amount := 5, unit := 0, position := 3 }, { type := 4, part := 63, holder := 255 },
      by decide +kernel⟩,
    ⟨{ up with parts := [(63, { state := .active, syncObjects := 2, hdmBase := 1048576, hdmLen := 1048576, jobs := [9] })], syn := { up.syn with objs := [(65535, { type := 4, part := 63 })] }, srv := { up.srv with ctxs := [(255, { part := 63, bind := { regions := [0], quads := [[0]], tiles := [[]], movers := [[]] }, state := .running, step := some { micros := [(2, { phase := .running })] } })] } },
      255, { op := 24, object := 65535, amount := 5, unit := 0, position := 3 }, { type := 4, part := 63 },
      by decide +kernel⟩,
    ⟨{ up with parts := [(63, { state := .active, syncObjects := 2, hdmBase := 1048576, hdmLen := 1048576, jobs := [9] })], syn := { up.syn with objs := [(65535, { type := 4, part := 63 })] }, srv := { up.srv with ctxs := [(255, { part := 63, bind := { regions := [0], quads := [[0]], tiles := [[]], movers := [[]] }, state := .running, step := some { micros := [(2, { phase := .running })] } })] } },
      255, { op := 25, object := 65535, amount := 5, unit := 0, position := 3 }, { type := 4, part := 63 },
      by decide +kernel⟩,
    ⟨{ up with parts := [(63, { state := .active, syncObjects := 2, hdmBase := 1048576, hdmLen := 1048576, jobs := [9] })], syn := { up.syn with objs := [(65535, { type := 5, part := 63 })] }, srv := { up.srv with ctxs := [(255, { part := 63, bind := { regions := [0], quads := [[0]], tiles := [[]], movers := [[]] }, state := .running, step := some { micros := [(2, { phase := .running })] }, holdings := [(65535, 5, 0)] })] } },
      255, { op := 32, object := 65535, amount := 5, unit := 0, position := 3 }, { type := 5, part := 63 },
      by decide +kernel⟩,
    ⟨{ up with parts := [(63, { state := .active, syncObjects := 2, hdmBase := 1048576, hdmLen := 1048576, jobs := [9] })], syn := { up.syn with objs := [(65535, { type := 5, part := 63, participants := 2 })] }, srv := { up.srv with ctxs := [(255, { part := 63, bind := { regions := [0], quads := [[0]], tiles := [[]], movers := [[]] }, state := .running, step := some { micros := [(2, { phase := .running })] } })] } },
      255, { op := 32, object := 65535, amount := 5, unit := 0, position := 3 }, { type := 5, part := 63, participants := 2 },
      by decide +kernel⟩,
    ⟨{ up with parts := [(63, { state := .active, syncObjects := 2, hdmBase := 1048576, hdmLen := 1048576, jobs := [9] })], syn := { up.syn with objs := [(65535, { type := 5, part := 63, participants := 2, arrived := 1, phase := 4294967295 })] }, srv := { up.srv with ctxs := [(255, { part := 63, bind := { regions := [0], quads := [[0]], tiles := [[]], movers := [[]] }, state := .running, step := some { micros := [(2, { phase := .running })] } })] } },
      255, { op := 32, object := 65535, amount := 5, unit := 0, position := 3 },
      { type := 5, part := 63, participants := 2, arrived := 1, phase := 4294967295 },
      by decide +kernel⟩⟩

theorem test_witness_GrantsAndOrphans :
    (∃ (s : State) (n : Nat) (w : Waiter),
      (headOnly (objOf s n).type = true) ∧ ((objOf (grant n s) n).waiters.head? = some w))
    ∧ (∃ (s : State) (n : Nat) (w : Waiter),
      (w ∈ (objOf (grant n s) n).waiters) ∧ (headOnly (objOf s n).type = false))
    ∧ (∃ (s : State) (n : Nat),
      ((objOf s n).type ≠ 0) ∧ ((objOf s n).orphaned = false))
    ∧ (∃ (s : State) (n : Nat) (cause : Nat) (c : Nat) (x : Nat × Context) (h : Nat × Nat × Nat),
      (x ∈ (orphan n cause c s).srv.ctxs) ∧ (h ∈ x.2.holdings) ∧ ((objOf s n).type ≠ 0) ∧ ((objOf s n).orphaned = false))
    ∧ (∃ (s : State) (n : Nat) (w : Waiter) (r : _),
      (w ∈ (objOf s n).waiters) ∧ ((objOf s n).type ≠ 0) ∧ ((objOf s n).orphaned = false) ∧ ((ctxOf s w.ctx).step = some r) ∧
        (r.ending = none))
    ∧ (∃ (s : State) (n : Nat) (k : _),
      ((objOf s n).type ≠ 0) ∧ ((objOf s n).orphaned = false) ∧ (k ≠ n)) :=
  ⟨⟨{ up with parts := [(63, { state := .active, syncObjects := 2, hdmBase := 1048576, hdmLen := 1048576, jobs := [9] })], syn := { up.syn with objs := [(65535, { type := 3, part := 63, count := 5, waiters := [⟨255, 0x11, 2, 6⟩, ⟨255, 0x11, 2, 1⟩] })] }, srv := { up.srv with ctxs := [(255, { part := 63, bind := { regions := [0], quads := [[0]], tiles := [[]], movers := [[]] }, state := .running, step := some { micros := [(2, { phase := .running })] } })] } },
    65535, (⟨255, 0x11, 2, 6⟩),
      by decide +kernel⟩,
    ⟨{ up with parts := [(63, { state := .active, syncObjects := 2, hdmBase := 1048576, hdmLen := 1048576, jobs := [9] })], syn := { up.syn with objs := [(65535, { type := 1, part := 63, value := 5, waiters := [⟨255, 3, 2, 6⟩, ⟨255, 3, 2, 1⟩] })] }, srv := { up.srv with ctxs := [(255, { part := 63, bind := { regions := [0], quads := [[0]], tiles := [[]], movers := [[]] }, state := .running, step := some { micros := [(2, { phase := .running })] } })] } },
      65535, (⟨255, 3, 2, 6⟩),
      by decide +kernel⟩,
    ⟨{ up with parts := [(63, { state := .active, syncObjects := 2, hdmBase := 1048576, hdmLen := 1048576, jobs := [9] })], syn := { up.syn with objs := [(65535, { type := 3, part := 63, waiters := [⟨255, 0x11, 2, 6⟩, ⟨255, 0x11, 2, 1⟩] })] }, srv := { up.srv with ctxs := [(255, { part := 63, bind := { regions := [0], quads := [[0]], tiles := [[]], movers := [[]] }, state := .running, step := some { micros := [(2, { phase := .running })] }, holdings := [(65535, 3, 1), (7, 3, 2)] })] } },
      65535,
      by decide +kernel⟩,
    ⟨{ up with parts := [(63, { state := .active, syncObjects := 2, hdmBase := 1048576, hdmLen := 1048576, jobs := [9] })], syn := { up.syn with objs := [(65535, { type := 3, part := 63, waiters := [⟨255, 0x11, 2, 6⟩, ⟨255, 0x11, 2, 1⟩] })] }, srv := { up.srv with ctxs := [(255, { part := 63, bind := { regions := [0], quads := [[0]], tiles := [[]], movers := [[]] }, state := .running, step := some { micros := [(2, { phase := .running })] }, holdings := [(65535, 3, 1), (7, 3, 2)] })] } },
      65535, 3, 255, (orphan 65535 3 255
      { up with parts := [(63, { state := .active, syncObjects := 2, hdmBase := 1048576, hdmLen := 1048576, jobs := [9] })], syn := { up.syn with objs := [(65535, { type := 3, part := 63, waiters := [⟨255, 0x11, 2, 6⟩, ⟨255, 0x11, 2, 1⟩] })] }, srv := { up.srv with ctxs := [(255, { part := 63, bind := { regions := [0], quads := [[0]], tiles := [[]], movers := [[]] }, state := .running, step := some { micros := [(2, { phase := .running })] }, holdings := [(65535, 3, 1), (7, 3, 2)] })] } }).srv.ctxs.head
      (by decide +kernel), (7, 3, 2),
      by decide +kernel⟩,
    ⟨{ up with parts := [(63, { state := .active, syncObjects := 2, hdmBase := 1048576, hdmLen := 1048576, jobs := [9] })], syn := { up.syn with objs := [(65535, { type := 3, part := 63, waiters := [⟨255, 0x11, 2, 6⟩, ⟨255, 0x11, 2, 1⟩] })] }, srv := { up.srv with ctxs := [(255, { part := 63, bind := { regions := [0], quads := [[0]], tiles := [[]], movers := [[]] }, state := .running, step := some { micros := [(2, { phase := .running })] }, holdings := [(65535, 3, 1), (7, 3, 2)] })] } },
      65535, (⟨255, 0x11, 2, 6⟩), { micros := [(2, { phase := .running })] },
      by decide +kernel⟩,
    ⟨{ up with parts := [(63, { state := .active, syncObjects := 2, hdmBase := 1048576, hdmLen := 1048576, jobs := [9] })], syn := { up.syn with objs := [(65535, { type := 3, part := 63, waiters := [⟨255, 0x11, 2, 6⟩, ⟨255, 0x11, 2, 1⟩] })] }, srv := { up.srv with ctxs := [(255, { part := 63, bind := { regions := [0], quads := [[0]], tiles := [[]], movers := [[]] }, state := .running, step := some { micros := [(2, { phase := .running })] }, holdings := [(65535, 3, 1), (7, 3, 2)] })] } },
      65535, 0,
      by decide +kernel⟩⟩

theorem test_witness_FabricObjects :
    (∃ (s : State) (op : FabOp) (r : FabReq) (w : FabWindow) (n : Nat) (ofs : Nat) (o : SyncObj),
      (ReachesObject s op r w n ofs) ∧ (o = objOf s n) ∧ (ofs + r.length ≤ 32) ∧ (o.type = 0 ∨ o.part ≠ w.part))
    ∧ (∃ (s : State) (op : FabOp) (r : FabReq) (w : FabWindow) (n : Nat) (ofs : Nat) (o : SyncObj),
      (ReachesObject s op r w n ofs) ∧ (o = objOf s n) ∧ (ofs + r.length ≤ 32) ∧ (o.type ≠ 0) ∧ (o.part = w.part) ∧
        (o.orphaned = true))
    ∧ (∃ (s : State) (op : FabOp) (r : FabReq) (w : FabWindow) (n : Nat) (ofs : Nat) (o : SyncObj),
      (ReachesObject s op r w n ofs) ∧ (o = objOf s n) ∧ (ofs + r.length ≤ 32) ∧ (o.type ≠ 0) ∧ (o.part = w.part) ∧
        (o.orphaned = false) ∧ (op = .load ∨ op = .get))
    ∧ (∃ (s : State) (op : FabOp) (r : FabReq) (w : FabWindow) (n : Nat) (ofs : Nat) (o : SyncObj),
      (ReachesObject s op r w n ofs) ∧ (o = objOf s n) ∧ (ofs + r.length ≤ 32) ∧ (o.type ≠ 0) ∧ (o.part = w.part) ∧
        (o.orphaned = false) ∧ (op ≠ .load) ∧ (op ≠ .get) ∧ (objectReq s op r n ofs = none))
    ∧ (∃ (s : State) (op : FabOp) (r : FabReq) (w : FabWindow) (n : Nat) (ofs : Nat) (o : SyncObj),
      (NoneQueued s) ∧ (ReachesObject s op r w n ofs) ∧ (o = objOf s n) ∧ (ofs + r.length ≤ 32) ∧ (o.type ≠ 0) ∧ (o.part =
        w.part) ∧ (o.orphaned = false) ∧ (op = .add) ∧ (r.length = 8) ∧ (ofs = 8) ∧ (o.waiters = []) ∧ (frontResiding s =
        none) ∧ (o.type = 1))
    ∧ (∃ (s : State) (op : FabOp) (r : FabReq) (w : FabWindow) (n : Nat) (ofs : Nat) (o : SyncObj),
      (NoneQueued s) ∧ (ReachesObject s op r w n ofs) ∧ (o = objOf s n) ∧ (ofs + r.length ≤ 32) ∧ (o.type ≠ 0) ∧ (o.part =
        w.part) ∧ (o.orphaned = false) ∧ (op = .add) ∧ (r.length = 8) ∧ (ofs = 8) ∧ (o.waiters = []) ∧ (frontResiding s =
        none) ∧ (o.type = 3) ∧ (r.operand0 < 4294967296) ∧ (o.count + r.operand0 ≤ o.limit))
    ∧ (∃ (s : State) (op : FabOp) (r : FabReq) (w : FabWindow) (n : Nat) (ofs : Nat) (o : SyncObj),
      (NoneQueued s) ∧ (ReachesObject s op r w n ofs) ∧ (o = objOf s n) ∧ (ofs + r.length ≤ 32) ∧ (o.type ≠ 0) ∧ (o.part =
        w.part) ∧ (o.orphaned = false) ∧ (op = .add) ∧ (r.length = 8) ∧ (ofs = 8) ∧ (o.waiters = []) ∧ (frontResiding s =
        none) ∧ (o.type = 3) ∧ (4294967296 ≤ r.operand0))
    ∧ (∃ (s : State) (op : FabOp) (r : FabReq) (w : FabWindow) (n : Nat) (ofs : Nat) (o : SyncObj),
      (NoneQueued s) ∧ (ReachesObject s op r w n ofs) ∧ (o = objOf s n) ∧ (ofs + r.length ≤ 32) ∧ (o.type ≠ 0) ∧ (o.part =
        w.part) ∧ (o.orphaned = false) ∧ (op = .add) ∧ (r.length = 8) ∧ (ofs = 8) ∧ (o.waiters = []) ∧ (frontResiding s =
        none) ∧ (o.type = 5) ∧ (o.distributed = true) ∧ (o.home = true) ∧ (r.operand0 = 1) ∧ (o.arrived + 1 < o.participants))
    ∧ (∃ (s : State) (op : FabOp) (r : FabReq) (w : FabWindow) (n : Nat) (ofs : Nat) (o : SyncObj),
      (NoneQueued s) ∧ (ReachesObject s op r w n ofs) ∧ (o = objOf s n) ∧ (ofs + r.length ≤ 32) ∧ (o.type ≠ 0) ∧ (o.part =
        w.part) ∧ (o.orphaned = false) ∧ (op = .or) ∧ (r.length = 8) ∧ (ofs = 8) ∧ (o.type = 2) ∧ (r.operand0 = 1) ∧
        (o.waiters = []) ∧ (frontResiding s = none))
    ∧ (∃ (s : State) (op : FabOp) (r : FabReq) (w : FabWindow) (n : Nat) (ofs : Nat) (o : SyncObj),
      (NoneQueued s) ∧ (ReachesObject s op r w n ofs) ∧ (o = objOf s n) ∧ (ofs + r.length ≤ 32) ∧ (o.type ≠ 0) ∧ (o.part =
        w.part) ∧ (o.orphaned = false) ∧ (op = .store) ∧ (r.length = 8) ∧ (ofs = 16) ∧ (o.type = 5) ∧ (o.distributed = true) ∧
        (o.home = false) ∧ (o.waiters = []) ∧ (frontResiding s = none)) :=
  ⟨⟨{ up with parts := [(63, { state := .active, jobs := [9] })], mbr := { up.mbr with member := true, members := [1, 2] }, fab := { up.fab with device := 65, started := true, ports := [(11, { link := true, enabled := true }), (0, { link := true, enabled := true })], windows := [(4095, { job := 9, rd := true, wr := true, atom := true, kind := 1, ctx := 255, part := 63, base := 4096, length := 4096, region := 3, offset := 2093056 })] }, syn := { up.syn with objs := [(65535, { type := 1, part := 62 })] } },
    .add, { job := 9, src := 66, dst := 65, tag := 4294967295, addr := 8168, length := 8, firstStamp := 1000000000000 },
    { job := 9, rd := true, wr := true, atom := true, kind := 1, ctx := 255, part := 63, base := 4096, length := 4096, region := 3, offset := 2093056 },
    65535, 8, { type := 1, part := 62 },
      by decide +kernel⟩,
    ⟨{ up with parts := [(63, { state := .active, jobs := [9] })], mbr := { up.mbr with member := true, members := [1, 2] }, fab := { up.fab with device := 65, started := true, ports := [(11, { link := true, enabled := true }), (0, { link := true, enabled := true })], windows := [(4095, { job := 9, rd := true, wr := true, atom := true, kind := 1, ctx := 255, part := 63, base := 4096, length := 4096, region := 3, offset := 2093056 })] }, syn := { up.syn with objs := [(65535, { type := 1, part := 63, orphaned := true })] } },
      .add, { job := 9, src := 66, dst := 65, tag := 4294967295, addr := 8168, length := 8, firstStamp := 1000000000000 },
      { job := 9, rd := true, wr := true, atom := true, kind := 1, ctx := 255, part := 63, base := 4096, length := 4096, region := 3, offset := 2093056 },
      65535, 8, { type := 1, part := 63, orphaned := true },
      by decide +kernel⟩,
    ⟨{ up with parts := [(63, { state := .active, jobs := [9] })], mbr := { up.mbr with member := true, members := [1, 2] }, fab := { up.fab with device := 65, started := true, ports := [(11, { link := true, enabled := true }), (0, { link := true, enabled := true })], windows := [(4095, { job := 9, rd := true, wr := true, atom := true, kind := 1, ctx := 255, part := 63, base := 4096, length := 4096, region := 3, offset := 2093056 })] }, syn := { up.syn with objs := [(65535, { type := 1, part := 63 })] } },
      .load, { job := 9, src := 66, dst := 65, tag := 4294967295, addr := 8160, length := 32, firstStamp := 1000000000000 },
      { job := 9, rd := true, wr := true, atom := true, kind := 1, ctx := 255, part := 63, base := 4096, length := 4096, region := 3, offset := 2093056 },
      65535, 0, { type := 1, part := 63 },
      by decide +kernel⟩,
    ⟨{ up with parts := [(63, { state := .active, jobs := [9] })], mbr := { up.mbr with member := true, members := [1, 2] }, fab := { up.fab with device := 65, started := true, ports := [(11, { link := true, enabled := true }), (0, { link := true, enabled := true })], windows := [(4095, { job := 9, rd := true, wr := true, atom := true, kind := 1, ctx := 255, part := 63, base := 4096, length := 4096, region := 3, offset := 2093056 })] }, syn := { up.syn with objs := [(65535, { type := 1, part := 63 })] } },
      .add, { job := 9, src := 66, dst := 65, tag := 4294967295, addr := 8160, length := 8, firstStamp := 1000000000000 },
      { job := 9, rd := true, wr := true, atom := true, kind := 1, ctx := 255, part := 63, base := 4096, length := 4096, region := 3, offset := 2093056 },
      65535, 0, { type := 1, part := 63 },
      by decide +kernel⟩,
    ⟨{ up with parts := [(63, { state := .active, jobs := [9] })], mbr := { up.mbr with member := true, members := [1, 2] }, fab := { up.fab with device := 65, started := true, ports := [(11, { link := true, enabled := true }), (0, { link := true, enabled := true })], windows := [(4095, { job := 9, rd := true, wr := true, atom := true, kind := 1, ctx := 255, part := 63, base := 4096, length := 4096, region := 3, offset := 2093056 })] }, syn := { up.syn with objs := [(65535, { type := 1, part := 63, value := 3 })] } },
      .add,
      { job := 9, src := 66, dst := 65, tag := 4294967295, addr := 8168, length := 8, firstStamp := 1000000000000, operand0 := 18446744073709551615 },
      { job := 9, rd := true, wr := true, atom := true, kind := 1, ctx := 255, part := 63, base := 4096, length := 4096, region := 3, offset := 2093056 },
      65535, 8, { type := 1, part := 63, value := 3 },
      by unfold NoneQueued; decide +kernel, by decide +kernel⟩,
    ⟨{ up with parts := [(63, { state := .active, jobs := [9] })], mbr := { up.mbr with member := true, members := [1, 2] }, fab := { up.fab with device := 65, started := true, ports := [(11, { link := true, enabled := true }), (0, { link := true, enabled := true })], windows := [(4095, { job := 9, rd := true, wr := true, atom := true, kind := 1, ctx := 255, part := 63, base := 4096, length := 4096, region := 3, offset := 2093056 })] }, syn := { up.syn with objs := [(65535, { type := 3, part := 63, count := 4, limit := 9 })] } },
      .add,
      { job := 9, src := 66, dst := 65, tag := 4294967295, addr := 8168, length := 8, firstStamp := 1000000000000, operand0 := 5 },
      { job := 9, rd := true, wr := true, atom := true, kind := 1, ctx := 255, part := 63, base := 4096, length := 4096, region := 3, offset := 2093056 },
      65535, 8, { type := 3, part := 63, count := 4, limit := 9 },
      by unfold NoneQueued; decide +kernel, by decide +kernel⟩,
    ⟨{ up with parts := [(63, { state := .active, jobs := [9] })], mbr := { up.mbr with member := true, members := [1, 2] }, fab := { up.fab with device := 65, started := true, ports := [(11, { link := true, enabled := true }), (0, { link := true, enabled := true })], windows := [(4095, { job := 9, rd := true, wr := true, atom := true, kind := 1, ctx := 255, part := 63, base := 4096, length := 4096, region := 3, offset := 2093056 })] }, syn := { up.syn with objs := [(65535, { type := 3, part := 63 })] } },
      .add,
      { job := 9, src := 66, dst := 65, tag := 4294967295, addr := 8168, length := 8, firstStamp := 1000000000000, operand0 := 4294967296 },
      { job := 9, rd := true, wr := true, atom := true, kind := 1, ctx := 255, part := 63, base := 4096, length := 4096, region := 3, offset := 2093056 },
      65535, 8, { type := 3, part := 63 },
      by unfold NoneQueued; decide +kernel, by decide +kernel⟩,
    ⟨{ up with parts := [(63, { state := .active, jobs := [9] })], mbr := { up.mbr with member := true, members := [1, 2] }, fab := { up.fab with device := 65, started := true, ports := [(11, { link := true, enabled := true }), (0, { link := true, enabled := true })], windows := [(4095, { job := 9, rd := true, wr := true, atom := true, kind := 1, ctx := 255, part := 63, base := 4096, length := 4096, region := 3, offset := 2093056 })] }, syn := { up.syn with objs := [(65535, { type := 5, part := 63, distributed := true, home := true, participants := 2 })] } },
      .add,
      { job := 9, src := 66, dst := 65, tag := 4294967295, addr := 8168, length := 8, firstStamp := 1000000000000, operand0 := 1 },
      { job := 9, rd := true, wr := true, atom := true, kind := 1, ctx := 255, part := 63, base := 4096, length := 4096, region := 3, offset := 2093056 },
      65535, 8, { type := 5, part := 63, distributed := true, home := true, participants := 2 },
      by unfold NoneQueued; decide +kernel, by decide +kernel⟩,
    ⟨{ up with parts := [(63, { state := .active, jobs := [9] })], mbr := { up.mbr with member := true, members := [1, 2] }, fab := { up.fab with device := 65, started := true, ports := [(11, { link := true, enabled := true }), (0, { link := true, enabled := true })], windows := [(4095, { job := 9, rd := true, wr := true, atom := true, kind := 1, ctx := 255, part := 63, base := 4096, length := 4096, region := 3, offset := 2093056 })] }, syn := { up.syn with objs := [(65535, { type := 2, part := 63 })] } },
      .or,
      { job := 9, src := 66, dst := 65, tag := 4294967295, addr := 8168, length := 8, firstStamp := 1000000000000, operand0 := 1 },
      { job := 9, rd := true, wr := true, atom := true, kind := 1, ctx := 255, part := 63, base := 4096, length := 4096, region := 3, offset := 2093056 },
      65535, 8, { type := 2, part := 63 },
      by unfold NoneQueued; decide +kernel, by decide +kernel⟩,
    ⟨{ up with parts := [(63, { state := .active, jobs := [9] })], mbr := { up.mbr with member := true, members := [1, 2] }, fab := { up.fab with device := 65, started := true, ports := [(11, { link := true, enabled := true }), (0, { link := true, enabled := true })], windows := [(4095, { job := 9, rd := true, wr := true, atom := true, kind := 1, ctx := 255, part := 63, base := 4096, length := 4096, region := 3, offset := 2093056 })] }, syn := { up.syn with objs := [(65535, { type := 5, part := 63, distributed := true, phase := 4 })] } },
      .store,
      { job := 9, src := 66, dst := 65, tag := 4294967295, addr := 8176, length := 8, firstStamp := 1000000000000, data := List.replicate 8 3 },
      { job := 9, rd := true, wr := true, atom := true, kind := 1, ctx := 255, part := 63, base := 4096, length := 4096, region := 3, offset := 2093056 },
      65535, 16, { type := 5, part := 63, distributed := true, phase := 4 },
      by unfold NoneQueued; decide +kernel, by decide +kernel⟩⟩

theorem test_witness_FaultRecords :
    (∃ (r : FaultRec),
      (r.part < 64))
    ∧ (∃ (r : FaultRec) (p : _),
      (p ≠ r.part))
    ∧ (∃ (s : State),
      ((s.hlt.log.prod + 4294967296 - s.hlt.log.cons) % 4294967296 = 4096))
    ∧ (∃ (s : State),
      ((s.hlt.log.prod + 4294967296 - s.hlt.log.cons) % 4294967296 ≠ 4096))
    ∧ (∃ (s : State),
      (s.hlt.decayAt < s.tmb.free / 1966080000))
    ∧ (∃ (s : State),
      (s.tmb.free / 1966080000 ≤ s.hlt.decayAt))
    ∧ (∃ (s : State) (v : Nat),
      (v < 4294967296) ∧ (idxSub s.hlt.log.prod v ≤ idxSub s.hlt.log.prod s.hlt.log.cons))
    ∧ (∃ (s : State) (v : Nat),
      (v < 4294967296) ∧ (idxSub s.hlt.log.prod s.hlt.log.cons < idxSub s.hlt.log.prod v)) :=
  ⟨⟨{ code := 7, part := 63 },
      by decide +kernel⟩,
    ⟨{ code := 7, part := 63 }, 62,
      by decide +kernel⟩,
    ⟨{ up with hlt := { up.hlt with log := { prod := 4095, cons := 4294967295, recs := [(4095, { code := 1 })] } } },
      by decide +kernel⟩,
    ⟨{ up with hlt := { up.hlt with log := { prod := 4095, cons := 0, recs := [(4095, { code := 1 })] } } },
      by decide +kernel⟩,
    ⟨{ up with hlt := { up.hlt with penalty := 65535, decayAt := 507 } },
      by decide +kernel⟩,
    ⟨{ up with hlt := { up.hlt with penalty := 65535, decayAt := 508 } },
      by decide +kernel⟩,
    ⟨{ up with hlt := { up.hlt with log := { prod := 5, cons := 4294967295, recs := [(5, { code := 1 })] } } }, 4294967295,
      by decide +kernel⟩,
    ⟨{ up with hlt := { up.hlt with log := { prod := 5, cons := 4294967295, recs := [(5, { code := 1 })] } } }, 4294967294,
      by decide +kernel⟩⟩

theorem test_witness_ContextResets :
    (∃ (s : State) (m : Nat) (n : Nat) (c : Cmd),
      (∃ h < 64, tabHas s.ops h = false) ∧ (Due s m 0x0800 c) ∧ (field c.payload 0 1 = 0) ∧ (n = field c.payload 2 2) ∧ (n <
        256) ∧ ((ctxOf s n).state ≠ .absent) ∧ ((ctxOf s n).part = targetOf m c) ∧ (tabFind? s.hlt.ctxReset n = none))
    ∧ (∃ (s : State) (m : Nat) (n : Nat) (c : Cmd),
      (Due s m 0x0800 c) ∧ (field c.payload 0 1 = 0) ∧ (n = field c.payload 2 2) ∧ (n < 256) ∧ ((ctxOf s n).state = .absent ∨
        (ctxOf s n).part ≠ targetOf m c))
    ∧ (∃ (s : State) (c : Nat) (r : CtxReset),
      (c < 256) ∧ (inPhaseB s = false) ∧ (tabFind? s.hlt.ctxReset c = some r))
    ∧ (∃ (s : State) (c : Nat) (r : StepRun),
      (c < 256) ∧ ((ctxOf s c).step = some r) ∧ ((ctxOf s c).state ≠ .absent) ∧ (tabFind? s.hlt.ctxReset c = none) ∧ (r.start
        + s.hlt.inferenceWindow ≤ s.tmb.free) ∧ (s.tts.lent.length < 4096))
    ∧ (∃ (s : State) (c : Nat) (r : StepRun),
      (c < 256) ∧ ((ctxOf s c).step = some r) ∧ ((ctxOf s c).state ≠ .absent) ∧ (tabFind? s.hlt.ctxReset c = none) ∧
        (s.tmb.free < r.start + s.hlt.inferenceWindow))
    ∧ (∃ (s : State) (u : Nat) (k : Nat) (n : Nat) (p : Nat) (r : Reservation),
      (unitExists s.grade u = true) ∧ (isEndpoint u = false) ∧ ((unitRun s u).holder = .radio k n p) ∧ (resvOf s k n p = some
        r) ∧ (r.ended = none) ∧ ((tabGet s.hlt.progress u (0, 0)).2 + s.hlt.radioWindow ≤ s.tmb.free))
    ∧ (∃ (s : State) (u : Nat) (k : Nat) (n : Nat) (p : Nat) (r : Reservation),
      (unitExists s.grade u = true) ∧ (isEndpoint u = false) ∧ ((unitRun s u).holder = .radio k n p) ∧ (resvOf s k n p = some
        r) ∧ (r.ended = none) ∧ (s.tmb.free < (tabGet s.hlt.progress u (0, 0)).2 + s.hlt.radioWindow))
    ∧ (∃ (s : State) (c : Nat) (r : CtxReset),
      (c < 256) ∧ (tabFind? s.hlt.ctxReset c = some r) ∧ (s.hlt.grid = none) ∧ (r.trigger + 78643 < s.tmb.free))
    ∧ (∃ (s : State) (c : Nat) (r : CtxReset),
      (c < 256) ∧ (tabFind? s.hlt.ctxReset c = some r) ∧ (s.hlt.grid = none) ∧ (s.tmb.free ≤ r.trigger + 78643)) :=
  ⟨⟨(taking 0 (cmdOf 0x800 63 (leBytes 4 0xff0000))
    ({ up with parts := [(63, { state := .active, hdmBase := 1048576, hdmLen := 1048576, jobs := [9] })], grd := { up.grd with units := [(0, { holder := .lent 255 2, owner := 255 })] }, tts := { up.tts with lent := [{ ctx := 255, micro := 2, units := [0], bound := 100, launch := 5, dusk := 0, snap := [] }] }, syn := { up.syn with objs := [(5, { type := 4, part := 63, holder := 255 })], lists := [(4, 255, 1)] }, fab := { up.fab with fences := [{ ctx := 255, micro := 2, mover := 0xE0, tags := [7] }] }, rings := [(21, { base := 1048576, cls := 5, part := 63, toHost := true })], srv := { up.srv with ctxs := [(255, { part := 63, doneRing := 21, bind := { regions := [0], quads := [[0]], tiles := [[]], movers := [[]] }, state := .running, queue := [{}], step := some ({ start := 1000000000000, micros := [(2, { phase := .running })] }), holdings := [(5, 4, 1)] })] } })),
    0, 255, (cmdOf 0x800 63 (leBytes 4 0xff0000)),
      ⟨0, by decide +kernel, by decide +kernel⟩, by decide +kernel⟩,
    ⟨(taking 0 (cmdOf 0x800 63 (leBytes 4 0xfe0000))
      ({ up with parts := [(63, { state := .active, hdmBase := 1048576, hdmLen := 1048576, jobs := [9] })], grd := { up.grd with units := [(0, { holder := .lent 255 2, owner := 255 })] }, tts := { up.tts with lent := [{ ctx := 255, micro := 2, units := [0], bound := 100, launch := 5, dusk := 0, snap := [] }] }, syn := { up.syn with objs := [(5, { type := 4, part := 63, holder := 255 })], lists := [(4, 255, 1)] }, fab := { up.fab with fences := [{ ctx := 255, micro := 2, mover := 0xE0, tags := [7] }] }, rings := [(21, { base := 1048576, cls := 5, part := 63, toHost := true })], srv := { up.srv with ctxs := [(255, { part := 63, doneRing := 21, bind := { regions := [0], quads := [[0]], tiles := [[]], movers := [[]] }, state := .running, queue := [{}], step := some ({ start := 1000000000000, micros := [(2, { phase := .running })] }), holdings := [(5, 4, 1)] })] } })),
      0, 254, (cmdOf 0x800 63 (leBytes 4 0xfe0000)),
      by decide +kernel⟩,
    ⟨{ up with parts := [(63, { state := .active, hdmBase := 1048576, hdmLen := 1048576, jobs := [9] })], grd := { up.grd with units := [(0, { holder := .lent 255 2, owner := 255 })] }, tts := { up.tts with lent := [{ ctx := 255, micro := 2, units := [0], bound := 100, launch := 5, dusk := 0, snap := [] }] }, syn := { up.syn with objs := [(5, { type := 4, part := 63, holder := 255 })], lists := [(4, 255, 1)] }, fab := { up.fab with fences := [{ ctx := 255, micro := 2, mover := 0xE0, tags := [7] }] }, rings := [(21, { base := 1048576, cls := 5, part := 63, toHost := true })], srv := { up.srv with ctxs := [(255, { part := 63, doneRing := 21, bind := { regions := [0], quads := [[0]], tiles := [[]], movers := [[]] }, state := .running, queue := [{}], step := some ({ start := 1000000000000, micros := [(2, { phase := .running })] }), holdings := [(5, 4, 1)] })] }, hlt := { up.hlt with ctxReset := [(255, { trigger := 5, status := .aborted, handle := some 63 })] }, ops := [(63, { mbx := 0, opcode := 0x0800, part := 63, obj := 255, args := [0] })] },
      255, { trigger := 5, status := .aborted, handle := some 63 },
      by decide +kernel⟩,
    ⟨{ up with parts := [(63, { state := .active, hdmBase := 1048576, hdmLen := 1048576, jobs := [9] })], grd := { up.grd with units := [(0, { holder := .lent 255 2, owner := 255 })] }, tts := { up.tts with lent := [{ ctx := 255, micro := 2, units := [0], bound := 100, launch := 5, dusk := 0, snap := [] }] }, syn := { up.syn with objs := [(5, { type := 4, part := 63, holder := 255 })], lists := [(4, 255, 1)] }, fab := { up.fab with fences := [{ ctx := 255, micro := 2, mover := 0xE0, tags := [7] }] }, rings := [(21, { base := 1048576, cls := 5, part := 63, toHost := true })], srv := { up.srv with ctxs := [(255, { part := 63, doneRing := 21, bind := { regions := [0], quads := [[0]], tiles := [[]], movers := [[]] }, state := .running, queue := [{}], step := some ({ start := 999901696000, micros := [(2, { phase := .running })] }), holdings := [(5, 4, 1)] })] } },
      255, { start := 999901696000, micros := [(2, { phase := .running })] },
      by decide +kernel⟩,
    ⟨{ up with parts := [(63, { state := .active, hdmBase := 1048576, hdmLen := 1048576, jobs := [9] })], grd := { up.grd with units := [(0, { holder := .lent 255 2, owner := 255 })] }, tts := { up.tts with lent := [{ ctx := 255, micro := 2, units := [0], bound := 100, launch := 5, dusk := 0, snap := [] }] }, syn := { up.syn with objs := [(5, { type := 4, part := 63, holder := 255 })], lists := [(4, 255, 1)] }, fab := { up.fab with fences := [{ ctx := 255, micro := 2, mover := 0xE0, tags := [7] }] }, rings := [(21, { base := 1048576, cls := 5, part := 63, toHost := true })], srv := { up.srv with ctxs := [(255, { part := 63, doneRing := 21, bind := { regions := [0], quads := [[0]], tiles := [[]], movers := [[]] }, state := .running, queue := [{}], step := some ({ start := 999901696001, micros := [(2, { phase := .running })] }), holdings := [(5, 4, 1)] })] } },
      255, { start := 999901696001, micros := [(2, { phase := .running })] },
      by decide +kernel⟩,
    ⟨{ up with parts := [(63, { state := .active, hdmBase := 1048576, hdmLen := 1048576, jobs := [9] })], tts := { up.tts with tables := [(7, { state := .running, part := 63 })], resv := [{ table := 7, slot := 508626, pos := 0, entry := { launchOfs := 0, budget := 50, deadlineOfs := 100, unitBase := 0x7F, unitCount := 1, kind := 0 }, start := 999999999991, finish := 1000000000005, deadline := 1000000000007 }] }, grd := { up.grd with units := [(0x7F, { holder := .radio 7 508626 0, owner := 263 })] }, hlt := { up.hlt with progress := [(0x7F, (5, 999999606784))] } },
      0x7F, 7, 508626, 0,
      { table := 7, slot := 508626, pos := 0, entry := { launchOfs := 0, budget := 50, deadlineOfs := 100, unitBase := 0x7F, unitCount := 1, kind := 0 }, start := 999999999991, finish := 1000000000005, deadline := 1000000000007 },
      by decide +kernel⟩,
    ⟨{ up with parts := [(63, { state := .active, hdmBase := 1048576, hdmLen := 1048576, jobs := [9] })], tts := { up.tts with tables := [(7, { state := .running, part := 63 })], resv := [{ table := 7, slot := 508626, pos := 0, entry := { launchOfs := 0, budget := 50, deadlineOfs := 100, unitBase := 0x7F, unitCount := 1, kind := 0 }, start := 999999999991, finish := 1000000000005, deadline := 1000000000007 }] }, grd := { up.grd with units := [(0x7F, { holder := .radio 7 508626 0, owner := 263 })] }, hlt := { up.hlt with progress := [(0x7F, (5, 999999606785))] } },
      0x7F, 7, 508626, 0,
      { table := 7, slot := 508626, pos := 0, entry := { launchOfs := 0, budget := 50, deadlineOfs := 100, unitBase := 0x7F, unitCount := 1, kind := 0 }, start := 999999999991, finish := 1000000000005, deadline := 1000000000007 },
      by decide +kernel⟩,
    ⟨{ up with parts := [(63, { state := .active, hdmBase := 1048576, hdmLen := 1048576, jobs := [9] })], grd := { up.grd with units := [(0, { holder := .lent 255 2, owner := 255 })] }, tts := { up.tts with lent := [{ ctx := 255, micro := 2, units := [0], bound := 100, launch := 5, dusk := 0, snap := [] }] }, syn := { up.syn with objs := [(5, { type := 4, part := 63, holder := 255 })], lists := [(4, 255, 1)] }, fab := { up.fab with fences := [{ ctx := 255, micro := 2, mover := 0xE0, tags := [7] }] }, rings := [(21, { base := 1048576, cls := 5, part := 63, toHost := true })], srv := { up.srv with ctxs := [(255, { part := 63, doneRing := 21, bind := { regions := [0], quads := [[0]], tiles := [[]], movers := [[]] }, state := .running, queue := [{}], step := some ({ start := 1000000000000, micros := [(2, { phase := .running })] }), holdings := [(5, 4, 1)] })] }, hlt := { up.hlt with ctxReset := [(255, { trigger := 999999921356, status := .aborted, handle := none })] } },
      255, { trigger := 999999921356, status := .aborted, handle := none },
      by decide +kernel⟩,
    ⟨{ up with parts := [(63, { state := .active, hdmBase := 1048576, hdmLen := 1048576, jobs := [9] })], grd := { up.grd with units := [(0, { holder := .lent 255 2, owner := 255 })] }, tts := { up.tts with lent := [{ ctx := 255, micro := 2, units := [0], bound := 100, launch := 5, dusk := 0, snap := [] }] }, syn := { up.syn with objs := [(5, { type := 4, part := 63, holder := 255 })], lists := [(4, 255, 1)] }, fab := { up.fab with fences := [{ ctx := 255, micro := 2, mover := 0xE0, tags := [7] }] }, rings := [(21, { base := 1048576, cls := 5, part := 63, toHost := true })], srv := { up.srv with ctxs := [(255, { part := 63, doneRing := 21, bind := { regions := [0], quads := [[0]], tiles := [[]], movers := [[]] }, state := .running, queue := [{}], step := some ({ start := 1000000000000, micros := [(2, { phase := .running })] }), holdings := [(5, 4, 1)] })] }, hlt := { up.hlt with ctxReset := [(255, { trigger := 999999921357, status := .aborted, handle := none })] } },
      255, { trigger := 999999921357, status := .aborted, handle := none },
      by decide +kernel⟩⟩

theorem test_witness_GridResets :
    (∃ (s : State) (m : Nat) (c : Cmd),
      (Due s m 0x0800 c) ∧ (field c.payload 0 1 ≠ 0) ∧ (2 < field c.payload 0 1))
    ∧ (∃ (s : State) (m : Nat) (c : Cmd),
      (Due s m 0x0800 c) ∧ (field c.payload 0 1 ≠ 0) ∧ (field c.payload 0 1 ≤ 2) ∧ (isVf m = true))
    ∧ (∃ (s : State) (m : Nat) (c : Cmd),
      (∃ h < 64, tabHas s.ops h = false) ∧ (Due s m 0x0800 c) ∧ (field c.payload 0 1 ≠ 0) ∧ (field c.payload 0 1 = 1) ∧ (isVf
        m = false) ∧ (s.hlt.grid = none))
    ∧ (∃ (s : State) (m : Nat) (c : Cmd),
      (Due s m 0x0800 c) ∧ (field c.payload 0 1 ≠ 0) ∧ (field c.payload 0 1 = 2) ∧ (isVf m = false))
    ∧ (∃ (s : State) (g : GridReset),
      (s.hlt.grid = some g) ∧ (g.phaseB = none) ∧ (anyTableRuns s = false))
    ∧ (∃ (s : State) (g : GridReset),
      (s.hlt.grid = some g) ∧ (g.phaseB = none) ∧ (anyTableRuns s = true))
    ∧ (∃ (s : State) (g : GridReset) (b : Nat) (failed : List Nat),
      (s.hlt.grid = some g) ∧ (g.phaseB = some b) ∧ (∀ u ∈ failed, (isQuad u = true ∨ isTile u = true) ∧ unitExists s.grade u
        = true))
    ∧ (∃ (s : State) (g : GridReset) (b : Nat),
      (s.hlt.grid = some g) ∧ (g.phaseB = some b) ∧ (s.hlt.leaving = false) ∧ (b + 3932160 < s.tmb.free))
    ∧ (∃ (s : State) (g : GridReset) (b : Nat),
      (s.hlt.grid = some g) ∧ (g.phaseB = some b) ∧ (s.hlt.leaving = false) ∧ (s.tmb.free ≤ b + 3932160))
    ∧ (∃ (s : State) (m : Nat) (r : Nat) (i : Nat) (c : Cmd),
      (Due s m 0x0801 c) ∧ (r = field c.payload 0 4) ∧ (i = field c.payload 4 4) ∧ (r = 0 ∨ (19661 ≤ r ∧ r ≤ 3932160)) ∧ (i =
        0 ∨ (41287680 ≤ i ∧ i ≤ 1966080000)) ∧ (r = 0 ∨ ∀ x ∈ loadedTables s, x.tmpl.longestWait < r))
    ∧ (∃ (s : State) (m : Nat) (r : Nat) (i : Nat) (c : Cmd),
      (Due s m 0x0801 c) ∧ (r = field c.payload 0 4) ∧ (i = field c.payload 4 4) ∧ (r = 0 ∨ (19661 ≤ r ∧ r ≤ 3932160)) ∧ (i =
        0 ∨ (41287680 ≤ i ∧ i ≤ 1966080000)) ∧ (r ≠ 0) ∧ (∃ x ∈ loadedTables s, r ≤ x.tmpl.longestWait))
    ∧ (∃ (s : State) (m : Nat) (r : Nat) (i : Nat) (c : Cmd),
      (Due s m 0x0801 c) ∧ (r = field c.payload 0 4) ∧ (i = field c.payload 4 4) ∧ ((r ≠ 0 ∧ (r < 19661 ∨ 3932160 < r)) ∨ (i ≠
        0 ∧ (i < 41287680 ∨ 1966080000 < i)))) :=
  ⟨⟨(taking 0 (cmdOf 0x800 255 (leBytes 4 0x3)) up), 0, (cmdOf 0x800 255 (leBytes 4 0x3)),
      by decide +kernel⟩,
    ⟨(taking 79 (cmdOf 0x800 255 (leBytes 4 0x2))
      ({ up with parts := [(63, { state := .active, hdmBase := 1048576, hdmLen := 1048576, jobs := [9] })] })), 79, (cmdOf
      0x800 255 (leBytes 4 0x2)),
      by decide +kernel⟩,
    ⟨(taking 0 (cmdOf 0x800 255 (leBytes 4 0x1))
      ({ up with parts := [(63, { state := .active, hdmBase := 1048576, hdmLen := 1048576, jobs := [9] })], tts := { up.tts with tables := [(7, { state := .running, part := 63 })] } })),
      0, (cmdOf 0x800 255 (leBytes 4 0x1)),
      ⟨0, by decide +kernel, by decide +kernel⟩, by decide +kernel⟩,
    ⟨(taking 0 (cmdOf 0x800 255 (leBytes 4 0x2))
      ({ up with fab := { up.fab with ports := [(11, { link := true, enabled := true })] } })), 0, (cmdOf 0x800 255 (leBytes 4
      0x2)),
      by decide +kernel⟩,
    ⟨{ up with parts := [(63, { state := .active, hdmBase := 1048576, hdmLen := 1048576, jobs := [9] })], grd := { up.grd with units := [(0, { holder := .lent 255 2, owner := 255 })] }, tts := { up.tts with lent := [{ ctx := 255, micro := 2, units := [0], bound := 100, launch := 5, dusk := 0, snap := [] }] }, syn := { up.syn with objs := [(5, { type := 4, part := 63, holder := 255 })], lists := [(4, 255, 1)] }, fab := { up.fab with fences := [{ ctx := 255, micro := 2, mover := 0xE0, tags := [7] }] }, rings := [(21, { base := 1048576, cls := 5, part := 63, toHost := true })], srv := { up.srv with ctxs := [(255, { part := 63, doneRing := 21, bind := { regions := [0], quads := [[0]], tiles := [[]], movers := [[]] }, state := .running, queue := [{}], step := some ({ start := 1000000000000, micros := [(2, { phase := .running })] }), holdings := [(5, 4, 1)] })] }, hlt := { up.hlt with grid := some { trigger := 5, bound := 9, phaseB := none, handle := some 63 }, bad := [arrayAt 0 0], ctxReset := [(3, { trigger := 4, status := .aborted, handle := none })] }, ops := [(63, { mbx := 0, opcode := 0x0800, part := 63, obj := 65536, args := [0] })], mem := { cells := [(arrayAt 0 0, 7), (seqAt 0, 8)] } },
      { trigger := 5, bound := 9, phaseB := none, handle := some 63 },
      by decide +kernel⟩,
    ⟨{ up with parts := [(63, { state := .active, hdmBase := 1048576, hdmLen := 1048576, jobs := [9] })], grd := { up.grd with units := [(0, { holder := .lent 255 2, owner := 255 })] }, tts := { up.tts with tables := [(7, { state := .running, part := 63 })] }, syn := { up.syn with objs := [(5, { type := 4, part := 63, holder := 255 })], lists := [(4, 255, 1)] }, fab := { up.fab with fences := [{ ctx := 255, micro := 2, mover := 0xE0, tags := [7] }] }, rings := [(21, { base := 1048576, cls := 5, part := 63, toHost := true })], srv := { up.srv with ctxs := [(255, { part := 63, doneRing := 21, bind := { regions := [0], quads := [[0]], tiles := [[]], movers := [[]] }, state := .running, queue := [{}], step := some ({ start := 1000000000000, micros := [(2, { phase := .running })] }), holdings := [(5, 4, 1)] })] }, hlt := { up.hlt with grid := some { trigger := 5, bound := 9, phaseB := none, handle := some 63 }, bad := [arrayAt 0 0], ctxReset := [(3, { trigger := 4, status := .aborted, handle := none })] }, ops := [(63, { mbx := 0, opcode := 0x0800, part := 63, obj := 65536, args := [0] })], mem := { cells := [(arrayAt 0 0, 7), (seqAt 0, 8)] } },
      { trigger := 5, bound := 9, phaseB := none, handle := some 63 },
      by decide +kernel⟩,
    ⟨{ up with parts := [(63, { state := .active, hdmBase := 1048576, hdmLen := 1048576, jobs := [9] })], grd := { up.grd with units := [(0, { holder := .lent 255 2, owner := 255 })] }, tts := { up.tts with lent := [{ ctx := 255, micro := 2, units := [0], bound := 100, launch := 5, dusk := 0, snap := [] }] }, syn := { up.syn with objs := [(5, { type := 4, part := 63, holder := 255 })], lists := [(4, 255, 1)] }, fab := { up.fab with fences := [{ ctx := 255, micro := 2, mover := 0xE0, tags := [7] }] }, rings := [(21, { base := 1048576, cls := 5, part := 63, toHost := true })], srv := { up.srv with ctxs := [(255, { part := 63, doneRing := 21, bind := { regions := [0], quads := [[0]], tiles := [[]], movers := [[]] }, state := .running, queue := [{}], step := some ({ start := 1000000000000, micros := [(2, { phase := .running })] }), holdings := [(5, 4, 1)] })] }, hlt := { up.hlt with grid := some { trigger := 5, bound := 9, phaseB := (some 999999999991), handle := some 63 }, bad := [arrayAt 0 0], ctxReset := [(3, { trigger := 4, status := .aborted, handle := none })] }, ops := [(63, { mbx := 0, opcode := 0x0800, part := 63, obj := 65536, args := [0] })], mem := { cells := [(arrayAt 0 0, 7), (seqAt 0, 8)] } },
      { trigger := 5, bound := 9, phaseB := some 999999999991, handle := some 63 }, 999999999991, [0x7F, 15],
      by decide +kernel⟩,
    ⟨{ up with parts := [(63, { state := .active, hdmBase := 1048576, hdmLen := 1048576, jobs := [9] })], grd := { up.grd with units := [(0, { holder := .lent 255 2, owner := 255 })] }, tts := { up.tts with lent := [{ ctx := 255, micro := 2, units := [0], bound := 100, launch := 5, dusk := 0, snap := [] }] }, syn := { up.syn with objs := [(5, { type := 4, part := 63, holder := 255 })], lists := [(4, 255, 1)] }, fab := { up.fab with fences := [{ ctx := 255, micro := 2, mover := 0xE0, tags := [7] }] }, rings := [(21, { base := 1048576, cls := 5, part := 63, toHost := true })], srv := { up.srv with ctxs := [(255, { part := 63, doneRing := 21, bind := { regions := [0], quads := [[0]], tiles := [[]], movers := [[]] }, state := .running, queue := [{}], step := some ({ start := 1000000000000, micros := [(2, { phase := .running })] }), holdings := [(5, 4, 1)] })] }, hlt := { up.hlt with grid := some { trigger := 5, bound := 9, phaseB := (some 999996067839), handle := some 63 }, bad := [arrayAt 0 0], ctxReset := [(3, { trigger := 4, status := .aborted, handle := none })] }, ops := [(63, { mbx := 0, opcode := 0x0800, part := 63, obj := 65536, args := [0] })], mem := { cells := [(arrayAt 0 0, 7), (seqAt 0, 8)] } },
      { trigger := 5, bound := 9, phaseB := some 999996067839, handle := some 63 }, 999996067839,
      by decide +kernel⟩,
    ⟨{ up with parts := [(63, { state := .active, hdmBase := 1048576, hdmLen := 1048576, jobs := [9] })], grd := { up.grd with units := [(0, { holder := .lent 255 2, owner := 255 })] }, tts := { up.tts with lent := [{ ctx := 255, micro := 2, units := [0], bound := 100, launch := 5, dusk := 0, snap := [] }] }, syn := { up.syn with objs := [(5, { type := 4, part := 63, holder := 255 })], lists := [(4, 255, 1)] }, fab := { up.fab with fences := [{ ctx := 255, micro := 2, mover := 0xE0, tags := [7] }] }, rings := [(21, { base := 1048576, cls := 5, part := 63, toHost := true })], srv := { up.srv with ctxs := [(255, { part := 63, doneRing := 21, bind := { regions := [0], quads := [[0]], tiles := [[]], movers := [[]] }, state := .running, queue := [{}], step := some ({ start := 1000000000000, micros := [(2, { phase := .running })] }), holdings := [(5, 4, 1)] })] }, hlt := { up.hlt with grid := some { trigger := 5, bound := 9, phaseB := (some 999996067840), handle := some 63 }, bad := [arrayAt 0 0], ctxReset := [(3, { trigger := 4, status := .aborted, handle := none })] }, ops := [(63, { mbx := 0, opcode := 0x0800, part := 63, obj := 65536, args := [0] })], mem := { cells := [(arrayAt 0 0, 7), (seqAt 0, 8)] } },
      { trigger := 5, bound := 9, phaseB := some 999996067840, handle := some 63 }, 999996067840,
      by decide +kernel⟩,
    ⟨(taking 0 (cmdOf 0x801 255 (leBytes 8 0x7530000000004ccd))
      ({ up with tts := { up.tts with tables := [(7, { state := .loaded, part := 63, tmpl := { cells := [], longestWait := 19660, placement := { shape := {} } } })] } })),
      0, 19661, 1966080000, (cmdOf 0x801 255 (leBytes 8 0x7530000000004ccd)),
      by decide +kernel⟩,
    ⟨(taking 0 (cmdOf 0x801 255 (leBytes 8 0x276000000004ccd))
      ({ up with tts := { up.tts with tables := [(7, { state := .loaded, part := 63, tmpl := { cells := [], longestWait := 19661, placement := { shape := {} } } })] } })),
      0, 19661, 41287680, (cmdOf 0x801 255 (leBytes 8 0x276000000004ccd)),
      by decide +kernel⟩,
    ⟨(taking 0 (cmdOf 0x801 255 (leBytes 8 0x3c0001)) up), 0, 3932161, 0, (cmdOf 0x801 255 (leBytes 8 0x3c0001)),
      by decide +kernel⟩⟩

theorem test_witness_Heartbeats :
    (∃ (s : State) (h : Nat),
      (h = corrNow s / max 1 s.mbr.period * s.mbr.period) ∧ (s.mbr.member = true) ∧ (s.hlt.leaving = false) ∧ (s.dev.dawnDone
        = true) ∧ (h ≠ s.mbr.sentAt))
    ∧ (∃ (s : State) (h : Nat),
      (h = corrNow s / max 1 s.mbr.period * s.mbr.period) ∧ (s.mbr.member = true) ∧ (s.hlt.leaving = false) ∧ (s.dev.dawnDone
        = true) ∧ (h ≠ s.mbr.sentAt) ∧ (majority s ≤ (silentAt s h).length))
    ∧ (∃ (s : State),
      (s.mbr.member = false ∨ s.hlt.leaving = true ∨ s.dev.dawnDone = false))
    ∧ (∃ (b : Beat),
      (b.sender < 64) ∧ (b.health ≤ 1000))
    ∧ (∃ (s : State) (h : Nat) (e : Nat),
      (e ∈ silentAt s h))
    ∧ (∃ (s : State) (e : Nat),
      (coordinator s = some e)) :=
  ⟨⟨{ up with fab := { up.fab with device := 65 }, mbr := { up.mbr with member := true, epoch := 7, members := [1, 2, 3, 63], joined := 999999406080, heard := [(2, { beat := { sender := 2, epoch := 7, tick := 999999799296, health := 1000, twilight := false, suspects := [] }, ticks := [999999799296] }), (3, { beat := { sender := 3, epoch := 7, tick := 999999799296, health := 1000, twilight := false, suspects := [] }, ticks := [999999799296] }), (63, { beat := { sender := 63, epoch := 7, tick := 999999799296, health := 1000, twilight := false, suspects := [] }, ticks := [999999799296] })] } },
    999999995904,
      by decide +kernel⟩,
    ⟨{ up with fab := { up.fab with device := 65 }, mbr := { up.mbr with member := true, epoch := 7, members := [1, 2, 3, 63], joined := 999999406080, heard := [(63, { beat := { sender := 63, epoch := 7, tick := 999999799296, health := 1000, twilight := false, suspects := [] }, ticks := [999999209472] })] } },
      999999995904,
      by decide +kernel⟩,
    ⟨{ up with fab := { up.fab with device := 65 }, mbr := { up.mbr with member := true, epoch := 7, members := [1, 2, 3, 63] }, dev := { up.dev with dawnDone := false } },
      by decide +kernel⟩,
    ⟨{ sender := 63, epoch := 7, tick := 999999799296, health := 1000, twilight := false, suspects := [1] },
      by decide +kernel⟩,
    ⟨{ up with fab := { up.fab with device := 65 }, mbr := { up.mbr with member := true, epoch := 7, members := [1, 2, 3, 63], joined := 999999406080, heard := [(2, { beat := { sender := 2, epoch := 7, tick := 999999799296, health := 1000, twilight := false, suspects := [] }, ticks := [999999799296] })] } },
      999999995904, 63,
      by decide +kernel⟩,
    ⟨{ up with fab := { up.fab with device := 65 }, mbr := { up.mbr with member := true, epoch := 7, members := [1, 2, 3, 63], heard := [(2, { beat := { sender := 2, epoch := 7, tick := 999999799296, health := 1000, twilight := false, suspects := [1] }, ticks := [999999799296] }), (3, { beat := { sender := 3, epoch := 7, tick := 999999799296, health := 1000, twilight := false, suspects := [1] }, ticks := [999999799296] }), (63, { beat := { sender := 63, epoch := 7, tick := 999999799296, health := 1000, twilight := false, suspects := [1] }, ticks := [999999799296] })] } },
      2,
      by decide +kernel⟩⟩

theorem test_witness_Agreement :
    (∃ (s : State) (src : Nat) (ep : Nat) (n : Nat),
      (src < 64) ∧ (s.mbr.member = true) ∧ (ep = s.mbr.epoch + 1) ∧ (s.mbr.promised < n))
    ∧ (∃ (s : State) (src : Nat) (ep : Nat) (n : Nat),
      (src < 64) ∧ (s.mbr.member = false ∨ ep ≠ s.mbr.epoch + 1 ∨ n ≤ s.mbr.promised))
    ∧ (∃ (s : State) (src : Nat) (p : Proposal),
      (src < 64) ∧ (s.mbr.member = true) ∧ (p.epoch = s.mbr.epoch + 1) ∧ (s.mbr.promised ≤ p.round))
    ∧ (∃ (s : State) (src : Nat) (p : Proposal),
      (src < 64) ∧ (s.mbr.member = false ∨ p.epoch ≠ s.mbr.epoch + 1 ∨ p.round < s.mbr.promised))
    ∧ (∃ (s : State) (src : Nat) (r : Round),
      (src < 64) ∧ (s.mbr.round = some r) ∧ (r.sent = none) ∧ (src ∈ s.mbr.members) ∧ (∀ x ∈ r.promises, x.1 ≠ src) ∧
        (r.promises.length + 1 < majority s))
    ∧ (∃ (s : State) (src : Nat) (r : Round),
      (src < 64) ∧ (s.mbr.round = some r) ∧ (r.sent = none) ∧ (src ∈ s.mbr.members) ∧ (∀ x ∈ r.promises, x.1 ≠ src) ∧
        (majority s ≤ r.promises.length + 1))
    ∧ (∃ (l : List (Nat × Option Proposal)) (p : Proposal),
      (highestReturned l = some p))
    ∧ (∃ (s : State) (src : Nat) (r : Round) (p : Proposal),
      (src < 64) ∧ (s.mbr.round = some r) ∧ (r.sent = some p) ∧ (src ∈ s.mbr.members) ∧ (src ∉ r.accepted) ∧ (p.epoch =
        s.mbr.epoch + 1) ∧ (r.accepted.length + 1 < majority s))
    ∧ (∃ (s : State) (src : Nat) (r : Round) (p : Proposal),
      (src < 64) ∧ (s.mbr.round = some r) ∧ (r.sent = some p) ∧ (src ∈ s.mbr.members) ∧ (src ∉ r.accepted) ∧ (p.epoch =
        s.mbr.epoch + 1) ∧ (majority s ≤ r.accepted.length + 1))
    ∧ (∃ (s : State) (r : Round),
      (s.mbr.round = some r) ∧ (2 ≤ s.mbr.members.length) ∧ (r.started + 786432 ≤ s.tmb.free))
    ∧ (∃ (s : State) (r : Round),
      (s.mbr.round = some r) ∧ (2 ≤ s.mbr.members.length) ∧ (s.tmb.free < r.started + 786432))
    ∧ (∃ (s : State) (p : Proposal),
      (wanted s = some p))
    ∧ (∃ (s : State) (p : Proposal) (e : _),
      (e ∈ suspected s) ∧ (wanted s = some p) ∧ (e ∈ s.mbr.silent))
    ∧ (∃ (s : State) (p : Proposal) (e : _),
      (e ∈ suspected s) ∧ (wanted s = some p) ∧ (budgetAllows s = false) ∧ (e ∉ s.mbr.silent)) :=
  ⟨⟨{ up with fab := { up.fab with device := 65 }, mbr := { up.mbr with member := true, epoch := 7, members := [1, 2, 3, 63], promised := 4 } },
    63, 8, 5,
      by decide +kernel⟩,
    ⟨{ up with fab := { up.fab with device := 65 }, mbr := { up.mbr with member := true, epoch := 7, members := [1, 2, 3, 63], promised := 5 } },
      63, 8, 5,
      by decide +kernel⟩,
    ⟨{ up with fab := { up.fab with device := 65 }, mbr := { up.mbr with member := true, epoch := 7, members := [1, 2, 3, 63], promised := 5 } },
      63, { epoch := 8, round := 5, members := [1, 2, 3] },
      by decide +kernel⟩,
    ⟨{ up with fab := { up.fab with device := 65 }, mbr := { up.mbr with member := true, epoch := 7, members := [1, 2, 3, 63], promised := 6 } },
      63, { epoch := 8, round := 5, members := [1, 2, 3] },
      by decide +kernel⟩,
    ⟨{ up with fab := { up.fab with device := 65 }, mbr := { up.mbr with member := true, epoch := 7, members := [1, 2, 3, 63], promised := 5, round := some { round := 5, started := 999999999991, want := { epoch := 8, round := 0, members := [1, 2, 3] }, promises := [(1, none)] } } },
      63,
      { round := 5, started := 999999999991, want := { epoch := 8, round := 0, members := [1, 2, 3] }, promises := [(1, none)] },
      by decide +kernel⟩,
    ⟨{ up with fab := { up.fab with device := 65 }, mbr := { up.mbr with member := true, epoch := 7, members := [1, 2, 3, 63], promised := 5, round := some { round := 5, started := 999999999991, want := { epoch := 8, round := 0, members := [1, 2, 3] }, promises := [(1, none), (2, some { epoch := 8, round := 4, members := [1, 2, 63] })] } } },
      63,
      { round := 5, started := 999999999991, want := { epoch := 8, round := 0, members := [1, 2, 3] }, promises := [(1, none), (2, some { epoch := 8, round := 4, members := [1, 2, 63] })] },
      by decide +kernel⟩,
    ⟨[(1, none), (2, some { epoch := 8, round := 4, members := [1, 2, 63] })],
      { epoch := 8, round := 4, members := [1, 2, 63] },
      by decide +kernel⟩,
    ⟨{ up with fab := { up.fab with device := 65 }, mbr := { up.mbr with member := true, epoch := 7, members := [1, 2, 3, 63], promised := 5, round := some { round := 5, started := 999999999991, want := { epoch := 8, round := 0, members := [1, 2, 3] }, promises := [(1, none)], sent := some { epoch := 8, round := 5, members := [1, 2, 3] }, accepted := [1] } } },
      63,
      { round := 5, started := 999999999991, want := { epoch := 8, round := 0, members := [1, 2, 3] }, promises := [(1, none)], sent := some { epoch := 8, round := 5, members := [1, 2, 3] }, accepted := [1] },
      { epoch := 8, round := 5, members := [1, 2, 3] },
      by decide +kernel⟩,
    ⟨{ up with fab := { up.fab with device := 65 }, mbr := { up.mbr with member := true, epoch := 7, members := [1, 2, 3, 63], promised := 5, round := some { round := 5, started := 999999999991, want := { epoch := 8, round := 0, members := [1, 2, 3] }, promises := [(1, none)], sent := some { epoch := 8, round := 5, members := [1, 2, 3] }, accepted := [1, 2] } } },
      63,
      { round := 5, started := 999999999991, want := { epoch := 8, round := 0, members := [1, 2, 3] }, promises := [(1, none)], sent := some { epoch := 8, round := 5, members := [1, 2, 3] }, accepted := [1, 2] },
      { epoch := 8, round := 5, members := [1, 2, 3] },
      by decide +kernel⟩,
    ⟨{ up with fab := { up.fab with device := 65 }, mbr := { up.mbr with member := true, epoch := 7, members := [1, 2, 3, 63], promised := 5, round := some { round := 5, started := 999999213568, want := { epoch := 8, round := 0, members := [1, 2, 3] }, promises := [(1, none)] }, silent := [63], heard := [(2, { beat := { sender := 2, epoch := 7, tick := 999999799296, health := 1000, twilight := false, suspects := [63] }, ticks := [999999799296] }), (3, { beat := { sender := 3, epoch := 7, tick := 999999799296, health := 1000, twilight := false, suspects := [63] }, ticks := [999999799296] })] } },
      { round := 5, started := 999999213568, want := { epoch := 8, round := 0, members := [1, 2, 3] }, promises := [(1, none)] },
      by decide +kernel⟩,
    ⟨{ up with fab := { up.fab with device := 65 }, mbr := { up.mbr with member := true, epoch := 7, members := [1, 2, 3, 63], promised := 5, round := some { round := 5, started := 999999213569, want := { epoch := 8, round := 0, members := [1, 2, 3] }, promises := [(1, none)] }, silent := [63], heard := [(2, { beat := { sender := 2, epoch := 7, tick := 999999799296, health := 1000, twilight := false, suspects := [63] }, ticks := [999999799296] }), (3, { beat := { sender := 3, epoch := 7, tick := 999999799296, health := 1000, twilight := false, suspects := [63] }, ticks := [999999799296] })] } },
      { round := 5, started := 999999213569, want := { epoch := 8, round := 0, members := [1, 2, 3] }, promises := [(1, none)] },
      by decide +kernel⟩,
    ⟨{ up with fab := { up.fab with device := 65 }, mbr := { up.mbr with member := true, epoch := 7, members := [1, 2, 3, 63], silent := [63], heard := [(2, { beat := { sender := 2, epoch := 7, tick := 999999799296, health := 1000, twilight := false, suspects := [63] }, ticks := [999999799296] }), (3, { beat := { sender := 3, epoch := 7, tick := 999999799296, health := 1000, twilight := false, suspects := [63] }, ticks := [999999799296] })] } },
      ((wanted
      { up with fab := { up.fab with device := 65 }, mbr := { up.mbr with member := true, epoch := 7, members := [1, 2, 3, 63], silent := [63], heard := [(2, { beat := { sender := 2, epoch := 7, tick := 999999799296, health := 1000, twilight := false, suspects := [63] }, ticks := [999999799296] }), (3, { beat := { sender := 3, epoch := 7, tick := 999999799296, health := 1000, twilight := false, suspects := [63] }, ticks := [999999799296] })] } }).getD
      {}),
      by decide +kernel⟩,
    ⟨{ up with fab := { up.fab with device := 65 }, mbr := { up.mbr with member := true, epoch := 7, members := [1, 2, 3, 63], silent := [63], heard := [(2, { beat := { sender := 2, epoch := 7, tick := 999999799296, health := 1000, twilight := false, suspects := [63] }, ticks := [999999799296] }), (3, { beat := { sender := 3, epoch := 7, tick := 999999799296, health := 1000, twilight := false, suspects := [63] }, ticks := [999999799296] })] } },
      ((wanted
      { up with fab := { up.fab with device := 65 }, mbr := { up.mbr with member := true, epoch := 7, members := [1, 2, 3, 63], silent := [63], heard := [(2, { beat := { sender := 2, epoch := 7, tick := 999999799296, health := 1000, twilight := false, suspects := [63] }, ticks := [999999799296] }), (3, { beat := { sender := 3, epoch := 7, tick := 999999799296, health := 1000, twilight := false, suspects := [63] }, ticks := [999999799296] })] } }).getD
      {}), 63,
      by decide +kernel⟩,
    ⟨{ up with fab := { up.fab with device := 65 }, mbr := { up.mbr with member := true, epoch := 7, members := [1, 2, 3, 63], suspectBelow := 100, outstanding := 2, heard := [(2, { beat := { sender := 2, epoch := 7, tick := 999999799296, health := 1000, twilight := false, suspects := [63] }, ticks := [999999799296] }), (3, { beat := { sender := 3, epoch := 7, tick := 999999799296, health := 1000, twilight := false, suspects := [63] }, ticks := [999999799296] }), (63, { beat := { sender := 63, epoch := 7, tick := 999999799296, health := 99, twilight := false, suspects := [] }, ticks := [999999799296] })] } },
      ((wanted
      { up with fab := { up.fab with device := 65 }, mbr := { up.mbr with member := true, epoch := 7, members := [1, 2, 3, 63], suspectBelow := 100, outstanding := 2, heard := [(2, { beat := { sender := 2, epoch := 7, tick := 999999799296, health := 1000, twilight := false, suspects := [63] }, ticks := [999999799296] }), (3, { beat := { sender := 3, epoch := 7, tick := 999999799296, health := 1000, twilight := false, suspects := [63] }, ticks := [999999799296] }), (63, { beat := { sender := 63, epoch := 7, tick := 999999799296, health := 99, twilight := false, suspects := [] }, ticks := [999999799296] })] } }).getD
      {}), 63,
      by decide +kernel⟩⟩

theorem test_witness_EpochAdoption :
    (∃ (s : State) (p : Proposal),
      (∀ d ∈ p.members, d < 64) ∧ (s.mbr.member = true) ∧ (s.mbr.epoch < p.epoch) ∧ (2 ≤ p.members.length))
    ∧ (∃ (s : State) (p : Proposal),
      (∀ d ∈ p.members, d < 64) ∧ (s.mbr.member = false)) :=
  ⟨⟨{ up with parts := [(63, { state := .active, hdmBase := 1048576, hdmLen := 1048576, jobs := [9] })], grd := { up.grd with units := [(0, { holder := .lent 255 2, owner := 255 })] }, tts := { up.tts with lent := [{ ctx := 255, micro := 2, units := [0], bound := 100, launch := 5, dusk := 0, snap := [] }] }, syn := { up.syn with objs := [(5, { type := 4, part := 63, holder := 255 })], lists := [(4, 255, 1)] }, fab := { up.fab with device := 65 }, rings := [(21, { base := 1048576, cls := 5, part := 63, toHost := true })], srv := { up.srv with ctxs := [(255, { part := 63, doneRing := 21, bind := { regions := [0], quads := [[0]], tiles := [[]], movers := [[]] }, state := .running, queue := [{}], step := some ({ start := 1000000000000, micros := [(2, { phase := .running })] }), holdings := [(5, 4, 1)] })] }, mbr := { up.mbr with member := true, epoch := 7, members := [1, 2, 3, 63] } },
    { epoch := 8, round := 5, members := [1, 2, 3], twilight := [1], outstanding := 1, changed := 63, cause := 1, lost := [(5, 6, 7)] },
      by decide +kernel⟩,
    ⟨up,
      { epoch := 8, round := 5, members := [1, 2, 3], twilight := [1], outstanding := 1, changed := 63, cause := 1, lost := [(5, 6, 7)] },
      by decide +kernel⟩⟩

theorem test_witness_MembershipCommands :
    (∃ (s : State) (m : Nat) (c : Cmd),
      (∃ d ∈ s.mbr.members, d ≠ selfDev s) ∧ (Due s m 0x0810 c) ∧ (s.mbr.member = true))
    ∧ (∃ (s : State) (m : Nat) (c : Cmd),
      (Due s m 0x0810 c) ∧ (s.mbr.member = false ∨ ∀ d ∈ s.mbr.members, d = selfDev s) ∧ (field c.payload 16 4 = 0 ∨ field
        c.payload 20 1 = 0 ∨ field c.payload 24 8 = 0))
    ∧ (∃ (s : State) (m : Nat) (c : Cmd),
      (Due s m 0x0810 c) ∧ (s.mbr.member = false ∨ ∀ d ∈ s.mbr.members, d = selfDev s) ∧ (field c.payload 16 4 ≠ 0) ∧ (field
        c.payload 20 1 ≠ 0) ∧ (field c.payload 24 8 ≠ 0) ∧ (bit (field c.payload 0 8) (selfDev s) = false ∨ field c.payload 16
        4 < 19661 ∨ 1966080 < field c.payload 16 4 ∨ field c.payload 34 2 ≤ field c.payload 32 2))
    ∧ (∃ (s : State) (m : Nat) (c : Cmd),
      (Due s m 0x0810 c) ∧ (s.mbr.member = false ∨ ∀ d ∈ s.mbr.members, d = selfDev s) ∧ (field c.payload 16 4 ≠ 0) ∧ (field
        c.payload 20 1 ≠ 0) ∧ (field c.payload 24 8 ≠ 0) ∧ (bit (field c.payload 0 8) (selfDev s) = true) ∧ (19661 ≤ field
        c.payload 16 4) ∧ (field c.payload 16 4 ≤ 1966080) ∧ (field c.payload 32 2 < field c.payload 34 2))
    ∧ (∃ (s : State) (m : Nat) (c : Cmd),
      (Due s m 0x0811 c))
    ∧ (∃ (s : State) (m : Nat) (d : Nat) (c : Cmd),
      (Due s m 0x0812 c) ∧ (d = field c.payload 0 2) ∧ (s.mbr.member = false))
    ∧ (∃ (s : State) (m : Nat) (d : Nat) (c : Cmd),
      (Due s m 0x0812 c) ∧ (d = field c.payload 0 2) ∧ (s.mbr.member = true) ∧ (2 ≤ s.mbr.members.length) ∧ (d / 64 ≠
        s.fab.device / 64))
    ∧ (∃ (s : State) (m : Nat) (d : Nat) (c : Cmd),
      (∃ h < 64, tabHas s.ops h = false) ∧ (Due s m 0x0812 c) ∧ (d = field c.payload 0 2) ∧ (s.mbr.member = true) ∧ (2 ≤
        s.mbr.members.length) ∧ (d / 64 = s.fab.device / 64) ∧ (d % 64 ∉ s.mbr.members) ∧ (s.mbr.joining = none))
    ∧ (∃ (s : State) (m : Nat) (d : Nat) (c : Cmd),
      (Due s m 0x0813 c) ∧ (d = field c.payload 0 2) ∧ (s.mbr.member = false))
    ∧ (∃ (s : State) (m : Nat) (d : Nat) (c : Cmd),
      (Due s m 0x0813 c) ∧ (d = field c.payload 0 2) ∧ (s.mbr.member = true) ∧ (d / 64 = s.fab.device / 64) ∧ (field c.payload
        2 1 = 1))
    ∧ (∃ (s : State) (m : Nat) (d : Nat) (c : Cmd),
      (Due s m 0x0813 c) ∧ (d = field c.payload 0 2) ∧ (s.mbr.member = true) ∧ (d / 64 = s.fab.device / 64) ∧ (field c.payload
        2 1 = 0)) :=
  ⟨⟨(taking 0 (cmdOf 0x810 255 (leBytes 36 0x64006300000000000000010000000100004ccd00000000000000098000000000000002))
    ({ up with fab := { up.fab with device := 65 }, mbr := { up.mbr with member := true, epoch := 7, members := [1, 2, 3, 63] } })),
    0, (cmdOf 0x810 255 (leBytes 36 0x64006300000000000000010000000100004ccd00000000000000098000000000000002)),
      ⟨2, by decide +kernel, by decide +kernel⟩, by decide +kernel⟩,
    ⟨(taking 0 (cmdOf 0x810 255 (leBytes 36 0x64006300000000000000010000000000004ccd00000000000000098000000000000002))
      ({ up with fab := { up.fab with device := 65 } })), 0, (cmdOf 0x810 255 (leBytes 36
      0x64006300000000000000010000000000004ccd00000000000000098000000000000002)),
      by decide +kernel⟩,
    ⟨(taking 0 (cmdOf 0x810 255 (leBytes 36 0x63006300000000000000010000000100004ccd00000000000000098000000000000002))
      ({ up with fab := { up.fab with device := 65 } })), 0, (cmdOf 0x810 255 (leBytes 36
      0x63006300000000000000010000000100004ccd00000000000000098000000000000002)),
      by decide +kernel⟩,
    ⟨(taking 0 (cmdOf 0x810 255 (leBytes 36 0x64006300000000000000010000000100004ccd00000000000000098000000000000002))
      ({ up with fab := { up.fab with device := 65 }, mbr := { up.mbr with member := true, epoch := 7, members := [1] } })),
      0, (cmdOf 0x810 255 (leBytes 36 0x64006300000000000000010000000100004ccd00000000000000098000000000000002)),
      by decide +kernel⟩,
    ⟨(taking 0 (cmdOf 0x811 255 ([]))
      ({ up with fab := { up.fab with device := 65 }, mbr := { up.mbr with member := true, epoch := 7, members := [1, 2, 3, 63] } })),
      0, (cmdOf 0x811 255 ([])),
      by decide +kernel⟩,
    ⟨(taking 0 (cmdOf 0x812 255 (leBytes 2 0x42)) ({ up with fab := { up.fab with device := 65 } })), 0, 66, (cmdOf 0x812 255
      (leBytes 2 0x42)),
      by decide +kernel⟩,
    ⟨(taking 0 (cmdOf 0x812 255 (leBytes 2 0x80))
      ({ up with fab := { up.fab with device := 65 }, mbr := { up.mbr with member := true, epoch := 7, members := [1, 2, 3, 63] } })),
      0, 128, (cmdOf 0x812 255 (leBytes 2 0x80)),
      by decide +kernel⟩,
    ⟨(taking 0 (cmdOf 0x812 255 (leBytes 2 0x7e))
      ({ up with fab := { up.fab with device := 65 }, mbr := { up.mbr with member := true, epoch := 7, members := [1, 2, 3, 63] } })),
      0, 126, (cmdOf 0x812 255 (leBytes 2 0x7e)),
      ⟨0, by decide +kernel, by decide +kernel⟩, by decide +kernel⟩,
    ⟨(taking 0 (cmdOf 0x813 255 (leBytes 3 0x42)) ({ up with fab := { up.fab with device := 65 } })), 0, 66, (cmdOf 0x813 255
      (leBytes 3 0x42)),
      by decide +kernel⟩,
    ⟨(taking 0 (cmdOf 0x813 255 (leBytes 3 0x1007f))
      ({ up with fab := { up.fab with device := 65 }, mbr := { up.mbr with member := true, epoch := 7, members := [1, 2, 3, 63] } })),
      0, 127, (cmdOf 0x813 255 (leBytes 3 0x1007f)),
      by decide +kernel⟩,
    ⟨(taking 0 (cmdOf 0x813 255 (leBytes 3 0x7f))
      ({ up with fab := { up.fab with device := 65 }, mbr := { up.mbr with member := true, epoch := 7, members := [1, 2, 3, 63], named := [63] } })),
      0, 127, (cmdOf 0x813 255 (leBytes 3 0x7f)),
      by decide +kernel⟩⟩

theorem test_witness_StepLedger :
    (∃ (s : State) (m : Nat) (n : Nat) (job : Nat) (c : Cmd),
      (Due s m 0x0820 c) ∧ (n = field c.payload 0 2) ∧ (job = field c.payload 4 4) ∧ (field c.payload 16 8 % 8 ≠ 0 ∨ (job ≠ 0
        ∧ job ∉ (partOf s (targetOf m c)).jobs)))
    ∧ (∃ (s : State) (m : Nat) (n : Nat) (job : Nat) (c : Cmd),
      (Due s m 0x0820 c) ∧ (n = field c.payload 0 2) ∧ (job = field c.payload 4 4) ∧ (field c.payload 16 8 % 8 = 0) ∧ (job = 0
        ∨ job ∈ (partOf s (targetOf m c)).jobs) ∧ (n < 256) ∧ ((ctxOf s n).state ≠ .absent) ∧ ((ctxOf s n).part = targetOf m
        c) ∧ ((ctxOf s n).step ≠ none))
    ∧ (∃ (s : State) (m : Nat) (n : Nat) (job : Nat) (c : Cmd),
      (Due s m 0x0820 c) ∧ (n = field c.payload 0 2) ∧ (job = field c.payload 4 4) ∧ (field c.payload 16 8 % 8 = 0) ∧ (job = 0
        ∨ job ∈ (partOf s (targetOf m c)).jobs) ∧ (n < 256) ∧ ((ctxOf s n).state ≠ .absent) ∧ ((ctxOf s n).part = targetOf m
        c) ∧ ((ctxOf s n).step = none))
    ∧ (∃ (s : State) (c : Nat) (old : Nat) (k : Nat) (r : StepRun) (x : TagRec),
      (c < 256) ∧ (old < 2 ^ 64) ∧ ((ctxOf s c).step = some r) ∧ (r.cas = true) ∧ (casTag s c = some x) ∧ (x.state ≠ .issued)
        ∧ (x.result = old) ∧ (k = (ctxOf s c).rng.step) ∧ (x.status = .success) ∧ (old = k))
    ∧ (∃ (s : State) (c : Nat) (old : Nat) (k : Nat) (r : StepRun) (x : TagRec),
      (c < 256) ∧ (old < 2 ^ 64) ∧ ((ctxOf s c).step = some r) ∧ (r.cas = true) ∧ (casTag s c = some x) ∧ (x.state ≠ .issued)
        ∧ (x.result = old) ∧ (k = (ctxOf s c).rng.step) ∧ (x.status = .success) ∧ (k < old))
    ∧ (∃ (s : State) (c : Nat) (old : Nat) (k : Nat) (r : StepRun) (x : TagRec),
      (c < 256) ∧ (old < 2 ^ 64) ∧ ((ctxOf s c).step = some r) ∧ (r.cas = true) ∧ (casTag s c = some x) ∧ (x.state ≠ .issued)
        ∧ (x.result = old) ∧ (k = (ctxOf s c).rng.step) ∧ (x.status = .success) ∧ (old < k))
    ∧ (∃ (s : State) (c : Nat) (old : Nat) (k : Nat) (r : StepRun) (x : TagRec),
      (c < 256) ∧ (old < 2 ^ 64) ∧ ((ctxOf s c).step = some r) ∧ (r.cas = true) ∧ (casTag s c = some x) ∧ (x.state ≠ .issued)
        ∧ (x.result = old) ∧ (k = (ctxOf s c).rng.step) ∧ (x.status ≠ .success))
    ∧ (∃ (s : State) (c : Nat) (r : StepRun) (b : LedgerBind),
      (c < 256) ∧ ((ctxOf s c).step = some r) ∧ ((ctxOf s c).bindLedger = some b) ∧ (r.slow = false) ∧ (b.slowAfter ≠ 0) ∧
        (r.start + b.slowAfter ≤ s.tmb.free))
    ∧ (∃ (s : State) (c : Nat) (r : StepRun) (b : LedgerBind),
      (c < 256) ∧ ((ctxOf s c).step = some r) ∧ ((ctxOf s c).bindLedger = some b) ∧ (r.slow = true ∨ b.slowAfter = 0 ∨
        s.tmb.free < r.start + b.slowAfter)) :=
  ⟨⟨(taking 0 (cmdOf 0x820 63 (leBytes 28 0x320000000000000041000000000000004200000009000000ff))
    ({ up with parts := [(63, { state := .active, hdmBase := 1048576, hdmLen := 1048576, jobs := [9] })], srv := { up.srv with ctxs := [(255, { part := 63, doneRing := 21, bind := { regions := [0], quads := [[0]], tiles := [[]], movers := [[]] }, state := .resident })] } })),
    0, 255, 9, (cmdOf 0x820 63 (leBytes 28 0x320000000000000041000000000000004200000009000000ff)),
      by decide +kernel⟩,
    ⟨(taking 0 (cmdOf 0x820 63 (leBytes 28 0x320000000000000040000000000000004200000009000000ff))
      ({ up with parts := [(63, { state := .active, hdmBase := 1048576, hdmLen := 1048576, jobs := [9] })], grd := { up.grd with units := [(0, { holder := .lent 255 2, owner := 255 })] }, tts := { up.tts with lent := [{ ctx := 255, micro := 2, units := [0], bound := 100, launch := 5, dusk := 0, snap := [] }] }, syn := { up.syn with objs := [(5, { type := 4, part := 63, holder := 255 })], lists := [(4, 255, 1)] }, fab := { up.fab with fences := [{ ctx := 255, micro := 2, mover := 0xE0, tags := [7] }] }, rings := [(21, { base := 1048576, cls := 5, part := 63, toHost := true })], srv := { up.srv with ctxs := [(255, { part := 63, doneRing := 21, bind := { regions := [0], quads := [[0]], tiles := [[]], movers := [[]] }, state := .running, queue := [{}], step := some ({ start := 1000000000000, micros := [(2, { phase := .running })] }), holdings := [(5, 4, 1)] })] } })),
      0, 255, 9, (cmdOf 0x820 63 (leBytes 28 0x320000000000000040000000000000004200000009000000ff)),
      by decide +kernel⟩,
    ⟨(taking 0 (cmdOf 0x820 63 (leBytes 28 0x320000000000000040000000000000004200000009000000ff))
      ({ up with parts := [(63, { state := .active, hdmBase := 1048576, hdmLen := 1048576, jobs := [9] })], srv := { up.srv with ctxs := [(255, { part := 63, doneRing := 21, bind := { regions := [0], quads := [[0]], tiles := [[]], movers := [[]] }, state := .resident })] } })),
      0, 255, 9, (cmdOf 0x820 63 (leBytes 28 0x320000000000000040000000000000004200000009000000ff)),
      by decide +kernel⟩,
    ⟨{ up with parts := [(63, { state := .active, hdmBase := 1048576, hdmLen := 1048576, jobs := [9] })], rings := [(21, { base := 1048576, cls := 5, part := 63, toHost := true })], fab := { up.fab with tags := [(7, { state := .resolved, origin := .ledger 255, op := .cas, status := .success, result := 18446744073709551615 })] }, srv := { up.srv with ctxs := [(255, { part := 63, doneRing := 21, bind := { regions := [0], quads := [[0]], tiles := [[]], movers := [[]] }, state := .running, queue := [{}], rng := { step := 18446744073709551615 }, step := some { start := 999999999995, micros := [(2, { phase := .done })], cas := true } })] } },
      255, 18446744073709551615, 18446744073709551615,
      { start := 999999999995, micros := [(2, { phase := .done })], cas := true },
      { state := .resolved, origin := .ledger 255, op := .cas, status := .success, result := 18446744073709551615 },
      by decide +kernel⟩,
    ⟨{ up with parts := [(63, { state := .active, hdmBase := 1048576, hdmLen := 1048576, jobs := [9] })], rings := [(21, { base := 1048576, cls := 5, part := 63, toHost := true })], fab := { up.fab with tags := [(7, { state := .resolved, origin := .ledger 255, op := .cas, status := .success, result := 6 })] }, srv := { up.srv with ctxs := [(255, { part := 63, doneRing := 21, bind := { regions := [0], quads := [[0]], tiles := [[]], movers := [[]] }, state := .running, queue := [{}], rng := { step := 5 }, step := some { start := 999999999995, micros := [(2, { phase := .done })], cas := true } })] } },
      255, 6, 5, { start := 999999999995, micros := [(2, { phase := .done })], cas := true },
      { state := .resolved, origin := .ledger 255, op := .cas, status := .success, result := 6 },
      by decide +kernel⟩,
    ⟨{ up with parts := [(63, { state := .active, hdmBase := 1048576, hdmLen := 1048576, jobs := [9] })], rings := [(21, { base := 1048576, cls := 5, part := 63, toHost := true })], fab := { up.fab with tags := [(7, { state := .resolved, origin := .ledger 255, op := .cas, status := .success, result := 4 })] }, srv := { up.srv with ctxs := [(255, { part := 63, doneRing := 21, bind := { regions := [0], quads := [[0]], tiles := [[]], movers := [[]] }, state := .running, queue := [{}], rng := { step := 5 }, step := some { start := 999999999995, micros := [(2, { phase := .done })], cas := true } })] } },
      255, 4, 5, { start := 999999999995, micros := [(2, { phase := .done })], cas := true },
      { state := .resolved, origin := .ledger 255, op := .cas, status := .success, result := 4 },
      by decide +kernel⟩,
    ⟨{ up with parts := [(63, { state := .active, hdmBase := 1048576, hdmLen := 1048576, jobs := [9] })], rings := [(21, { base := 1048576, cls := 5, part := 63, toHost := true })], fab := { up.fab with tags := [(7, { state := .resolved, origin := .ledger 255, op := .cas, status := .fabricTimeout, result := 0 })] }, srv := { up.srv with ctxs := [(255, { part := 63, doneRing := 21, bind := { regions := [0], quads := [[0]], tiles := [[]], movers := [[]] }, state := .running, queue := [{}], rng := { step := 5 }, step := some { start := 999999999995, micros := [(2, { phase := .done })], cas := true } })] } },
      255, 0, 5, { start := 999999999995, micros := [(2, { phase := .done })], cas := true },
      { state := .resolved, origin := .ledger 255, op := .cas, status := .fabricTimeout, result := 0 },
      by decide +kernel⟩,
    ⟨{ up with parts := [(63, { state := .active, hdmBase := 1048576, hdmLen := 1048576, jobs := [9] })], grd := { up.grd with units := [(0, { holder := .lent 255 2, owner := 255 })] }, tts := { up.tts with lent := [{ ctx := 255, micro := 2, units := [0], bound := 100, launch := 5, dusk := 0, snap := [] }] }, syn := { up.syn with objs := [(5, { type := 4, part := 63, holder := 255 })], lists := [(4, 255, 1)] }, fab := { up.fab with fences := [{ ctx := 255, micro := 2, mover := 0xE0, tags := [7] }] }, rings := [(21, { base := 1048576, cls := 5, part := 63, toHost := true })], srv := { up.srv with ctxs := [(255, { part := 63, doneRing := 21, bind := { regions := [0], quads := [[0]], tiles := [[]], movers := [[]] }, state := .running, queue := [{}], step := some ({ start := 999999999950, micros := [(2, { phase := .running })] }), holdings := [(5, 4, 1)], bindLedger := some { job := 9, device := 66, addr := 64, slowAfter := 50 } })] } },
      255, { start := 999999999950, micros := [(2, { phase := .running })] },
      { job := 9, device := 66, addr := 64, slowAfter := 50 },
      by decide +kernel⟩,
    ⟨{ up with parts := [(63, { state := .active, hdmBase := 1048576, hdmLen := 1048576, jobs := [9] })], grd := { up.grd with units := [(0, { holder := .lent 255 2, owner := 255 })] }, tts := { up.tts with lent := [{ ctx := 255, micro := 2, units := [0], bound := 100, launch := 5, dusk := 0, snap := [] }] }, syn := { up.syn with objs := [(5, { type := 4, part := 63, holder := 255 })], lists := [(4, 255, 1)] }, fab := { up.fab with fences := [{ ctx := 255, micro := 2, mover := 0xE0, tags := [7] }] }, rings := [(21, { base := 1048576, cls := 5, part := 63, toHost := true })], srv := { up.srv with ctxs := [(255, { part := 63, doneRing := 21, bind := { regions := [0], quads := [[0]], tiles := [[]], movers := [[]] }, state := .running, queue := [{}], step := some ({ start := 999999999951, micros := [(2, { phase := .running })] }), holdings := [(5, 4, 1)], bindLedger := some { job := 9, device := 66, addr := 64, slowAfter := 50 } })] } },
      255, { start := 999999999951, micros := [(2, { phase := .running })] },
      { job := 9, device := 66, addr := 64, slowAfter := 50 },
      by decide +kernel⟩⟩

theorem test_witness_ControlPeriod :
    (∃ (s : State) (v : Sensors),
      (v.grid.length ≤ 64) ∧ (v.pkg.length ≤ 8) ∧ (v.dom.length ≤ 7) ∧ (s.dev.dawnDone = true) ∧ (s.pwr.tripped = false) ∧
        (s.pwr.periodStart < s.tmb.free / 1966080 * 1966080) ∧ (tripped (present s.grade v) = none))
    ∧ (∃ (s : State) (v : Sensors),
      (v.grid.length ≤ 64) ∧ (v.pkg.length ≤ 8) ∧ (v.dom.length ≤ 7) ∧ (s.dev.dawnDone = false ∨ s.pwr.tripped = true ∨
        s.tmb.free / 1966080 * 1966080 ≤ s.pwr.periodStart))
    ∧ (∃ (s : State) (f : Nat),
      (s.pwr.stepTo = some f) ∧ (s.pwr.vTick ≤ s.tmb.free))
    ∧ (∃ (s : State) (f : Nat),
      (s.pwr.stepTo = some f) ∧ (s.tmb.free < s.pwr.vTick))
    ∧ (∃ (s : State) (m : Nat) (c : Cmd),
      (Due s m 0x0830 c) ∧ (field c.payload 0 2 = 0 ∨ (gradeCapMin s.grade ≤ field c.payload 0 2 ∧ field c.payload 0 2 ≤
        gradeTdp s.grade)))
    ∧ (∃ (s : State) (m : Nat) (c : Cmd),
      (Due s m 0x0830 c) ∧ (field c.payload 0 2 ≠ 0) ∧ (field c.payload 0 2 < gradeCapMin s.grade ∨ gradeTdp s.grade < field
        c.payload 0 2)) :=
  ⟨⟨{ up with grd := { up.grd with clock := 2000 }, pwr := { up.pwr with periodStart := 999999406079, stepTo := none, fCap := 2000, capNext := some 300, duty := 60 } },
    { pIn := 1300, grid := [1521], pkg := [0, 0, 0, 0, 0, 0, 1712], energy := 5 },
      by decide +kernel⟩,
    ⟨{ up with pwr := { up.pwr with periodStart := 999999406080 } },
      { pIn := 5, grid := [5], pkg := [0, 0, 0, 0, 0, 0, 5], energy := 5 },
      by decide +kernel⟩,
    ⟨{ up with pwr := { up.pwr with stepTo := some 2025, vTick := 1000000000000 } }, 2025,
      by decide +kernel⟩,
    ⟨{ up with pwr := { up.pwr with stepTo := some 2025, vTick := 1000000000001 } }, 2025,
      by decide +kernel⟩,
    ⟨(taking 0 (cmdOf 0x830 255 (leBytes 4 0)) up), 0, (cmdOf 0x830 255 (leBytes 4 0)),
      by decide +kernel⟩,
    ⟨(taking 0 (cmdOf 0x830 255 (leBytes 4 0x1)) up), 0, (cmdOf 0x830 255 (leBytes 4 0x1)),
      by decide +kernel⟩⟩

theorem test_witness_InputAndTrips :
    (∃ (s : State) (v : Nat),
      (v < 32768) ∧ (v < 4000) ∧ (s.pwr.uvWarn = false))
    ∧ (∃ (s : State) (v : Nat),
      (v < 32768) ∧ (v < 4000) ∧ (s.pwr.uvWarn = true))
    ∧ (∃ (v : Nat),
      (v < 32768) ∧ (4000 ≤ v))
    ∧ (∃ (s : State) (v : Nat),
      (v < 32768) ∧ (s.pwr.uvWarn = true) ∧ (4100 < v))
    ∧ (∃ (s : State) (v : Nat),
      (v < 32768) ∧ (s.pwr.uvWarn = false ∨ v ≤ 4100))
    ∧ (∃ (s : State) (v : Nat) (b : Nat),
      (s.pwr.below36 = some b) ∧ (s.pwr.tripped = false) ∧ (v < 3600) ∧ (b + 196608 ≤ s.tmb.free))
    ∧ (∃ (s : State) (v : Nat) (b : Nat),
      (s.pwr.below36 = some b) ∧ (s.pwr.tripped = false) ∧ (v < 32768) ∧ (3600 ≤ v ∨ s.tmb.free < b + 196608))
    ∧ (∃ (s : State) (v : Sensors) (k : Nat) (x : Int),
      (v.grid.length ≤ 64) ∧ (v.pkg.length ≤ 8) ∧ (v.dom.length ≤ 7) ∧ (s.dev.dawnDone = true) ∧ (s.pwr.tripped = false) ∧
        (s.pwr.periodStart < s.tmb.free / 1966080 * 1966080) ∧ (tripped (present s.grade v) = some (k, x))) :=
  ⟨⟨up, 3599,
      by decide +kernel⟩,
    ⟨{ up with pwr := { up.pwr with uvWarn := true } }, 3600,
      by decide +kernel⟩,
    ⟨4000,
      by decide +kernel⟩,
    ⟨{ up with pwr := { up.pwr with uvWarn := true } }, 4101,
      by decide +kernel⟩,
    ⟨{ up with pwr := { up.pwr with uvWarn := true } }, 4100,
      by decide +kernel⟩,
    ⟨{ up with pwr := { up.pwr with below36 := some 999999803392, uvWarn := true } }, 3599, 999999803392,
      by decide +kernel⟩,
    ⟨{ up with pwr := { up.pwr with below36 := some 999999803393, uvWarn := true } }, 3599, 999999803393,
      by decide +kernel⟩,
    ⟨{ up with grd := { up.grd with clock := 2025 }, pwr := { up.pwr with periodStart := 999999406079, stepTo := none } },
      { pIn := 5, grid := [1840], pkg := [0, 0, 0, 0, 0, 0, 5], energy := 5 }, 0, 1840,
      by decide +kernel⟩⟩

theorem test_witness_BackgroundWork :
    (∃ (s : State) (m : Nat) (w : Nat) (d : Nat) (c : Cmd),
      (Due s m 0x0831 c) ∧ (w = field c.payload 0 4) ∧ (d = field c.payload 4 4) ∧ (4000 ≤ w) ∧ (w ≤ 196608) ∧ (19660800 ≤ d)
        ∧ (d ≤ 1966080000) ∧ (gapsRemain s (loadedTables s) w = true))
    ∧ (∃ (s : State) (m : Nat) (w : Nat) (d : Nat) (c : Cmd),
      (Due s m 0x0831 c) ∧ (w = field c.payload 0 4) ∧ (d = field c.payload 4 4) ∧ (w ≠ 0) ∧ (d ≠ 0) ∧ (w < 4000 ∨ 196608 < w
        ∨ d < 19660800 ∨ 1966080000 < d ∨ gapsRemain s (loadedTables s) w = false))
    ∧ (∃ (s : State) (m : Nat) (w : Nat) (d : Nat) (c : Cmd),
      (Due s m 0x0831 c) ∧ (w = field c.payload 0 4) ∧ (d = field c.payload 4 4) ∧ (w = 0 ∨ d = 0))
    ∧ (∃ (s : State),
      (s.bg.strideStart + s.bg.stride ≤ s.tmb.free))
    ∧ (∃ (s : State),
      (s.tmb.free < s.bg.strideStart + s.bg.stride))
    ∧ (∃ (s : State) (u : Nat) (i : BgItem),
      (unitExists s.grade u = true) ∧ (bgMayStart s u i = true))
    ∧ (∃ (s : State) (u : Nat) (i : BgItem),
      (unitExists s.grade u = true) ∧ (bgMayStart s u i = false))
    ∧ (∃ (s : State) (u : Nat) (i : BgItem),
      (bgMayStart s u i = true))
    ∧ (∃ (s : State) (u : Nat) (x : Nat) (i : BgItem) (r : BgResult),
      (unitExists s.grade u = true) ∧ ((unitRun s u).holder = .item i x) ∧ (∀ d ∈ r.deltas, d.1 < 6 ∧ d.2 % 5 = 0))
    ∧ (∃ (s : State) (u : Nat) (r : BgResult),
      (∀ i x, (unitRun s u).holder ≠ .item i x) ∧ (unitExists s.grade u = true) ∧ (∀ d ∈ r.deltas, d.1 < 6 ∧ d.2 % 5 = 0)) :=
  ⟨⟨(taking 0 (cmdOf 0x831 255 (leBytes 8 0x7530000000030000)) up), 0, 196608, 1966080000, (cmdOf 0x831 255 (leBytes 8
    0x7530000000030000)),
      by decide +kernel⟩,
    ⟨(taking 0 (cmdOf 0x831 255 (leBytes 8 0x12c000000000f9f)) up), 0, 3999, 19660800, (cmdOf 0x831 255 (leBytes 8
      0x12c000000000f9f)),
      by decide +kernel⟩,
    ⟨(taking 0 (cmdOf 0x831 255 (leBytes 8 0xfa0)) up), 0, 4000, 0, (cmdOf 0x831 255 (leBytes 8 0xfa0)),
      by decide +kernel⟩,
    ⟨{ up with bg := { up.bg with strideStart := 999874170880, next := some (4001, 19660800) } },
      by decide +kernel⟩,
    ⟨{ up with bg := { up.bg with strideStart := 999874170881, next := some (4001, 19660800) } },
      by decide +kernel⟩,
    ⟨{ up with tts := { up.tts with resv := [{ table := 8, slot := 5, pos := 0, entry := { launchOfs := 0, budget := 2500, deadlineOfs := 5000, unitBase := 0, unitCount := 1, kind := 1 }, start := 999999999991, finish := 1000000002500, deadline := 1000000002500 }] } },
      0, .arrayScrub,
      by decide +kernel⟩,
    ⟨{ up with tts := { up.tts with resv := [{ table := 8, slot := 5, pos := 0, entry := { launchOfs := 0, budget := 2500, deadlineOfs := 5000, unitBase := 0, unitCount := 1, kind := 1 }, start := 999999999991, finish := 1000000002499, deadline := 1000000002499 }] } },
      0, .arrayScrub,
      by decide +kernel⟩,
    ⟨{ up with tts := { up.tts with resv := [{ table := 8, slot := 5, pos := 0, entry := { launchOfs := 0, budget := 2500, deadlineOfs := 5000, unitBase := 0, unitCount := 1, kind := 1 }, start := 999999999991, finish := 1000000002500, deadline := 1000000002500 }] } },
      0, .arrayScrub,
      by decide +kernel⟩,
    ⟨{ up with grd := { up.grd with units := [(0, { holder := .item .ageing 999999999991 })] } }, 0, 999999999991, .ageing,
      { corrected := 4096, uncorrectable := [77], deltas := [(0, 255), (5, 10)] },
      by decide +kernel⟩,
    ⟨up, 0, { corrected := 4096, uncorrectable := [77], deltas := [(0, 255), (5, 10)] },
      (by intro i x h; cases h), by decide +kernel⟩⟩

theorem test_witness_DawnSequence :
    (∃ (s : State) (env : DawnEnv),
      (DawnPasses s env) ∧ (s.mgt.mode = .off) ∧ (s.mgt.perst = false) ∧ (s.pwr.tripped = false))
    ∧ (∃ (s : State) (env : DawnEnv),
      (dawnEnvOk s.grade env = true) ∧ (s.mgt.mode ≠ .off ∨ s.mgt.perst = true ∨ s.pwr.tripped = true))
    ∧ (∃ (s : State) (env : DawnEnv),
      (dawnEnvOk s.grade env = true) ∧ (s.mgt.mode = .off) ∧ (s.mgt.perst = false) ∧ (s.pwr.tripped = false) ∧ (env.identityOk
        = false))
    ∧ (∃ (s : State) (env : DawnEnv),
      (dawnEnvOk s.grade env = true) ∧ (s.mgt.mode = .off) ∧ (s.mgt.perst = false) ∧ (s.pwr.tripped = false) ∧ (env.identityOk
        = true) ∧ (env.railsOk = false))
    ∧ (∃ (s : State) (env : DawnEnv),
      (dawnEnvOk s.grade env = true) ∧ (s.mgt.mode = .off) ∧ (s.mgt.perst = false) ∧ (s.pwr.tripped = false) ∧ (env.identityOk
        = true) ∧ (env.railsOk = true) ∧ (env.refLocked = false))
    ∧ (∃ (s : State) (env : DawnEnv),
      (dawnEnvOk s.grade env = true) ∧ (s.mgt.mode = .off) ∧ (s.mgt.perst = false) ∧ (s.pwr.tripped = false) ∧ (env.identityOk
        = true) ∧ (env.railsOk = true) ∧ (env.refLocked = true) ∧ (env.flashAnswers = false))
    ∧ (∃ (s : State) (env : DawnEnv),
      (dawnEnvOk s.grade env = true) ∧ (s.mgt.mode = .off) ∧ (s.mgt.perst = false) ∧ (s.pwr.tripped = false) ∧ (env.identityOk
        = true) ∧ (env.railsOk = true) ∧ (env.refLocked = true) ∧ (env.flashAnswers = true) ∧ (blobOk s (flashAt s blobBase
        blobSize) env.blobSigOk = false))
    ∧ (∃ (s : State) (env : DawnEnv),
      (dawnEnvOk s.grade env = true) ∧ (s.mgt.mode = .off) ∧ (s.mgt.perst = false) ∧ (s.pwr.tripped = false) ∧ (env.identityOk
        = true) ∧ (env.railsOk = true) ∧ (env.refLocked = true) ∧ (env.flashAnswers = true) ∧ (blobOk s (flashAt s blobBase
        blobSize) env.blobSigOk = true) ∧ (imageHeadOk s (flashAt s 0 headerSize) = false))
    ∧ (∃ (s : State) (env : DawnEnv),
      (dawnEnvOk s.grade env = true) ∧ (s.mgt.mode = .off) ∧ (s.mgt.perst = false) ∧ (s.pwr.tripped = false) ∧ (env.identityOk
        = true) ∧ (env.railsOk = true) ∧ (env.refLocked = true) ∧ (env.flashAnswers = true) ∧ (blobOk s (flashAt s blobBase
        blobSize) env.blobSigOk = true) ∧ (imageHeadOk s (flashAt s 0 headerSize) = true) ∧ (env.entropyOk = false))
    ∧ (∃ (s : State) (env : DawnEnv),
      (dawnEnvOk s.grade env = true) ∧ (s.mgt.mode = .off) ∧ (s.mgt.perst = false) ∧ (s.pwr.tripped = false) ∧ (env.identityOk
        = true) ∧ (env.railsOk = true) ∧ (env.refLocked = true) ∧ (env.flashAnswers = true) ∧ (blobOk s (flashAt s blobBase
        blobSize) env.blobSigOk = true) ∧ (imageHeadOk s (flashAt s 0 headerSize) = true) ∧ (env.entropyOk = true) ∧
        (env.memoryOk = false))
    ∧ (∃ (s : State) (env : DawnEnv),
      (dawnEnvOk s.grade env = true) ∧ (s.mgt.mode = .off) ∧ (s.mgt.perst = false) ∧ (s.pwr.tripped = false) ∧ (env.identityOk
        = true) ∧ (env.railsOk = true) ∧ (env.refLocked = true) ∧ (env.flashAnswers = true) ∧ (blobOk s (flashAt s blobBase
        blobSize) env.blobSigOk = true) ∧ (imageHeadOk s (flashAt s 0 headerSize) = true) ∧ (env.entropyOk = true) ∧
        (env.memoryOk = true) ∧ (env.imageSigOk = false)) :=
  ⟨⟨{ up with mgt := { mode := .off, flash := flashFull } },
    { romDigest := List.replicate 64 9, failedUnits := [0x7F, 15], deltas := [(0, 5), (5, 255)], straps := 255, aliasCert := [7] },
      by unfold DawnPasses; decide +kernel, by decide +kernel⟩,
    ⟨up,
      { romDigest := List.replicate 64 9, failedUnits := [0x7F, 15], deltas := [(0, 5), (5, 255)], straps := 255, aliasCert := [7] },
      by decide +kernel⟩,
    ⟨{ up with mgt := { mode := .off, flash := flashFull } },
      { romDigest := List.replicate 64 9, failedUnits := [0x7F, 15], deltas := [(0, 5), (5, 255)], straps := 255, aliasCert := [7], identityOk := false },
      by decide +kernel⟩,
    ⟨{ up with mgt := { mode := .off, flash := flashFull } },
      { romDigest := List.replicate 64 9, failedUnits := [0x7F, 15], deltas := [(0, 5), (5, 255)], straps := 255, aliasCert := [7], railsOk := false },
      by decide +kernel⟩,
    ⟨{ up with mgt := { mode := .off, flash := flashFull } },
      { romDigest := List.replicate 64 9, failedUnits := [0x7F, 15], deltas := [(0, 5), (5, 255)], straps := 255, aliasCert := [7], refLocked := false },
      by decide +kernel⟩,
    ⟨{ up with mgt := { mode := .off, flash := flashFull } },
      { romDigest := List.replicate 64 9, failedUnits := [0x7F, 15], deltas := [(0, 5), (5, 255)], straps := 255, aliasCert := [7], flashAnswers := false },
      by decide +kernel⟩,
    ⟨{ up with mgt := { mode := .off, flash := (memWriteBytes {} 0 headBytes) } },
      { romDigest := List.replicate 64 9, failedUnits := [0x7F, 15], deltas := [(0, 5), (5, 255)], straps := 255, aliasCert := [7] },
      by decide +kernel⟩,
    ⟨{ up with mgt := { mode := .off, flash := (memWriteBytes {} 0x01010000 blobBytes) } },
      { romDigest := List.replicate 64 9, failedUnits := [0x7F, 15], deltas := [(0, 5), (5, 255)], straps := 255, aliasCert := [7] },
      by decide +kernel⟩,
    ⟨{ up with mgt := { mode := .off, flash := flashFull } },
      { romDigest := List.replicate 64 9, failedUnits := [0x7F, 15], deltas := [(0, 5), (5, 255)], straps := 255, aliasCert := [7], entropyOk := false },
      by decide +kernel⟩,
    ⟨{ up with mgt := { mode := .off, flash := flashFull } },
      { romDigest := List.replicate 64 9, failedUnits := [0x7F, 15], deltas := [(0, 5), (5, 255)], straps := 255, aliasCert := [7], memoryOk := false },
      by decide +kernel⟩,
    ⟨{ up with mgt := { mode := .off, flash := flashFull } },
      { romDigest := List.replicate 64 9, failedUnits := [0x7F, 15], deltas := [(0, 5), (5, 255)], straps := 255, aliasCert := [7], imageSigOk := false },
      by decide +kernel⟩⟩

theorem test_witness_DawnTriggers :
    (∃ (s : State),
      (s.mgt.mode = .service ∨ s.mgt.mode = .waiting) ∧ (s.pwr.tripped = false))
    ∧ (∃ (s : State),
      (s.mgt.mode = .halted ∨ s.mgt.mode = .recovery ∨ s.pwr.tripped = true))
    ∧ (∃ (s : State),
      (s.mgt.perst = true) ∧ (s.tap.ir ≠ .extest) ∧ (s.tap.ir ≠ .clamp) ∧ (s.tap.ir ≠ .highz))
    ∧ (∃ (s : State),
      (s.mgt.perst = true) ∧ (s.tap.ir = .extest ∨ s.tap.ir = .clamp ∨ s.tap.ir = .highz))
    ∧ (∃ (s : State),
      (s.mgt.perst = false))
    ∧ (∃ (s : State),
      (s.mgt.update.isSome = true ∨ s.mgt.blobBusy = true))
    ∧ (∃ (s : State),
      (s.mgt.update = none) ∧ (s.mgt.blobBusy = false))
    ∧ (∃ (s : State),
      (s.mgt.mode ≠ .waiting) ∧ (s.tmb.refLost = true))
    ∧ (∃ (s : State),
      (s.mgt.mode ≠ .waiting) ∧ (s.tmb.refLost = false))
    ∧ (∃ (s : State),
      (s.mgt.mode = .waiting) ∧ (s.mgt.env.flashAnswers = true) ∧ (s.mgt.env.entropyOk = true) ∧ (s.mgt.env.memoryOk = true) ∧
        (s.mgt.env.imageSigOk = true) ∧ (blobOk s (flashAt s blobBase blobSize) s.mgt.env.blobSigOk = true) ∧ (imageHeadOk s
        (flashAt s 0 headerSize) = true)) :=
  ⟨⟨{ up with fab := { up.fab with ports := [(11, { link := true, enabled := true })] } },
      by decide +kernel⟩,
    ⟨{ up with mgt := { up.mgt with mode := .recovery } },
      by decide +kernel⟩,
    ⟨{ up with mgt := { up.mgt with perst := true } },
      by decide +kernel⟩,
    ⟨{ up with mgt := { up.mgt with perst := true }, tap := { up.tap with ir := .highz } },
      by decide +kernel⟩,
    ⟨up,
      by decide +kernel⟩,
    ⟨{ up with mgt := { up.mgt with blobBusy := true } },
      by decide +kernel⟩,
    ⟨up,
      by decide +kernel⟩,
    ⟨{ up with tmb := { up.tmb with refLost := true } },
      by decide +kernel⟩,
    ⟨up,
      by decide +kernel⟩,
    ⟨{ up with mgt := { up.mgt with mode := .waiting, flash := flashFull, env := { romDigest := List.replicate 64 9, failedUnits := [0x7F, 15], deltas := [(0, 5), (5, 255)], straps := 255, aliasCert := [7] } } },
      by decide +kernel⟩⟩

theorem test_witness_ManagementCommands :
    (∃ (o : Nat) (b : List Byte),
      (o < 4294967296) ∧ (1024 < b.length))
    ∧ (∃ (o : Nat) (b : List Byte),
      (o < 4294967296) ∧ (b.length ≤ 1024) ∧ (o + b.length < 30720))
    ∧ (∃ (o : Nat) (b : List Byte),
      (o < 4294967296) ∧ (b.length ≤ 1024) ∧ (o + b.length = 30720))
    ∧ (∃ (k : List Byte),
      (k.length ≠ 64))
    ∧ (∃ (s : State) (k : List Byte),
      (k.length = 64) ∧ (s.mgt.owner.isSome = true))
    ∧ (∃ (s : State) (k : List Byte),
      (k.length = 64) ∧ (s.mgt.owner = none))
    ∧ (∃ (first : Nat),
      (first < 256))
    ∧ (∃ (e : Nat),
      (e < 256))
    ∧ (∃ (s : State),
      (7 ≤ s.mgt.step)) :=
  ⟨⟨4294967295, (List.replicate 1025 1),
      by decide +kernel⟩,
    ⟨29695, (List.replicate 1024 1),
      by decide +kernel⟩,
    ⟨29696, (List.replicate 1024 1),
      by decide +kernel⟩,
    ⟨(List.replicate 65 1),
      by decide +kernel⟩,
    ⟨{ up with mgt := { up.mgt with owner := some [] } }, (List.replicate 64 1),
      by decide +kernel⟩,
    ⟨up, (List.replicate 64 1),
      by decide +kernel⟩,
    ⟨255,
      by decide +kernel⟩,
    ⟨255,
      by decide +kernel⟩,
    ⟨{ up with mgt := { up.mgt with step := 7 } },
      by decide +kernel⟩⟩

theorem test_witness_ImageUpdate :
    (∃ (s : State),
      (s.mgt.update = none))
    ∧ (∃ (s : State),
      (s.mgt.update.isSome = true))
    ∧ (∃ (s : State) (u : Update) (b : List Byte),
      (s.mgt.update = some u) ∧ ((u.head ++ b).length < 32768) ∧ (b ≠ []) ∧ (b.length ≤ 4096) ∧ (u.got < 32768))
    ∧ (∃ (s : State) (u : Update) (b : List Byte),
      (s.mgt.update = some u) ∧ (32768 ≤ (u.head ++ b).length) ∧ (b ≠ []) ∧ (b.length ≤ 4096) ∧ (u.got < 32768) ∧ (imageHeadOk
        s ((u.head ++ b).take 32768) = false))
    ∧ (∃ (s : State) (u : Update) (b : List Byte),
      (s.mgt.update = some u) ∧ (32768 ≤ (u.head ++ b).length) ∧ (b ≠ []) ∧ (b.length ≤ 4096) ∧ (u.got < 32768) ∧ (imageHeadOk
        s ((u.head ++ b).take 32768) = true))
    ∧ (∃ (s : State) (u : Update) (b : List Byte),
      (s.mgt.update = some u) ∧ (b ≠ []) ∧ (b.length ≤ 4096) ∧ (32768 ≤ u.got) ∧ (u.got + b.length < 32768 + field (flashAt s
        0 32768) 18 4))
    ∧ (∃ (s : State) (u : Update) (b : List Byte),
      (s.mgt.update = some u) ∧ (b ≠ []) ∧ (b.length ≤ 4096) ∧ (32768 ≤ u.got) ∧ (32768 + field (flashAt s 0 32768) 18 4 ≤
        u.got + b.length))
    ∧ (∃ (s : State) (u : Update),
      (s.mgt.update = some u) ∧ (s.tmb.pllLocked = false ∨ u.lastTick + 235929600000 ≤ s.tmb.free))
    ∧ (∃ (s : State) (u : Update),
      (s.mgt.update = some u) ∧ (s.tmb.pllLocked = true) ∧ (s.tmb.free < u.lastTick + 235929600000))
    ∧ (∃ (s : State) (b : List Byte),
      (s.mgt.update = none) ∧ (b ≠ []) ∧ (b.length ≤ 4096)) :=
  ⟨⟨up,
      by decide +kernel⟩,
    ⟨{ up with mgt := { up.mgt with update := some { got := 0, head := [], lastTick := 1000000000000 } } },
      by decide +kernel⟩,
    ⟨{ up with mgt := { up.mgt with mode := .recovery, update := some { got := 32766, head := longHead 32744, lastTick := 1000000000000 }, flash := flashFull } },
      { got := 32766, head := longHead 32744, lastTick := 1000000000000 }, [0],
      rfl, lt_of_eq_of_lt (longHead_one 32744 0) (by decide), by decide +kernel⟩,
    ⟨{ up with mgt := { up.mgt with mode := .recovery, update := some { got := 32767, head := (List.replicate 32767 1), lastTick := 1000000000000 }, flash := flashFull } },
      { got := 32767, head := (List.replicate 32767 1), lastTick := 1000000000000 }, [0],
      rfl, Nat.le_of_eq (ones_one 32767 1 0).symm, by decide +kernel⟩,
    ⟨{ up with mgt := { up.mgt with mode := .recovery, update := some { got := 32767, head := longHead 32745, lastTick := 1000000000000 }, flash := flashFull } },
      { got := 32767, head := longHead 32745, lastTick := 1000000000000 }, [0],
      rfl, Nat.le_of_eq (longHead_one 32745 0).symm, by decide +kernel⟩,
    ⟨{ up with mgt := { up.mgt with mode := .recovery, update := some { got := 32768, head := [], lastTick := 1000000000000 }, flash := flashFull } },
      { got := 32768, head := [], lastTick := 1000000000000 }, [1, 2, 3, 4, 5, 6, 7],
      rfl, by decide +kernel⟩,
    ⟨{ up with mgt := { up.mgt with mode := .recovery, update := some { got := 32768, head := [], lastTick := 1000000000000 }, flash := flashFull } },
      { got := 32768, head := [], lastTick := 1000000000000 }, [1, 2, 3, 4, 5, 6, 7, 8, 9],
      rfl, by decide +kernel⟩,
    ⟨{ up with mgt := { up.mgt with update := some { got := 0, head := [], lastTick := 764070400000 } } },
      { got := 0, head := [], lastTick := 764070400000 },
      by decide +kernel⟩,
    ⟨{ up with mgt := { up.mgt with update := some { got := 0, head := [], lastTick := 764070400001 } } },
      { got := 0, head := [], lastTick := 764070400001 },
      by decide +kernel⟩,
    ⟨up, (List.replicate 4096 1),
      by decide +kernel⟩⟩

theorem test_witness_SpdmResponder :
    (∃ (s : State),
      (s.mgt.mode = .service))
    ∧ (∃ (s : State) (tr : Transport),
      (s.mgt.mode = .service) ∧ ((spdmOf s tr).version = true))
    ∧ (∃ (s : State) (tr : Transport) (a : _) (b : _),
      (s.mgt.mode = .service) ∧ ((spdmOf s tr).caps = true) ∧ (a = true ∨ b = true))
    ∧ (∃ (s : State) (tr : Transport),
      (s.mgt.mode = .service) ∧ ((spdmOf s tr).caps = true))
    ∧ (∃ (s : State) (tr : Transport),
      (s.mgt.mode = .service) ∧ ((spdmOf s tr).algs = true))
    ∧ (∃ (s : State) (tr : Transport) (o : _),
      (o < (certChain s).length) ∧ (s.mgt.mode = .service) ∧ ((spdmOf s tr).algs = true))
    ∧ (∃ (s : State) (tr : Transport) (slot : _),
      (s.mgt.mode = .service) ∧ ((spdmOf s tr).algs = true) ∧ (slot ≠ 0) ∧ (slot < 256))
    ∧ (∃ (s : State) (tr : Transport) (nonce : List Byte) (b : List Byte) (i : Nat),
      (s.mgt.mode = .service) ∧ ((spdmOf s tr).algs = true) ∧ (nonce.length = 32) ∧ (1 ≤ i) ∧ (i ≤ 5) ∧ (tabFind? s.mgt.meas i
        = some b))
    ∧ (∃ (s : State) (tr : Transport) (nonce : List Byte),
      (s.mgt.mode = .service) ∧ ((spdmOf s tr).algs = true) ∧ (nonce.length = 32) ∧ (s.mgt.signing = none))
    ∧ (∃ (s : State) (tr : Transport) (nonce : List Byte),
      (s.mgt.mode = .service) ∧ ((spdmOf s tr).algs = true) ∧ (nonce.length = 32) ∧ (s.mgt.signing.isSome = true))
    ∧ (∃ (s : State) (tr : Transport),
      (s.mgt.mode = .service) ∧ ((spdmOf s tr).ready = none) ∧ ((spdmOf s tr).waiting.isSome = true))
    ∧ (∃ (s : State) (tr : Transport) (code : Byte) (b : List Byte),
      (s.mgt.mode = .service) ∧ ((spdmOf s tr).ready = some (code :: b)))
    ∧ (∃ (s : State) (tr : Transport),
      (s.mgt.mode = .service) ∧ (s.mgt.signing = some (transportKey tr)))
    ∧ (∃ (s : State),
      (s.mgt.mode ≠ .service))
    ∧ (∃ (s : State),
      (s.mgt.signing = none)) :=
  ⟨⟨up,
      by decide +kernel⟩,
    ⟨{ up with mgt := { up.mgt with spdm := [(1, { version := true })], aliasCert := [7], meas := [(5, [1, 2])] } }, .doe,
      by decide +kernel⟩,
    ⟨{ up with mgt := { up.mgt with spdm := [(1, { version := true, caps := true, algs := true })], aliasCert := [7], meas := [(5, [1, 2])] } },
      .doe, true, false,
      by decide +kernel⟩,
    ⟨{ up with mgt := { up.mgt with spdm := [(1, { version := true, caps := true, algs := true })], aliasCert := [7], meas := [(5, [1, 2])] } },
      .doe,
      by decide +kernel⟩,
    ⟨{ up with mgt := { up.mgt with spdm := [(1, { version := true, caps := true, algs := true })], aliasCert := [7], meas := [(5, [1, 2])] } },
      .doe,
      by decide +kernel⟩,
    ⟨{ up with mgt := { up.mgt with spdm := [(1, { version := true, caps := true, algs := true })], aliasCert := [7], meas := [(5, [1, 2])] } },
      .doe, 0,
      (show 0 < (Config.issuedCerts ++ [(7 : Byte)]).length by simp), by decide +kernel⟩,
    ⟨{ up with mgt := { up.mgt with spdm := [(1, { version := true, caps := true, algs := true })], aliasCert := [7], meas := [(5, [1, 2])] } },
      .doe, 255,
      by decide +kernel⟩,
    ⟨{ up with mgt := { up.mgt with spdm := [(1, { version := true, caps := true, algs := true })], aliasCert := [7], meas := [(5, [1, 2])] } },
      .doe, (List.replicate 32 1), [1, 2], 5,
      by decide +kernel⟩,
    ⟨{ up with mgt := { up.mgt with spdm := [(1, { version := true, caps := true, algs := true })], aliasCert := [7], meas := [(5, [1, 2])] } },
      .doe, (List.replicate 32 1),
      by decide +kernel⟩,
    ⟨{ up with mgt := { up.mgt with spdm := [(1, { version := true, caps := true, algs := true })], aliasCert := [7], meas := [(5, [1, 2])], signing := some 0 } },
      .doe, (List.replicate 32 1),
      by decide +kernel⟩,
    ⟨{ up with mgt := { up.mgt with spdm := [(1, { version := true, caps := true, algs := true, waiting := some [3] })], aliasCert := [7], meas := [(5, [1, 2])] } },
      .doe,
      by decide +kernel⟩,
    ⟨{ up with mgt := { up.mgt with spdm := [(1, { version := true, caps := true, algs := true, ready := some [3, 4] })], aliasCert := [7], meas := [(5, [1, 2])] } },
      .doe, 3, [4],
      by decide +kernel⟩,
    ⟨{ up with mgt := { up.mgt with spdm := [(1, { version := true, caps := true, algs := true, waiting := some [3] })], aliasCert := [7], meas := [(5, [1, 2])], signing := some 1 } },
      .doe,
      by decide +kernel⟩,
    ⟨{ up with mgt := { up.mgt with mode := .halted } },
      by decide +kernel⟩,
    ⟨up,
      by decide +kernel⟩⟩

theorem test_witness_BoardTestPort :
    (∃ (cells : List Bool),
      (cells.length = 27))
    ∧ (∃ (s : State),
      (s.mgt.perst = true ∨ s.mgt.mode = .halted ∨ s.mgt.mode = .waiting ∨ s.mgt.mode = .recovery))
    ∧ (∃ (s : State),
      (s.mgt.perst = false) ∧ (s.mgt.mode = .off ∨ s.mgt.mode = .service)) :=
  ⟨⟨(List.replicate 27 true),
      by decide +kernel⟩,
    ⟨{ up with mgt := { up.mgt with mode := .halted } },
      by decide +kernel⟩,
    ⟨up,
      by decide +kernel⟩⟩

end Sys2Proof.Tests
end

section
/-!
PROOFS. Chapter 02: what an accepted servo input leaves of the timebase (R55 to R58), and the rate update of R56.
-/
open Sys2Proof Sys2Proof.Machine Sys2Proof.Claims

namespace Sys2Proof.AirClock

/-! ### The transitions of R57 -/

/-- A transition other than to HOLDOVER moves nothing of the timebase but the servo state. -/
theorem servoTo_tmb {new : ServoState} (h : new ≠ .holdover) (s : State) :
    (servoTo new s).tmb = { s.tmb with state := new } := by
  unfold servoTo
  rw [Keeps.tmb (post_frame _ _), if_neg h]
  split <;> rfl

/-- The timebase of `s` is `t`, but for the servo state and lock_run. -/
def ServoMoved (t : Timebase) (s : State) : Prop :=
  ∃ st run, s.tmb = { t with state := st, lockRun := run }

theorem ServoMoved.servoTo {t : Timebase} {s : State} (h : ServoMoved t s) {new : ServoState} (hnew : new ≠ .holdover) :
    ServoMoved t (servoTo new s) := by
  obtain ⟨_, run, ht⟩ := h
  exact ⟨new, run, by rw [servoTo_tmb hnew, ht]⟩

theorem ServoMoved.ite {t : Timebase} {c : Prop} [Decidable c] {x y : State} (hx : ServoMoved t x) (hy : ServoMoved t y) :
    ServoMoved t (if c then x else y) := by
  split
  · exact hx
  · exact hy

/-- The transition that an accepted input makes is never to HOLDOVER, so it moves only the servo state and lock_run. -/
theorem servoTransition_moves (e : Int) (s : State) : ServoMoved s.tmb (servoTransition e s) := by
  unfold servoTransition
  dsimp only
  generalize hu : updTmb _ s = u
  have counted : ServoMoved s.tmb u := hu ▸ ⟨_, _, rfl⟩
  have toAcquire : ServoMoved s.tmb (servoTo .acquire u) := counted.servoTo nofun
  have toLocked : ServoMoved s.tmb (servoTo .locked u) := counted.servoTo nofun
  cases u.tmb.state with
  | freerun => exact .ite (toAcquire.servoTo nofun) toAcquire
  | acquire => exact .ite toLocked counted
  | locked => exact .ite toAcquire counted
  | holdover => exact .ite toAcquire toLocked

/-- The transition leaves frame tables and Noon armings alone, and all else but the pieces named. -/
theorem servoTransition_frame (e : Int) (s : State) :
    Keeps { evr := true, tmb := true, fab := true, out := true } s (servoTransition e s) :=
  servoTransition_keeps e s rfl rfl rfl rfl (Keeps.refl _ _)

theorem anyTableRuns_congr {s t : State} (h : t.tts = s.tts) : anyTableRuns t = anyTableRuns s := by
  rw [anyTableRuns, anyTableRuns, h]

theorem anyNoonPending_congr {s t : State} (h : t.noon = s.noon) : anyNoonPending t = anyNoonPending s := by
  rw [anyNoonPending, anyNoonPending, h]

/-! ### An accepted input -/

/-- What acceptance records before the transition: the settings come into use, and error, measurement tick and tick of
arrival are kept (R55, R57, R78). -/
def recordInput (e : Int) (m : Tick) (s : State) : State :=
  updTmb (fun t => { t with act := t.cfg, lastM := some m, lastArr := t.free, err := e }) s

/-- An input meeting none of the three conditions of R55 is recorded, makes its transition, and is then a step (R58) or a
rate update (R56). -/
theorem servoInput_of_accepts {s : State} {e : Int} {m : Tick} (h : ServoAccepts s e m) :
    servoInput e m s =
      let u := servoTransition e (recordInput e m s)
      if u.tmb.state = .acquire && 1966080 * 65536 < e.natAbs && !anyTableRuns u && !anyNoonPending u then
        updTmb (servoStep e) u
      else updTmb (servoRate e) u := by
  obtain ⟨hsource, hnewer, hfresh, hsmall⟩ := h
  have hlast : (s.tmb.lastM.map (fun l => decide (m ≤ l))).getD false = false := by
    cases hl : s.tmb.lastM with
    | none => rfl
    | some l => simpa using hnewer l hl
  have hkept : ((s.tmb.lastM.map (fun l => decide (m ≤ l))).getD false || decide (m + 245760000 < s.tmb.free)
      || decide (2 ^ 47 ≤ e.natAbs)) = false := by
    rw [hlast, decide_eq_false (Nat.not_lt.2 hfresh), decide_eq_false (Nat.not_le.2 hsmall)]
    rfl
  rw [servoInput, if_neg hsource, if_neg (by rw [hkept]; exact Bool.false_ne_true)]
  rfl

/-- With a small error, a running table or a pending arming the accepted input is a rate update, whatever the state it
has entered (R58). -/
theorem servoInput_of_maySlew {s : State} {e : Int} {m : Tick} (h : ServoAccepts s e m) (hslew : MaySlew s e) :
    servoInput e m s = updTmb (servoRate e) (servoTransition e (recordInput e m s)) := by
  have hframe := servoTransition_frame e (recordInput e m s)
  have htables : anyTableRuns (servoTransition e (recordInput e m s)) = anyTableRuns s := anyTableRuns_congr hframe.tts
  have hnoon : anyNoonPending (servoTransition e (recordInput e m s)) = anyNoonPending s := anyNoonPending_congr hframe.noon
  rw [servoInput_of_accepts h]
  refine if_neg ?_
  rw [htables, hnoon]
  rcases hslew with hsmall | hruns | hpending
  · simp [Nat.not_lt.2 hsmall]
  · simp [hruns]
  · simp [hpending]

/-- The timebase after an accepted input that is no step: the rate update under the settings the window shows, but for
the servo state and lock_run. -/
theorem servoInput_tmb {s : State} {e : Int} {m : Tick} (h : ServoAccepts s e m) (hslew : MaySlew s e) :
    ∃ st run, (servoInput e m s).tmb =
      servoRate e { (recordInput e m s).tmb with state := st, lockRun := run } := by
  obtain ⟨st, run, ht⟩ := servoTransition_moves e (recordInput e m s)
  refine ⟨st, run, ?_⟩
  rw [servoInput_of_maySlew h hslew, ← ht]
  rfl

/-! ### The rate update of R56 -/

/-- The new integral. -/
theorem servoRate_integ (e : Int) (t : Timebase) :
    (servoRate e t).integ = max (-(2 ^ 31 - 1)) (min (2 ^ 31 - 1) (t.integ + t.act.ki * e / 2 ^ 32)) := rfl

/-- The new rate, which takes in the new integral. -/
theorem servoRate_rate (e : Int) (t : Timebase) :
    (servoRate e t).rate
      = max (-(t.act.rateLimit : Int)) (min t.act.rateLimit (-(t.act.kp * e / 2 ^ 32 + (servoRate e t).integ))) := rfl

/-- The update is made at the present free tick (R52). -/
theorem servoRate_anchor (e : Int) (t : Timebase) : (servoRate e t).anchor = t.free := rfl

theorem servoRate_err (e : Int) (t : Timebase) : (servoRate e t).err = t.err := rfl

/-! ### The statement -/

/-- Settles O10: an accepted input that is no step leaves the rate update of R56 on a timebase in which only recorded
values, servo state and lock_run have moved. -/
theorem servoRate : Obligations.ServoRate := by
  intro s e m haccepts hslew
  obtain ⟨st, run, ht⟩ := servoInput_tmb haccepts hslew
  refine ⟨servoInput e m s, run_true "" _, ?_⟩
  rw [ht]
  exact ⟨servoRate_integ .., servoRate_rate .., servoRate_anchor .., servoRate_err ..⟩

end Sys2Proof.AirClock
end

section
/-!
PROOFS. Chapter 06: the model's draw on numbers is KCG-128 on 32-bit words, and KCG-128 is a permutation (R173).
-/
open Sys2Proof Sys2Proof.Machine Sys2Proof.Claims

namespace Sys2Proof.RandomBits

/-! ### Names for the parts of KCG-128 -/

/-- The keys k[0] to k[4] as words. -/
def streamKey (seed : BitVec 128) (stream : BitVec 32) (i : Nat) : BitVec 32 :=
  if i = 4 then stream ^^^ 0x9E3779B9#32 else seed.extractLsb' (32 * i) 32

/-- The four words the rounds begin with. -/
def drawWords (p : BitVec 64 × BitVec 64) : Words :=
  (p.2.extractLsb' 0 32, p.2.extractLsb' 32 32, p.1.extractLsb' 0 32, p.1.extractLsb' 32 32)

/-- Rounds in a row, of the numbers given. -/
def kcgRounds (k : Nat → BitVec 32) (rounds : List Nat) (x : Words) : Words := rounds.foldl (kcgStep k) x

/-- The step and the index whose words are `w`. -/
def wordsDraw (w : Words) : BitVec 64 × BitVec 64 := (w.2.2.2 ++ w.2.2.1, w.2.1 ++ w.1)

/-- Four words as the model's four numbers. -/
def wordsNat (w : Words) : Nat × Nat × Nat × Nat := (w.1.toNat, w.2.1.toNat, w.2.2.1.toNat, w.2.2.2.toNat)

/-- The round `r` undone: the halves crossed back, then the rotations and the sums taken back. -/
def kcgUnstep (k : Nat → BitVec 32) (w : Words) (r : Nat) : Words :=
  let x1 := (w.2.2.2 ^^^ w.1).rotateRight 12
  let x3 := (w.2.1 ^^^ w.2.2.1).rotateRight 20
  (w.1 - k (r % 5) - x1, x1, w.2.2.1 - BitVec.ofNat 32 r - k ((r + 2) % 5) - x3, x3)

theorem kcg128_eq_rounds (seed : BitVec 128) (stream : BitVec 32) (p : BitVec 64 × BitVec 64) :
    kcg128 seed stream p = kcgRounds (streamKey seed stream) (List.range 12) (drawWords p) := rfl

theorem wordsNat_injective : Function.Injective wordsNat := by
  rintro ⟨a, b, c, d⟩ ⟨a', b', c', d'⟩ h
  simpa [wordsNat, BitVec.toNat_inj] using h

/-! ### Every round can be inverted -/

theorem rotateRight_rotateLeft {w : Nat} (v : BitVec w) (n : Nat) : (v.rotateLeft n).rotateRight n = v := by
  ext i hi
  have hn : n % w < w := Nat.mod_lt _ (by omega)
  rw [BitVec.getElem_rotateRight]
  split <;> rw [BitVec.getElem_rotateLeft]
  · rw [dif_neg (by omega)]
    congr 1; omega
  · rw [dif_pos (by omega)]
    congr 1; omega

theorem kcgUnstep_kcgStep (k : Nat → BitVec 32) (r : Nat) (x : Words) : kcgUnstep k (kcgStep k x r) r = x := by
  obtain ⟨x0, x1, x2, x3⟩ := x
  simp [kcgUnstep, kcgStep, rotateRight_rotateLeft]

/-- A round that can be undone is injective, and so a permutation of the finitely many blocks. -/
theorem kcgStep_bijective (k : Nat → BitVec 32) (r : Nat) : Function.Bijective (kcgStep k · r) :=
  have undone : Function.LeftInverse (kcgUnstep k · r) (kcgStep k · r) := kcgUnstep_kcgStep k r
  Finite.injective_iff_bijective.1 undone.injective

/-- Rounds in a row are a permutation, whatever their numbers. -/
theorem kcgRounds_bijective (k : Nat → BitVec 32) (rounds : List Nat) : Function.Bijective (kcgRounds k rounds) := by
  induction rounds with
  | nil => exact Function.bijective_id
  | cons r rs ih => exact ih.comp (kcgStep_bijective k r)

theorem wordsDraw_drawWords (p : BitVec 64 × BitVec 64) : wordsDraw (drawWords p) = p := by
  have halves (v : BitVec 64) : v.extractLsb' 32 32 ++ v.extractLsb' 0 32 = v := by
    rw [BitVec.extractLsb'_append_extractLsb'_eq_extractLsb' (show 32 = 0 + 32 from rfl), BitVec.extractLsb'_eq_self]
  exact Prod.ext (halves p.1) (halves p.2)

theorem drawWords_wordsDraw (w : Words) : drawWords (wordsDraw w) = w := by
  simp only [drawWords, wordsDraw, BitVec.extractLsb'_append_eq_left, BitVec.extractLsb'_append_eq_right]

theorem drawWords_bijective : Function.Bijective drawWords :=
  Function.bijective_iff_has_inverse.2 ⟨wordsDraw, wordsDraw_drawWords, drawWords_wordsDraw⟩

theorem kcg128_bijective (seed : BitVec 128) (stream : BitVec 32) : Function.Bijective (kcg128 seed stream) := by
  have hcomp : kcg128 seed stream = kcgRounds (streamKey seed stream) (List.range 12) ∘ drawWords := by
    funext p
    rw [kcg128_eq_rounds, Function.comp_apply]
  rw [hcomp]
  exact (kcgRounds_bijective _ _).comp drawWords_bijective

/-! ### The model's draw on numbers -/

/-- A sum on numbers is the sum of words, its second summand taken modulo 2 ^ 32. -/
theorem add32_toNat (a : BitVec 32) (n : Nat) : add32 a.toNat n = (a + BitVec.ofNat 32 n).toNat := by
  simp [add32, BitVec.toNat_add]

theorem natXor_toNat (a b : BitVec 32) : Nat.xor a.toNat b.toNat = (a ^^^ b).toNat := (BitVec.toNat_xor a b).symm

theorem rotl32_toNat (v : BitVec 32) {n : Nat} (hn : n < 32) : rotl32 v.toNat n = (v.rotateLeft n).toNat := by
  have hsplit : 2 ^ 32 = 2 ^ (32 - n) * 2 ^ n := by rw [← Nat.pow_add]; congr 1; omega
  have hlow : v.toNat / 2 ^ (32 - n) < 2 ^ n := Nat.div_lt_of_lt_mul (hsplit ▸ v.isLt)
  have hhigh : v.toNat * 2 ^ n % 2 ^ 32 = v.toNat % 2 ^ (32 - n) * 2 ^ n := by rw [hsplit, Nat.mul_mod_mul_right]
  have hfits : v.toNat % 2 ^ (32 - n) * 2 ^ n + v.toNat / 2 ^ (32 - n) < 2 ^ 32 := by
    have hle := Nat.mul_le_mul_right (2 ^ n) (Nat.succ_le_of_lt (Nat.mod_lt v.toNat (Nat.two_pow_pos (32 - n))))
    rw [Nat.succ_mul, ← hsplit] at hle
    omega
  calc rotl32 v.toNat n
    _ = (v.toNat * 2 ^ n % 2 ^ 32 + v.toNat / 2 ^ (32 - n)) % 2 ^ 32 := by rw [Nat.mod_add_mod]; rfl
    _ = v.toNat % 2 ^ (32 - n) * 2 ^ n + v.toNat / 2 ^ (32 - n) := by rw [hhigh, Nat.mod_eq_of_lt hfits]
    _ = v.toNat <<< n % 2 ^ 32 ||| v.toNat >>> (32 - n) := by
        rw [Nat.shiftLeft_eq, hhigh, Nat.shiftRight_eq_div_pow, ← Nat.shiftLeft_eq, Nat.shiftLeft_add_eq_or_of_lt hlow]
    _ = (v.rotateLeft n).toNat := by rw [BitVec.toNat_rotateLeft, Nat.mod_eq_of_lt hn]

/-- The key read from a seed on numbers is the key read from its low 128 bits. -/
theorem kcgKey_eq (seed stream : Nat) {i : Nat} (hi : i < 5) :
    kcgKey seed stream i = (streamKey (BitVec.ofNat 128 seed) (BitVec.ofNat 32 stream) i).toNat := by
  unfold kcgKey streamKey
  split
  · exact natXor_toNat (BitVec.ofNat 32 stream) 0x9E3779B9#32
  · have hword : 2 ^ 128 = 2 ^ (32 * i) * 2 ^ (128 - 32 * i) := by rw [← Nat.pow_add]; congr 1; omega
    rw [BitVec.extractLsb'_toNat, BitVec.toNat_ofNat, Nat.shiftRight_eq_div_pow, hword, Nat.mod_mul_right_div_self,
      Nat.mod_mod_of_dvd _ (Nat.pow_dvd_pow 2 (by omega))]

/-- A round on numbers is the round on words. -/
theorem kcgRound_wordsNat (seed stream r : Nat) (x : Words) :
    kcgRound seed stream r (wordsNat x)
      = wordsNat (kcgStep (streamKey (BitVec.ofNat 128 seed) (BitVec.ofNat 32 stream)) x r) := by
  have hkey (i : Nat) := kcgKey_eq seed stream (Nat.mod_lt i (by decide : 0 < 5))
  simp only [kcgRound, wordsNat, kcgStep, hkey, add32_toNat, BitVec.ofNat_toNat, BitVec.setWidth_eq, natXor_toNat,
    rotl32_toNat _ (by decide : 12 < 32), rotl32_toNat _ (by decide : 20 < 32)]

theorem wordsNat_drawWords (step index : Nat) :
    wordsNat (drawWords (BitVec.ofNat 64 step, BitVec.ofNat 64 index)) = (lo32 index, hi32 index, lo32 step, hi32 step) := by
  have low (v : Nat) : ((BitVec.ofNat 64 v).extractLsb' 0 32).toNat = lo32 v := by
    rw [BitVec.extractLsb'_toNat, BitVec.toNat_ofNat, Nat.shiftRight_zero, lo32]
    omega
  have high (v : Nat) : ((BitVec.ofNat 64 v).extractLsb' 32 32).toNat = hi32 v := by
    rw [BitVec.extractLsb'_toNat, BitVec.toNat_ofNat, Nat.shiftRight_eq_div_pow, hi32]
    omega
  simp only [wordsNat, drawWords, low, high]

/-- The model's draw takes seed, stream, step and index modulo their widths, and is KCG-128. -/
theorem kcg_eq_kcg128 (seed stream step index : Nat) :
    kcg seed stream step index = wordsNat (kcg128 (BitVec.ofNat 128 seed) (BitVec.ofNat 32 stream)
      (BitVec.ofNat 64 step, BitVec.ofNat 64 index)) := by
  rw [kcg, ← wordsNat_drawWords, kcg128_eq_rounds]
  exact List.foldl_hom wordsNat fun x r => kcgRound_wordsNat seed stream r x

theorem kcg_toNat (seed : BitVec 128) (stream : BitVec 32) (step index : BitVec 64) :
    kcg seed.toNat stream.toNat step.toNat index.toNat = wordsNat (kcg128 seed stream (step, index)) := by
  simp only [kcg_eq_kcg128, BitVec.ofNat_toNat, BitVec.setWidth_eq]

/-- Draws with one seed and stream and 64-bit step and index are different blocks. -/
theorem kcg_injective {seed stream step index step' index' : Nat} (hstep : step < 2 ^ 64) (hindex : index < 2 ^ 64)
    (hstep' : step' < 2 ^ 64) (hindex' : index' < 2 ^ 64)
    (h : kcg seed stream step index = kcg seed stream step' index') : step = step' ∧ index = index' := by
  rw [kcg_eq_kcg128, kcg_eq_kcg128] at h
  have hdraw := (kcg128_bijective _ _).injective (wordsNat_injective h)
  have value {a b : Nat} (ha : a < 2 ^ 64) (hb : b < 2 ^ 64) (hab : BitVec.ofNat 64 a = BitVec.ofNat 64 b) : a = b := by
    simpa only [BitVec.toNat_ofNat, Nat.mod_eq_of_lt ha, Nat.mod_eq_of_lt hb] using congrArg BitVec.toNat hab
  obtain ⟨hs, hi⟩ := Prod.mk.inj hdraw
  exact ⟨value hstep hstep' hs, value hindex hindex' hi⟩

/-! ### The statement -/

/-- Settles O22: rounds on numbers are rounds on words, and each round has an inverse. -/
theorem kcgPermutation : Obligations.KcgPermutation :=
  ⟨kcg_toNat,
   fun seed stream => ⟨fun _ _ h => (kcg128_bijective seed stream).injective h, (kcg128_bijective seed stream).surjective⟩,
   fun _ _ _ _ _ _ hstep hindex hstep' hindex' h => kcg_injective hstep hindex hstep' hindex' h⟩

end Sys2Proof.RandomBits
end

section
/-!
PROOFS. Chapter 11: the Gray map between data bits and symbols (R323), and what a detection window and a data symbol do to
a Sweep channel (R328, R329, R331 to R334).
-/
open Sys2Proof Sys2Proof.Machine Sys2Proof.Claims

namespace Sys2Proof.SweepAccess

/-! ### The Gray map (R323) -/

/-- The first `n` terms of the inverse Gray map. -/
def grayTerms (n d : Nat) : Nat := (List.range n).foldl (fun m k => m ^^^ (d >>> k)) 0

theorem grayTerms_succ (n d : Nat) : grayTerms (n + 1) d = grayTerms n d ^^^ (d >>> n) := by
  simp [grayTerms, List.range_succ]

theorem grayInv_eq_grayTerms (d : Nat) : grayInv d = grayTerms 16 d := by
  simp only [grayInv, grayTerms, Nat.shiftRight_eq_div_pow]
  rfl

theorem gray_eq (m : Nat) : gray m = m ^^^ (m >>> 1) := rfl

/-- Terms whose shift drops every bit of `d` add nothing. -/
theorem grayTerms_add {n d : Nat} (hd : d < 2 ^ n) (j : Nat) : grayTerms (n + j) d = grayTerms n d := by
  induction j with
  | zero => rfl
  | succ j ih =>
    have hz : d >>> (n + j) = 0 := by
      rw [Nat.shiftRight_add, Nat.shiftRight_eq_div_pow d n, Nat.div_eq_of_lt hd, Nat.zero_shiftRight]
    rw [← Nat.add_assoc, grayTerms_succ, ih, hz, Nat.xor_zero]

theorem grayInv_of_lt {n d : Nat} (hn : n ≤ 16) (hd : d < 2 ^ n) : grayInv d = grayTerms n d := by
  rw [grayInv_eq_grayTerms, ← grayTerms_add hd (16 - n), Nat.add_sub_cancel' hn]

theorem grayTerms_lt {n d : Nat} (hd : d < 2 ^ n) (k : Nat) : grayTerms k d < 2 ^ n := by
  induction k with
  | zero => exact Nat.two_pow_pos n
  | succ k ih =>
    rw [grayTerms_succ]
    exact Nat.xor_lt_two_pow ih (Nat.lt_of_le_of_lt (Nat.shiftRight_le d k) hd)

theorem gray_lt {n m : Nat} (hm : m < 2 ^ n) : gray m < 2 ^ n :=
  Nat.xor_lt_two_pow hm (Nat.lt_of_le_of_lt (Nat.shiftRight_le m 1) hm)

theorem gray_xor (a b : Nat) : gray (a ^^^ b) = gray a ^^^ gray b := by
  simp only [gray_eq, Nat.shiftRight_xor_distrib]
  ac_rfl

/-- The terms of the inverse map telescope under the Gray map. -/
theorem gray_grayTerms (n d : Nat) : gray (grayTerms n d) = d ^^^ (d >>> n) := by
  induction n with
  | zero => rw [Nat.shiftRight_zero, Nat.xor_self]; exact (rfl : gray 0 = 0)
  | succ n ih =>
    rw [grayTerms_succ, gray_xor, ih, gray_eq, ← Nat.shiftRight_add, Nat.xor_assoc, Nat.xor_xor_cancel_left]

/-- The shifts of a Gray code telescope. -/
theorem grayTerms_gray (n m : Nat) : grayTerms n (gray m) = m ^^^ (m >>> n) := by
  induction n with
  | zero => rw [Nat.shiftRight_zero, Nat.xor_self]; rfl
  | succ n ih =>
    rw [grayTerms_succ, ih, gray_eq, Nat.shiftRight_xor_distrib, ← Nat.shiftRight_add, Nat.add_comm 1 n, Nat.xor_assoc,
      Nat.xor_xor_cancel_left]

theorem xor_shiftRight_of_lt {n d : Nat} (hd : d < 2 ^ n) : d ^^^ (d >>> n) = d := by
  rw [Nat.shiftRight_eq_div_pow, Nat.div_eq_of_lt hd, Nat.xor_zero]

theorem gray_grayInv {n d : Nat} (hn : n ≤ 16) (hd : d < 2 ^ n) : gray (grayInv d) = d := by
  rw [grayInv_of_lt hn hd, gray_grayTerms, xor_shiftRight_of_lt hd]

theorem grayInv_gray {n m : Nat} (hn : n ≤ 16) (hm : m < 2 ^ n) : grayInv (gray m) = m := by
  rw [grayInv_of_lt hn (gray_lt hm), grayTerms_gray, xor_shiftRight_of_lt hm]

/-! ### Symbols one bin apart -/

/-- Counting up by one turns over a block of low bits. -/
theorem exists_xor_succ (m : Nat) : ∃ t, m ^^^ (m + 1) = 2 ^ (t + 1) - 1 := by
  induction m using Nat.binaryRec' with
  | zero => exact ⟨0, rfl⟩
  | bit b q _ ih =>
    cases b with
    | false => exact ⟨0, by rw [show Nat.bit false q + 1 = Nat.bit true q from rfl, Nat.xor_bit, Nat.xor_self]; rfl⟩
    | true =>
      obtain ⟨t, ht⟩ := ih
      refine ⟨t + 1, ?_⟩
      rw [show Nat.bit true q + 1 = Nat.bit false (q + 1) from rfl, Nat.xor_bit, ht, Nat.bit_val, Nat.pow_succ _ (t + 1)]
      have := Nat.two_pow_pos (t + 1)
      simp only [Bool.bne_false, Bool.toNat_true]
      omega

/-- The Gray map takes a block of low bits to its highest bit. -/
theorem gray_low_ones (t : Nat) : gray (2 ^ (t + 1) - 1) = 2 ^ t := by
  refine Nat.eq_of_testBit_eq fun i => ?_
  simp only [gray_eq, Nat.testBit_xor, Nat.testBit_shiftRight, Nat.testBit_two_pow_sub_one, Nat.testBit_two_pow]
  by_cases h : t = i
  · simp [h]
  · by_cases hi : i < t + 1 <;> simp [h, hi] <;> omega

/-- Neighbouring bins, the last and the first among them, carry groups that differ in one bit. -/
theorem gray_neighbours {n m : Nat} (hn : 0 < n) (hm : m < 2 ^ n) : ∃ k < n, gray m ^^^ gray ((m + 1) % 2 ^ n) = 2 ^ k := by
  by_cases hlast : m + 1 = 2 ^ n
  · obtain ⟨k, rfl⟩ : ∃ k, n = k + 1 := ⟨n - 1, by omega⟩
    refine ⟨k, Nat.lt_succ_self k, ?_⟩
    rw [hlast, Nat.mod_self, Nat.eq_sub_of_add_eq hlast, gray_low_ones]
    exact Nat.xor_zero _
  · have hs : m + 1 < 2 ^ n := by omega
    obtain ⟨t, ht⟩ := exists_xor_succ m
    have hx : gray m ^^^ gray (m + 1) = 2 ^ t := by rw [← gray_xor, ht, gray_low_ones]
    have hlt : 2 ^ t < 2 ^ n := hx ▸ Nat.xor_lt_two_pow (gray_lt hm) (gray_lt hs)
    exact ⟨t, (Nat.pow_lt_pow_iff_right (by decide)).1 hlt, by rw [Nat.mod_eq_of_lt hs, hx]⟩

/-! ### Groups of data bits -/

theorem bitsNat_cons (b : Bool) (l : List Bool) : bitsNat (b :: l) = Nat.bit b (bitsNat l) := by
  rw [Nat.bit_val, Nat.add_comm]
  cases b <;> rfl

theorem testBit_bitsNat (l : List Bool) (j : Nat) : (bitsNat l).testBit j = l.getD j false := by
  induction l generalizing j with
  | nil => simp [bitsNat]
  | cons b l ih =>
    rw [bitsNat_cons]
    cases j with
    | zero => exact Nat.testBit_bit_zero b _
    | succ j => rw [Nat.testBit_bit_succ, ih, List.getD_cons_succ]

theorem bitsNat_lt (l : List Bool) : bitsNat l < 2 ^ l.length :=
  Nat.lt_pow_two_of_testBit _ fun i hi => by rw [testBit_bitsNat, List.getD_eq_default _ _ hi]

/-- A number's bits, as many as the list has, are the list. -/
theorem lsbBits_bitsNat (l : List Bool) : lsbBits l.length (bitsNat l) = l := by
  refine List.ext_getElem (by simp [lsbBits]) fun i h1 h2 => ?_
  simp [lsbBits, testBit_bitsNat, h2]

/-- The receiver's Gray map gives a full group of `sf` data bits back. -/
theorem gray_sweepValues {sf i : Nat} {l : List Bool} (h0 : 0 < sf) (h1 : sf ≤ 16) (hi : sf * i + sf ≤ l.length) :
    gray ((sweepValues sf l).getD i 0) = bitsNat ((l.drop (sf * i)).take sf) := by
  have hin : i < cdiv l.length sf := by
    unfold cdiv
    rw [Nat.lt_div_iff_mul_lt h0, Nat.mul_comm]
    omega
  have hlen : ((l.drop (sf * i)).take sf).length = sf := by
    rw [List.length_take, List.length_drop]
    omega
  have hlt : bitsNat ((l.drop (sf * i)).take sf) < 2 ^ sf := by
    have h := bitsNat_lt ((l.drop (sf * i)).take sf)
    rwa [hlen] at h
  rw [← gray_grayInv h1 hlt]
  simp [sweepValues, hin]

/-- The Gray map of chapter 11 for a spreading factor (R323). -/
theorem sweepGray : SweepGray := by
  intro sf h8 h15
  have h16 : sf ≤ 16 := by omega
  have h0 : 0 < sf := by omega
  refine ⟨fun d hd => ⟨grayInv_of_lt h16 hd, ?_, gray_grayInv h16 hd⟩,
    fun m hm => ⟨gray_eq m, grayInv_gray h16 hm, gray_neighbours h0 hm⟩, fun l i hi => ?_⟩
  · rw [grayInv_of_lt h16 hd]
    exact grayTerms_lt hd sf
  · rw [gray_sweepValues h0 h16 hi]
    constructor
    · have h := lsbBits_bitsNat ((l.drop (sf * i)).take sf)
      rwa [List.length_take, List.length_drop, Nat.min_eq_left (by omega)] at h
    · intro j hj
      simp [testBit_bitsNat, hj]

/-! ### The bin of a window (R328) -/

theorem max?_eq_binPeak {l : List Nat} (hl : l ≠ []) : l.max? = some (binPeak l).2 := by
  cases l with
  | nil => exact absurd rfl hl
  | cons x r => rw [List.max?_cons', binPeak, List.foldl_cons, Nat.zero_max]

/-- A window's peak is one of its powers, and none is larger. -/
theorem binPeak_spec {l : List Nat} (hl : l ≠ []) : (binPeak l).2 ∈ l ∧ ∀ x ∈ l, x ≤ (binPeak l).2 :=
  List.max?_eq_some_iff.1 (max?_eq_binPeak hl)

theorem binPeak_bin {l : List Nat} (hl : l ≠ []) : (binPeak l).1 < l.length ∧ l.getD (binPeak l).1 0 = (binPeak l).2 := by
  have hlt : (binPeak l).1 < l.length :=
    List.findIdx_lt_length_of_exists ⟨_, (binPeak_spec hl).1, decide_eq_true rfl⟩
  refine ⟨hlt, ?_⟩
  rw [List.getD_eq_getElem _ _ hlt]
  exact of_decide_eq_true (List.findIdx_getElem (w := hlt))

theorem le_binPeak {l : List Nat} {i : Nat} (hi : i < l.length) : l.getD i 0 ≤ (binPeak l).2 := by
  rw [List.getD_eq_getElem _ _ hi]
  exact (binPeak_spec (List.ne_nil_of_length_pos (Nat.zero_lt_of_lt hi))).2 _ (List.getElem_mem hi)

/-- Among the bins that hold the peak the lowest is taken. -/
theorem binPeak_lowest {l : List Nat} {i : Nat} (hi : i < l.length) (he : l.getD i 0 = (binPeak l).2) : (binPeak l).1 ≤ i := by
  rw [List.getD_eq_getElem _ _ hi] at he
  by_contra hn
  exact of_decide_eq_false (List.not_of_lt_findIdx (Nat.lt_of_not_le hn)) he

/-! ### Runs and searches (R328, R329) -/

theorem sweepRun_of_fails {h : SweepChan} {sf start : Nat} {g : SweepFound}
    (hg : g.peak * 256 < h.thr * g.noise ∨ g.peak < h.floorPwr) : sweepRun h sf start g = none := by
  simp [sweepRun, hg]

/-- A passing window without a run before it begins one. -/
theorem sweepRun_first {h : SweepChan} {sf start : Nat} {g : SweepFound} (h1 : h.thr * g.noise ≤ g.peak * 256)
    (h2 : h.floorPwr ≤ g.peak) (hr : tabFind? h.runs sf = none) :
    sweepRun h sf start g = some { len := 1, start := start, bin := g.bin } := by
  simp [sweepRun, h1, h2, tabGet, hr]

/-- A passing window half a symbol on, its bin half a turn on, lengthens the run. -/
theorem sweepRun_next {h : SweepChan} {sf start : Nat} {g : SweepFound} {r : SweepRun} (h1 : h.thr * g.noise ≤ g.peak * 256)
    (h2 : h.floorPwr ≤ g.peak) (hr : tabFind? h.runs sf = some r) (hl : r.len ≠ 0) (hs : start = r.start + 2 ^ sf / 2)
    (hb : g.bin = (r.bin + 2 ^ sf / 2) % 2 ^ sf) :
    sweepRun h sf start g = some { len := r.len + 1, start := start, bin := g.bin } := by
  simp [sweepRun, h1, h2, tabGet, hr, hl, ← hs, ← hb]

/-- The 24th window of the only search gives the demodulation its start and offset. -/
theorem searchAll_found {sf start : Nat} {p : Nat × Nat} {d : Demod} {q : SweepSearch} {f t0 : Int} (hsf : d.sf = sf)
    (hq : d.search = some q) (hn : q.seen = 23)
    (hfix : sweepFix (2 ^ sf) q.start q.bin (if q.peak < p.2 then start else q.downStart)
      (if q.peak < p.2 then p.1 else q.downBin) = (f, t0)) :
    searchAll sf start p [d] = [{ d with search := none, t0 := t0.toNat, f := f }] := by
  have hd : searchDemod sf start p d = { d with search := none, t0 := t0.toNat, f := f } := by
    by_cases hp : q.peak < p.2
    · simp only [hp, if_true] at hfix
      simp [searchDemod, hq, hsf, searchStep, hn, hp, hfix]
    · simp only [hp, if_false] at hfix
      simp [searchDemod, hq, hsf, searchStep, hn, hp, hfix]
  simp [searchAll, hd, hq, sameFrame]

/-! ### A detection window (R328, R329) -/

/-- A channel after the searches under way have seen window `w` of a spreading factor. -/
def searched (sf : Nat) (w : Nat × Nat) (h : SweepChan) : SweepChan :=
  { h with wins := tabPut h.wins sf (w.1 + 1), active := searchAll sf w.2 (binPeak (downPowers h sf w.2)) h.active }

/-- A channel with the run after a window, and the candidate of a run of six. -/
def withRun (sf start : Nat) (g : SweepFound) (h : SweepChan) : Option SweepRun → SweepChan
  | none => { h with runs := tabDel h.runs sf }
  | some r =>
    if r.len = 6 then sweepCandidate sf start g { h with runs := tabPut h.runs sf r } else { h with runs := tabPut h.runs sf r }

/-- The channel after a window that is due. -/
theorem exec_sweepDetectionWindow {s : State} {n sf : Nat} {h : SweepChan} {w : Nat × Nat} (hn : n < 64) (h8 : 8 ≤ sf)
    (h15 : sf ≤ 15) (hc : chanOf s n = some h) (hdue : windowDue s h sf = true) (hw : nextWindow s h sf = w) :
    ∃ t, exec (.sweepDetectionWindow n sf) s = .next t
      ∧ chanOf t n = some (withRun sf w.2 (foundOf (upPowers h sf w.2)) (searched sf w h)
          (sweepRun h sf w.2 (foundOf (upPowers h sf w.2)))) := by
  refine ⟨sweepWindow n sf s, run_next (by simp [hn, h8, h15]), ?_⟩
  simp only [sweepWindow, hc, hdue, hw, Bool.not_true, Bool.false_eq_true, if_false, chanOf_updChan, if_true, Option.map_some]
  rfl

/-- A candidate is counted and leaves the run. -/
theorem sweepCandidate_counts (sf start : Nat) (g : SweepFound) (h : SweepChan) :
    (sweepCandidate sf start g h).candidates = ctrInc h.candidates ∧ (sweepCandidate sf start g h).runs = h.runs := by
  unfold sweepCandidate
  dsimp only
  split <;> exact ⟨rfl, rfl⟩

/-- A candidate takes a free demodulation. -/
theorem sweepCandidate_free {sf start : Nat} {g : SweepFound} {h : SweepChan} (hf : h.active.length < h.demods) :
    sweepCandidate sf start g h = { h with
      candidates := ctrInc h.candidates
      active := h.active ++ [{ sf := sf, peak := g.peak, noise := g.noise, search := some { start := start, bin := g.bin } }] } :=
  if_neg (Nat.not_le_of_lt hf)

/-- A candidate that finds every demodulation taken is counted and lost. -/
theorem sweepCandidate_full {sf start : Nat} {g : SweepFound} {h : SweepChan} (hf : h.demods ≤ h.active.length) :
    sweepCandidate sf start g h = { h with candidates := ctrInc h.candidates, noSlot := ctrInc h.noSlot } :=
  if_pos hf

/-! ### Cells and rings by the pieces they stand in; what a message on a ring leaves (R41, R45) -/

theorem cellOf_congr {s t : State} (h : t.cells = s.cells) (p c : Nat) : cellOf t p c = cellOf s p c := by
  rw [cellOf, cellOf, h]

theorem ringOf_congr {s t : State} (h : t.rings = s.rings) (n : Nat) : ringOf t n = ringOf s n := by
  rw [ringOf, ringOf, h]

theorem ringRoom_congr {s t : State} (h : t.rings = s.rings) (n k : Nat) : ringRoom t n k = ringRoom s n k := by
  rw [ringRoom, ringRoom, ringOf_congr h]

/-- A message on a ring moves the device index of that ring by its entries. -/
theorem devIdx_ringPut (n type tag : Nat) (body : List Byte) (s : State) :
    (ringOf (ringPut n type tag body s) n).map (fun r => r.devIdx)
      = (ringOf s n).map (fun r => (r.devIdx + entriesFor body.length) % 4294967296) := by
  unfold ringPut
  cases hr : ringOf s n with
  | none => simp [hr]
  | some r =>
    dsimp only
    generalize hu : writeEntries r type tag _ r.devIdx body s = u
    have hring : ringOf u n = some r := by
      have hk : Keeps { mem := true } s u := hu ▸ writeEntries_keeps _ _ _ _ _ _ _ rfl (Keeps.refl _ _)
      rw [ringOf_congr (Keeps.rings hk), hr]
    generalize hv : updRing n _ u = v
    have hdev : ringOf v n = some { r with devIdx := (r.devIdx + entriesFor body.length) % 4294967296 } := by
      rw [← hv, ringOf_updRing, if_pos rfl, hring]
      rfl
    have hk : Keeps { mem := true, out := true } v (ringVector r (hdmWrite (ringIndexBlock r)
        (leBytes 4 ((r.devIdx + entriesFor body.length) % 4294967296)) v)) :=
      ringVector_keeps _ _ rfl (hdmWrite_keeps _ _ _ rfl (Keeps.refl _ _))
    rw [ringOf_congr (Keeps.rings hk), hdev]
    rfl

/-- A message on a ring leaves the Sweep channels alone. -/
theorem chanOf_ringPut (n type tag k : Nat) (body : List Byte) (s : State) :
    chanOf (ringPut n type tag body s) k = chanOf s k := by
  have hk : Keeps { rings := true, mem := true, out := true } s (ringPut n type tag body s) :=
    ringPut_keeps _ _ _ _ _ rfl rfl rfl (Keeps.refl _ _)
  rw [chanOf, Keeps.sweep hk]
  rfl

/-! ### A data symbol (R330 to R334) -/

/-- Whether `e` is the demodulation that `d` goes on with. -/
def sameDemod (d e : Demod) : Bool := e.sf = d.sf && e.t0 = d.t0 && e.f = d.f && e.search.isNone

/-- Channel `n` with `d` in the place of the demodulation it goes on with. -/
def putDemod (n : Nat) (d : Demod) (s : State) : State :=
  updChan n (fun h => { h with active := h.active.map (fun e => if sameDemod d e then d else e) }) s

/-- A demodulation with the bits of one more symbol. -/
def addBits (d : Demod) (more : List Bool) : Demod := { d with bits := d.bits ++ more, sym := d.sym + 1 }

/-- What follows a data symbol: the header's check where the header is complete, the frame's at its last symbol. -/
def checkDemod (n : Nat) (d : Demod) (s : State) : State :=
  let s := if d.sym = 12 + cdiv 56 d.sf then sweepHeader n d s else s
  match ((chanOf s n).bind (fun h => h.active.find? (sameDemod d))).bind (fun e => e.hdr) with
  | none => s
  | some hdr => if d.sym = 12 + sweepSyms d.sf (bits hdr 7 0) then sweepFinish n { d with hdr := some hdr } hdr s else s

theorem sameDemod_self {d : Demod} (hs : d.search = none) : sameDemod d d = true := by
  simp [sameDemod, hs]

section
variable {s : State} {n : Nat} {h : SweepChan} {d : Demod}

/-- The symbol of a channel's only demodulation is added to it, then checked. -/
theorem exec_sweepSymbol {more : List Bool} (hn : n < 64) (h8 : 8 ≤ d.sf) (h15 : d.sf ≤ 15) (hc : chanOf s n = some h)
    (hs : d.search = none) (ha : h.active = [d]) (hl : sweepLive s h (d.t0 + d.sym * 2 ^ d.sf) (2 ^ d.sf) = true)
    (hm : more = lsbBits d.sf (gray
      ((((binPeak (upPowers h d.sf (d.t0 + d.sym * 2 ^ d.sf))).1 : Int) - d.f) % ((2 ^ d.sf : Nat) : Int)).toNat)) :
    exec (.sweepSymbol n d.sf d.t0 d.f) s = .next (checkDemod n (addBits d more) (putDemod n (addBits d more) s)) := by
  refine (run_next (by simp [hn, h8, h15])).trans (congrArg Host.Outcome.next ?_)
  have hf : h.active.find? (sameDemod d) = some d := by rw [ha, List.find?_cons_of_pos (sameDemod_self hs)]
  unfold sameDemod at hf
  simp only [sweepSymbol, hc, hf, hl, Bool.not_true, Bool.false_eq_true, if_false, ← hm]
  rfl

theorem chanOf_putDemod {e : Demod} (hc : chanOf s n = some h) (ha : h.active = [d]) (hs : sameDemod e d = true) :
    chanOf (putDemod n e s) n = some { h with active := [e] } := by
  simp [putDemod, chanOf_updChan, hc, ha, hs]

/-- A change of channels keeps every other piece of the state. -/
theorem putDemod_frame (n : Nat) (d : Demod) (s : State) : Keeps { sweep := true } s (putDemod n d s) :=
  updChan_keeps _ _ _ rfl (Keeps.refl _ _)

theorem sweepOver_frame (n : Nat) (d : Demod) (f : SweepChan → SweepChan) (s : State) :
    Keeps { sweep := true } s (sweepOver n d f s) :=
  sweepOver_keeps _ _ _ _ rfl (Keeps.refl _ _)

/-- A channel's only demodulation is over: none is left, and what it counts is counted. -/
theorem chanOf_sweepOver (f : SweepChan → SweepChan) (hc : chanOf s n = some h) (ha : h.active = [d]) (hs : d.search = none) :
    chanOf (sweepOver n d f s) n = some (f { h with active := [] }) := by
  simp [sweepOver, chanOf_updChan, hc, ha, hs]

/-- Before the header is complete nothing is checked. -/
theorem checkDemod_early (hc : chanOf s n = some h) (ha : h.active = [d]) (hs : d.search = none) (hh : d.hdr = none)
    (hsym : d.sym ≠ 12 + cdiv 56 d.sf) : checkDemod n d s = s := by
  simp [checkDemod, hsym, hc, ha, sameDemod_self hs, hh]

/-- A header whose CRC is wrong ends the demodulation and is counted. -/
theorem checkDemod_badHeader (hc : chanOf s n = some h) (ha : h.active = [d]) (hs : d.search = none)
    (hsym : d.sym = 12 + cdiv 56 d.sf) (hcrc : crc24 (d.bits.take 32) ≠ bitsNat ((d.bits.drop 32).take 24)) :
    chanOf (checkDemod n d s) n = some { h with active := [], hdrFail := ctrInc h.hdrFail }
      ∧ Keeps { sweep := true } s (checkDemod n d s) := by
  have hhead : sweepHeader n d s = sweepOver n d (fun h => { h with hdrFail := ctrInc h.hdrFail }) s := by
    simp only [sweepHeader, hc, hcrc, ne_eq, not_false_iff, if_true]
  have hover := chanOf_sweepOver (fun h => { h with hdrFail := ctrInc h.hdrFail }) hc ha hs
  have hcheck : checkDemod n d s = sweepOver n d (fun h => { h with hdrFail := ctrInc h.hdrFail }) s := by
    simp [checkDemod, hsym, hhead, hover]
  rw [hcheck]
  exact ⟨hover, sweepOver_frame ..⟩

/-- The frame of a known header ends behind the symbol that completes the header: 24 bits are more than one symbol's. -/
theorem cdiv_lt_sweepSyms {sf : Nat} (len : Nat) (h8 : 8 ≤ sf) (h15 : sf ≤ 15) : cdiv 56 sf < sweepSyms sf len := by
  unfold sweepSyms cdiv
  rw [Nat.div_lt_iff_lt_mul (by omega)]
  have := Nat.lt_div_mul_add (a := 80 + 8 * len + sf - 1) (b := sf) (by omega)
  omega

/-- The last symbol of a frame leads to its check. -/
theorem checkDemod_last {hdr : Nat} (h8 : 8 ≤ d.sf) (h15 : d.sf ≤ 15) (hc : chanOf s n = some h) (ha : h.active = [d])
    (hs : d.search = none) (hh : d.hdr = some hdr) (hsym : d.sym = 12 + sweepSyms d.sf (bits hdr 7 0)) :
    checkDemod n d s = sweepFinish n d hdr s := by
  have hne : d.sym ≠ 12 + cdiv 56 d.sf := by
    have := cdiv_lt_sweepSyms (bits hdr 7 0) h8 h15
    omega
  have hd : { d with hdr := some hdr } = d := by rw [← hh]
  simp only [checkDemod, hne, if_false, hc, ha, Option.bind_some, List.find?_cons, sameDemod_self hs, hh, ← hsym, if_true, hd]

/-- The body of a SWEEP_RX is 56 bytes, or what the payload needs (R334). -/
theorem sweepRx_length (s : State) (n : Nat) (h : SweepChan) (d : Demod) (hdr : Nat) (payload : List Byte) :
    (sweepRx s n h d hdr payload).length = max 56 (24 + payload.length) := by
  simp only [sweepRx, leInt, List.length_append, leBytes_length, List.length_replicate]
  omega

/-- A frame with a wrong CRC ends the demodulation and is counted only. -/
theorem sweepFinish_badCrc {hdr : Nat} (hc : chanOf s n = some h) (ha : h.active = [d]) (hs : d.search = none)
    (hcrc : crc24 (d.bits.take 32 ++ (d.bits.drop 56).take (8 * bits hdr 7 0))
      ≠ bitsNat ((d.bits.drop (56 + 8 * bits hdr 7 0)).take 24)) :
    chanOf (sweepFinish n d hdr s) n = some { h with active := [], crcFail := ctrInc h.crcFail }
      ∧ Keeps { sweep := true } s (sweepFinish n d hdr s) := by
  have hfin : sweepFinish n d hdr s = sweepOver n d (fun h => { h with crcFail := ctrInc h.crcFail }) s := by
    simp only [sweepFinish, hc, hcrc, ne_eq, not_false_iff, if_true]
  rw [hfin]
  exact ⟨chanOf_sweepOver _ hc ha hs, sweepOver_frame ..⟩

/-- A frame with the right CRC ends the demodulation, is counted, and is posted on an indication ring with room. -/
theorem sweepFinish_posted {hdr ring k : Nat} (hc : chanOf s n = some h) (ha : h.active = [d]) (hs : d.search = none)
    (hring : (cellOf s h.part h.cell).cfg.indRing = ring) (hk : entriesFor (max 56 (24 + bits hdr 7 0)) = k)
    (hcrc : crc24 (d.bits.take 32 ++ (d.bits.drop 56).take (8 * bits hdr 7 0))
      = bitsNat ((d.bits.drop (56 + 8 * bits hdr 7 0)).take 24))
    (hroom : ringRoom s ring k = true) :
    chanOf (sweepFinish n d hdr s) n = some { h with active := [], framesOk := ctrInc h.framesOk }
      ∧ (ringOf (sweepFinish n d hdr s) ring).map (fun r => r.devIdx)
        = (ringOf s ring).map (fun r => (r.devIdx + k) % 4294967296) := by
  obtain ⟨body, hbody, hfin⟩ : ∃ body : List Byte, entriesFor body.length = k ∧ sweepFinish n d hdr s
      = ringPut ring 0x72 0 body (sweepOver n d (fun h => { h with framesOk := ctrInc h.framesOk }) s) := by
    refine ⟨sweepRx s n h d hdr ((List.range (bits hdr 7 0)).map (fun i => BitVec.ofNat 8 (bitsNat
      ((((d.bits.drop 56).take (8 * bits hdr 7 0)).drop (8 * i)).take 8)))), by simpa [sweepRx_length] using hk, ?_⟩
    simp only [sweepFinish, hc, hcrc, ne_eq, not_true_eq_false, if_false, sweepRx_length, List.length_map, List.length_range,
      hring, hk, hroom, if_true]
  rw [hfin, chanOf_ringPut, devIdx_ringPut, hbody, ringOf_congr (Keeps.rings (sweepOver_frame ..))]
  exact ⟨chanOf_sweepOver _ hc ha hs, rfl⟩

end

/-! ### The statement -/

/-- Settles O39: the Gray map telescopes, `withRun` says what a window does to a channel, `checkDemod` what a symbol does. -/
theorem sweepReception : Obligations.SweepReception := by
  refine ⟨sweepGray, fun _ => binPeak_bin, fun _ _ => le_binPeak, fun _ _ => binPeak_lowest, ?_, ?_⟩
  · rintro s n sf j start h g dw hn h8 h15 hc hdue hw rfl rfl
    obtain ⟨t, ht, hk⟩ := exec_sweepDetectionWindow hn h8 h15 hc hdue hw
    refine ⟨fun hg => ⟨t, _, ht, hk, ?_⟩, fun h1 h2 hr => ⟨t, _, ht, hk, ?_⟩, fun r h1 h2 hr hl hs hb => ⟨t, _, ht, hk, ?_⟩,
      fun d q f t0 hg ha hsf hq hseen hfix => ⟨t, _, ht, hk, ?_⟩⟩
    · rw [sweepRun_of_fails hg]
      exact ⟨by simp [withRun, tabFind?_del], tabGet_put_same .., rfl, rfl⟩
    · rw [sweepRun_first h1 h2 hr]
      exact ⟨tabGet_put_same .., rfl⟩
    · rw [sweepRun_next h1 h2 hr (by omega) hs hb, hl, withRun, if_pos rfl]
      refine ⟨(sweepCandidate_counts ..).1, ?_, fun hfree => ?_, fun hfull => ?_⟩
      · rw [(sweepCandidate_counts ..).2, tabGet_put_same]
      · rw [sweepCandidate_free hfree]
        exact ⟨rfl, rfl⟩
      · rw [sweepCandidate_full hfull]
        exact ⟨rfl, rfl⟩
    · rw [sweepRun_of_fails hg, withRun, searched, ha, searchAll_found hsf hq hseen hfix]
  · rintro s n sf t0 f h d more hn h8 h15 hc rfl rfl rfl hs ha hl hm
    have hexec := exec_sweepSymbol hn h8 h15 hc hs ha hl hm
    have hput := chanOf_putDemod hc ha (sameDemod_self (d := addBits d more) hs)
    have hkeep := putDemod_frame n (addBits d more) s
    generalize putDemod n (addBits d more) s = u at *
    refine ⟨fun hh hsym => ?_, fun hsym hcrc => ?_, ?_⟩
    · rw [checkDemod_early hput rfl hs hh hsym] at hexec
      exact ⟨u, hexec, hput, Keeps.mem hkeep⟩
    · obtain ⟨hchan, hframe⟩ := checkDemod_badHeader hput rfl hs hsym hcrc
      exact ⟨_, hexec, hchan, (Keeps.mem hframe).trans (Keeps.mem hkeep)⟩
    · rintro hdr len hh rfl hsym
      rw [checkDemod_last (d := addBits d more) h8 h15 hput rfl hs hh hsym] at hexec
      refine ⟨fun hcrc hroom => ?_, fun hcrc => ?_⟩
      · rw [← ringRoom_congr (Keeps.rings hkeep)] at hroom
        obtain ⟨hchan, hidx⟩ := sweepFinish_posted (d := addBits d more) hput rfl hs
          (congrArg (fun x => x.cfg.indRing) (cellOf_congr (Keeps.cells hkeep) ..)) rfl hcrc hroom
        exact ⟨_, hexec, hchan, by rw [hidx, ringOf_congr (Keeps.rings hkeep)]⟩
      · obtain ⟨hchan, hframe⟩ := sweepFinish_badCrc (d := addBits d more) hput rfl hs hcrc
        exact ⟨_, hexec, hchan, (Keeps.rings hframe).trans (Keeps.rings hkeep), (Keeps.mem hframe).trans (Keeps.mem hkeep)⟩

end Sys2Proof.SweepAccess
end

section
/-!
PROOFS. Chapter 14: the response to FAB_PORT_CONFIG posts COMMAND_DONE where the mailbox asks for it (R24, R27, R34), besides
any FAB_PORT (R425).
-/
open Sys2Proof Sys2Proof.Machine Sys2Proof.Claims

namespace Sys2Proof.MemoryFabric

/-! ### The notice of a completed command (R24, R27, R34) -/

/-- PF mailbox m asks for COMMAND_DONE in the event ring it names, and that ring takes it. -/
def NoticeTaken (s : State) (m : Nat) : Prop :=
  isVf m = false ∧ (mbxOf s m).irqEn = true ∧ (evRing s (mbxOf s m).evRing).enable = true
    ∧ bit (evRing s (mbxOf s m).evRing).mask 1 = true ∧ evOcc (evRing s (mbxOf s m).evRing) ≠ 512

theorem evRing_congr {s t : State} (h : t.evr = s.evr) (n : Nat) : evRing t n = evRing s n := by
  rw [evRing, evRing, h]

/-- A posted event moves the producer index of a ring with room. -/
theorem prod_postTo {s : State} {n : Nat} (e : Event) (hroom : evOcc (evRing s n) ≠ 512) :
    (evRing (postTo n e s) n).prod = ((evRing s n).prod + 1) % 4294967296 := by
  rw [postTo, if_neg hroom]
  exact congrArg EventRing.prod ((evRing_setEvRing n n _ s).trans (if_pos rfl))

theorem NoticeTaken.congr {s t : State} {m : Nat} (h : NoticeTaken s m) (hirq : (mbxOf t m).irqEn = (mbxOf s m).irqEn)
    (hring : (mbxOf t m).evRing = (mbxOf s m).evRing) (hevr : t.evr = s.evr) : NoticeTaken t m := by
  unfold NoticeTaken
  rw [hirq, hring, evRing_congr hevr]
  exact h

/-- The notice stands in the ring that the mailbox names. -/
theorem prod_completionNotice {s : State} {m : Nat} (c : Cmd) (r : Reply) (h : NoticeTaken s m) :
    (evRing (completionNotice m c r s) (mbxOf s m).evRing).prod
      = ((evRing s (mbxOf s m).evRing).prod + 1) % 4294967296 := by
  obtain ⟨hpf, hirq, henable, hmask, hroom⟩ := h
  simp only [completionNotice, hpf, hirq, henable, hmask, Bool.not_true, Bool.false_eq_true, Bool.and_self, if_true, if_false]
  exact prod_postTo _ hroom

/-- The response of a mailbox that asks for the notice changes the event rings. -/
theorem respond_evr_ne {s : State} {m : Nat} (c : Cmd) (r : Reply) (h : NoticeTaken s m) (hd : (mbxOf s m).discard = false) :
    (respond m c r s).evr ≠ s.evr := by
  intro heq
  simp only [respond, hd, Bool.false_eq_true, if_false, complete, mbxOf_setMbx, if_true] at heq
  generalize hu : setMbx m _ (setMbx m _ s) = u at heq
  have hring : (mbxOf u m).evRing = (mbxOf s m).evRing := by simp [← hu]
  have hevr : u.evr = s.evr := by rw [← hu]; rfl
  have hirq : (mbxOf u m).irqEn = (mbxOf s m).irqEn := by simp [← hu]
  have hprod := prod_completionNotice c r (h.congr hirq hring hevr)
  rw [evRing_congr heq, evRing_congr hevr] at hprod
  omega

/-! ### FAB_PORT_CONFIG that enables a port (R422) -/

/-- Enabling a port of the grade posts nothing of its own: it changes the fabric only. -/
theorem fabPortConfigBody_enable_frame {q : Req} {s : State} (hn : pl q 0 1 < gradePorts s.grade) (hon : pl q 1 1 = 1) :
    Keeps { fab := true } s (fabPortConfigBody q s).1 := by
  have hok : ¬(decide (gradePorts s.grade ≤ pl q 0 1) || decide (1 < pl q 1 1)) = true := by
    simp [hon, hn]
  rw [fabPortConfigBody, if_neg hok, hon]
  exact updPort_keeps _ _ _ rfl (Keeps.refl _ _)

/-- A due FAB_PORT_CONFIG that enables a port, in a mailbox that asks for the notice, changes the event rings. -/
theorem exec_fabPortConfig_enable_evr_ne {s t : State} {m : Nat} {c : Cmd} (hdue : Due s m 0x0601 c) (hnotice : NoticeTaken s m)
    (hn : field c.payload 0 1 < gradePorts s.grade) (hon : field c.payload 1 1 = 1) (ht : exec (.fabPortConfig m) s = .next t) :
    t.evr ≠ s.evr := by
  have hexec := run_due fabPortConfigBody hdue
  obtain ⟨-, -, hdiscard, -, -⟩ := hdue
  have hframe := fabPortConfigBody_enable_frame (q := ⟨m, targetOf m c, c⟩) hn hon
  have hmbx := mbxOf_congr (Keeps.mbx hframe) m
  cases ht.symm.trans hexec
  rw [← Keeps.evr hframe]
  exact respond_evr_ne c _ (hnotice.congr (by rw [hmbx]) (by rw [hmbx]) (Keeps.evr hframe)) (by rw [hmbx, hdiscard])

/-! ### The statement -/

/-- FAB_PORT_CONFIG that enables port 0, from the manager. -/
def enablePort0 : Cmd := { opcode := 0x0601, len := 2, target := 255, payload := [0, 1] }

/-- A device in service whose mailbox 0 runs that command with irq_en set, and whose event ring 0 takes class 0x01. -/
def notifying : State :=
  { State.reset with
      dev := { dawnDone := true }
      mbx := [(0, { irqEn := true, phase := .running, cmd := enablePort0, taken := some enablePort0 })]
      evr := [(0, { enable := true, mask := 2 })] }

theorem notifying_due : Due notifying 0 0x0601 enablePort0 := by decide +kernel

theorem notifying_noticeTaken : NoticeTaken notifying 0 := by
  unfold NoticeTaken
  decide +kernel

/-- Refutes O47: no port loses its link, so the statement lets FAB_PORT_CONFIG change no event ring; but mailbox 0 of
`notifying` has irq_en set, and the response posts COMMAND_DONE (R24, R27). -/
theorem not_fabricCommands : ¬ Obligations.FabricCommands := by
  rintro ⟨-, hconfig, -⟩
  have hport : field enablePort0.payload 0 1 < gradePorts notifying.grade := by decide
  have hon : field enablePort0.payload 1 1 = 1 := by decide
  obtain ⟨t, ht, -, -, -, hevr, -⟩ := (hconfig notifying 0 0 enablePort0 notifying_due (by decide)).1 hport (by decide)
  have hquiet : ¬((portOf notifying 0).link = true ∧ field enablePort0.payload 1 1 = 0) := by decide
  rw [if_neg hquiet] at hevr
  exact exec_fabPortConfig_enable_evr_ne notifying_due notifying_noticeTaken hport hon ht hevr

end Sys2Proof.MemoryFabric
end
